-- ==== Sys2Proof/Word.lean ====
section
/-! DEFINITION. The plain data types the model is written over: the 32-bit word, the byte, and the sparse map. -/
namespace Sys2Proof

/-- A byte of memory. -/
abbrev Byte := BitVec 8

/-- A 32-bit register or memory word (R14). -/
abbrev Word := BitVec 32

/-- A sparse map from keys to values, as plain data: a list of (key, value) pairs. What an
unlisted key reads as is the reader's default (`SMap.get`). -/
abbrev SMap (α : Type) := List (Nat × α)

end Sys2Proof
end

