-- ==== Sys2Proof/Syntax.lean ====
section
/-! DEFINITION. The commands of the block and their operands. The table gives no row any bits, so a command is data:
what the sender or the outside world supplies is an operand, and everything the block itself knows is in State. -/
namespace Sys2Proof
/-- The bus masters that send commands. -/
inductive Master where
  | ac0 | ac1 | ac2 | ac3 | sec | host | debugger
deriving DecidableEq, Repr
/-- What the ECC of a memory shows at an access (R53, R125, R410). -/
inductive Ecc where
  | ok | corrected | uncorrectable
deriving DecidableEq, Repr
/-- What the ECC of a memory shows over a read of several words; `i` counts the words of the read (R125, R410). -/
inductive WordEcc where
  | ok
  | corrected (i : Nat)
  | uncorrectable (i : Nat)
deriving DecidableEq, Repr
/-- The engine memory and word an ECC error is met in (R125). -/
inductive EngEcc where
  | ok
  | corrected (mem index : Nat)
  | uncorrectable (mem index : Nat)
deriving DecidableEq, Repr
/-- The two time values a read latches (R41). -/
inductive TimeReg where
  | lt | ct
deriving DecidableEq, Repr
/-- An exchanged input (R262): a load from an address, or a read of a CSR. -/
inductive ExInput where
  | load (addr : Word)
  | csr (c : Fin 4096)
deriving DecidableEq, Repr
/-- What a debugger changes in a main core (R278): registers, pc, CSRs, bytes of private memory. -/
inductive DbgTarget where
  | x (r : Fin 32)
  | f (r : Fin 32)
  | pc
  | csr (c : Fin 4096)
  | mem (offset : Fin 1048576)
deriving DecidableEq, Repr
/-- The header and the CRC-32 of a Seam frame as it reaches a port (R300); `codeOk` tells that its characters are valid
8b/10b code and that it ends with EOF. -/
structure SeamHead where
  codeOk : Bool
  ty : BitVec 8
  seq : BitVec 16
  len : BitVec 16
  tag : Word
  crc : Word
deriving DecidableEq, Repr
/-- The path a lease message arrives by (R291): a Seam port with the header of its frame, or a Fudorlink peer slot. -/
inductive LeasePath where
  | seam (port : Fin 2) (h : SeamHead)
  | fudorlink
deriving DecidableEq, Repr
/-- The fields of a lease message beside its KIND (R292). -/
structure LeaseMsg where
  sender : Fin 4
  holder : Fin 4
  epoch : Fin 32
  target : Fin 4
  cn : Word
  health : Word
deriving DecidableEq, Repr
/-- A Fudorlink frame as it reaches a port (R315): `codeOk` tells that its characters are valid 8b/10b code and that it ends
in EOF; both HOPS characters; the header with its reserved bits 0; the CRC-32; `sof` is the timestamp of the first bit of
its SOF, in eighths of a tick of this node's CT after the cycle boundary (R332). -/
structure FdlFrame where
  port : Fin 6
  codeOk : Bool
  hops : BitVec 8
  hops2 : BitVec 8
  slot : Fin 64
  node : Fin 64
  star : Fin 4
  mode : Fin 8
  null : Bool
  claim : BitVec 8
  pv : Bool
  pmode : Fin 8
  rv : Bool
  rmode : Fin 8
  cv : Bool
  cmode : Fin 8
  cn : BitVec 48
  payload : List Word
  crc : Word
  sof : Nat
deriving DecidableEq, Repr
/-- A Blule container as Crucible reads it (R443): 16 header words, the payload, the 4,260 words of its signature block, the
outcome of both signature checks (R444), and, where it lies in host memory, whether the DMA read all of it (R376). -/
structure Container where
  hdr : List Word
  payload : List Word
  sig : List Word
  rsaOk : Bool
  slhOk : Bool
  dmaOk : Bool := true
deriving DecidableEq, Repr
/-- Where a host access beside BAR0 goes (R352, R354, R358): a write at an offset of BAR2, a write of HIF_DBr of a ring, a read of
BAR2, or a read of a word of configuration space. -/
inductive Bell where
  | bar2 (offset : Fin 4096)
  | internal (r : Fin 16)
  | bar2Read (offset : Fin 4096)
  | config (word : Fin 64)
deriving DecidableEq, Repr
/-- What the DMA reads of a descriptor fetch return (R359): the descriptor in host memory and the words it points to
there; whether each read completed without error (R376). A ring in shared SRAM is read from there, and `descEcc` and `dataEcc` are
what its ECC shows (R410). -/
structure FetchData where
  desc : List Word
  data : List Word
  descOk : Bool
  dataOk : Bool
  descEcc : WordEcc := .ok
  dataEcc : WordEcc := .ok
deriving DecidableEq, Repr
/-- A CAN frame as received (R373): `sof` is CT bits 31:0 at its start of frame. -/
structure CanRx where
  id : BitVec 29
  ide : Bool
  fdf : Bool
  brs : Bool
  esi : Bool
  rtr : Bool
  len : Fin 65
  data : List Byte
  sof : Word
deriving DecidableEq, Repr
/-- A replay input (R507, R508): its words where it lies in host memory; whether the DMA read all of it; whether every session
key unwraps under the token's key; the plaintext of the oldest keyframe and of each frame record from it on, none where the TAG
fails. -/
structure ReplayInput where
  raw : List Word
  dmaOk : Bool
  unwrapOk : Bool
  key : Option (List Word)
  frames : List (Option (List Word))
deriving DecidableEq, Repr
/-- A copy of the boot control block (R451): its fields, the byte at offset 7 and the CRC it holds. -/
structure Machine.Bcb where
  crc : Nat := 0
  gen : Nat := 0
  prefer : Nat := 0
  stA : Nat := 0
  stB : Nat := 0
  pad : Nat := 0
  attA : Nat := 255
  attB : Nat := 255
deriving DecidableEq, Repr

/-- The commands of the block: one per row of `spec/opcode_table.json`, those with operands first. Each
docstring gives the row's summary and the rule it follows. -/
inductive Instr where
  /-- OFFSET_REQUEST: A write of TIME_OFS_REQ_I arms an offset request that replaces the remainder at the next
  boundary, or is ignored while Fudorlink owns it (R39). -/
  | offsetRequest (v : Word)
  /-- TIME_READ_LATCH: A read of TIME_LT_L or TIME_CT_L latches the matching _H and _F registers into the reading
  master's shadow (R41). -/
  | timeReadLatch (m : Master) (r : TimeReg)
  /-- FRAME_CYCLE_WRITE: A write of TIME_FRAME or TIME_CYCLE is performed, or refused for RUNNING or range with WDENY
  set (R46). -/
  | frameCycleWrite (cycle : Bool) (v : Word)
  /-- SAMPLE: An Anvil SAMPLE entry latches the latest completed ADC and sigma-delta results of a group into the frame
  input buffer (R61). -/
  | anvSample (ecc : Ecc)
  /-- CAPTURE: An Anvil CAPTURE entry latches feedback, pin and DC-link state into the frame input buffer (R62). -/
  | anvCapture (ecc : Ecc) (gpi : Word)
  /-- MOVE: An Anvil MOVE entry places a word copy in the move queue, waiting while the queue is full (R63). -/
  | anvMove (ecc : Ecc)
  /-- RUN: An Anvil RUN entry starts the named engines at ENTRY, each waiting for any MOVE into its data memory (R65).
  -/
  | anvRun (ecc : Ecc)
  /-- AWAIT: An Anvil AWAIT entry passes at once if its engines are done and the queue is empty, else holds the table
  (R66). -/
  | anvAwait (ecc : Ecc)
  /-- EXCHANGE_TX: An EXCHANGE with DIR 0 copies a buffer into a Fudorlink slot's transmit buffer and marks it full
  (R67). -/
  | anvExchangeTx (ecc : Ecc) (src : WordEcc)
  /-- EXCHANGE_RX: An EXCHANGE with DIR 1 copies the payload accepted in the cycle into a buffer or pending bank, or
  leaves it unwritten (R67). -/
  | anvExchangeRx (ecc : Ecc)
  /-- EXCHANGE_SEAM: An EXCHANGE with NET 1 on the lease holder snapshots the declared-state region for the Seam state
  copy (R301). -/
  | anvExchangeSeam (ecc : Ecc) (src : WordEcc)
  /-- CHECK: An Anvil CHECK entry marks checkpoint CPID for the named pairs (R68). -/
  | anvCheck (ecc : Ecc) (icX icY : BitVec 64)
  /-- PUBLISH: An Anvil PUBLISH entry queues a copy of engine results and an FN/flag word into the status buffer
  (R69). -/
  | anvPublish (ecc : Ecc) (corr : Bool)
  /-- LAUNCH: An Anvil LAUNCH entry commits an axis edge-command block to pins and/or gate link for a CT instant
  (R70). -/
  | anvLaunch (ecc : Ecc) (corr : Bool)
  /-- RECORD: An Anvil RECORD entry appends frame-input-buffer words to the frame's Almanac snapshot (R71). -/
  | anvRecord (ecc : Ecc)
  /-- SIGNAL: An Anvil SIGNAL entry sets a task flag in the named task units and optionally raises interrupt 24 +
  IRQSEL (R72). -/
  | anvSignal (ecc : Ecc)
  /-- MODE: In the last frame of a cycle the MODE entry latches the agreed or requested switch and arms it for the
  next boundary (R73). -/
  | anvMode (ecc : Ecc)
  /-- NOP: An Anvil NOP entry, or an entry whose PHASE does not match, issues and does nothing (R74). -/
  | anvNop (ecc : Ecc)
  /-- END: The Anvil END entry ends the frame program; the Almanac frame record and any keyframe are built (R74). -/
  | anvEnd (ecc : Ecc) (inTime : Bool)
  /-- SCRUB_READ: On a clock with no issue the Anvil scrubber reads and checks one table entry (R53). -/
  | scrubRead (ecc : Ecc)
  /-- MODE_REQUEST: A write of ANV_MODE_REQ.REQ requests a mode switch on a standalone device, or is refused (R76). -/
  | modeRequest (m : Fin 8)
  /-- VALIDATION_DONE: Validation of a written mode completes and sets VALID or records the first failing check (R52).
  -/
  | validationDone (ecc : Option (Fin 2048))
  /-- ENG_NOP: Engine NOP instruction (R102). -/
  | engNop (n : Fin 8) (ecc : EngEcc)
  /-- ENG_END: Engine END instruction ends the run (R112). -/
  | engEnd (n : Fin 8) (ecc : EngEcc)
  /-- MOV: Engine lane copy of data words (R102). -/
  | engMov (n : Fin 8) (ecc : EngEcc)
  /-- LDK: Engine load of a coefficient value into a data word (R102). -/
  | engLdk (n : Fin 8) (ecc : EngEcc)
  /-- ASH: Engine arithmetic shift with rounding and saturation (R102). -/
  | engAsh (n : Fin 8) (ecc : EngEcc)
  /-- ADD: Engine saturating lane addition (R102). -/
  | engAdd (n : Fin 8) (ecc : EngEcc)
  /-- SUB: Engine saturating lane subtraction (R102). -/
  | engSub (n : Fin 8) (ecc : EngEcc)
  /-- NEG: Engine saturating negation (R102). -/
  | engNeg (n : Fin 8) (ecc : EngEcc)
  /-- ABS: Engine saturating absolute value (R102). -/
  | engAbs (n : Fin 8) (ecc : EngEcc)
  /-- MULD: Engine scaled product of two data words (R102). -/
  | engMuld (n : Fin 8) (ecc : EngEcc)
  /-- MULC: Engine scaled product of a data word and a coefficient (R102). -/
  | engMulc (n : Fin 8) (ecc : EngEcc)
  /-- AXPY: Engine scaled multiply-add with saturation (R102). -/
  | engAxpy (n : Fin 8) (ecc : EngEcc)
  /-- ACLR: Engine clears lane accumulators (R102). -/
  | engAclr (n : Fin 8) (ecc : EngEcc)
  /-- MACC: Engine lane multiply-accumulate with coefficients (R102). -/
  | engMacc (n : Fin 8) (ecc : EngEcc)
  /-- MACD: Engine lane multiply-accumulate of data words (R102). -/
  | engMacd (n : Fin 8) (ecc : EngEcc)
  /-- MSUD: Engine lane multiply-subtract of data words (R102). -/
  | engMsud (n : Fin 8) (ecc : EngEcc)
  /-- ACST: Engine stores scaled lane accumulators (R102). -/
  | engAcst (n : Fin 8) (ecc : EngEcc)
  /-- ACSM: Engine stores the scaled sum of all four accumulators (R102). -/
  | engAcsm (n : Fin 8) (ecc : EngEcc)
  /-- MIN: Engine lane minimum (R102). -/
  | engMin (n : Fin 8) (ecc : EngEcc)
  /-- MAX: Engine lane maximum (R102). -/
  | engMax (n : Fin 8) (ecc : EngEcc)
  /-- CLMP: Engine clamp to program-supplied limits (R102). -/
  | engClmp (n : Fin 8) (ecc : EngEcc)
  /-- SEL: Engine arithmetic select on the sign of the old destination (R102). -/
  | engSel (n : Fin 8) (ecc : EngEcc)
  /-- AND: Engine bitwise AND (R102). -/
  | engAnd (n : Fin 8) (ecc : EngEcc)
  /-- OR: Engine bitwise OR (R102). -/
  | engOr (n : Fin 8) (ecc : EngEcc)
  /-- XOR: Engine bitwise XOR (R102). -/
  | engXor (n : Fin 8) (ecc : EngEcc)
  /-- CLARKE: Engine Clarke transform, two- or three-phase (R104). -/
  | engClarke (n : Fin 8) (ecc : EngEcc)
  /-- PARK: Engine Park transform (R105). -/
  | engPark (n : Fin 8) (ecc : EngEcc)
  /-- IPARK: Engine inverse Park transform (R105). -/
  | engIpark (n : Fin 8) (ecc : EngEcc)
  /-- SINCOS: Engine fixed 30-step CORDIC sine and cosine (R106). -/
  | engSincos (n : Fin 8) (ecc : EngEcc)
  /-- LUT1: Engine one-dimensional table interpolation (R107). -/
  | engLut1 (n : Fin 8) (ecc : EngEcc)
  /-- LUT2: Engine two-dimensional table interpolation (R107). -/
  | engLut2 (n : Fin 8) (ecc : EngEcc)
  /-- INTG: Engine clamped integrator update (R108). -/
  | engIntg (n : Fin 8) (ecc : EngEcc)
  /-- RLIM: Engine rate limiter update (R108). -/
  | engRlim (n : Fin 8) (ecc : EngEcc)
  /-- BIQ: Engine direct-form-I biquad filter step (R109). -/
  | engBiq (n : Fin 8) (ecc : EngEcc)
  /-- FIR: Engine FIR filter step with delay-line shift (R109). -/
  | engFir (n : Fin 8) (ecc : EngEcc)
  /-- FCST: Engine Forecast residual filter step updating its counter (R115). -/
  | engFcst (n : Fin 8) (ecc : EngEcc)
  /-- ENG_ILLEGAL: An invalid program word is met at execution; the engine halts without completing (R125). -/
  | engIllegal (n : Fin 8)
  /-- ENGINE_COMPLETION: An engine run retires END, clears BUSY and sets its completion flag (R112). -/
  | engineCompletion (n : Fin 8) (corr : Bool)
  /-- DATA_MEMORY_WRITE: A bus write to engine data memory is performed only while the axis is DISABLED and the engine
  idle (R90). -/
  | dataMemoryWrite (m : Master) (n : Fin 8) (a : Fin 16384) (v : Word)
  /-- DATA_MEMORY_READ: A bus read of engine data memory returns the word or 0 if its page class is not covered
  (R119). -/
  | dataMemoryRead (m : Master) (n : Fin 8) (a : Fin 16384) (corr : Bool)
  /-- TRACE_RP_WRITE: The consumer writes CEC_TR_RP, freeing trace ring space (R123). -/
  | traceRpWrite (v : Word)
  /-- SAMPLING_PLAN: At each carrier peak of a single-shunt axis COM plans the two shunt conversions of the falling
  half (R134). -/
  | samplingPlan (n : Fin 8)
  /-- SHUNT_CONVERSION: A planned shunt conversion starts, is deferred, or is skipped if it cannot finish in its
  window (R135). -/
  | shuntConversion (n : Fin 8) (winB : Bool) (raw : BitVec 14)
  /-- SHUNT_SET_COMPLETE: At the valley COM completes the shunt set and rebuilds phase currents (R136). -/
  | shuntSetComplete (n : Fin 8)
  /-- DC_LINK_RESULT: A new DC-link result is compared with the thresholds, driving chopper, clamp and trip (R147). -/
  | dcLinkResult (n : Fin 8)
  /-- VDC_LOST: No DC-link result for TOUT µs latches VDC_LOST (R147). -/
  | vdcLost (n : Fin 8)
  /-- CHOPPER_CURRENT_RESULT: A chopper-current result is checked against CH_IMIN and the chopper command (R149). -/
  | chopperCurrentResult (n : Fin 8)
  /-- CHOPPER_NO_FALL_CHECK: CH_TCHK after switch-on, the link is checked for a fall (R149). -/
  | chopperNoFallCheck (n : Fin 8)
  /-- QUADRATURE_TRANSITION: A filtered A/B change counts up, down or illegal (R165). -/
  | quadratureTransition (n : Fin 8) (clk : Nat) (raw : List (BitVec 3))
  /-- INDEX_ACCEPT: An index edge is accepted and its distance from the last index is checked (R168). -/
  | indexAccept (n : Fin 8) (clk : Nat) (raw : List (BitVec 3))
  /-- OVERRATE: Short raw intervals in a 256-sample window exceed OVR_N; the counter freezes (R167). -/
  | overrate (n : Fin 8) (gaps : List Nat)
  /-- HALL_STATE_CHANGE: A filtered Hall state change steps the count or marks an invalid state (R169). -/
  | hallStateChange (n : Fin 8) (clk : Nat) (raw : List (BitVec 3))
  /-- HALL_ILLEGAL: An invalid Hall state held for HTOUT clears VALID (R169). -/
  | hallIllegal (n : Fin 8)
  /-- SSI_TRANSFER_START: At T0 an SSI channel starts its clocked transfer (R170). -/
  | ssiTransferStart (n : Fin 8) (high : Bool)
  /-- SSI_RESULT: An SSI transfer completes and is checked for validity (R171). -/
  | ssiResult (n : Fin 8) (data : BitVec 40) (par check : Bool)
  /-- RESOLVER_SAMPLE: A resolver or sin/cos pair converts and FBK updates angle, turns and magnitude (R172). -/
  | resolverSample (ch7 : Bool) (sn cs : BitVec 14)
  /-- LINE_LOSS: A differential pair within 200 mV for 1 µs sets LOS and raises SIGNAL_LOST (R176). -/
  | lineLoss (n : Fin 8)
  /-- REARM: A write of FBK_CTRL.REARM re-arms a channel, or is refused while an axis uses it (R178). -/
  | rearm (mask : BitVec 8)
  /-- FBK_AXMAP_WRITE: A write of FBK_AXMAP updates entries of DISABLED axes only (R190). -/
  | fbkAxmapWrite (v : BitVec 24)
  /-- ADC_CONVERSION_DONE: An ADC conversion ends its aperture and stores its result (R180). -/
  | adcConversionDone (c : Fin 48) (raw : BitVec 14)
  /-- GROUP_TRIGGER: A sample group's trigger instant starts conversions of its enabled ADC slots (R182). -/
  | groupTrigger (g : Fin 16)
  /-- GROUP_CONVERSION_DROP: A waiting group conversion not started within 1 µs, or at retrigger, is dropped (R183). -/
  | groupConversionDrop (g : Fin 16) (k : Fin 8)
  /-- SINC3_RESULT: A sinc3 decimation period ends and a 16-bit code is stored (R186). -/
  | sinc3Result (n : Fin 24) (stream : BitVec 256)
  /-- SD_STUCK: A bitstream without transitions for STOUT × 16 clocks raises SD_STUCK (R187). -/
  | sdStuck (n : Fin 24) (more : BitVec 8)
  /-- CSA_OVR: A current-sense input leaves its common-mode range (R181). -/
  | csaOvr (k : Fin 4)
  /-- SSUP_FAULT: A sensor supply in limit or undervoltage for 1 ms switches off (R188). -/
  | ssupFault (k : Fin 4)
  /-- BLOCK_IN_FORCE: At its instant a pending edge-command block comes into force for the next half (R198). -/
  | blockInForce (n : Fin 8)
  /-- LEG_TRANSITION: At its instant a leg turns its outgoing switch off (R197). -/
  | legTransition (n : Fin 8) (x : Fin 3)
  /-- INCOMING_TURN_ON: DT after a leg transition the incoming switch turns on unless superseded (R197). -/
  | incomingTurnOn (n : Fin 8) (x : Fin 3)
  /-- TRIP_INPUT: A filtered enabled TRIP input becomes active, latches and blocks the masked axes' phase pins (R202).
  -/
  | tripInput (t : Fin 8)
  /-- TRIP_LATCH_CLEAR: A W1C write clears a TRIP latch only while its input is inactive (R202). -/
  | tripLatchClear (mask : BitVec 8)
  /-- BLOCK_WORD: At its character boundary the device sends a falling, rising or off block word on a gate link
  (R206). -/
  | blockWord (n : Fin 8)
  /-- HEARTBEAT: A heartbeat word with MODE and SEQ is sent when nothing else is due or MODE drops (R207). -/
  | heartbeat (n : Fin 8)
  /-- SETUP_WORD: A setup word carrying one parameter is sent on the gate link (R208). -/
  | setupWord (n : Fin 8)
  /-- STATUS_WORD: A valid uplink status word is copied to OUT_An_UPL and checked for faults (R209). -/
  | statusWord (n : Fin 8) (clk : Nat) (valid : Bool) (c1 c2 c3 c4 : BitVec 8)
  /-- ECHO_WORD: An uplink echo word answers an echo request and gives a latency measurement (R209). -/
  | echoWord (n : Fin 8) (clk : Nat) (valid : Bool) (value : BitVec 8) (turn : BitVec 16) (round : Nat)
  /-- TRAIN: A write of OUT_An_GLCTL.TRAIN starts link training on a DISABLED axis (R210). -/
  | glTrain (n : Fin 8)
  /-- TRAINING_DONE: Eight echo measurements complete and the link becomes UP or FAILED (R210). -/
  | trainingDone (n : Fin 8)
  /-- LATENCY_REMEASURE: Every 1,024 setup words an UP link repeats its latency measurement (R210). -/
  | latencyRemeasure (n : Fin 8)
  /-- GL_LOSS: No valid uplink word for 400 ns takes the link DOWN (R210). -/
  | glLoss (n : Fin 8)
  /-- GL_CLEAR: A write of OUT_An_GLCTL.CLEAR sends parameter 0x04 to clear partner sticky flags (R208). -/
  | glClear (n : Fin 8)
  /-- SO_READBACK_CHECK: 50 µs after a safe-output command change the read-back is compared with the expected levels
  (R217). -/
  | soReadbackCheck (m : Fin 4) (midh midl ihs : Bool)
  /-- SO_OVERCURRENT: High-side current above 2.6 A turns both switches off (R217). -/
  | soOvercurrent (m : Fin 4)
  /-- SO_TEST_PULSE: Every TP_INT the HV test engine pulses one safe-output switch (R218). -/
  | soTestPulse (m : Fin 4)
  /-- SO_TEST_PULSE_END: A test pulse ends and its expected reading is judged (R218). -/
  | soTestPulseEnd (m : Fin 4) (midh midl : Bool)
  /-- SO_LATCH_CLEAR: A W1C write clears a safe-output latch outside ACTIVE and LEE (R218). -/
  | soLatchClear (m : Fin 4) (mask : BitVec 4)
  /-- ARM_TIMEOUT: An axis spends ARM_TOUT frames in ARMING without running and returns to DISABLED (R230). -/
  | armTimeout (n : Fin 8)
  /-- STOP_TIMEOUT: An axis reaches STOP_TOUT cycles in STOPPING (R233). -/
  | stopTimeout (n : Fin 8)
  /-- SP_STALE: AGE reaches SP_MISS on an axis out of DISABLED and a loss stop starts (R231). -/
  | spStale (n : Fin 8)
  /-- GUST_LONG: GUST is seen for more than GUST_MAX cycles and a loss stop starts (R247). -/
  | gustLong (n : Fin 8)
  /-- COUPLED_STORE: A main-core store outside private memory enters the release buffer and the signature (R256). -/
  | coupledStore (p : Fin 2) (chk : Bool) (ic : BitVec 64) (addr : Word) (mask : BitVec 8) (data : BitVec 64)
  /-- INPUT_EXCHANGE: Main and checker reads of an asynchronous input meet and are agreed under the region rule
  (R263). -/
  | inputExchange (p : Fin 2) (ic : BitVec 64) (i : ExInput) (first : BitVec 64 × BitVec 64)
      (again : List (BitVec 64 × BitVec 64)) (unitsDiffer : Bool) (ecc : Ecc)
  /-- CHKPT: A write to CSR 0x800 marks a checkpoint and queues its signature (R258). -/
  | chkpt (p : Fin 2) (ic : BitVec 64) (v : Word)
  /-- CHECKPOINT_COMPARE: When the checker reaches a checkpoint both comparators compare signatures (R259). -/
  | checkpointCompare (p : Fin 2) (eccA eccB : Ecc) (faultyA faultyB : Bool)
  /-- RELEASE_DRAIN: An agreed checkpoint's stores drain in order and the drain signature is verified (R260). -/
  | releaseDrain (p : Fin 2) (sigOk : Bool)
  /-- CP_TIMEOUT: The checker fails to reach a checkpoint within CP_TOUT; the pair is lost (R261). -/
  | cpTimeout (p : Fin 2)
  /-- ACCESS_FAULT: An AMO, LR or SC outside private memory raises an access fault in both cores (R255). -/
  | accessFault (p : Fin 2) (lr : Bool)
  /-- CHECKER_TRAP: The checker retires the logged IC and takes the same trap as the main core (R265). -/
  | checkerTrap (p : Fin 2)
  /-- REJOIN: A released write of CHK_CTRL.REJOIN resets a LOST pair and starts its rejoin (R271). -/
  | rejoin (p : Fin 2)
  /-- ASSAY: Assay of a pair's comparators completes with pass, fallback or failure (R273). -/
  | assay (p : Fin 2) (a b : Option (Fin 66))
  /-- SCRUB_COMPARE: The hashes of a scrub checkpoint are compared (R275). -/
  | scrubCompare (p : Fin 2) (main chk : List (DbgTarget × BitVec 64))
  /-- PAIR_RESYNC: Once the main core waits in wfi with nothing pending, CHK starts copying its state into the checker
  (R276). -/
  | pairResync (p : Fin 2) (wfi : Bool) (chkIc : BitVec 64)
  /-- PAIR_RESYNC_END: The resync copy completes and the pair resumes (R276). -/
  | pairResyncEnd (p : Fin 2)
  /-- DEBUG_HALT: A debugger halt request reaches the main core, or is refused in ACTIVE or LEE (R278). -/
  | debugHalt (p : Fin 2) (ic : BitVec 64)
  /-- RENEW: A received RENEW is judged and may be recognised and granted (R293). -/
  | leaseRenew (m : LeaseMsg) (path : LeasePath)
  /-- GRANT: A received lease GRANT counts toward the holder's renewal (R293). -/
  | leaseGrant (m : LeaseMsg) (path : LeasePath)
  /-- TAKE: A received TAKE from a candidate is judged for a TGRANT (R295). -/
  | leaseTake (m : LeaseMsg) (path : LeasePath)
  /-- TGRANT: A received TGRANT counts toward the candidate's takeover (R295). -/
  | tgrant (m : LeaseMsg) (path : LeasePath)
  /-- HEALTH: A received HEALTH message updates the peer's health word and AGE (R304). -/
  | health (m : LeaseMsg) (path : LeasePath)
  /-- BULK_REQ: A holder receives a bulk resync request (R306). -/
  | bulkReq (m : LeaseMsg) (path : LeasePath)
  /-- PEER_LOST: No lease message from a channel for L cycles (R302). -/
  | peerLost (c : Fin 3)
  /-- STATE_SEGMENT: A Seam state segment is received into the idle receive half (R301). -/
  | stateSegment (p : Fin 2) (h : SeamHead) (words : List Word)
  /-- BULK_SEGMENT: A bulk segment is received (R306). -/
  | bulkSegment (p : Fin 2) (h : SeamHead) (words : List Word)
  /-- BULK_END: A bulk-end frame is received and the region CRC is checked (R306). -/
  | bulkEnd (p : Fin 2) (h : SeamHead) (words : List Word)
  /-- SEAM_PORT_UP: An enabled Seam port receives 64 valid characters and becomes UP (R299). -/
  | seamPortUp (p : Fin 2)
  /-- SEAM_LINK_DOWN: No valid character for 400 ns takes a Seam port DOWN (R299). -/
  | seamLinkDown (p : Fin 2)
  /-- SLICE_TEST: A due slice test runs between END and the next frame tick (R303). -/
  | sliceTest (ok : Bool)
  /-- SLICE_HOLD: A write of SEAM_CTRL.SLICE_HOLD suspends slice tests, accepted only in STANDBY (R311). -/
  | sliceHold (b : Bool)
  /-- COMMAND_FRAME: A COMMAND slot frame is received and the payload with the highest current claim is accepted
  (R289). -/
  | commandFrame (fs : List FdlFrame)
  /-- STATUS_FRAME: A STATUS slot frame is received, checked and its payload held (R317). -/
  | statusFrame (f : FdlFrame)
  /-- DATA_FRAME: A DATA slot frame is received (R320). -/
  | dataFrame (f : FdlFrame)
  /-- PEER_FRAME: A PEER slot frame carrying a lease message copy is received (R320). -/
  | peerFrame (f : FdlFrame)
  /-- JOIN_REQUEST: The proposer receives a join request and records the comparison (R345). -/
  | joinRequest (f : FdlFrame)
  /-- SLOT_TRANSMIT: At AP minus DLY a node sends its slot frame, or a null frame (R323). -/
  | slotTransmit (i : Fin 64)
  /-- FRAME_RELAY: A coupler relays a frame arriving in its window (R326). -/
  | frameRelay (p : Fin 6) (i : Fin 64) (hops h0 h1 h3 : BitVec 8) (sof : Nat)
  /-- WINDOW_CLOSE: A slot window closes on a frame still arriving, which is ended with K30.7 (R327). -/
  | windowClose (p : Fin 6)
  /-- PORT_ISOLATED: BAB_N consecutive babbling cycles isolate a star port (R330). -/
  | portIsolated (p : Fin 6)
  /-- REOPEN: A write of FDL_Pp_CTL.REOPEN ends isolation if the port has been quiet 16 cycles (R330). -/
  | reopen (p : Fin 6)
  /-- FDL_LINK_UP: A Fudorlink port receives 64 valid characters with its delay measured and becomes UP (R312). -/
  | fdlLinkUp (p : Fin 6)
  /-- LINK_DOWN: No valid character for 400 ns takes a Fudorlink port DOWN (R312). -/
  | linkDown (p : Fin 6)
  /-- LINK_DELAY_MEASUREMENT: Eight echo exchanges complete and give the port delay DLY (R314). -/
  | linkDelayMeasurement (p : Fin 6) (trips : List (BitVec 16)) (turn : BitVec 16)
  /-- REMEASURE: A write of FDL_Pp_CTL.REMEASURE starts a delay measurement (R314). -/
  | remeasure (p : Fin 6)
  /-- PROP: A write of FDL_MODE_PROP.PROP starts a mode proposal, or is refused (R340). -/
  | fdlProp (m : Fin 8)
  /-- NODE_LOST: An admitted node's slots yield nothing for LOSS_CYC cycles (R343). -/
  | nodeLost (star : Fin 4) (node : Fin 64)
  /-- PAYLOAD_GUARD_TIMEOUT: A guarded slot has no accepted payload for TIMEOUT cycles (R344). -/
  | payloadGuardTimeout (i : Fin 64)
  /-- BAR0_ACCESS: A PCIe BAR0 access reaches a block, or is denied with HIF_STAT.DENY (R353). -/
  | bar0Access (off : Fin 1048576) (size : Fin 16) (data : Option Word)
  /-- DOORBELL: A doorbell write advances a ring index or is refused (R358). -/
  | doorbell (b : Bell) (word : Bool) (v : Word)
  /-- RING_ENABLE: A write of HIF_Rr_CTL.EN = 1 enables a ring if its configuration is valid (R356). -/
  | ringEnable (r : Fin 16)
  /-- RING_DISABLE: A write of EN = 0 ends a ring and completes its queued commands FLUSHED (R356). -/
  | ringDisable (r : Fin 16)
  /-- DESCRIPTOR_FETCH: With room in the apply queue the device fetches and validates a command descriptor (R359). -/
  | descriptorFetch (r : Fin 16) (clk : Nat) (f : FetchData)
  /-- CAN_TX_DONE: A queued CAN frame is sent and completes OK (R374). -/
  | canTxDone (c : Fin 2) (sof : BitVec 64)
  /-- CAN_TX_STALE: A CAN frame not started by its deadline frame is removed STALE (R374); `onBus` is the place in the
  transmit queue, in apply order, of a frame whose transmission has begun. -/
  | canTxStale (c : Fin 2) (onBus : Option (Fin 16))
  /-- CAN_RX: A received CAN frame is filtered, guarded and written to its ring (R373). -/
  | canRx (c : Fin 2) (x : CanRx)
  /-- CAN_ERROR_STATE: A CAN controller changes between error active, error passive and bus-off (R375). -/
  | canErrorState (c : Fin 2) (st : Fin 3) (tec : BitVec 8) (rec : BitVec 7)
  /-- RECOVER: A write of CAN_Cc_CTRL.RECOVER starts bus-off recovery (R375). -/
  | recover (c : Fin 2)
  /-- CAN_GUARD_TIMEOUT: A filter accepts no frame for TOUT cycles (R376). -/
  | canGuardTimeout (c : Fin 2) (f : Fin 32)
  /-- INTERRUPT_PRESENT: The controller presents the lowest pending enabled source to an idle target (R384). -/
  | interruptPresent (t : Fin 4)
  /-- INTERRUPT_ACCEPT: The target core takes the trap; the source enters service and the delivery log (R385). -/
  | interruptAccept (t : Fin 4) (ic : BitVec 64) (clk : Nat)
  /-- DONE: A write of INTC_Tt_DONE ends service of a source (R386). -/
  | intcDone (t : Fin 4) (src : BitVec 8)
  /-- SWSET: A write of INTC_SWSET signals events on software sources (R382). -/
  | swset (mask : BitVec 16)
  /-- SOURCE_CONFIG_WRITE: A write of INTC_SRCs changes EN, TGT, LVL or WAKE with the timing of R388 and R389 (R389). -/
  | sourceConfigWrite (src : Fin 256) (v : BitVec 6)
  /-- START: Task command START moves a DORMANT task to READY (R396). -/
  | taskStart (p : Fin 2) (k : Fin 128) (prio : Fin 16) (mode autoclr : Bool)
  /-- STOP: Task command STOP returns a task to DORMANT (R396). -/
  | taskStop (p : Fin 2) (k : Fin 128) (ic : Word)
  /-- SET: Task command SET ORs flags into a task (R396). -/
  | taskSet (p : Fin 2) (k : Fin 128)
  /-- CLEAR: Task command CLEAR removes flags from a task (R396). -/
  | taskClear (p : Fin 2) (k : Fin 128)
  /-- WAIT: Task command WAIT makes the running task wait on a mask and makes a decision (R396). -/
  | taskWait (p : Fin 2) (mode autoclr : Bool) (ic : Word)
  /-- YIELD: Task command YIELD requeues the running task and makes a decision (R396). -/
  | taskYield (p : Fin 2) (ic : Word)
  /-- SWITCH: Task command SWITCH runs the head if it outranks the running task (R396). -/
  | taskSwitch (p : Fin 2) (ic : Word)
  /-- PRIO: Task command PRIO changes a task's priority and re-ranks it (R396). -/
  | taskPrio (p : Fin 2) (k : Fin 128) (prio : Fin 16)
  /-- TASK_SPILL: A ready entry is written to the spill region after 8 clocks (R400). -/
  | taskSpill (p : Fin 2)
  /-- TASK_REFILL: The highest spilled entry is read back into the hardware queue after 8 clocks (R400). -/
  | taskRefill (p : Fin 2) (ecc : WordEcc)
  /-- TSK_ENABLE: A write of TSK_Px_CTRL.EN from 0 to 1 resets every task (R393). -/
  | tskEnable (p : Fin 2)
  /-- FLT_READBACK_CHECK: 10 µs after an edge instant the FLT ball levels are compared (R421). -/
  | fltReadbackCheck (p n : Bool)
  /-- LOG_RP_WRITE: A write of FCU_LOGRP moves the log read pointer, or is refused (R426). -/
  | logRpWrite (v : BitVec 8)
  /-- REACT_WRITE: A write of FCU_SCFG.REACT sets the selected source's reaction, or is refused (R412). -/
  | reactWrite (v : BitVec 4)
  /-- LEE_LIMIT_WRITE: A write of FCU_LEE sets LIMIT and WARN, or is refused (R418). -/
  | leeLimitWrite (v : Word)
  /-- BOOT_SELECT: The boot ROM selects and verifies an image and takes BOOT to ASSAY or SAFE (R453). -/
  | bootSelect (bcb0 bcb1 : Option Machine.Bcb) (slotA slotB : Option Container) (lcBad : Bool) (slots : BitVec 4) (drs : Bool) (ctr : BitVec 5) (cut : Fin 4)
  /-- IMAGE_LOAD: Crucible verifies an IMAGE container and writes it into the other slot as TRIAL (R454). -/
  | imageLoad (c : Container) (flashOk : Bool)
  /-- ENGINE_LOAD: Crucible verifies an ENGINE container and loads program, coefficients, classes and nodes (R92). -/
  | engineLoad (c : Container) (report : Bool)
  /-- SEALED_LOAD: Crucible unwraps, decrypts and checks a SEALED container into coefficient memory (R479). -/
  | sealedLoad (c : Container) (unwrapOk tagOk report : Bool) (plain : List Word)
  /-- SCHEDULE_LOAD: Crucible writes a mode's frame program and mode region and starts validation (R450). -/
  | scheduleLoad (c : Container)
  /-- LIFECYCLE: A LIFECYCLE token is verified, its effect completed and the new lifecycle fuses blown (R436). -/
  | lifecycle (c : Container)
  /-- KEYS: A KEYS token programs or revokes a slot or blows SPLIT fuses (R440). -/
  | keys (c : Container)
  /-- DEBUG: A DEBUG token opens OBSERVE or FULL debug, with the scrub for FULL (R457). -/
  | debugToken (c : Container)
  /-- GRANT_TOKEN: A GRANT token sets the PCIe path's trace coverage from the next frame tick (R477). -/
  | grantToken (c : Container)
  /-- REPLAY_TOKEN: A REPLAY token takes the device from STANDBY into REPLAY (R507). -/
  | replayToken (c : Container) (unwrapOk : Bool)
  /-- RECKEY: A RECKEY token installs the recording key KR (R484). -/
  | reckey (c : Container) (unwrapOk : Bool)
  /-- CONFIRM: Mailbox CONFIRM marks the booted slot GOOD and advances anti-rollback counters (R455). -/
  | confirm (flashOk : Bool)
  /-- NV_READ: Mailbox NV_READ copies user-area flash into shared SRAM (R462). -/
  | nvRead (flashOk : Bool)
  /-- NV_WRITE: Mailbox NV_WRITE writes shared SRAM into erased user-area flash (R462). -/
  | nvWrite (flashOk : Bool)
  /-- NV_ERASE: Mailbox NV_ERASE erases user-area sectors (R462). -/
  | nvErase (flashOk : Bool)
  /-- ALM_ENABLE: A write of ALM_CTRL.EN enables recording or discards the ring (R501). -/
  | almEnable (b : Bool)
  /-- DUMP_RECORD: When the stream ring has room the next dump record is handed to it (R504). -/
  | dumpRecord (bad : Option (List Word))
  /-- REPLAY_CHECK: The replay input is read and checked before any frame runs (R508). -/
  | replayCheck (x : ReplayInput)
  /-- IDLE_ENTRY: Every powered core waits in wfi and the device gates their clocks (R519). -/
  | idleEntry (wfi : BitVec 4)
  /-- SLEEP_ENTRY: With TARGET Sleep and all cores in wfi the device checks conditions and stops PLLs and timebase
  (R521). -/
  | sleepEntry (wfi : BitVec 4) (pins : BitVec 9)
  /-- DEEP_SLEEP_ENTRY: The device saves the retention banks and removes every rail but VAON (R521). -/
  | deepSleepEntry (wfi : BitVec 4) (pins : BitVec 9)
  /-- OFF_ENTRY: The device discards the retention banks and removes every rail but VAON (R521). -/
  | offEntry (wfi : BitVec 4) (pins : BitVec 9)
  /-- SLEEP_WAKE: An enabled wake source returns the device from Sleep to Run (R522). -/
  | sleepWake (pins : BitVec 9)
  /-- POWER_UP: A wake from Deep Sleep or Off starts the rails in order (R533). -/
  | powerUp (pins : BitVec 9) (again : Bool)
  /-- POWER_GOOD: VIO33 power good releases the security core on the RC and restores retention banks (R534). -/
  | powerGood (rstN splitN : Bool) (bad : BitVec 6)
  /-- LOGIC_BIST: Start-up logic BIST of 64 slices completes and the device enters STANDBY or SAFE (R536). -/
  | logicBist (ok : Bool)
  /-- SUPPLY_A_LOST: VSUP_A below 20 V for 100 µs (R517). -/
  | supplyALost (a b : BitVec 10)
  /-- SUPPLY_B_LOST: VSUP_B below 20 V for 100 µs (R517). -/
  | supplyBLost (a b : BitVec 10)
  /-- SUPPLY_UV: Both inputs below 28 V for 100 µs (R517). -/
  | supplyUv (a b : BitVec 10)
  /-- SUPPLY_OV: An input above 82 V for 10 µs forces every safe output off (R517). -/
  | supplyOv (a b : BitVec 10)
  /-- SUPPLY_OV_END: Both inputs below 80 V for 1 ms ends the forced-off state (R517). -/
  | supplyOvEnd (a b : BitVec 10)
  /-- DOMAIN_POWER_DOWN: A domain with no vote held starts powering down (R525). -/
  | domainPowerDown (d : Fin 12) (wfi : Bool)
  /-- DOMAIN_OFF: A powering-down domain reaches OFF (R525). -/
  | domainOff (d : Fin 12)
  /-- DOMAIN_POWER_UP: A voted domain OFF for at least 10 µs starts powering up (R526). -/
  | domainPowerUp (d : Fin 12)
  /-- DOMAIN_ON: A powering-up domain becomes ON, with Assay first for a pair domain (R525). -/
  | domainOn (d : Fin 12)
  /-- DOMAIN_FAIL: A domain not ready 100 µs after UP is switched off as FAILED (R526). -/
  | domainFail (d : Fin 12)
  /-- VOTE_WRITE: A write of PWR_VOTE_X, _Y or _H changes a client's domain votes (R524). -/
  | voteWrite (m : Master) (r : Fin 3) (v : Word)
  /-- POINT_CHANGE: A write of PWR_DVFS.POINT starts an ordered voltage and clock change, or is pended (R528). -/
  | pointChange (v : BitVec 2)
  /-- WDT_KICK: A write of PWR_WDT_KICK restarts the watchdog or counts as expiry (R538). -/
  | wdtKick (v : BitVec 16)
  /-- REGISTER_WRITE: A write to a register without a row of its own is performed under its access code and lock rules
  (R15). -/
  | registerWrite (m : Master) (a : Word) (size : Fin 16) (data : Option (BitVec 64)) (ecc : WordEcc)
  /-- POWER_ON_RESET: First application of supply, or return of VAON, resets everything including the always-on
  latches and leaves the device in Off, waking at once if WAKE is active (R537). -/
  | powerOnReset (wake : Bool)
  /-- SUPPLY_RETURN: A lost input returns above its threshold or the undervoltage condition ends; A_OK, B_OK or UV
  change and source 212 is raised (R517). -/
  | supplyReturn (a b : BitVec 10)
  /-- TRIP_RELEASE: A filtered TRIP input becomes inactive, or changes level while disabled, so that LEVEL follows it
  and a latch clear becomes possible (R202). -/
  | tripRelease (t : Fin 8) (active : Bool)
  /-- PCIE_LINK_UP: The PCIe link reaches L0 and LINK_UP, SPEED and WIDTH are set, with source 177 raised (R352). -/
  | pcieLinkUp (speed width : Fin 4) (bme : Bool)
  /-- RESET_RELEASE: RST_N goes high after power good; the device leaves reset, samples SPLIT_N and starts BOOT
  (R554). -/
  | resetRelease (splitN : Bool)
  /-- DEBUG_RESUME: The debugger resumes a halted main core, and the checker runs on past the halt IC (R278). -/
  | debugResume (p : Fin 2)
  /-- DEBUG_STEP: Single-stepping advances the main core and the checker by one instruction each (R278). -/
  | debugStep (p : Fin 2)
  /-- DEBUG_WRITE: The debugger changes the halted main core's registers, CSRs or private memory; the change is logged
  with IC c and applied to the checker when it reaches c (R278). -/
  | debugWrite (p : Fin 2) (t : DbgTarget) (v : BitVec 64)
  /-- BOUNDARY_SCAN: An IEEE 1149.1 instruction is executed over JTAG; EXTEST, INTEST and CLAMP are served only while
  FULL debug is open and never in DEAD (R460). -/
  | boundaryScan (i : Fin 6)
  /-- FRAME_TICK: Integer CT reaches the next frame boundary: FC increments, engines still running are aborted and the
  Anvil restarts its frame program at offset 0 (R44). -/
  | frameTick
  /-- SLEW_END: The slewed offset remainder reaches zero; SLEWING clears and interrupt source 218 is raised (R38). -/
  | slewEnd
  /-- CT_LOAD: A write of TIME_CTRL.CT_LOAD loads CT from TIME_CT_SET, recomputes FC and clears any slew, or is
  refused while the Anvil runs (R40). -/
  | ctLoad
  /-- OSC_FALLBACK: The selected timebase reference fails its guards; the timebase switches to the RC backup until
  reset and ON_RC is set (R42). -/
  | oscFallback
  /-- MOVE_COPY_DONE: A queued copy finishes after 4 + ceil(L/4) clocks and the next queued copy starts (R63). -/
  | moveCopyDone (ecc : WordEcc)
  /-- AWAIT_PASS: The condition of a holding AWAIT becomes true before its deadline and the table proceeds (R66). -/
  | awaitPass
  /-- AWAIT_DEADLINE: FT reaches an AWAIT deadline with the condition unmet; unfinished engines are stopped and the
  frame overruns (R66). -/
  | awaitDeadline
  /-- ANV_RUN_START: A write of ANV_CTRL.RUN = 1 requests an Anvil start at the next suitable cycle boundary (R75). -/
  | anvRunStart
  /-- ANV_RUN_STOP: A write of ANV_CTRL.RUN = 0 requests a stop if every axis is DISABLED or SAFE, else is ignored
  (R77). -/
  | anvRunStop
  /-- ANVIL_START: At the first boundary where the start mode is valid, CT is valid and PD_ANV is powered, the Anvil
  starts (R75). -/
  | anvilStart
  /-- ANVIL_STOP: The Anvil stops after the END of the frame in which the stop was requested (R77). -/
  | anvilStop
  /-- OHOLD_EXPIRY: OHOLD frame ticks after a transfer without a new-owner release, transferred bits fall to 0 (R269).
  -/
  | oholdExpiry
  /-- P1: At P1 each channel sends RENEW, TAKE, BULK_REQ or HEALTH on its Seam ports (R291). -/
  | p1
  /-- P2: At P2 each channel sends GRANT, TGRANT or HEALTH (R291). -/
  | p2
  /-- LEASE_LAPSED: LEFT reaches 0 in the holder's view; its claim falls and the device leaves ACTIVE or LEE (R294). -/
  | leaseLapsed
  /-- LAST_CHANNEL: A holder counts no STANDBY peer for a whole cycle; a Lee cause (R296). -/
  | lastChannel
  /-- NO_MGR_CLAIM: A worker finds no current manager claim for a whole cycle (R290). -/
  | noMgrClaim
  /-- SET_START: After listening L + 1 cycles a channel takes STANDBY or finds a holder and must rejoin (R286). -/
  | setStart
  /-- STATE_COPY_SEND: When the snapshot ends the holder sends the region as state segments (R301). -/
  | stateCopySend
  /-- COPY_MISSED: A copy not complete by the second boundary after its snapshot is missed (R301). -/
  | copyMissed
  /-- RESYNC: A write of SEAM_CTRL.RESYNC starts BULK_REQ until the holder serves it (R306). -/
  | resync
  /-- STANDBY_OK: A released write of STANDBY_OK moves an OBSERVER to STANDBY at the next boundary (R306). -/
  | standbyOk
  /-- RESYNC_FAIL: A bulk copy not complete 250 ms after its first segment fails (R306). -/
  | resyncFail
  /-- SYNC_COMPUTATION: After the last SYNC slot the sync unit computes and writes offset and rate requests (R333). -/
  | syncComputation
  /-- SYNC_LOST: Misses reach LOSS_CYC or the timebase falls to RC; the node stops sending and axes go SAFE (R336). -/
  | syncLost
  /-- INTEGRATE_TO_SYNC: Four consecutive cycles within SYNC_TH move a node into SYNC (R338). -/
  | integrateToSync
  /-- COLDSTART: A node hearing no sync frame for COLD_CYC cycles enters COLDSTART (R339). -/
  | coldstart
  /-- COLDSTART_TO_SYNC: One cycle in COLDSTART moves the node into SYNC (R339). -/
  | coldstartToSync
  /-- CANCEL: A write of FDL_MODE_PROP.CANCEL drops a proposal before its commit cycle (R340). -/
  | cancel
  /-- PROPOSAL_TIMEOUT: A proposal without commit within PROP_TOUT cycles is dropped (R340). -/
  | proposalTimeout
  /-- MODE_SPLIT: A node hears the proposer for a cycle but no frame in its own mode, and enters LOST (R341). -/
  | modeSplit
  /-- LEAVE: A write of FDL_CTRL.LEAVE takes active axes to SAFE and sets LEAVE once all are idle (R346). -/
  | leave
  /-- FUNCTION_LEVEL_RESET: A PCIe FLR disables host-memory rings and discards their descriptors (R355). -/
  | functionLevelReset
  /-- PCIE_LINK_DOWN: A data-link-layer down state lasting 1 ms disables host-memory rings (R355). -/
  | pcieLinkDown
  /-- HOST_NOP: A NOP descriptor completes with the FN of its apply tick (R361). -/
  | hostNop
  /-- SET_INLINE: At its apply tick a SET_INLINE writes words into an axis pending bank, or is denied (R364). -/
  | setInline
  /-- SET_BLOCK: At its apply tick a SET_BLOCK writes fetched words into an axis pending bank, or is denied (R364). -/
  | setBlock
  /-- READ_STATUS: A READ_STATUS command becomes due at its apply tick (R361). -/
  | readStatus
  /-- READ_STATUS_COPY: After END of the apply frame the status words are copied out and the command completes (R361).
  -/
  | readStatusCopy (ecc : WordEcc)
  /-- LOAD: A LOAD descriptor hands a Blule container to Crucible (R361). -/
  | hostLoad (token : Bool)
  /-- HALLMARK: A HALLMARK descriptor makes Crucible write a signed Hallmark record (R488). -/
  | hallmark
  /-- FAULT_CLEAR: A FAULT_CLEAR descriptor clears a held fault at its tick, or is refused (R427). -/
  | faultClear
  /-- CAN_TX: At its apply tick a CAN_TX enters the transmit queue or completes BUSY (R374). -/
  | canTx
  /-- HOST_SILENT: No command fetched on any host command ring for HOST_TOUT cycles (R376). -/
  | hostSilent
  /-- LEE_WARN: The Lee count reaches WARN seconds before LIMIT (R418). -/
  | leeWarn
  /-- LEE_EXPIRED: At the tick at or after the Lee count reaching LIMIT the device enters SAFE (R418). -/
  | leeExpired
  /-- FLT_EDGE: At each CT multiple of 20,000 ticks FLT_P and FLT_N toggle if permitted (R419). -/
  | fltEdge
  /-- RESET_REACTION: 4,000 ticks after a reset reaction the device resets (R411). -/
  | resetReaction
  /-- RECORD_CLEAR: A W1C of FCU_REC.VALID ends the handling period and re-arms the record (R423). -/
  | recordClear
  /-- LIFECYCLE_RESET: 10 µs after the last lifecycle fuse copy the device resets (R436). -/
  | lifecycleReset
  /-- GRANT_EXPIRY: DURATION frames after taking effect the grant ends (R477). -/
  | grantExpiry
  /-- TRNG_FAIL: A TRNG health test fails and randomness is refused until reset (R441). -/
  | trngFail
  /-- SUBMIT: A write of DBG_CTRL.SUBMIT hands the token window to Crucible (R459). -/
  | submit
  /-- TRIG: A write of ALM_CTRL.TRIG is a software trigger (R502). -/
  | trig
  /-- ALM_FREEZE: POST further frame records written; the ring is frozen (R501). -/
  | almFreeze
  /-- RELEASE: A write of ALM_CTRL.RELEASE in FROZEN discards the ring and re-enters recording (R503). -/
  | release
  /-- DUMP: A write of ALM_CTRL.DUMP in FROZEN starts a dump, or is refused (R504). -/
  | dump
  /-- SEAL: Crucible signs the chained SEAL record and the dump ends (R505). -/
  | seal
  /-- REPLAY_END: After the last usable frame the Almanac stops the Anvil and raises REPLAY_DONE (R510). -/
  | replayEnd
  /-- WAKE_TIMER: PERIOD × 10 ms after entry the wake timer becomes active (R522). -/
  | wakeTimer
  /-- RAIL_TIMEOUT: A rail misses power good within 2 ms; rails are removed for a retry (R533). -/
  | railTimeout
  /-- RAIL_RETRY: 10 ms after a failed attempt the rails start again (R533). -/
  | railRetry
  /-- REFERENCE_LOCK: The selected reference passes its guards and the timebase moves to it (R534). -/
  | referenceLock
  /-- OSC_START: The reference does not pass within 10 ms; the device stays on RC (R534). -/
  | oscStart
  /-- BROWNOUT: V5 or any rail below its threshold for 2 µs causes a brown-out reset (R517). -/
  | brownout
  /-- DVFS_DONE: An operating-point change completes and DVFS_BUSY clears (R528). -/
  | dvfsDone
  /-- DVFS_FAIL: VCORE misses power good within 100 µs and returns to the old level (R529). -/
  | dvfsFail
  /-- WDT_HALF: Half the watchdog timeout passes without a kick (R538). -/
  | wdtHalf
  /-- WDT_EXPIRED: The watchdog expires and the device resets 10 µs later (R538). -/
  | wdtExpired
  /-- SWRST: A write of PWR_CTRL.SWRST resets the device 10 µs later, or is refused in ACTIVE or LEE (R539). -/
  | swrst
  /-- PIN_RESET: RST_N low for at least 1 µs resets the device (R537). -/
  | pinReset
  /-- DEBUG_RESET: A debug module reset request resets the device (R537). -/
  | debugReset
  /-- BULK_SENT: The holder finishes sending its bulk region and the bulk-end frame, and SEAM_STAT.BULK leaves sending
  (R306). -/
  | bulkSent
deriving DecidableEq, Repr

end Sys2Proof
end

