-- ==== Sys2Proof/WellFormed.lean ====
section
/-! DEFINITION. Which commands are well formed: the operands whose size a rule of spec/ fixes and their types do not. -/
namespace Sys2Proof

/-- A container as it stands when its LENGTH has been read: 16 header words, whole 16-byte blocks of payload, a signature block of
17,040 bytes (R443). -/
def Container.wf (c : Container) : Bool :=
  decide (c.hdr.length = 16) && decide (c.sig.length = 4260) && decide (c.payload.length % 4 = 0)

/-- A Fudorlink frame carries at most 64 payload words (R315). -/
def FdlFrame.wf (f : FdlFrame) : Bool := decide (f.payload.length ≤ 64)

/-- A CAN frame carries LEN data bytes, none when it is a remote frame; an FD frame is no remote frame (R373). -/
def CanRx.wf (x : CanRx) : Bool :=
  (x.rtr || decide (x.data.length = x.len.val)) && ! (x.rtr && x.fdf) && (x.fdf || decide (x.len.val ≤ 8))

/-- The access sizes a bus transfers (R14, R549). -/
def sizeWf (n : Nat) : Bool := decide (n = 1) || decide (n = 2) || decide (n = 4) || decide (n = 8)

/-- The operand checks of a command. A command whose operands are fixed by their types passes. -/
def Instr.wf : Instr → Bool
  | .registerWrite _ _ size _ _ => sizeWf size.val
  | .bar0Access _ size _ => sizeWf size.val
  | .inputExchange _ _ _ _ again _ _ => decide (again.length ≤ 3)
  | .engineLoad c _ => c.wf
  | .sealedLoad c _ _ _ _ => c.wf
  | .scheduleLoad c => c.wf
  | .imageLoad c _ => c.wf
  | .bootSelect _ _ a b _ _ _ _ _ => (a.all Container.wf) && (b.all Container.wf)
  | .lifecycle c => c.wf
  | .keys c => c.wf
  | .debugToken c => c.wf
  | .grantToken c => c.wf
  | .replayToken c _ => c.wf
  | .reckey c _ => c.wf
  | .statusFrame f => f.wf
  | .dataFrame f => f.wf
  | .peerFrame f => f.wf
  | .joinRequest f => f.wf
  | .commandFrame fs => fs.all FdlFrame.wf
  | .canRx _ x => x.wf
  | .stateSegment _ _ words => decide (words.length ≤ 256)
  | .bulkSegment _ _ words => decide (words.length ≤ 256)
  | .bulkEnd _ _ words => decide (words.length ≤ 256)
  | .linkDelayMeasurement _ trips _ => decide (trips.length = 8)
  | .descriptorFetch _ _ f => decide (f.desc.length ≤ 8)
  | .overrate _ gaps => (gaps.all fun g => decide (0 < g)) && decide ((gaps.drop 1).foldl (· + ·) 0 < 256)
  | .frameTick | .slewEnd | .ctLoad | .oscFallback | .offsetRequest .. | .timeReadLatch .. | .frameCycleWrite ..
  | .anvSample .. | .anvCapture .. | .anvMove .. | .moveCopyDone .. | .anvRun .. | .anvAwait .. | .awaitPass
  | .awaitDeadline | .anvExchangeTx .. | .anvExchangeRx .. | .anvExchangeSeam .. | .anvCheck .. | .anvPublish ..
  | .anvLaunch .. | .anvRecord .. | .anvSignal .. | .anvMode .. | .anvNop .. | .anvEnd .. | .scrubRead ..
  | .anvRunStart | .anvRunStop | .anvilStart | .anvilStop | .modeRequest .. | .validationDone .. | .engNop ..
  | .engEnd .. | .engMov .. | .engLdk .. | .engAsh .. | .engAdd .. | .engSub .. | .engNeg .. | .engAbs ..
  | .engMuld .. | .engMulc .. | .engAxpy .. | .engAclr .. | .engMacc .. | .engMacd .. | .engMsud .. | .engAcst ..
  | .engAcsm .. | .engMin .. | .engMax .. | .engClmp .. | .engSel .. | .engAnd .. | .engOr .. | .engXor ..
  | .engClarke .. | .engPark .. | .engIpark .. | .engSincos .. | .engLut1 .. | .engLut2 .. | .engIntg ..
  | .engRlim .. | .engBiq .. | .engFir .. | .engFcst .. | .engIllegal .. | .engineCompletion ..
  | .dataMemoryWrite .. | .dataMemoryRead .. | .traceRpWrite .. | .samplingPlan .. | .shuntConversion ..
  | .shuntSetComplete .. | .dcLinkResult .. | .vdcLost .. | .chopperCurrentResult .. | .chopperNoFallCheck ..
  | .quadratureTransition .. | .indexAccept .. | .hallStateChange .. | .hallIllegal ..
  | .ssiTransferStart .. | .ssiResult .. | .resolverSample .. | .lineLoss .. | .rearm .. | .fbkAxmapWrite ..
  | .adcConversionDone .. | .groupTrigger .. | .groupConversionDrop .. | .sinc3Result .. | .sdStuck .. | .csaOvr ..
  | .ssupFault .. | .blockInForce .. | .legTransition .. | .incomingTurnOn .. | .tripInput .. | .tripLatchClear ..
  | .blockWord .. | .heartbeat .. | .setupWord .. | .statusWord .. | .echoWord .. | .glTrain .. | .trainingDone ..
  | .latencyRemeasure .. | .glLoss .. | .glClear .. | .soReadbackCheck .. | .soOvercurrent .. | .soTestPulse ..
  | .soTestPulseEnd .. | .soLatchClear .. | .armTimeout .. | .stopTimeout .. | .spStale .. | .gustLong ..
  | .coupledStore .. | .chkpt .. | .checkpointCompare .. | .releaseDrain .. | .cpTimeout .. | .accessFault ..
  | .checkerTrap .. | .oholdExpiry | .rejoin .. | .assay .. | .scrubCompare .. | .pairResync .. | .pairResyncEnd ..
  | .debugHalt .. | .p1 | .p2 | .leaseRenew .. | .leaseGrant .. | .leaseTake .. | .tgrant .. | .health ..
  | .bulkReq .. | .leaseLapsed | .peerLost .. | .lastChannel | .noMgrClaim | .setStart | .stateCopySend
  | .copyMissed | .seamPortUp .. | .seamLinkDown .. | .resync | .standbyOk | .resyncFail
  | .sliceTest .. | .sliceHold .. | .slotTransmit .. | .frameRelay .. | .windowClose .. | .portIsolated ..
  | .reopen .. | .fdlLinkUp .. | .linkDown .. | .remeasure .. | .syncComputation | .syncLost | .integrateToSync
  | .coldstart | .coldstartToSync | .fdlProp .. | .cancel | .proposalTimeout | .modeSplit | .nodeLost ..
  | .payloadGuardTimeout .. | .leave | .doorbell .. | .functionLevelReset | .pcieLinkDown | .ringEnable ..
  | .ringDisable .. | .hostNop | .setInline | .setBlock | .readStatus | .readStatusCopy .. | .hostLoad .. | .hallmark
  | .faultClear | .canTx | .canTxDone .. | .canTxStale .. | .hostSilent | .canErrorState .. | .recover ..
  | .canGuardTimeout .. | .interruptPresent .. | .interruptAccept .. | .intcDone .. | .swset ..
  | .sourceConfigWrite .. | .taskStart .. | .taskStop .. | .taskSet .. | .taskClear .. | .taskWait ..
  | .taskYield .. | .taskSwitch .. | .taskPrio .. | .taskSpill .. | .taskRefill .. | .tskEnable .. | .leeWarn
  | .leeExpired | .fltEdge | .fltReadbackCheck .. | .resetReaction | .recordClear | .logRpWrite .. | .reactWrite ..
  | .leeLimitWrite .. | .lifecycleReset | .grantExpiry | .confirm .. | .nvRead .. | .nvWrite .. | .nvErase ..
  | .trngFail | .submit | .almEnable .. | .trig | .almFreeze | .release | .dump | .dumpRecord .. | .seal
  | .replayCheck .. | .replayEnd | .idleEntry .. | .sleepEntry .. | .deepSleepEntry .. | .offEntry ..
  | .sleepWake .. | .wakeTimer | .powerUp .. | .railTimeout | .railRetry | .powerGood .. | .referenceLock
  | .oscStart | .logicBist .. | .supplyALost .. | .supplyBLost .. | .supplyUv .. | .supplyOv .. | .supplyOvEnd ..
  | .brownout | .domainPowerDown .. | .domainOff .. | .domainPowerUp .. | .domainOn .. | .domainFail ..
  | .voteWrite .. | .pointChange .. | .dvfsDone | .dvfsFail | .wdtKick .. | .wdtHalf | .wdtExpired | .swrst
  | .pinReset | .debugReset | .powerOnReset .. | .supplyReturn .. | .tripRelease .. | .bulkSent | .pcieLinkUp ..
  | .resetRelease .. | .debugResume .. | .debugStep .. | .debugWrite .. | .boundaryScan .. => true

end Sys2Proof
end

