-- ==== Sys2Proof/Decode.lean ====
section
/-! DEFINITION. The command a word spells. The opcode table gives no row any bits: commands reach the block as register
accesses, protocol frames and events, not as words of an instruction stream, so no word spells one. -/
namespace Sys2Proof

/-- The command a word of `nbits` bits spells by the bits of spec/opcode_table.json: none, for the table gives none. -/
def decodeTableWord (_nbits _w : Nat) : Option Instr := none

end Sys2Proof
end

