-- ==== Sys2Proof/Machine/Bits.lean ====
section
/-! DEFINITION. Bit fields, sign extension, byte order and check codes over natural numbers. -/
namespace Sys2Proof

/-- The `w` bits of `v` from bit `lo`. -/
def bits (v lo w : Nat) : Nat := v / 2 ^ lo % 2 ^ w

/-- `v` with its `w` bits from bit `lo` replaced by `x`. -/
def putBits (v lo w x : Nat) : Nat :=
  v / 2 ^ (lo + w) * 2 ^ (lo + w) + x % 2 ^ w * 2 ^ lo + v % 2 ^ lo

/-- Bit `n` of `v`. -/
def tb (v n : Nat) : Bool := v / 2 ^ n % 2 = 1

/-- `v` with bit `n` set to `b`. -/
def putBit (v n : Nat) (b : Bool) : Nat := putBits v n 1 b.toNat

/-- One for true, zero for false. -/
abbrev b2n (b : Bool) : Nat := b.toNat

/-- The signed value of the low `w` bits of `v`. -/
def sext (w v : Nat) : Int :=
  if v % 2 ^ w < 2 ^ (w - 1) then (v % 2 ^ w : Nat) else (v % 2 ^ w : Nat) - (2 ^ w : Nat)

/-- The low `w` bits of a signed value. -/
def trunc (w : Nat) (i : Int) : Nat := (i % (2 ^ w : Nat)).toNat

/-- The largest and smallest signed value of `w` bits bound `i` (saturation). -/
def satS (w : Nat) (i : Int) : Int :=
  if i > (2 ^ (w - 1) : Nat) - 1 then (2 ^ (w - 1) : Nat) - 1
  else if i < -((2 ^ (w - 1) : Nat) : Int) then -((2 ^ (w - 1) : Nat) : Int) else i

/-- Ceiling of a quotient; zero for a zero divisor. -/
def ceilDiv (a b : Nat) : Nat := (a + b - 1) / b

/-- The signed distance from frame number `a` to frame number `b`, modulo 2^32 (R8). -/
def dist32 (a b : Nat) : Int := sext 32 (b + 2 ^ 32 - a % 2 ^ 32)

/-- The numbers of the set bits of `v` below `n`, ascending. -/
def bitsOf (n v : Nat) : List Nat := (List.range n).filter fun i => tb v i

/-- The lowest set bit of `v` below `n`, or 0. -/
def lowBit (n v : Nat) : Nat := (bitsOf n v).headD 0

/-- Bitwise OR, AND and AND-NOT over the low 32 bits. -/
def orW (a b : Nat) : Nat := a ||| b
def andW (a b : Nat) : Nat := a &&& b
def andNotW (a b : Nat) : Nat := a - (a &&& b)

/-- The four bytes of a word, least significant first (R14: little-endian). -/
def wordBytes (w : Nat) : List Nat := [w % 256, w / 256 % 256, w / 65536 % 256, w / 16777216 % 256]

/-- The bytes of a list of words, little-endian. -/
def wordsBytes : List Nat → List Nat
  | [] => []
  | w :: ws => wordBytes w ++ wordsBytes ws

/-- The word of up to four bytes, least significant first. -/
def bytesWord : List Nat → Nat
  | [] => 0
  | b :: bs => b + 256 * bytesWord bs

/-- The `n` words of a list of bytes, little-endian, missing bytes 0. -/
def bytesWords : Nat → List Nat → List Nat
  | 0, _ => []
  | n + 1, bs => bytesWord (bs.take 4) :: bytesWords n (bs.drop 4)

/-- `n` zeros. -/
def zeros (n : Nat) : List Nat := List.replicate n 0

/-- The first `n` elements, filled up with zeros. -/
def padTo (n : Nat) (l : List Nat) : List Nat := (l ++ zeros (n - l.length)).take n

/-- One bit step of a reflected CRC with reversed polynomial `poly`. -/
def crcBitR (poly c : Nat) : Nat := if c % 2 = 1 then (c / 2) ^^^ poly else c / 2

/-- One byte of a reflected CRC (least significant bit first). -/
def crcByteR (poly c b : Nat) : Nat :=
  crcBitR poly (crcBitR poly (crcBitR poly (crcBitR poly
    (crcBitR poly (crcBitR poly (crcBitR poly (crcBitR poly (c ^^^ b))))))))

/-- A reflected CRC over bytes, from running value `c`. -/
def crcR (poly c : Nat) (bs : List Nat) : Nat := bs.foldl (crcByteR poly) c

/-- CRC-32 of the Ethernet frame check sequence, IEEE 802.3 (R300, R494). -/
def crc32 (bs : List Nat) : Nat := crcR 0xEDB88320 0xFFFFFFFF bs ^^^ 0xFFFFFFFF

/-- One bit step of a CRC of width `w`, most significant bit first. -/
def crcBitM (w poly c : Nat) : Nat :=
  if c / 2 ^ (w - 1) % 2 = 1 then (c * 2 % 2 ^ w) ^^^ poly else c * 2 % 2 ^ w

/-- Bits of a message into a CRC of width `w`, the first bit of the list first. -/
def crcBits (w poly : Nat) (c : Nat) (ms : List Bool) : Nat :=
  ms.foldl (fun c b => crcBitM w poly (c ^^^ (b2n b * 2 ^ (w - 1)))) c

/-- The `n` low bits of `v`, least significant first. -/
def lsbFirst (n v : Nat) : List Bool := (List.range n).map fun i => tb v i

end Sys2Proof
end

