-- ==== Sys2Proof/Machine/FaultTable.lean ====
section
/-! DEFINITION. The fault sources: codes, classes and default reactions (R82, R124, R158, R192, R220, R250,
R279, R309, R348, R377, R404, R410, R463, R514, R542), and the interrupt source a block raises beside
the FCU's own for its faults. -/
namespace Sys2Proof.Machine

/-- The class of a fault source (R409). -/
inductive FClass where
  | s | m | i
deriving DecidableEq, Repr

/-- The reactions of R411, weakest first. -/
inductive React where
  | none | interrupt | lee | axisSafe | safe | reset
deriving DecidableEq, Repr

/-- The encodings of REACT (R411). -/
def React.code : React → Nat
  | .none => 0 | .interrupt => 1 | .lee => 2 | .axisSafe => 3 | .safe => 4 | .reset => 5

/-- The reaction an encoding names; 0b110 and 0b111 are reserved (R411). -/
def React.ofCode : Nat → Option React
  | 0 => some .none | 1 => some .interrupt | 2 => some .lee | 3 => some .axisSafe
  | 4 => some .safe | 5 => some .reset | _ => Option.none

/-- The encodings of CLASS (R432). -/
def FClass.code : FClass → Nat
  | .s => 0 | .m => 1 | .i => 2

/-- The sources numbered base + stride × i for i below count, with their class and default reaction. -/
structure FaultRow where
  base : Nat
  stride : Nat
  count : Nat
  cls : FClass
  react : React
deriving DecidableEq, Repr

namespace Fc
/-! Names of the fault codes; indexed sources take their axis, engine, channel, pair or unit number. -/
def OSC_FALLBACK := 0x0800
def RATE_CLAMP := 0x0801
def SLEW_BACKLOG := 0x0802
def FRAME_OVERRUN := 0x0C00
def LAUNCH_LATE := 0x0C01
def ECC_UNCORR := 0x0C02
def ECC_CORR := 0x0C03
def SLIP := 0x0C04
def MODE_INVALID := 0x0C05
def FORECAST (n : Nat) := 0x1000 + 16 * n
def ENG_ECC_UNCORR (n : Nat) := 0x1001 + 16 * n
def ENG_ILLEGAL (n : Nat) := 0x1002 + 16 * n
def ENG_ECC_CORR (n : Nat) := 0x1003 + 16 * n
def ENG_SAT (n : Nat) := 0x1004 + 16 * n
def ENG_ABORT (n : Nat) := 0x1005 + 16 * n
def ENG_REDACT (n : Nat) := 0x1006 + 16 * n
def SHUNT_STARVED (n : Nat) := 0x1400 + 16 * n
def VDC_TRIP (n : Nat) := 0x1401 + 16 * n
def VDC_LOST (n : Nat) := 0x1402 + 16 * n
def CHOPPER_STUCK (n : Nat) := 0x1403 + 16 * n
def CHOPPER_FAULT (n : Nat) := 0x1404 + 16 * n
def LAUNCH_ALIGN (n : Nat) := 0x1405 + 16 * n
def REGEN_CLAMP (n : Nat) := 0x1406 + 16 * n
def ENC_ILLEGAL (n : Nat) := 0x1800 + 16 * n
def OVERRATE (n : Nat) := 0x1801 + 16 * n
def IDX_ERR (n : Nat) := 0x1802 + 16 * n
def IDX_MISSING (n : Nat) := 0x1803 + 16 * n
def HALL_ILLEGAL (n : Nat) := 0x1804 + 16 * n
def SSI_FAULT (n : Nat) := 0x1805 + 16 * n
def SIGNAL_LOST (n : Nat) := 0x1806 + 16 * n
def ILLEGAL_EDGE (n : Nat) := 0x1807 + 16 * n
def SSI_ERROR (n : Nat) := 0x1808 + 16 * n
def ADC_DROP (a : Nat) := 0x1C00 + a
def SD_STUCK (n : Nat) := 0x1C10 + n
def SSUP_FAULT (k : Nat) := 0x1C30 + k
def CSA_OVR (k : Nat) := 0x1C34 + k
def GL_LOSS (n : Nat) := 0x2000 + 16 * n
def GL_DESAT (n : Nat) := 0x2001 + 16 * n
def GL_REMOTE_BLOCK (n : Nat) := 0x2002 + 16 * n
def GL_OVERTEMP (n : Nat) := 0x2003 + 16 * n
def GL_TEMP_WARN (n : Nat) := 0x2004 + 16 * n
def GL_LAT (n : Nat) := 0x2005 + 16 * n
def PEND_FULL (n : Nat) := 0x2006 + 16 * n
def GL_CODE (n : Nat) := 0x2007 + 16 * n
def CLAIM_TIE (n : Nat) := 0x2008 + 16 * n
def TRIP_IN (t : Nat) := 0x2080 + t
def SO_OVERCURRENT (m : Nat) := 0x2090 + 4 * m
def SO_READBACK (m : Nat) := 0x2091 + 4 * m
def SO_TEST (m : Nat) := 0x2092 + 4 * m
def SO_OPEN_LOAD (m : Nat) := 0x2093 + 4 * m
def AXIS_REFUSED (n : Nat) := 0x0100 + 16 * n
def ARM_TIMEOUT (n : Nat) := 0x0101 + 16 * n
def FS_FAIL (n : Nat) := 0x0102 + 16 * n
def STOP_TIMEOUT (n : Nat) := 0x0103 + 16 * n
def SP_STALE (n : Nat) := 0x0104 + 16 * n
def ENABLE_LOST (n : Nat) := 0x0105 + 16 * n
def GUST_LONG (n : Nat) := 0x0106 + 16 * n
def PAIR_MISMATCH (p : Nat) := 0x2400 + 16 * p
def INPUT_DISAGREE (p : Nat) := 0x2401 + 16 * p
def CP_TIMEOUT (p : Nat) := 0x2402 + 16 * p
def CMP_DISAGREE (p : Nat) := 0x2403 + 16 * p
def RELEASE_ERR (p : Nat) := 0x2404 + 16 * p
def SCRUB_REPEAT (p : Nat) := 0x2405 + 16 * p
def CMP_FALLBACK (p : Nat) := 0x2406 + 16 * p
def LATENT_DIVERGENCE (p : Nat) := 0x2407 + 16 * p
def REJOIN_FAIL (p : Nat) := 0x2408 + 16 * p
def FIFO_ECC_CORR (p : Nat) := 0x2409 + 16 * p
def INPUT_RETRY (p : Nat) := 0x240A + 16 * p
def LEASE_LAPSED := 0x2800
def PEER_LOST := 0x2801
def LAST_CHANNEL := 0x2802
def SLICE_FAIL := 0x2803
def COPY_STALE := 0x2804
def SEAM_LINK_DOWN := 0x2805
def RESYNC_FAIL := 0x2806
def NO_MGR_CLAIM := 0x2807
def COPY_MISSED := 0x2808
def SEAM_CRC := 0x2809
def MSG_REJECT := 0x280A
def TAKEOVER := 0x280B
def SYNC_LOST := 0x2C00
def MODE_SPLIT := 0x2C01
def NOT_ADMITTED := 0x2C02
def PAYLOAD_GUARD_S := 0x2C03
def NODE_LOST := 0x2C04
def SYNC_MARGIN := 0x2C05
def PORT_ISOLATED := 0x2C06
def SENDER_MISMATCH := 0x2C07
def PAYLOAD_GUARD_M := 0x2C08
def LINK_DOWN := 0x2C09
def LINK_DELAY := 0x2C0A
def LEAVE_REQ := 0x2C0B
def MODE_REFUSED := 0x2C0C
def JOIN_REFUSED := 0x2C0D
def TX_LATE := 0x2C0E
def FRAME_CRC := 0x2C0F
def HOST_SILENT := 0x3000
def PCIE_LINK_DOWN := 0x3001
def HOST_RESET := 0x3002
def DMA_ERR := 0x3003
def RING_ERR := 0x3004
def BAD_DESC := 0x3005
def DESC_STALE := 0x3006
def DESC_DENIED := 0x3007
def STREAM_DROP := 0x3008
def EVENT_DROP := 0x3009
def CAN_BUS_OFF (c : Nat) := 0x3400 + 16 * c
def CAN_ERR_PASSIVE (c : Nat) := 0x3401 + 16 * c
def CAN_GUARD_S (c : Nat) := 0x3402 + 16 * c
def CAN_GUARD_M (c : Nat) := 0x3403 + 16 * c
def CAN_RX_DROP (c : Nat) := 0x3404 + 16 * c
def IRQ_MISSED := 0x3800
def DONE_MISMATCH := 0x3801
def TSK_SPILL_ERR (p : Nat) := 0x3C00 + 16 * p
def TSK_CMD_BAD (p : Nat) := 0x3C01 + 16 * p
def SRAM_ECC_UNCORR := 0x4000
def SRAM_ECC_CORR := 0x4001
def BUS_ERROR := 0x4002
def LEE_EXPIRED := 0x4003
def FLT_READBACK := 0x4004
def CLEAR_REFUSED := 0x4005
def ALM_ECC_UNCORR := 0x4400
def ALM_OVERRUN := 0x4401
def ALM_TRIG_MISSED := 0x4402
def ALM_KEY_LATE := 0x4403
def ALM_NOKEY := 0x4404
def ALM_TRIGGERED := 0x4405
def ALM_DUMPED := 0x4406
def REPLAY_REFUSED := 0x4407
def REPLAY_DIVERGE := 0x4408
def REPLAY_DONE := 0x4409
def FUSE_ERROR := 0x4C00
def BOOT_FALLBACK := 0x4C01
def TRNG_FAIL := 0x4C02
def DEBUG_OPEN := 0x4C03
def ARB_FULL := 0x4C04
def BCB_ERROR := 0x4C05
def LOAD_REFUSED := 0x4C06
def TOKEN_REFUSED := 0x4C07
def SUPPLY_UV := 0x0400
def DOMAIN_FAIL := 0x0401
def WDT_EXPIRED := 0x0402
def SUPPLY_A_LOST := 0x0403
def SUPPLY_B_LOST := 0x0404
def SUPPLY_OV := 0x0405
def RET_LOST := 0x0406
def WAKE_FAIL := 0x0407
def OSC_START := 0x0408
def DVFS_FAIL := 0x0409
def SLEEP_REFUSED := 0x040A
end Fc

/-- The implemented sources of PWR, SYS, TIME, ANV, CEC and COM. -/
def faultRowsA : List FaultRow := [
  ⟨0x0400, 1, 1, .s, .safe⟩, ⟨0x0401, 1, 1, .s, .safe⟩, ⟨0x0402, 1, 1, .s, .reset⟩,
  ⟨0x0403, 1, 7, .m, .interrupt⟩, ⟨0x040A, 1, 1, .i, .none⟩,
  ⟨0x0100, 16, 8, .i, .none⟩, ⟨0x0101, 16, 8, .m, .interrupt⟩, ⟨0x0102, 16, 8, .i, .none⟩,
  ⟨0x0103, 16, 8, .s, .axisSafe⟩, ⟨0x0104, 16, 8, .m, .interrupt⟩, ⟨0x0105, 16, 8, .s, .axisSafe⟩,
  ⟨0x0106, 16, 8, .m, .interrupt⟩,
  ⟨0x0800, 1, 1, .m, .interrupt⟩, ⟨0x0801, 1, 1, .i, .none⟩, ⟨0x0802, 1, 1, .m, .interrupt⟩,
  ⟨0x0C00, 1, 3, .s, .lee⟩, ⟨0x0C03, 1, 2, .i, .none⟩, ⟨0x0C05, 1, 1, .s, .lee⟩,
  ⟨0x1000, 16, 8, .s, .axisSafe⟩, ⟨0x1001, 16, 8, .s, .axisSafe⟩, ⟨0x1002, 16, 8, .s, .axisSafe⟩,
  ⟨0x1003, 16, 8, .i, .none⟩, ⟨0x1004, 16, 8, .i, .none⟩, ⟨0x1005, 16, 8, .i, .none⟩,
  ⟨0x1006, 16, 8, .i, .none⟩,
  ⟨0x1400, 16, 8, .s, .axisSafe⟩, ⟨0x1401, 16, 8, .s, .axisSafe⟩, ⟨0x1402, 16, 8, .s, .axisSafe⟩,
  ⟨0x1403, 16, 8, .s, .axisSafe⟩, ⟨0x1404, 16, 8, .m, .interrupt⟩, ⟨0x1405, 16, 8, .s, .axisSafe⟩,
  ⟨0x1406, 16, 8, .i, .none⟩]

/-- The implemented sources of FBK, ADC and OUT. -/
def faultRowsB : List FaultRow := [
  ⟨0x1800, 16, 8, .s, .axisSafe⟩, ⟨0x1801, 16, 8, .s, .axisSafe⟩, ⟨0x1802, 16, 8, .s, .axisSafe⟩,
  ⟨0x1803, 16, 8, .s, .axisSafe⟩, ⟨0x1804, 16, 8, .s, .axisSafe⟩, ⟨0x1805, 16, 8, .s, .axisSafe⟩,
  ⟨0x1806, 16, 8, .s, .axisSafe⟩, ⟨0x1807, 16, 8, .i, .none⟩, ⟨0x1808, 16, 8, .i, .none⟩,
  ⟨0x1C00, 1, 6, .m, .interrupt⟩, ⟨0x1C10, 1, 24, .s, .axisSafe⟩, ⟨0x1C30, 1, 4, .m, .interrupt⟩,
  ⟨0x1C34, 1, 4, .i, .none⟩,
  ⟨0x2000, 16, 8, .s, .axisSafe⟩, ⟨0x2001, 16, 8, .s, .axisSafe⟩, ⟨0x2002, 16, 8, .s, .axisSafe⟩,
  ⟨0x2003, 16, 8, .s, .axisSafe⟩, ⟨0x2004, 16, 8, .m, .interrupt⟩, ⟨0x2005, 16, 8, .m, .interrupt⟩,
  ⟨0x2006, 16, 8, .s, .axisSafe⟩, ⟨0x2007, 16, 8, .i, .none⟩, ⟨0x2008, 16, 8, .i, .none⟩,
  ⟨0x2080, 1, 8, .s, .axisSafe⟩, ⟨0x2090, 4, 4, .s, .interrupt⟩, ⟨0x2091, 4, 4, .s, .interrupt⟩,
  ⟨0x2092, 4, 4, .s, .interrupt⟩, ⟨0x2093, 4, 4, .m, .interrupt⟩]

/-- The implemented sources of CHK, SEAM, FDL, HIF, CAN, INTC, TSK, FCU, ALM and SEC. -/
def faultRowsC : List FaultRow := [
  ⟨0x2400, 1, 6, .s, .lee⟩, ⟨0x2410, 1, 6, .s, .lee⟩, ⟨0x2406, 1, 3, .m, .interrupt⟩,
  ⟨0x2416, 1, 3, .m, .interrupt⟩, ⟨0x2409, 1, 2, .i, .none⟩, ⟨0x2419, 1, 2, .i, .none⟩,
  ⟨0x2800, 1, 2, .m, .interrupt⟩, ⟨0x2802, 1, 1, .s, .lee⟩, ⟨0x2803, 1, 1, .s, .safe⟩,
  ⟨0x2804, 1, 4, .m, .interrupt⟩, ⟨0x2808, 1, 4, .i, .none⟩,
  ⟨0x2C00, 1, 4, .s, .axisSafe⟩, ⟨0x2C04, 1, 7, .m, .interrupt⟩, ⟨0x2C0B, 1, 5, .i, .none⟩,
  ⟨0x3000, 1, 4, .m, .interrupt⟩, ⟨0x3004, 1, 6, .i, .none⟩,
  ⟨0x3400, 16, 2, .m, .interrupt⟩, ⟨0x3401, 16, 2, .m, .interrupt⟩, ⟨0x3402, 16, 2, .s, .lee⟩,
  ⟨0x3403, 16, 2, .m, .interrupt⟩, ⟨0x3404, 16, 2, .i, .none⟩,
  ⟨0x3800, 1, 1, .i, .none⟩, ⟨0x3801, 1, 1, .m, .interrupt⟩,
  ⟨0x3C00, 16, 2, .s, .lee⟩, ⟨0x3C01, 16, 2, .i, .none⟩,
  ⟨0x4000, 1, 1, .s, .lee⟩, ⟨0x4001, 1, 1, .i, .none⟩, ⟨0x4002, 1, 1, .m, .interrupt⟩,
  ⟨0x4003, 1, 1, .s, .safe⟩, ⟨0x4004, 1, 1, .m, .interrupt⟩, ⟨0x4005, 1, 1, .i, .none⟩,
  ⟨0x4400, 1, 3, .m, .interrupt⟩, ⟨0x4403, 1, 2, .i, .none⟩, ⟨0x4405, 1, 5, .i, .interrupt⟩,
  ⟨0x4C00, 1, 1, .s, .safe⟩, ⟨0x4C01, 1, 5, .m, .interrupt⟩, ⟨0x4C06, 1, 2, .i, .none⟩]

/-- Does a row name the code? -/
def FaultRow.names (r : FaultRow) (code : Nat) : Bool :=
  decide (r.base ≤ code) && decide ((code - r.base) % r.stride = 0) &&
    decide ((code - r.base) / r.stride < r.count)

/-- The row of an implemented source (R408); none for a code that names no source. -/
def faultRow (code : Nat) : Option FaultRow :=
  (faultRowsA ++ faultRowsB ++ faultRowsC).find? fun r => r.names code

/-- The class of a source (R409); class I for a code that is never raised. -/
def faultClass (code : Nat) : FClass := ((faultRow code).map FaultRow.cls).getD .i

/-- The default reaction of a source. -/
def faultDefault (code : Nat) : React := ((faultRow code).map FaultRow.react).getD .none

/-- The pair-loss faults of R279: kinds 0 to 5 of either pair. -/
def isPairLoss (code : Nat) : Bool :=
  decide (0x2400 ≤ code ∧ code ≤ 0x2405) || decide (0x2410 ≤ code ∧ code ≤ 0x2415)

/-- The sources that clear themselves (R417): LAST_CHANNEL and the pair-loss faults. -/
def faultAuto (code : Nat) : Bool := decide (code = Fc.LAST_CHANNEL) || isPairLoss code

/-- The class-I sources raised at most once in a frame (R165, R377, R404). -/
def oncePerFrame (code : Nat) : Bool :=
  decide (0x3004 ≤ code ∧ code ≤ 0x3009) || decide (code = 0x3404) || decide (code = 0x3414) ||
    decide (code = Fc.IRQ_MISSED) || decide (0x1800 ≤ code ∧ code < 0x1880 ∧ code % 16 = 7)

/-- The interrupt source of an OUT fault (R221). -/
def outFaultIrq (code : Nat) : Nat :=
  if 0x2090 ≤ code then 109
  else if 0x2080 ≤ code then 104
  else match code % 16 with
    | 1 => 107 | 3 => 108 | 4 => 108 | _ => 111

/-- The interrupt source of an ADC fault (R193). -/
def adcFaultIrq (code : Nat) : Nat :=
  if code < 0x1C10 then 124 else if code < 0x1C30 then 125 else if code < 0x1C34 then 126 else 127

/-- The interrupt source of a SEAM fault (R310): the events that have a source of their own raise it themselves. -/
def seamFaultIrq (code : Nat) : Option Nat :=
  match code with
  | 0x2800 | 0x280B => some 153
  | 0x2804 | 0x2808 => some 155
  | 0x2806 => some 156
  | _ => some 159

/-- The interrupt source of an FDL fault (R349). -/
def fdlFaultIrq (code : Nat) : Option Nat :=
  match code with
  | 0x2C03 | 0x2C08 => some 140
  | 0x2C04 => some 135
  | 0x2C05 => some 137
  | 0x2C06 => some 139
  | 0x2C0C => some 132
  | _ => some 141

/-- The interrupt source a block raises for a fault of its own, beside source 5: COM (R159), FBK and ADC
(R193), OUT (R221), SEAM (R310), FDL (R349), HIF (R378) and TSK (R405). -/
def blockFaultIrq (code : Nat) : Option Nat :=
  if 0x1400 ≤ code ∧ code < 0x1480 then some (96 + (code - 0x1400) / 16)
  else if 0x1800 ≤ code ∧ code < 0x1880 then some (67 + 4 * ((code - 0x1800) / 16))
  else if 0x1C00 ≤ code ∧ code < 0x1C38 then some (adcFaultIrq code)
  else if 0x2000 ≤ code ∧ code < 0x20A0 then some (outFaultIrq code)
  else if 0x2800 ≤ code ∧ code ≤ 0x280B then seamFaultIrq code
  else if 0x2C00 ≤ code ∧ code ≤ 0x2C0F then fdlFaultIrq code
  else if 0x3000 ≤ code ∧ code ≤ 0x3009 then some 176
  else if 0x3C00 ≤ code ∧ code ≤ 0x3C01 then some 195
  else if 0x3C10 ≤ code ∧ code ≤ 0x3C11 then some 203
  else none

end Sys2Proof.Machine
end

