-- ==== Sys2Proof/Machine/RegMap.lean ====
section
/-! DEFINITION. The registers of the device, field by field, as the register tables of spec/ give them
(R84, R85, R127, R160, R194, R195, R222, R251, R281, R311, R351, R379, R380, R406, R407, R432, R465,
R466, R515, R544, R548). A field is named REGISTER_FIELD, or REGISTER where the register has one field
only, and is keyed by its bit address: 8 times its byte address plus its lowest bit. -/
namespace Sys2Proof

/-- A register field: its bit address and its width. -/
structure Fld where
  key : Nat
  w : Nat
deriving DecidableEq, Repr

/-- The access codes of R15. -/
inductive Acc where
  | ro | rw | w1c | wo | rwl
deriving DecidableEq, Repr

/-- One field of the register index (R549): the address of its register (index 0), the strides and
counts of its indices, its lowest bit, its width and its access code. -/
structure RegRow where
  addr : Nat
  dims : List (Nat × Nat)
  lsb : Nat
  w : Nat
  acc : Acc
deriving DecidableEq, Repr

namespace Reg


/-! ### SYS block at 0x40000000 (R251, R548) -/

def SYS_AXCTRL_WDENY : Fld := ⟨(0x40000400) * 8 + 0, 8⟩
def SYS_AXCTRL_LOCK : Fld := ⟨(0x40000400) * 8 + 31, 1⟩
def SYS_AXSTATE : Fld := ⟨(0x40000404) * 8 + 0, 24⟩
def SYS_AXn_CFG_PROFILE (n : Nat) : Fld := ⟨(0x40000440 + 0x20 * n) * 8 + 0, 3⟩
def SYS_AXn_CFG_STOP_END (n : Nat) : Fld := ⟨(0x40000440 + 0x20 * n) * 8 + 3, 1⟩
def SYS_AXn_CFG_LOSS (n : Nat) : Fld := ⟨(0x40000440 + 0x20 * n) * 8 + 4, 2⟩
def SYS_AXn_CFG_FBREQ (n : Nat) : Fld := ⟨(0x40000440 + 0x20 * n) * 8 + 6, 1⟩
def SYS_AXn_CFG_SP_MISS (n : Nat) : Fld := ⟨(0x40000440 + 0x20 * n) * 8 + 8, 4⟩
def SYS_AXn_CFG_FS_RETRY (n : Nat) : Fld := ⟨(0x40000440 + 0x20 * n) * 8 + 12, 3⟩
def SYS_AXn_CFG_SWOFF (n : Nat) : Fld := ⟨(0x40000440 + 0x20 * n) * 8 + 16, 12⟩
def SYS_AXn_TIME_ARM_TOUT (n : Nat) : Fld := ⟨(0x40000444 + 0x20 * n) * 8 + 0, 10⟩
def SYS_AXn_TIME_STOP_TOUT (n : Nat) : Fld := ⟨(0x40000444 + 0x20 * n) * 8 + 16, 16⟩
def SYS_AXn_GUST (n : Nat) : Fld := ⟨(0x40000448 + 0x20 * n) * 8 + 0, 8⟩
def SYS_AXn_LIM (n : Nat) : Fld := ⟨(0x4000044C + 0x20 * n) * 8 + 0, 32⟩
def SYS_AXn_STAT_STATE (n : Nat) : Fld := ⟨(0x40000450 + 0x20 * n) * 8 + 0, 3⟩
def SYS_AXn_STAT_STOP_KIND (n : Nat) : Fld := ⟨(0x40000450 + 0x20 * n) * 8 + 3, 2⟩
def SYS_AXn_STAT_END_HOLD (n : Nat) : Fld := ⟨(0x40000450 + 0x20 * n) * 8 + 5, 1⟩
def SYS_AXn_STAT_PEND (n : Nat) : Fld := ⟨(0x40000450 + 0x20 * n) * 8 + 6, 1⟩
def SYS_AXn_STAT_FRESH (n : Nat) : Fld := ⟨(0x40000450 + 0x20 * n) * 8 + 7, 1⟩
def SYS_AXn_STAT_AGE (n : Nat) : Fld := ⟨(0x40000450 + 0x20 * n) * 8 + 8, 5⟩
def SYS_AXn_STAT_FS_TRIES (n : Nat) : Fld := ⟨(0x40000450 + 0x20 * n) * 8 + 13, 3⟩
def SYS_AXn_STAT_REFUSE (n : Nat) : Fld := ⟨(0x40000450 + 0x20 * n) * 8 + 16, 4⟩
def SYS_AXn_STAT_GO (n : Nat) : Fld := ⟨(0x40000450 + 0x20 * n) * 8 + 20, 1⟩
def SYS_AXn_STAT_LREQ (n : Nat) : Fld := ⟨(0x40000450 + 0x20 * n) * 8 + 21, 3⟩
def SYS_AXn_FRAMES (n : Nat) : Fld := ⟨(0x40000454 + 0x20 * n) * 8 + 0, 32⟩
def SYS_ID_REV : Fld := ⟨(0x40000000) * 8 + 0, 8⟩
def SYS_ID_VARIANT : Fld := ⟨(0x40000000) * 8 + 8, 8⟩
def SYS_ID_DEVCLASS : Fld := ⟨(0x40000000) * 8 + 16, 16⟩

/-! ### PWR block at 0x40010000 (R544) -/

def PWR_CTRL_SWRST : Fld := ⟨(0x40010000) * 8 + 0, 1⟩
def PWR_CTRL_LOCK : Fld := ⟨(0x40010000) * 8 + 31, 1⟩
def PWR_STAT_DVFS_BUSY : Fld := ⟨(0x40010004) * 8 + 0, 1⟩
def PWR_STAT_POINT_NOW : Fld := ⟨(0x40010004) * 8 + 1, 2⟩
def PWR_STAT_OV_FORCE : Fld := ⟨(0x40010004) * 8 + 3, 1⟩
def PWR_STAT_WDENY : Fld := ⟨(0x40010004) * 8 + 4, 1⟩
def PWR_STAT_REFUSE : Fld := ⟨(0x40010004) * 8 + 8, 4⟩
def PWR_MODE : Fld := ⟨(0x40010008) * 8 + 0, 2⟩
def PWR_WAKE_EN : Fld := ⟨(0x4001000C) * 8 + 0, 11⟩
def PWR_WAKE_CAUSE : Fld := ⟨(0x40010010) * 8 + 0, 11⟩
def PWR_WTIMER : Fld := ⟨(0x40010014) * 8 + 0, 24⟩
def PWR_RSTCAUSE_CAUSE : Fld := ⟨(0x40010018) * 8 + 0, 10⟩
def PWR_RSTCAUSE_WAKE_FAIL : Fld := ⟨(0x40010018) * 8 + 16, 1⟩
def PWR_RSTCAUSE_ATTEMPTS : Fld := ⟨(0x40010018) * 8 + 17, 2⟩
def PWR_VOTE_X : Fld := ⟨(0x40010020) * 8 + 0, 12⟩
def PWR_VOTE_Y : Fld := ⟨(0x40010024) * 8 + 0, 12⟩
def PWR_VOTE_H : Fld := ⟨(0x40010028) * 8 + 0, 12⟩
def PWR_VOTE_HW : Fld := ⟨(0x4001002C) * 8 + 0, 12⟩
def PWR_DOM : Fld := ⟨(0x40010030) * 8 + 0, 24⟩
def PWR_DOM2_PEND : Fld := ⟨(0x40010034) * 8 + 0, 12⟩
def PWR_DOM2_FAILED : Fld := ⟨(0x40010034) * 8 + 16, 12⟩
def PWR_DVFS : Fld := ⟨(0x40010040) * 8 + 0, 2⟩
def PWR_SUP_VSUP_A : Fld := ⟨(0x40010044) * 8 + 0, 10⟩
def PWR_SUP_VSUP_B : Fld := ⟨(0x40010044) * 8 + 16, 10⟩
def PWR_SUPSTAT_A_OK : Fld := ⟨(0x40010048) * 8 + 0, 1⟩
def PWR_SUPSTAT_B_OK : Fld := ⟨(0x40010048) * 8 + 1, 1⟩
def PWR_SUPSTAT_UV : Fld := ⟨(0x40010048) * 8 + 2, 1⟩
def PWR_SUPSTAT_OV : Fld := ⟨(0x40010048) * 8 + 3, 1⟩
def PWR_RET_LOST : Fld := ⟨(0x40010050) * 8 + 0, 6⟩
def PWR_RET_RESTORED : Fld := ⟨(0x40010050) * 8 + 8, 6⟩
def PWR_WDT_EN : Fld := ⟨(0x40010060) * 8 + 0, 1⟩
def PWR_WDT_MIN : Fld := ⟨(0x40010060) * 8 + 8, 8⟩
def PWR_WDT_TIMEOUT : Fld := ⟨(0x40010060) * 8 + 16, 16⟩
def PWR_WDT_KICK : Fld := ⟨(0x40010064) * 8 + 0, 16⟩
def PWR_WDT_CNT : Fld := ⟨(0x40010068) * 8 + 0, 16⟩

/-! ### TIME block at 0x40020000 (R84) -/

def TIME_CTRL_REFSEL : Fld := ⟨(0x40020000) * 8 + 0, 2⟩
def TIME_CTRL_CT_LOAD : Fld := ⟨(0x40020000) * 8 + 4, 1⟩
def TIME_CTRL_LOCK : Fld := ⟨(0x40020000) * 8 + 31, 1⟩
def TIME_STAT_REF_OK : Fld := ⟨(0x40020004) * 8 + 0, 1⟩
def TIME_STAT_ON_RC : Fld := ⟨(0x40020004) * 8 + 1, 1⟩
def TIME_STAT_CT_VALID : Fld := ⟨(0x40020004) * 8 + 2, 1⟩
def TIME_STAT_SLEWING : Fld := ⟨(0x40020004) * 8 + 3, 1⟩
def TIME_STAT_RATE_CLAMP : Fld := ⟨(0x40020004) * 8 + 4, 1⟩
def TIME_STAT_LOAD_DENIED : Fld := ⟨(0x40020004) * 8 + 5, 1⟩
def TIME_STAT_BACKLOG : Fld := ⟨(0x40020004) * 8 + 6, 1⟩
def TIME_STAT_WDENY : Fld := ⟨(0x40020004) * 8 + 7, 1⟩
def TIME_LT_L : Fld := ⟨(0x40020010) * 8 + 0, 32⟩
def TIME_LT_H : Fld := ⟨(0x40020014) * 8 + 0, 32⟩
def TIME_LT_F : Fld := ⟨(0x40020018) * 8 + 0, 32⟩
def TIME_CT_L : Fld := ⟨(0x40020020) * 8 + 0, 32⟩
def TIME_CT_H : Fld := ⟨(0x40020024) * 8 + 0, 32⟩
def TIME_CT_F : Fld := ⟨(0x40020028) * 8 + 0, 32⟩
def TIME_RATE : Fld := ⟨(0x40020030) * 8 + 0, 32⟩
def TIME_RATE_REQ : Fld := ⟨(0x40020034) * 8 + 0, 32⟩
def TIME_OFS_REQ_F : Fld := ⟨(0x40020038) * 8 + 0, 32⟩
def TIME_OFS_REQ_I : Fld := ⟨(0x4002003C) * 8 + 0, 32⟩
def TIME_OFS_REM_F : Fld := ⟨(0x40020040) * 8 + 0, 32⟩
def TIME_OFS_REM_I : Fld := ⟨(0x40020044) * 8 + 0, 32⟩
def TIME_CT_SET_L : Fld := ⟨(0x40020050) * 8 + 0, 32⟩
def TIME_CT_SET_H : Fld := ⟨(0x40020054) * 8 + 0, 32⟩
def TIME_CT_SET_F : Fld := ⟨(0x40020058) * 8 + 0, 32⟩
def TIME_FRAME : Fld := ⟨(0x40020060) * 8 + 0, 20⟩
def TIME_CYCLE : Fld := ⟨(0x40020064) * 8 + 0, 9⟩
def TIME_FC_L : Fld := ⟨(0x40020068) * 8 + 0, 32⟩
def TIME_FC_H : Fld := ⟨(0x4002006C) * 8 + 0, 32⟩
def TIME_FT_FT : Fld := ⟨(0x40020070) * 8 + 0, 20⟩
def TIME_FT_FIDX : Fld := ⟨(0x40020070) * 8 + 24, 8⟩
def TIME_CN_L : Fld := ⟨(0x40020074) * 8 + 0, 32⟩

/-! ### ANV block at 0x40030000 (R85) -/

def ANV_CTRL_RUN : Fld := ⟨(0x40030000) * 8 + 0, 1⟩
def ANV_CTRL_START_MODE : Fld := ⟨(0x40030000) * 8 + 1, 3⟩
def ANV_CTRL_STANDALONE : Fld := ⟨(0x40030000) * 8 + 8, 1⟩
def ANV_CTRL_LOCK : Fld := ⟨(0x40030000) * 8 + 31, 1⟩
def ANV_STAT_RUNNING : Fld := ⟨(0x40030004) * 8 + 0, 1⟩
def ANV_STAT_MODE : Fld := ⟨(0x40030004) * 8 + 1, 3⟩
def ANV_STAT_ARMED : Fld := ⟨(0x40030004) * 8 + 4, 1⟩
def ANV_STAT_ARMED_MODE : Fld := ⟨(0x40030004) * 8 + 5, 3⟩
def ANV_STAT_VALID : Fld := ⟨(0x40030004) * 8 + 8, 8⟩
def ANV_STAT_OVR : Fld := ⟨(0x40030004) * 8 + 16, 1⟩
def ANV_STAT_SLIP : Fld := ⟨(0x40030004) * 8 + 17, 1⟩
def ANV_STAT_ECC_CORR : Fld := ⟨(0x40030004) * 8 + 18, 1⟩
def ANV_STAT_EDIT_DENIED : Fld := ⟨(0x40030004) * 8 + 19, 1⟩
def ANV_STAT_MODE_REQ_REFUSED : Fld := ⟨(0x40030004) * 8 + 20, 1⟩
def ANV_STAT_WDENY : Fld := ⟨(0x40030004) * 8 + 21, 1⟩
def ANV_MODE_REQ_MODE : Fld := ⟨(0x40030008) * 8 + 0, 3⟩
def ANV_MODE_REQ_REQ : Fld := ⟨(0x40030008) * 8 + 31, 1⟩
def ANV_MODEn_BASE (n : Nat) : Fld := ⟨(0x40030020 + 4 * n) * 8 + 0, 13⟩
def ANV_MODEn_LENM1 (n : Nat) : Fld := ⟨(0x40030020 + 4 * n) * 8 + 16, 11⟩
def ANV_VALn_VALID (n : Nat) : Fld := ⟨(0x40030040 + 4 * n) * 8 + 0, 1⟩
def ANV_VALn_CODE (n : Nat) : Fld := ⟨(0x40030040 + 4 * n) * 8 + 4, 4⟩
def ANV_VALn_ENTRY (n : Nat) : Fld := ⟨(0x40030040 + 4 * n) * 8 + 16, 11⟩
def ANV_OVR_CNT : Fld := ⟨(0x40030060) * 8 + 0, 16⟩
def ANV_OVR_FN : Fld := ⟨(0x40030064) * 8 + 0, 32⟩
def ANV_OVR_INFO_ENTRY : Fld := ⟨(0x40030068) * 8 + 0, 11⟩
def ANV_OVR_INFO_CAUSE : Fld := ⟨(0x40030068) * 8 + 12, 2⟩
def ANV_OVR_INFO_ENG : Fld := ⟨(0x40030068) * 8 + 16, 8⟩
def ANV_SLIP_CNT : Fld := ⟨(0x4003006C) * 8 + 0, 32⟩
def ANV_SLIP_MAX : Fld := ⟨(0x40030070) * 8 + 0, 20⟩
def ANV_STAT_BASE : Fld := ⟨(0x40030080) * 8 + 14, 18⟩
def ANV_ECC_CORR_CNT : Fld := ⟨(0x40030090) * 8 + 0, 16⟩
def ANV_ECC_ADDR : Fld := ⟨(0x40030090) * 8 + 16, 13⟩
def ANV_SCRUB : Fld := ⟨(0x40030094) * 8 + 0, 1⟩

/-! ### CEC block at 0x40040000 (R127) -/

def CEC_CTRL_TREN : Fld := ⟨(0x40040000) * 8 + 0, 8⟩
def CEC_CTRL_LOCK : Fld := ⟨(0x40040000) * 8 + 31, 1⟩
def CEC_STAT_BUSY : Fld := ⟨(0x40040004) * 8 + 0, 8⟩
def CEC_STAT_DONE : Fld := ⟨(0x40040004) * 8 + 8, 8⟩
def CEC_STAT_LOADED : Fld := ⟨(0x40040004) * 8 + 16, 8⟩
def CEC_STAT_FENCED : Fld := ⟨(0x40040004) * 8 + 24, 8⟩
def CEC_FLAG_SAT : Fld := ⟨(0x40040008) * 8 + 0, 8⟩
def CEC_FLAG_FCST : Fld := ⟨(0x40040008) * 8 + 8, 8⟩
def CEC_FLAG_ABORT : Fld := ⟨(0x40040008) * 8 + 16, 8⟩
def CEC_FLAG_SKIP : Fld := ⟨(0x40040008) * 8 + 24, 8⟩
def CEC_ECC_CORR_CNT : Fld := ⟨(0x40040010) * 8 + 0, 16⟩
def CEC_ECC_ENG : Fld := ⟨(0x40040010) * 8 + 16, 3⟩
def CEC_ECC_MEM : Fld := ⟨(0x40040010) * 8 + 20, 2⟩
def CEC_ECC_UNC : Fld := ⟨(0x40040010) * 8 + 24, 1⟩
def CEC_ECC_ADDR : Fld := ⟨(0x40040014) * 8 + 0, 14⟩
def CEC_TR_BASE : Fld := ⟨(0x40040020) * 8 + 12, 8⟩
def CEC_TR_SIZE : Fld := ⟨(0x40040024) * 8 + 12, 9⟩
def CEC_TR_WP : Fld := ⟨(0x40040028) * 8 + 0, 20⟩
def CEC_TR_RP : Fld := ⟨(0x4004002C) * 8 + 0, 20⟩
def CEC_TR_DROP : Fld := ⟨(0x40040030) * 8 + 0, 32⟩
def CEC_En_ID (n : Nat) : Fld := ⟨(0x40040100 + 0x40 * n) * 8 + 0, 32⟩
def CEC_En_CYC (n : Nat) : Fld := ⟨(0x40040104 + 0x40 * n) * 8 + 0, 16⟩
def CEC_En_LAST_ELAPSED (n : Nat) : Fld := ⟨(0x40040108 + 0x40 * n) * 8 + 0, 16⟩
def CEC_En_LAST_FN (n : Nat) : Fld := ⟨(0x40040108 + 0x40 * n) * 8 + 16, 16⟩
def CEC_En_FRAME_SAT (n : Nat) : Fld := ⟨(0x4004010C + 0x40 * n) * 8 + 0, 1⟩
def CEC_En_FRAME_FCST (n : Nat) : Fld := ⟨(0x4004010C + 0x40 * n) * 8 + 1, 1⟩
def CEC_En_FRAME_OVR (n : Nat) : Fld := ⟨(0x4004010C + 0x40 * n) * 8 + 2, 1⟩
def CEC_En_FRAME_SKIP (n : Nat) : Fld := ⟨(0x4004010C + 0x40 * n) * 8 + 3, 1⟩
def CEC_En_PAGEm (n m : Nat) : Fld := ⟨(0x40040110 + 0x40 * n + 4 * m) * 8 + 0, 32⟩
def CEC_En_NODE_L (n : Nat) : Fld := ⟨(0x40040120 + 0x40 * n) * 8 + 0, 32⟩
def CEC_En_NODE_H (n : Nat) : Fld := ⟨(0x40040124 + 0x40 * n) * 8 + 0, 32⟩
def CEC_En_COEF (n : Nat) : Fld := ⟨(0x40040128 + 0x40 * n) * 8 + 0, 13⟩

/-! ### COM block at 0x40050000 (R160) -/

def COM_CTRL : Fld := ⟨(0x40050000) * 8 + 31, 1⟩
def COM_STAT_WDENY : Fld := ⟨(0x40050004) * 8 + 0, 8⟩
def COM_STAT_CFG_BAD : Fld := ⟨(0x40050004) * 8 + 8, 8⟩
def COM_STAT_SAFE : Fld := ⟨(0x40050004) * 8 + 16, 8⟩
def COM_An_CFG_MEAS (n : Nat) : Fld := ⟨(0x40050100 + 0x80 * n) * 8 + 0, 2⟩
def COM_An_CFG_MOTOR (n : Nat) : Fld := ⟨(0x40050100 + 0x80 * n) * 8 + 4, 1⟩
def COM_An_CFG_NPRED (n : Nat) : Fld := ⟨(0x40050100 + 0x80 * n) * 8 + 8, 4⟩
def COM_An_CFG_SAFE_KIND (n : Nat) : Fld := ⟨(0x40050100 + 0x80 * n) * 8 + 16, 2⟩
def COM_An_CFG_ASC_ALLOW (n : Nat) : Fld := ⟨(0x40050100 + 0x80 * n) * 8 + 18, 1⟩
def COM_An_CARR (n : Nat) : Fld := ⟨(0x40050104 + 0x80 * n) * 8 + 0, 19⟩
def COM_An_PHASE (n : Nat) : Fld := ⟨(0x40050108 + 0x80 * n) * 8 + 0, 19⟩
def COM_An_SS_TMIN (n : Nat) : Fld := ⟨(0x4005010C + 0x80 * n) * 8 + 0, 11⟩
def COM_An_SS_SETTLE (n : Nat) : Fld := ⟨(0x4005010C + 0x80 * n) * 8 + 12, 11⟩
def COM_An_SS_CH (n : Nat) : Fld := ⟨(0x4005010C + 0x80 * n) * 8 + 24, 6⟩
def COM_An_VDC1_HI1 (n : Nat) : Fld := ⟨(0x40050110 + 0x80 * n) * 8 + 0, 16⟩
def COM_An_VDC1_HYST (n : Nat) : Fld := ⟨(0x40050110 + 0x80 * n) * 8 + 16, 16⟩
def COM_An_VDC2_HI2 (n : Nat) : Fld := ⟨(0x40050114 + 0x80 * n) * 8 + 0, 16⟩
def COM_An_VDC2_TRIP (n : Nat) : Fld := ⟨(0x40050114 + 0x80 * n) * 8 + 16, 16⟩
def COM_An_VDCG_SRC (n : Nat) : Fld := ⟨(0x40050118 + 0x80 * n) * 8 + 0, 6⟩
def COM_An_VDCG_SRCK (n : Nat) : Fld := ⟨(0x40050118 + 0x80 * n) * 8 + 6, 1⟩
def COM_An_VDCG_FILT (n : Nat) : Fld := ⟨(0x40050118 + 0x80 * n) * 8 + 8, 3⟩
def COM_An_VDCG_TOUT (n : Nat) : Fld := ⟨(0x40050118 + 0x80 * n) * 8 + 16, 8⟩
def COM_An_CHOP_CH_EN (n : Nat) : Fld := ⟨(0x4005011C + 0x80 * n) * 8 + 0, 1⟩
def COM_An_CHOP_ISRC (n : Nat) : Fld := ⟨(0x4005011C + 0x80 * n) * 8 + 1, 7⟩
def COM_An_CHOP_IMIN (n : Nat) : Fld := ⟨(0x4005011C + 0x80 * n) * 8 + 16, 16⟩
def COM_An_CHT_TCHK (n : Nat) : Fld := ⟨(0x40050120 + 0x80 * n) * 8 + 0, 14⟩
def COM_An_CHT_IDLY (n : Nat) : Fld := ⟨(0x40050120 + 0x80 * n) * 8 + 16, 10⟩
def COM_An_IDCEIL (n : Nat) : Fld := ⟨(0x40050124 + 0x80 * n) * 8 + 0, 32⟩
def COM_An_IMAX (n : Nat) : Fld := ⟨(0x40050128 + 0x80 * n) * 8 + 0, 32⟩
def COM_An_REGEN (n : Nat) : Fld := ⟨(0x4005012C + 0x80 * n) * 8 + 0, 32⟩
def COM_An_REVSPD (n : Nat) : Fld := ⟨(0x40050130 + 0x80 * n) * 8 + 0, 32⟩
def COM_An_STAT_CFG_BAD (n : Nat) : Fld := ⟨(0x40050140 + 0x80 * n) * 8 + 0, 1⟩
def COM_An_STAT_CHOP_ON (n : Nat) : Fld := ⟨(0x40050140 + 0x80 * n) * 8 + 1, 1⟩
def COM_An_STAT_HI1 (n : Nat) : Fld := ⟨(0x40050140 + 0x80 * n) * 8 + 2, 1⟩
def COM_An_STAT_REGEN_CLAMP (n : Nat) : Fld := ⟨(0x40050140 + 0x80 * n) * 8 + 3, 1⟩
def COM_An_STAT_CHOP_FAULT (n : Nat) : Fld := ⟨(0x40050140 + 0x80 * n) * 8 + 4, 1⟩
def COM_An_STAT_CHOP_STUCK (n : Nat) : Fld := ⟨(0x40050140 + 0x80 * n) * 8 + 5, 1⟩
def COM_An_STAT_TRIP (n : Nat) : Fld := ⟨(0x40050140 + 0x80 * n) * 8 + 6, 1⟩
def COM_An_STAT_VDC_LOST (n : Nat) : Fld := ⟨(0x40050140 + 0x80 * n) * 8 + 7, 1⟩
def COM_An_STAT_STARVED (n : Nat) : Fld := ⟨(0x40050140 + 0x80 * n) * 8 + 8, 1⟩
def COM_An_STAT_ALIGN (n : Nat) : Fld := ⟨(0x40050140 + 0x80 * n) * 8 + 9, 1⟩
def COM_An_STAT_PRED_RUN (n : Nat) : Fld := ⟨(0x40050140 + 0x80 * n) * 8 + 16, 5⟩
def COM_An_VDC_LAST (n : Nat) : Fld := ⟨(0x40050144 + 0x80 * n) * 8 + 0, 16⟩
def COM_An_VDC_ICH (n : Nat) : Fld := ⟨(0x40050144 + 0x80 * n) * 8 + 16, 16⟩
def COM_An_SKIPS (n : Nat) : Fld := ⟨(0x40050148 + 0x80 * n) * 8 + 0, 32⟩

/-! ### FBK block at 0x40060000 (R194) -/

def FBK_CTRL_REARM : Fld := ⟨(0x40060000) * 8 + 0, 8⟩
def FBK_CTRL_EXC_EN : Fld := ⟨(0x40060000) * 8 + 8, 1⟩
def FBK_CTRL_LOCK : Fld := ⟨(0x40060000) * 8 + 31, 1⟩
def FBK_AXMAP : Fld := ⟨(0x40060004) * 8 + 0, 24⟩
def FBK_EXC : Fld := ⟨(0x40060008) * 8 + 0, 17⟩
def FBK_EXCPH : Fld := ⟨(0x4006000C) * 8 + 0, 17⟩
def FBK_WDENY : Fld := ⟨(0x40060010) * 8 + 0, 8⟩
def FBK_Cn_CFG_MODE (n : Nat) : Fld := ⟨(0x40060100 + 0x40 * n) * 8 + 0, 3⟩
def FBK_Cn_CFG_DIRINV (n : Nat) : Fld := ⟨(0x40060100 + 0x40 * n) * 8 + 3, 1⟩
def FBK_Cn_CFG_NF (n : Nat) : Fld := ⟨(0x40060100 + 0x40 * n) * 8 + 4, 6⟩
def FBK_Cn_CFG_ZGATE (n : Nat) : Fld := ⟨(0x40060100 + 0x40 * n) * 8 + 10, 1⟩
def FBK_Cn_CFG_GRAY (n : Nat) : Fld := ⟨(0x40060100 + 0x40 * n) * 8 + 11, 1⟩
def FBK_Cn_CFG_PAR (n : Nat) : Fld := ⟨(0x40060100 + 0x40 * n) * 8 + 12, 1⟩
def FBK_Cn_CFG_LOSEN (n : Nat) : Fld := ⟨(0x40060100 + 0x40 * n) * 8 + 13, 1⟩
def FBK_Cn_CFG_SPDW (n : Nat) : Fld := ⟨(0x40060100 + 0x40 * n) * 8 + 16, 6⟩
def FBK_Cn_IDX_LINES (n : Nat) : Fld := ⟨(0x40060104 + 0x40 * n) * 8 + 0, 16⟩
def FBK_Cn_IDX_TOL (n : Nat) : Fld := ⟨(0x40060104 + 0x40 * n) * 8 + 16, 8⟩
def FBK_Cn_ILL_ILL_LIM (n : Nat) : Fld := ⟨(0x40060108 + 0x40 * n) * 8 + 0, 8⟩
def FBK_Cn_ILL_ILL_WIN (n : Nat) : Fld := ⟨(0x40060108 + 0x40 * n) * 8 + 8, 6⟩
def FBK_Cn_ILL_OVR_N (n : Nat) : Fld := ⟨(0x40060108 + 0x40 * n) * 8 + 16, 8⟩
def FBK_Cn_SSI_NB (n : Nat) : Fld := ⟨(0x4006010C + 0x40 * n) * 8 + 0, 6⟩
def FBK_Cn_SSI_HALF (n : Nat) : Fld := ⟨(0x4006010C + 0x40 * n) * 8 + 8, 8⟩
def FBK_Cn_SSI_LDLY (n : Nat) : Fld := ⟨(0x4006010C + 0x40 * n) * 8 + 16, 8⟩
def FBK_Cn_SSI_NBAD (n : Nat) : Fld := ⟨(0x4006010C + 0x40 * n) * 8 + 24, 4⟩
def FBK_Cn_SSIOFS (n : Nat) : Fld := ⟨(0x40060110 + 0x40 * n) * 8 + 0, 20⟩
def FBK_Cn_JMAX (n : Nat) : Fld := ⟨(0x40060114 + 0x40 * n) * 8 + 0, 32⟩
def FBK_Cn_ANA_RDLY (n : Nat) : Fld := ⟨(0x40060118 + 0x40 * n) * 8 + 0, 16⟩
def FBK_Cn_ANA_AMIN (n : Nat) : Fld := ⟨(0x40060118 + 0x40 * n) * 8 + 16, 8⟩
def FBK_Cn_ANA_AMAX (n : Nat) : Fld := ⟨(0x40060118 + 0x40 * n) * 8 + 24, 8⟩
def FBK_Cn_HALL (n : Nat) : Fld := ⟨(0x4006011C + 0x40 * n) * 8 + 0, 16⟩
def FBK_Cn_STAT (n : Nat) : Fld := ⟨(0x40060120 + 0x40 * n) * 8 + 0, 12⟩
def FBK_Cn_POS (n : Nat) : Fld := ⟨(0x40060124 + 0x40 * n) * 8 + 0, 32⟩
def FBK_Cn_ILLCNT (n : Nat) : Fld := ⟨(0x40060128 + 0x40 * n) * 8 + 0, 16⟩

/-! ### ADC block at 0x40070000 (R195) -/

def ADC_CTRL : Fld := ⟨(0x40070000) * 8 + 31, 1⟩
def ADC_STAT_DROP : Fld := ⟨(0x40070004) * 8 + 0, 6⟩
def ADC_STAT_WDENY : Fld := ⟨(0x40070004) * 8 + 6, 1⟩
def ADC_CLIP_L : Fld := ⟨(0x40070008) * 8 + 0, 32⟩
def ADC_CLIP_H : Fld := ⟨(0x4007000C) * 8 + 0, 16⟩
def ADC_BIP_L : Fld := ⟨(0x40070010) * 8 + 0, 32⟩
def ADC_BIP_H : Fld := ⟨(0x40070014) * 8 + 0, 16⟩
def ADC_CSA_EN (k : Nat) : Fld := ⟨(0x40070018 + 1 * k) * 8 + 0, 1⟩
def ADC_CSA_GAIN (k : Nat) : Fld := ⟨(0x40070018 + 1 * k) * 8 + 1, 3⟩
def ADC_CSA_CAL (k : Nat) : Fld := ⟨(0x40070018 + 1 * k) * 8 + 4, 1⟩
def ADC_CSA_OVR (k : Nat) : Fld := ⟨(0x40070018 + 1 * k) * 8 + 5, 1⟩
def ADC_SSUP_EN : Fld := ⟨(0x4007001C) * 8 + 0, 4⟩
def ADC_SSUP_FAULT : Fld := ⟨(0x4007001C) * 8 + 8, 4⟩
def ADC_SSUP_PG : Fld := ⟨(0x4007001C) * 8 + 16, 4⟩
def ADC_SDCKk_DIV (k : Nat) : Fld := ⟨(0x40070020 + 4 * k) * 8 + 0, 7⟩
def ADC_SDCKk_EN (k : Nat) : Fld := ⟨(0x40070020 + 4 * k) * 8 + 8, 1⟩
def ADC_SDSTUCK : Fld := ⟨(0x40070030) * 8 + 0, 24⟩
def ADC_SDn_CKSEL (n : Nat) : Fld := ⟨(0x40070040 + 4 * n) * 8 + 0, 2⟩
def ADC_SDn_EDGE (n : Nat) : Fld := ⟨(0x40070040 + 4 * n) * 8 + 2, 1⟩
def ADC_SDn_EN (n : Nat) : Fld := ⟨(0x40070040 + 4 * n) * 8 + 3, 1⟩
def ADC_SDn_DEC (n : Nat) : Fld := ⟨(0x40070040 + 4 * n) * 8 + 4, 3⟩
def ADC_SDn_STOUT (n : Nat) : Fld := ⟨(0x40070040 + 4 * n) * 8 + 8, 8⟩
def ADC_Gg_CFG_TRIG (g : Nat) : Fld := ⟨(0x40070100 + 0x40 * g) * 8 + 0, 2⟩
def ADC_Gg_CFG_AXC (g : Nat) : Fld := ⟨(0x40070100 + 0x40 * g) * 8 + 2, 3⟩
def ADC_Gg_CFG_START (g : Nat) : Fld := ⟨(0x40070100 + 0x40 * g) * 8 + 8, 20⟩
def ADC_Gg_Sk_SRC (g k : Nat) : Fld := ⟨(0x40070104 + 0x40 * g + 4 * k) * 8 + 0, 6⟩
def ADC_Gg_Sk_SD (g k : Nat) : Fld := ⟨(0x40070104 + 0x40 * g + 4 * k) * 8 + 6, 1⟩
def ADC_Gg_Sk_EN (g k : Nat) : Fld := ⟨(0x40070104 + 0x40 * g + 4 * k) * 8 + 7, 1⟩
def ADC_Gg_Sk_DEN (g k : Nat) : Fld := ⟨(0x40070104 + 0x40 * g + 4 * k) * 8 + 8, 1⟩
def ADC_Gg_Sk_DAX (g k : Nat) : Fld := ⟨(0x40070104 + 0x40 * g + 4 * k) * 8 + 9, 3⟩
def ADC_Gg_Sk_DW (g k : Nat) : Fld := ⟨(0x40070104 + 0x40 * g + 4 * k) * 8 + 12, 3⟩
def ADC_RESc_CODE (c : Nat) : Fld := ⟨(0x40070800 + 4 * c) * 8 + 0, 16⟩
def ADC_RESc_STAMP (c : Nat) : Fld := ⟨(0x40070800 + 4 * c) * 8 + 16, 16⟩
def ADC_SDRESn_CODE (n : Nat) : Fld := ⟨(0x40070900 + 4 * n) * 8 + 0, 16⟩
def ADC_SDRESn_STAMP (n : Nat) : Fld := ⟨(0x40070900 + 4 * n) * 8 + 16, 16⟩

/-! ### OUT block at 0x40080000 (R222) -/

def OUT_CTRL : Fld := ⟨(0x40080000) * 8 + 31, 1⟩
def OUT_STAT_WDENY : Fld := ⟨(0x40080004) * 8 + 0, 8⟩
def OUT_STAT_READY : Fld := ⟨(0x40080004) * 8 + 8, 8⟩
def OUT_STAT_CLAMP : Fld := ⟨(0x40080004) * 8 + 16, 8⟩
def OUT_TRIP_STAT_LEVEL : Fld := ⟨(0x40080008) * 8 + 0, 8⟩
def OUT_TRIP_STAT_LATCH : Fld := ⟨(0x40080008) * 8 + 8, 8⟩
def OUT_TRIPt_EN (t : Nat) : Fld := ⟨(0x40080010 + 4 * t) * 8 + 0, 1⟩
def OUT_TRIPt_POL (t : Nat) : Fld := ⟨(0x40080010 + 4 * t) * 8 + 1, 1⟩
def OUT_TRIPt_FILT (t : Nat) : Fld := ⟨(0x40080010 + 4 * t) * 8 + 2, 6⟩
def OUT_TRIPt_AXMASK (t : Nat) : Fld := ⟨(0x40080010 + 4 * t) * 8 + 8, 8⟩
def OUT_An_CFG_PINEN (n : Nat) : Fld := ⟨(0x40080100 + 0x40 * n) * 8 + 0, 1⟩
def OUT_An_CFG_GLEN (n : Nat) : Fld := ⟨(0x40080100 + 0x40 * n) * 8 + 1, 1⟩
def OUT_An_CFG_POLH (n : Nat) : Fld := ⟨(0x40080100 + 0x40 * n) * 8 + 2, 1⟩
def OUT_An_CFG_POLL (n : Nat) : Fld := ⟨(0x40080100 + 0x40 * n) * 8 + 3, 1⟩
def OUT_An_CFG_POLBRK (n : Nat) : Fld := ⟨(0x40080100 + 0x40 * n) * 8 + 4, 1⟩
def OUT_An_DT (n : Nat) : Fld := ⟨(0x40080104 + 0x40 * n) * 8 + 0, 12⟩
def OUT_An_GL_CLAIM_TO (n : Nat) : Fld := ⟨(0x40080108 + 0x40 * n) * 8 + 0, 16⟩
def OUT_An_GL_TWARN (n : Nat) : Fld := ⟨(0x40080108 + 0x40 * n) * 8 + 16, 8⟩
def OUT_An_GL_TTRIP (n : Nat) : Fld := ⟨(0x40080108 + 0x40 * n) * 8 + 24, 8⟩
def OUT_An_GLCTL_TRAIN (n : Nat) : Fld := ⟨(0x4008010C + 0x40 * n) * 8 + 0, 1⟩
def OUT_An_GLCTL_CLEAR (n : Nat) : Fld := ⟨(0x4008010C + 0x40 * n) * 8 + 1, 1⟩
def OUT_An_GLST_STATE (n : Nat) : Fld := ⟨(0x40080110 + 0x40 * n) * 8 + 0, 2⟩
def OUT_An_GLST_PROP8 (n : Nat) : Fld := ⟨(0x40080110 + 0x40 * n) * 8 + 4, 8⟩
def OUT_An_GLST_INPUT (n : Nat) : Fld := ⟨(0x40080110 + 0x40 * n) * 8 + 12, 2⟩
def OUT_An_GLST_OBEYED (n : Nat) : Fld := ⟨(0x40080110 + 0x40 * n) * 8 + 16, 8⟩
def OUT_An_UPL_FLT (n : Nat) : Fld := ⟨(0x40080114 + 0x40 * n) * 8 + 0, 8⟩
def OUT_An_UPL_TEMP (n : Nat) : Fld := ⟨(0x40080114 + 0x40 * n) * 8 + 8, 8⟩
def OUT_An_UPL_FLAGS (n : Nat) : Fld := ⟨(0x40080114 + 0x40 * n) * 8 + 16, 8⟩
def OUT_An_ERR (n : Nat) : Fld := ⟨(0x40080118 + 0x40 * n) * 8 + 0, 16⟩
def OUT_An_STAT_DESAT (n : Nat) : Fld := ⟨(0x4008011C + 0x40 * n) * 8 + 0, 1⟩
def OUT_An_STAT_REMOTE (n : Nat) : Fld := ⟨(0x4008011C + 0x40 * n) * 8 + 1, 1⟩
def OUT_An_STAT_TIE (n : Nat) : Fld := ⟨(0x4008011C + 0x40 * n) * 8 + 2, 1⟩
def OUT_An_STAT_PFULL (n : Nat) : Fld := ⟨(0x4008011C + 0x40 * n) * 8 + 3, 1⟩
def OUT_An_STAT_TRIPPED (n : Nat) : Fld := ⟨(0x4008011C + 0x40 * n) * 8 + 4, 1⟩
def OUT_An_STAT_GEN_A (n : Nat) : Fld := ⟨(0x4008011C + 0x40 * n) * 8 + 5, 1⟩
def OUT_An_STAT_GEN_B (n : Nat) : Fld := ⟨(0x4008011C + 0x40 * n) * 8 + 6, 1⟩
def OUT_An_STAT_PEND (n : Nat) : Fld := ⟨(0x4008011C + 0x40 * n) * 8 + 7, 2⟩
def OUT_SOm_CFG_EN (m : Nat) : Fld := ⟨(0x40080400 + 0x20 * m) * 8 + 0, 1⟩
def OUT_SOm_CFG_TPEN (m : Nat) : Fld := ⟨(0x40080400 + 0x20 * m) * 8 + 1, 1⟩
def OUT_SOm_CFG_TP_INT (m : Nat) : Fld := ⟨(0x40080400 + 0x20 * m) * 8 + 8, 8⟩
def OUT_SOm_CFG_TP_W (m : Nat) : Fld := ⟨(0x40080400 + 0x20 * m) * 8 + 16, 8⟩
def OUT_SOm_STAT_HS_CMD (m : Nat) : Fld := ⟨(0x40080404 + 0x20 * m) * 8 + 0, 1⟩
def OUT_SOm_STAT_LS_CMD (m : Nat) : Fld := ⟨(0x40080404 + 0x20 * m) * 8 + 1, 1⟩
def OUT_SOm_STAT_MIDH (m : Nat) : Fld := ⟨(0x40080404 + 0x20 * m) * 8 + 2, 1⟩
def OUT_SOm_STAT_MIDL (m : Nat) : Fld := ⟨(0x40080404 + 0x20 * m) * 8 + 3, 1⟩
def OUT_SOm_STAT_IHS (m : Nat) : Fld := ⟨(0x40080404 + 0x20 * m) * 8 + 4, 1⟩
def OUT_SOm_STAT_OC (m : Nat) : Fld := ⟨(0x40080404 + 0x20 * m) * 8 + 8, 1⟩
def OUT_SOm_STAT_RB (m : Nat) : Fld := ⟨(0x40080404 + 0x20 * m) * 8 + 9, 1⟩
def OUT_SOm_STAT_TEST (m : Nat) : Fld := ⟨(0x40080404 + 0x20 * m) * 8 + 10, 1⟩
def OUT_SOm_STAT_OPEN (m : Nat) : Fld := ⟨(0x40080404 + 0x20 * m) * 8 + 11, 1⟩
def OUT_SOm_TPCNT (m : Nat) : Fld := ⟨(0x40080408 + 0x20 * m) * 8 + 0, 32⟩

/-! ### CHK block at 0x40090000 (R281) -/

def CHK_CTRL_REJOIN_X : Fld := ⟨(0x40090000) * 8 + 0, 1⟩
def CHK_CTRL_REJOIN_Y : Fld := ⟨(0x40090000) * 8 + 1, 1⟩
def CHK_CTRL_SCRUB_EN : Fld := ⟨(0x40090000) * 8 + 2, 1⟩
def CHK_CTRL_LOCK : Fld := ⟨(0x40090000) * 8 + 31, 1⟩
def CHK_STAT_SPLIT : Fld := ⟨(0x40090004) * 8 + 0, 1⟩
def CHK_STAT_X_STATE : Fld := ⟨(0x40090004) * 8 + 1, 2⟩
def CHK_STAT_Y_STATE : Fld := ⟨(0x40090004) * 8 + 3, 2⟩
def CHK_STAT_CMP_OK : Fld := ⟨(0x40090004) * 8 + 5, 4⟩
def CHK_STAT_X_RESYNC : Fld := ⟨(0x40090004) * 8 + 9, 1⟩
def CHK_STAT_Y_RESYNC : Fld := ⟨(0x40090004) * 8 + 10, 1⟩
def CHK_OWN_AXOWN : Fld := ⟨(0x40090008) * 8 + 0, 8⟩
def CHK_OWN_SOOWN : Fld := ⟨(0x40090008) * 8 + 8, 4⟩
def CHK_EOWN : Fld := ⟨(0x4009000C) * 8 + 0, 12⟩
def CHK_CFG_LAG_MAX : Fld := ⟨(0x40090010) * 8 + 0, 16⟩
def CHK_CFG_CP_TOUT : Fld := ⟨(0x40090010) * 8 + 16, 16⟩
def CHK_CFG2_SCRUB_INT : Fld := ⟨(0x40090014) * 8 + 0, 16⟩
def CHK_CFG2_OHOLD : Fld := ⟨(0x40090014) * 8 + 16, 4⟩
def CHK_ECC : Fld := ⟨(0x40090018) * 8 + 0, 16⟩
def CHK_ASSAY_RAN : Fld := ⟨(0x4009001C) * 8 + 0, 4⟩
def CHK_ASSAY_PASS : Fld := ⟨(0x4009001C) * 8 + 4, 4⟩
def CHK_ASSAY_PATTERN : Fld := ⟨(0x4009001C) * 8 + 8, 7⟩
def CHK_RGNk_BASE (k : Nat) : Fld := ⟨(0x40090100 + 0x10 * k) * 8 + 2, 30⟩
def CHK_RGNk_SIZE (k : Nat) : Fld := ⟨(0x40090104 + 0x10 * k) * 8 + 2, 30⟩
def CHK_RGNk_RULE_EN (k : Nat) : Fld := ⟨(0x40090108 + 0x10 * k) * 8 + 0, 1⟩
def CHK_RGNk_RULE_RULE (k : Nat) : Fld := ⟨(0x40090108 + 0x10 * k) * 8 + 1, 2⟩
def CHK_RGNk_RULE_RETRY (k : Nat) : Fld := ⟨(0x40090108 + 0x10 * k) * 8 + 3, 2⟩
def CHK_RGNk_TOL (k : Nat) : Fld := ⟨(0x4009010C + 0x10 * k) * 8 + 0, 32⟩
def CHK_Px_OUT_AXEN (p : Nat) : Fld := ⟨(0x40090200 + 0x80 * p) * 8 + 0, 8⟩
def CHK_Px_OUT_SO (p : Nat) : Fld := ⟨(0x40090200 + 0x80 * p) * 8 + 8, 4⟩
def CHK_Px_ICL (p : Nat) : Fld := ⟨(0x40090204 + 0x80 * p) * 8 + 0, 32⟩
def CHK_Px_ICH (p : Nat) : Fld := ⟨(0x40090208 + 0x80 * p) * 8 + 0, 32⟩
def CHK_Px_CP_CPID (p : Nat) : Fld := ⟨(0x4009020C + 0x80 * p) * 8 + 0, 16⟩
def CHK_Px_CP_SRC (p : Nat) : Fld := ⟨(0x4009020C + 0x80 * p) * 8 + 16, 2⟩
def CHK_Px_CPCNT (p : Nat) : Fld := ⟨(0x40090210 + 0x80 * p) * 8 + 0, 32⟩
def CHK_Px_LAG_NOW (p : Nat) : Fld := ⟨(0x40090214 + 0x80 * p) * 8 + 0, 16⟩
def CHK_Px_LAG_MAX (p : Nat) : Fld := ⟨(0x40090214 + 0x80 * p) * 8 + 16, 16⟩
def CHK_Px_LOSS (p : Nat) : Fld := ⟨(0x40090218 + 0x80 * p) * 8 + 0, 4⟩
def CHK_Px_LOSSFN (p : Nat) : Fld := ⟨(0x4009021C + 0x80 * p) * 8 + 0, 32⟩
def CHK_Px_XCNT (p : Nat) : Fld := ⟨(0x40090220 + 0x80 * p) * 8 + 0, 32⟩
def CHK_Px_RETRY (p : Nat) : Fld := ⟨(0x40090224 + 0x80 * p) * 8 + 0, 32⟩
def CHK_Px_SCRUB_DONE (p : Nat) : Fld := ⟨(0x40090228 + 0x80 * p) * 8 + 0, 16⟩
def CHK_Px_SCRUB_DIVERGE (p : Nat) : Fld := ⟨(0x40090228 + 0x80 * p) * 8 + 16, 8⟩

/-! ### SEAM block at 0x400A0000 (R311) -/

def SEAM_CTRL_RESYNC : Fld := ⟨(0x400A0000) * 8 + 0, 1⟩
def SEAM_CTRL_STANDBY_OK : Fld := ⟨(0x400A0000) * 8 + 1, 1⟩
def SEAM_CTRL_SLICE_HOLD : Fld := ⟨(0x400A0000) * 8 + 2, 1⟩
def SEAM_CTRL_BULK_EN : Fld := ⟨(0x400A0000) * 8 + 3, 1⟩
def SEAM_CTRL_LOCK : Fld := ⟨(0x400A0000) * 8 + 31, 1⟩
def SEAM_CFG_CH : Fld := ⟨(0x400A0004) * 8 + 0, 2⟩
def SEAM_CFG_SET : Fld := ⟨(0x400A0004) * 8 + 2, 2⟩
def SEAM_CFG_LEASE : Fld := ⟨(0x400A0004) * 8 + 4, 4⟩
def SEAM_CFG_CLAIM_TO : Fld := ⟨(0x400A0004) * 8 + 8, 3⟩
def SEAM_CFG_YIELD : Fld := ⟨(0x400A0004) * 8 + 11, 1⟩
def SEAM_CFG_SLICE_INT : Fld := ⟨(0x400A0004) * 8 + 12, 8⟩
def SEAM_PORT_S0_PEER : Fld := ⟨(0x400A0008) * 8 + 0, 2⟩
def SEAM_PORT_S0_EN : Fld := ⟨(0x400A0008) * 8 + 2, 1⟩
def SEAM_PORT_S1_PEER : Fld := ⟨(0x400A0008) * 8 + 4, 2⟩
def SEAM_PORT_S1_EN : Fld := ⟨(0x400A0008) * 8 + 6, 1⟩
def SEAM_STAT_ROLE : Fld := ⟨(0x400A000C) * 8 + 0, 2⟩
def SEAM_STAT_HOLDER : Fld := ⟨(0x400A000C) * 8 + 2, 2⟩
def SEAM_STAT_HEIR : Fld := ⟨(0x400A000C) * 8 + 4, 2⟩
def SEAM_STAT_EPOCH : Fld := ⟨(0x400A000C) * 8 + 6, 5⟩
def SEAM_STAT_LEFT : Fld := ⟨(0x400A000C) * 8 + 11, 5⟩
def SEAM_STAT_S0_UP : Fld := ⟨(0x400A000C) * 8 + 16, 1⟩
def SEAM_STAT_S1_UP : Fld := ⟨(0x400A000C) * 8 + 17, 1⟩
def SEAM_STAT_CFG_BAD : Fld := ⟨(0x400A000C) * 8 + 18, 1⟩
def SEAM_STAT_SLICE_DONE : Fld := ⟨(0x400A000C) * 8 + 19, 1⟩
def SEAM_STAT_BULK : Fld := ⟨(0x400A000C) * 8 + 20, 2⟩
def SEAM_STAT_WDENY : Fld := ⟨(0x400A000C) * 8 + 22, 1⟩
def SEAM_CLAIM_CLAIM : Fld := ⟨(0x400A0010) * 8 + 0, 8⟩
def SEAM_CLAIM_WCLAIM : Fld := ⟨(0x400A0010) * 8 + 8, 8⟩
def SEAM_RENEW : Fld := ⟨(0x400A0014) * 8 + 0, 32⟩
def SEAM_HEALTH : Fld := ⟨(0x400A0018) * 8 + 0, 32⟩
def SEAM_PHc (c : Nat) : Fld := ⟨(0x400A001C + 4 * c) * 8 + 0, 32⟩
def SEAM_PAGE : Fld := ⟨(0x400A002C) * 8 + 0, 24⟩
def SEAM_TX : Fld := ⟨(0x400A0040) * 8 + 10, 22⟩
def SEAM_TXSZ : Fld := ⟨(0x400A0044) * 8 + 0, 7⟩
def SEAM_RX : Fld := ⟨(0x400A0048) * 8 + 10, 22⟩
def SEAM_RXSTAT_BANK : Fld := ⟨(0x400A004C) * 8 + 0, 1⟩
def SEAM_RXSTAT_MISS : Fld := ⟨(0x400A004C) * 8 + 8, 8⟩
def SEAM_RXCN : Fld := ⟨(0x400A0050) * 8 + 0, 32⟩
def SEAM_BULK : Fld := ⟨(0x400A0054) * 8 + 10, 22⟩
def SEAM_BULKSZ : Fld := ⟨(0x400A0058) * 8 + 0, 12⟩
def SEAM_BULKST : Fld := ⟨(0x400A005C) * 8 + 0, 12⟩
def SEAM_ERR_S0_CRC : Fld := ⟨(0x400A0060) * 8 + 0, 16⟩
def SEAM_ERR_S1_CRC : Fld := ⟨(0x400A0060) * 8 + 16, 16⟩
def SEAM_REJ : Fld := ⟨(0x400A0064) * 8 + 0, 16⟩

/-! ### FDL block at 0x400B0000 (R351) -/

def FDL_CTRL_EN : Fld := ⟨(0x400B0000) * 8 + 0, 1⟩
def FDL_CTRL_COLDSTART : Fld := ⟨(0x400B0000) * 8 + 1, 1⟩
def FDL_CTRL_LEAVE : Fld := ⟨(0x400B0000) * 8 + 2, 1⟩
def FDL_CTRL_LOCK : Fld := ⟨(0x400B0000) * 8 + 31, 1⟩
def FDL_CFG_NODE : Fld := ⟨(0x400B0004) * 8 + 0, 6⟩
def FDL_CFG_RSH : Fld := ⟨(0x400B0004) * 8 + 8, 2⟩
def FDL_CFG_SYNC_TH : Fld := ⟨(0x400B0004) * 8 + 10, 6⟩
def FDL_CFG_LOSS_TH : Fld := ⟨(0x400B0004) * 8 + 16, 8⟩
def FDL_CFG_LOSS_CYC : Fld := ⟨(0x400B0004) * 8 + 24, 4⟩
def FDL_CFG2_COLD_CYC : Fld := ⟨(0x400B0008) * 8 + 0, 8⟩
def FDL_CFG2_BAB_N : Fld := ⟨(0x400B0008) * 8 + 8, 4⟩
def FDL_CFG2_EDGE_N : Fld := ⟨(0x400B0008) * 8 + 12, 4⟩
def FDL_CFG2_PROP_TOUT : Fld := ⟨(0x400B0008) * 8 + 16, 8⟩
def FDL_STAT_SSTATE : Fld := ⟨(0x400B000C) * 8 + 0, 3⟩
def FDL_STAT_ADMITTED : Fld := ⟨(0x400B000C) * 8 + 3, 1⟩
def FDL_STAT_ROLE : Fld := ⟨(0x400B000C) * 8 + 4, 2⟩
def FDL_STAT_PEND : Fld := ⟨(0x400B000C) * 8 + 6, 1⟩
def FDL_STAT_COMMIT : Fld := ⟨(0x400B000C) * 8 + 7, 1⟩
def FDL_STAT_PMODE : Fld := ⟨(0x400B000C) * 8 + 8, 3⟩
def FDL_STAT_LEAVE : Fld := ⟨(0x400B000C) * 8 + 11, 1⟩
def FDL_STAT_NSYNC : Fld := ⟨(0x400B000C) * 8 + 12, 4⟩
def FDL_STAT_SWDENY : Fld := ⟨(0x400B000C) * 8 + 16, 1⟩
def FDL_MODE_PROP_MODE : Fld := ⟨(0x400B0010) * 8 + 0, 3⟩
def FDL_MODE_PROP_CANCEL : Fld := ⟨(0x400B0010) * 8 + 30, 1⟩
def FDL_MODE_PROP_PROP : Fld := ⟨(0x400B0010) * 8 + 31, 1⟩
def FDL_OFS : Fld := ⟨(0x400B0014) * 8 + 0, 32⟩
def FDL_RADJ : Fld := ⟨(0x400B0018) * 8 + 0, 32⟩
def FDL_DEVj_DEV (j : Nat) : Fld := ⟨(0x400B0020 + 4 * j) * 8 + 0, 22⟩
def FDL_DEVj_VALID (j : Nat) : Fld := ⟨(0x400B0020 + 4 * j) * 8 + 22, 1⟩
def FDL_DEVj_USED (j : Nat) : Fld := ⟨(0x400B0020 + 4 * j) * 8 + 23, 1⟩
def FDL_DEVj_NODE (j : Nat) : Fld := ⟨(0x400B0020 + 4 * j) * 8 + 24, 6⟩
def FDL_DEVj_STAR (j : Nat) : Fld := ⟨(0x400B0020 + 4 * j) * 8 + 30, 2⟩
def FDL_JOIN_NODE : Fld := ⟨(0x400B0040) * 8 + 0, 6⟩
def FDL_JOIN_STAR : Fld := ⟨(0x400B0040) * 8 + 6, 2⟩
def FDL_JOIN_TMODE : Fld := ⟨(0x400B0040) * 8 + 8, 3⟩
def FDL_JOIN_RESULT : Fld := ⟨(0x400B0040) * 8 + 12, 3⟩
def FDL_JOIN_NEW : Fld := ⟨(0x400B0040) * 8 + 31, 1⟩
def FDL_RXOK_L : Fld := ⟨(0x400B0048) * 8 + 0, 32⟩
def FDL_RXOK_H : Fld := ⟨(0x400B004C) * 8 + 0, 32⟩
def FDL_EDGE_L : Fld := ⟨(0x400B0050) * 8 + 0, 32⟩
def FDL_EDGE_H : Fld := ⟨(0x400B0054) * 8 + 0, 32⟩
def FDL_LOST_L : Fld := ⟨(0x400B0058) * 8 + 0, 32⟩
def FDL_LOST_H : Fld := ⟨(0x400B005C) * 8 + 0, 32⟩
def FDL_LOSTM : Fld := ⟨(0x400B0060) * 8 + 0, 3⟩
def FDL_DISC_MODE_DISC : Fld := ⟨(0x400B0064) * 8 + 0, 16⟩
def FDL_DISC_CRC : Fld := ⟨(0x400B0064) * 8 + 16, 16⟩
def FDL_MARGIN_NODE : Fld := ⟨(0x400B0068) * 8 + 0, 6⟩
def FDL_MARGIN_STAR : Fld := ⟨(0x400B0068) * 8 + 6, 2⟩
def FDL_Mm_IDL (m : Nat) : Fld := ⟨(0x400B0080 + 8 * m) * 8 + 0, 32⟩
def FDL_Mm_IDH (m : Nat) : Fld := ⟨(0x400B0084 + 8 * m) * 8 + 0, 32⟩
def FDL_Mm_VAL_CODE (m : Nat) : Fld := ⟨(0x400B00C0 + 4 * m) * 8 + 0, 4⟩
def FDL_Mm_VAL_SLOT (m : Nat) : Fld := ⟨(0x400B00C0 + 4 * m) * 8 + 4, 6⟩
def FDL_Pp_CFG_CLASS (p : Nat) : Fld := ⟨(0x400B0100 + 0x20 * p) * 8 + 0, 2⟩
def FDL_Pp_CFG_HOPX (p : Nat) : Fld := ⟨(0x400B0100 + 0x20 * p) * 8 + 2, 2⟩
def FDL_Pp_CFG_PEER (p : Nat) : Fld := ⟨(0x400B0100 + 0x20 * p) * 8 + 4, 2⟩
def FDL_Pp_MASK_L (p : Nat) : Fld := ⟨(0x400B0104 + 0x20 * p) * 8 + 0, 32⟩
def FDL_Pp_MASK_H (p : Nat) : Fld := ⟨(0x400B0108 + 0x20 * p) * 8 + 0, 32⟩
def FDL_Pp_MASKM (p : Nat) : Fld := ⟨(0x400B010C + 0x20 * p) * 8 + 0, 3⟩
def FDL_Pp_STAT_STATE (p : Nat) : Fld := ⟨(0x400B0110 + 0x20 * p) * 8 + 0, 2⟩
def FDL_Pp_STAT_DLY (p : Nat) : Fld := ⟨(0x400B0110 + 0x20 * p) * 8 + 4, 10⟩
def FDL_Pp_CTL_REOPEN (p : Nat) : Fld := ⟨(0x400B0114 + 0x20 * p) * 8 + 0, 1⟩
def FDL_Pp_CTL_REMEASURE (p : Nat) : Fld := ⟨(0x400B0114 + 0x20 * p) * 8 + 1, 1⟩
def FDL_Pp_CNT_CRC (p : Nat) : Fld := ⟨(0x400B0118 + 0x20 * p) * 8 + 0, 16⟩
def FDL_Pp_CNT_TRUNC (p : Nat) : Fld := ⟨(0x400B0118 + 0x20 * p) * 8 + 16, 16⟩
def FDL_Pp_MON_EDGE (p : Nat) : Fld := ⟨(0x400B011C + 0x20 * p) * 8 + 0, 16⟩
def FDL_Pp_MON_BABBLE (p : Nat) : Fld := ⟨(0x400B011C + 0x20 * p) * 8 + 16, 16⟩

/-! ### HIF block at 0x400C0000 (R379) -/

def HIF_CTRL_EN : Fld := ⟨(0x400C0000) * 8 + 0, 1⟩
def HIF_CTRL_LOCK : Fld := ⟨(0x400C0000) * 8 + 31, 1⟩
def HIF_STAT_LINK_UP : Fld := ⟨(0x400C0004) * 8 + 0, 1⟩
def HIF_STAT_SPEED : Fld := ⟨(0x400C0004) * 8 + 1, 2⟩
def HIF_STAT_WIDTH : Fld := ⟨(0x400C0004) * 8 + 3, 2⟩
def HIF_STAT_BME : Fld := ⟨(0x400C0004) * 8 + 5, 1⟩
def HIF_STAT_DENY : Fld := ⟨(0x400C0004) * 8 + 6, 1⟩
def HIF_STAT_DMAERR : Fld := ⟨(0x400C0004) * 8 + 7, 1⟩
def HIF_STAT_FLR : Fld := ⟨(0x400C0004) * 8 + 8, 1⟩
def HIF_CFG_HORIZON : Fld := ⟨(0x400C0008) * 8 + 0, 16⟩
def HIF_CFG_HOST_TOUT : Fld := ⟨(0x400C0008) * 8 + 16, 8⟩
def HIF_CFG_EVTRING : Fld := ⟨(0x400C0008) * 8 + 24, 4⟩
def HIF_CFG_EVTEN : Fld := ⟨(0x400C0008) * 8 + 28, 1⟩
def HIF_SRC_FDL : Fld := ⟨(0x400C000C) * 8 + 0, 8⟩
def HIF_SRC_RING : Fld := ⟨(0x400C000C) * 8 + 8, 8⟩
def HIF_APQ_NOW : Fld := ⟨(0x400C0010) * 8 + 0, 9⟩
def HIF_APQ_MAX : Fld := ⟨(0x400C0010) * 8 + 16, 9⟩
def HIF_ERRA_L : Fld := ⟨(0x400C0018) * 8 + 0, 32⟩
def HIF_ERRA_H : Fld := ⟨(0x400C001C) * 8 + 0, 32⟩
def HIF_DROP_STREAM : Fld := ⟨(0x400C0020) * 8 + 0, 16⟩
def HIF_DROP_EVENT : Fld := ⟨(0x400C0020) * 8 + 16, 16⟩
def HIF_DBr_INDEX (r : Nat) : Fld := ⟨(0x400C8000 + 0x80 * r) * 8 + 0, 12⟩
def HIF_DBr_ARM (r : Nat) : Fld := ⟨(0x400C8000 + 0x80 * r) * 8 + 31, 1⟩
def HIF_Rr_CFG_KIND (r : Nat) : Fld := ⟨(0x400C0100 + 0x40 * r) * 8 + 1, 3⟩
def HIF_Rr_CFG_LOC (r : Nat) : Fld := ⟨(0x400C0100 + 0x40 * r) * 8 + 4, 1⟩
def HIF_Rr_CFG_LSIZE (r : Nat) : Fld := ⟨(0x400C0100 + 0x40 * r) * 8 + 5, 4⟩
def HIF_Rr_CFG_CRING (r : Nat) : Fld := ⟨(0x400C0100 + 0x40 * r) * 8 + 9, 4⟩
def HIF_Rr_CFG_VEC (r : Nat) : Fld := ⟨(0x400C0100 + 0x40 * r) * 8 + 13, 5⟩
def HIF_Rr_CFG_AXMASK (r : Nat) : Fld := ⟨(0x400C0100 + 0x40 * r) * 8 + 24, 8⟩
def HIF_Rr_CTL (r : Nat) : Fld := ⟨(0x400C0104 + 0x40 * r) * 8 + 0, 1⟩
def HIF_Rr_BASE_L (r : Nat) : Fld := ⟨(0x400C0108 + 0x40 * r) * 8 + 6, 26⟩
def HIF_Rr_BASE_H (r : Nat) : Fld := ⟨(0x400C010C + 0x40 * r) * 8 + 0, 32⟩
def HIF_Rr_IDXA_L (r : Nat) : Fld := ⟨(0x400C0110 + 0x40 * r) * 8 + 3, 29⟩
def HIF_Rr_IDXA_H (r : Nat) : Fld := ⟨(0x400C0114 + 0x40 * r) * 8 + 0, 32⟩
def HIF_Rr_IDX_PI (r : Nat) : Fld := ⟨(0x400C0118 + 0x40 * r) * 8 + 0, 12⟩
def HIF_Rr_IDX_CI (r : Nat) : Fld := ⟨(0x400C0118 + 0x40 * r) * 8 + 16, 12⟩
def HIF_Rr_IRQ_MOD (r : Nat) : Fld := ⟨(0x400C011C + 0x40 * r) * 8 + 0, 8⟩
def HIF_Rr_IRQ_ARM (r : Nat) : Fld := ⟨(0x400C011C + 0x40 * r) * 8 + 8, 1⟩
def HIF_Rr_STAT_CFG_BAD (r : Nat) : Fld := ⟨(0x400C0120 + 0x40 * r) * 8 + 0, 1⟩
def HIF_Rr_STAT_STOPPED (r : Nat) : Fld := ⟨(0x400C0120 + 0x40 * r) * 8 + 1, 1⟩
def HIF_Rr_STAT_PHASE (r : Nat) : Fld := ⟨(0x400C0120 + 0x40 * r) * 8 + 2, 1⟩
def HIF_Rr_STAT_IDXERR (r : Nat) : Fld := ⟨(0x400C0120 + 0x40 * r) * 8 + 3, 1⟩
def HIF_Rr_STAT_COUNT (r : Nat) : Fld := ⟨(0x400C0120 + 0x40 * r) * 8 + 16, 16⟩

/-! ### CAN block at 0x400D0000 (R380) -/

def CAN_Cc_CTRL_EN (c : Nat) : Fld := ⟨(0x400D0000 + 0x400 * c) * 8 + 0, 1⟩
def CAN_Cc_CTRL_FDEN (c : Nat) : Fld := ⟨(0x400D0000 + 0x400 * c) * 8 + 1, 1⟩
def CAN_Cc_CTRL_TDC (c : Nat) : Fld := ⟨(0x400D0000 + 0x400 * c) * 8 + 2, 1⟩
def CAN_Cc_CTRL_AUTO_REC (c : Nat) : Fld := ⟨(0x400D0000 + 0x400 * c) * 8 + 3, 1⟩
def CAN_Cc_CTRL_LISTEN (c : Nat) : Fld := ⟨(0x400D0000 + 0x400 * c) * 8 + 4, 1⟩
def CAN_Cc_CTRL_LOOP (c : Nat) : Fld := ⟨(0x400D0000 + 0x400 * c) * 8 + 5, 1⟩
def CAN_Cc_CTRL_RECOVER (c : Nat) : Fld := ⟨(0x400D0000 + 0x400 * c) * 8 + 6, 1⟩
def CAN_Cc_CTRL_RXRING (c : Nat) : Fld := ⟨(0x400D0000 + 0x400 * c) * 8 + 8, 4⟩
def CAN_Cc_CTRL_LOCK (c : Nat) : Fld := ⟨(0x400D0000 + 0x400 * c) * 8 + 31, 1⟩
def CAN_Cc_NBT_NBRP (c : Nat) : Fld := ⟨(0x400D0004 + 0x400 * c) * 8 + 0, 9⟩
def CAN_Cc_NBT_NTSEG1 (c : Nat) : Fld := ⟨(0x400D0004 + 0x400 * c) * 8 + 9, 8⟩
def CAN_Cc_NBT_NTSEG2 (c : Nat) : Fld := ⟨(0x400D0004 + 0x400 * c) * 8 + 17, 7⟩
def CAN_Cc_NBT_NSJW (c : Nat) : Fld := ⟨(0x400D0004 + 0x400 * c) * 8 + 24, 7⟩
def CAN_Cc_DBT_DBRP (c : Nat) : Fld := ⟨(0x400D0008 + 0x400 * c) * 8 + 0, 5⟩
def CAN_Cc_DBT_DTSEG1 (c : Nat) : Fld := ⟨(0x400D0008 + 0x400 * c) * 8 + 8, 5⟩
def CAN_Cc_DBT_DTSEG2 (c : Nat) : Fld := ⟨(0x400D0008 + 0x400 * c) * 8 + 16, 4⟩
def CAN_Cc_DBT_DSJW (c : Nat) : Fld := ⟨(0x400D0008 + 0x400 * c) * 8 + 24, 4⟩
def CAN_Cc_TDCR (c : Nat) : Fld := ⟨(0x400D000C + 0x400 * c) * 8 + 0, 7⟩
def CAN_Cc_STAT_STATE (c : Nat) : Fld := ⟨(0x400D0010 + 0x400 * c) * 8 + 0, 2⟩
def CAN_Cc_STAT_TEC (c : Nat) : Fld := ⟨(0x400D0010 + 0x400 * c) * 8 + 8, 8⟩
def CAN_Cc_STAT_REC (c : Nat) : Fld := ⟨(0x400D0010 + 0x400 * c) * 8 + 16, 7⟩
def CAN_Cc_STAT_TXQ (c : Nat) : Fld := ⟨(0x400D0010 + 0x400 * c) * 8 + 24, 5⟩
def CAN_Cc_CNT_RXDROP (c : Nat) : Fld := ⟨(0x400D0014 + 0x400 * c) * 8 + 0, 16⟩
def CAN_Cc_CNT_GUARDFAIL (c : Nat) : Fld := ⟨(0x400D0014 + 0x400 * c) * 8 + 16, 16⟩
def CAN_Cc_Ff_ID_FID (c f : Nat) : Fld := ⟨(0x400D0100 + 0x400 * c + 0x10 * f) * 8 + 0, 29⟩
def CAN_Cc_Ff_ID_IDE (c f : Nat) : Fld := ⟨(0x400D0100 + 0x400 * c + 0x10 * f) * 8 + 29, 1⟩
def CAN_Cc_Ff_ID_EN (c f : Nat) : Fld := ⟨(0x400D0100 + 0x400 * c + 0x10 * f) * 8 + 31, 1⟩
def CAN_Cc_Ff_MASK (c f : Nat) : Fld := ⟨(0x400D0104 + 0x400 * c + 0x10 * f) * 8 + 0, 29⟩
def CAN_Cc_Ff_GRD_LENMIN (c f : Nat) : Fld := ⟨(0x400D0108 + 0x400 * c + 0x10 * f) * 8 + 0, 7⟩
def CAN_Cc_Ff_GRD_LENMAX (c f : Nat) : Fld := ⟨(0x400D0108 + 0x400 * c + 0x10 * f) * 8 + 8, 7⟩
def CAN_Cc_Ff_GRD_FDOK (c f : Nat) : Fld := ⟨(0x400D0108 + 0x400 * c + 0x10 * f) * 8 + 15, 1⟩
def CAN_Cc_Ff_GRD_TOUT (c f : Nat) : Fld := ⟨(0x400D0108 + 0x400 * c + 0x10 * f) * 8 + 16, 8⟩
def CAN_Cc_Ff_GRD_CLASS (c f : Nat) : Fld := ⟨(0x400D0108 + 0x400 * c + 0x10 * f) * 8 + 24, 1⟩

/-! ### INTC block at 0x400E0000 (R406) -/

def INTC_CTRL_EN : Fld := ⟨(0x400E0000) * 8 + 0, 1⟩
def INTC_CTRL_LOCK : Fld := ⟨(0x400E0000) * 8 + 31, 1⟩
def INTC_STAT_WDENY : Fld := ⟨(0x400E0004) * 8 + 0, 1⟩
def INTC_STAT_RESTORED : Fld := ⟨(0x400E0004) * 8 + 1, 1⟩
def INTC_STAT_DMISM : Fld := ⟨(0x400E0004) * 8 + 2, 1⟩
def INTC_PENDk (k : Nat) : Fld := ⟨(0x400E0010 + 4 * k) * 8 + 0, 32⟩
def INTC_MISSk (k : Nat) : Fld := ⟨(0x400E0030 + 4 * k) * 8 + 0, 32⟩
def INTC_SWSET : Fld := ⟨(0x400E0050) * 8 + 0, 16⟩
def INTC_Tt_PRES_SRC (t : Nat) : Fld := ⟨(0x400E0100 + 0x20 * t) * 8 + 0, 8⟩
def INTC_Tt_PRES_VALID (t : Nat) : Fld := ⟨(0x400E0100 + 0x20 * t) * 8 + 8, 1⟩
def INTC_Tt_INSV_SRC (t : Nat) : Fld := ⟨(0x400E0104 + 0x20 * t) * 8 + 0, 8⟩
def INTC_Tt_INSV_VALID (t : Nat) : Fld := ⟨(0x400E0104 + 0x20 * t) * 8 + 8, 1⟩
def INTC_Tt_INSV_LVL (t : Nat) : Fld := ⟨(0x400E0104 + 0x20 * t) * 8 + 9, 1⟩
def INTC_Tt_INSV_LATE (t : Nat) : Fld := ⟨(0x400E0104 + 0x20 * t) * 8 + 10, 1⟩
def INTC_Tt_DONE (t : Nat) : Fld := ⟨(0x400E0108 + 0x20 * t) * 8 + 0, 8⟩
def INTC_Tt_CNT (t : Nat) : Fld := ⟨(0x400E010C + 0x20 * t) * 8 + 0, 32⟩
def INTC_Tt_WAKE (t : Nat) : Fld := ⟨(0x400E0110 + 0x20 * t) * 8 + 0, 1⟩
def INTC_SRCs_EN (s : Nat) : Fld := ⟨(0x400E0400 + 4 * s) * 8 + 0, 1⟩
def INTC_SRCs_TGT (s : Nat) : Fld := ⟨(0x400E0400 + 4 * s) * 8 + 1, 3⟩
def INTC_SRCs_LVL (s : Nat) : Fld := ⟨(0x400E0400 + 4 * s) * 8 + 4, 1⟩
def INTC_SRCs_WAKE (s : Nat) : Fld := ⟨(0x400E0400 + 4 * s) * 8 + 5, 1⟩

/-! ### TSK block at 0x400F0000 (R407) -/

def TSK_Px_CTRL_EN (p : Nat) : Fld := ⟨(0x400F0000 + 0x8000 * p) * 8 + 0, 1⟩
def TSK_Px_CTRL_PREEMPT_IRQ (p : Nat) : Fld := ⟨(0x400F0000 + 0x8000 * p) * 8 + 1, 1⟩
def TSK_Px_CTRL_LOCK (p : Nat) : Fld := ⟨(0x400F0000 + 0x8000 * p) * 8 + 31, 1⟩
def TSK_Px_CMD_OP (p : Nat) : Fld := ⟨(0x400F0004 + 0x8000 * p) * 8 + 0, 4⟩
def TSK_Px_CMD_TASK (p : Nat) : Fld := ⟨(0x400F0004 + 0x8000 * p) * 8 + 4, 7⟩
def TSK_Px_CMD_PRIO (p : Nat) : Fld := ⟨(0x400F0004 + 0x8000 * p) * 8 + 11, 4⟩
def TSK_Px_CMD_MODE (p : Nat) : Fld := ⟨(0x400F0004 + 0x8000 * p) * 8 + 15, 1⟩
def TSK_Px_CMD_AUTOCLR (p : Nat) : Fld := ⟨(0x400F0004 + 0x8000 * p) * 8 + 16, 1⟩
def TSK_Px_ARG (p : Nat) : Fld := ⟨(0x400F0008 + 0x8000 * p) * 8 + 0, 32⟩
def TSK_Px_CUR_TASK (p : Nat) : Fld := ⟨(0x400F000C + 0x8000 * p) * 8 + 0, 7⟩
def TSK_Px_CUR_VALID (p : Nat) : Fld := ⟨(0x400F000C + 0x8000 * p) * 8 + 7, 1⟩
def TSK_Px_CUR_PRIO (p : Nat) : Fld := ⟨(0x400F000C + 0x8000 * p) * 8 + 8, 4⟩
def TSK_Px_CUR_DSEQ (p : Nat) : Fld := ⟨(0x400F000C + 0x8000 * p) * 8 + 16, 16⟩
def TSK_Px_QSTAT_HWQ (p : Nat) : Fld := ⟨(0x400F0010 + 0x8000 * p) * 8 + 0, 7⟩
def TSK_Px_QSTAT_SPILLED (p : Nat) : Fld := ⟨(0x400F0010 + 0x8000 * p) * 8 + 8, 7⟩
def TSK_Px_QSTAT_HEAD_PRIO (p : Nat) : Fld := ⟨(0x400F0010 + 0x8000 * p) * 8 + 16, 4⟩
def TSK_Px_QSTAT_PREEMPT (p : Nat) : Fld := ⟨(0x400F0010 + 0x8000 * p) * 8 + 20, 1⟩
def TSK_Px_SPILL (p : Nat) : Fld := ⟨(0x400F0014 + 0x8000 * p) * 8 + 9, 23⟩
def TSK_Px_TRBASE (p : Nat) : Fld := ⟨(0x400F0018 + 0x8000 * p) * 8 + 12, 20⟩
def TSK_Px_TRSIZE (p : Nat) : Fld := ⟨(0x400F001C + 0x8000 * p) * 8 + 0, 4⟩
def TSK_Px_TRWP_WP (p : Nat) : Fld := ⟨(0x400F0020 + 0x8000 * p) * 8 + 0, 16⟩
def TSK_Px_TRWP_WRAPS (p : Nat) : Fld := ⟨(0x400F0020 + 0x8000 * p) * 8 + 16, 16⟩
def TSK_Px_STAT_CMDBAD (p : Nat) : Fld := ⟨(0x400F0024 + 0x8000 * p) * 8 + 0, 1⟩
def TSK_Px_STAT_SPILLERR (p : Nat) : Fld := ⟨(0x400F0024 + 0x8000 * p) * 8 + 1, 1⟩
def TSK_Px_STAT_WRAP (p : Nat) : Fld := ⟨(0x400F0024 + 0x8000 * p) * 8 + 2, 1⟩
def TSK_Px_CMDCNT (p : Nat) : Fld := ⟨(0x400F0028 + 0x8000 * p) * 8 + 0, 32⟩

/-! ### FCU block at 0x40100000 (R432) -/

def FCU_CTRL : Fld := ⟨(0x40100000) * 8 + 31, 1⟩
def FCU_STAT_FSTOP : Fld := ⟨(0x40100004) * 8 + 0, 1⟩
def FCU_STAT_MAINT : Fld := ⟨(0x40100004) * 8 + 1, 1⟩
def FCU_STAT_LEE : Fld := ⟨(0x40100004) * 8 + 2, 1⟩
def FCU_STAT_CAUSE : Fld := ⟨(0x40100004) * 8 + 3, 1⟩
def FCU_STAT_WDENY : Fld := ⟨(0x40100004) * 8 + 4, 1⟩
def FCU_STAT_FLT_P : Fld := ⟨(0x40100004) * 8 + 8, 1⟩
def FCU_STAT_FLT_N : Fld := ⟨(0x40100004) * 8 + 9, 1⟩
def FCU_STAT_MAINT_N : Fld := ⟨(0x40100004) * 8 + 10, 1⟩
def FCU_STAT_NHELD : Fld := ⟨(0x40100004) * 8 + 16, 10⟩
def FCU_LEE_LIMIT : Fld := ⟨(0x40100008) * 8 + 0, 10⟩
def FCU_LEE_WARN : Fld := ⟨(0x40100008) * 8 + 10, 10⟩
def FCU_LEESTAT_LEFT : Fld := ⟨(0x4010000C) * 8 + 0, 20⟩
def FCU_LEESTAT_ENTRIES : Fld := ⟨(0x4010000C) * 8 + 20, 8⟩
def FCU_SEL : Fld := ⟨(0x40100010) * 8 + 0, 16⟩
def FCU_SCFG_REACT : Fld := ⟨(0x40100014) * 8 + 0, 3⟩
def FCU_SCFG_REPORT : Fld := ⟨(0x40100014) * 8 + 3, 1⟩
def FCU_SCFG_CLASS : Fld := ⟨(0x40100014) * 8 + 4, 2⟩
def FCU_SCFG_DEFAULT : Fld := ⟨(0x40100014) * 8 + 6, 3⟩
def FCU_SCFG_IMPL : Fld := ⟨(0x40100014) * 8 + 9, 1⟩
def FCU_SSTAT_HELD : Fld := ⟨(0x40100018) * 8 + 0, 1⟩
def FCU_SSTAT_AUTO : Fld := ⟨(0x40100018) * 8 + 1, 1⟩
def FCU_SSTAT_COUNT : Fld := ⟨(0x40100018) * 8 + 8, 8⟩
def FCU_SSTAT_LASTFN : Fld := ⟨(0x40100018) * 8 + 16, 16⟩
def FCU_NEXT : Fld := ⟨(0x4010001C) * 8 + 0, 16⟩
def FCU_REC_CODE : Fld := ⟨(0x40100040) * 8 + 0, 16⟩
def FCU_REC_CLASS : Fld := ⟨(0x40100040) * 8 + 16, 2⟩
def FCU_REC_VALID : Fld := ⟨(0x40100040) * 8 + 18, 1⟩
def FCU_REC_REACT : Fld := ⟨(0x40100040) * 8 + 19, 3⟩
def FCU_REC_COUNT : Fld := ⟨(0x40100040) * 8 + 24, 8⟩
def FCU_REC2_CLASSES : Fld := ⟨(0x40100044) * 8 + 0, 2⟩
def FCU_REC2_MASTER : Fld := ⟨(0x40100044) * 8 + 4, 4⟩
def FCU_REC2_ACC : Fld := ⟨(0x40100044) * 8 + 8, 2⟩
def FCU_REC_ADDR : Fld := ⟨(0x40100048) * 8 + 0, 32⟩
def FCU_REC_FN : Fld := ⟨(0x4010004C) * 8 + 0, 32⟩
def FCU_REC_CTL : Fld := ⟨(0x40100050) * 8 + 0, 32⟩
def FCU_REC_CTH : Fld := ⟨(0x40100054) * 8 + 0, 32⟩
def FCU_LOGWP_WP : Fld := ⟨(0x40100060) * 8 + 0, 8⟩
def FCU_LOGWP_WRAPS : Fld := ⟨(0x40100060) * 8 + 16, 16⟩
def FCU_LOGRP_RP : Fld := ⟨(0x40100064) * 8 + 0, 8⟩
def FCU_LOGRP_UNREAD : Fld := ⟨(0x40100064) * 8 + 16, 9⟩
def FCU_LOGi (i : Nat) : Fld := ⟨(0x40101000 + 0x10 * i) * 8 + 0, 128⟩

/-! ### ALM block at 0x40110000 (R515) -/

def ALM_CTRL_EN : Fld := ⟨(0x40110000) * 8 + 0, 1⟩
def ALM_CTRL_TRIG : Fld := ⟨(0x40110000) * 8 + 1, 1⟩
def ALM_CTRL_RELEASE : Fld := ⟨(0x40110000) * 8 + 2, 1⟩
def ALM_CTRL_DUMP : Fld := ⟨(0x40110000) * 8 + 3, 1⟩
def ALM_CTRL_STREAM : Fld := ⟨(0x40110000) * 8 + 4, 1⟩
def ALM_CTRL_AUTODUMP : Fld := ⟨(0x40110000) * 8 + 5, 1⟩
def ALM_CTRL_REARM : Fld := ⟨(0x40110000) * 8 + 6, 1⟩
def ALM_CTRL_ILOG : Fld := ⟨(0x40110000) * 8 + 7, 1⟩
def ALM_CTRL_SRING : Fld := ⟨(0x40110000) * 8 + 8, 4⟩
def ALM_CTRL_LOCK : Fld := ⟨(0x40110000) * 8 + 31, 1⟩
def ALM_CFG_SNAPW : Fld := ⟨(0x40110004) * 8 + 0, 8⟩
def ALM_CFG_AXMASK : Fld := ⟨(0x40110004) * 8 + 8, 8⟩
def ALM_CFG_SPW : Fld := ⟨(0x40110004) * 8 + 16, 2⟩
def ALM_CFG_ENGMASK : Fld := ⟨(0x40110004) * 8 + 18, 8⟩
def ALM_CFG2_POST : Fld := ⟨(0x40110008) * 8 + 0, 16⟩
def ALM_CFG2_KEY_INT : Fld := ⟨(0x40110008) * 8 + 16, 16⟩
def ALM_TRIG_FSTOP : Fld := ⟨(0x4011000C) * 8 + 0, 1⟩
def ALM_TRIG_MAINT : Fld := ⟨(0x4011000C) * 8 + 1, 1⟩
def ALM_TRIG_LEE : Fld := ⟨(0x4011000C) * 8 + 2, 1⟩
def ALM_TRIG_SAFE : Fld := ⟨(0x4011000C) * 8 + 3, 1⟩
def ALM_TRIG_AXSAFE : Fld := ⟨(0x4011000C) * 8 + 4, 1⟩
def ALM_TRIG_LEASE : Fld := ⟨(0x4011000C) * 8 + 5, 1⟩
def ALM_TRIG_TRIPIN : Fld := ⟨(0x4011000C) * 8 + 6, 1⟩
def ALM_STAT_STATE : Fld := ⟨(0x40110010) * 8 + 0, 3⟩
def ALM_STAT_RESET : Fld := ⟨(0x40110010) * 8 + 3, 1⟩
def ALM_STAT_KEYOK : Fld := ⟨(0x40110010) * 8 + 4, 1⟩
def ALM_STAT_CFG_BAD : Fld := ⟨(0x40110010) * 8 + 5, 1⟩
def ALM_STAT_DDENY : Fld := ⟨(0x40110010) * 8 + 6, 1⟩
def ALM_STAT_SESSLOST : Fld := ⟨(0x40110010) * 8 + 7, 1⟩
def ALM_STAT_MISSED : Fld := ⟨(0x40110010) * 8 + 8, 8⟩
def ALM_STAT_NTRIG : Fld := ⟨(0x40110010) * 8 + 16, 16⟩
def ALM_RETAIN : Fld := ⟨(0x40110014) * 8 + 0, 32⟩
def ALM_OLDFN : Fld := ⟨(0x40110018) * 8 + 0, 32⟩
def ALM_KEYFN : Fld := ⟨(0x4011001C) * 8 + 0, 32⟩
def ALM_TRFN : Fld := ⟨(0x40110020) * 8 + 0, 32⟩
def ALM_TRSRC_SRC : Fld := ⟨(0x40110024) * 8 + 0, 9⟩
def ALM_TRSRC_CODE : Fld := ⟨(0x40110024) * 8 + 16, 16⟩
def ALM_DROP_OVERRUN : Fld := ⟨(0x40110028) * 8 + 0, 16⟩
def ALM_DROP_ECC : Fld := ⟨(0x40110028) * 8 + 16, 16⟩
def ALM_KEYn_BASE (n : Nat) : Fld := ⟨(0x40110040 + 4 * n) * 8 + 0, 14⟩
def ALM_KEYn_LENM1 (n : Nat) : Fld := ⟨(0x40110040 + 4 * n) * 8 + 16, 10⟩
def ALM_RPSRC_L : Fld := ⟨(0x40110060) * 8 + 0, 32⟩
def ALM_RPSRC_H : Fld := ⟨(0x40110064) * 8 + 0, 32⟩
def ALM_RPLEN_LEN : Fld := ⟨(0x40110068) * 8 + 0, 24⟩
def ALM_RPLEN_LOC : Fld := ⟨(0x40110068) * 8 + 24, 1⟩
def ALM_RPSTAT_CAUSE : Fld := ⟨(0x4011006C) * 8 + 0, 4⟩
def ALM_RPSTAT_RUN : Fld := ⟨(0x4011006C) * 8 + 4, 1⟩
def ALM_RPSTAT_DIVERGED : Fld := ⟨(0x4011006C) * 8 + 5, 1⟩
def ALM_RPFN : Fld := ⟨(0x40110070) * 8 + 0, 32⟩
def ALM_RPDIV : Fld := ⟨(0x40110074) * 8 + 0, 32⟩
def ALM_RPCNT : Fld := ⟨(0x40110078) * 8 + 0, 32⟩
def ALM_RPDCNT : Fld := ⟨(0x4011007C) * 8 + 0, 32⟩

/-! ### DBG block at 0x40120000 (R466) -/

def DBG_CTRL : Fld := ⟨(0x40120000) * 8 + 0, 1⟩
def DBG_TOKLEN : Fld := ⟨(0x40120004) * 8 + 0, 16⟩
def DBG_STAT_BUSY : Fld := ⟨(0x40120008) * 8 + 0, 1⟩
def DBG_STAT_LEVEL : Fld := ⟨(0x40120008) * 8 + 1, 2⟩
def DBG_STAT_CODE : Fld := ⟨(0x40120008) * 8 + 8, 8⟩

/-! ### SEC block at 0x40130000 (R465) -/

def SEC_STAT_LC : Fld := ⟨(0x40130000) * 8 + 0, 3⟩
def SEC_STAT_BOOT_SLOT : Fld := ⟨(0x40130000) * 8 + 3, 1⟩
def SEC_STAT_FALLBACK : Fld := ⟨(0x40130000) * 8 + 4, 1⟩
def SEC_STAT_TRNG_OK : Fld := ⟨(0x40130000) * 8 + 5, 1⟩
def SEC_STAT_DBG : Fld := ⟨(0x40130000) * 8 + 6, 2⟩
def SEC_STAT_BUSY : Fld := ⟨(0x40130000) * 8 + 8, 1⟩
def SEC_FUSE_SLOTS : Fld := ⟨(0x40130004) * 8 + 0, 4⟩
def SEC_FUSE_REVOKED : Fld := ⟨(0x40130004) * 8 + 4, 4⟩
def SEC_FUSE_SPLIT : Fld := ⟨(0x40130004) * 8 + 8, 1⟩
def SEC_FUSE_SPLIT_LOCK : Fld := ⟨(0x40130004) * 8 + 9, 1⟩
def SEC_ARB : Fld := ⟨(0x40130008) * 8 + 0, 32⟩
def SEC_TKC : Fld := ⟨(0x4013000C) * 8 + 0, 9⟩
def SEC_SERIAL_L : Fld := ⟨(0x40130010) * 8 + 0, 32⟩
def SEC_SERIAL_H : Fld := ⟨(0x40130014) * 8 + 0, 32⟩
def SEC_BOOT_STATE_A : Fld := ⟨(0x40130018) * 8 + 0, 2⟩
def SEC_BOOT_STATE_B : Fld := ⟨(0x40130018) * 8 + 2, 2⟩
def SEC_BOOT_ATT_A : Fld := ⟨(0x40130018) * 8 + 4, 3⟩
def SEC_BOOT_ATT_B : Fld := ⟨(0x40130018) * 8 + 7, 3⟩
def SEC_LAST : Fld := ⟨(0x4013001C) * 8 + 0, 19⟩
def SEC_MBOX_CMD : Fld := ⟨(0x40130020) * 8 + 0, 4⟩
def SEC_MBOX_ARGj (j : Nat) : Fld := ⟨(0x40130024 + 4 * j) * 8 + 0, 32⟩
def SEC_MBOX_STAT_BUSY : Fld := ⟨(0x40130030) * 8 + 0, 1⟩
def SEC_MBOX_STAT_RESULT : Fld := ⟨(0x40130030) * 8 + 8, 8⟩

end Reg


/-- Every field of the SYS block with its access code (R549). -/
def regRowsSYS : List RegRow := [
  ⟨0x40000400, [], 0, 8, .w1c⟩,
  ⟨0x40000400, [], 31, 1, .rwl⟩,
  ⟨0x40000404, [], 0, 24, .ro⟩,
  ⟨0x40000440, [(0x20, 8)], 0, 3, .rwl⟩,
  ⟨0x40000440, [(0x20, 8)], 3, 1, .rwl⟩,
  ⟨0x40000440, [(0x20, 8)], 4, 2, .rwl⟩,
  ⟨0x40000440, [(0x20, 8)], 6, 1, .rwl⟩,
  ⟨0x40000440, [(0x20, 8)], 8, 4, .rwl⟩,
  ⟨0x40000440, [(0x20, 8)], 12, 3, .rwl⟩,
  ⟨0x40000440, [(0x20, 8)], 16, 12, .rwl⟩,
  ⟨0x40000444, [(0x20, 8)], 0, 10, .rwl⟩,
  ⟨0x40000444, [(0x20, 8)], 16, 16, .rwl⟩,
  ⟨0x40000448, [(0x20, 8)], 0, 8, .rwl⟩,
  ⟨0x4000044C, [(0x20, 8)], 0, 32, .rwl⟩,
  ⟨0x40000450, [(0x20, 8)], 0, 3, .ro⟩,
  ⟨0x40000450, [(0x20, 8)], 3, 2, .ro⟩,
  ⟨0x40000450, [(0x20, 8)], 5, 1, .ro⟩,
  ⟨0x40000450, [(0x20, 8)], 6, 1, .ro⟩,
  ⟨0x40000450, [(0x20, 8)], 7, 1, .ro⟩,
  ⟨0x40000450, [(0x20, 8)], 8, 5, .ro⟩,
  ⟨0x40000450, [(0x20, 8)], 13, 3, .ro⟩,
  ⟨0x40000450, [(0x20, 8)], 16, 4, .ro⟩,
  ⟨0x40000450, [(0x20, 8)], 20, 1, .ro⟩,
  ⟨0x40000450, [(0x20, 8)], 21, 3, .ro⟩,
  ⟨0x40000454, [(0x20, 8)], 0, 32, .ro⟩,
  ⟨0x40000000, [], 0, 8, .ro⟩,
  ⟨0x40000000, [], 8, 8, .ro⟩,
  ⟨0x40000000, [], 16, 16, .ro⟩]

/-- Every field of the PWR block with its access code (R549). -/
def regRowsPWR : List RegRow := [
  ⟨0x40010000, [], 0, 1, .wo⟩,
  ⟨0x40010000, [], 31, 1, .rwl⟩,
  ⟨0x40010004, [], 0, 1, .ro⟩,
  ⟨0x40010004, [], 1, 2, .ro⟩,
  ⟨0x40010004, [], 3, 1, .ro⟩,
  ⟨0x40010004, [], 4, 1, .w1c⟩,
  ⟨0x40010004, [], 8, 4, .ro⟩,
  ⟨0x40010008, [], 0, 2, .rw⟩,
  ⟨0x4001000C, [], 0, 11, .rwl⟩,
  ⟨0x40010010, [], 0, 11, .ro⟩,
  ⟨0x40010014, [], 0, 24, .rwl⟩,
  ⟨0x40010018, [], 0, 10, .ro⟩,
  ⟨0x40010018, [], 16, 1, .w1c⟩,
  ⟨0x40010018, [], 17, 2, .ro⟩,
  ⟨0x40010020, [], 0, 12, .rw⟩,
  ⟨0x40010024, [], 0, 12, .rw⟩,
  ⟨0x40010028, [], 0, 12, .rw⟩,
  ⟨0x4001002C, [], 0, 12, .ro⟩,
  ⟨0x40010030, [], 0, 24, .ro⟩,
  ⟨0x40010034, [], 0, 12, .ro⟩,
  ⟨0x40010034, [], 16, 12, .ro⟩,
  ⟨0x40010040, [], 0, 2, .rw⟩,
  ⟨0x40010044, [], 0, 10, .ro⟩,
  ⟨0x40010044, [], 16, 10, .ro⟩,
  ⟨0x40010048, [], 0, 1, .ro⟩,
  ⟨0x40010048, [], 1, 1, .ro⟩,
  ⟨0x40010048, [], 2, 1, .ro⟩,
  ⟨0x40010048, [], 3, 1, .ro⟩,
  ⟨0x40010050, [], 0, 6, .w1c⟩,
  ⟨0x40010050, [], 8, 6, .ro⟩,
  ⟨0x40010060, [], 0, 1, .rwl⟩,
  ⟨0x40010060, [], 8, 8, .rwl⟩,
  ⟨0x40010060, [], 16, 16, .rwl⟩,
  ⟨0x40010064, [], 0, 16, .wo⟩,
  ⟨0x40010068, [], 0, 16, .ro⟩]

/-- Every field of the TIME block with its access code (R549). -/
def regRowsTIME : List RegRow := [
  ⟨0x40020000, [], 0, 2, .rwl⟩,
  ⟨0x40020000, [], 4, 1, .wo⟩,
  ⟨0x40020000, [], 31, 1, .rwl⟩,
  ⟨0x40020004, [], 0, 1, .ro⟩,
  ⟨0x40020004, [], 1, 1, .ro⟩,
  ⟨0x40020004, [], 2, 1, .ro⟩,
  ⟨0x40020004, [], 3, 1, .ro⟩,
  ⟨0x40020004, [], 4, 1, .w1c⟩,
  ⟨0x40020004, [], 5, 1, .w1c⟩,
  ⟨0x40020004, [], 6, 1, .w1c⟩,
  ⟨0x40020004, [], 7, 1, .w1c⟩,
  ⟨0x40020010, [], 0, 32, .ro⟩,
  ⟨0x40020014, [], 0, 32, .ro⟩,
  ⟨0x40020018, [], 0, 32, .ro⟩,
  ⟨0x40020020, [], 0, 32, .ro⟩,
  ⟨0x40020024, [], 0, 32, .ro⟩,
  ⟨0x40020028, [], 0, 32, .ro⟩,
  ⟨0x40020030, [], 0, 32, .ro⟩,
  ⟨0x40020034, [], 0, 32, .rw⟩,
  ⟨0x40020038, [], 0, 32, .rw⟩,
  ⟨0x4002003C, [], 0, 32, .rw⟩,
  ⟨0x40020040, [], 0, 32, .ro⟩,
  ⟨0x40020044, [], 0, 32, .ro⟩,
  ⟨0x40020050, [], 0, 32, .rw⟩,
  ⟨0x40020054, [], 0, 32, .rw⟩,
  ⟨0x40020058, [], 0, 32, .rw⟩,
  ⟨0x40020060, [], 0, 20, .rwl⟩,
  ⟨0x40020064, [], 0, 9, .rwl⟩,
  ⟨0x40020068, [], 0, 32, .ro⟩,
  ⟨0x4002006C, [], 0, 32, .ro⟩,
  ⟨0x40020070, [], 0, 20, .ro⟩,
  ⟨0x40020070, [], 24, 8, .ro⟩,
  ⟨0x40020074, [], 0, 32, .ro⟩]

/-- Every field of the ANV block with its access code (R549). -/
def regRowsANV : List RegRow := [
  ⟨0x40030000, [], 0, 1, .rw⟩,
  ⟨0x40030000, [], 1, 3, .rw⟩,
  ⟨0x40030000, [], 8, 1, .rwl⟩,
  ⟨0x40030000, [], 31, 1, .rwl⟩,
  ⟨0x40030004, [], 0, 1, .ro⟩,
  ⟨0x40030004, [], 1, 3, .ro⟩,
  ⟨0x40030004, [], 4, 1, .ro⟩,
  ⟨0x40030004, [], 5, 3, .ro⟩,
  ⟨0x40030004, [], 8, 8, .ro⟩,
  ⟨0x40030004, [], 16, 1, .w1c⟩,
  ⟨0x40030004, [], 17, 1, .w1c⟩,
  ⟨0x40030004, [], 18, 1, .w1c⟩,
  ⟨0x40030004, [], 19, 1, .w1c⟩,
  ⟨0x40030004, [], 20, 1, .w1c⟩,
  ⟨0x40030004, [], 21, 1, .w1c⟩,
  ⟨0x40030008, [], 0, 3, .rw⟩,
  ⟨0x40030008, [], 31, 1, .wo⟩,
  ⟨0x40030020, [(0x4, 8)], 0, 13, .ro⟩,
  ⟨0x40030020, [(0x4, 8)], 16, 11, .ro⟩,
  ⟨0x40030040, [(0x4, 8)], 0, 1, .ro⟩,
  ⟨0x40030040, [(0x4, 8)], 4, 4, .ro⟩,
  ⟨0x40030040, [(0x4, 8)], 16, 11, .ro⟩,
  ⟨0x40030060, [], 0, 16, .ro⟩,
  ⟨0x40030064, [], 0, 32, .ro⟩,
  ⟨0x40030068, [], 0, 11, .ro⟩,
  ⟨0x40030068, [], 12, 2, .ro⟩,
  ⟨0x40030068, [], 16, 8, .ro⟩,
  ⟨0x4003006C, [], 0, 32, .ro⟩,
  ⟨0x40030070, [], 0, 20, .ro⟩,
  ⟨0x40030080, [], 14, 18, .rwl⟩,
  ⟨0x40030090, [], 0, 16, .ro⟩,
  ⟨0x40030090, [], 16, 13, .ro⟩,
  ⟨0x40030094, [], 0, 1, .rw⟩]

/-- Every field of the CEC block with its access code (R549). -/
def regRowsCEC : List RegRow := [
  ⟨0x40040000, [], 0, 8, .rwl⟩,
  ⟨0x40040000, [], 31, 1, .rwl⟩,
  ⟨0x40040004, [], 0, 8, .ro⟩,
  ⟨0x40040004, [], 8, 8, .ro⟩,
  ⟨0x40040004, [], 16, 8, .ro⟩,
  ⟨0x40040004, [], 24, 8, .ro⟩,
  ⟨0x40040008, [], 0, 8, .w1c⟩,
  ⟨0x40040008, [], 8, 8, .w1c⟩,
  ⟨0x40040008, [], 16, 8, .w1c⟩,
  ⟨0x40040008, [], 24, 8, .w1c⟩,
  ⟨0x40040010, [], 0, 16, .ro⟩,
  ⟨0x40040010, [], 16, 3, .ro⟩,
  ⟨0x40040010, [], 20, 2, .ro⟩,
  ⟨0x40040010, [], 24, 1, .w1c⟩,
  ⟨0x40040014, [], 0, 14, .ro⟩,
  ⟨0x40040020, [], 12, 8, .rwl⟩,
  ⟨0x40040024, [], 12, 9, .rwl⟩,
  ⟨0x40040028, [], 0, 20, .ro⟩,
  ⟨0x4004002C, [], 0, 20, .rw⟩,
  ⟨0x40040030, [], 0, 32, .ro⟩,
  ⟨0x40040100, [(0x40, 8)], 0, 32, .ro⟩,
  ⟨0x40040104, [(0x40, 8)], 0, 16, .ro⟩,
  ⟨0x40040108, [(0x40, 8)], 0, 16, .ro⟩,
  ⟨0x40040108, [(0x40, 8)], 16, 16, .ro⟩,
  ⟨0x4004010C, [(0x40, 8)], 0, 1, .ro⟩,
  ⟨0x4004010C, [(0x40, 8)], 1, 1, .ro⟩,
  ⟨0x4004010C, [(0x40, 8)], 2, 1, .ro⟩,
  ⟨0x4004010C, [(0x40, 8)], 3, 1, .ro⟩,
  ⟨0x40040110, [(0x40, 8), (0x4, 4)], 0, 32, .ro⟩,
  ⟨0x40040120, [(0x40, 8)], 0, 32, .ro⟩,
  ⟨0x40040124, [(0x40, 8)], 0, 32, .ro⟩,
  ⟨0x40040128, [(0x40, 8)], 0, 13, .ro⟩]

/-- Every field of the COM block with its access code (R549). -/
def regRowsCOM : List RegRow := [
  ⟨0x40050000, [], 31, 1, .rwl⟩,
  ⟨0x40050004, [], 0, 8, .w1c⟩,
  ⟨0x40050004, [], 8, 8, .ro⟩,
  ⟨0x40050004, [], 16, 8, .ro⟩,
  ⟨0x40050100, [(0x80, 8)], 0, 2, .rwl⟩,
  ⟨0x40050100, [(0x80, 8)], 4, 1, .rwl⟩,
  ⟨0x40050100, [(0x80, 8)], 8, 4, .rwl⟩,
  ⟨0x40050100, [(0x80, 8)], 16, 2, .rwl⟩,
  ⟨0x40050100, [(0x80, 8)], 18, 1, .rwl⟩,
  ⟨0x40050104, [(0x80, 8)], 0, 19, .rwl⟩,
  ⟨0x40050108, [(0x80, 8)], 0, 19, .rwl⟩,
  ⟨0x4005010C, [(0x80, 8)], 0, 11, .rwl⟩,
  ⟨0x4005010C, [(0x80, 8)], 12, 11, .rwl⟩,
  ⟨0x4005010C, [(0x80, 8)], 24, 6, .rwl⟩,
  ⟨0x40050110, [(0x80, 8)], 0, 16, .rwl⟩,
  ⟨0x40050110, [(0x80, 8)], 16, 16, .rwl⟩,
  ⟨0x40050114, [(0x80, 8)], 0, 16, .rwl⟩,
  ⟨0x40050114, [(0x80, 8)], 16, 16, .rwl⟩,
  ⟨0x40050118, [(0x80, 8)], 0, 6, .rwl⟩,
  ⟨0x40050118, [(0x80, 8)], 6, 1, .rwl⟩,
  ⟨0x40050118, [(0x80, 8)], 8, 3, .rwl⟩,
  ⟨0x40050118, [(0x80, 8)], 16, 8, .rwl⟩,
  ⟨0x4005011C, [(0x80, 8)], 0, 1, .rwl⟩,
  ⟨0x4005011C, [(0x80, 8)], 1, 7, .rwl⟩,
  ⟨0x4005011C, [(0x80, 8)], 16, 16, .rwl⟩,
  ⟨0x40050120, [(0x80, 8)], 0, 14, .rwl⟩,
  ⟨0x40050120, [(0x80, 8)], 16, 10, .rwl⟩,
  ⟨0x40050124, [(0x80, 8)], 0, 32, .rwl⟩,
  ⟨0x40050128, [(0x80, 8)], 0, 32, .rwl⟩,
  ⟨0x4005012C, [(0x80, 8)], 0, 32, .rwl⟩,
  ⟨0x40050130, [(0x80, 8)], 0, 32, .rwl⟩,
  ⟨0x40050140, [(0x80, 8)], 0, 1, .ro⟩,
  ⟨0x40050140, [(0x80, 8)], 1, 1, .ro⟩,
  ⟨0x40050140, [(0x80, 8)], 2, 1, .ro⟩,
  ⟨0x40050140, [(0x80, 8)], 3, 1, .ro⟩,
  ⟨0x40050140, [(0x80, 8)], 4, 1, .w1c⟩,
  ⟨0x40050140, [(0x80, 8)], 5, 1, .w1c⟩,
  ⟨0x40050140, [(0x80, 8)], 6, 1, .ro⟩,
  ⟨0x40050140, [(0x80, 8)], 7, 1, .ro⟩,
  ⟨0x40050140, [(0x80, 8)], 8, 1, .ro⟩,
  ⟨0x40050140, [(0x80, 8)], 9, 1, .w1c⟩,
  ⟨0x40050140, [(0x80, 8)], 16, 5, .ro⟩,
  ⟨0x40050144, [(0x80, 8)], 0, 16, .ro⟩,
  ⟨0x40050144, [(0x80, 8)], 16, 16, .ro⟩,
  ⟨0x40050148, [(0x80, 8)], 0, 32, .ro⟩]

/-- Every field of the FBK block with its access code (R549). -/
def regRowsFBK : List RegRow := [
  ⟨0x40060000, [], 0, 8, .wo⟩,
  ⟨0x40060000, [], 8, 1, .rwl⟩,
  ⟨0x40060000, [], 31, 1, .rwl⟩,
  ⟨0x40060004, [], 0, 24, .rwl⟩,
  ⟨0x40060008, [], 0, 17, .rwl⟩,
  ⟨0x4006000C, [], 0, 17, .rwl⟩,
  ⟨0x40060010, [], 0, 8, .w1c⟩,
  ⟨0x40060100, [(0x40, 8)], 0, 3, .rwl⟩,
  ⟨0x40060100, [(0x40, 8)], 3, 1, .rwl⟩,
  ⟨0x40060100, [(0x40, 8)], 4, 6, .rwl⟩,
  ⟨0x40060100, [(0x40, 8)], 10, 1, .rwl⟩,
  ⟨0x40060100, [(0x40, 8)], 11, 1, .rwl⟩,
  ⟨0x40060100, [(0x40, 8)], 12, 1, .rwl⟩,
  ⟨0x40060100, [(0x40, 8)], 13, 1, .rwl⟩,
  ⟨0x40060100, [(0x40, 8)], 16, 6, .rwl⟩,
  ⟨0x40060104, [(0x40, 8)], 0, 16, .rwl⟩,
  ⟨0x40060104, [(0x40, 8)], 16, 8, .rwl⟩,
  ⟨0x40060108, [(0x40, 8)], 0, 8, .rwl⟩,
  ⟨0x40060108, [(0x40, 8)], 8, 6, .rwl⟩,
  ⟨0x40060108, [(0x40, 8)], 16, 8, .rwl⟩,
  ⟨0x4006010C, [(0x40, 8)], 0, 6, .rwl⟩,
  ⟨0x4006010C, [(0x40, 8)], 8, 8, .rwl⟩,
  ⟨0x4006010C, [(0x40, 8)], 16, 8, .rwl⟩,
  ⟨0x4006010C, [(0x40, 8)], 24, 4, .rwl⟩,
  ⟨0x40060110, [(0x40, 8)], 0, 20, .rwl⟩,
  ⟨0x40060114, [(0x40, 8)], 0, 32, .rwl⟩,
  ⟨0x40060118, [(0x40, 8)], 0, 16, .rwl⟩,
  ⟨0x40060118, [(0x40, 8)], 16, 8, .rwl⟩,
  ⟨0x40060118, [(0x40, 8)], 24, 8, .rwl⟩,
  ⟨0x4006011C, [(0x40, 8)], 0, 16, .rwl⟩,
  ⟨0x40060120, [(0x40, 8)], 0, 12, .ro⟩,
  ⟨0x40060124, [(0x40, 8)], 0, 32, .ro⟩,
  ⟨0x40060128, [(0x40, 8)], 0, 16, .ro⟩]

/-- Every field of the ADC block with its access code (R549). -/
def regRowsADC : List RegRow := [
  ⟨0x40070000, [], 31, 1, .rwl⟩,
  ⟨0x40070004, [], 0, 6, .w1c⟩,
  ⟨0x40070004, [], 6, 1, .w1c⟩,
  ⟨0x40070008, [], 0, 32, .w1c⟩,
  ⟨0x4007000C, [], 0, 16, .w1c⟩,
  ⟨0x40070010, [], 0, 32, .rwl⟩,
  ⟨0x40070014, [], 0, 16, .rwl⟩,
  ⟨0x40070018, [], 0, 1, .rwl⟩,
  ⟨0x40070018, [], 1, 3, .rwl⟩,
  ⟨0x40070018, [], 4, 1, .rwl⟩,
  ⟨0x40070018, [], 5, 1, .w1c⟩,
  ⟨0x40070018, [], 8, 1, .rwl⟩,
  ⟨0x40070018, [], 9, 3, .rwl⟩,
  ⟨0x40070018, [], 12, 1, .rwl⟩,
  ⟨0x40070018, [], 13, 1, .w1c⟩,
  ⟨0x40070018, [], 16, 1, .rwl⟩,
  ⟨0x40070018, [], 17, 3, .rwl⟩,
  ⟨0x40070018, [], 20, 1, .rwl⟩,
  ⟨0x40070018, [], 21, 1, .w1c⟩,
  ⟨0x40070018, [], 24, 1, .rwl⟩,
  ⟨0x40070018, [], 25, 3, .rwl⟩,
  ⟨0x40070018, [], 28, 1, .rwl⟩,
  ⟨0x40070018, [], 29, 1, .w1c⟩,
  ⟨0x4007001C, [], 0, 4, .rw⟩,
  ⟨0x4007001C, [], 8, 4, .w1c⟩,
  ⟨0x4007001C, [], 16, 4, .ro⟩,
  ⟨0x40070020, [(0x4, 4)], 0, 7, .rwl⟩,
  ⟨0x40070020, [(0x4, 4)], 8, 1, .rwl⟩,
  ⟨0x40070030, [], 0, 24, .w1c⟩,
  ⟨0x40070040, [(0x4, 24)], 0, 2, .rwl⟩,
  ⟨0x40070040, [(0x4, 24)], 2, 1, .rwl⟩,
  ⟨0x40070040, [(0x4, 24)], 3, 1, .rwl⟩,
  ⟨0x40070040, [(0x4, 24)], 4, 3, .rwl⟩,
  ⟨0x40070040, [(0x4, 24)], 8, 8, .rwl⟩,
  ⟨0x40070100, [(0x40, 16)], 0, 2, .rwl⟩,
  ⟨0x40070100, [(0x40, 16)], 2, 3, .rwl⟩,
  ⟨0x40070100, [(0x40, 16)], 8, 20, .rwl⟩,
  ⟨0x40070104, [(0x40, 16), (0x4, 8)], 0, 6, .rwl⟩,
  ⟨0x40070104, [(0x40, 16), (0x4, 8)], 6, 1, .rwl⟩,
  ⟨0x40070104, [(0x40, 16), (0x4, 8)], 7, 1, .rwl⟩,
  ⟨0x40070104, [(0x40, 16), (0x4, 8)], 8, 1, .rwl⟩,
  ⟨0x40070104, [(0x40, 16), (0x4, 8)], 9, 3, .rwl⟩,
  ⟨0x40070104, [(0x40, 16), (0x4, 8)], 12, 3, .rwl⟩,
  ⟨0x40070800, [(0x4, 48)], 0, 16, .ro⟩,
  ⟨0x40070800, [(0x4, 48)], 16, 16, .ro⟩,
  ⟨0x40070900, [(0x4, 24)], 0, 16, .ro⟩,
  ⟨0x40070900, [(0x4, 24)], 16, 16, .ro⟩]

/-- Every field of the OUT block with its access code (R549). -/
def regRowsOUT : List RegRow := [
  ⟨0x40080000, [], 31, 1, .rwl⟩,
  ⟨0x40080004, [], 0, 8, .w1c⟩,
  ⟨0x40080004, [], 8, 8, .ro⟩,
  ⟨0x40080004, [], 16, 8, .w1c⟩,
  ⟨0x40080008, [], 0, 8, .ro⟩,
  ⟨0x40080008, [], 8, 8, .w1c⟩,
  ⟨0x40080010, [(0x4, 8)], 0, 1, .rwl⟩,
  ⟨0x40080010, [(0x4, 8)], 1, 1, .rwl⟩,
  ⟨0x40080010, [(0x4, 8)], 2, 6, .rwl⟩,
  ⟨0x40080010, [(0x4, 8)], 8, 8, .rwl⟩,
  ⟨0x40080100, [(0x40, 8)], 0, 1, .rwl⟩,
  ⟨0x40080100, [(0x40, 8)], 1, 1, .rwl⟩,
  ⟨0x40080100, [(0x40, 8)], 2, 1, .rwl⟩,
  ⟨0x40080100, [(0x40, 8)], 3, 1, .rwl⟩,
  ⟨0x40080100, [(0x40, 8)], 4, 1, .rwl⟩,
  ⟨0x40080104, [(0x40, 8)], 0, 12, .rwl⟩,
  ⟨0x40080108, [(0x40, 8)], 0, 16, .rwl⟩,
  ⟨0x40080108, [(0x40, 8)], 16, 8, .rwl⟩,
  ⟨0x40080108, [(0x40, 8)], 24, 8, .rwl⟩,
  ⟨0x4008010C, [(0x40, 8)], 0, 1, .wo⟩,
  ⟨0x4008010C, [(0x40, 8)], 1, 1, .wo⟩,
  ⟨0x40080110, [(0x40, 8)], 0, 2, .ro⟩,
  ⟨0x40080110, [(0x40, 8)], 4, 8, .ro⟩,
  ⟨0x40080110, [(0x40, 8)], 12, 2, .ro⟩,
  ⟨0x40080110, [(0x40, 8)], 16, 8, .ro⟩,
  ⟨0x40080114, [(0x40, 8)], 0, 8, .ro⟩,
  ⟨0x40080114, [(0x40, 8)], 8, 8, .ro⟩,
  ⟨0x40080114, [(0x40, 8)], 16, 8, .ro⟩,
  ⟨0x40080118, [(0x40, 8)], 0, 16, .ro⟩,
  ⟨0x4008011C, [(0x40, 8)], 0, 1, .w1c⟩,
  ⟨0x4008011C, [(0x40, 8)], 1, 1, .w1c⟩,
  ⟨0x4008011C, [(0x40, 8)], 2, 1, .w1c⟩,
  ⟨0x4008011C, [(0x40, 8)], 3, 1, .w1c⟩,
  ⟨0x4008011C, [(0x40, 8)], 4, 1, .ro⟩,
  ⟨0x4008011C, [(0x40, 8)], 5, 1, .ro⟩,
  ⟨0x4008011C, [(0x40, 8)], 6, 1, .ro⟩,
  ⟨0x4008011C, [(0x40, 8)], 7, 2, .ro⟩,
  ⟨0x40080400, [(0x20, 4)], 0, 1, .rwl⟩,
  ⟨0x40080400, [(0x20, 4)], 1, 1, .rwl⟩,
  ⟨0x40080400, [(0x20, 4)], 8, 8, .rwl⟩,
  ⟨0x40080400, [(0x20, 4)], 16, 8, .rwl⟩,
  ⟨0x40080404, [(0x20, 4)], 0, 1, .ro⟩,
  ⟨0x40080404, [(0x20, 4)], 1, 1, .ro⟩,
  ⟨0x40080404, [(0x20, 4)], 2, 1, .ro⟩,
  ⟨0x40080404, [(0x20, 4)], 3, 1, .ro⟩,
  ⟨0x40080404, [(0x20, 4)], 4, 1, .ro⟩,
  ⟨0x40080404, [(0x20, 4)], 8, 1, .w1c⟩,
  ⟨0x40080404, [(0x20, 4)], 9, 1, .w1c⟩,
  ⟨0x40080404, [(0x20, 4)], 10, 1, .w1c⟩,
  ⟨0x40080404, [(0x20, 4)], 11, 1, .w1c⟩,
  ⟨0x40080408, [(0x20, 4)], 0, 32, .ro⟩]

/-- Every field of the CHK block with its access code (R549). -/
def regRowsCHK : List RegRow := [
  ⟨0x40090000, [], 0, 1, .wo⟩,
  ⟨0x40090000, [], 1, 1, .wo⟩,
  ⟨0x40090000, [], 2, 1, .rwl⟩,
  ⟨0x40090000, [], 31, 1, .rwl⟩,
  ⟨0x40090004, [], 0, 1, .ro⟩,
  ⟨0x40090004, [], 1, 2, .ro⟩,
  ⟨0x40090004, [], 3, 2, .ro⟩,
  ⟨0x40090004, [], 5, 4, .ro⟩,
  ⟨0x40090004, [], 9, 1, .ro⟩,
  ⟨0x40090004, [], 10, 1, .ro⟩,
  ⟨0x40090008, [], 0, 8, .rwl⟩,
  ⟨0x40090008, [], 8, 4, .rwl⟩,
  ⟨0x4009000C, [], 0, 12, .ro⟩,
  ⟨0x40090010, [], 0, 16, .rwl⟩,
  ⟨0x40090010, [], 16, 16, .rwl⟩,
  ⟨0x40090014, [], 0, 16, .rwl⟩,
  ⟨0x40090014, [], 16, 4, .rwl⟩,
  ⟨0x40090018, [], 0, 16, .ro⟩,
  ⟨0x4009001C, [], 0, 4, .ro⟩,
  ⟨0x4009001C, [], 4, 4, .ro⟩,
  ⟨0x4009001C, [], 8, 7, .ro⟩,
  ⟨0x40090100, [(0x10, 16)], 2, 30, .rwl⟩,
  ⟨0x40090104, [(0x10, 16)], 2, 30, .rwl⟩,
  ⟨0x40090108, [(0x10, 16)], 0, 1, .rwl⟩,
  ⟨0x40090108, [(0x10, 16)], 1, 2, .rwl⟩,
  ⟨0x40090108, [(0x10, 16)], 3, 2, .rwl⟩,
  ⟨0x4009010C, [(0x10, 16)], 0, 32, .rwl⟩,
  ⟨0x40090200, [(0x80, 2)], 0, 8, .rw⟩,
  ⟨0x40090200, [(0x80, 2)], 8, 4, .rw⟩,
  ⟨0x40090204, [(0x80, 2)], 0, 32, .ro⟩,
  ⟨0x40090208, [(0x80, 2)], 0, 32, .ro⟩,
  ⟨0x4009020C, [(0x80, 2)], 0, 16, .ro⟩,
  ⟨0x4009020C, [(0x80, 2)], 16, 2, .ro⟩,
  ⟨0x40090210, [(0x80, 2)], 0, 32, .ro⟩,
  ⟨0x40090214, [(0x80, 2)], 0, 16, .ro⟩,
  ⟨0x40090214, [(0x80, 2)], 16, 16, .ro⟩,
  ⟨0x40090218, [(0x80, 2)], 0, 4, .ro⟩,
  ⟨0x4009021C, [(0x80, 2)], 0, 32, .ro⟩,
  ⟨0x40090220, [(0x80, 2)], 0, 32, .ro⟩,
  ⟨0x40090224, [(0x80, 2)], 0, 32, .ro⟩,
  ⟨0x40090228, [(0x80, 2)], 0, 16, .ro⟩,
  ⟨0x40090228, [(0x80, 2)], 16, 8, .ro⟩]

/-- Every field of the SEAM block with its access code (R549). -/
def regRowsSEAM : List RegRow := [
  ⟨0x400A0000, [], 0, 1, .wo⟩,
  ⟨0x400A0000, [], 1, 1, .wo⟩,
  ⟨0x400A0000, [], 2, 1, .rw⟩,
  ⟨0x400A0000, [], 3, 1, .rwl⟩,
  ⟨0x400A0000, [], 31, 1, .rwl⟩,
  ⟨0x400A0004, [], 0, 2, .rwl⟩,
  ⟨0x400A0004, [], 2, 2, .rwl⟩,
  ⟨0x400A0004, [], 4, 4, .rwl⟩,
  ⟨0x400A0004, [], 8, 3, .rwl⟩,
  ⟨0x400A0004, [], 11, 1, .rwl⟩,
  ⟨0x400A0004, [], 12, 8, .rwl⟩,
  ⟨0x400A0008, [], 0, 2, .rwl⟩,
  ⟨0x400A0008, [], 2, 1, .rwl⟩,
  ⟨0x400A0008, [], 4, 2, .rwl⟩,
  ⟨0x400A0008, [], 6, 1, .rwl⟩,
  ⟨0x400A000C, [], 0, 2, .ro⟩,
  ⟨0x400A000C, [], 2, 2, .ro⟩,
  ⟨0x400A000C, [], 4, 2, .ro⟩,
  ⟨0x400A000C, [], 6, 5, .ro⟩,
  ⟨0x400A000C, [], 11, 5, .ro⟩,
  ⟨0x400A000C, [], 16, 1, .ro⟩,
  ⟨0x400A000C, [], 17, 1, .ro⟩,
  ⟨0x400A000C, [], 18, 1, .ro⟩,
  ⟨0x400A000C, [], 19, 1, .ro⟩,
  ⟨0x400A000C, [], 20, 2, .ro⟩,
  ⟨0x400A000C, [], 22, 1, .w1c⟩,
  ⟨0x400A0010, [], 0, 8, .ro⟩,
  ⟨0x400A0010, [], 8, 8, .ro⟩,
  ⟨0x400A0014, [], 0, 32, .ro⟩,
  ⟨0x400A0018, [], 0, 32, .ro⟩,
  ⟨0x400A0020, [(0x4, 3)], 0, 32, .ro⟩,
  ⟨0x400A002C, [], 0, 24, .ro⟩,
  ⟨0x400A0040, [], 10, 22, .rwl⟩,
  ⟨0x400A0044, [], 0, 7, .rwl⟩,
  ⟨0x400A0048, [], 10, 22, .rwl⟩,
  ⟨0x400A004C, [], 0, 1, .ro⟩,
  ⟨0x400A004C, [], 8, 8, .ro⟩,
  ⟨0x400A0050, [], 0, 32, .ro⟩,
  ⟨0x400A0054, [], 10, 22, .rwl⟩,
  ⟨0x400A0058, [], 0, 12, .rwl⟩,
  ⟨0x400A005C, [], 0, 12, .ro⟩,
  ⟨0x400A0060, [], 0, 16, .ro⟩,
  ⟨0x400A0060, [], 16, 16, .ro⟩,
  ⟨0x400A0064, [], 0, 16, .ro⟩]

/-- Every field of the FDL block with its access code (R549). -/
def regRowsFDL : List RegRow := [
  ⟨0x400B0000, [], 0, 1, .rwl⟩,
  ⟨0x400B0000, [], 1, 1, .rwl⟩,
  ⟨0x400B0000, [], 2, 1, .wo⟩,
  ⟨0x400B0000, [], 31, 1, .rwl⟩,
  ⟨0x400B0004, [], 0, 6, .rwl⟩,
  ⟨0x400B0004, [], 8, 2, .rwl⟩,
  ⟨0x400B0004, [], 10, 6, .rwl⟩,
  ⟨0x400B0004, [], 16, 8, .rwl⟩,
  ⟨0x400B0004, [], 24, 4, .rwl⟩,
  ⟨0x400B0008, [], 0, 8, .rwl⟩,
  ⟨0x400B0008, [], 8, 4, .rwl⟩,
  ⟨0x400B0008, [], 12, 4, .rwl⟩,
  ⟨0x400B0008, [], 16, 8, .rwl⟩,
  ⟨0x400B000C, [], 0, 3, .ro⟩,
  ⟨0x400B000C, [], 3, 1, .ro⟩,
  ⟨0x400B000C, [], 4, 2, .ro⟩,
  ⟨0x400B000C, [], 6, 1, .ro⟩,
  ⟨0x400B000C, [], 7, 1, .ro⟩,
  ⟨0x400B000C, [], 8, 3, .ro⟩,
  ⟨0x400B000C, [], 11, 1, .ro⟩,
  ⟨0x400B000C, [], 12, 4, .ro⟩,
  ⟨0x400B000C, [], 16, 1, .w1c⟩,
  ⟨0x400B0010, [], 0, 3, .rw⟩,
  ⟨0x400B0010, [], 30, 1, .wo⟩,
  ⟨0x400B0010, [], 31, 1, .wo⟩,
  ⟨0x400B0014, [], 0, 32, .ro⟩,
  ⟨0x400B0018, [], 0, 32, .ro⟩,
  ⟨0x400B0020, [(0x4, 8)], 0, 22, .ro⟩,
  ⟨0x400B0020, [(0x4, 8)], 22, 1, .ro⟩,
  ⟨0x400B0020, [(0x4, 8)], 23, 1, .ro⟩,
  ⟨0x400B0020, [(0x4, 8)], 24, 6, .ro⟩,
  ⟨0x400B0020, [(0x4, 8)], 30, 2, .ro⟩,
  ⟨0x400B0040, [], 0, 6, .ro⟩,
  ⟨0x400B0040, [], 6, 2, .ro⟩,
  ⟨0x400B0040, [], 8, 3, .ro⟩,
  ⟨0x400B0040, [], 12, 3, .ro⟩,
  ⟨0x400B0040, [], 31, 1, .w1c⟩,
  ⟨0x400B0048, [], 0, 32, .ro⟩,
  ⟨0x400B004C, [], 0, 32, .ro⟩,
  ⟨0x400B0050, [], 0, 32, .w1c⟩,
  ⟨0x400B0054, [], 0, 32, .w1c⟩,
  ⟨0x400B0058, [], 0, 32, .ro⟩,
  ⟨0x400B005C, [], 0, 32, .ro⟩,
  ⟨0x400B0060, [], 0, 3, .ro⟩,
  ⟨0x400B0064, [], 0, 16, .ro⟩,
  ⟨0x400B0064, [], 16, 16, .ro⟩,
  ⟨0x400B0068, [], 0, 6, .ro⟩,
  ⟨0x400B0068, [], 6, 2, .ro⟩,
  ⟨0x400B0080, [(0x8, 8)], 0, 32, .ro⟩,
  ⟨0x400B0084, [(0x8, 8)], 0, 32, .ro⟩,
  ⟨0x400B00C0, [(0x4, 8)], 0, 4, .ro⟩,
  ⟨0x400B00C0, [(0x4, 8)], 4, 6, .ro⟩,
  ⟨0x400B0100, [(0x20, 6)], 0, 2, .rwl⟩,
  ⟨0x400B0100, [(0x20, 6)], 2, 2, .rwl⟩,
  ⟨0x400B0100, [(0x20, 6)], 4, 2, .rwl⟩,
  ⟨0x400B0104, [(0x20, 6)], 0, 32, .rwl⟩,
  ⟨0x400B0108, [(0x20, 6)], 0, 32, .rwl⟩,
  ⟨0x400B010C, [(0x20, 6)], 0, 3, .rwl⟩,
  ⟨0x400B0110, [(0x20, 6)], 0, 2, .ro⟩,
  ⟨0x400B0110, [(0x20, 6)], 4, 10, .ro⟩,
  ⟨0x400B0114, [(0x20, 6)], 0, 1, .wo⟩,
  ⟨0x400B0114, [(0x20, 6)], 1, 1, .wo⟩,
  ⟨0x400B0118, [(0x20, 6)], 0, 16, .ro⟩,
  ⟨0x400B0118, [(0x20, 6)], 16, 16, .ro⟩,
  ⟨0x400B011C, [(0x20, 6)], 0, 16, .ro⟩,
  ⟨0x400B011C, [(0x20, 6)], 16, 16, .ro⟩]

/-- Every field of the HIF block with its access code (R549). -/
def regRowsHIF : List RegRow := [
  ⟨0x400C0000, [], 0, 1, .rw⟩,
  ⟨0x400C0000, [], 31, 1, .rwl⟩,
  ⟨0x400C0004, [], 0, 1, .ro⟩,
  ⟨0x400C0004, [], 1, 2, .ro⟩,
  ⟨0x400C0004, [], 3, 2, .ro⟩,
  ⟨0x400C0004, [], 5, 1, .ro⟩,
  ⟨0x400C0004, [], 6, 1, .w1c⟩,
  ⟨0x400C0004, [], 7, 1, .w1c⟩,
  ⟨0x400C0004, [], 8, 1, .w1c⟩,
  ⟨0x400C0008, [], 0, 16, .rwl⟩,
  ⟨0x400C0008, [], 16, 8, .rwl⟩,
  ⟨0x400C0008, [], 24, 4, .rwl⟩,
  ⟨0x400C0008, [], 28, 1, .rwl⟩,
  ⟨0x400C000C, [], 0, 8, .ro⟩,
  ⟨0x400C000C, [], 8, 8, .ro⟩,
  ⟨0x400C0010, [], 0, 9, .ro⟩,
  ⟨0x400C0010, [], 16, 9, .ro⟩,
  ⟨0x400C0018, [], 0, 32, .ro⟩,
  ⟨0x400C001C, [], 0, 32, .ro⟩,
  ⟨0x400C0020, [], 0, 16, .ro⟩,
  ⟨0x400C0020, [], 16, 16, .ro⟩,
  ⟨0x400C8000, [(0x80, 16)], 0, 12, .wo⟩,
  ⟨0x400C8000, [(0x80, 16)], 31, 1, .wo⟩,
  ⟨0x400C0100, [(0x40, 16)], 1, 3, .rwl⟩,
  ⟨0x400C0100, [(0x40, 16)], 4, 1, .rwl⟩,
  ⟨0x400C0100, [(0x40, 16)], 5, 4, .rwl⟩,
  ⟨0x400C0100, [(0x40, 16)], 9, 4, .rwl⟩,
  ⟨0x400C0100, [(0x40, 16)], 13, 5, .rwl⟩,
  ⟨0x400C0100, [(0x40, 16)], 24, 8, .rwl⟩,
  ⟨0x400C0104, [(0x40, 16)], 0, 1, .rw⟩,
  ⟨0x400C0108, [(0x40, 16)], 6, 26, .rwl⟩,
  ⟨0x400C010C, [(0x40, 16)], 0, 32, .rwl⟩,
  ⟨0x400C0110, [(0x40, 16)], 3, 29, .rwl⟩,
  ⟨0x400C0114, [(0x40, 16)], 0, 32, .rwl⟩,
  ⟨0x400C0118, [(0x40, 16)], 0, 12, .ro⟩,
  ⟨0x400C0118, [(0x40, 16)], 16, 12, .ro⟩,
  ⟨0x400C011C, [(0x40, 16)], 0, 8, .rwl⟩,
  ⟨0x400C011C, [(0x40, 16)], 8, 1, .ro⟩,
  ⟨0x400C0120, [(0x40, 16)], 0, 1, .ro⟩,
  ⟨0x400C0120, [(0x40, 16)], 1, 1, .ro⟩,
  ⟨0x400C0120, [(0x40, 16)], 2, 1, .ro⟩,
  ⟨0x400C0120, [(0x40, 16)], 3, 1, .w1c⟩,
  ⟨0x400C0120, [(0x40, 16)], 16, 16, .ro⟩]

/-- Every field of the CAN block with its access code (R549). -/
def regRowsCAN : List RegRow := [
  ⟨0x400D0000, [(0x400, 2)], 0, 1, .rwl⟩,
  ⟨0x400D0000, [(0x400, 2)], 1, 1, .rwl⟩,
  ⟨0x400D0000, [(0x400, 2)], 2, 1, .rwl⟩,
  ⟨0x400D0000, [(0x400, 2)], 3, 1, .rwl⟩,
  ⟨0x400D0000, [(0x400, 2)], 4, 1, .rwl⟩,
  ⟨0x400D0000, [(0x400, 2)], 5, 1, .rwl⟩,
  ⟨0x400D0000, [(0x400, 2)], 6, 1, .wo⟩,
  ⟨0x400D0000, [(0x400, 2)], 8, 4, .rwl⟩,
  ⟨0x400D0000, [(0x400, 2)], 31, 1, .rwl⟩,
  ⟨0x400D0004, [(0x400, 2)], 0, 9, .rwl⟩,
  ⟨0x400D0004, [(0x400, 2)], 9, 8, .rwl⟩,
  ⟨0x400D0004, [(0x400, 2)], 17, 7, .rwl⟩,
  ⟨0x400D0004, [(0x400, 2)], 24, 7, .rwl⟩,
  ⟨0x400D0008, [(0x400, 2)], 0, 5, .rwl⟩,
  ⟨0x400D0008, [(0x400, 2)], 8, 5, .rwl⟩,
  ⟨0x400D0008, [(0x400, 2)], 16, 4, .rwl⟩,
  ⟨0x400D0008, [(0x400, 2)], 24, 4, .rwl⟩,
  ⟨0x400D000C, [(0x400, 2)], 0, 7, .rwl⟩,
  ⟨0x400D0010, [(0x400, 2)], 0, 2, .ro⟩,
  ⟨0x400D0010, [(0x400, 2)], 8, 8, .ro⟩,
  ⟨0x400D0010, [(0x400, 2)], 16, 7, .ro⟩,
  ⟨0x400D0010, [(0x400, 2)], 24, 5, .ro⟩,
  ⟨0x400D0014, [(0x400, 2)], 0, 16, .ro⟩,
  ⟨0x400D0014, [(0x400, 2)], 16, 16, .ro⟩,
  ⟨0x400D0100, [(0x400, 2), (0x10, 32)], 0, 29, .rwl⟩,
  ⟨0x400D0100, [(0x400, 2), (0x10, 32)], 29, 1, .rwl⟩,
  ⟨0x400D0100, [(0x400, 2), (0x10, 32)], 31, 1, .rwl⟩,
  ⟨0x400D0104, [(0x400, 2), (0x10, 32)], 0, 29, .rwl⟩,
  ⟨0x400D0108, [(0x400, 2), (0x10, 32)], 0, 7, .rwl⟩,
  ⟨0x400D0108, [(0x400, 2), (0x10, 32)], 8, 7, .rwl⟩,
  ⟨0x400D0108, [(0x400, 2), (0x10, 32)], 15, 1, .rwl⟩,
  ⟨0x400D0108, [(0x400, 2), (0x10, 32)], 16, 8, .rwl⟩,
  ⟨0x400D0108, [(0x400, 2), (0x10, 32)], 24, 1, .rwl⟩]

/-- Every field of the INTC block with its access code (R549). -/
def regRowsINTC : List RegRow := [
  ⟨0x400E0000, [], 0, 1, .rw⟩,
  ⟨0x400E0000, [], 31, 1, .rwl⟩,
  ⟨0x400E0004, [], 0, 1, .w1c⟩,
  ⟨0x400E0004, [], 1, 1, .ro⟩,
  ⟨0x400E0004, [], 2, 1, .w1c⟩,
  ⟨0x400E0010, [(0x4, 8)], 0, 32, .w1c⟩,
  ⟨0x400E0030, [(0x4, 8)], 0, 32, .w1c⟩,
  ⟨0x400E0050, [], 0, 16, .wo⟩,
  ⟨0x400E0100, [(0x20, 4)], 0, 8, .ro⟩,
  ⟨0x400E0100, [(0x20, 4)], 8, 1, .ro⟩,
  ⟨0x400E0104, [(0x20, 4)], 0, 8, .ro⟩,
  ⟨0x400E0104, [(0x20, 4)], 8, 1, .ro⟩,
  ⟨0x400E0104, [(0x20, 4)], 9, 1, .ro⟩,
  ⟨0x400E0104, [(0x20, 4)], 10, 1, .ro⟩,
  ⟨0x400E0108, [(0x20, 4)], 0, 8, .wo⟩,
  ⟨0x400E010C, [(0x20, 4)], 0, 32, .ro⟩,
  ⟨0x400E0110, [(0x20, 4)], 0, 1, .ro⟩,
  ⟨0x400E0400, [(0x4, 256)], 0, 1, .rw⟩,
  ⟨0x400E0400, [(0x4, 256)], 1, 3, .rwl⟩,
  ⟨0x400E0400, [(0x4, 256)], 4, 1, .rwl⟩,
  ⟨0x400E0400, [(0x4, 256)], 5, 1, .rwl⟩]

/-- Every field of the TSK block with its access code (R549). -/
def regRowsTSK : List RegRow := [
  ⟨0x400F0000, [(0x8000, 2)], 0, 1, .rw⟩,
  ⟨0x400F0000, [(0x8000, 2)], 1, 1, .rwl⟩,
  ⟨0x400F0000, [(0x8000, 2)], 31, 1, .rwl⟩,
  ⟨0x400F0004, [(0x8000, 2)], 0, 4, .wo⟩,
  ⟨0x400F0004, [(0x8000, 2)], 4, 7, .wo⟩,
  ⟨0x400F0004, [(0x8000, 2)], 11, 4, .wo⟩,
  ⟨0x400F0004, [(0x8000, 2)], 15, 1, .wo⟩,
  ⟨0x400F0004, [(0x8000, 2)], 16, 1, .wo⟩,
  ⟨0x400F0008, [(0x8000, 2)], 0, 32, .rw⟩,
  ⟨0x400F000C, [(0x8000, 2)], 0, 7, .ro⟩,
  ⟨0x400F000C, [(0x8000, 2)], 7, 1, .ro⟩,
  ⟨0x400F000C, [(0x8000, 2)], 8, 4, .ro⟩,
  ⟨0x400F000C, [(0x8000, 2)], 16, 16, .ro⟩,
  ⟨0x400F0010, [(0x8000, 2)], 0, 7, .ro⟩,
  ⟨0x400F0010, [(0x8000, 2)], 8, 7, .ro⟩,
  ⟨0x400F0010, [(0x8000, 2)], 16, 4, .ro⟩,
  ⟨0x400F0010, [(0x8000, 2)], 20, 1, .ro⟩,
  ⟨0x400F0014, [(0x8000, 2)], 9, 23, .rwl⟩,
  ⟨0x400F0018, [(0x8000, 2)], 12, 20, .rwl⟩,
  ⟨0x400F001C, [(0x8000, 2)], 0, 4, .rwl⟩,
  ⟨0x400F0020, [(0x8000, 2)], 0, 16, .ro⟩,
  ⟨0x400F0020, [(0x8000, 2)], 16, 16, .ro⟩,
  ⟨0x400F0024, [(0x8000, 2)], 0, 1, .w1c⟩,
  ⟨0x400F0024, [(0x8000, 2)], 1, 1, .ro⟩,
  ⟨0x400F0024, [(0x8000, 2)], 2, 1, .w1c⟩,
  ⟨0x400F0028, [(0x8000, 2)], 0, 32, .ro⟩,
  ⟨0x400F1000, [(0x8000, 2), (0x10, 128)], 0, 2, .ro⟩,
  ⟨0x400F1000, [(0x8000, 2), (0x10, 128)], 4, 4, .ro⟩,
  ⟨0x400F1000, [(0x8000, 2), (0x10, 128)], 8, 1, .ro⟩,
  ⟨0x400F1000, [(0x8000, 2), (0x10, 128)], 9, 1, .ro⟩,
  ⟨0x400F1000, [(0x8000, 2), (0x10, 128)], 10, 1, .ro⟩,
  ⟨0x400F1004, [(0x8000, 2), (0x10, 128)], 0, 32, .ro⟩,
  ⟨0x400F1008, [(0x8000, 2), (0x10, 128)], 0, 32, .ro⟩,
  ⟨0x400F100C, [(0x8000, 2), (0x10, 128)], 0, 32, .ro⟩]

/-- Every field of the FCU block with its access code (R549). -/
def regRowsFCU : List RegRow := [
  ⟨0x40100000, [], 31, 1, .rwl⟩,
  ⟨0x40100004, [], 0, 1, .ro⟩,
  ⟨0x40100004, [], 1, 1, .ro⟩,
  ⟨0x40100004, [], 2, 1, .ro⟩,
  ⟨0x40100004, [], 3, 1, .ro⟩,
  ⟨0x40100004, [], 4, 1, .w1c⟩,
  ⟨0x40100004, [], 8, 1, .ro⟩,
  ⟨0x40100004, [], 9, 1, .ro⟩,
  ⟨0x40100004, [], 10, 1, .ro⟩,
  ⟨0x40100004, [], 16, 10, .ro⟩,
  ⟨0x40100008, [], 0, 10, .rwl⟩,
  ⟨0x40100008, [], 10, 10, .rwl⟩,
  ⟨0x4010000C, [], 0, 20, .ro⟩,
  ⟨0x4010000C, [], 20, 8, .ro⟩,
  ⟨0x40100010, [], 0, 16, .rw⟩,
  ⟨0x40100014, [], 0, 3, .rwl⟩,
  ⟨0x40100014, [], 3, 1, .rwl⟩,
  ⟨0x40100014, [], 4, 2, .ro⟩,
  ⟨0x40100014, [], 6, 3, .ro⟩,
  ⟨0x40100014, [], 9, 1, .ro⟩,
  ⟨0x40100018, [], 0, 1, .ro⟩,
  ⟨0x40100018, [], 1, 1, .ro⟩,
  ⟨0x40100018, [], 8, 8, .ro⟩,
  ⟨0x40100018, [], 16, 16, .ro⟩,
  ⟨0x4010001C, [], 0, 16, .ro⟩,
  ⟨0x40100040, [], 0, 16, .ro⟩,
  ⟨0x40100040, [], 16, 2, .ro⟩,
  ⟨0x40100040, [], 18, 1, .w1c⟩,
  ⟨0x40100040, [], 19, 3, .ro⟩,
  ⟨0x40100040, [], 24, 8, .ro⟩,
  ⟨0x40100044, [], 0, 2, .ro⟩,
  ⟨0x40100044, [], 4, 4, .ro⟩,
  ⟨0x40100044, [], 8, 2, .ro⟩,
  ⟨0x40100048, [], 0, 32, .ro⟩,
  ⟨0x4010004C, [], 0, 32, .ro⟩,
  ⟨0x40100050, [], 0, 32, .ro⟩,
  ⟨0x40100054, [], 0, 32, .ro⟩,
  ⟨0x40100060, [], 0, 8, .ro⟩,
  ⟨0x40100060, [], 16, 16, .ro⟩,
  ⟨0x40100064, [], 0, 8, .rw⟩,
  ⟨0x40100064, [], 16, 9, .ro⟩,
  ⟨0x40101000, [(0x10, 256)], 0, 128, .ro⟩]

/-- Every field of the ALM block with its access code (R549). -/
def regRowsALM : List RegRow := [
  ⟨0x40110000, [], 0, 1, .rw⟩,
  ⟨0x40110000, [], 1, 1, .wo⟩,
  ⟨0x40110000, [], 2, 1, .wo⟩,
  ⟨0x40110000, [], 3, 1, .wo⟩,
  ⟨0x40110000, [], 4, 1, .rwl⟩,
  ⟨0x40110000, [], 5, 1, .rwl⟩,
  ⟨0x40110000, [], 6, 1, .rwl⟩,
  ⟨0x40110000, [], 7, 1, .rwl⟩,
  ⟨0x40110000, [], 8, 4, .rwl⟩,
  ⟨0x40110000, [], 31, 1, .rwl⟩,
  ⟨0x40110004, [], 0, 8, .rwl⟩,
  ⟨0x40110004, [], 8, 8, .rwl⟩,
  ⟨0x40110004, [], 16, 2, .rwl⟩,
  ⟨0x40110004, [], 18, 8, .rwl⟩,
  ⟨0x40110008, [], 0, 16, .rwl⟩,
  ⟨0x40110008, [], 16, 16, .rwl⟩,
  ⟨0x4011000C, [], 0, 1, .rwl⟩,
  ⟨0x4011000C, [], 1, 1, .rwl⟩,
  ⟨0x4011000C, [], 2, 1, .rwl⟩,
  ⟨0x4011000C, [], 3, 1, .rwl⟩,
  ⟨0x4011000C, [], 4, 1, .rwl⟩,
  ⟨0x4011000C, [], 5, 1, .rwl⟩,
  ⟨0x4011000C, [], 6, 1, .rwl⟩,
  ⟨0x40110010, [], 0, 3, .ro⟩,
  ⟨0x40110010, [], 3, 1, .ro⟩,
  ⟨0x40110010, [], 4, 1, .ro⟩,
  ⟨0x40110010, [], 5, 1, .ro⟩,
  ⟨0x40110010, [], 6, 1, .w1c⟩,
  ⟨0x40110010, [], 7, 1, .w1c⟩,
  ⟨0x40110010, [], 8, 8, .ro⟩,
  ⟨0x40110010, [], 16, 16, .ro⟩,
  ⟨0x40110014, [], 0, 32, .ro⟩,
  ⟨0x40110018, [], 0, 32, .ro⟩,
  ⟨0x4011001C, [], 0, 32, .ro⟩,
  ⟨0x40110020, [], 0, 32, .ro⟩,
  ⟨0x40110024, [], 0, 9, .ro⟩,
  ⟨0x40110024, [], 16, 16, .ro⟩,
  ⟨0x40110028, [], 0, 16, .ro⟩,
  ⟨0x40110028, [], 16, 16, .ro⟩,
  ⟨0x40110040, [(0x4, 8)], 0, 14, .rwl⟩,
  ⟨0x40110040, [(0x4, 8)], 16, 10, .rwl⟩,
  ⟨0x40110060, [], 0, 32, .rw⟩,
  ⟨0x40110064, [], 0, 32, .rw⟩,
  ⟨0x40110068, [], 0, 24, .rw⟩,
  ⟨0x40110068, [], 24, 1, .rw⟩,
  ⟨0x4011006C, [], 0, 4, .ro⟩,
  ⟨0x4011006C, [], 4, 1, .ro⟩,
  ⟨0x4011006C, [], 5, 1, .ro⟩,
  ⟨0x40110070, [], 0, 32, .ro⟩,
  ⟨0x40110074, [], 0, 32, .ro⟩,
  ⟨0x40110078, [], 0, 32, .ro⟩,
  ⟨0x4011007C, [], 0, 32, .ro⟩]

/-- Every field of the DBG block with its access code (R549). -/
def regRowsDBG : List RegRow := [
  ⟨0x40120000, [], 0, 1, .wo⟩,
  ⟨0x40120004, [], 0, 16, .rw⟩,
  ⟨0x40120008, [], 0, 1, .ro⟩,
  ⟨0x40120008, [], 1, 2, .ro⟩,
  ⟨0x40120008, [], 8, 8, .ro⟩]

/-- Every field of the SEC block with its access code (R549). -/
def regRowsSEC : List RegRow := [
  ⟨0x40130000, [], 0, 3, .ro⟩,
  ⟨0x40130000, [], 3, 1, .ro⟩,
  ⟨0x40130000, [], 4, 1, .ro⟩,
  ⟨0x40130000, [], 5, 1, .ro⟩,
  ⟨0x40130000, [], 6, 2, .ro⟩,
  ⟨0x40130000, [], 8, 1, .ro⟩,
  ⟨0x40130004, [], 0, 4, .ro⟩,
  ⟨0x40130004, [], 4, 4, .ro⟩,
  ⟨0x40130004, [], 8, 1, .ro⟩,
  ⟨0x40130004, [], 9, 1, .ro⟩,
  ⟨0x40130008, [], 0, 32, .ro⟩,
  ⟨0x4013000C, [], 0, 9, .ro⟩,
  ⟨0x40130010, [], 0, 32, .ro⟩,
  ⟨0x40130014, [], 0, 32, .ro⟩,
  ⟨0x40130018, [], 0, 2, .ro⟩,
  ⟨0x40130018, [], 2, 2, .ro⟩,
  ⟨0x40130018, [], 4, 3, .ro⟩,
  ⟨0x40130018, [], 7, 3, .ro⟩,
  ⟨0x4013001C, [], 0, 19, .ro⟩,
  ⟨0x40130020, [], 0, 4, .wo⟩,
  ⟨0x40130024, [(0x4, 3)], 0, 32, .rw⟩,
  ⟨0x40130030, [], 0, 1, .ro⟩,
  ⟨0x40130030, [], 8, 8, .ro⟩]

/-- Reset values that are not 0, per block: (bit address, value). Where the tables state no number
('Fuses', 'Latch', 'Default', a dash) the field is shown from its own state or starts at 0. -/
def resetCellsSYS0 : SMap Nat := [
  (0x200000000, 1), (0x200000008, 10), (0x200000010, 38472), (0x200002206, 1), (0x200002208, 2), (0x20000220C, 2),
  (0x200002220, 128), (0x200002230, 5000), (0x200002240, 100), (0x200002306, 1), (0x200002308, 2), (0x20000230C, 2),
  (0x200002320, 128), (0x200002330, 5000), (0x200002340, 100), (0x200002406, 1), (0x200002408, 2), (0x20000240C, 2),
  (0x200002420, 128), (0x200002430, 5000), (0x200002440, 100), (0x200002506, 1), (0x200002508, 2), (0x20000250C, 2),
  (0x200002520, 128), (0x200002530, 5000), (0x200002540, 100), (0x200002606, 1), (0x200002608, 2), (0x20000260C, 2),
  (0x200002620, 128), (0x200002630, 5000), (0x200002640, 100), (0x200002706, 1), (0x200002708, 2), (0x20000270C, 2),
  (0x200002720, 128), (0x200002730, 5000), (0x200002740, 100), (0x200002806, 1), (0x200002808, 2), (0x20000280C, 2),
  (0x200002820, 128), (0x200002830, 5000), (0x200002840, 100), (0x200002906, 1), (0x200002908, 2), (0x20000290C, 2),
  (0x200002920, 128), (0x200002930, 5000), (0x200002940, 100)]
def resetCellsPWR0 : SMap Nat := [
  (0x200080060, 1), (0x2000800C0, 1), (0x200080100, 4095), (0x200080180, 0xAAAAAA), (0x200080310, 1000)]
def resetCellsTIME0 : SMap Nat := [
  (0x200100021, 1), (0x200100022, 1), (0x200100300, 20000), (0x200100320, 20)]
def resetCellsANV0 : SMap Nat := [
  (0x20018040E, 1024), (0x2001804A0, 1)]
def resetCellsCEC0 : SMap Nat := [
  (0x20020012C, 64)]
def resetCellsCOM0 : SMap Nat := [
  (0x200280808, 3), (0x200280820, 20000), (0x200280860, 400), (0x20028086C, 160), (0x200280880, 32765), (0x200280890, 1),
  (0x2002808A0, 32766), (0x2002808B0, 32767), (0x2002808C8, 1), (0x2002808D0, 20), (0x2002808E1, 127), (0x200280900, 200),
  (0x200280910, 20), (0x200280C08, 3), (0x200280C20, 20000), (0x200280C60, 400), (0x200280C6C, 160), (0x200280C80, 32765),
  (0x200280C90, 1), (0x200280CA0, 32766), (0x200280CB0, 32767), (0x200280CC8, 1), (0x200280CD0, 20), (0x200280CE1, 127),
  (0x200280D00, 200), (0x200280D10, 20), (0x200281008, 3), (0x200281020, 20000), (0x200281060, 400), (0x20028106C, 160),
  (0x200281080, 32765), (0x200281090, 1), (0x2002810A0, 32766), (0x2002810B0, 32767), (0x2002810C8, 1), (0x2002810D0, 20),
  (0x2002810E1, 127), (0x200281100, 200), (0x200281110, 20), (0x200281408, 3), (0x200281420, 20000), (0x200281460, 400),
  (0x20028146C, 160), (0x200281480, 32765), (0x200281490, 1), (0x2002814A0, 32766), (0x2002814B0, 32767), (0x2002814C8, 1),
  (0x2002814D0, 20), (0x2002814E1, 127), (0x200281500, 200), (0x200281510, 20), (0x200281808, 3), (0x200281820, 20000),
  (0x200281860, 400), (0x20028186C, 160), (0x200281880, 32765), (0x200281890, 1), (0x2002818A0, 32766), (0x2002818B0, 32767)]
def resetCellsCOM1 : SMap Nat := [
  (0x2002818C8, 1), (0x2002818D0, 20), (0x2002818E1, 127), (0x200281900, 200), (0x200281910, 20), (0x200281C08, 3),
  (0x200281C20, 20000), (0x200281C60, 400), (0x200281C6C, 160), (0x200281C80, 32765), (0x200281C90, 1), (0x200281CA0, 32766),
  (0x200281CB0, 32767), (0x200281CC8, 1), (0x200281CD0, 20), (0x200281CE1, 127), (0x200281D00, 200), (0x200281D10, 20),
  (0x200282008, 3), (0x200282020, 20000), (0x200282060, 400), (0x20028206C, 160), (0x200282080, 32765), (0x200282090, 1),
  (0x2002820A0, 32766), (0x2002820B0, 32767), (0x2002820C8, 1), (0x2002820D0, 20), (0x2002820E1, 127), (0x200282100, 200),
  (0x200282110, 20), (0x200282408, 3), (0x200282420, 20000), (0x200282460, 400), (0x20028246C, 160), (0x200282480, 32765),
  (0x200282490, 1), (0x2002824A0, 32766), (0x2002824B0, 32767), (0x2002824C8, 1), (0x2002824D0, 20), (0x2002824E1, 127),
  (0x200282500, 200), (0x200282510, 20)]
def resetCellsFBK0 : SMap Nat := [
  (0x200300020, 16434824), (0x200300040, 40000), (0x200300804, 3), (0x200300830, 2), (0x200300840, 4), (0x200300848, 19),
  (0x200300850, 16), (0x200300860, 25), (0x200300868, 20), (0x200300878, 3), (0x2003008A0, 4294967295), (0x2003008D0, 64),
  (0x2003008D8, 240), (0x2003008E0, 1000), (0x200300A04, 3), (0x200300A30, 2), (0x200300A40, 4), (0x200300A48, 19),
  (0x200300A50, 16), (0x200300A60, 25), (0x200300A68, 20), (0x200300A78, 3), (0x200300AA0, 4294967295), (0x200300AD0, 64),
  (0x200300AD8, 240), (0x200300AE0, 1000), (0x200300C04, 3), (0x200300C30, 2), (0x200300C40, 4), (0x200300C48, 19),
  (0x200300C50, 16), (0x200300C60, 25), (0x200300C68, 20), (0x200300C78, 3), (0x200300CA0, 4294967295), (0x200300CD0, 64),
  (0x200300CD8, 240), (0x200300CE0, 1000), (0x200300E04, 3), (0x200300E30, 2), (0x200300E40, 4), (0x200300E48, 19),
  (0x200300E50, 16), (0x200300E60, 25), (0x200300E68, 20), (0x200300E78, 3), (0x200300EA0, 4294967295), (0x200300ED0, 64),
  (0x200300ED8, 240), (0x200300EE0, 1000), (0x200301004, 3), (0x200301030, 2), (0x200301040, 4), (0x200301048, 19),
  (0x200301050, 16), (0x200301060, 25), (0x200301068, 20), (0x200301078, 3), (0x2003010A0, 4294967295), (0x2003010D0, 64)]
def resetCellsFBK1 : SMap Nat := [
  (0x2003010D8, 240), (0x2003010E0, 1000), (0x200301204, 3), (0x200301230, 2), (0x200301240, 4), (0x200301248, 19),
  (0x200301250, 16), (0x200301260, 25), (0x200301268, 20), (0x200301278, 3), (0x2003012A0, 4294967295), (0x2003012D0, 64),
  (0x2003012D8, 240), (0x2003012E0, 1000), (0x200301404, 3), (0x200301430, 2), (0x200301440, 4), (0x200301448, 19),
  (0x200301450, 16), (0x200301460, 25), (0x200301468, 20), (0x200301478, 3), (0x2003014A0, 4294967295), (0x2003014D0, 64),
  (0x2003014D8, 240), (0x2003014E0, 1000), (0x200301604, 3), (0x200301630, 2), (0x200301640, 4), (0x200301648, 19),
  (0x200301650, 16), (0x200301660, 25), (0x200301668, 20), (0x200301678, 3), (0x2003016A0, 4294967295), (0x2003016D0, 64),
  (0x2003016D8, 240), (0x2003016E0, 1000)]
def resetCellsADC0 : SMap Nat := [
  (0x200380100, 20), (0x200380120, 20), (0x200380140, 20), (0x200380160, 20), (0x200380204, 2), (0x200380208, 16),
  (0x200380224, 2), (0x200380228, 16), (0x200380244, 2), (0x200380248, 16), (0x200380264, 2), (0x200380268, 16),
  (0x200380284, 2), (0x200380288, 16), (0x2003802A4, 2), (0x2003802A8, 16), (0x2003802C4, 2), (0x2003802C8, 16),
  (0x2003802E4, 2), (0x2003802E8, 16), (0x200380304, 2), (0x200380308, 16), (0x200380324, 2), (0x200380328, 16),
  (0x200380344, 2), (0x200380348, 16), (0x200380364, 2), (0x200380368, 16), (0x200380384, 2), (0x200380388, 16),
  (0x2003803A4, 2), (0x2003803A8, 16), (0x2003803C4, 2), (0x2003803C8, 16), (0x2003803E4, 2), (0x2003803E8, 16),
  (0x200380404, 2), (0x200380408, 16), (0x200380424, 2), (0x200380428, 16), (0x200380444, 2), (0x200380448, 16),
  (0x200380464, 2), (0x200380468, 16), (0x200380484, 2), (0x200380488, 16), (0x2003804A4, 2), (0x2003804A8, 16),
  (0x2003804C4, 2), (0x2003804C8, 16), (0x2003804E4, 2), (0x2003804E8, 16)]
def resetCellsOUT0 : SMap Nat := [
  (0x200400082, 4), (0x2004000A2, 4), (0x2004000C2, 4), (0x2004000E2, 4), (0x200400102, 4), (0x200400122, 4),
  (0x200400142, 4), (0x200400162, 4), (0x200400820, 200), (0x200400840, 50), (0x200400850, 105), (0x200400858, 120),
  (0x200400A20, 200), (0x200400A40, 50), (0x200400A50, 105), (0x200400A58, 120), (0x200400C20, 200), (0x200400C40, 50),
  (0x200400C50, 105), (0x200400C58, 120), (0x200400E20, 200), (0x200400E40, 50), (0x200400E50, 105), (0x200400E58, 120),
  (0x200401020, 200), (0x200401040, 50), (0x200401050, 105), (0x200401058, 120), (0x200401220, 200), (0x200401240, 50),
  (0x200401250, 105), (0x200401258, 120), (0x200401420, 200), (0x200401440, 50), (0x200401450, 105), (0x200401458, 120),
  (0x200401620, 200), (0x200401640, 50), (0x200401650, 105), (0x200401658, 120), (0x200402008, 10), (0x200402010, 100),
  (0x200402108, 10), (0x200402110, 100), (0x200402208, 10), (0x200402210, 100), (0x200402308, 10), (0x200402310, 100)]
def resetCellsCHK0 : SMap Nat := [
  (0x200480002, 1), (0x200480080, 4096), (0x200480090, 4000), (0x2004800A0, 1000), (0x2004800B0, 2), (0x2004800E8, 127),
  (0x200480843, 2), (0x2004808C3, 2), (0x200480943, 2), (0x2004809C3, 2), (0x200480A43, 2), (0x200480AC3, 2),
  (0x200480B43, 2), (0x200480BC3, 2), (0x200480C43, 2), (0x200480CC3, 2), (0x200480D43, 2), (0x200480DC3, 2),
  (0x200480E43, 2), (0x200480EC3, 2), (0x200480F43, 2), (0x200480FC3, 2)]
def resetCellsSEAM0 : SMap Nat := [
  (0x200500003, 1), (0x200500024, 4), (0x200500028, 4), (0x20050002B, 1), (0x20050002C, 16), (0x200500220, 16)]
def resetCellsFDL0 : SMap Nat := [
  (0x200580028, 1), (0x20058002A, 8), (0x200580030, 32), (0x200580038, 2), (0x200580040, 32), (0x200580048, 2),
  (0x20058004C, 4), (0x200580050, 16)]
def resetCellsHIF0 : SMap Nat := [
  (0x200600040, 20000), (0x200600805, 4), (0x200600A05, 4), (0x200600C05, 4), (0x200600E05, 4), (0x200601005, 4),
  (0x200601205, 4), (0x200601405, 4), (0x200601605, 4), (0x200601805, 4), (0x200601A05, 4), (0x200601C05, 4),
  (0x200601E05, 4), (0x200602005, 4), (0x200602205, 4), (0x200602405, 4), (0x200602605, 4)]
def resetCellsCAN0 : SMap Nat := [
  (0x200680029, 126), (0x200680031, 31), (0x200680038, 31), (0x200680048, 6), (0x200680050, 1), (0x200680058, 1),
  (0x200680848, 64), (0x2006808C8, 64), (0x200680948, 64), (0x2006809C8, 64), (0x200680A48, 64), (0x200680AC8, 64),
  (0x200680B48, 64), (0x200680BC8, 64), (0x200680C48, 64), (0x200680CC8, 64), (0x200680D48, 64), (0x200680DC8, 64),
  (0x200680E48, 64), (0x200680EC8, 64), (0x200680F48, 64), (0x200680FC8, 64), (0x200681048, 64), (0x2006810C8, 64),
  (0x200681148, 64), (0x2006811C8, 64), (0x200681248, 64), (0x2006812C8, 64), (0x200681348, 64), (0x2006813C8, 64),
  (0x200681448, 64), (0x2006814C8, 64), (0x200681548, 64), (0x2006815C8, 64), (0x200681648, 64), (0x2006816C8, 64),
  (0x200681748, 64), (0x2006817C8, 64), (0x200682029, 126), (0x200682031, 31), (0x200682038, 31), (0x200682048, 6),
  (0x200682050, 1), (0x200682058, 1), (0x200682848, 64), (0x2006828C8, 64), (0x200682948, 64), (0x2006829C8, 64),
  (0x200682A48, 64), (0x200682AC8, 64), (0x200682B48, 64), (0x200682BC8, 64), (0x200682C48, 64), (0x200682CC8, 64),
  (0x200682D48, 64), (0x200682DC8, 64), (0x200682E48, 64), (0x200682EC8, 64), (0x200682F48, 64), (0x200682FC8, 64)]
def resetCellsCAN1 : SMap Nat := [
  (0x200683048, 64), (0x2006830C8, 64), (0x200683148, 64), (0x2006831C8, 64), (0x200683248, 64), (0x2006832C8, 64),
  (0x200683348, 64), (0x2006833C8, 64), (0x200683448, 64), (0x2006834C8, 64), (0x200683548, 64), (0x2006835C8, 64),
  (0x200683648, 64), (0x2006836C8, 64), (0x200683748, 64), (0x2006837C8, 64)]
def resetCellsFCU0 : SMap Nat := [
  (0x20080002A, 1), (0x200800040, 30), (0x200800060, 30000), (0x2008000E0, 65535)]
def resetCellsALM0 : SMap Nat := [
  (0x200880020, 63), (0x200880040, 600), (0x200880050, 1000), (0x200880060, 1), (0x200880062, 1), (0x200880063, 1),
  (0x200880064, 1)]

/-- The register file after reset: every field at its reset value. -/
def resetCells : SMap Nat :=
  resetCellsSYS0 ++ resetCellsPWR0 ++ resetCellsTIME0 ++ resetCellsANV0 ++ resetCellsCEC0 ++
  resetCellsCOM0 ++ resetCellsCOM1 ++ resetCellsFBK0 ++ resetCellsFBK1 ++ resetCellsADC0 ++
  resetCellsOUT0 ++ resetCellsCHK0 ++ resetCellsSEAM0 ++ resetCellsFDL0 ++ resetCellsHIF0 ++
  resetCellsCAN0 ++ resetCellsCAN1 ++ resetCellsFCU0 ++ resetCellsALM0

end Sys2Proof
end

