-- ==== Sys2Proof/Machine/Store.lean ====
section
/-! DEFINITION. Reading and writing the sparse maps that hold registers, buffers and memories, and
the canonical form they keep: keys strictly rising, no entry equal to the default. -/
namespace Sys2Proof

/-- The value at a key; an unlisted key reads as the default `d`. -/
def SMap.get {α : Type} (d : α) : SMap α → Nat → α
  | [], _ => d
  | (k', v) :: m, k => if k' = k then v else SMap.get d m k

/-- The map without any entry for a key. -/
def SMap.erase {α : Type} : SMap α → Nat → SMap α
  | [], _ => []
  | (k', v) :: m, k => if k' = k then SMap.erase m k else (k', v) :: SMap.erase m k

/-- Insert an entry before the first larger key. -/
def SMap.insertAt {α : Type} : SMap α → Nat → α → SMap α
  | [], k, v => [(k, v)]
  | (k', v') :: m, k, v =>
    if k < k' then (k, v) :: (k', v') :: m else (k', v') :: SMap.insertAt m k v

/-- Write a key. Writing the default removes the entry, so equal maps are equal lists. -/
def SMap.set {α : Type} [DecidableEq α] (d : α) (m : SMap α) (k : Nat) (v : α) : SMap α :=
  if v = d then SMap.erase m k else SMap.insertAt (SMap.erase m k) k v

/-- Every key of the map is above `lo`, keys rise strictly, and no value is the default. -/
def SMap.wfFrom {α : Type} [DecidableEq α] (d : α) : Nat → SMap α → Bool
  | _, [] => true
  | lo, (k, v) :: m => decide (lo ≤ k) && decide (v ≠ d) && SMap.wfFrom d (k + 1) m

/-- The canonical form of a sparse map. -/
def SMap.wf {α : Type} [DecidableEq α] (d : α) (m : SMap α) : Bool := SMap.wfFrom d 0 m

/-- Write consecutive keys from `k`. -/
def SMap.setMany {α : Type} [DecidableEq α] (d : α) (m : SMap α) (k : Nat) : List α → SMap α
  | [] => m
  | v :: vs => SMap.setMany d (SMap.set d m k v) (k + 1) vs

/-- Read `n` consecutive keys from `k`. -/
def SMap.getMany {α : Type} (d : α) (m : SMap α) (k : Nat) : Nat → List α
  | 0 => []
  | n + 1 => SMap.get d m k :: SMap.getMany d m (k + 1) n

/-- The map without the keys `lo` to `hi − 1`. -/
def SMap.clearRange {α : Type} (m : SMap α) (lo hi : Nat) : SMap α :=
  m.filter fun p => ! (decide (lo ≤ p.1) && decide (p.1 < hi))

end Sys2Proof
end

