-- ==== Sys2Proof/Machine/State.lean ====
section
/-! DEFINITION. The state of the block as plain data: the register file (every field of every register table,
by bit address) and, per block, the state the chapters describe beside the registers. -/
namespace Sys2Proof.Machine

/-- The device states (R13). -/
inductive DevState where
  | boot | assay | standby | active | lee | safe | replay
deriving DecidableEq, Repr, Inhabited

/-- The state of the device as a whole (R13, R411, R537). -/
structure DevSt where
  state : DevState := .boot
  /-- A reset that acts 4,000 ticks after its cause: the CT instant in ticks and the bit of PWR_RSTCAUSE. -/
  resetDue : Option (Nat × Nat) := none
  /-- The word the last bus read returned to its master. -/
  readData : Nat := 0
  /-- The boundary-scan instruction in force (R460): 0 BYPASS, 1 IDCODE, 2 SAMPLE/PRELOAD, 3 EXTEST, 4 INTEST, 5 CLAMP. -/
  scan : Nat := 0
deriving DecidableEq, Repr

/-- Local and cluster time (R35 to R44). Values are in units of 2^−32 tick. -/
structure TimeSt where
  lt : BitVec 96 := 0
  ofs : BitVec 96 := 0
  /-- The remainder of the offset slew (R38). -/
  rem : Int := 0
  fc : BitVec 64 := 0
  /-- Clocks since the frame tick (R47). -/
  ft : Nat := 0
  /-- Edges of the timebase clock since reset (R203). -/
  clk : Nat := 0
  /-- An offset request is armed and not yet loaded (R39). -/
  ofsArmed : Bool := false
  /-- Consecutive cycle boundaries with a non-zero remainder (R39). -/
  backlog : Nat := 0
  /-- The reference failed a guard or did not start since reset: no return to it before the next reset (R42, R534). -/
  fell : Bool := false
  /-- The _H and _F values latched per reading master, for LT and for CT (R41). -/
  shadowLt : SMap (Nat × Nat) := []
  shadowCt : SMap (Nat × Nat) := []
deriving DecidableEq, Repr

/-- A word copy in the move queue (R63, R69). -/
structure Move where
  src : Nat
  dst : Nat
  len : Nat
  /-- The clock on which the copy was queued. -/
  issued : Nat
  /-- For a PUBLISH: the FN and flag word that goes before the copied words (R69, R114); ODIG of the present frame takes them. -/
  publish : Option Nat := none
  digest : Bool := false
deriving DecidableEq, Repr

/-- What one entry gives ODIG (R494): words, and the engine words a PUBLISH has still to copy (engine, first word, number). -/
structure OdigPart where
  words : List Nat
  src : Option (Nat × Nat × Nat) := none
deriving DecidableEq, Repr

/-- A copy of an EXCHANGE with DIR = 1 that still runs (R67): the clock of its end, its destination, its words. -/
structure RxCopy where
  ends : Nat
  dst : Nat
  words : List Nat
deriving DecidableEq, Repr

/-- The Anvil sequencer (R49 to R81). -/
structure AnvSt where
  /-- The frame table: entry number to 128-bit entry (R49). -/
  table : SMap Nat := []
  /-- Table entry to be issued next. -/
  ptr : Nat := 0
  /-- The END entry of this frame has issued, or no frame runs (R55, R79). -/
  endReached : Bool := true
  /-- An AWAIT holds the table. -/
  hold : Bool := false
  /-- LAUNCH entries issue as NOPs until the end of the frame (R80). -/
  launchOff : Bool := false
  /-- First clock on which the next entry may issue (R59: at most one entry per clock). -/
  freeClk : Nat := 0
  /-- An overrun belongs to this frame; the eight frames before it, latest first (R81). -/
  ovrNow : Bool := false
  ovrHist : List Bool := []
  /-- A stop was requested (R77). -/
  stopReq : Bool := false
  /-- RUN stood at 1 at the cycle boundary that the last frame tick made (R75). -/
  runSeen : Bool := false
  /-- A mode switch requested by ANV_MODE_REQ and not yet latched (R76). -/
  modeReq : Option Nat := none
  /-- The copies queued, first in, first out; the head is the copy in progress (R63). -/
  moveQ : List Move := []
  /-- The clock on which the copy before the head ended, with its destination and its length in words (R63, R90). -/
  moveFree : Nat := 0
  moveDst : Nat := 0
  moveLen : Nat := 0
  /-- Copies of EXCHANGE entries with DIR = 1 that still run, in the order of issue (R67). -/
  rxq : List RxCopy := []
  /-- Engines whose start waits for a copy into their data memory: engine and ENTRY (R65). -/
  runWait : List (Nat × Nat) := []
  /-- Modes whose frame program has been written since reset (R50). -/
  written : List Nat := []
  /-- Modes written and not yet validated (R52). -/
  validating : List Nat := []
  /-- Next entry the scrubber reads, and one more than the clock of its last read (R53). -/
  scrub : Nat := 0
  scrubFree : Nat := 0
  /-- Words the RECORD entries of the frame have appended; a RECORD entry did not issue (R71, R493). -/
  snapshot : List Nat := []
  incomp : Bool := false
  /-- What the PUBLISH and LAUNCH entries of the frame give ODIG, in issue order (R494). -/
  odig : List OdigPart := []
  /-- The frame input buffer, by word (R161). -/
  fib : SMap Nat := []
  /-- An entry slipped in this frame (R493). -/
  slipNow : Bool := false
deriving DecidableEq, Repr

/-- A fault to be raised: its code, its axis set (bit n: axis n), the ADDR, MASTER and ACC of R422. -/
structure Raise where
  code : Nat
  axes : Nat := 0xFF
  addr : Nat := 0
  master : Nat := 0
  acc : Nat := 0
deriving DecidableEq, Repr

/-- The fault collection unit (R408 to R428). -/
structure FcuSt where
  /-- Faults raised as a consequence within the command in progress; empty between commands. -/
  todo : List Raise := []
  /-- The clock on which the first-error record was captured (R424). -/
  recAt : Option Nat := none
  /-- The held faults with the reaction each took when last raised (R409, R415). -/
  held : SMap (Option React) := []
  /-- Raises since reset and FN bits 15:0 of the last raise, per code. -/
  count : SMap Nat := []
  lastFn : SMap Nat := []
  /-- The axis set of the last raise, per held code (R410, R427). -/
  axes : SMap Nat := []
  /-- Reactions set through FCU_SCFG.REACT that differ from the default (R411, R412). -/
  react : SMap (Option React) := []
  /-- Class-I sources whose REPORT bit is set (R426). -/
  report : SMap Bool := []
  /-- Class-I sources already raised in this frame (R377, R404). -/
  seen : SMap Bool := []
  /-- Bit n: the supervisor holds a safe-state request for axis n (R413). -/
  supReq : Nat := 0
  /-- The supervisor holds a request against every safe output (R414). -/
  supSo : Bool := false
  /-- Per code the clock of its last raise and whether it was held before it (R429). -/
  struck : SMap (Option (Nat × Bool)) := []
  /-- The faults merged into the first-error record on the clock `mergeAt` (R429). -/
  merged : List Raise := []
  mergeAt : Nat := 0
  /-- CT of entry to LEE while the device is in LEE, the count kept at the last exit and CT of that exit (R418). -/
  leeEntry : Option Nat := none
  leeKept : Nat := 0
  leeExit : Option Nat := none
  /-- The warning of the present Lee period was given. -/
  leeWarned : Bool := false
  /-- FLT_P and FLT_N toggle; the levels driven; a mismatch was found at the last edge instant (R419, R421). -/
  fltOn : Bool := false
  fltP : Bool := false
  fltN : Bool := false
  fltMis : Bool := false
  /-- The number of the FLT edge instant whose levels were last compared (R421). -/
  fltCheck : Option Nat := none
deriving DecidableEq, Repr

/-- The interrupt controller beside its registers (R381 to R392): per target, the source held against lower
numbers by R389. -/
structure IntcSt where
  held : SMap (Option Nat) := []
  /-- Per source, the clock at which the last clear of its EN reaches arbitration (R388). -/
  enOff : SMap Nat := []
  /-- Per target, the clock on which its source was presented. -/
  presAt : SMap Nat := []
  /-- Wake votes that last although their target is awake, or the source's configuration has changed: source and target
  (R390). -/
  votes : List (Nat × Nat) := []
deriving DecidableEq, Repr

/-- A decision that waits for a refill (R400): the OP of its command and the task that ran before it. -/
structure TskWait where
  op : Nat
  former : Option Nat
  ic : Nat
deriving DecidableEq, Repr

/-- One task (R393): STATE 0 DORMANT, 1 WAITING, 2 READY, 3 RUNNING; its ready order; the entry of the spill region that
holds it (R400). -/
structure TaskSt where
  st : Nat := 0
  prio : Nat := 15
  mode : Bool := false
  autoclr : Bool := false
  flags : Nat := 0
  mask : Nat := 0
  hit : Nat := 0
  seq : Nat := 0
  slot : Option Nat := none
deriving DecidableEq, Repr, Inhabited

/-- The SIGNAL entries of one clock (R399): the tasks they name, the tasks and the ready order with the flags set and their
readiness not yet judged, and whether PREEMPT raised its source when it was judged. -/
structure TskMark where
  clk : Nat
  named : List Nat
  tasks : SMap TaskSt
  seqCtr : Nat
  fired : Bool
deriving DecidableEq, Repr

/-- One task unit beside its registers (R393 to R402). -/
structure TskSt where
  tasks : SMap TaskSt := []
  /-- The counter ready orders come from (R394). -/
  seqCtr : Nat := 0
  wait : Option TskWait := none
  /-- The last SIGNAL entries: a command of their clock acts before readiness is judged (R399). -/
  mark : Option TskMark := none
deriving DecidableEq, Repr

/-- A command fetched, validated and waiting to be applied or completed (R359, R362). -/
structure Cmd where
  ring : Nat
  cidx : Nat
  /-- Words 0 to 7 of the descriptor (R360). -/
  desc : List Nat
  /-- The words read at fetch (R361). -/
  data : List Nat
  /-- The clock on which it became ready (R362). -/
  clk : Nat := 0
  /-- The apply frame of a LOAD handed to Crucible or of a READ_STATUS due. -/
  dueFn : Nat := 0
  late : Bool := false
  /-- The clock on which Crucible took the container. -/
  takenAt : Nat := 0
deriving DecidableEq, Repr

/-- The ring unit beside its registers (R356 to R378). -/
structure HifSt where
  /-- Host memory as the device reads and writes it by DMA. -/
  hostMem : List Host.Cell := []
  /-- The apply queue, in the order of fetch (R359). -/
  queue : List Cmd := []
  /-- READ_STATUS commands due and not yet copied out. -/
  status : List Cmd := []
  /-- FN of the last message of each ring (R378). -/
  lastMsg : SMap (Option Nat) := []
  /-- Cycles since a command was last fetched on a LOC = 0 command ring, and HOST_SILENT raised for it (R376). -/
  silent : Nat := 0
  silentUp : Bool := false
  /-- The MSI-X table and pending-bit array of BAR2 (R354). -/
  msix : SMap Nat := (List.range 32).map fun v => (4 * v + 3, 1)
  pba : Nat := 0
  /-- The device had left the cluster at the last boundary (R365). -/
  gone : Bool := false
deriving DecidableEq, Repr

/-- A frame in a CAN transmit queue (R374). -/
structure CanFrame where
  cmd : Cmd
  w3 : Nat
  w4 : Nat
  data : List Nat
  /-- CT in ticks at which it entered the queue. -/
  at' : Nat
deriving DecidableEq, Repr

/-- One CAN controller beside its registers (R372 to R376). -/
structure CanSt where
  txq : List CanFrame := []
  /-- Cycles since each filter last accepted a frame; filters whose timeout was raised since (R376). -/
  age : SMap Nat := []
  timedOut : SMap Bool := []
  /-- The recovery sequence of R375 runs. -/
  recovering : Bool := false
deriving DecidableEq, Repr

/-- What a lease message found when its first copy took effect: the health word, the age and the silence mark of its sender;
the holder, the term and the highest term; the bulk; whether a holder had been seen (R291). -/
structure SeamWas where
  now : Option Nat := none
  word : Nat := 0
  age : Nat := 0
  lostUp : Bool := false
  seen : Bool := false
  holder : Nat := 0
  epoch : Nat := 0
  term : Option Nat := none
  bulk : Nat := 0
  bulkSt : Nat := 0
  bulkGen : Nat := 0
  bulkFor : Nat := 0
  bulkAt : Nat := 0
deriving DecidableEq, Repr, Inhabited

/-- What a channel heard from one other channel (R284, R291 to R306). -/
structure PeerSt where
  /-- The last health word that arrived in this cycle, and in the previous one. -/
  now : Option Nat := none
  prev : Option Nat := none
  /-- The P1 and P2 messages of this cycle that stand; a further copy of either disagreed (R291). -/
  msg1 : Option (List Nat) := none
  msg2 : Option (List Nat) := none
  bad1 : Bool := false
  bad2 : Bool := false
  /-- What the first copy of each found. -/
  was1 : SeamWas := {}
  was2 : SeamWas := {}
  /-- PEER_LOST was raised for the present silence (R302). -/
  lostUp : Bool := false
deriving DecidableEq, Repr, Inhabited

/-- The Seam block and the lease beside the registers (R282 to R311). -/
structure SeamSt where
  /-- Per channel code 1 to 3. -/
  peers : SMap PeerSt := []
  /-- The highest term recognised since reset; none if none. -/
  term : Option Nat := none
  /-- The lease message last sent on every enabled port (R291). -/
  lastTx : List Nat := []
  /-- Sent in this cycle: RENEW; GRANT; TAKE and its term; TGRANT, its candidate and its term. -/
  sentRenew : Bool := false
  sentGrant : Bool := false
  sentTake : Option Nat := none
  sentTgrant : Option (Nat × Nat) := none
  /-- The candidate of the TGRANT sent for each term, 0 none (R295: never two candidates for one EPOCH). -/
  voted : SMap Nat := []
  /-- P1 and P2 of this cycle have passed. -/
  p1Done : Bool := false
  p2Done : Bool := false
  /-- Cycles waited with EPOCH 31 before TAKE (R295). -/
  takeWait : Nat := 0
  /-- Whole cycles listened, none before the listening begins; a holder or an active claim was seen; decided (R286). -/
  listened : Option Nat := none
  holderSeen : Bool := false
  setDone : Bool := false
  /-- The channel whose lease lapsed, until its guard has ended (R284). -/
  lapsed : Option Nat := none
  /-- A partner or worker reported obeying a claim of 0x80 or above in this cycle (R295). -/
  obey80 : Bool := false
  /-- The clock of the last cycle boundary; the lease was held then. -/
  cycleClk : Nat := 0
  held : Bool := false
  /-- STANDBY_OK was written in OBSERVER and acts at the next boundary (R306). -/
  standbyOk : Bool := false
  /-- RESYNC was written and no bulk has begun; a resync runs; it has completed (R306). -/
  bulkReq : Bool := false
  resync : Bool := false
  resynced : Bool := false
  /-- A bulk was received with matching CRC; state copies applied since then. -/
  bulkDone : Bool := false
  copiesAfter : Nat := 0
  /-- Bulk reception: generation, next segment. Bulk sending: generation, requester. -/
  bulkGen : Nat := 0
  bulkNext : Nat := 0
  bulkFor : Nat := 0
  /-- The clock of the first segment of the bulk, of its first generation; the segments sent before `linkAt`, and the time from which the link is
  free for the next, in fifths of a clock (R302, R306). -/
  bulkAt : Nat := 0
  bulkCount : Nat := 0
  linkAt : Nat := 0
  /-- The Seam transmit buffer: CN of the snapshot, its words, clocks of its end; sent in full (R301). -/
  txCn : Nat := 0
  txBuf : List Nat := []
  txEnd : Nat := 0
  /-- A snapshot was taken in this cycle, in the previous one, and whether it was sent in full. -/
  snapNow : Option Bool := none
  snapPrev : Option Bool := none
  /-- A state copy in reception: its TAG, next segment; complete; the TAG applied last, and the one before it; the TAGs of
  the last complete copies. -/
  rxTag : Option Nat := none
  rxNext : Nat := 0
  rxDone : Bool := false
  /-- CN of the boundary at which a copy was last missed; the consecutive missed copies before the copy applied last (R301). -/
  missCn : Option Nat := none
  missWas : Nat := 0
  applied : Option Nat := none
  appliedPrev : Option Nat := none
  rxTags : List Nat := []
  copyOk : Bool := false
  /-- Slice self-test (R303): the next slice, cycles since a test fell due, slices of this round, last tested, a failure
  since reset. -/
  slice : Nat := 0
  sliceWait : Nat := 0
  sliceRound : Nat := 0
  sliceLast : Nat := 0
  sliceFail : Bool := false
  /-- Current command claims at a worker: claim to cycles left (R289). -/
  claims : SMap Nat := []
  /-- The claim of the command payload accepted last (R323). -/
  accClaim : Nat := 0
  /-- The cycle that ended had no current manager claim and NO_MGR_CLAIM was not raised for it (R290). -/
  noClaimDue : Bool := false
  /-- The cycle that ended had no STANDBY peer and LAST_CHANNEL was not raised for it (R296). -/
  aloneDue : Bool := false
deriving DecidableEq, Repr

/-- A slot's transmit buffer that is full: its payload and the CT in ticks at which the copy into it ended (R323). -/
structure TxBuf where
  words : List Nat
  at' : Nat
deriving DecidableEq, Repr

/-- A frame this device sent last: slot, header H1 to H7, payload; none for a null frame (R315). -/
structure FdlSent where
  slot : Nat
  node : Nat
  star : Nat
  mode : Nat
  claim : Nat
  h5 : Nat
  h6 : Nat
  h7 : Nat
  cn : Nat
  payload : Option (List Nat)
  /-- The ports it was sent on, the CT in eighths of a tick at which each started it, and the HOPS it started with. -/
  ports : List Nat
  starts : List Nat
  hops : Nat
deriving DecidableEq, Repr

/-- A frame this device relays as a coupler: its slot, the port it came by, the HOPS it leaves with, the output ports with
the CT in eighths of a tick at which each starts it; cut off, so that it ends in K30.7 (R321, R326 to R328). -/
structure Relayed where
  slot : Nat
  src : Nat
  hops : Nat
  outs : List (Nat × Nat)
  cut : Bool := false
deriving DecidableEq, Repr

/-- The receive buffer of a slot: the port the payload came by, CN of the cycle it was accepted in, its words (R324). -/
structure RxBuf where
  port : Nat
  cn : Nat
  words : List Nat
deriving DecidableEq, Repr

/-- A mode proposal of this device (R340). -/
structure Proposal where
  mode : Nat
  /-- A frame carrying PV was sent; readiness is gathered; nodes ready (STAR × 64 + NODE); cycles since PROP; CV is
  carried in this cycle. -/
  sent : Bool := false
  gather : Bool := false
  ready : List Nat := []
  cycles : Nat := 0
  commit : Bool := false
deriving DecidableEq, Repr

/-- What a node knows of another node, by STAR × 64 + NODE (R329, R336, R340, R343). -/
structure NodeSt where
  heard : Bool := false
  /-- It has been heard in its slots since it was last silent for LOSS_CYC cycles (R349). -/
  known : Bool := false
  silent : Nat := 0
  /-- The claim of its last frame and the cycles it stays current (R287, R340). -/
  claim : Nat := 0
  left : Nat := 0
  /-- ACC_CLAIM of its status word of this cycle (R293). -/
  acc : Option Nat := none
  /-- EDGE in this cycle and in the 16 before it, latest first. -/
  edge : Bool := false
  edges : List Bool := []
deriving DecidableEq, Repr, Inhabited

/-- One Fudorlink port beside its registers (R312, R314, R330). -/
structure PortSt where
  /-- The delay was measured within its limit; a new DLY waits for the next boundary; a measurement runs; cycles since the
  last one. -/
  measured : Bool := false
  newDly : Option Nat := none
  measuring : Bool := false
  cycles : Nat := 0
  /-- The port babbled in this cycle; consecutive cycles with babbling; cycles without. -/
  babble : Bool := false
  run : Nat := 0
  quiet : Nat := 0
  /-- The slot of the frame that arrives at this port; STAR of the managers whose command frames come by an uplink. -/
  relay : Option Nat := none
  star : Option Nat := none
deriving DecidableEq, Repr, Inhabited

/-- The Fudorlink unit beside its registers (R312 to R351). -/
structure FdlSt where
  /-- The mode regions by word: 1024 m + word (R318); FRAME_TICKS and CYCLE_FRAMES their containers were signed under. -/
  region : SMap Nat := []
  signed : SMap (Nat × Nat) := []
  tx : SMap (Option TxBuf) := []
  /-- The receive buffers, by slot (R324, R67). -/
  rx : SMap (Option RxBuf) := []
  rxok : Nat := 0
  sent : Option FdlSent := none
  /-- The frame relayed last. -/
  relayed : Option Relayed := none
  nodes : SMap NodeSt := []
  ports : SMap PortSt := []
  /-- Deviations of this cycle, in eighths, by STAR × 64 + NODE; R333 was computed for this cycle (R332). -/
  devs : SMap (Option Int) := []
  /-- The sync nodes whose first accepted copy of this cycle lay beyond GUARD. -/
  devOut : List Nat := []
  computed : Bool := false
  misses : Nat := 0
  /-- Consecutive cycles within SYNC_TH in INTEGRATE; cycles in LISTEN without a sync frame; in COLDSTART; a sync frame
  was heard in this cycle. -/
  good : Nat := 0
  cold : Nat := 0
  coldCyc : Nat := 0
  syncHeard : Bool := false
  prop : Option Proposal := none
  /-- The mode the proposer proposes to this node; the commit heard in this cycle; the switch agreed (R340). -/
  heardProp : Option Nat := none
  heardCommit : Option Nat := none
  agreed : Option Nat := none
  /-- Frames of the proposer accepted but for MODE in this cycle, and one with this node's mode; the cycle that ended split
  (R341). -/
  propFrame : Bool := false
  propMode : Bool := false
  splitDue : Bool := false
  /-- Per slot: consecutive failing payloads; cycles without an accepted payload; the fault was raised (R344). -/
  gFail : SMap Nat := []
  /-- Slot and sender of the frames of this cycle whose payload failed: copies of one frame count once (R317, R344). -/
  gSeen : List (Nat × Nat) := []
  gWait : SMap Nat := []
  gUp : SMap Bool := []
  /-- The node leaves the cluster (R346); the star port the JOIN slot is open for (R345). -/
  leaving : Bool := false
  joinPort : Nat := 0
deriving DecidableEq, Repr

/-- A record of Almanac SRAM or of the live stream: its KIND, FN and bytes (R493 to R505). -/
structure AlmRec where
  kind : Nat
  fn : Nat
  words : List Nat
  /-- The session key it was encrypted under, counted since reset (R485). -/
  sess : Nat := 0
deriving DecidableEq, Repr

/-- The Almanac beside its registers (R492 to R512). -/
structure AlmSt where
  ring : List AlmRec := []
  keys : List AlmRec := []
  sessions : List AlmRec := []
  trigger : Option AlmRec := none
  /-- Frame records still to be written after the trigger frame's (R501). -/
  postLeft : Nat := 0
  /-- The trigger frame's own record has been written. -/
  trigWritten : Bool := false
  /-- FC and CT of the trigger, and POST as it stood (R502). -/
  trigFc : Nat := 0
  trigCt : Nat := 0
  trigPost : Nat := 0
  /-- The record of the present frame has been written. -/
  recNow : Bool := false
  /-- ALM_NOKEY was raised since reset; a frame of the Anvil has begun. -/
  nokeyUp : Bool := false
  /-- The keyframe due was late and is attempted again (R496). -/
  keyRetry : Bool := false
  keyTaken : Bool := false
  /-- Marks of the present frame: an engine took up contents, trace coverage changed, records missing. -/
  loadNow : Bool := false
  grantNow : Bool := false
  /-- CTL of each axis in the previous frame (R495). -/
  prevCtl : SMap Nat := []
  /-- Delivery-log entries of the present frame: IC, source, pair, mcause (R495). -/
  deliveries : List (Nat × Nat × Nat × Nat) := []
  /-- A finished frame record not yet written when the next is due (R512). -/
  pendingRec : Bool := false
  /-- The dump: records still to be sent, records sent, the chained digest (R504, R505). -/
  dumpLeft : List AlmRec := []
  dumpSent : Nat := 0
  dumpHash : List Nat := []
  /-- The recording key, its KEYID and its 8 words, installed now or from the next frame (R484). -/
  kr : Option Nat := none
  krNext : Option Nat := none
  krKey : List Nat := []
  krKeyNext : List Nat := []
  /-- The session key S: its number, its 8 words, RID (R485). Its SESSION record waits for the first frame recorded under it (R500). -/
  session : Nat := 0
  skey : List Nat := []
  rid : Nat := 0
  sessionOn : Bool := false
  sessDue : Bool := false
  /-- The Fudorlink unit has loaded CT: a session begins with the next frame (R338, R485). -/
  loadDue : Bool := false
  /-- Replay (R507 to R510): the frame records to come (FN, LOAD, mode, ODIG, payload, CTL and SP words), checked. -/
  rpFrames : List AlmRec := []
  rpKey : Option AlmRec := none
  rpOn : Bool := false
  /-- KEYID of the REPLAY token; CAUSE at the end of the input; the record of the frame being replayed; what each axis
  reads through the active alias: word i of axis n at 64 n + i (R509). -/
  rpKeyId : Nat := 0
  rpEnd : Nat := 0
  rpNow : Option AlmRec := none
  rpView : SMap Nat := []
deriving DecidableEq, Repr

/-- The contents a completed load gives an engine at the frame tick it takes them up (R92, R93). -/
structure EngLoad where
  /-- The whole program, page classes and nodes; none for a SEALED load, which leaves them. -/
  program : Option (List Nat × List Nat × List Nat × Nat) := none
  /-- Coefficient words: index and 40-bit word. -/
  coefs : List (Nat × Nat) := []
deriving DecidableEq, Repr

/-- One control engine (R86 to R125). -/
structure EngSt where
  data : SMap Nat := []
  prog : SMap Nat := []
  coef : SMap Nat := []
  nodes : SMap Nat := []
  acc0 : Int := 0
  acc1 : Int := 0
  acc2 : Int := 0
  acc3 : Int := 0
  sat : Bool := false
  /-- The Forecast flag of this run and of the previous completed run (R117). -/
  fcst : Bool := false
  fcstPrev : Bool := false
  pc : Nat := 0
  /-- Engine cycles of the run so far, the 4 of its start included (R110). -/
  cycles : Nat := 0
  /-- FT of the start of the run. -/
  startClk : Nat := 0
  /-- Halted at an error (R125); END has retired. -/
  halted : Bool := false
  ended : Bool := false
  /-- FC of the frame of the last completed run, none once another run has started (R112, R114); FC of the frame in which
  the engine was last stopped (R113). -/
  doneFc : Option Nat := none
  stopFc : Option Nat := none
  load : Option EngLoad := none
deriving DecidableEq, Repr, Inhabited

/-- The control engines' common state: trace SRAM by word, and the coverage in force: the highest
class and the engines covered (R121, R481). -/
structure CecSt where
  trace : SMap Nat := []
  cover : Option (Nat × Nat) := none
deriving DecidableEq, Repr

/-- The single-shunt plan of one falling half (R134) and the samples taken so far. -/
structure ShuntPlan where
  /-- CT of the peak and of the valley that ends the half, in ticks. -/
  peak : Nat
  valley : Nat
  /-- The phases f, m and l: 0 a, 1 b, 2 c. -/
  f : Nat
  m : Nat
  l : Nat
  wa : Int
  wb : Int
  /-- Start and close of each window. -/
  atA : Nat
  atB : Nat
  closeA : Nat
  closeB : Nat
  /-- A window was requested and its conversion is still to come. -/
  dueA : Bool
  dueB : Bool
  sa : Option Int := none
  sb : Option Int := none
deriving DecidableEq, Repr

/-- COM of one axis beside its registers (R134 to R152). -/
structure ComSt where
  plan : Option ShuntPlan := none
  /-- The last completed shunt set, words 0 to 7 with FRESH 0, and FRESH (R136). -/
  set : List Nat := []
  fresh : Bool := false
  /-- Consecutive results beyond VDC_HI1, VDC_HI2 and VDC_TRIP in the direction awaited (R147); the filtered
  link is above VDC_TRIP. -/
  run1 : Nat := 0
  run2 : Nat := 0
  run3 : Nat := 0
  above : Bool := false
  /-- CT in ticks of the last chopper command, or of CH_EN becoming 1, and the result that turned it on (R149). -/
  chopAt : Nat := 0
  chopVal : Int := 0
  /-- The CH_TCHK check of the last turn-on was made (R149). -/
  chopChecked : Bool := false
  /-- CT in ticks of the last DC-link result compared (R147). -/
  vdcAt : Nat := 0
  /-- Results of the DC-link source, and of the chopper-current source, that arrived and are still to be compared, the
  first one first: CT in ticks and code (R147, R149). -/
  vdcIn : List (Nat × Int) := []
  ichIn : List (Nat × Int) := []
  /-- CHOPPER_FAULT was raised since the axis last left DISABLED (R141). -/
  chopSince : Bool := false
deriving DecidableEq, Repr, Inhabited

/-- A group conversion that waits for its ADC (R182, R183). -/
structure GConv where
  g : Nat
  k : Nat
  ch : Nat
  /-- CT in ticks of the trigger and of the place in the back-to-back order. -/
  trig : Nat
  due : Nat
  /-- Its wait has set GDEFER (R183). -/
  noted : Bool := false
deriving DecidableEq, Repr

/-- A SAMPLE of the present clock (R184): its group and KIND, the running number of the group's SAMPLE before it and the GDEFER bit
it latched. -/
structure Sampled where
  clk : Nat
  g : Nat
  kind : Nat
  last : Nat
  gdefer : Bool
deriving DecidableEq, Repr

/-- One sigma-delta input: the three integrators and the last values before the three differences, the last modulator
bit and the modulator clocks since the last transition (R185, R187). -/
structure SincSt where
  i1 : Nat := 0
  i2 : Nat := 0
  i3 : Nat := 0
  p1 : Nat := 0
  p2 : Nat := 0
  p3 : Nat := 0
  last : Bool := false
  same : Nat := 0
deriving DecidableEq, Repr, Inhabited

/-- The ADC block beside its registers (R180 to R188). -/
structure AdcSt where
  /-- CT in ticks from which each ADC is free, and from which it has been held without a gap. -/
  free : SMap Nat := []
  heldFrom : SMap Nat := []
  sampled : List Sampled := []
  /-- Waiting group conversions. -/
  wait : List GConv := []
  /-- A running number per completed result: of ADC channel c at key c, of sigma-delta input n at 64 + n; of the
  last SAMPLE of group g at 128 + g (R184). -/
  seqCtr : Nat := 0
  seq : SMap Nat := []
  gdefer : Nat := 0
  /-- Results of each sigma-delta input since EN, up to 3 (R185). -/
  sdCount : SMap Nat := []
  /-- The clock of the first rising edge of each SDCK output since EN (R185). -/
  sdCk : SMap Nat := []
  /-- Of each enabled input: one more than the clock on which its decimation period ends, 0 while its modulator clock
  stands, and the modulator clocks its period then still takes (R185). -/
  sdEnd : SMap Nat := []
  sdLeft : SMap Nat := []
  /-- The filter of each input (R185). -/
  sinc : SMap SincSt := []
  /-- One more than CT in ticks of the last trigger of each group (R182). -/
  trigd : SMap Nat := []
  /-- Sensor supplies switched off by R188 until EN is written again. -/
  ssupOff : Nat := 0
  /-- Levels of the general-purpose inputs at the last CAPTURE that read them. -/
  gpi : Nat := 0
deriving DecidableEq, Repr

/-- What REARM of a feedback channel replaces (R178). -/
structure FbKept where
  pos : Nat := 0
  valid : Bool := false
  hist : List Nat := []
  edges : Int := 0
  wfull : Bool := false
  illHist : List Nat := []
  illCnt : Nat := 0
  idxRef : Bool := false
  dirChg : Bool := false
  idxSeen : Bool := false
  frozen : Bool := false
  ssiErr : Bool := false
  hallBad : Bool := false
  los : Bool := false
  ampBad : Bool := false
  missing : Bool := false
  dirSince : Bool := false
  bad : Nat := 0
deriving DecidableEq, Repr, Inhabited

/-- One feedback channel beside its registers (R164 to R179). -/
structure FbSt where
  /-- Filtered levels: A, B, Z, or U, V, W. -/
  a : Bool := false
  b : Bool := false
  z : Bool := false
  /-- Position: 32-bit count, SSI value of up to 40 bits, or turns and angle. -/
  pos : Nat := 0
  valid : Bool := false
  rev : Bool := false
  dirChg : Bool := false
  idxSeen : Bool := false
  idxRef : Bool := false
  frozen : Bool := false
  ssiErr : Bool := false
  hallBad : Bool := false
  los : Bool := false
  ampBad : Bool := false
  idxPos : Nat := 0
  missing : Bool := false
  /-- A step was counted since REARM; the direction changed since the last accepted index. -/
  stepped : Bool := false
  dirSince : Bool := false
  /-- Illegal transitions of this frame and of the frames before it, latest first (R166). -/
  illHist : List Nat := []
  /-- The position history, latest first, and EDGES (R174). -/
  hist : List Nat := []
  edges : Int := 0
  wfull : Bool := false
  stamp : Nat := 0
  /-- The last valid Hall index, and CT in ticks of the last change of state (R169). -/
  hallIdx : Option Nat := none
  hallAt : Nat := 0
  /-- The last valid SSI value, the transfer in progress by its T0, consecutive bad transfers or samples. -/
  ssiLast : Option Nat := none
  ssiT0 : Option Nat := none
  /-- T0 of the last transfer started (R170), and the last conversion instant of a resolver or sin/cos channel served
  (R172), in ticks of CT; CT in ticks when software last wrote the configuration of the channel. -/
  ssiAt : Option Nat := none
  smpAt : Option Nat := none
  cfgAt : Nat := 0
  bad : Nat := 0
  /-- Magnitude and last angle of a resolver or sin/cos channel (R172). -/
  mag : Nat := 0
  ang : Option Nat := none
  /-- The clocks of the last REARM, CAPTURE and frame tick of the channel, and the DIR_CHG and IDX_SEEN bits that
  CAPTURE latched (R179). -/
  rearmAt : Option Nat := none
  capAt : Option Nat := none
  capDir : Bool := false
  capIdx : Bool := false
  tickAt : Option Nat := none
  /-- What the last REARM replaced, for a CAPTURE or a count of its clock (R179). -/
  kept : FbKept := {}
deriving DecidableEq, Repr, Inhabited

/-- The states of a bridge leg (R197). -/
inductive Leg where
  | off | upper | lower
deriving DecidableEq, Repr, Inhabited

/-- One leg: its state, its switches, the turn-on that waits and when each switch went off (eighths of a tick). -/
structure LegSt where
  st : Leg := .off
  up : Bool := false
  lo : Bool := false
  onAt : Option Nat := none
deriving DecidableEq, Repr, Inhabited

/-- The kinds of downlink word (R204). -/
inductive GlWord where
  | none | heartbeat | block | setup
deriving DecidableEq, Repr, Inhabited

/-- The outputs of one axis beside the registers (R196 to R211). -/
structure OutSt where
  /-- The block in force and the pending blocks: CT instant in ticks and words 0 to 6 (R198). -/
  block : List Nat := []
  pend : List (Nat × List Nat) := []
  legA : LegSt := {}
  legB : LegSt := {}
  legC : LegSt := {}
  /-- CT in ticks after which half-periods are executed (R199). -/
  since : Nat := 0
  /-- Blocked by a TRIP latch until the axis passes through DISABLED (R202). -/
  tripHeld : Bool := false
  /-- Gate link: the clock GLEN was set, the word in progress with the clock after its last character, the characters
  of that word, SEQ, the MODE of the last heartbeat (R203 to R207). -/
  gridAt : Nat := 0
  word : GlWord := .none
  wordEnd : Nat := 0
  chars : List Nat := []
  hbSeq : Nat := 0
  mode : Nat := 0
  /-- The running disparity of the downlink before the word in progress is positive (R203); MODE was RUN since the last
  heartbeat word started (R207). -/
  disp : Bool := false
  ran : Bool := false
  /-- Words other than block words since the last setup word, setup words since the last measurement, the next of
  parameters 0 to 2, an echo request or CLEAR to be sent, the echo value awaited (R208, R210). -/
  sinceSetup : Nat := 0
  setups : Nat := 0
  param : Nat := 0
  echoDue : Bool := false
  clearDue : Bool := false
  echoVal : Nat := 0
  echoWait : Bool := false
  /-- Consecutive valid uplink words of a training, the latencies it measured; a remeasurement runs. -/
  goodWords : Nat := 0
  lat : List Nat := []
  remeasure : Bool := false
  /-- The clock on which the last valid uplink word arrived, and the last status word (R293). -/
  lastUp : Nat := 0
  statAt : Nat := 0
deriving DecidableEq, Repr, Inhabited

/-- A safe output beside its registers (R216 to R218): the switch under test (true: the low side) with both commands at
its start, and the switch the next test takes. -/
structure SoSt where
  test : Option (Bool × Bool × Bool) := none
  nextLow : Bool := false
  /-- The commands of the high and the low side, the clock of their last change, and whether the read-back after it is
  still to be compared (R217). -/
  hs : Bool := false
  ls : Bool := false
  cmdAt : Nat := 0
  check : Bool := false
  /-- The clock on which TPEN was set or the last test pulse started (R218). -/
  testAt : Nat := 0
deriving DecidableEq, Repr, Inhabited

/-- An axis of the axis unit beside its registers (R223 to R235). -/
structure AxisSt where
  /-- Which of the two setpoint banks is active, and their words: word i of bank b at 64 b + i (R64). -/
  act : Nat := 0
  bank : SMap Nat := []
  /-- The source has written the pending bank in this cycle (R225). -/
  written : Bool := false
  /-- The REQ of the block that was fresh at the swap of this frame tick. -/
  freshReq : Option Nat := none
  /-- SP_STALE arises at this boundary; it was raised in this run without a fresh block (R231). -/
  staleDue : Bool := false
  staleUp : Bool := false
  /-- Frame ticks in a row with GUST; GUST_LONG was raised for them (R247). -/
  gustRun : Nat := 0
  gustUp : Bool := false
  /-- Cycles in STOPPING; STOP_TIMEOUT was raised for this stop (R233). -/
  stopCycles : Nat := 0
  stopUp : Bool := false
  /-- Flying-start failures; the retry waits for the next cycle boundary; AXIS_REFUSED was raised for this RUN edge. -/
  fsTries : Nat := 0
  fsWait : Bool := false
  refusedUp : Bool := false
  /-- The channel role was ACTIVE or STANDBY at the last frame tick (R231). -/
  roleRan : Bool := false
  /-- A block with REQ = DISABLE was fresh since entry to SAFE (R234). -/
  disableSeen : Bool := false
  /-- This is the first frame in STATE; the control word CTL of this frame (R224). -/
  first : Bool := true
  ctl : Nat := 0
deriving DecidableEq, Repr, Inhabited

/-- A store in a release buffer (R256). -/
structure RelStore where
  addr : Nat
  mask : Nat
  data : Nat
deriving DecidableEq, Repr

/-- A marked checkpoint (R258): its IC, CPID, source, the main core's signature, CT of the mark in ticks, the stores it
covers, and whether it is a scrub checkpoint. -/
structure Mark where
  ic : Nat
  cpid : Nat
  src : Nat
  sig : Nat
  at' : Nat
  stores : Nat
  scrub : Bool
deriving DecidableEq, Repr

/-- The delivery of a trap recorded for the checker (R265). -/
structure Delivery where
  ic : Nat
  mcause : Nat
  src : Nat
  /-- A debug request, which has no mcause and no source. -/
  debug : Bool := false
deriving DecidableEq, Repr

/-- A core's own state as far as debug, resync and image loading reach it: private memory (R253), registers by number
(x at 0, f at 32, pc at 64, CSRs from 4096) and the mcause of the last trap CHK made it take (R255, R265). -/
structure CoreSt where
  mem : List Host.Cell := []
  regs : SMap Nat := []
  trap : Option Nat := none
deriving DecidableEq, Repr, Inhabited

/-- One application pair beside its registers (R252 to R278). -/
structure PairSt where
  mainIc : Nat := 0
  chkIc : Nat := 0
  /-- The release buffer, oldest first, and the signature since the last checkpoint (R256, R257). -/
  buf : List RelStore := []
  sig : Nat := 0xFFFFFFFFFFFFFFFF
  /-- The checker's signature since the last checkpoint, and its stores since then, for forwarding (R256, R257). -/
  chkSig : Nat := 0xFFFFFFFFFFFFFFFF
  chkBuf : List RelStore := []
  /-- CT in ticks since which the main core stalls at LAG_MAX (R254, R261); the clock on which it resumes after an
  exchange (R263); it waits in wfi (R266). -/
  lagAt : Option Nat := none
  resumeAt : Nat := 0
  wfi : Bool := false
  /-- The signature FIFO, oldest first; a seventeenth mark, at which the main core stalls (R258). -/
  fifo : List Mark := []
  stalled : Option Mark := none
  lastMark : Option Nat := none
  /-- Agreed releases still to drain: the IC of the checkpoint and its stores. -/
  drain : List (Nat × List RelStore) := []
  /-- The delivery log (R265). -/
  log : List Delivery := []
  /-- Frames since the last scrub mark; the next mark is a scrub checkpoint; its hashes are awaited (R275). -/
  scrubCnt : Nat := 0
  scrubDue : Bool := false
  scrubWait : Bool := false
  /-- A resync runs; the FC of the last resync (R276). -/
  resync : Bool := false
  resyncFc : Option Nat := none
  /-- Halted by a debugger at this IC; its changes still to be applied to the checker (R278). -/
  halted : Option Nat := none
  dbgLog : List (Nat × Nat × Nat) := []
  main : CoreSt := {}
  chk : CoreSt := {}
  /-- Comparators that failed Assay since reset: bit 0 A, bit 1 B (R274). -/
  failed : Nat := 0
  /-- The cores are released at the reset vector. -/
  released : Bool := false
deriving DecidableEq, Repr, Inhabited

/-- CHK as a whole: outputs that a transfer moved, the pair each was moved to (1: Y), transferred bits that still hold a value, that value,
and the frame ticks left (R269). -/
structure ChkSt where
  moved : Nat := 0
  movedTo : Nat := 0
  hold : Nat := 0
  holdVal : Nat := 0
  holdLeft : Nat := 0
deriving DecidableEq, Repr

/-- What waits for Crucible (R361, R448, R452, R459, R491): the container of a LOAD descriptor, the words of the token window, the
index of a container nested in the booted image, a HALLMARK descriptor taken behind these. -/
inductive CrucSrc where
  | ring (c : Cmd)
  | window (words : List Nat)
  | nested (i : Nat)
  | hallmark (c : Cmd)
deriving DecidableEq, Repr

/-- A trace right in force or waiting (R473, R477): role, TRCLASS, ENGMASK, the frames left to it, its TKC. -/
structure Grant where
  role : Nat
  cls : Nat
  mask : Nat
  ends : Option Nat
  tkc : Nat
deriving DecidableEq, Repr

/-- A mailbox command in progress (R462): its number, ARG0 to ARG2 as they stood, the clock on which it reached Crucible. -/
structure MboxCmd where
  cmd : Nat
  args : List Nat
  clk : Nat
deriving DecidableEq, Repr

/-- Crucible, the fuses and the flash beside the registers (R433 to R466, R473 to R489). -/
structure SecSt where
  /-- Blown copies of each fused bit (R434, R438): lifecycle 0 to 3, slot revocation 4 to 7, SPLIT 8, SPLIT_LOCK 9, GRADE 10 and 11,
  step i of counter k at 64 + 64 k + i, step i of TKC at 320 + i. -/
  fuses : SMap Nat := []
  /-- The last bit blown and the clock from which its three copies were; the bit whose write the last reset cut off (R434). -/
  blown : Option (Nat × Nat) := none
  torn : Option Nat := none
  /-- H_R and H_S of the programmed slots (R440), 24 words each. -/
  keys : SMap (List Nat) := []
  /-- Fields found with an uncorrectable error (R437, R438): slots, the DRS, counters (bit 4: TKC). -/
  badSlots : Nat := 0
  drsBad : Bool := false
  badCtr : Nat := 0
  /-- The boot ROM found the lifecycle field unreadable or DEAD: Crucible serves nothing (R437). -/
  lcDown : Bool := false
  /-- The DRS, 8 words, none before it is generated; the DTK private key as the identity block holds it (R435, R439). -/
  drs : List Nat := []
  dtk : List Nat := []
  /-- The serial number, and whether it is fused (R435, R438). -/
  serial : Nat := 0
  serialFused : Bool := true
  /-- Bytes of the flash (R451). -/
  flash : Nat := 0x2000000
  bcb0 : Bcb := {}
  bcb1 : Bcb := {}
  slotA : Option Container := none
  slotB : Option Container := none
  /-- The booted slot and the container it was booted from (R453). -/
  booted : Option Nat := none
  image : Option Container := none
  /-- The user area of the flash, by byte; an erased byte reads 0xFF. -/
  user : SMap Nat := []
  /-- What waits for Crucible, the first one in process (R448, R491). -/
  queue : List CrucSrc := []
  /-- The mode of a SCHEDULE container whose validation runs, with the first failing check of its mode region (R325). -/
  sched : Option Nat := none
  /-- The target of the ENGINE or SEALED container in process that has been accepted but not yet reported complete (R93). -/
  accepted : Option Nat := none
  /-- Engines that a refused nested SEALED container keeps unloaded (R491). -/
  sealBar : Nat := 0
  /-- The mailbox command in progress, and the clock on which the window was submitted (R461, R462). -/
  mbox : Option MboxCmd := none
  winClk : Nat := 0
  trngFail : Bool := false
  /-- The role of the debugger path (R468). -/
  dbgRole : Option Nat := none
  grant : Option Grant := none
  grantNext : Option Grant := none
  /-- The REPLAY token in force (R487). -/
  replay : Option Grant := none
  /-- D of the last ENGINE and of the last SEALED container, by engine (R489). -/
  engD : SMap (List Nat) := []
  seaD : SMap (List Nat) := []
  /-- The token window by word (R466). -/
  tokwin : SMap Nat := []
deriving DecidableEq, Repr

/-- The power states (R519) and the stages of a start (R533): rails rising, the wait before a retry. -/
inductive PState where
  | run | sleep | deepSleep | off | starting | waiting
deriving DecidableEq, Repr, Inhabited

/-- A bus access (R526, R546): the aligned double word, the bytes it takes and the data of a write; the outcome of a
flash operation that the write starts (R462); the IC of the checkpoint that released it (R401); what ECC shows over the words of
a read (R125, R410). -/
structure BusOp where
  m : Master
  st : RelStore
  write : Bool
  ic : Nat := 0
  ecc : WordEcc := .ok
deriving DecidableEq, Repr

/-- The rails that V5 feeds, and V5 (R518). -/
inductive Rail where
  | v5 | vsram | vcore | vio18 | vio33
deriving DecidableEq, Repr, Inhabited

/-- The order in which the rails start (R518). -/
def railOrder : List Rail := [.v5, .vsram, .vcore, .vio18, .vio33]

/-- The PWR block beside its registers (R516 to R543). -/
structure PwrSt where
  mode : PState := .run
  /-- The rails at power good, in the order in which they started (R518). -/
  rails : List Rail := railOrder
  /-- RST_N is low (R537); every powered core waits in wfi (R519). -/
  rstLow : Bool := false
  idle : Bool := false
  /-- The bit of PWR_RSTCAUSE of the start in progress (R537). -/
  cause : Nat := 0
  /-- After WAKE_FAIL no attempt starts before the wake source was inactive (R533). -/
  blocked : Bool := false
  /-- The clock of the timebase has not yet moved to its reference since power good, nor failed to (R534). -/
  refWait : Bool := true
  refAt : Nat := 0
  /-- The registers saved at entry to Deep Sleep, by bank (R530). -/
  banks : SMap (List (Nat × Nat)) := []
  /-- Accesses that wait for their domain, in the order they came (R526). -/
  stalled : List BusOp := []
  /-- Access votes (R526), CT in ticks at which a domain reached OFF, and at which it went UP (R525, R526). -/
  access : Nat := 0
  offAt : SMap Nat := []
  upAt : SMap Nat := []
  /-- The operating point a change in progress goes to, and a point pending (R528, R529). -/
  dvfs : Option Nat := none
  dvfsNext : Option Nat := none
  /-- The points of the core clock and of VCORE as last confirmed by power good (R528). -/
  clkPoint : Nat := 0
  vPoint : Nat := 0
  /-- CT in ticks at which the change of point in progress began (R528). -/
  dvfsAt : Nat := 0
  /-- The level of the SPLIT_N pin (R277, R554); the wake timer is active (R522). -/
  splitN : Bool := true
  timer : Bool := false
  /-- The watchdog (R538): the clock its count runs from; a kick gave it; half the timeout was reported; expired. -/
  wdtAt : Nat := 0
  wdtKicked : Bool := false
  wdtHalf : Bool := false
  wdtOver : Bool := false
deriving DecidableEq, Repr

/-- The whole block. -/
structure State where
  /-- The register file: every field of the register tables, by bit address. -/
  regs : SMap Nat := resetCells
  dev : DevSt := {}
  time : TimeSt := {}
  anv : AnvSt := {}
  eng : SMap EngSt := []
  cec : CecSt := {}
  com : SMap ComSt := []
  fb : SMap FbSt := []
  adc : AdcSt := {}
  out : SMap OutSt := []
  so : SMap SoSt := []
  axs : SMap AxisSt := []
  pair : SMap PairSt := []
  chk : ChkSt := {}
  fcu : FcuSt := {}
  intc : IntcSt := {}
  tsk : SMap TskSt := []
  hif : HifSt := {}
  can : SMap CanSt := []
  seam : SeamSt := {}
  fdl : FdlSt := {}
  alm : AlmSt := {}
  sec : SecSt := {}
  pwr : PwrSt := {}
  /-- Shared SRAM, byte by byte (R545, R569). -/
  mem : List Host.Cell := []
  /-- The model's own counter of free values (notes/assumptions/2.md). -/
  fresh : Nat := 0
  /-- The commands that wait, first in, first out. -/
  pending : List Instr := []
deriving DecidableEq, Repr

/-- Why a command stops the model: the specification gives it no effect at all. -/
inductive Fault where
  /-- Raised by no command of this model; kept so that the type is inhabited. Safe: a stop proves nothing. -/
  | none
deriving DecidableEq, Repr

/-- Why a command is refused. -/
inductive Refusal where
  /-- An arm of `exec` without a meaning yet. Safe: nothing is proved of a refused command. -/
  | notModelled (mnemonic : String)
deriving DecidableEq, Repr

/-- The machine right after a power-on reset (R537): every register at its reset value, memories and queues
empty. -/
def State.reset : State := {}

/-- The outcome of a command. -/
abbrev Out := Host.Outcome State Fault Refusal

end Sys2Proof.Machine
end

