-- ==== Sys2Proof/Machine/Operands.lean ====
section
/-! DEFINITION. The operand fields of the two kinds of instruction the block executes itself: the 64-bit
program words of the control engines (R99, R88) and the 128-bit entries of the Anvil table (R55, R58). -/
namespace Sys2Proof.Machine

/-! ### Engine program words (R99) -/

def ewOp (w : Nat) : Nat := bits w 56 8
def ewMd (w : Nat) : Nat := bits w 54 2
def ewK (w : Nat) : Nat := bits w 42 12
def ewD (w : Nat) : Nat := bits w 28 14
def ewA (w : Nat) : Nat := bits w 14 14
def ewB (w : Nat) : Nat := bits w 0 14

/-- The number of lanes a lane instruction acts in (R99). -/
def ewLanes (w : Nat) : Nat := ewMd w + 1

/-- Data word `a` of an engine as a signed value; addresses lie in 14 bits. -/
def EngSt.m (e : EngSt) (a : Nat) : Int := sext 32 (SMap.get 0 e.data (a % 16384))

/-- The value and the shift of coefficient word `k`, and its QUIET bit (R88). -/
def EngSt.cw (e : EngSt) (k : Nat) : Nat := SMap.get 0 e.coef (k % 4096)
def EngSt.v (e : EngSt) (k : Nat) : Int := sext 32 (bits (e.cw k) 0 32)
def EngSt.sh (e : EngSt) (k : Nat) : Int := sext 6 (bits (e.cw k) 32 6)
def EngSt.quiet (e : EngSt) (k : Nat) : Bool := tb (e.cw k) 38

/-- Accumulator `i` (R98), and writing it. -/
def EngSt.acc (e : EngSt) (i : Nat) : Int :=
  match i with
  | 0 => e.acc0 | 1 => e.acc1 | 2 => e.acc2 | _ => e.acc3
def EngSt.setAcc (e : EngSt) (i : Nat) (x : Int) : EngSt :=
  match i with
  | 0 => { e with acc0 := x } | 1 => { e with acc1 := x } | 2 => { e with acc2 := x }
  | _ => { e with acc3 := x }

/-- Write data words, all results of one instruction (R100). -/
def EngSt.put (e : EngSt) (a : Nat) : List Int → EngSt
  | [] => e
  | x :: xs => EngSt.put { e with data := SMap.set 0 e.data (a % 16384) (trunc 32 x) } (a + 1) xs

/-! ### Anvil entries (R55, R58) -/

def enOffset (e : Nat) : Nat := bits e 0 20
def enOp (e : Nat) : Nat := bits e 20 8
def enPhen (e : Nat) : Bool := tb e 28
def enPhase (e : Nat) : Nat := bits e 32 8
def enGroup (e : Nat) : Nat := bits e 40 4
def enKind (e : Nat) : Nat := bits e 44 2
def enFbMask (e : Nat) : Nat := bits e 40 8
def enPins (e : Nat) : Bool := tb e 48
def enDcl (e : Nat) : Bool := tb e 49
def enMoveLen (e : Nat) : Nat := bits e 40 12 + 1
def enSrc (e : Nat) : Nat := bits e 64 32
def enDst (e : Nat) : Nat := bits e 96 32
def enEngMask (e : Nat) : Nat := bits e 40 8
def enEntry (e : Nat) : Nat := bits e 48 11
def enMovq (e : Nat) : Bool := tb e 48
def enDeadline (e : Nat) : Nat := bits e 64 20
def enSlot (e : Nat) : Nat := bits e 40 6
def enDir (e : Nat) : Bool := tb e 46
def enNet (e : Nat) : Bool := tb e 47
def enXLen (e : Nat) : Nat := bits e 48 6 + 1
def enBuf (e : Nat) : Nat := bits e 64 32
def enPairs (e : Nat) : Nat := bits e 40 2
def enCpid (e : Nat) : Nat := bits e 48 16
def enPubEng (e : Nat) : Nat := bits e 40 3
def enDoff (e : Nat) : Nat := bits e 48 14
def enPubLen (e : Nat) : Nat := bits e 64 8 + 1
def enSoff (e : Nat) : Nat := bits e 80 12
def enAxis (e : Nat) : Nat := bits e 40 3
def enTgt (e : Nat) : Nat := bits e 43 2
def enLEng (e : Nat) : Nat := bits e 45 3
def enApply (e : Nat) : Nat := bits e 64 21
def enRecLen (e : Nat) : Nat := bits e 40 8 + 1
def enTu (e : Nat) : Nat := bits e 40 2
def enTask (e : Nat) : Nat := bits e 48 7
def enFlag (e : Nat) : Nat := bits e 56 5
def enIrq (e : Nat) : Bool := tb e 64
def enIrqSel (e : Nat) : Nat := bits e 65 3

/-- The opcode encodings of R56. -/
def opNOP : Nat := 0
def opSAMPLE : Nat := 1
def opCAPTURE : Nat := 2
def opMOVE : Nat := 3
def opRUN : Nat := 4
def opAWAIT : Nat := 5
def opEXCHANGE : Nat := 6
def opCHECK : Nat := 7
def opPUBLISH : Nat := 8
def opLAUNCH : Nat := 9
def opRECORD : Nat := 10
def opSIGNAL : Nat := 11
def opMODE : Nat := 12
def opEND : Nat := 13

end Sys2Proof.Machine
end

