-- ==== Sys2Proof/Machine/Flags.lean ====
section
/-! DEFINITION. The scaling of R96 and the flags the engines compute from it: the sticky saturation flag SAT
(R97, R98). Rounding is half up; every result carries whether it saturated. -/
namespace Sys2Proof.Machine

/-- Arithmetic shift right. -/
def ashr (p : Int) (s : Nat) : Int := p / (2 ^ s : Nat)

/-- Saturation to 32 bits, with whether it changed the value. -/
def sat32 (q : Int) : Int × Bool := (satS 32 q, decide (satS 32 q ≠ q))

/-- The exact value of scale(p, s) before saturation (R96). -/
def scaleExact (p s : Int) : Int :=
  if s > 0 then ashr (p + (2 ^ (s.toNat - 1) : Nat)) s.toNat else p * (2 ^ (-s).toNat : Nat)

/-- scale(p, s) of R96. -/
def scale (p s : Int) : Int × Bool := sat32 (scaleExact p s)

/-- rnd30(p), saturated to 32 bits (R103). -/
def rnd30 (p : Int) : Int × Bool := sat32 (ashr (p + 2 ^ 29) 30)

/-- SAT is sticky: it is set when an instruction saturates (R97). -/
def EngSt.satIf (e : EngSt) (b : Bool) : EngSt := { e with sat := e.sat || b }

/-- The value an accumulator takes: held in 80 bits, with whether it was held (R98). -/
def acc80 (q : Int) : Int × Bool := (satS 80 q, decide (satS 80 q ≠ q))

/-- Add to accumulator `i`; SAT is set when it is held at a bound, whatever the QUIET bits (R98). -/
def EngSt.addAcc (e : EngSt) (i : Nat) (x : Int) : EngSt :=
  let r := acc80 (e.acc i + x)
  (e.setAcc i r.1).satIf r.2

/-- min(max(x, lo), hi): hi where lo is above hi (R102, CLMP). -/
def clampI (x lo hi : Int) : Int := min (max x lo) hi

end Sys2Proof.Machine
end

