-- ==== Sys2Proof/Config.lean ====
section
/-! DEFINITION. What one implementation fixes and the values the specification leaves free: constants without
a body, so that no proof can see what they are. -/
namespace Sys2Proof

/-- A fresh 32-bit value the specification does not state, for each value of the counter `State.fresh`
(notes/assumptions/2.md). A statement about a free value holds for every value of it. -/
opaque Config.freeValue : Nat → BitVec 32

/-- A result an operation of the data path does not state for its inputs (R172): the same inputs always give the same
value (R20; notes/assumptions/904.md). -/
opaque Config.openResult : (tag : Nat) → (input : List Int) → BitVec 32

/-- What Crucible's symmetric and hash operations make of their input words (R440, R444, R485, R489, R493,
R505): AES-256-GCM, SHA-384, SLH-DSA and key derivation are named by a tag and applied to the words
they cover (notes/assumptions/6.md). -/
opaque Config.crypto : (tag : Nat) → (input : List Nat) → List (BitVec 32)

/-- Sensor supply k lies within its ±2 % band on a clock while it is on (R188): what the pins of the HV die show there is no row of
the table (notes/assumptions/802.md). -/
opaque Config.supplyInBand : (k clk : Nat) → BitVec 1

/-- The words of the boot ROM (R545), which the specification does not print (notes/assumptions/2.md). -/
opaque Config.bootRom : Nat → BitVec 32

end Sys2Proof
end

