-- ==== Sys2Proof/Machine/Ops.lean ====
section
/-! DEFINITION. The named operations over registers and memory, and the operations every block shares: raising
an interrupt event (R382), posting a device event (R368), raising a fault with its reaction (R409 to
R426), the changes of device state and role (R29, R31, R415 to R418), and the Almanac trigger (R502). -/
namespace Sys2Proof.Machine

/-! ### Registers -/

/-- The value of a register field; a field holds no more than its width. -/
def State.rd (s : State) (f : Fld) : Nat := SMap.get 0 s.regs f.key % 2 ^ f.w

/-- Write a register field, kept to its width. -/
def State.wr (s : State) (f : Fld) (v : Nat) : State :=
  { s with regs := SMap.set 0 s.regs f.key (v % 2 ^ f.w) }

/-- A one-bit field reads 1. -/
def State.on (s : State) (f : Fld) : Bool := s.rd f = 1

/-- Write a one-bit field. -/
def State.put (s : State) (f : Fld) (b : Bool) : State := s.wr f (b2n b)

/-- Bit `n` of a field. -/
def State.bit (s : State) (f : Fld) (n : Nat) : Bool := tb (s.rd f) n

/-- Write bit `n` of a field. -/
def State.wrBit (s : State) (f : Fld) (n : Nat) (b : Bool) : State := s.wr f (putBit (s.rd f) n b)

/-- Add to a saturating counter field. -/
def State.add (s : State) (f : Fld) (n : Nat) : State := s.wr f (min (s.rd f + n) (2 ^ f.w - 1))

/-- Add one to a saturating counter field. -/
def State.inc (s : State) (f : Fld) : State := s.add f 1

/-- Keep the larger of a field and a value. -/
def State.maxi (s : State) (f : Fld) (v : Nat) : State := s.wr f (max (s.rd f) v)

/-- Apply an operation only when a condition holds. -/
def State.when (s : State) (c : Bool) (f : State → State) : State := if c then f s else s

/-- Apply an operation for each number of a list, in order. -/
def State.each (s : State) (l : List Nat) (f : Nat → State → State) : State :=
  l.foldl (fun s i => f i s) s

/-- A free value of the specification, and the state with the counter advanced past it. -/
def State.free (s : State) : Nat × State :=
  ((Config.freeValue s.fresh).toNat, { s with fresh := s.fresh + 1 })

/-! ### Byte memories -/

/-- The byte at an address of a memory; an unlisted byte reads 0 (R569). -/
def getByte (m : List Host.Cell) (a : Nat) : Nat := (SMap.get (0 : BitVec 8) m a).toNat

/-- Write one byte. -/
def putByte (m : List Host.Cell) (a v : Nat) : List Host.Cell :=
  SMap.set (0 : BitVec 8) m a (BitVec.ofNat 8 v)

/-- Write consecutive bytes. -/
def putBytes (m : List Host.Cell) (a : Nat) : List Nat → List Host.Cell
  | [] => m
  | b :: bs => putBytes (putByte m a b) (a + 1) bs

/-- Read a little-endian word (R14). -/
def getWord (m : List Host.Cell) (a : Nat) : Nat :=
  bytesWord [getByte m a, getByte m (a + 1), getByte m (a + 2), getByte m (a + 3)]

/-- Write a little-endian word. -/
def putWord (m : List Host.Cell) (a v : Nat) : List Host.Cell := putBytes m a (wordBytes v)

/-- Write consecutive words. -/
def putWords (m : List Host.Cell) (a : Nat) : List Nat → List Host.Cell
  | [] => m
  | w :: ws => putWords (putWord m a w) (a + 4) ws

/-- Read `n` consecutive words. -/
def getWords (m : List Host.Cell) (a : Nat) : Nat → List Nat
  | 0 => []
  | n + 1 => getWord m a :: getWords m (a + 4) n

/-- Base and end of shared SRAM (R545). -/
def sramBase : Nat := 0x01000000
def sramEnd : Nat := 0x01800000

/-- Does a span of bytes lie wholly in shared SRAM? -/
def inSram (a n : Nat) : Bool := decide (sramBase ≤ a) && decide (a + n ≤ sramEnd)

/-! ### Time -/

/-- Cluster time, LT plus OFS, in units of 2^−32 tick (R37). -/
def State.ct (s : State) : Nat := (s.time.lt + s.time.ofs).toNat

/-- Cluster time in whole ticks. -/
def State.ctTicks (s : State) : Nat := s.ct / 2 ^ 32

/-- The frame number FN (R8, R44). -/
def State.fn (s : State) : Nat := s.time.fc.toNat % 2 ^ 32

/-- The frame length in ticks and the cycle length in frames (R46). -/
def State.frameTicks (s : State) : Nat := s.rd Reg.TIME_FRAME
def State.cycleFrames (s : State) : Nat := s.rd Reg.TIME_CYCLE

/-- The frame index within the cycle (R45). -/
def State.fidx (s : State) : Nat := s.time.fc.toNat % s.cycleFrames

/-- The cycle count, bits 31:0 (TIME_CN_L). -/
def State.cn (s : State) : Nat := s.time.fc.toNat / s.cycleFrames % 2 ^ 32

/-- The least number of clocks a frame lasts (R47). -/
def State.frameMinClk (s : State) : Nat := s.frameTicks * 99875 / 100000

/-! ### Axes, pairs and roles -/

/-- The encodings of STATE of an axis (R224, SYS_AXn_STAT). -/
def axDISABLED : Nat := 0
def axARMING : Nat := 1
def axRUNNING : Nat := 2
def axSTOPPING : Nat := 3
def axHELD : Nat := 4
def axSAFE : Nat := 5

/-- The state of axis `n`. -/
def State.ax (s : State) (n : Nat) : Nat := s.rd (Reg.SYS_AXn_STAT_STATE n)

/-- Every axis is in one of the listed states. -/
def State.allAxes (s : State) (ok : List Nat) : Bool := (List.range 8).all fun n => ok.contains (s.ax n)

/-- The role encodings of the health word (R304). -/
def roleOFFLINE : Nat := 0
def roleOBSERVER : Nat := 1
def roleSTANDBY : Nat := 2
def roleACTIVE : Nat := 3

/-- The channel role. -/
def State.role (s : State) : Nat := s.rd Reg.SEAM_STAT_ROLE

/-- The device is split (R277). -/
def State.split (s : State) : Bool := s.on Reg.CHK_STAT_SPLIT

/-- The encodings of a pair's state in CHK_STAT. -/
def pairOFF : Nat := 0
def pairINSERVICE : Nat := 1
def pairLOST : Nat := 2
def pairREJOINING : Nat := 3

/-- The state field of pair `p`. -/
def pairFld (p : Nat) : Fld := if p = 0 then Reg.CHK_STAT_X_STATE else Reg.CHK_STAT_Y_STATE

/-- The state of power domain d (R525): 0 OFF, 1 UP, 2 ON, 3 DOWN. -/
def State.domState (s : State) (d : Nat) : Nat := bits (s.rd Reg.PWR_DOM) (2 * d) 2

/-- The device is in Run or Idle, out of reset, and domain d is ON (R519, R525). -/
def State.live (s : State) (d : Nat) : Bool :=
  s.pwr.mode = .run && ! s.pwr.rstLow && s.domState d = 2

/-- The device is in Run or Idle and out of reset (R519, R537): its timebase runs. -/
def State.runs (s : State) : Bool := s.pwr.mode = .run && ! s.pwr.rstLow

/-- The power domains (R523). -/
def pdPAIRX : Nat := 0
def pdPAIRY : Nat := 1
def pdCRUC : Nat := 2
def pdCEL : Nat := 3
def pdCEH : Nat := 4
def pdANV : Nat := 5
def pdFBK : Nat := 6
def pdANA : Nat := 7
def pdNET : Nat := 8
def pdHIF : Nat := 9
def pdOUT : Nat := 10
def pdALM : Nat := 11

/-- The domain of engine n (R523). -/
def engDomain (n : Nat) : Nat := if n < 4 then pdCEL else pdCEH

/-- The DSTATE encoding (R304). -/
def DevState.code : DevState → Nat
  | .boot => 0 | .assay => 1 | .standby => 2 | .active => 3 | .lee => 4 | .safe => 5 | .replay => 6

/-- The device is in a channel set of two or three (R282). -/
def State.inSet (s : State) : Bool := s.rd Reg.SEAM_CFG_SET = 1 || s.rd Reg.SEAM_CFG_SET = 2

/-- A held fault with its reaction. -/
def State.heldReact (s : State) (code : Nat) : Option React := SMap.get none s.fcu.held code

/-- A fault is held. -/
def State.isHeld (s : State) (code : Nat) : Bool := (s.heldReact code).isSome

/-- A class-S (class-M) fault is held. -/
def State.holdsClass (s : State) (c : FClass) : Bool := s.fcu.held.any fun p => faultClass p.1 = c

/-- A Lee cause stands (R415). -/
def State.leeCause (s : State) : Bool :=
  (s.fcu.held.any fun p => p.2 = some .lee) ||
    (! s.split && ([0, 1].any fun p => s.rd (pairFld p) = pairLOST || s.rd (pairFld p) = pairREJOINING))

/-- Half of what R288 requires: the claim timeout lies within the lease, and parameter 0x01 of every enabled gate link
states it. -/
def State.claimToBad (s : State) : Bool :=
  let cto := s.rd Reg.SEAM_CFG_CLAIM_TO + 1
  decide (s.rd Reg.SEAM_CFG_LEASE + 1 < cto) ||
    (List.range 8).any fun n => s.on (Reg.OUT_An_CFG_GLEN n) &&
      decide (s.rd (Reg.OUT_An_GL_CLAIM_TO n) ≠ ceilDiv (cto * s.cycleFrames * s.frameTicks) 40000)

/-- SEAM_STAT.CFG_BAD (R282, R288, R291). -/
def State.seamCfgBad (s : State) : Bool :=
  let ch := s.rd Reg.SEAM_CFG_CH
  let set := s.rd Reg.SEAM_CFG_SET
  decide (set = 0 ∧ ch ≠ 0) || decide (set = 1 ∧ (ch = 0 ∨ ch = 3)) || decide (set = 2 ∧ ch = 0) ||
    decide (set = 3) || s.claimToBad || (s.inSet && decide (s.cycleFrames * s.frameTicks < 40000))

/-- The claim on the next word (R287, R288). -/
def State.claim (s : State) : Nat := if s.seamCfgBad then 0 else s.rd Reg.SEAM_CLAIM_CLAIM

/-- The health word as R304 lays it out. -/
def State.healthWord (s : State) : Nat :=
  s.dev.state.code + s.role * 2 ^ 3 + s.rd Reg.CHK_STAT_X_STATE * 2 ^ 5 +
    s.rd Reg.CHK_STAT_Y_STATE * 2 ^ 7 + s.rd Reg.CHK_STAT_CMP_OK * 2 ^ 9 +
    b2n (! s.seam.sliceFail) * 2 ^ 13 + s.rd Reg.SEAM_STAT_SLICE_DONE * 2 ^ 14 +
    s.seam.sliceLast % 64 * 2 ^ 15 + b2n (s.holdsClass .s) * 2 ^ 21 + b2n (s.holdsClass .m) * 2 ^ 22 +
    b2n s.seam.copyOk * 2 ^ 23 + s.claim * 2 ^ 24

/-! ### Interrupt events -/

/-- Put a fault on the list of those the command in progress has yet to raise. -/
def State.later (s : State) (f : Raise) : State :=
  { s with fcu := { s.fcu with todo := s.fcu.todo ++ [f] } }

/-- An event on an interrupt source sets its pending bit; an event that finds the bit set is lost, sets MISS
and raises IRQ_MISSED (R382). -/
def irq (src : Nat) (s : State) : State :=
  if s.bit (Reg.INTC_PENDk (src / 32)) (src % 32) then
    (s.wrBit (Reg.INTC_MISSk (src / 32)) (src % 32) true).later { code := Fc.IRQ_MISSED }
  else s.wrBit (Reg.INTC_PENDk (src / 32)) (src % 32) true

/-- Write words to host memory (LOC = 0) or to internal memory (LOC = 1), where an address outside shared SRAM, a core's private
memory among them, answers the ring unit with a bus error (R253, R410, R422). -/
def State.dmaWrite (s : State) (loc a : Nat) (ws : List Nat) : State :=
  if loc ≠ 1 then { s with hif := { s.hif with hostMem := putWords s.hif.hostMem a ws } }
  else if inSram a (4 * ws.length) then { s with mem := putWords s.mem a ws }
  else s.later { code := Fc.BUS_ERROR, addr := a, master := 8, acc := 2 }

/-! ### Rings the device produces (R357, R367 to R369) -/

/-- The number of descriptors a ring holds. -/
def State.ringSize (s : State) (r : Nat) : Nat := 2 ^ s.rd (Reg.HIF_Rr_CFG_LSIZE r)

/-- The base and the index-block address of a ring. -/
def State.ringBase (s : State) (r : Nat) : Nat :=
  s.rd (Reg.HIF_Rr_BASE_L r) * 64 + s.rd (Reg.HIF_Rr_BASE_H r) * 2 ^ 32
def State.ringIdxA (s : State) (r : Nat) : Nat :=
  s.rd (Reg.HIF_Rr_IDXA_L r) * 8 + s.rd (Reg.HIF_Rr_IDXA_H r) * 2 ^ 32

/-- Free descriptors of a ring the device produces. -/
def State.ringFree (s : State) (r : Nat) : Nat :=
  (s.rd (Reg.HIF_Rr_IDX_CI r) + s.ringSize r - 1 - s.rd (Reg.HIF_Rr_IDX_PI r)) % s.ringSize r

/-- The device may write a ring of the given kind: the unit and the ring are enabled and not stopped. -/
def State.ringOpen (s : State) (r kind : Nat) : Bool :=
  s.on Reg.HIF_CTRL_EN && s.on (Reg.HIF_Rr_CTL r) && ! s.on (Reg.HIF_Rr_STAT_STOPPED r) &&
    s.rd (Reg.HIF_Rr_CFG_KIND r) = kind

/-- Write eight words at PI and advance it; PHASE inverts on every wrap (R357, R367). -/
def ringPutRaw (r : Nat) (words : List Nat) (s : State) : State :=
  let pi := s.rd (Reg.HIF_Rr_IDX_PI r)
  let s := s.dmaWrite (s.rd (Reg.HIF_Rr_CFG_LOC r)) (s.ringBase r + 32 * pi) (padTo 8 words)
  let s := (s.wr (Reg.HIF_Rr_IDX_PI r) ((pi + 1) % s.ringSize r)).inc (Reg.HIF_Rr_STAT_COUNT r)
  if pi + 1 = s.ringSize r then
    s.wr (Reg.HIF_Rr_STAT_PHASE r) (1 - s.rd (Reg.HIF_Rr_STAT_PHASE r))
  else s

/-- Write one descriptor with PHASE in bit 31 of word 0 (R367). -/
def ringPut (r : Nat) (words : List Nat) (s : State) : State :=
  ringPutRaw r (putBits (words.headD 0) 31 1 (s.rd (Reg.HIF_Rr_STAT_PHASE r)) :: words.tail) s

/-- Write several descriptors. -/
def ringPuts (r : Nat) (ds : List (List Nat)) (s : State) : State :=
  ds.foldl (fun s d => ringPut r d s) s

/-- An MSI-X message of a vector: written to host memory, or held in the pending-bit array while the
vector is masked (R354). -/
def msix (vec : Nat) (s : State) : State :=
  let e := 4 * vec
  if SMap.get 0 s.hif.msix (e + 3) % 2 = 1 then
    { s with hif := { s.hif with pba := putBit s.hif.pba vec true } }
  else s.dmaWrite 0 (SMap.get 0 s.hif.msix e + SMap.get 0 s.hif.msix (e + 1) * 2 ^ 32)
    [SMap.get 0 s.hif.msix (e + 2)]

/-- No message of the ring within MOD frames of the last one (R378). -/
def State.msgDue (s : State) (r : Nat) : Bool :=
  match SMap.get none s.hif.lastMsg r with
  | none => true
  | some f => s.rd (Reg.HIF_Rr_IRQ_MOD r) = 0 || decide ((s.rd (Reg.HIF_Rr_IRQ_MOD r) : Int) ≤ dist32 f s.fn)

/-- After the descriptors: the index block with the device's own index and FN (R357), then the message
if ARM is set (R378). -/
def ringNotify (r own : Nat) (s : State) : State :=
  let s := s.dmaWrite (s.rd (Reg.HIF_Rr_CFG_LOC r)) (s.ringIdxA r) [own, s.fn]
  if s.on (Reg.HIF_Rr_IRQ_ARM r) && s.msgDue r then
    let s := irq (160 + r) (s.put (Reg.HIF_Rr_IRQ_ARM r) false)
    let s := { s with hif := { s.hif with lastMsg := SMap.set none s.hif.lastMsg r (some s.fn) } }
    s.when (s.rd (Reg.HIF_Rr_CFG_LOC r) = 0) (msix (s.rd (Reg.HIF_Rr_CFG_VEC r)))
  else s

/-- Write a group of descriptors together, their index block and their message. -/
def ringWrite (r : Nat) (ds : List (List Nat)) (s : State) : State :=
  let s := ringPuts r ds s
  ringNotify r (s.rd (Reg.HIF_Rr_IDX_PI r)) s

/-- A partner, a worker or a frame shows a claim of 0x80 or above (R286, R295). -/
def noteClaim (c : Nat) (s : State) : State :=
  if 0x80 ≤ c then { s with seam := { s.seam with obey80 := true, holderSeen := true } } else s

/-- A device event of a KIND with its words 3 to 7 to the event ring (R368). A full ring drops it. -/
def postEvent (kind : Nat) (data : List Nat) (s : State) : State :=
  let r := s.rd Reg.HIF_CFG_EVTRING
  if s.on Reg.HIF_CFG_EVTEN && s.ringOpen r 2 then
    if s.ringFree r = 0 then
      (s.inc Reg.HIF_DROP_EVENT).later { code := Fc.EVENT_DROP }
    else ringWrite r [kind :: s.fn :: (s.ctTicks % 2 ^ 32) :: data] s
  else s

/-- Words cut into units of eight. -/
def units : Nat → List Nat → List (List Nat)
  | 0, _ => []
  | n + 1, ws => padTo 8 ws :: units n (ws.drop 8)

/-- Units of 32 bytes a stream record of `n` data words takes (R369). -/
def streamUnits (n : Nat) : Nat := ceilDiv (n + 2) 8

/-- Write a stream record of KIND 0x80 or 0x81 (R369): only its first unit carries PHASE; a record that does not
fit in the free units is dropped whole. -/
def streamRecord (r kind fn : Nat) (data : List Nat) (s : State) : State :=
  let n := streamUnits data.length
  if n ≤ s.ringFree r then
    let us := units n ((kind + n * 2 ^ 8) :: fn :: data)
    let s := ringPut r (us.headD []) s
    let s := us.tail.foldl (fun s u => ringPutRaw r u s) s
    ringNotify r (s.rd (Reg.HIF_Rr_IDX_PI r)) s
  else (s.inc Reg.HIF_DROP_STREAM).later { code := Fc.STREAM_DROP }

/-- The enabled ring of a kind with the lowest number, if any. -/
def State.ringOfKind (s : State) (kind : Nat) : Option Nat := (List.range 16).find? fun r => s.ringOpen r kind

/-! ### The Almanac trigger -/

/-- Recording states of ALM_STAT.STATE (R501). -/
def almOFF : Nat := 0
def almNOKEY : Nat := 1
def almARMED : Nat := 2
def almPOST : Nat := 3
def almFROZEN : Nat := 4
def almDUMPING : Nat := 5
def almREPLAY : Nat := 6

/-- The TRIGGER record (R502). -/
def State.triggerRec (s : State) : AlmRec :=
  { kind := 4, fn := s.rd Reg.ALM_TRFN,
    words := [4 + 32 * 2 ^ 16, s.rd Reg.ALM_TRFN, s.rd Reg.ALM_TRSRC_SRC + s.rd Reg.ALM_TRSRC_CODE * 2 ^ 16,
      s.alm.trigPost, s.rd Reg.ALM_STAT_NTRIG, s.rd Reg.ALM_STAT_MISSED,
      s.alm.trigFc % 2 ^ 32, s.alm.trigFc / 2 ^ 32] }

/-- Write the TRIGGER record as the registers now read. -/
def putTrigger (s : State) : State := { s with alm := { s.alm with trigger := some s.triggerRec } }

/-- A trigger of source bit `b` with a fault code (R502), once its enable is known to be set. Events of one
clock are one trigger with several source bits and the first fault code among them. -/
def almTrigger (b code : Nat) (s : State) : State :=
  let st := s.rd Reg.ALM_STAT_STATE
  if st = almARMED then
    let s := ((s.wr Reg.ALM_TRFN s.fn).wr Reg.ALM_TRSRC_SRC (2 ^ b)).wr Reg.ALM_TRSRC_CODE code
    let s := s.wr Reg.ALM_STAT_STATE almPOST
    let post := s.rd Reg.ALM_CFG2_POST
    let s := { s with alm := { s.alm with postLeft := post, trigWritten := s.alm.recNow, trigFc := s.time.fc.toNat, trigCt := s.ct,
                                          trigPost := post } }
    (putTrigger s).later { code := Fc.ALM_TRIGGERED }
  else if st = almPOST && s.alm.trigCt = s.ct then
    let s := s.when (s.rd Reg.ALM_TRSRC_CODE = 0) (·.wr Reg.ALM_TRSRC_CODE code)
    putTrigger (s.wr Reg.ALM_TRSRC_SRC (orW (s.rd Reg.ALM_TRSRC_SRC) (2 ^ b)))
  else if st = almPOST then putTrigger (s.inc Reg.ALM_STAT_NTRIG)
  else if st = almFROZEN || st = almDUMPING then
    (putTrigger (s.inc Reg.ALM_STAT_MISSED)).later { code := Fc.ALM_TRIG_MISSED }
  else s

/-- The enable of trigger bit `b` in ALM_TRIG, which lays bits 0 to 6 out as ALM_TRSRC does. -/
def trigFld : Nat → Fld
  | 0 => Reg.ALM_TRIG_FSTOP | 1 => Reg.ALM_TRIG_MAINT | 2 => Reg.ALM_TRIG_LEE | 3 => Reg.ALM_TRIG_SAFE
  | 4 => Reg.ALM_TRIG_AXSAFE | 5 => Reg.ALM_TRIG_LEASE | _ => Reg.ALM_TRIG_TRIPIN

/-- A trigger event of bit `b`, if ALM_TRIG enables it. -/
def almEvent (b code : Nat) (s : State) : State := s.when (s.on (trigFld b)) (almTrigger b code)

/-! ### Device state and role -/

/-- Both error pins go low and stay low until toggling resumes (R419). -/
def fltStop (s : State) : State :=
  { ((s.put Reg.FCU_STAT_FLT_P false).put Reg.FCU_STAT_FLT_N false) with
    fcu := { s.fcu with fltOn := false, fltP := false, fltN := false } }

/-- FULL debug is open. -/
def State.debugFull (s : State) : Bool := s.rd Reg.SEC_STAT_DBG = 2

/-- The device holds the role OFFLINE for good: it is split (R33), or FULL debug is open in FIELD (R458). -/
def State.barred (s : State) : Bool := s.split || (s.debugFull && s.rd Reg.SEC_STAT_LC = 2)

/-- Change device state and role together; a change posts one ROLE event (R368) and, for the role, raises
source 152 (R310). A role of OBSERVER or OFFLINE carries no claim from the next word (R287). The error pins toggle in STANDBY,
ACTIVE and LEE only (R419). -/
def setDevRole (st : DevState) (role : Nat) (s : State) : State :=
  if s.dev.state = st ∧ s.role = role then s
  else
    let changed := decide (s.role ≠ role)
    let s := { s.wr Reg.SEAM_STAT_ROLE role with dev := { s.dev with state := st } }
    let s := s.when (role = roleOFFLINE || role = roleOBSERVER) (·.wr Reg.SEAM_CLAIM_CLAIM 0)
    let s := s.when (decide (st ≠ .standby ∧ st ≠ .active ∧ st ≠ .lee)) fltStop
    let s := s.when changed (irq 152)
    postEvent 5 [s.healthWord] s

/-- Change the role alone. -/
def setRole (role : Nat) (s : State) : State := setDevRole s.dev.state role s

/-- Milliseconds of Lee time counted so far, in ticks (R418). -/
def State.leeCount (s : State) : Nat :=
  match s.fcu.leeEntry with
  | none => s.fcu.leeKept
  | some t => s.fcu.leeKept + (s.ctTicks - t)

/-- The Lee limit in ticks. -/
def State.leeLimit (s : State) : Nat := s.rd Reg.FCU_LEE_LIMIT * 400000000

/-- ACTIVE to LEE (R415, R418): the timer counts from entry; within 10 × LIMIT of the last exit it resumes from
the kept count, whose warning is not given again. -/
def enterLee (s : State) : State :=
  if s.dev.state = .active then
    let resumes := s.fcu.leeExit.any fun t => decide (s.ctTicks - t ≤ 10 * s.leeLimit)
    let s := { s with fcu := { s.fcu with
      leeEntry := some s.ctTicks, leeKept := if resumes then s.fcu.leeKept else 0
      leeWarned := resumes && s.fcu.leeWarned } }
    almEvent 2 0 (irq 1 ((setDevRole .lee s.role s).inc Reg.FCU_LEESTAT_ENTRIES))
  else s

/-- LEE is left: the timer stops and keeps its count, and source 9 is raised (R418, R431). -/
def leaveLee (s : State) : State :=
  if s.dev.state = .lee then
    irq 9 { s with fcu := { s.fcu with leeKept := s.leeCount, leeEntry := none, leeExit := some s.ctTicks } }
  else s

/-- The output state of axis n, and its replacement. -/
def State.o (s : State) (n : Nat) : OutSt := SMap.get {} s.out n
def State.setO (s : State) (n : Nat) (o : OutSt) : State := { s with out := SMap.set {} s.out n o }

/-- The safe pattern applies to axis n: it is SAFE, or the supervisor holds a request for it (R199, R413). -/
def State.safeNow (s : State) (n : Nat) : Bool := s.ax n = axSAFE || tb s.fcu.supReq n

/-- The safe pattern of the axis is active short circuit (R154). -/
def State.asc (s : State) (n : Nat) : Bool :=
  s.rd (Reg.COM_An_CFG_SAFE_KIND n) = 1 && ! s.on (Reg.COM_An_CFG_MOTOR n) && s.on (Reg.COM_An_CFG_ASC_ALLOW n)

/-- A leg as the safe pattern leaves it (R154, R197): off, or with active short circuit LOWER, whose switch turns on at
`on`, DT after the move, unless the leg is LOWER already. -/
def safeLeg (asc : Bool) (on : Nat) (l : LegSt) : LegSt :=
  if ! asc then {} else if l.st = .lower then l else { st := .lower, onAt := some on }

/-- The safe pattern comes into force on axis n (R199, R413): its legs move on this clock. -/
def safeLegs (n : Nat) (s : State) : State :=
  if s.safeNow n then s
  else
    let on := ceilDiv s.ct (2 ^ 29) + 8 * s.rd (Reg.OUT_An_DT n)
    let o := s.o n
    let leg := safeLeg (s.asc n) on
    s.setO n { o with legA := leg o.legA, legB := leg o.legB, legC := leg o.legC }

/-- The device enters SAFE (R29, R414): the supervisor holds a request for every axis and against every safe
output, the role is OFFLINE, the claim falls to 0x00 and the error pins stay low. In REPLAY nothing changes. -/
def enterSafe (s : State) : State :=
  if s.dev.state = .replay then s
  else
    let fresh := decide (s.dev.state ≠ .safe)
    let s := s.each (List.range 8) safeLegs
    let s := { s with fcu := { s.fcu with supReq := 0xFF, supSo := true } }
    if fresh then
      let s := fltStop (leaveLee s)
      almEvent 3 0 (irq 3 (setDevRole .safe roleOFFLINE s))
    else s

/-- A Lee cause has arisen (R32, R415): ACTIVE goes to LEE; in STANDBY a device of a set takes the role OBSERVER, but one that
holds only the role OFFLINE (R33, R458). -/
def applyLeeCause (s : State) : State :=
  if ! s.leeCause then s
  else match s.dev.state with
    | .active => enterLee s
    | .standby => s.when (s.inSet && ! s.barred) (setRole roleOBSERVER)
    | _ => s

/-- The device enters ACTIVE with the role ACTIVE; a standing Lee cause takes it to LEE at once (R415). -/
def enterActive (s : State) : State := applyLeeCause (setDevRole .active roleACTIVE s)

/-- The supervisor takes a safe-state request for every axis of a set (R413). -/
def requestSafe (axes : Nat) (s : State) : State :=
  let s := s.each (bitsOf 8 axes) safeLegs
  { s with fcu := { s.fcu with supReq := orW s.fcu.supReq (axes % 256) } }

/-! ### Raising a fault -/

/-- The reaction configured for a source (R411). -/
def State.reactOf (s : State) (code : Nat) : React :=
  (SMap.get none s.fcu.react code).getD (faultDefault code)

/-- A class-I source whose REPORT bit is set. -/
def State.reported (s : State) (code : Nat) : Bool := SMap.get false s.fcu.report code

/-- COUNT, LASTFN, holding, the axis set and the per-frame mark of a raise (R409). -/
def noteRaise (f : Raise) (s : State) : State :=
  let c := min (SMap.get 0 s.fcu.count f.code + 1) 255
  let held := if faultClass f.code = .i then s.fcu.held
    else SMap.set none s.fcu.held f.code (some (s.reactOf f.code))
  let axes := if faultClass f.code = .i then s.fcu.axes else SMap.set 0 s.fcu.axes f.code f.axes
  { s with fcu := { s.fcu with
      count := SMap.set 0 s.fcu.count f.code c
      lastFn := SMap.set 0 s.fcu.lastFn f.code (s.fn % 2 ^ 16)
      held := held, axes := axes
      struck := SMap.set none s.fcu.struck f.code (some (s.time.clk, s.isHeld f.code))
      seen := if oncePerFrame f.code then SMap.set false s.fcu.seen f.code true else s.fcu.seen } }

/-- One entry of the fault log (R426); an entry written over an unread one moves RP and raises source 10. -/
def logFault (f : Raise) (s : State) : State :=
  let wp := s.rd Reg.FCU_LOGWP_WP
  let w0 := f.code + (faultClass f.code).code * 2 ^ 16 + (s.reactOf f.code).code * 2 ^ 18
  let e := w0 + s.fn * 2 ^ 32 + s.ctTicks % 2 ^ 32 * 2 ^ 64 + f.addr % 2 ^ 32 * 2 ^ 96
  let s := (s.wr (Reg.FCU_LOGi wp) e).wr Reg.FCU_LOGWP_WP ((wp + 1) % 256)
  let s := s.when (wp = 255) (·.inc Reg.FCU_LOGWP_WRAPS)
  if s.rd Reg.FCU_LOGRP_UNREAD = 256 then irq 10 (s.wr Reg.FCU_LOGRP_RP ((wp + 1) % 256))
  else s.inc Reg.FCU_LOGRP_UNREAD

/-- What the first-error record says of the fault it captures (R422). -/
def recordWho (f : Raise) (s : State) : State :=
  let s := (s.wr Reg.FCU_REC_CODE f.code).wr Reg.FCU_REC_CLASS (faultClass f.code).code
  let s := (s.wr Reg.FCU_REC_REACT (s.reactOf f.code).code).wr Reg.FCU_REC2_MASTER f.master
  (s.wr Reg.FCU_REC2_ACC f.acc).wr Reg.FCU_REC_ADDR f.addr

/-- A fault ranks before the one the record captured on this clock: class S before class M, then the lower code (R424). -/
def State.ranksFirst (s : State) (f : Raise) : Bool :=
  let c := (faultClass f.code).code
  let c0 := s.rd Reg.FCU_REC_CLASS
  decide (s.fcu.recAt = some s.time.clk) && decide (c < c0 ∨ (c = c0 ∧ f.code < s.rd Reg.FCU_REC_CODE))

/-- Capture or merge the first-error record (R422, R423). Of the faults of the clock of the capture the record holds the one
that ranks first, whatever their order, and the others are merged (R424). -/
def recordFault (f : Raise) (s : State) : State :=
  let c := (faultClass f.code).code
  if s.on Reg.FCU_REC_VALID then
    let s := s.when (s.ranksFirst f) (recordWho f)
    let s := (s.inc Reg.FCU_REC_COUNT).wr Reg.FCU_REC2_CLASSES (orW (s.rd Reg.FCU_REC2_CLASSES) (2 ^ c))
    let old := if s.fcu.mergeAt = s.time.clk then s.fcu.merged else []
    irq 7 { s with fcu := { s.fcu with merged := old ++ [f], mergeAt := s.time.clk } }
  else
    let s := ((recordWho f s).put Reg.FCU_REC_VALID true).wr Reg.FCU_REC_COUNT 0
    let s := (s.wr Reg.FCU_REC2_CLASSES (2 ^ c)).wr Reg.FCU_REC_FN s.fn
    let s := (s.wr Reg.FCU_REC_CTL (s.ctTicks % 2 ^ 32)).wr Reg.FCU_REC_CTH (s.ctTicks / 2 ^ 32)
    irq 6 { s with fcu := { s.fcu with recAt := some s.time.clk } }

/-- A held fault stops being held (R417, R427): source 8. -/
def unhold (code : Nat) (s : State) : State :=
  if s.isHeld code then
    irq 8 { s with fcu := { s.fcu with held := SMap.set none s.fcu.held code none
                                       axes := SMap.set 0 s.fcu.axes code 0 } }
  else s

/-- Take the reaction of a raised fault (R411). In REPLAY nothing but the interrupt is taken (R414). -/
def takeReaction (f : Raise) (r : React) (s : State) : State :=
  if s.dev.state = .replay then s
  else match r with
    | .none | .interrupt => s
    | .lee => applyLeeCause s
    | .axisSafe => requestSafe f.axes s
    | .safe => enterSafe s
    | .reset =>
      let s := enterSafe s
      { s with dev := { s.dev with resetDue :=
          if s.dev.resetDue.isSome then s.dev.resetDue else some (s.ctTicks + 4000, 5) } }

/-- Everything one raise of a fault does on its clock (R409 to R426, R502). -/
def raise1 (f : Raise) (s : State) : State :=
  if oncePerFrame f.code && SMap.get false s.fcu.seen f.code then s
  else
    let cls := faultClass f.code
    let react := s.reactOf f.code
    let wasHeld := s.isHeld f.code
    let visible := decide (cls ≠ .i)
    let s := noteRaise f s
    let s := s.when (visible || s.reported f.code) (logFault f)
    let s := s.when visible (recordFault f)
    let s := s.when ((visible && ! wasHeld) || (! visible && s.reported f.code)) (postEvent 2 [f.code])
    let s := s.when (cls = .s) (irq 0)
    let s := s.when (cls = .m) (irq 4)
    let s := s.when (react ≠ .none) (irq 5)
    let s := match blockFaultIrq f.code with
      | some src => irq src s
      | none => s
    let s := s.when (cls = .s) fltStop
    let s := s.when (cls = .s && f.code / 1024 ≠ 17) (almEvent 0 f.code)
    let s := s.when (cls = .m && f.code / 1024 ≠ 17) (almEvent 1 f.code)
    takeReaction f react s

/-- Raise the faults on the list of consequences, oldest first. -/
def settle : Nat → State → State
  | 0, s => s
  | n + 1, s =>
    match s.fcu.todo with
    | [] => s
    | f :: fs => settle n (raise1 f { s with fcu := { s.fcu with todo := fs } })

/-- Raise every fault on the list. A raise adds few consequences of its own, and those that repeat within a frame add
none, so the bound is not reached. -/
def settleAll (s : State) : State := settle (s.fcu.todo.length + 64) s

/-- Raise a fault and whatever it entails. -/
def raise (f : Raise) (s : State) : State := settleAll (raise1 f s)

/-- Raise an interrupt event and whatever it entails. -/
def raiseIrq (src : Nat) (s : State) : State := settleAll (irq src s)

/-- A fault tied to one axis: its axis set is that axis, its ADDR the axis (R410, R422). -/
def raiseAx (code n : Nat) (s : State) : State := raise { code := code, axes := 2 ^ n, addr := n } s

/-- A fault tied to a set of axes: its ADDR is the lowest of them (R410, R422). -/
def raiseAxes (code axes : Nat) (s : State) : State :=
  raise { code := code, axes := axes, addr := lowBit 8 axes } s

/-- A fault whose chapter names no axis: its axis set is every axis, its ADDR 0. -/
def raiseDev (code : Nat) (s : State) : State := raise { code := code } s

/-- The MASTER codes of R422. -/
def masterCode : Master → Nat
  | .ac0 => 1 | .ac1 => 2 | .ac2 => 3 | .ac3 => 4 | .sec => 5 | .host => 6 | .debugger => 9

/-- The main core of pair p as a bus master. -/
def mainCore (p : Nat) : Master := if p = 0 then .ac0 else .ac2

/-- A bus master receives a bus error (R410, R546); ACC 1 is a read, 2 a write (R422). -/
def busError (m : Master) (acc addr : Nat) (s : State) : State :=
  raise { code := Fc.BUS_ERROR, addr := addr, master := masterCode m, acc := acc } s

/-- What the ECC of shared SRAM shows at a read of the word at a by the master of a code of R422, by an access `acc` (R410). -/
def sramEcc (m acc : Nat) (e : Ecc) (a : Nat) (s : State) : State :=
  match e with
  | .ok => s
  | .corrected => raise { code := Fc.SRAM_ECC_CORR, addr := a, master := m, acc := acc } s
  | .uncorrectable => raise { code := Fc.SRAM_ECC_UNCORR, addr := a, master := m, acc := acc } s

/-- What ECC shows of word i of a read. -/
def eccAt : WordEcc → Nat → Ecc
  | .corrected k, i => if k = i then .corrected else .ok
  | .uncorrectable k, i => if k = i then .uncorrectable else .ok
  | .ok, _ => .ok

/-- What ECC shows over a read of n words of shared SRAM from a on. -/
def sramEccs (m : Nat) (e : WordEcc) (a n : Nat) (s : State) : State :=
  s.each (List.range n) fun i s => s.when (inSram (a + 4 * i) 4) (sramEcc m 1 (eccAt e i) (a + 4 * i))

/-- The end of a command: consequences still on the list are raised. -/
def done (s : State) : Out := .next (settleAll s)

end Sys2Proof.Machine
end

