-- ==== Sys2Proof/Machine/Owner.lean ====
section
/-! DEFINITION. The pairs' released output words, who owns each output (R267 to R269), and the commands of the safe
outputs (R216 to R218). -/
namespace Sys2Proof.Machine

/-- Pair p, and its replacement. -/
def State.pr (s : State) (p : Nat) : PairSt := SMap.get {} s.pair p
def State.setPr (s : State) (p : Nat) (x : PairSt) : State := { s with pair := SMap.set {} s.pair p x }

/-- The reset vector of the booted image (R252, R452). -/
def State.resetVector (s : State) : Nat :=
  match s.sec.image with
  | some c => (c.payload.getD 2 0).toNat + (c.payload.getD 3 0).toNat * 2 ^ 32
  | none => 0

/-- The number a core reads as mhartid: of its pair's main core, or its own in a split device (R252, R277). -/
def State.mhartid (s : State) (core : Nat) : Nat := if s.split then core else core - core % 2

/-- A core as it leaves reset: pc at the reset vector, mhartid, its private memory as it stands (R252). -/
def State.coreReset (s : State) (core : Nat) (c : CoreSt) : CoreSt :=
  { mem := c.mem, regs := SMap.set 0 (SMap.set 0 [] (4096 + 0xF14) (s.mhartid core)) 64 s.resetVector }

/-- Both cores of pair p are released at the reset vector (R252, R271). -/
def releaseCores (p : Nat) (s : State) : State :=
  let q := s.pr p
  s.setPr p { q with main := s.coreReset (2 * p) q.main, chk := s.coreReset (2 * p + 1) q.chk, released := true }

/-- The state of pair p (CHK_STAT). -/
def State.pairState (s : State) (p : Nat) : Nat := s.rd (pairFld p)

/-- The pair takes part in the coupling: not split, IN_SERVICE, or REJOINING with its cores released after Assay (R271). -/
def State.pairOn (s : State) (p : Nat) : Bool :=
  ! s.split && (s.pairState p = pairINSERVICE || (s.pairState p = pairREJOINING && (s.pr p).released))

/-- The released word of pair p: axis enables in bits 7:0, high sides in bits 11:8; 0 in a split device (R267, R277). -/
def State.relWord (s : State) (p : Nat) : Nat :=
  if s.split then 0 else s.rd (Reg.CHK_Px_OUT_AXEN p) + s.rd (Reg.CHK_Px_OUT_SO p) * 256

/-- CHK_OWN as one word, and the effective owners: what a transfer moved stays with the pair it was moved to (R268, R269). -/
def State.ownWord (s : State) : Nat := s.rd Reg.CHK_OWN_AXOWN + s.rd Reg.CHK_OWN_SOOWN * 256
def State.eown (s : State) : Nat := orW (andNotW s.ownWord s.chk.moved) (andW s.chk.movedTo s.chk.moved)

/-- The effective output bit b: 0 to 7 axis enables, 8 to 11 high sides. A transferred bit holds its last released
value until the new owner releases, or 0 after OHOLD (R269). -/
def State.outBit (s : State) (b : Nat) : Bool :=
  if tb s.chk.hold b then tb s.chk.holdVal b else tb (s.relWord (b2n (tb s.eown b))) b

/-- The enable of axis n, and the high-side command of safe output m (R214, R216). -/
def State.enabled (s : State) (n : Nat) : Bool := s.outBit n
def State.soCmd (s : State) (m : Nat) : Bool := s.outBit (8 + m)

/-- All twelve effective output bits. -/
def State.outBits (s : State) : Nat := (List.range 12).foldl (fun v b => v + b2n (s.outBit b) * 2 ^ b) 0

/-- Safe output m, and its replacement. -/
def State.sout (s : State) (m : Nat) : SoSt := SMap.get {} s.so m
def State.setSo (s : State) (m : Nat) (o : SoSt) : State := { s with so := SMap.set {} s.so m o }

/-- A fault of R218 is latched for output m. -/
def State.soLatched (s : State) (m : Nat) : Bool :=
  s.on (Reg.OUT_SOm_STAT_OC m) || s.on (Reg.OUT_SOm_STAT_RB m) || s.on (Reg.OUT_SOm_STAT_TEST m)

/-- PD_OUT is powered in Run or Idle, out of reset, and no overvoltage forces the outputs off (R517, R521, R525). -/
def State.soAllowed (s : State) : Bool := s.live pdOUT && ! s.on Reg.PWR_STAT_OV_FORCE

/-- The high side of output m is commanded on (R216, R218). -/
def State.soHigh (s : State) (m : Nat) : Bool := s.soAllowed && s.soCmd m && ! s.soLatched m

/-- The low side of output m is permitted (R216). -/
def State.soLow (s : State) (m : Nat) : Bool :=
  s.soAllowed && s.on (Reg.OUT_SOm_CFG_EN m) && (s.dev.state = .active || s.dev.state = .lee) && ! s.fcu.supSo &&
    ! s.soLatched m

/-- A test pulse of output m can run: nothing forces both switches off (R216, R217, R218, R540). -/
def State.soTestable (s : State) (m : Nat) : Bool := s.soAllowed && ! s.soLatched m

/-- Output m beside its registers as time moves on from this clock: a change of command is dated, awaits its read-back
(R217) and ends a test pulse (R218), as does what forces both switches off. -/
def State.soNow (s : State) (m : Nat) : SoSt :=
  let o := if s.soTestable m then s.sout m else { s.sout m with test := none }
  if s.soHigh m = o.hs ∧ s.soLow m = o.ls then o
  else { o with hs := s.soHigh m, ls := s.soLow m, cmdAt := s.time.clk, check := true, test := none }

/-- The safe outputs as time moves on from this clock. -/
def State.soNoted (s : State) : SMap SoSt :=
  [0, 1, 2, 3].foldl (fun so m => SMap.set {} so m (s.soNow m)) s.so

/-- The switches of output m: its commands, but for a test pulse, which opens one switch of an energised load and closes
one alone of a load that is not (R218). -/
def State.soSwitches (s : State) (m : Nat) : Bool × Bool :=
  let hs := s.soHigh m
  let ls := s.soLow m
  match (s.sout m).test with
  | some (low, h, l) =>
    if h ≠ hs ∨ l ≠ ls ∨ s.soTestable m = false then (hs, ls)
    else if hs && ls then (low, ! low) else (! low, low)
  | none => (hs, ls)

end Sys2Proof.Machine
end

