-- ==== Sys2Proof/Machine/Time.lean ====
section
/-! DEFINITION. Local and cluster time (R35 to R48): the clock's advance with rate correction and slew, and the
TIME commands. -/
namespace Sys2Proof.Machine

/-- SLEW: ±250 ppm in units of 2^−32 tick on every edge (R38). -/
def slewStep : Nat := 1073741

/-- The signed rate correction in force (R36). -/
def State.rate (s : State) : Int := sext 32 (s.rd Reg.TIME_RATE)

/-- What LT gains on one edge (R35). -/
def State.edge (s : State) : Int := 2 ^ 32 + s.rate

/-- The part of the remainder that `n` edges move into OFS, with its sign (R38). -/
def slewMoved (rem : Int) (n : Nat) : Int :=
  if rem ≥ 0 then min rem (n * slewStep : Nat) else max rem (-(n * slewStep : Nat))

/-- `n` edges of the timebase clock (R35, R38): LT gains 2^32 + RATE on each, the slew moves into OFS, FT
counts. A slew that reaches zero clears SLEWING and raises source 218. The commands of the safe outputs that stand as time
moves on are those of this clock (R217). -/
def advance (n : Nat) (s : State) : State :=
  let moved := slewMoved s.time.rem n
  let t := { s.time with
    lt := s.time.lt + BitVec.ofInt 96 (s.edge * n)
    ofs := s.time.ofs + BitVec.ofInt 96 moved
    rem := s.time.rem - moved
    ft := s.time.ft + n
    clk := s.time.clk + n }
  let ended := decide (s.time.rem ≠ 0) && decide (s.time.rem = moved)
  let s := { s with time := t, so := if n = 0 then s.so else s.soNoted }
  s.when ended fun s => irq 218 (s.put Reg.TIME_STAT_SLEWING false)

/-- Bring the clock forward to FT `t`; a passed instant leaves it. -/
def advanceTo (t : Nat) (s : State) : State := advance (t - s.time.ft) s

/-- The edges after which CT first reaches `target`, in units of 2^−32 tick (R37, R38): while the slew runs each
edge moves CT by 2^32 + RATE ± SLEW, afterwards by 2^32 + RATE. -/
def State.edgesTo (s : State) (target : Nat) : Nat :=
  let d : Int := (target : Int) - s.ct
  if d ≤ 0 then 0
  else
    let sl : Int := if s.time.rem > 0 then slewStep else if s.time.rem < 0 then -slewStep else 0
    let n1 := ((d + (s.edge + sl) - 1) / (s.edge + sl)).toNat
    if (n1 * slewStep : Nat) ≤ s.time.rem.natAbs then n1
    else max (ceilDiv s.time.rem.natAbs slewStep) ((d - s.time.rem + s.edge - 1) / s.edge).toNat

/-- Bring the clock to the first edge on which CT has reached `t` ticks; a passed instant leaves it. -/
def reach (t : Nat) (s : State) : State := advance (s.edgesTo (t * 2 ^ 32)) s

/-- The first value at or after `x` that is `ph` modulo `per`. -/
def nextAt (per ph x : Nat) : Nat := x + (ph % per + per - x % per) % per

/-- CT in whole ticks, rounded up: the earliest tick instant that is not past. -/
def State.ctCeil (s : State) : Nat := ceilDiv s.ct (2 ^ 32)

/-- CT in eighths of a tick, rounded down. -/
def State.ct8 (s : State) : Nat := s.ct / 2 ^ 29

/-- A span of microseconds in ticks of 2.5 ns. -/
def usTicks (n : Nat) : Nat := 400 * n

/-- CT as it stood n edges ago, a slew in progress running then too (R35, R38). -/
def State.ctAgo (s : State) (n : Nat) : Nat :=
  let sl : Int := if s.time.rem > 0 then slewStep else if s.time.rem < 0 then -slewStep else 0
  ((s.ct : Int) - n * (s.edge + sl)).toNat

/-- SLEW_END (R38): the edge on which the remainder reaches zero. -/
def execSlewEnd (s : State) : Out :=
  if ! s.runs then .next s else
  if s.time.rem = 0 then .next s else done (advance (ceilDiv s.time.rem.natAbs slewStep) s)

/-- The CT value held in TIME_CT_SET (R40). -/
def State.ctSet (s : State) : Nat :=
  s.rd Reg.TIME_CT_SET_F + s.rd Reg.TIME_CT_SET_L * 2 ^ 32 + s.rd Reg.TIME_CT_SET_H * 2 ^ 64

/-- Load CT with a value (R40): FC is recomputed from whole ticks (R44), the remainder and an armed request
are dropped, CT_VALID is set. -/
def loadCt (v : Nat) (s : State) : State :=
  let fc := v / 2 ^ 32 / s.frameTicks
  let t := { s.time with
    ofs := BitVec.ofNat 96 v - s.time.lt, rem := 0, ofsArmed := false, backlog := 0
    fc := BitVec.ofNat 64 fc }
  irq 217 (({ s with time := t }.put Reg.TIME_STAT_CT_VALID true).put Reg.TIME_STAT_SLEWING false)

/-- OFFSET_REQUEST (R39, R334): a write of TIME_OFS_REQ_I arms a request, unless Fudorlink owns it. -/
def execOffsetRequest (v : Word) (s : State) : Out :=
  if ! s.runs then .next s else
  if s.on Reg.FDL_CTRL_EN then done (s.put Reg.FDL_STAT_SWDENY true)
  else
    let s := s.wr Reg.TIME_OFS_REQ_I v.toNat
    done { s with time := { s.time with ofsArmed := true } }

/-- The masters that have a time shadow (R41). -/
def hasShadow : Master → Bool
  | .debugger => false
  | _ => true

/-- TIME_READ_LATCH (R41): a read of TIME_LT_L or TIME_CT_L returns the low ticks and latches the high
ticks and the fraction for the reading master. -/
def execTimeReadLatch (m : Master) (r : TimeReg) (s : State) : Out :=
  if ! s.runs then .next s else
  let v := match r with
    | .lt => s.time.lt.toNat
    | .ct => s.ct
  let hf := (v / 2 ^ 64, v % 2 ^ 32)
  let s := { s with dev := { s.dev with readData := v / 2 ^ 32 % 2 ^ 32 } }
  if hasShadow m then
    match r with
    | .lt => done { s with time := { s.time with shadowLt := SMap.set (0, 0) s.time.shadowLt (masterCode m) hf } }
    | .ct => done { s with time := { s.time with shadowCt := SMap.set (0, 0) s.time.shadowCt (masterCode m) hf } }
  else done s

/-- FRAME_CYCLE_WRITE (R46): a write of TIME_FRAME, or of TIME_CYCLE. -/
def execFrameCycleWrite (cycle : Bool) (v : Word) (s : State) : Out :=
  if ! s.runs then .next s else
  let x := if cycle then v.toNat % 512 else v.toNat % 2 ^ 20
  let inRange := if cycle then decide (1 ≤ x ∧ x ≤ 256) else decide (4000 ≤ x ∧ x ≤ 1000000)
  if s.on Reg.TIME_CTRL_LOCK then .next s
  else if s.on Reg.ANV_STAT_RUNNING || ! inRange then done (s.put Reg.TIME_STAT_WDENY true)
  else done (s.wr (if cycle then Reg.TIME_CYCLE else Reg.TIME_FRAME) x)

end Sys2Proof.Machine
end

