-- ==== Sys2Proof/Machine/Adc.lean ====
section
/-! DEFINITION. The ADC block: conversions, sample groups, sigma-delta inputs, current-sense amplifiers and sensor
supplies (R180 to R188). -/
namespace Sys2Proof.Machine

/-- Bit c of ADC_BIP over both words. -/
def State.bip (s : State) (c : Nat) : Bool :=
  if c < 32 then s.bit Reg.ADC_BIP_L c else s.bit Reg.ADC_BIP_H (c - 32)

/-- CSA k is enabled. -/
def State.csaOn (s : State) (k : Nat) : Bool := s.on (Reg.ADC_CSA_EN k)

/-- Channel c reads bipolar: by ADC_BIP, or while CSA c/8 replaces pin ANA(8k) (R180, R181). -/
def State.adcBipolar (s : State) (c : Nat) : Bool :=
  s.bip c || (decide (c % 8 = 0 ∧ c < 32) && s.csaOn (c / 8))

/-- The code of a raw 14-bit result (R180). -/
def adcCode (bipolar : Bool) (raw : Nat) : Int := if bipolar then (raw : Int) - 8192 else raw

/-- A raw result at either full-scale code. -/
def adcClipped (raw : Nat) : Bool := raw = 0 || raw = 16383

/-- COM's state of axis n, and its replacement. -/
def State.c (s : State) (n : Nat) : ComSt := SMap.get {} s.com n
def State.setC (s : State) (n : Nat) (c : ComSt) : State := { s with com := SMap.set {} s.com n c }

/-- The source of axis n's DC-link results, and of its chopper-current results: an ADC channel, or a sigma-delta input
plus 64 (R147, R149; log entry 915 for other values of ISRC). -/
def State.vdcKey (s : State) (n : Nat) : Nat :=
  s.rd (Reg.COM_An_VDCG_SRC n) + (if s.on (Reg.COM_An_VDCG_SRCK n) then 0 else 64)
def State.ichKey (s : State) (n : Nat) : Nat := s.rd (Reg.COM_An_CHOP_ISRC n)

/-- A result of source `key` reaches COM on this clock: it awaits its comparison in every axis that watches the source
(R147, R149). -/
def feedCom (key : Nat) (code : Int) (s : State) : State :=
  if ! s.live pdOUT then s
  else s.each (List.range 8) fun n s =>
    let r := [(s.ctTicks, code)]
    let s := s.when (s.vdcKey n = key) fun s => s.setC n { s.c n with vdcIn := (s.c n).vdcIn ++ r }
    s.when (s.ichKey n = key) fun s => s.setC n { s.c n with ichIn := (s.c n).ichIn ++ r }

/-- Mark a result as completed: the running numbers from which SAMPLE derives GFRESH (R184). -/
def stampSeq (key : Nat) (s : State) : State :=
  let n := s.adc.seqCtr + 1
  { s with adc := { s.adc with seqCtr := n, seq := SMap.set 0 s.adc.seq key n } }

/-- A conversion of channel c that started on tick `start` completes with a raw result (R180): the result
and its stamp are kept, and a full-scale code sets CLIP. -/
def adcComplete (c raw start : Nat) (bipolar : Bool) (s : State) : State :=
  let s := (s.wr (Reg.ADC_RESc_CODE c) (trunc 16 (adcCode bipolar raw))).wr (Reg.ADC_RESc_STAMP c) start
  let s := s.when (adcClipped raw) fun s =>
    if c < 32 then s.wrBit Reg.ADC_CLIP_L c true else s.wrBit Reg.ADC_CLIP_H (c - 32) true
  feedCom c (adcCode bipolar raw) (stampSeq c s)

/-- The first tick from which ADC `a` can start a conversion. -/
def State.adcFree (s : State) (a : Nat) : Nat := SMap.get 0 s.adc.free a

/-- ADC `a` is held by a conversion that starts on tick `t`, for 40 ticks (R180). -/
def adcTake (a t : Nat) (s : State) : State :=
  { s with adc := { s.adc with
      heldFrom := if t = s.adcFree a then s.adc.heldFrom else SMap.set 0 s.adc.heldFrom a t
      free := SMap.set 0 s.adc.free a (t + 40) } }

/-- A group conversion of ADC `a` is dropped (R183): DROP is set, ADC_DROP is raised for the first drop after DROP
was cleared. -/
def adcDrop (a : Nat) (s : State) : State :=
  if s.bit Reg.ADC_STAT_DROP a then s else raiseDev (Fc.ADC_DROP a) (s.wrBit Reg.ADC_STAT_DROP a true)

/-- The conversion of a group by a trigger is complete: source 112 + g for groups 0 to 11 (R193). -/
def groupDone (g : Nat) (s : State) : State :=
  s.when (decide (g < 12) && ! (s.adc.wait.any fun w : GConv => w.g = g)) (irq (112 + g))

/-- The feedback state of channel n, and its MODE (R163). -/
def State.fbc (s : State) (n : Nat) : FbSt := SMap.get {} s.fb n
def State.fbMode (s : State) (n : Nat) : Nat := s.rd (Reg.FBK_Cn_CFG_MODE n)

/-- The first value at or after x that an event at these places of period `per` takes after the last one served. -/
def nextAfter (per ph x now : Nat) (last : Option Nat) : Nat :=
  match last with
  | some l => nextAt per ph (if l ≤ now then max x (l + 1) else x)
  | none => nextAt per ph x

/-- The ticks on which conversions held ADC4 or ADC5 without a gap, the latest such span. -/
def State.pairHeld (s : State) : Nat × Nat :=
  let b (a : Nat) : Nat := SMap.get 0 s.adc.heldFrom a
  let (x, y) := if s.adcFree 5 ≤ s.adcFree 4 then (4, 5) else (5, 4)
  (if b x ≤ s.adcFree y then min (b x) (b y) else b x, s.adcFree x)

/-- The next conversion instant of channel 6 or 7 in resolver or sin/cos mode (R172): the first one not served yet, also
one that passed while conversions held ADC4 or ADC5 after the channel was configured (R183). -/
def State.smpNext (s : State) (n : Nat) : Nat :=
  let (from', held) := s.pairHeld
  let f := s.fbc n
  let next (x : Nat) : Nat :=
    if s.fbMode n = 4 then
      nextAfter (s.rd Reg.FBK_EXC) (s.rd Reg.FBK_EXCPH + s.rd (Reg.FBK_Cn_ANA_RDLY n)) x (max s.ctCeil held) f.smpAt
    else nextAfter 400 0 x (max s.ctCeil held) f.smpAt
  let late := next (max from' f.cfgAt)
  if late < held then late else next s.ctCeil

/-- The shunt conversions still due on ADC a, lower axis first: instant, axis and window (R134, R135). -/
def State.shuntDue (s : State) (a : Nat) : List (Nat × Nat × Bool) :=
  (List.range 8).flatMap fun n =>
    match (s.c n).plan with
    | none => []
    | some p =>
      if s.rd (Reg.COM_An_SS_CH n) / 8 = a then
        (if p.dueA then [(p.atA, n, false)] else []) ++ if p.dueB then [(p.atB, n, true)] else []
      else []

/-- A shunt conversion is due on ADC a by tick t (R183). -/
def State.shuntBy (s : State) (a t : Nat) : Bool := (s.shuntDue a).any fun d => decide (d.1 ≤ t)

/-- A resolver or sin/cos sample is due on ADC a by tick t (R172, R183). -/
def State.sampleBy (s : State) (a t : Nat) : Bool :=
  (a = 4 || a = 5) && s.live pdFBK && s.live pdANA &&
    [6, 7].any fun n => (s.fbMode n = 4 || s.fbMode n = 5) && decide (s.smpNext n ≤ t)

/-- The first tick on which ADC a is free for the first of demands due at these instants. -/
def State.firstStart (s : State) (a : Nat) (due : List Nat) : Nat :=
  max (s.adcFree a) (due.foldl min (due.headD 0))

/-- The group conversion ADC a takes next, lower group first, then slot order, and the tick on which it starts; none
while a shunt conversion or a resolver sample goes first (R183). -/
def State.nextGroupConv (s : State) (a : Nat) : Option (GConv × Nat) :=
  let ws := s.adc.wait.filter fun w : GConv => w.ch / 8 = a
  let t := s.firstStart a (ws.map (·.due))
  if s.shuntBy a t || s.sampleBy a t then none
  else
    ((List.range 128).findSome? fun i => ws.find? fun w : GConv => decide (8 * w.g + w.k = i ∧ w.due ≤ t)).map (·, t)

/-- A group conversion waited: GDEFER of its group (R183). -/
def setDefer (g : Nat) (s : State) : State := { s with adc := { s.adc with gdefer := putBit s.adc.gdefer g true } }

/-- The latest result of the source of slot k of group g, sign-extended to a word. -/
def State.slotValue (s : State) (g k : Nat) : Nat :=
  let c := s.rd (Reg.ADC_Gg_Sk_SRC g k)
  let v := if s.on (Reg.ADC_Gg_Sk_SD g k) then s.rd (Reg.ADC_SDRESn_CODE c) else s.rd (Reg.ADC_RESc_CODE c)
  trunc 32 (sext 16 v)

/-- The running number of the latest result of the source of a slot. -/
def State.slotSeq (s : State) (g k : Nat) : Nat :=
  SMap.get 0 s.adc.seq (s.rd (Reg.ADC_Gg_Sk_SRC g k) + (if s.on (Reg.ADC_Gg_Sk_SD g k) then 64 else 0))

/-- Write a word of the frame input buffer (R161). -/
def setFib (i v : Nat) (s : State) : State :=
  { s with anv := { s.anv with fib := SMap.set 0 s.anv.fib i (v % 2 ^ 32) } }

/-- Write consecutive words of the frame input buffer. -/
def setFibs (i : Nat) (vs : List Nat) (s : State) : State :=
  { s with anv := { s.anv with fib := SMap.setMany 0 s.anv.fib i (vs.map (· % 2 ^ 32)) } }

/-- Words 0 to 7 of every axis that is not in single-shunt mode (R128). -/
def comSampleFixed (s : State) : State :=
  s.each (List.range 8) fun n s =>
    match s.rd (Reg.COM_An_CFG_MEAS n) with
    | 1 => s
    | 0 => setFibs (32 * n) (zeros 8) s
    | _ => setFibs (32 * n) (7 :: zeros 7) s

/-- A SAMPLE of the group holding the shunt channel latches the last completed set (R136). -/
def comLatchShunt (n : Nat) (s : State) : State :=
  let c := s.c n
  let w0 := c.set.headD 0 + b2n c.fresh * 4
  (setFibs (32 * n) (padTo 8 (w0 :: c.set.tail)) s).setC n { c with fresh := false }

/-- The slots of a group that a SAMPLE latches (R184). -/
def State.latched (s : State) (g kind : Nat) : List Nat :=
  (List.range 8).filter fun k =>
    s.on (Reg.ADC_Gg_Sk_EN g k) && (if s.on (Reg.ADC_Gg_Sk_SD g k) then kind ≠ 0 else kind ≠ 1)

/-- What SAMPLE latches of one slot (R184). -/
def latchSlot (g k : Nat) (s : State) : State :=
  let v := s.slotValue g k
  let s := setFib (256 + 8 * g + k) v s
  s.when (s.on (Reg.ADC_Gg_Sk_DEN g k)) (setFib (32 * s.rd (Reg.ADC_Gg_Sk_DAX g k) + 24 + s.rd (Reg.ADC_Gg_Sk_DW g k)) v)

/-- The single-shunt axes whose channel an ADC slot among `slots` of group g holds (R136). -/
def State.shuntAxes (s : State) (g : Nat) (slots : List Nat) : List Nat :=
  (List.range 8).filter fun n => s.rd (Reg.COM_An_CFG_MEAS n) = 1 &&
    slots.any fun k => ! s.on (Reg.ADC_Gg_Sk_SD g k) && s.rd (Reg.ADC_Gg_Sk_SRC g k) = s.rd (Reg.COM_An_SS_CH n)

/-- A group conversion that waits at this tick (R183): its place in the group has come and its ADC serves another demand. -/
def State.waits (s : State) (w : GConv) : Bool :=
  let a := w.ch / 8
  ! w.noted && decide (w.due ≤ s.ctTicks) && (decide (w.due < s.adcFree a) ||
    match s.nextGroupConv a with
    | none => true
    | some (v, t) => decide (v ≠ w ∧ t ≤ w.due ∨ v = w ∧ w.due < t))

/-- The group conversions that wait set GDEFER of their groups, each once. -/
def noteWaits (s : State) : State :=
  let ws := s.adc.wait.filter s.waits
  let s := ws.foldl (fun s w => setDefer w.g s) s
  { s with adc := { s.adc with wait := s.adc.wait.map fun w : GConv => if ws.contains w then { w with noted := true } else w } }

/-- The slots of group g into their places, and word 387 with the GDEFER bit given; `last` is the running number of the previous
SAMPLE of the group (R128, R184). -/
def latchGroup (g kind last : Nat) (deferred : Bool) (shunts : List Nat) (s : State) : State :=
  let slots := s.latched g kind
  let fresh := slots ≠ [] && slots.all fun k => decide (last < s.slotSeq g k)
  let w := SMap.get 0 s.anv.fib 387
  let w := putBit (putBit w g fresh) (16 + g) deferred
  let s := (s.each slots (latchSlot g)).each shunts comLatchShunt
  let s := setFib 387 w (comSampleFixed s)
  { s with adc := { s.adc with seq := SMap.set 0 s.adc.seq (128 + g) s.adc.seqCtr } }

/-- SAMPLE of a group (R61, R128, R184). -/
def sample (g kind : Nat) (s : State) : State :=
  let s := noteWaits s
  let m : Sampled := { clk := s.time.clk, g := g, kind := kind, last := SMap.get 0 s.adc.seq (128 + g), gdefer := tb s.adc.gdefer g }
  let s := latchGroup g kind m.last m.gdefer (s.shuntAxes g (s.latched g kind)) s
  let now := s.adc.sampled.filter fun x : Sampled => x.clk = s.time.clk
  { s with adc := { s.adc with gdefer := putBit s.adc.gdefer g false, sampled := now ++ [m] } }

/-- A result, or a shunt set, that completes on the clock of a SAMPLE is latched by it (R136, R184). -/
def reSample (s : State) : State :=
  (s.adc.sampled.filter fun x : Sampled => x.clk = s.time.clk).foldl (fun s m =>
    latchGroup m.g m.kind m.last m.gdefer ((s.shuntAxes m.g (s.latched m.g m.kind)).filter fun n => (s.c n).fresh) s) s

/-- ADC_CONVERSION_DONE: the group conversion of channel c, the next its ADC takes, completes; one that started later
than its place in the group sets GDEFER, and one not started 400 ticks after the trigger is dropped (R180, R183). -/
def execAdcConversionDone (c : Fin 48) (raw : BitVec 14) (s : State) : Out :=
  if ! s.live pdANA then .next s else
  let a := c.val / 8
  match s.nextGroupConv a with
  | none => .next s
  | some (w, start) =>
    if w.ch ≠ c.val then .next s
    else
      let s := { s with adc := { s.adc with wait := s.adc.wait.erase w } }
      let s := s.when (decide (w.due < start) && ! w.noted) (setDefer w.g)
      if w.trig + 400 < start then done (adcDrop a (reach (w.trig + 400) s))
      else
        let s := reach (start + 39) (adcTake a start s)
        done (reSample (groupDone w.g (adcComplete c.val raw.toNat start (s.adcBipolar c.val) s)))

/-- Channel c is the shunt channel of an axis in single-shunt mode (R182). -/
def State.isShuntCh (s : State) (c : Nat) : Bool :=
  (List.range 8).any fun n => s.rd (Reg.COM_An_CFG_MEAS n) = 1 && s.rd (Reg.COM_An_SS_CH n) = c

/-- The carrier period and phase of axis n in ticks (R130). -/
def State.carr (s : State) (n : Nat) : Nat := s.rd (Reg.COM_An_CARR n)
def State.carrPh (s : State) (n : Nat) : Nat := s.rd (Reg.COM_An_PHASE n)

/-- The first valley, and the first peak, of axis n at or after tick x (R130). -/
def State.nextValley (s : State) (n x : Nat) : Nat := nextAt (s.carr n) (s.carrPh n) x
def State.nextPeak (s : State) (n x : Nat) : Nat := nextAt (s.carr n) (s.carrPh n + s.carr n / 2) x

/-- The next trigger instant of group g, later than its last one (R182); none when that of the frame has passed. A START
beyond its bound counts as written (log entry 809). -/
def State.trigAt (s : State) (g : Nat) : Option Nat :=
  let st := s.rd (Reg.ADC_Gg_CFG_START g)
  let n := s.rd (Reg.ADC_Gg_CFG_AXC g)
  let last := SMap.get 0 s.adc.trigd g
  let from' := if last ≤ s.ctCeil + 1 then max s.ctCeil last else s.ctCeil
  let x := from' - st
  match s.rd (Reg.ADC_Gg_CFG_TRIG g) with
  | 0 => none
  | 1 =>
    let t := s.time.fc.toNat * s.frameTicks + st
    if from' ≤ t then some t else none
  | 2 => some (s.nextValley n x + st)
  | _ => some (min (s.nextValley n x) (s.nextPeak n x) + st)

/-- The conversions a trigger of group g on tick t starts: its enabled ADC slots but for shunt channels, back
to back per ADC in slot order. -/
def State.groupConvs (s : State) (g t : Nat) : List GConv :=
  ((List.range 8).foldl (fun (acc : List GConv) k =>
    let c := s.rd (Reg.ADC_Gg_Sk_SRC g k)
    if s.on (Reg.ADC_Gg_Sk_EN g k) && ! s.on (Reg.ADC_Gg_Sk_SD g k) && decide (c < 48) && ! s.isShuntCh c then
      let pos := (acc.filter fun w : GConv => w.ch / 8 = c / 8).length
      acc ++ [{ g := g, k := k, ch := c, trig := t, due := t + 40 * pos }]
    else acc) [])

/-- GROUP_TRIGGER: the trigger instant of a sample group; conversions of its last trigger that still wait are
dropped (R182, R183). -/
def execGroupTrigger (g : Fin 16) (s : State) : Out :=
  if ! s.live pdANA then .next s else
  match s.trigAt g with
  | none => .next s
  | some t =>
    let s := reach t s
    let old := s.adc.wait.filter fun w : GConv => w.g = g.val
    let s := { s with adc := { s.adc with
      wait := (s.adc.wait.filter fun w : GConv => w.g ≠ g.val) ++ s.groupConvs g t
      trigd := SMap.set 0 s.adc.trigd g.val (t + 1) } }
    let s := s.when (old.any fun w : GConv => ! w.noted) (setDefer g)
    done (s.each (old.map fun w : GConv => w.ch / 8) adcDrop)

/-- GROUP_CONVERSION_DROP: the conversion of slot k of group g, whose ADC is taken until more than 400 ticks after the
trigger, is dropped (R183). One whose ADC is free by then can still start and stays. The group's
completion is not raised at a drop (log entry 808). -/
def execGroupConversionDrop (g : Fin 16) (k : Fin 8) (s : State) : Out :=
  if ! s.live pdANA then .next s else
  match s.adc.wait.find? fun w : GConv => w.g = g.val && w.k = k.val with
  | none => .next s
  | some w =>
    if max w.due (s.adcFree (w.ch / 8)) ≤ w.trig + 400 then .next s
    else
      let s := (reach (w.trig + 400) s).when (! w.noted) (setDefer g)
      let s := { s with adc := { s.adc with wait := s.adc.wait.erase w } }
      done (adcDrop (w.ch / 8) s)

/-- log2 of the decimation of sigma-delta input n. -/
def State.sdKd (s : State) (n : Nat) : Nat := 4 + s.rd (Reg.ADC_SDn_DEC n)

/-- The stored code of a raw sinc3 output (R186). -/
def sdCode (kd r : Nat) : Int :=
  clampI (scale (2 * (r : Int) - (2 ^ (3 * kd) : Nat)) (3 * (kd : Int) - 15)).1 (-32768) 32767

/-- One modulator clock of a filter: the bit enters three integrators in a row (R185), and a bit equal to the one before
lengthens the time without a transition (R187). -/
def SincSt.clock (f : SincSt) (b : Bool) : SincSt :=
  let i1 := (f.i1 + b2n b) % 2 ^ 32
  let i2 := (f.i2 + i1) % 2 ^ 32
  { f with i1 := i1, i2 := i2, i3 := (f.i3 + i2) % 2 ^ 32, last := b, same := if b = f.last then f.same + 1 else 0 }

/-- The end of a decimation period: the raw output R of three differences, kept to 0 to D³ (R185). -/
def SincSt.output (f : SincSt) (d : Nat) : Nat × SincSt :=
  let d1 := (f.i3 + 2 ^ 32 - f.p1) % 2 ^ 32
  let d2 := (d1 + 2 ^ 32 - f.p2) % 2 ^ 32
  let d3 := (d2 + 2 ^ 32 - f.p3) % 2 ^ 32
  (min d3 (d ^ 3), { f with p1 := f.i3, p2 := d1, p3 := d2 })

/-- The decimation D of input n, its modulator clock, the divider of that clock, and whether it runs (R185). -/
def State.sdD (s : State) (n : Nat) : Nat := 2 ^ s.sdKd n
def State.sdClk (s : State) (n : Nat) : Nat := s.rd (Reg.ADC_SDn_CKSEL n)
def State.sdDiv (s : State) (n : Nat) : Nat := max 1 (s.rd (Reg.ADC_SDCKk_DIV (s.sdClk n)))
def State.sdRuns (s : State) (n : Nat) : Bool := s.on (Reg.ADC_SDn_EN n) && s.on (Reg.ADC_SDCKk_EN (s.sdClk n))

/-- The first clock from x on which input n captures: the rising edges of its modulator clock, or the falling edges half
a period later (R185; notes/assumptions/804.md). -/
def State.sdEdge (s : State) (n x : Nat) : Nat :=
  let p := SMap.get 0 s.adc.sdCk (s.sdClk n) + (if s.on (Reg.ADC_SDn_EDGE n) then s.sdDiv n / 2 else 0)
  if x ≤ p then p else p + ceilDiv (x - p) (s.sdDiv n) * s.sdDiv n

/-- SINC3_RESULT: a decimation period of input n ends with these modulator bits, the first in bit 0; the result is
available 4 clocks after its last bit, and the first three after EN are discarded (R185, R186). -/
def execSinc3Result (n : Fin 24) (stream : BitVec 256) (s : State) : Out :=
  if ! s.live pdANA then .next s else
  let e := SMap.get 0 s.adc.sdEnd n
  if ! s.sdRuns n || e = 0 then .next s
  else
    let s := advance (e - 1 - s.time.clk) s
    let t := s.ctAgo (s.time.clk - (e - 1)) / 2 ^ 32
    let s := advance (e + 3 - s.time.clk) s
    let d := s.sdD n
    let f := (List.range d).foldl (fun f i => SincSt.clock f (stream.getLsbD i)) (SMap.get {} s.adc.sinc n)
    let (r, f) := f.output d
    let c := SMap.get 0 s.adc.sdCount n
    let s := { s with adc := { s.adc with
      sinc := SMap.set {} s.adc.sinc n.val f
      sdEnd := SMap.set 0 s.adc.sdEnd n.val (e + d * s.sdDiv n)
      sdCount := SMap.set 0 s.adc.sdCount n.val (min 3 (c + 1)) } }
    if c < 3 then done s
    else
      let code := sdCode (s.sdKd n) r
      let s := (s.wr (Reg.ADC_SDRESn_CODE n) (trunc 16 code)).wr (Reg.ADC_SDRESn_STAMP n) t
      done (reSample (feedCom (64 + n.val) code (stampSeq (64 + n.val) s)))

/-- The decimation period of input n after a write to its register or to a clock output: it starts afresh when EN of the
input becomes 1, and stands while the modulator clock stands (R185). -/
def sdSync (n : Nat) (old s : State) : State :=
  let e := SMap.get 0 old.adc.sdEnd n
  let same := decide (s.rd (Reg.ADC_SDn_CKSEL n) = old.rd (Reg.ADC_SDn_CKSEL n) ∧ s.sdDiv n = old.sdDiv n ∧
    s.sdD n = old.sdD n) && s.on (Reg.ADC_SDn_EDGE n) == old.on (Reg.ADC_SDn_EDGE n) && s.sdRuns n == old.sdRuns n
  let starts := s.on (Reg.ADC_SDn_EN n) && ! old.on (Reg.ADC_SDn_EN n)
  if same && ! starts then s
  else
    let left := if starts then s.sdD n
      else if old.sdRuns n then ceilDiv (e - 1 - s.time.clk) (old.sdDiv n) else SMap.get 0 s.adc.sdLeft n
    let left := if left = 0 then s.sdD n else min left (s.sdD n)
    let s := { s with adc := { s.adc with
      sdLeft := SMap.set 0 s.adc.sdLeft n left
      sdEnd := SMap.set 0 s.adc.sdEnd n
        (if s.sdRuns n then s.sdEdge n (s.time.clk + 1) + (left - 1) * s.sdDiv n + 1 else 0) } }
    s.when starts fun s => { s with adc := { s.adc with
      sdCount := SMap.set 0 s.adc.sdCount n 0, seq := SMap.set 0 s.adc.seq (64 + n) 0
      sinc := SMap.set {} s.adc.sinc n {} } }

/-- The axes that route sigma-delta input n (DEN) or use it as DC-link source (R192). -/
def State.sdAxes (s : State) (n : Nat) : Nat :=
  let routed := (List.range 16).foldl (fun m g => (List.range 8).foldl (fun m k =>
    if s.on (Reg.ADC_Gg_Sk_EN g k) && s.on (Reg.ADC_Gg_Sk_SD g k) && s.on (Reg.ADC_Gg_Sk_DEN g k) &&
        decide (s.rd (Reg.ADC_Gg_Sk_SRC g k) = n)
    then orW m (2 ^ s.rd (Reg.ADC_Gg_Sk_DAX g k)) else m) m) 0
  (List.range 8).foldl (fun m x =>
    if s.rd (Reg.COM_An_VDCG_SRCK x) = 0 ∧ s.rd (Reg.COM_An_VDCG_SRC x) = n then orW m (2 ^ x) else m) routed

/-- SD_STUCK: input n showed no transition for STOUT × 16 modulator clocks: those to the end of its last decimation period
and `more` of the one in progress (R187). -/
def execSdStuck (n : Fin 24) (more : BitVec 8) (s : State) : Out :=
  if ! s.live pdANA then .next s else
  if s.sdRuns n && decide (16 * s.rd (Reg.ADC_SDn_STOUT n) ≤ (SMap.get {} s.adc.sinc n : SincSt).same + more.toNat) then
    done (raiseAxes (Fc.SD_STUCK n) (s.sdAxes n) (s.wrBit Reg.ADC_SDSTUCK n true))
  else .next s

/-- CSA_OVR: the inputs of amplifier k leave the common-mode range (R181). -/
def execCsaOvr (k : Fin 4) (s : State) : Out :=
  if ! s.live pdANA then .next s else
  if s.csaOn k then done (raiseDev (Fc.CSA_OVR k) (s.put (Reg.ADC_CSA_OVR k) true)) else .next s

/-- Supply k delivers: EN is set, it was not switched off, and PD_ANA is powered (R188). -/
def State.ssupOn (s : State) (k : Nat) : Bool :=
  s.live pdANA && s.bit Reg.ADC_SSUP_EN k && ! tb s.adc.ssupOff k

/-- PG of supply k: it delivers and its output lies within the band, which is a free value (R188). -/
def State.ssupPg (s : State) (k : Nat) : Bool := s.ssupOn k && decide (Config.supplyInBand k s.time.clk = 1)

/-- SSUP_FAULT: supply k has been in current limit or below 4.5 V for 1 ms and is switched off (R188). -/
def execSsupFault (k : Fin 4) (s : State) : Out :=
  if s.ssupOn k then
    let s := (s.wrBit Reg.ADC_SSUP_FAULT k true).wrBit Reg.ADC_SSUP_PG k false
    done (raiseDev (Fc.SSUP_FAULT k) { s with adc := { s.adc with ssupOff := putBit s.adc.ssupOff k true } })
  else .next s

end Sys2Proof.Machine
end

