-- ==== Sys2Proof/Machine/Fbk.lean ====
section
/-! DEFINITION. The digital feedback channels and the resolver and sin/cos inputs (R163 to R179). -/
namespace Sys2Proof.Machine

/-- The replacement of channel n. -/
def State.setFb (s : State) (n : Nat) (f : FbSt) : State := { s with fb := SMap.set {} s.fb n f }

/-- The channel FBK_AXMAP names for axis k (R177). -/
def State.axChan (s : State) (k : Nat) : Nat := bits (s.rd Reg.FBK_AXMAP) (3 * k) 3

/-- The axes mapped to channel n, as a set. -/
def State.chanAxes (s : State) (n : Nat) : Nat :=
  (List.range 8).foldl (fun m k => if s.axChan k = n then orW m (2 ^ k) else m) 0

/-- An axis mapped to channel n is out of DISABLED. -/
def State.chanBusy (s : State) (n : Nat) : Bool :=
  (List.range 8).any fun k => s.axChan k = n && decide (s.ax k ≠ axDISABLED)

/-- A fault of channel n acts on every axis mapped to it (R192). -/
def fbFault (code n : Nat) (s : State) : State :=
  raise { code := code, axes := s.chanAxes n, addr := lowBit 8 (s.chanAxes n) } s

/-- Clear VALID of a channel. -/
def fbInvalid (n : Nat) (s : State) : State := s.setFb n { s.fbc n with valid := false }

/-- The Hall state UVW of a channel. -/
def FbSt.uvw (f : FbSt) : Nat := b2n f.a * 4 + b2n f.b * 2 + b2n f.z

/-- SSI data bits and clock edges M of a transfer (R170). -/
def State.ssiNb (s : State) (n : Nat) : Nat := s.rd (Reg.FBK_Cn_SSI_NB n)
def State.ssiM (s : State) (n : Nat) : Nat := s.ssiNb n + 2 + s.rd (Reg.FBK_Cn_CFG_PAR n)

/-- Offset of the result from T0 in ticks: the check sample and 2 clocks (R170). -/
def State.ssiSpan (s : State) (n : Nat) : Nat :=
  (2 * s.ssiM n - 1) * s.rd (Reg.FBK_Cn_SSI_HALF n) + s.rd (Reg.FBK_Cn_SSI_LDLY n)

/-- CFG_BAD of channel n (R170). -/
def State.fbCfgBad (s : State) (n : Nat) : Bool :=
  let ofs := s.rd (Reg.FBK_Cn_SSIOFS n)
  s.fbMode n = 3 && decide (s.frameTicks ≤ ofs + s.ssiSpan n + 2 ∨ s.frameTicks ≤ ofs)

/-- The live status bits of a channel (R177, word 4). -/
def State.fbStatus (s : State) (n : Nat) : Nat :=
  let f := s.fbc n
  b2n (f.valid && decide (s.fbMode n ≠ 0)) + b2n f.rev * 2 + b2n f.dirChg * 4 + b2n f.idxSeen * 8 +
    b2n f.idxRef * 16 + b2n f.frozen * 32 + b2n f.wfull * 64 + b2n f.ssiErr * 128 + b2n f.hallBad * 256 +
    b2n f.los * 512 + b2n f.ampBad * 1024 + b2n (s.fbCfgBad n) * 2048

/-- The feedback section of channel n (R177). -/
def State.fbWords (s : State) (n : Nat) : List Nat :=
  let f := s.fbc n
  let w1 := match s.fbMode n with
    | 3 => f.pos / 2 ^ 32
    | 2 => f.uvw + f.hallIdx.getD 0 * 16
    | 4 => f.mag % 2 ^ 16
    | 5 => f.mag % 2 ^ 16
    | _ => 0
  [f.pos % 2 ^ 32, w1, trunc 32 f.edges, if s.fbMode n = 1 then f.idxPos else 0, s.fbStatus n,
    s.rd (Reg.FBK_Cn_ILLCNT n), f.stamp, s.ctTicks % 2 ^ 32]

/-- CAPTURE of channel n: its section in every axis mapped to it; DIR_CHG and IDX_SEEN clear once latched (R177). -/
def fbCapture (n : Nat) (s : State) : State :=
  let ws := s.fbWords n
  let f := s.fbc n
  let s := s.each (bitsOf 8 (s.chanAxes n)) fun k s => setFibs (32 * k + 16) ws s
  s.setFb n { f with dirChg := false, idxSeen := false, capAt := some s.time.clk, capDir := f.dirChg, capIdx := f.idxSeen }

/-- What REARM clears and sets (R178; log entries 912 and 917); what it replaces is kept for its clock (R179). -/
def rearmNow (n : Nat) (s : State) : State :=
  let f := s.fbc n
  let f := { f with kept := {
    pos := f.pos, valid := f.valid, hist := f.hist, edges := f.edges, wfull := f.wfull, illHist := f.illHist,
    illCnt := s.rd (Reg.FBK_Cn_ILLCNT n), idxRef := f.idxRef, dirChg := f.dirChg, idxSeen := f.idxSeen, frozen := f.frozen,
    ssiErr := f.ssiErr, hallBad := f.hallBad, los := f.los, ampBad := f.ampBad, missing := f.missing, dirSince := f.dirSince,
    bad := f.bad } }
  let pos := if s.fbMode n = 1 || s.fbMode n = 2 then 0 else f.pos
  let f := { f with
    pos := pos, valid := true, hist := [pos], edges := 0, wfull := false, illHist := [], idxRef := false
    dirChg := false, idxSeen := false, frozen := false, ssiErr := false, hallBad := false, los := false
    ampBad := false, missing := false, dirSince := false, bad := 0, rearmAt := some s.time.clk }
  (s.setFb n f).wr (Reg.FBK_Cn_ILLCNT n) 0

/-- The channel with what its last REARM replaced. -/
def unRearm (n : Nat) (s : State) : State :=
  let f := s.fbc n
  let k := f.kept
  let f := { f with
    pos := k.pos, valid := k.valid, hist := k.hist, edges := k.edges, wfull := k.wfull, illHist := k.illHist
    idxRef := k.idxRef, dirChg := k.dirChg, idxSeen := k.idxSeen, frozen := k.frozen, ssiErr := k.ssiErr
    hallBad := k.hallBad, los := k.los, ampBad := k.ampBad, missing := k.missing, dirSince := k.dirSince, bad := k.bad }
  (s.setFb n f).wr (Reg.FBK_Cn_ILLCNT n) k.illCnt

/-- An operation on channel n acts before a REARM of its clock (R179). -/
def beforeRearm (n : Nat) (f : State → State) (s : State) : State :=
  if (s.fbc n).rearmAt = some s.time.clk then rearmNow n (f (unRearm n s)) else f s

/-- An event of channel n (R179): a CAPTURE of this clock includes it, and a REARM of this clock acts after both. -/
def fbEvent (n : Nat) (e : State → State) (s : State) : State :=
  beforeRearm n (fun s =>
    let s := e s
    let f := s.fbc n
    s.when (f.capAt = some s.time.clk) fun s =>
      fbCapture n (s.setFb n { f with dirChg := f.dirChg || f.capDir, idxSeen := f.idxSeen || f.capIdx })) s

/-- EDGES and WFULL of channel n from its history (R174). -/
def fbEdges (n : Nat) (s : State) : State :=
  let f := s.fbc n
  let w := s.rd (Reg.FBK_Cn_CFG_SPDW n) + 1
  let full := decide (w < f.hist.length)
  let now := f.hist.headD 0
  let old := f.hist.getD w 0
  let e : Int :=
    if ! full || f.frozen then 0
    else if s.fbMode n = 3 then
      satS 32 (sext (s.ssiNb n) (now + 2 ^ s.ssiNb n - old % 2 ^ s.ssiNb n))
    else sext 32 (now + 2 ^ 32 - old % 2 ^ 32)
  s.setFb n { f with wfull := full, edges := e }

/-- The frame tick of channel n (R166, R174): the position history, EDGES and the illegal-edge window. -/
def fbTick (n : Nat) (s : State) : State :=
  let f := s.fbc n
  let hist := if f.hist = [] then [] else (f.pos :: f.hist).take 65
  fbEdges n (s.setFb n { f with hist := hist, illHist := (0 :: f.illHist).take 64, tickAt := some s.time.clk })

/-- A count on the clock of the channel's frame tick is in the history entry of that tick (R179). -/
def tickAgain (n : Nat) (s : State) : State :=
  let f := s.fbc n
  if f.tickAt = some s.time.clk ∧ 1 < f.hist.length then
    fbEdges n (s.setFb n { f with hist := f.pos :: f.hist.tail })
  else s

/-- The majority filter over the last `nf` samples, the latest first; evenly split samples keep the level (R164). -/
def majority (nf : Nat) (prev : Bool) (l : List Bool) : Bool :=
  let w := l.take nf
  let ones := (w.filter id).length
  if nf < 2 * ones then true else if nf < 2 * (w.length - ones) then false else prev

/-- NF of channel n (R164), and TS in samples (R167). -/
def State.nf (s : State) (n : Nat) : Nat := s.rd (Reg.FBK_Cn_CFG_NF n) + 1
def State.tsMin (s : State) (n : Nat) : Nat := max 4 (s.nf n / 2 + 1)

/-- The filtered lines A, B and Z, or U, V and W, of channel n after these raw samples, the latest first: bits 2, 1 and 0
of a sample are the lines (R164). -/
def State.filtered (s : State) (n : Nat) (raw : List (BitVec 3)) : Bool × Bool × Bool :=
  let f := s.fbc n
  let line (i : Nat) (prev : Bool) : Bool := majority (s.nf n) prev (raw.map fun r : BitVec 3 => r.getLsbD i)
  (line 2 f.a, line 1 f.b, line 0 f.z)

/-- The modular distance of two 32-bit positions. -/
def modDist (a b : Nat) : Nat := (sext 32 ((a + 2 ^ 32 - b % 2 ^ 32) % 2 ^ 32)).natAbs

/-- An illegal transition (R165, R166, R169): counted, source 66 + 4n, ILLEGAL_EDGE; ENC_ILLEGAL when the window
holds more than ILL_LIM. -/
def illegalEdge (n : Nat) (s : State) : State :=
  let f := s.fbc n
  let h := (f.illHist.headD 0 + 1) :: f.illHist.tail
  let s := (s.setFb n { f with illHist := h }).inc (Reg.FBK_Cn_ILLCNT n)
  let s := fbFault (Fc.ILLEGAL_EDGE n) n (raiseIrq (66 + 4 * n) s)
  let win := (h.take (s.rd (Reg.FBK_Cn_ILL_ILL_WIN n) + 1)).foldl (· + ·) 0
  s.when (decide (s.rd (Reg.FBK_Cn_ILL_ILL_LIM n) < win)) (fbFault (Fc.ENC_ILLEGAL n) n)

/-- The index check on a count (R168): IDX_MISSING beyond 4 × LINES + TOL. -/
def indexOnCount (n : Nat) (s : State) : State :=
  let f := s.fbc n
  let lines := s.rd (Reg.FBK_Cn_IDX_LINES n)
  if decide (0 < lines) && f.idxRef && ! f.missing &&
      decide (4 * lines + s.rd (Reg.FBK_Cn_IDX_TOL n) < modDist f.pos f.idxPos) then
    fbFault (Fc.IDX_MISSING n) n (s.setFb n { f with valid := false, missing := true })
  else s

/-- One count of a quadrature or Hall channel (R165, R169, R175); a frozen counter does not count (R167). -/
def countStep (n : Nat) (rev : Bool) (s : State) : State :=
  let f := s.fbc n
  if f.frozen then s
  else
    let rev := rev != s.on (Reg.FBK_Cn_CFG_DIRINV n)
    let turned := f.stepped && (f.rev != rev)
    let f := { f with
      pos := (if rev then f.pos + 2 ^ 32 - 1 else f.pos + 1) % 2 ^ 32
      rev := rev, stepped := true, dirChg := f.dirChg || turned, dirSince := f.dirSince || turned
      stamp := s.ctTicks % 2 ^ 32 }
    let s := tickAgain n (s.setFb n f)
    let s := s.when turned (raiseIrq (64 + 4 * n))
    s.when (s.fbMode n = 1) (indexOnCount n)

/-- The place of a pair (A, B) in the forward sequence (0,0), (1,0), (1,1), (0,1). -/
def quadIdx (a b : Bool) : Nat :=
  match a, b with
  | false, false => 0 | true, false => 1 | true, true => 2 | false, true => 3

/-- QUADRATURE_TRANSITION: with the raw samples up to `clk` clocks on, the filtered pair (A, B) of channel n changes (R164), which
counts in quadrature mode (R165); in Hall mode the lines are U, V and W. -/
def execQuadratureTransition (n : Fin 8) (clk : Nat) (raw : List (BitVec 3)) (s : State) : Out :=
  if ! s.live pdFBK then .next s else
  if s.fbMode n = 2 then .next s
  else
    let s := advance clk s
    let f := s.fbc n
    let (a, b, _) := s.filtered n raw
    let step := (quadIdx a b + 4 - quadIdx f.a f.b) % 4
    let s := s.setFb n { f with a := a, b := b }
    if s.fbMode n ≠ 1 then done s
    else match step with
    | 0 => done s
    | 1 => done (fbEvent n (countStep n false) s)
    | 3 => done (fbEvent n (countStep n true) s)
    | _ => done (fbEvent n (illegalEdge n) s)

/-- An accepted index with LINES above 0 (R168). -/
def indexAccepted (n : Nat) (s : State) : State :=
  let f := s.fbc n
  let lines := s.rd (Reg.FBK_Cn_IDX_LINES n)
  let tol := s.rd (Reg.FBK_Cn_IDX_TOL n)
  let d := modDist f.pos f.idxPos
  let bad := f.idxRef && ! f.dirSince && decide (d + tol < 4 * lines ∨ 4 * lines + tol < d)
  let s := s.setFb n { f with
    idxPos := f.pos, idxRef := true, idxSeen := true, missing := false, dirSince := false, valid := f.valid && ! bad }
  raiseIrq (65 + 4 * n) (s.when bad (fbFault (Fc.IDX_ERR n) n))

/-- INDEX_ACCEPT: the raw samples up to `clk` clocks on. The index is accepted when filtered Z is 1 after being 0, with
ZGATE only while filtered A and B are 1 (R164, R168); LINES = 0 disables the index (R194). -/
def execIndexAccept (n : Fin 8) (clk : Nat) (raw : List (BitVec 3)) (s : State) : Out :=
  if ! s.live pdFBK then .next s else
  if s.fbMode n = 2 then .next s
  else
    let s := advance clk s
    let (_, _, before) := s.filtered n (raw.drop 1)
    let (a, b, z) := s.filtered n raw
    let rises := s.fbMode n = 1 && ! before && z && (! s.on (Reg.FBK_Cn_CFG_ZGATE n) || (a && b))
    let lines := s.rd (Reg.FBK_Cn_IDX_LINES n)
    let s := s.setFb n { s.fbc n with z := z }
    done (s.when (rises && decide (0 < lines)) (fbEvent n (indexAccepted n)))

/-- Overrate (R167, R173): the position is frozen, OVERRATE is set and raised, VALID clears. -/
def overrate (n : Nat) (s : State) : State :=
  fbFault (Fc.OVERRATE n) n (s.setFb n { s.fbc n with frozen := true, valid := false, edges := 0 })

/-- OVERRATE: the raw intervals, in samples, that ended in a window of 256 samples; more than OVR_N of them are shorter
than TS (R167). -/
def execOverrate (n : Fin 8) (gaps : List Nat) (s : State) : Out :=
  if ! s.live pdFBK then .next s else
  let short := (gaps.filter fun g => decide (g < s.tsMin n)).length
  if (s.fbMode n = 1 || s.fbMode n = 2) && decide (s.rd (Reg.FBK_Cn_ILL_OVR_N n) < short) then done (overrate n s)
  else .next s

/-- The sequence index of a valid Hall state (R169). -/
def hallIndex : Nat → Option Nat
  | 4 => some 0 | 6 => some 1 | 2 => some 2 | 3 => some 3 | 1 => some 4 | 5 => some 5 | _ => none

/-- HALL_STATE_CHANGE: with the raw samples up to `clk` clocks on, the filtered state UVW of channel n changes (R164,
R169). -/
def execHallStateChange (n : Fin 8) (clk : Nat) (raw : List (BitVec 3)) (s : State) : Out :=
  if ! s.live pdFBK then .next s else
  if s.fbMode n = 1 then .next s
  else
    let s := advance clk s
    let (u, v, w) := s.filtered n raw
    let f := { s.fbc n with a := u, b := v, z := w }
    if s.fbMode n ≠ 2 then done (s.setFb n f)
    else if f.uvw = (s.fbc n).uvw then done s
    else
      let f := { f with hallAt := s.ctTicks }
      match hallIndex f.uvw with
      | none => done (fbEvent n (fun s => s.setFb n { s.fbc n with hallBad := true }) (s.setFb n f))
      | some i =>
        let s := s.setFb n { f with hallIdx := some i }
        match f.hallIdx with
        | none => done s
        | some j =>
          match (i + 6 - j) % 6 with
          | 0 => done s
          | 1 => done (fbEvent n (countStep n false) s)
          | 5 => done (fbEvent n (countStep n true) s)
          | _ => done (fbEvent n (illegalEdge n) s)

/-- HALL_ILLEGAL: an invalid state was held for HTOUT µs (R169). -/
def execHallIllegal (n : Fin 8) (s : State) : Out :=
  if ! s.live pdFBK then .next s else
  let f := s.fbc n
  if s.fbMode n = 2 && (hallIndex f.uvw).isNone then
    let s := reach (f.hallAt + usTicks (s.rd (Reg.FBK_Cn_HALL n))) s
    done (fbFault (Fc.HALL_ILLEGAL n) n (fbInvalid n s))
  else .next s

/-- A bad sample or transfer: counted; the fault is raised and VALID cleared when NBAD follow each other. -/
def badSample (code n : Nat) (s : State) : State :=
  let f := s.fbc n
  let s := s.setFb n { f with bad := f.bad + 1 }
  s.when (f.bad + 1 = s.rd (Reg.FBK_Cn_SSI_NBAD n)) fun s => fbFault code n (fbInvalid n s)

/-- An invalid SSI transfer (R171): the position is held, SSI_ERR is set and SSI_ERROR raised. -/
def ssiInvalid (n : Nat) (s : State) : State :=
  let s := s.setFb n { s.fbc n with ssiErr := true, ssiT0 := none }
  badSample (Fc.SSI_FAULT n) n (fbFault (Fc.SSI_ERROR n) n s)

/-- SSI_TRANSFER_START: T0 of the frame, once a frame and below FRAME_TICKS; a low data line makes the transfer invalid
and no clock is driven (R170, R171). -/
def execSsiTransferStart (n : Fin 8) (high : Bool) (s : State) : Out :=
  if ! s.live pdFBK then .next s else
  if s.fbMode n ≠ 3 then .next s
  else
    let ofs := s.rd (Reg.FBK_Cn_SSIOFS n)
    let t0 := s.time.fc.toNat * s.frameTicks + ofs
    let started := match (s.fbc n).ssiAt with
      | some l => decide (t0 ≤ l ∧ l ≤ s.ctCeil)
      | none => false
    if started || decide (s.frameTicks ≤ ofs) || decide (t0 < (s.fbc n).cfgAt) then .next s
    else
      let s := reach t0 s
      let s := s.setFb n { s.fbc n with ssiAt := some t0 }
      if high then done (s.setFb n { s.fbc n with ssiT0 := some t0 }) else done (fbEvent n (ssiInvalid n) s)

/-- The parity of the low `k` bits. -/
def parity (k v : Nat) : Nat := (bitsOf k v).length % 2

/-- Binary value of a Gray code of `k` bits: bit i is the parity of the bits from i up. -/
def gray (k v : Nat) : Nat :=
  (List.range k).foldl (fun r i => r + parity (k - i) (v / 2 ^ i % 2 ^ (k - i)) * 2 ^ i) 0

/-- SSI_RESULT: the data bits, the parity bit and the check sample of the transfer in progress (R170, R171; log entry 916 for the
difference modulo 2^NB). -/
def execSsiResult (n : Fin 8) (data : BitVec 40) (par check : Bool) (s : State) : Out :=
  if ! s.live pdFBK then .next s else
  let f := s.fbc n
  match f.ssiT0.filter fun _ => s.fbMode n = 3 with
  | none => .next s
  | some t0 =>
    let s := reach (t0 + s.ssiSpan n + 2) s
    let nb := s.ssiNb n
    let raw := data.toNat % 2 ^ nb
    let v := if s.on (Reg.FBK_Cn_CFG_GRAY n) then gray nb raw else raw
    let parBad := s.on (Reg.FBK_Cn_CFG_PAR n) && decide ((parity nb raw + b2n par) % 2 = 1)
    let jump := match f.ssiLast with
      | none => false
      | some l =>
        let d := (v + 2 ^ nb - l % 2 ^ nb) % 2 ^ nb
        decide (s.rd (Reg.FBK_Cn_JMAX n) < min d (2 ^ nb - d))
    if check || parBad || jump then done (fbEvent n (ssiInvalid n) s)
    else done (fbEvent n (fun s => s.setFb n { s.fbc n with
      ssiT0 := none, ssiLast := some v, pos := v, bad := 0, stamp := t0 % 2 ^ 32 }) s)

/-- atan(2^−i) in units of 2^−64 turn, for i = 0 to 47. -/
def atan64 : List Int :=
  [2305843009213693952, 1361218612134873190, 719230530580881038, 365092647525521947]
  ++ [183254791493294829, 91716730292036216, 45869556482713130, 22936177926750895]
  ++ [11468263948075831, 5734153847876408, 2867079658191483, 1433540170878135]
  ++ [716770128161890, 358385069421298, 179192535378193, 89596267772540]
  ++ [44798133896700, 22399066949654, 11199533474990, 5599766737515]
  ++ [2799883368760, 1399941684380, 699970842190, 349985421095]
  ++ [174992710548, 87496355274, 43748177637, 21874088818]
  ++ [10937044409, 5468522205, 2734261102, 1367130551]
  ++ [683565276, 341782638, 170891319, 85445659]
  ++ [42722830, 21361415, 10680707, 5340354]
  ++ [2670177, 1335088, 667544, 333772]
  ++ [166886, 83443, 41722, 20861]

/-- Vectoring steps: the angle of (x, y), x > 0, y ≥ 0, in units of 2^−64 turn. -/
def vecSteps : List Int → Nat → Int → Int → Int → Int
  | [], _, _, _, z => z
  | a :: as, i, x, y, z =>
    if y ≥ 0 then vecSteps as (i + 1) (x + ashr y i) (y - ashr x i) (z + a)
    else vecSteps as (i + 1) (x - ashr y i) (y + ashr x i) (z - a)

/-- The whole 2^−16 turns of atan2(y, x), rounded down, and whether the angle lies exactly on one. -/
def atan2Turn (y x : Int) : Nat × Bool :=
  let ax := x.natAbs
  let ay := y.natAbs
  if x = 0 ∨ y = 0 ∨ ax = ay then
    let e : Nat :=
      if y = 0 then (if x ≥ 0 then 0 else 4)
      else if x = 0 then (if y > 0 then 2 else 6)
      else if x > 0 then (if y > 0 then 1 else 7) else (if y > 0 then 3 else 5)
    (e * 8192, true)
  else
    let z := vecSteps atan64 0 ((ax : Int) * 2 ^ 60) ((ay : Int) * 2 ^ 60) 0
    let half : Int := 2 ^ 63
    let w := if x > 0 then (if y > 0 then z else -z) else (if y > 0 then half - z else z - half)
    (trunc 16 (ashr w 48), false)

/-- The integer square root of a value below 2^30. -/
def isqrt (v : Nat) : Nat :=
  (List.range 15).foldl (fun r i => let b := 2 ^ (14 - i); if (r + b) * (r + b) ≤ v then r + b else r) 0

/-- A value that lies between a whole number and the next is rounded to one of the two; R172 does not state which, and the
same inputs always give the same one (R20). -/
def roundOpen (tag v : Nat) (exact : Bool) (sn cs : Int) : Nat :=
  if exact then v else v + (Config.openResult tag [sn, cs]).toNat % 2

/-- The angle of R172; the angle of the zero vector is not stated. -/
def resolverAngle (sn cs : Int) : Nat :=
  if sn = 0 ∧ cs = 0 then (Config.openResult 1 [sn, cs]).toNat % 2 ^ 16
  else
    let a := atan2Turn sn cs
    roundOpen 1 a.1 a.2 sn cs % 2 ^ 16

/-- The magnitude of R172. -/
def resolverMag (sn cs : Int) : Nat :=
  let v := (sn * sn + cs * cs).toNat
  let m := isqrt v
  roundOpen 2 m (m * m = v) sn cs

/-- The position after a new angle (R172): turns count the crossings of the angle between the last and the first
quadrant. -/
def turnPos (pos ang : Nat) (last : Option Nat) : Nat :=
  let turns := pos / 2 ^ 16
  let turns := match last with
    | none => turns
    | some l => if l / 2 ^ 14 = 3 ∧ ang / 2 ^ 14 = 0 then turns + 1
                else if l / 2 ^ 14 = 0 ∧ ang / 2 ^ 14 = 3 then turns + 2 ^ 16 - 1 else turns
  (turns * 2 ^ 16 + ang) % 2 ^ 32

/-- A resolver or sin/cos sample of the angle given, its magnitude out of AMIN to AMAX or not (R172, R173). -/
def fbSample (n ang : Nat) (bad : Bool) (s : State) : State :=
  let f := s.fbc n
  if bad then badSample (Fc.SIGNAL_LOST n) n (s.setFb n { f with ampBad := true })
  else
    let far := match f.ang with
      | none => false
      | some l => decide (2 ^ 14 < (sext 16 (ang + 2 ^ 16 - l)).natAbs)
    let g := { f with bad := 0, ang := some ang }
    if f.frozen then s.setFb n g
    else if far then overrate n (s.setFb n g)
    else s.setFb n { g with pos := turnPos f.pos ang f.ang }

/-- RESOLVER_SAMPLE: the sine and cosine results of FB6 or FB7 at their next instant (R172, R173). A sample that waits for
its converters converts late, and shunt conversions go first (R183). -/
def execResolverSample (ch7 : Bool) (sn cs : BitVec 14) (s : State) : Out :=
  if ! s.live pdFBK || ! s.live pdANA then .next s else
  let n := if ch7 then 7 else 6
  if s.fbMode n ≠ 4 ∧ s.fbMode n ≠ 5 then .next s
  else
    let at' := s.smpNext n
    let start := max at' (max (s.adcFree 4) (s.adcFree 5))
    if s.shuntBy 4 start || s.shuntBy 5 start then .next s else
    let s := s.setFb n { s.fbc n with smpAt := some at' }
    let s := adcTake 5 start (adcTake 4 start (reach (start + 39) s))
    let s := adcComplete (32 + n) sn.toNat start true s
    let s := reSample (adcComplete (40 + n) cs.toNat start true s)
    let x := adcCode true cs.toNat
    let y := adcCode true sn.toNat
    let ang := resolverAngle y x
    let mag := resolverMag y x
    let bad := decide (mag < 32 * s.rd (Reg.FBK_Cn_ANA_AMIN n) ∨ 32 * s.rd (Reg.FBK_Cn_ANA_AMAX n) < mag)
    done (fbEvent n (fun s => fbSample n ang bad (s.setFb n { s.fbc n with mag := mag, stamp := start % 2 ^ 32 })) s)

/-- LINE_LOSS: the two lines of an input pair stay within 200 mV for 1 µs (R176). -/
def execLineLoss (n : Fin 8) (s : State) : Out :=
  if ! s.live pdFBK then .next s else
  if s.on (Reg.FBK_Cn_CFG_LOSEN n) then
    done (fbFault (Fc.SIGNAL_LOST n) n (s.setFb n { s.fbc n with los := true, valid := false }))
  else .next s

/-- Re-arm one channel (R178): refused while a mapped axis is out of DISABLED. -/
def rearm (n : Nat) (s : State) : State :=
  if s.chanBusy n then s.wrBit Reg.FBK_WDENY n true else rearmNow n s

/-- REARM: a write of 1 to bits of FBK_CTRL.REARM (R178). -/
def execRearm (mask : BitVec 8) (s : State) : Out :=
  if ! s.live pdFBK then .next s else
  done (s.each (bitsOf 8 mask.toNat) rearm)

/-- FBK_AXMAP_WRITE: performed entry by entry (R190). -/
def execFbkAxmapWrite (v : BitVec 24) (s : State) : Out :=
  if ! s.live pdFBK then .next s else
  if s.on Reg.FBK_CTRL_LOCK then .next s
  else
    done (s.each (List.range 8) fun k s =>
      let new := bits v.toNat (3 * k) 3
      if s.ax k = axDISABLED then s.wr Reg.FBK_AXMAP (putBits (s.rd Reg.FBK_AXMAP) (3 * k) 3 new)
      else s.when (decide (new ≠ s.axChan k)) fun s => s.wrBit Reg.FBK_WDENY (s.axChan k) true)

end Sys2Proof.Machine
end

