-- ==== Sys2Proof/Machine/Com.lean ====
section
/-! DEFINITION. The commutation block: single-shunt sampling and reconstruction, the limits handed to the engine, the
DC link, the chopper and the trip (R128 to R158). -/
namespace Sys2Proof.Machine

/-- Half the carrier period of axis n in ticks. -/
def State.half (s : State) (n : Nat) : Nat := s.carr n / 2

/-- The carrier satisfies R130 and R131. -/
def State.carrierOk (s : State) (n : Nat) : Bool :=
  let c := s.carr n
  decide (c % 2 = 0 ∧ 10000 ≤ c ∧ c ≤ 400000 ∧ s.carrPh n < c) &&
    (if c ≤ s.frameTicks then s.frameTicks % c = 0 else c % s.frameTicks = 0)

/-- CFG_BAD of axis n (R157). -/
def State.cfgBad (s : State) (n : Nat) : Bool :=
  let tmin := s.rd (Reg.COM_An_SS_TMIN n)
  let shunt := decide (47 < s.rd (Reg.COM_An_SS_CH n) ∨ tmin < s.rd (Reg.COM_An_SS_SETTLE n) + 40 ∨
    tmin < 200 ∨ 2000 < tmin)
  let hi1 := sext 16 (s.rd (Reg.COM_An_VDC1_HI1 n))
  let hi2 := sext 16 (s.rd (Reg.COM_An_VDC2_HI2 n))
  let trip := sext 16 (s.rd (Reg.COM_An_VDC2_TRIP n))
  let hyst := s.rd (Reg.COM_An_VDC1_HYST n)
  let kind := s.rd (Reg.COM_An_CFG_SAFE_KIND n)
  ! s.carrierOk n ||
    (s.rd (Reg.COM_An_CFG_MEAS n) = 1 && shunt) ||
    ! decide (hi1 < hi2 ∧ hi2 < trip) || decide (hyst = 0 ∨ hi1 < hyst) ||
    (kind = 1 && (s.on (Reg.COM_An_CFG_MOTOR n) || ! s.on (Reg.COM_An_CFG_ASC_ALLOW n))) || kind = 3 ||
    (s.on (Reg.COM_An_CHOP_CH_EN n) && (s.rd (Reg.COM_An_CHT_TCHK n) = 0 || s.rd (Reg.COM_An_CHT_IDLY n) = 0)) ||
    s.rd (Reg.COM_An_VDCG_TOUT n) = 0

/-- A value of an edge-command block, kept to 0 to 8H (R196). -/
def clampEdge (h8 v : Nat) : Nat := (clampI (sext 32 v) 0 h8).toNat

/-- The word of a block for leg x (0 a, 1 b, 2 c) in a falling or a rising half. -/
def blockWord (b : List Nat) (falling : Bool) (x : Nat) : Nat := b.getD (if falling then 1 + x else 4 + x) 0

/-- Leg x of an axis. -/
def OutSt.leg (o : OutSt) (x : Nat) : LegSt := if x = 0 then o.legA else if x = 1 then o.legB else o.legC
def OutSt.setLeg (o : OutSt) (x : Nat) (l : LegSt) : OutSt :=
  if x = 0 then { o with legA := l } else if x = 1 then { o with legB := l } else { o with legC := l }

/-- A block has OFF set, or no block was ever in force. -/
def OutSt.blockOff (o : OutSt) : Bool := decide (o.block = []) || tb (o.block.headD 0) 0

/-- The axes covered by a standing TRIP latch (R202). -/
def State.tripMask (s : State) : Nat :=
  (List.range 8).foldl (fun m t =>
    if s.bit Reg.OUT_TRIP_STAT_LATCH t then orW m (s.rd (Reg.OUT_TRIPt_AXMASK t)) else m) 0

/-- The phase switches of axis n are blocked by a TRIP latch (R202). -/
def State.tripped (s : State) (n : Nat) : Bool := tb s.tripMask n || (s.o n).tripHeld

/-- The axis is in RUNNING, STOPPING or HELD. -/
def State.driving (s : State) (n : Nat) : Bool := [axRUNNING, axSTOPPING, axHELD].contains (s.ax n)

/-- Blocks of the axis are executed (R199). -/
def State.executes (s : State) (n : Nat) : Bool := s.driving n && ! s.safeNow n && ! s.tripped n

/-- The off instant of the upper switch of phase x in the falling half that starts at peak P, in whole ticks (R134):
P when the switch is off throughout, P + H when it is on throughout. -/
def State.upperOff (s : State) (n p x : Nat) : Nat :=
  let o := s.o n
  let h := s.half n
  let l := o.leg x
  let v := clampEdge (8 * h) (blockWord o.block true x)
  let neverOn := match l.onAt with
    | some t => decide (8 * p + v ≤ t)
    | none => false
  if ! s.executes n || l.st ≠ .upper || neverOn then p
  else if o.blockOff || v = 8 * h then p + h else p + v / 8

/-- The phases f, m, l: sorted by off instant, equal instants a before b before c (R134). -/
def sortPhases (a b c : Nat) : Nat × Nat × Nat :=
  if a ≤ b then
    if b ≤ c then (0, 1, 2) else if a ≤ c then (0, 2, 1) else (2, 0, 1)
  else
    if a ≤ c then (1, 0, 2) else if b ≤ c then (1, 2, 0) else (2, 1, 0)

/-- ORDER of word 0 (R137). -/
def orderCode (f m : Nat) : Nat :=
  match f, m with
  | 0, 1 => 0 | 0, _ => 1 | 1, 0 => 2 | 1, _ => 3 | _, 0 => 4 | _, _ => 5

/-- Add skipped samples (R135). -/
def skips (n k : Nat) (s : State) : State := s.add (Reg.COM_An_SKIPS n) k

/-- The plan of the falling half that starts at peak P (R134). -/
def State.planAt (s : State) (n p : Nat) : ShuntPlan :=
  let t := s.upperOff n p
  let (f, m, l) := sortPhases (t 0) (t 1) (t 2)
  let dt := s.rd (Reg.OUT_An_DT n)
  let settle := s.rd (Reg.COM_An_SS_SETTLE n)
  let tmin : Int := s.rd (Reg.COM_An_SS_TMIN n)
  let wa : Int := (t m : Int) - t f - dt
  let wb : Int := (t l : Int) - t m - dt
  { peak := p, valley := p + s.half n, f := f, m := m, l := l, wa := wa, wb := wb
    atA := t f + dt + settle, atB := t m + dt + settle, closeA := t m, closeB := t l
    dueA := decide (tmin ≤ wa), dueB := decide (tmin ≤ wb) }

/-- SAMPLING_PLAN: the next peak of a single-shunt axis (R134). A window that is not requested is skipped. -/
def execSamplingPlan (n : Fin 8) (s : State) : Out :=
  if ! s.live pdOUT then .next s else
  if s.rd (Reg.COM_An_CFG_MEAS n) ≠ 1 then .next s
  else
    let p := s.nextPeak n s.ctCeil
    let s := reach p s
    let plan := s.planAt n p
    let s := skips n (b2n (! plan.dueA) + b2n (! plan.dueB)) s
    done (s.setC n { s.c n with plan := some plan })

/-- It is the turn of window A or B of axis n on its ADC: of the shunt conversions that are due when the ADC is free, the
lower axis number converts first (R135, R183). -/
def State.shuntTurn (s : State) (n : Nat) (winB : Bool) : Bool :=
  let a := s.rd (Reg.COM_An_SS_CH n) / 8
  let ds := s.shuntDue a
  let t := s.firstStart a (ds.map (·.1))
  match ds.find? fun d => decide (d.1 ≤ t) with
  | some d => d.2 = (n, winB)
  | none => false

/-- SHUNT_CONVERSION: the conversion of window A or B with its raw result (R134, R135); it waits while another goes first.
One that cannot complete before its window closes is skipped; a full-scale code counts as skipped. No ADC converts a
channel beyond 47, so such a conversion is skipped too (R157; notes/assumptions/9.md). -/
def execShuntConversion (n : Fin 8) (winB : Bool) (raw : BitVec 14) (s : State) : Out :=
  if ! s.live pdOUT then .next s else
  match (s.c n).plan with
  | none => .next s
  | some p =>
    if ! (if winB then p.dueB else p.dueA) || ! s.shuntTurn n winB then .next s
    else
      let ch := s.rd (Reg.COM_An_SS_CH n)
      let start := max (if winB then p.atB else p.atA) (s.adcFree (ch / 8))
      let close := if winB then p.closeB else p.closeA
      let p := if winB then { p with dueB := false } else { p with dueA := false }
      if close < start + 40 ∨ 47 < ch then done (skips n 1 (s.setC n { s.c n with plan := some p }))
      else
        let s := adcTake (ch / 8) start (reach (start + 39) s)
        let s := reSample (adcComplete ch raw.toNat start (s.adcBipolar ch) s)
        if adcClipped raw.toNat then done (skips n 1 (s.setC n { s.c n with plan := some p }))
        else
          let v := adcCode (s.adcBipolar ch) raw.toNat
          let p := if winB then { p with sb := some v } else { p with sa := some v }
          done (s.setC n { s.c n with plan := some p })

/-- Words 0 to 7 of a completed shunt set with FRESH 0 (R136, R137). -/
def shuntWords (p : ShuntPlan) (predRun : Nat) (starved : Bool) : List Nat :=
  let sa := p.sa.getD 0
  let sb := p.sb.getD 0
  let both := p.sa.isSome && p.sb.isSome
  let cur (x : Nat) : Int :=
    if ! both then 0 else if x = p.f then -sa else if x = p.l then sb else sa - sb
  let w0 := b2n p.sa.isSome + b2n p.sb.isSome * 2 + orderCode p.f p.m * 16 + predRun * 2 ^ 8 +
    b2n starved * 2 ^ 15 + p.valley % 2 ^ 16 * 2 ^ 16
  [w0, trunc 32 (cur 0), trunc 32 (cur 1), trunc 32 (cur 2), trunc 32 sa, trunc 32 sb,
    trunc 32 (max p.wa 0), trunc 32 (max p.wb 0)]

/-- SHUNT_SET_COMPLETE: the valley that ends the planned half (R136, R139, R140). -/
def execShuntSetComplete (n : Fin 8) (s : State) : Out :=
  if ! s.live pdOUT then .next s else
  match (s.c n).plan with
  | none => .next s
  | some p =>
    let s := reach p.valley s
    let s := skips n (b2n p.dueA + b2n p.dueB) s
    let counts := s.ax n = axRUNNING || s.ax n = axSTOPPING
    let old := s.rd (Reg.COM_An_STAT_PRED_RUN n)
    let pred := if ! counts || (p.sa.isSome && p.sb.isSome) then 0 else min (old + 1) 31
    let limit := s.rd (Reg.COM_An_CFG_NPRED n) + 1
    let starved := decide (limit < pred)
    let s := (s.wr (Reg.COM_An_STAT_PRED_RUN n) pred).put (Reg.COM_An_STAT_STARVED n) starved
    let s := s.setC n { s.c n with plan := none, set := shuntWords p pred starved, fresh := true }
    done ((reSample s).when (pred = limit + 1) (raiseAx (Fc.SHUNT_STARVED n) n))

/-- One result against a threshold (R147): the state of the filtered comparison and its run of results beyond the
threshold in the direction awaited. -/
def crossed (above : Bool) (run filt : Nat) (up down : Bool) : Bool × Nat :=
  if (if above then down else up) then
    if filt ≤ run + 1 then (! above, 0) else (above, run + 1)
  else (above, 0)

/-- The positive full-scale code of the DC-link source of an axis (R147, R180, R186). -/
def State.vdcFull (s : State) (n : Nat) : Int :=
  if s.on (Reg.COM_An_VDCG_SRCK n) then
    if s.adcBipolar (s.rd (Reg.COM_An_VDCG_SRC n)) then 8191 else 16383
  else 32767

/-- The gate path of axis n is enabled: direct pins or a gate link (R200, R203). -/
def State.gatePath (s : State) (n : Nat) : Bool := s.on (Reg.OUT_An_CFG_PINEN n) || s.on (Reg.OUT_An_CFG_GLEN n)

/-- Chopper control of axis n runs: CH_EN is 1 and the gate path is enabled (R148). -/
def State.chopRuns (s : State) (n : Nat) : Bool := s.on (Reg.COM_An_CHOP_CH_EN n) && s.gatePath n

/-- The chopper command as the block word in progress on the gate link of axis n carries it: c5, which starts 80 ticks
after the word, samples the command then (R204). -/
def wordChop (n : Nat) (on : Bool) (s : State) : State :=
  let o := s.o n
  if o.word = .block ∧ s.time.clk + 80 ≤ o.wordEnd then
    s.setO n { o with chars := o.chars.set 5 (putBit (o.chars.getD 5 0) 7 on) }
  else s

/-- The chopper command of an axis on this clock (R148): a change keeps its instant and the result that turned it on, and
a turn-on awaits its own check of R149. -/
def chopper (n : Nat) (on : Bool) (code : Int) (s : State) : State :=
  if s.on (Reg.COM_An_STAT_CHOP_ON n) = on then s
  else
    let s := wordChop n on (s.put (Reg.COM_An_STAT_CHOP_ON n) on)
    s.setC n { s.c n with chopAt := s.ctTicks, chopVal := code, chopChecked := false }

/-- The upward crossing of VDC_TRIP (R151): TRIP, the axis safe state whatever the reaction (R158), VDC_TRIP. -/
def vdcTrip (n : Nat) (s : State) : State :=
  let s := s.put (Reg.COM_An_STAT_TRIP n) true
  let s := s.when (s.dev.state ≠ .replay) (requestSafe (2 ^ n))
  raiseAx (Fc.VDC_TRIP n) n s

/-- COM compares a result of the DC-link source of axis n that arrived on tick `t` (R147 to R152). -/
def vdcCompare (n t : Nat) (v : Int) (s : State) : State :=
  let full := decide (v = s.vdcFull n)
  let c := s.c n
  let filt := s.rd (Reg.COM_An_VDCG_FILT n) + 1
  let hi1 := sext 16 (s.rd (Reg.COM_An_VDC1_HI1 n))
  let hyst : Int := s.rd (Reg.COM_An_VDC1_HYST n)
  let hi2 := sext 16 (s.rd (Reg.COM_An_VDC2_HI2 n))
  let trip := sext 16 (s.rd (Reg.COM_An_VDC2_TRIP n))
  let was1 := s.on (Reg.COM_An_STAT_HI1 n)
  let was2 := s.on (Reg.COM_An_STAT_REGEN_CLAMP n)
  let r1 := crossed was1 c.run1 filt (full || decide (hi1 ≤ v)) (! full && decide (v < hi1 - hyst))
  let r2 := crossed was2 c.run2 filt (full || decide (hi2 ≤ v)) (! full && decide (v < hi2 - hyst))
  let r3 := crossed c.above c.run3 filt (full || decide (trip ≤ v)) (! full && decide (v < trip))
  let s := s.wr (Reg.COM_An_VDC_LAST n) (trunc 16 v)
  let s := s.setC n { c with run1 := r1.2, run2 := r2.2, run3 := r3.2, above := r3.1, vdcAt := t }
  let s := (s.put (Reg.COM_An_STAT_HI1 n) r1.1).put (Reg.COM_An_STAT_REGEN_CLAMP n) r2.1
  let s := s.when (r1.1 != was1 && s.chopRuns n) (chopper n r1.1 v)
  let s := s.when (r2.1 && ! was2) (raiseAx (Fc.REGEN_CLAMP n) n)
  s.when (r3.1 && ! c.above) (vdcTrip n)

/-- DC_LINK_RESULT: the first result of the DC-link source that axis n has not compared yet (R147). -/
def execDcLinkResult (n : Fin 8) (s : State) : Out :=
  if ! s.live pdOUT then .next s else
  match (s.c n).vdcIn with
  | [] => .next s
  | (t, v) :: rest => done (vdcCompare n t v (s.setC n { s.c n with vdcIn := rest }))

/-- VDC_LOST: no new DC-link result for TOUT µs (R147): the status bit latches and the fault is raised once. Before the
first result TOUT counts from CT 0 (log entry 914). -/
def execVdcLost (n : Fin 8) (s : State) : Out :=
  if ! s.live pdOUT then .next s else
  if s.on (Reg.COM_An_STAT_VDC_LOST n) then .next s
  else
    let last := ((s.c n).vdcIn.getLast?.map (·.1)).getD (s.c n).vdcAt
    let s := reach (last + usTicks (s.rd (Reg.COM_An_VDCG_TOUT n))) s
    done (raiseAx (Fc.VDC_LOST n) n (s.put (Reg.COM_An_STAT_VDC_LOST n) true))

/-- CHOPPER_FAULT, not raised again while its status bit stands (R149). -/
def chopFault (n : Nat) (s : State) : State :=
  if s.on (Reg.COM_An_STAT_CHOP_FAULT n) then s
  else
    let s := s.put (Reg.COM_An_STAT_CHOP_FAULT n) true
    raiseAx (Fc.CHOPPER_FAULT n) n (s.setC n { s.c n with chopSince := true })

/-- CHOPPER_STUCK, not raised again while its status bit stands (R149). -/
def chopStuck (n : Nat) (s : State) : State :=
  if s.on (Reg.COM_An_STAT_CHOP_STUCK n) then s
  else raiseAx (Fc.CHOPPER_STUCK n) n (s.put (Reg.COM_An_STAT_CHOP_STUCK n) true)

/-- CHOPPER_CURRENT_RESULT: the first result of the chopper-current source that axis n has not checked yet; it arrived on
tick `t` (R149). No ADC channel has the number 0x7F, so with no current source there is none. -/
def execChopperCurrentResult (n : Fin 8) (s : State) : Out :=
  if ! s.live pdOUT then .next s else
  match (s.c n).ichIn with
  | [] => .next s
  | (t, v) :: rest =>
    let s := (s.setC n { s.c n with ichIn := rest }).wr (Reg.COM_An_VDC_ICH n) (trunc 16 v)
    let idly := usTicks (s.rd (Reg.COM_An_CHT_IDLY n))
    let imin := sext 16 (s.rd (Reg.COM_An_CHOP_IMIN n))
    let span := t - (s.c n).chopAt
    if ! s.on (Reg.COM_An_CHOP_CH_EN n) then done s
    else if s.on (Reg.COM_An_STAT_CHOP_ON n) then
      done (s.when (decide (idly ≤ span) && decide (v < imin)) (chopFault n))
    else done (s.when (decide (idly < span) && decide (imin ≤ v)) (chopStuck n))

/-- CHOPPER_NO_FALL_CHECK: CH_TCHK after the chopper turned on, it is still on; the link must be below the result that
turned it on. One check is made per turn-on (R149). -/
def execChopperNoFallCheck (n : Fin 8) (s : State) : Out :=
  if ! s.live pdOUT then .next s else
  if s.on (Reg.COM_An_CHOP_CH_EN n) && s.on (Reg.COM_An_STAT_CHOP_ON n) && ! (s.c n).chopChecked then
    let s := reach ((s.c n).chopAt + usTicks (s.rd (Reg.COM_An_CHT_TCHK n))) s
    let s := s.setC n { s.c n with chopChecked := true }
    done (s.when (decide ((s.c n).chopVal ≤ sext 16 (s.rd (Reg.COM_An_VDC_LAST n)))) (chopFault n))
  else .next s

/-- The axis leaves DISABLED: CHOP_FAULT of word 8 starts afresh (R141). -/
def comLeftDisabled (n : Nat) (s : State) : State := s.setC n { s.c n with chopSince := false }

/-- The axis passes through DISABLED: TRIP and VDC_LOST clear (R152). -/
def comDisabled (n : Nat) (s : State) : State :=
  (s.put (Reg.COM_An_STAT_TRIP n) false).put (Reg.COM_An_STAT_VDC_LOST n) false

/-- PRED_RUN is held at 0 outside RUNNING and STOPPING (R139). -/
def comNotRunning (n : Nat) (s : State) : State :=
  (s.wr (Reg.COM_An_STAT_PRED_RUN n) 0).put (Reg.COM_An_STAT_STARVED n) false

/-- Words 8 to 15 of the COM section of axis n (R141). -/
def State.limitWords (s : State) (n : Nat) : List Nat :=
  let st (f : Nat → Fld) : Nat := s.rd (f n)
  let clamp := st Reg.COM_An_STAT_REGEN_CLAMP
  let w8 := st Reg.COM_An_STAT_HI1 + st Reg.COM_An_STAT_CHOP_ON * 2 + clamp * 4 +
    b2n (s.c n).chopSince * 8 + st Reg.COM_An_STAT_TRIP * 16 + st Reg.COM_An_STAT_VDC_LOST * 32
  let ich := if st Reg.COM_An_CHOP_ISRC = 0x7F then 0 else trunc 32 (sext 16 (st Reg.COM_An_VDC_ICH))
  [w8, trunc 32 (sext 16 (st Reg.COM_An_VDC_LAST)), ich, st Reg.COM_An_IDCEIL, st Reg.COM_An_IMAX,
    if clamp = 1 then 0 else st Reg.COM_An_REGEN, st Reg.COM_An_REVSPD, 0]

/-- CAPTURE with DCL = 1 latches the limits of every axis (R141). -/
def comCapture (s : State) : State := s.each (List.range 8) fun n s => setFibs (32 * n + 8) (s.limitWords n) s

/-- An instant is a peak or a valley of the carrier of axis n (R132). -/
def State.onCarrier (s : State) (n t : Nat) : Bool := s.nextValley n t = t || s.nextPeak n t = t

end Sys2Proof.Machine
end

