-- ==== Sys2Proof/Machine/Line.lean ====
section
/-! DEFINITION. 8b/10b line coding (R203, R315): characters to code groups, and the running disparity. The code itself is
the standard one, which the specification names and does not print (notes/assumptions/1007.md). -/
namespace Sys2Proof.Machine

/-- The 5b/6b code groups of D.0 to D.31 for negative running disparity, bit a first. -/
def code6 : List Nat :=
  [0b100111, 0b011101, 0b101101, 0b110001, 0b110101, 0b101001, 0b011001, 0b111000]
  ++ [0b111001, 0b100101, 0b010101, 0b110100, 0b001101, 0b101100, 0b011100, 0b010111]
  ++ [0b011011, 0b100011, 0b010011, 0b110010, 0b001011, 0b101010, 0b011010, 0b111010]
  ++ [0b110011, 0b100110, 0b010110, 0b110110, 0b001110, 0b101110, 0b011110, 0b101011]

/-- The 3b/4b code groups of data and of control characters for negative running disparity, bit f first. -/
def code4 : List Nat := [0b1011, 0b1001, 0b0101, 0b1100, 0b1101, 0b1010, 0b0110, 0b1110]
def code4K : List Nat := [0b1011, 0b0110, 0b1010, 0b1100, 0b1101, 0b0101, 0b1001, 0b0111]

/-- Ones in the low `k` bits. -/
def onesIn (k v : Nat) : Nat := (bitsOf k v).length

/-- A sub-block of `k` bits under running disparity `pos`: its complement where the disparity is positive and the
sub-block is unbalanced or always alternates; and the disparity after it. -/
def subBlock (k c : Nat) (alternates pos : Bool) : Nat × Bool :=
  let even := decide (2 * onesIn k c = k)
  let c := if pos && (! even || alternates) then 2 ^ k - 1 - c else c
  (c, if even then pos else ! pos)

/-- The ten bits of a character (first bit most significant) under running disparity `pos`, and the disparity after it. -/
def codeGroup (ctl : Bool) (ch : Nat) (pos : Bool) : Nat × Bool :=
  let x := ch % 32
  let y := ch / 32 % 8
  let six := if ctl && x = 28 then 0b001111 else code6.getD x 0
  let a := subBlock 6 six (x = 7) pos
  let alt := if a.2 then [11, 13, 14].contains x else [17, 18, 20].contains x
  let four := if ctl then code4K.getD y 0 else if y = 7 && alt then 0b0111 else code4.getD y 0
  let b := subBlock 4 four (ctl || y = 3) a.2
  (a.1 * 16 + b.1, b.2)

/-- The code groups of a word whose first character is a control character, and the disparity after it. -/
def codeWord : List Nat → Bool → List Nat × Bool
  | [], pos => ([], pos)
  | c :: cs, pos =>
    let k := codeGroup true c pos
    let r := cs.foldl (fun (acc : List Nat × Bool) ch =>
      let g := codeGroup false ch acc.2
      (acc.1 ++ [g.1], g.2)) ([], k.2)
    (k.1 :: r.1, r.2)

end Sys2Proof.Machine
end

