-- ==== Sys2Proof/Machine/Out.lean ====
section
/-! DEFINITION. The outputs: edge-command blocks and legs, TRIP inputs, gate links and safe outputs (R196 to R221). -/
namespace Sys2Proof.Machine

/-- Bring the clock to an instant in eighths of a tick. -/
def reach8 (t : Nat) (s : State) : State := advance (s.edgesTo (t * 2 ^ 29)) s

/-- Bring the clock to a clock count. -/
def reachClk (c : Nat) (s : State) : State := advance (c - s.time.clk) s

/-! ### Blocks and legs -/

/-- A word of a block lies outside 0 to 8H (R196). -/
def outOfRange (h8 : Nat) (b : List Nat) : Bool :=
  ((b.drop 1).take 6).any fun v => decide (sext 32 v < 0 ∨ (h8 : Int) < sext 32 v)

/-- Commit a block for instant t in ticks to the outputs of TGT, kept as its word 7 (R70, R198): pending blocks at or after t are discarded; one that then still
finds two is not performed, with PEND_FULL. -/
def outCommit (n t tgt : Nat) (b : List Nat) (s : State) : State :=
  let o := s.o n
  let keep := o.pend.filter fun p : Nat × List Nat => p.1 < t
  if 2 ≤ keep.length then
    raiseAx (Fc.PEND_FULL n) n ((s.setO n { o with pend := keep }).put (Reg.OUT_An_STAT_PFULL n) true)
  else
    let s := s.setO n { o with pend := keep ++ [(t, padTo 7 b ++ [tgt])] }
    s.when (outOfRange (8 * s.half n) b) fun s => s.wrBit Reg.OUT_STAT_CLAMP n true

/-- BLOCK_IN_FORCE: the instant of the first pending block (R198). A block with OFF set turns every switch
off; the safe pattern overrides it (R199). -/
def execBlockInForce (n : Fin 8) (s : State) : Out :=
  if ! s.live pdOUT then .next s else
  match (s.o n).pend with
  | [] => .next s
  | (t, b) :: rest =>
    let s := reach t s
    let o := { s.o n with block := b, pend := rest }
    done (s.setO n (if o.blockOff && ! s.safeNow n then { o with legA := {}, legB := {}, legC := {} } else o))

/-- The latest peak or valley of axis n at or before tick x. -/
def State.edgeBefore (s : State) (n x : Nat) : Nat :=
  let h := s.half n
  x - (x + h - s.carrPh n % h) % h

/-- Half-periods of the axis that start after the tick in `since` are executed (R199). -/
def OutSt.governs (o : OutSt) (start : Nat) : Bool := decide (o.since < start)

/-- The transition of leg x in the half that starts at `h`: its instant in eighths and its target. -/
def State.legIn (s : State) (n x h : Nat) : Option (Nat × Leg) :=
  let o := s.o n
  let h8 := 8 * s.half n
  let falling := s.nextPeak n h = h
  let v := clampEdge h8 (blockWord o.block falling x)
  let target := if falling then Leg.lower else Leg.upper
  if o.blockOff || ! o.governs h || v = h8 || (o.leg x).st = target then none else some (8 * h + v, target)

/-- The next transition of leg x at or after the present instant. -/
def State.nextLeg (s : State) (n x : Nat) : Option (Nat × Leg) :=
  let h0 := s.edgeBefore n s.ctTicks
  let now8 := ceilDiv s.ct (2 ^ 29)
  [h0, h0 + s.half n, h0 + 2 * s.half n].findSome? fun h =>
    match s.legIn n x h with
    | none => none
    | some r => if now8 ≤ r.1 then some r else none

/-- LEG_TRANSITION: at its instant leg x turns its outgoing switch off; the incoming switch follows DT later (R197). -/
def execLegTransition (n : Fin 8) (x : Fin 3) (s : State) : Out :=
  if ! s.live pdOUT then .next s else
  if ! s.executes n then .next s
  else
    match s.nextLeg n x with
    | none => .next s
    | some (t, target) =>
      let s := reach8 t s
      let on := t + 8 * s.rd (Reg.OUT_An_DT n)
      done (s.setO n ((s.o n).setLeg x { st := target, up := false, lo := false, onAt := some on }))

/-- INCOMING_TURN_ON: DT after a transition that none superseded, the incoming switch turns on (R197); a move of the
safe pattern is one of these. -/
def execIncomingTurnOn (n : Fin 8) (x : Fin 3) (s : State) : Out :=
  if ! s.live pdOUT then .next s else
  match ((s.o n).leg x).onAt with
  | none => .next s
  | some t =>
    if ! s.executes n && ! s.safeNow n then .next s
    else
      let s := reach8 t s
      let l := (s.o n).leg x
      done (s.setO n ((s.o n).setLeg x { l with up := decide (l.st = .upper), lo := decide (l.st = .lower), onAt := none }))

/-- The axis passes through DISABLED (R199, R202): legs are off, and a blocked axis is blocked no longer unless a
latch still covers it. -/
def outDisabled (n : Nat) (s : State) : State :=
  s.setO n { s.o n with legA := {}, legB := {}, legC := {}, tripHeld := false }

/-- The block in force was launched to the direct pins, to the gate link (TGT of R58, R70). -/
def OutSt.toPins (o : OutSt) : Bool := tb (o.block.getD 7 0) 0
def OutSt.toLink (o : OutSt) : Bool := tb (o.block.getD 7 0) 1

/-- The upper and the lower switch of leg x as the pins carry them (R199, R200, R202). -/
def State.switches (s : State) (n x : Nat) : Bool × Bool :=
  if s.tripped n || ! s.on (Reg.OUT_An_CFG_PINEN n) || ! s.live pdOUT then (false, false)
  else if s.safeNow n then (false, s.asc n && ((s.o n).leg x).lo)
  else if s.driving n && (s.o n).toPins then ((s.o n).leg x |>.up, (s.o n).leg x |>.lo)
  else (false, false)

/-- PD_OUT is powered, which it stays in Sleep, and the device is out of reset (R200, R519, R521). -/
def State.outPowered (s : State) : Bool :=
  (s.pwr.mode = .run || s.pwr.mode = .sleep) && ! s.pwr.rstLow && s.domState pdOUT = 2

/-- The level of a direct pin: high impedance while the device is in reset, PD_OUT is unpowered or the axis has no pins
enabled; a set polarity bit makes it active low (R200; notes/assumptions/1008.md). -/
def State.pinLevel (s : State) (n : Nat) (pol : Nat → Fld) (on : Bool) : Option Bool :=
  if ! s.outPowered || ! s.on (Reg.OUT_An_CFG_PINEN n) then none else some (on != s.on (pol n))

/-- The seven direct pins of axis n: PWMn_AH, AL, BH, BL, CH, CL and BRK, the chopper, which follows its command whatever
blocks the phases (R148, R200, R202). -/
def State.pins (s : State) (n : Nat) : List (Option Bool) :=
  ((List.range 3).flatMap fun x =>
    [s.pinLevel n Reg.OUT_An_CFG_POLH (s.switches n x).1, s.pinLevel n Reg.OUT_An_CFG_POLL (s.switches n x).2]) ++
  [s.pinLevel n Reg.OUT_An_CFG_POLBRK (s.on (Reg.COM_An_STAT_CHOP_ON n))]

/-- GEN_Ax (R214): the axis may switch and the pair's released output word enables it. -/
def State.genA (s : State) (n : Nat) : Bool := s.live pdOUT && (s.ax n = axARMING || s.driving n) && s.enabled n

/-- GEN_Bx (R214): the device is in STANDBY, ACTIVE or LEE and the supervisor holds no request for the axis. -/
def State.genB (s : State) (n : Nat) : Bool :=
  s.live pdOUT && (s.dev.state = .standby || s.dev.state = .active || s.dev.state = .lee) && ! tb s.fcu.supReq n

/-! ### TRIP inputs -/

/-- TRIP_INPUT: filtered input t becomes active (R202): LEVEL follows; an enabled input latches, blocks the axes of
AXMASK and raises TRIP_IN. -/
def execTripInput (t : Fin 8) (s : State) : Out :=
  if ! s.live pdOUT then .next s else
  let s := s.wrBit Reg.OUT_TRIP_STAT_LEVEL t true
  if ! s.on (Reg.OUT_TRIPt_EN t) then done s
  else
    let mask := s.rd (Reg.OUT_TRIPt_AXMASK t)
    let s := s.wrBit Reg.OUT_TRIP_STAT_LATCH t true
    let s := s.each (bitsOf 8 mask) fun n s => s.setO n { s.o n with tripHeld := true }
    done (almEvent 6 0 (raiseAxes (Fc.TRIP_IN t) mask s))

/-- TRIP_RELEASE: filtered input t becomes inactive, or changes level while it is disabled (R202). -/
def execTripRelease (t : Fin 8) (active : Bool) (s : State) : Out :=
  if ! s.live pdOUT then .next s else
  if s.on (Reg.OUT_TRIPt_EN t) && active then .next s
  else done (s.wrBit Reg.OUT_TRIP_STAT_LEVEL t active)

/-- TRIP_LATCH_CLEAR: a W1C write of latches; a latch whose input is active stays (R202). -/
def execTripLatchClear (mask : BitVec 8) (s : State) : Out :=
  if ! s.live pdOUT then .next s else
  let s := s.wr Reg.OUT_TRIP_STAT_LATCH (andNotW (s.rd Reg.OUT_TRIP_STAT_LATCH)
    (andNotW mask.toNat (s.rd Reg.OUT_TRIP_STAT_LEVEL)))
  done (s.each (List.range 8) fun n s =>
    s.when (s.ax n = axDISABLED && ! tb s.tripMask n) fun s => s.setO n { s.o n with tripHeld := false })

/-! ### Gate links -/

/-- The states of OUT_An_GLST.STATE. -/
def glDOWN : Nat := 0
def glTRAINING : Nat := 1
def glUP : Nat := 2
def glFAILED : Nat := 3

def State.glState (s : State) (n : Nat) : Nat := s.rd (Reg.OUT_An_GLST_STATE n)
def State.glen (s : State) (n : Nat) : Bool := s.on (Reg.OUT_An_CFG_GLEN n)

/-- The clock of the first character boundary at or after clock c (R203). -/
def State.boundary (s : State) (n c : Nat) : Nat := nextAt 16 (s.o n).gridAt c

/-- MODE of a heartbeat word (R207): 0 OFF, 1 RUN, 2 ASC. -/
def State.glMode (s : State) (n : Nat) : Nat :=
  if s.tripped n then 0
  else if s.safeNow n then (if s.asc n then 2 else 0)
  else if s.driving n then 1 else 0

/-- The running disparity of the downlink at a clock: after the characters of the word in progress sent by then (R203). -/
def OutSt.dispAt (o : OutSt) (clk : Nat) : Bool :=
  (codeWord (o.chars.take ((clk + 16 * o.chars.length - o.wordEnd) / 16)) o.disp).2

/-- The code groups of the word in progress on the downlink, each with its first bit most significant (R203). -/
def OutSt.lineCode (o : OutSt) : List Nat := (codeWord o.chars o.disp).1

/-- A word of `len` characters starts on the present clock: a heartbeat before it that was sent in full advances SEQ
(R207); one that it cuts short is abandoned. A setup word cut short is sent again (R206). -/
def startWord (n : Nat) (k : GlWord) (chars : List Nat) (s : State) : State :=
  let o := s.o n
  let whole := decide (o.wordEnd ≤ s.time.clk)
  let o := if o.word = .heartbeat ∧ whole then { o with hbSeq := (o.hbSeq + 1) % 2 ^ 16 } else o
  let o := if o.word = .setup ∧ ! whole then
      match o.chars.getD 2 0 with
      | 3 => { o with echoDue := true, echoWait := false }
      | 4 => { o with clearDue := true }
      | p => { o with param := p }
    else o
  s.setO n { o with word := k, chars := chars, wordEnd := s.time.clk + 16 * chars.length, disp := o.dispAt s.time.clk }

/-- The chopper bit of a word (R204). -/
def State.chopBit (s : State) (n : Nat) : Bool := s.on (Reg.COM_An_STAT_CHOP_ON n)

/-- SEQ as the next heartbeat word carries it: counted on when the heartbeat before it ends in full (R207). -/
def OutSt.nextSeq (o : OutSt) (clk : Nat) : Nat :=
  if o.word = .heartbeat ∧ o.wordEnd ≤ clk then (o.hbSeq + 1) % 2 ^ 16 else o.hbSeq

/-- HEARTBEAT: a heartbeat word starts on the next character boundary (R207). A change of MODE to OFF or ASC, also from a RUN
that no heartbeat has carried yet, abandons any word in progress; otherwise the word follows the one in progress, unless a setup word is due (R208). -/
def execHeartbeat (n : Fin 8) (s : State) : Out :=
  if ! s.live pdOUT then .next s else
  let o := s.o n
  let mode := s.glMode n
  let drop := decide (mode ≠ 1 ∧ (mode ≠ o.mode ∨ o.ran = true))
  if ! s.glen n || (! drop && decide (15 ≤ o.sinceSetup)) then .next s
  else
    let s := reachClk (s.boundary n (if drop then s.time.clk else max s.time.clk o.wordEnd)) s
    let seq := o.nextSeq s.time.clk
    let chars := [if s.chopBit n then 0x3C else 0xBC, s.claim, mode, seq / 256, seq % 256]
    let s := startWord n .heartbeat chars s
    let o := s.o n
    done (s.setO n { o with mode := mode, ran := false, sinceSetup := o.sinceSetup + 1 })

/-- The value of a setup parameter (R208). -/
def State.setupValue (s : State) (n p : Nat) : Nat :=
  match p with
  | 0 => s.rd (Reg.OUT_An_DT n)
  | 1 => s.rd (Reg.OUT_An_GL_CLAIM_TO n)
  | 2 => s.rd (Reg.COM_An_CFG_SAFE_KIND n)
  | 3 => (s.o n).echoVal
  | _ => 0

/-- SETUP_WORD: a setup word follows the word in progress (R208); CLEAR and an echo request go before the cycle of
parameters 0x00 to 0x02. -/
def execSetupWord (n : Fin 8) (s : State) : Out :=
  if ! s.live pdOUT then .next s else
  if ! s.glen n then .next s
  else
    let o := s.o n
    let s := reachClk (s.boundary n (max s.time.clk o.wordEnd)) s
    let p := if o.clearDue then 4 else if o.echoDue then 3 else o.param
    let v := s.setupValue n p
    let chars := [if s.chopBit n then 0xFD else 0xFB, s.claim, p, v / 256, v % 256]
    let s := startWord n .setup chars s
    let o := s.o n
    let o := match p with
      | 4 => { o with clearDue := false }
      | 3 => { o with echoDue := false, echoWait := true }
      | _ => { o with param := (p + 1) % 3 }
    done (s.setO n { o with sinceSetup := 0, setups := o.setups + 1 })

/-- The block that governs the half starting at tick h: the last pending block due by then, else the one in force
(R198). -/
def OutSt.blockAt (o : OutSt) (h : Nat) : OutSt :=
  match (o.pend.filter fun p : Nat × List Nat => p.1 ≤ h).getLast? with
  | some p => { o with block := p.2 }
  | none => o

/-- The clocks to the latest character boundary s with 8 × (half_start − s − 168) − prop8 ≥ 0 (R206). -/
def State.wordClocks (s : State) (n h prop8 : Nat) : Option Nat :=
  let d := (8 * (h - 168) - prop8) * 2 ^ 29
  if h < 200 ∨ d < s.ct then none
  else
    let k := s.edgesTo (d + 1) - 1
    let back := (s.time.clk + k + 16 - (s.o n).gridAt % 16) % 16
    if back ≤ k then some (k - back) else none

/-- The ten characters of a block word (R205). -/
def blockChars (k claim : Nat) (chop : Bool) (ta tb' tc : Nat) : List Nat :=
  [k, claim, bits ta 13 8, bits ta 5 8, bits ta 0 5 * 8 + bits tb' 18 3, b2n chop * 128 + bits tb' 11 7,
    bits tb' 3 8, bits tb' 0 3 * 32 + bits tc 16 5, bits tc 8 8, bits tc 0 8]

/-- The control character of a block word (R204). -/
def blockCtl (off falling chop : Bool) : Nat :=
  if off then (if chop then 0xF7 else 0xDC)
  else if falling then (if chop then 0x5C else 0x1C) else (if chop then 0x9C else 0x7C)

/-- The block word for the half starting at tick h, sent on the present clock (R206). -/
def State.blockWordAt (s : State) (n h : Nat) : List Nat :=
  let prop8 := s.rd (Reg.OUT_An_GLST_PROP8 n)
  let ofs := ((8 * (h - 168) - prop8) * 2 ^ 29 - s.ct) / 2 ^ 29
  let o := (s.o n).blockAt h
  let h8 := 8 * s.half n
  let falling := decide (s.nextPeak n h = h)
  let t (x : Nat) : Nat :=
    let v := clampEdge h8 (blockWord o.block falling x)
    if v = h8 then 0x1FFFFF else v + ofs
  let chop := s.chopBit n
  let claim := s.claim
  if o.blockOff then blockChars (blockCtl true falling chop) claim chop ofs 0x1FFFFF 0x1FFFFF
  else blockChars (blockCtl false falling chop) claim chop (t 0) (t 1) (t 2)

/-- BLOCK_WORD: the device sends the block word of the next half-period whose boundary is still to come (R206). -/
def execBlockWord (n : Fin 8) (s : State) : Out :=
  if ! s.live pdOUT then .next s else
  if s.glen n && s.glState n = glUP && s.executes n then
    let prop8 := s.rd (Reg.OUT_An_GLST_PROP8 n)
    let h0 := s.edgeBefore n s.ctTicks + s.half n
    let cand := [h0, h0 + s.half n].findSome? fun h =>
      match s.wordClocks n h prop8 with
      | some k => if (s.o n).governs h && ((s.o n).blockAt h).toLink then some (h, k) else none
      | none => none
    match cand with
    | none => .next s
    | some (h, k) =>
      let s := advance k s
      done (startWord n .block (s.blockWordAt n h) s)
  else .next s

/-- A link changes state: source 106 to UP, 105 to DOWN or FAILED (R221). -/
def setLink (n st : Nat) (s : State) : State :=
  let old := s.glState n
  let s := s.wr (Reg.OUT_An_GLST_STATE n) st
  if old = st then s
  else if st = glUP then raiseIrq 106 s
  else if st = glTRAINING then s
  else raiseIrq 105 s

/-- A valid uplink word (R210): a training that has seen 16 in a row asks for an echo. -/
def goodUplink (n : Nat) (s : State) : State :=
  let o := s.o n
  let ask := s.glState n = glTRAINING && decide (o.goodWords + 1 = 16)
  s.setO n { o with goodWords := o.goodWords + 1, lastUp := s.time.clk, echoDue := o.echoDue || ask }

/-- An uplink word with a code or disparity error is counted and discarded (R211). -/
def badUplink (n : Nat) (s : State) : State :=
  let s := s.setO n { s.o n with goodWords := 0 }
  raiseAx (Fc.GL_CODE n) n (s.inc (Reg.OUT_An_ERR n))

/-- STATUS_WORD: an uplink status word arrives `clk` clocks on (R209, R211, R220). -/
def execStatusWord (n : Fin 8) (clk : Nat) (valid : Bool) (c1 c2 c3 c4 : BitVec 8) (s : State) : Out :=
  if ! s.live pdOUT then .next s else
  if ! s.glen n then .next s
  else
    let s := advance clk s
    if ! valid then done (badUplink n s)
    else
      let s := noteClaim c1.toNat (goodUplink n s)
      let s := s.setO n { s.o n with statAt := s.time.clk }
      let s := (s.wr (Reg.OUT_An_UPL_FLT n) c2.toNat).wr (Reg.OUT_An_UPL_TEMP n) c3.toNat
      let s := (s.wr (Reg.OUT_An_UPL_FLAGS n) c4.toNat).wr (Reg.OUT_An_GLST_OBEYED n) c1.toNat
      let s := s.wr (Reg.OUT_An_GLST_INPUT n) (bits c4.toNat 6 2)
      let temp := c3.toInt
      let s := s.when (decide (c2.toNat % 128 ≠ 0)) fun s =>
        raiseAx (Fc.GL_DESAT n) n (s.put (Reg.OUT_An_STAT_DESAT n) true)
      let s := s.when (tb c4.toNat 1 && decide (s.ax n ≠ axDISABLED)) fun s =>
        raiseAx (Fc.GL_REMOTE_BLOCK n) n (s.put (Reg.OUT_An_STAT_REMOTE n) true)
      let s := s.when (tb c4.toNat 3) fun s => raiseAx (Fc.CLAIM_TIE n) n (s.put (Reg.OUT_An_STAT_TIE n) true)
      let s := s.when (decide (sext 8 (s.rd (Reg.OUT_An_GL_TTRIP n)) ≤ temp)) (raiseAx (Fc.GL_OVERTEMP n) n)
      done (s.when (decide (sext 8 (s.rd (Reg.OUT_An_GL_TWARN n)) ≤ temp)) (raiseAx (Fc.GL_TEMP_WARN n) n))

/-- A remeasurement of an UP link is complete (R210): PROP8 takes the result while the axis is DISABLED; otherwise a
change beyond 8 eighths raises GL_LAT. -/
def remeasured (n v : Nat) (s : State) : State :=
  let s := s.setO n { s.o n with remeasure := false, lat := [] }
  let old := s.rd (Reg.OUT_An_GLST_PROP8 n)
  if s.ax n = axDISABLED then s.wr (Reg.OUT_An_GLST_PROP8 n) (min v 255)
  else s.when (decide (8 < ((v : Int) - old).natAbs)) (raiseAx (Fc.GL_LAT n) n)

/-- ECHO_WORD: an uplink echo word answers the request `clk` clocks on (R209, R210): half of the round trip less TURN,
in eighths, rounded up. -/
def execEchoWord (n : Fin 8) (clk : Nat) (valid : Bool) (value : BitVec 8) (turn : BitVec 16) (round : Nat)
    (s : State) : Out :=
  if ! s.live pdOUT then .next s else
  if ! s.glen n then .next s
  else
    let s := advance clk s
    if ! valid then done (badUplink n s)
    else
      let s := goodUplink n s
      let o := s.o n
      if ! o.echoWait || decide (value.toNat ≠ o.echoVal) then done s
      else
        let lat := o.lat ++ [ceilDiv (round - turn.toNat) 2]
        let more := decide (lat.length < 8)
        let s := s.setO n { o with echoWait := false, lat := lat, echoDue := more, echoVal := (o.echoVal + 1) % 256 }
        done (s.when (o.remeasure && ! more) (remeasured n (lat.foldl max 0)))

/-- TRAIN: a write of OUT_An_GLCTL.TRAIN on a DISABLED axis with GLEN (R210). -/
def execTrain (n : Fin 8) (s : State) : Out :=
  if ! s.live pdOUT then .next s else
  if s.ax n = axDISABLED && s.glen n then
    let s := s.setO n { s.o n with goodWords := 0, lat := [], remeasure := false, echoDue := false, echoWait := false }
    done (setLink n glTRAINING s)
  else .next s

/-- TRAINING_DONE: eight measurements are complete (R210): the largest is PROP8; above 120 the link FAILED. -/
def execTrainingDone (n : Fin 8) (s : State) : Out :=
  if ! s.live pdOUT then .next s else
  let o := s.o n
  if s.glState n = glTRAINING && decide (8 ≤ o.lat.length) then
    let v := o.lat.foldl max 0
    let s := (s.setO n { o with lat := [], setups := 0 }).wr (Reg.OUT_An_GLST_PROP8 n) (min v 255)
    if v ≤ 120 then done (setLink n glUP s)
    else done (raiseAx (Fc.GL_LAT n) n (setLink n glFAILED s))
  else .next s

/-- LATENCY_REMEASURE: 1,024 setup words on an UP link start a new measurement (R210). -/
def execLatencyRemeasure (n : Fin 8) (s : State) : Out :=
  if ! s.live pdOUT then .next s else
  let o := s.o n
  if s.glState n = glUP && decide (1024 ≤ o.setups) then
    done (s.setO n { o with setups := 0, remeasure := true, lat := [], echoDue := true })
  else .next s

/-- The link of axis n falls to DOWN (R210): GL_LOSS if the axis is out of DISABLED. -/
def linkDown (n : Nat) (s : State) : State :=
  if s.glState n = glDOWN then s
  else
    let s := setLink n glDOWN (s.setO n { s.o n with remeasure := false, lat := [], goodWords := 0 })
    s.when (decide (s.ax n ≠ axDISABLED)) (raiseAx (Fc.GL_LOSS n) n)

/-- GL_LOSS: no valid uplink word for 160 ticks (R210). -/
def execGlLoss (n : Fin 8) (s : State) : Out :=
  if ! s.live pdOUT then .next s else
  if s.glState n = glDOWN then .next s else done (linkDown n (reachClk ((s.o n).lastUp + 160) s))

/-- GL_CLEAR: a write of OUT_An_GLCTL.CLEAR sends parameter 0x04 (R208). -/
def execGlClear (n : Fin 8) (s : State) : Out :=
  if ! s.live pdOUT then .next s else
  if s.glen n then done (s.setO n { s.o n with clearDue := true }) else .next s

/-- READY of axis n (R211). -/
def State.ready (s : State) (n : Nat) : Bool :=
  (s.on (Reg.OUT_An_CFG_PINEN n) || s.glen n) && (! s.glen n || s.glState n = glUP)

/-! ### Safe outputs -/

/-- The read-back fault found for commands and readings (R217): read-back, open load. -/
def soJudge (hs ls midh midl ihs : Bool) : Bool × Bool :=
  if hs then (if ls then midl else ! midl, ls && ! ihs) else (midh, false)

/-- The readings of output m are stored (R217). -/
def soReadings (m : Nat) (midh midl : Bool) (s : State) : State :=
  (s.put (Reg.OUT_SOm_STAT_MIDH m) midh).put (Reg.OUT_SOm_STAT_MIDL m) midl

/-- SO_READBACK_CHECK: the readings of output m. Those 50 µs after the last change of command are compared; at other times
the status bits follow the readings (R217; notes/assumptions/1009.md). -/
def execSoReadbackCheck (m : Fin 4) (midh midl ihs : Bool) (s : State) : Out :=
  if ! s.live pdOUT then .next s else
  if ! s.soAllowed then .next s else
  let o := s.soNow m
  let s := s.when o.check fun s => reachClk (o.cmdAt + usTicks 50) (s.setSo m { o with check := false })
  let bad := if o.check then soJudge (s.soHigh m) (s.soLow m) midh midl ihs else (false, false)
  let s := (soReadings m midh midl s).put (Reg.OUT_SOm_STAT_IHS m) ihs
  let s := s.when bad.1 fun s => raiseDev (Fc.SO_READBACK m) (s.put (Reg.OUT_SOm_STAT_RB m) true)
  done (s.when bad.2 fun s => raiseDev (Fc.SO_OPEN_LOAD m) (s.put (Reg.OUT_SOm_STAT_OPEN m) true))

/-- SO_OVERCURRENT: a high-side current above 2.6 A turns both switches off (R217). -/
def execSoOvercurrent (m : Fin 4) (s : State) : Out :=
  if ! s.live pdOUT then .next s else
  if ! s.soAllowed then .next s else
  done (raiseDev (Fc.SO_OVERCURRENT m) (s.put (Reg.OUT_SOm_STAT_OC m) true))

/-- Whole seconds in timebase clocks. -/
def secClks (n : Nat) : Nat := 400000000 * n

/-- SO_TEST_PULSE: TP_INT seconds after the last test pulse the test engine pulses one switch of output m (R218). An output
that is latched off is not pulsed. -/
def execSoTestPulse (m : Fin 4) (s : State) : Out :=
  if ! s.live pdOUT then .next s else
  let o := s.soNow m
  if s.soAllowed && s.on (Reg.OUT_SOm_CFG_TPEN m) && o.test.isNone && ! s.soLatched m then
    let s := reachClk (o.testAt + secClks (s.rd (Reg.OUT_SOm_CFG_TP_INT m))) s
    done (s.setSo m { s.soNow m with test := some (o.nextLow, s.soHigh m, s.soLow m), testAt := s.time.clk })
  else .next s

/-- SO_TEST_PULSE_END: TP_W after its start a test pulse ends and its reading is judged (R218). A command change has ended
the pulse; the test is then repeated. -/
def execSoTestPulseEnd (m : Fin 4) (midh midl : Bool) (s : State) : Out :=
  if ! s.live pdOUT then .next s else
  let o := s.soNow m
  match o.test with
  | none => .next s
  | some (low, hs, ls) =>
    let s := reachClk (o.testAt + usTicks (s.rd (Reg.OUT_SOm_CFG_TP_W m))) (s.setSo m { o with test := none, nextLow := ! low })
    let s := soReadings m midh midl s
    let pass := if hs && ls then (if low then midl else ! midh) else (if low then ! midl else midh)
    if pass then done (raiseIrq 110 (s.inc (Reg.OUT_SOm_TPCNT m)))
    else done (raiseDev (Fc.SO_TEST m) (s.put (Reg.OUT_SOm_STAT_TEST m) true))

/-- SO_LATCH_CLEAR: a W1C write of OC, RB, TEST (bits 0 to 2), which clear only outside ACTIVE and LEE, and OPEN (bit
3) (R218). -/
def execSoLatchClear (m : Fin 4) (mask : BitVec 4) (s : State) : Out :=
  if ! s.live pdOUT then .next s else
  let free := decide (s.dev.state ≠ .active ∧ s.dev.state ≠ .lee)
  let clr (b : Nat) (f : Fld) (c : Bool) (s : State) : State := s.when (tb mask.toNat b && c) (·.put f false)
  done (clr 3 (Reg.OUT_SOm_STAT_OPEN m) true (clr 2 (Reg.OUT_SOm_STAT_TEST m) free
    (clr 1 (Reg.OUT_SOm_STAT_RB m) free (clr 0 (Reg.OUT_SOm_STAT_OC m) free s))))

end Sys2Proof.Machine
end

