-- ==== Sys2Proof/Machine/Axis.lean ====
section
/-! DEFINITION. The axis unit: setpoint banks, the control word, arming, stops and the six axis states (R223 to R236,
R247). -/
namespace Sys2Proof.Machine

/-- Axis n of the axis unit, and its replacement. -/
def State.a (s : State) (n : Nat) : AxisSt := SMap.get {} s.axs n
def State.setA (s : State) (n : Nat) (a : AxisSt) : State := { s with axs := SMap.set {} s.axs n a }

/-- GO and LREQ of axis n (R226). -/
def State.go (s : State) (n : Nat) : Bool := s.on (Reg.SYS_AXn_STAT_GO n)
def State.lreq (s : State) (n : Nat) : Nat := s.rd (Reg.SYS_AXn_STAT_LREQ n)
def setGo (n : Nat) (b : Bool) (s : State) : State := s.put (Reg.SYS_AXn_STAT_GO n) b

/-! ### Setpoint banks -/

/-- A stored word of the active or of the pending bank (R64). -/
def State.bankWord (s : State) (n : Nat) (pending : Bool) (i : Nat) : Nat :=
  let a := s.a n
  SMap.get 0 a.bank (64 * (if pending then 1 - a.act else a.act) + i)

/-- A word through the active-bank alias: word 1 reads CTL, word 15 reads LIM (R224); in REPLAY a recorded axis shows its
recording (R509). -/
def State.activeWord (s : State) (n i : Nat) : Nat :=
  if s.dev.state = .replay && s.bit Reg.ALM_CFG_AXMASK n && decide (i < 16 * (s.rd Reg.ALM_CFG_SPW + 1)) then
    SMap.get 0 s.alm.rpView (64 * n + i)
  else if i = 1 then (s.a n).ctl else if i = 15 then s.rd (Reg.SYS_AXn_LIM n) else s.bankWord n false i

/-- The source of an axis writes words of its pending bank (R225). -/
def writePending (n i : Nat) (ws : List Nat) (s : State) : State :=
  let a := s.a n
  s.setA n { a with bank := SMap.setMany 0 a.bank (64 * (1 - a.act) + i) (ws.map (· % 2 ^ 32)), written := true }

/-- REQ as the axis unit takes it: reserved values are STOP (R226). -/
def takeReq (w : Nat) : Nat := if 4 < w % 8 then 2 else w % 8

/-- The freshness of an axis at the swap (R225, R226): a fresh block brings LREQ, a RUN edge sets GO and starts the
flying-start retries afresh, any other request clears GO. -/
def axisFresh (n : Nat) (s : State) : State :=
  let req := takeReq (s.bankWord n false 0)
  let edge := decide (req = 1 ∧ s.lreq n ≠ 1)
  let a := s.a n
  let a := { a with freshReq := some req, staleUp := false
                    disableSeen := a.disableSeen || decide (req = 0 ∧ s.ax n = axSAFE) }
  let a := if edge then { a with fsTries := 0, refusedUp := false } else a
  let s := (s.setA n a).wr (Reg.SYS_AXn_STAT_LREQ n) req
  let s := s.when edge fun s => setGo n true (s.wr (Reg.SYS_AXn_STAT_FS_TRIES n) 0)
  s.when (req ≠ 1) (setGo n false)

/-- The bank swap of an axis (R26 step 3, R64, R225). -/
def axisSwap (n : Nat) (s : State) : State :=
  let a := s.a n
  let s := s.setA n { a with act := 1 - a.act, written := false }
  let age := if a.written then 0 else min (s.rd (Reg.SYS_AXn_STAT_AGE n) + 1) 31
  let s := (s.put (Reg.SYS_AXn_STAT_FRESH n) a.written).wr (Reg.SYS_AXn_STAT_AGE n) age
  let s := s.when a.written (axisFresh n)
  let a := s.a n
  let stale := decide (s.ax n ≠ axDISABLED ∧ s.rd (Reg.SYS_AXn_CFG_SP_MISS n) + 1 ≤ age) && ! a.staleUp
  s.setA n { a with staleDue := stale, fsWait := false }

/-! ### States -/

/-- The device is a worker outside a set (R27, R34). -/
def State.worker (s : State) : Bool := ! s.inSet && decide (s.rd Reg.FDL_CFG_NODE ≠ 0)

/-- SYS_AXn_STAT as it reads (R251): PEND is GO while STOPPING. -/
def State.axStat (s : State) (n : Nat) : Nat :=
  s.ax n + s.rd (Reg.SYS_AXn_STAT_STOP_KIND n) * 8 + s.rd (Reg.SYS_AXn_STAT_END_HOLD n) * 32 +
    b2n (s.go n && s.ax n = axSTOPPING) * 64 + s.rd (Reg.SYS_AXn_STAT_FRESH n) * 128 +
    s.rd (Reg.SYS_AXn_STAT_AGE n) * 2 ^ 8 + s.rd (Reg.SYS_AXn_STAT_FS_TRIES n) * 2 ^ 13 +
    s.rd (Reg.SYS_AXn_STAT_REFUSE n) * 2 ^ 16 + b2n (s.go n) * 2 ^ 20 + s.lreq n * 2 ^ 21

/-- The stop shown in STAT and CTL (R224). -/
def setStop (n kind : Nat) (hold : Bool) (s : State) : State :=
  (s.wr (Reg.SYS_AXn_STAT_STOP_KIND n) kind).put (Reg.SYS_AXn_STAT_END_HOLD n) hold

/-- What entering a state does beside the state itself: the COM and OUT latches of DISABLED (R152, R202, R235), the
supervisor's request that ends there (R413), PRED_RUN (R139), the first half-period of RUNNING (R199), GO and the
stop at SAFE (R232), the stop shown in CTL (R224). -/
def enterAxis (n old new : Nat) (s : State) : State :=
  let s := s.when (new = axDISABLED) fun s => outDisabled n (comDisabled n s)
  let s := s.when (old = axSAFE && new = axDISABLED) fun s =>
    { s with fcu := { s.fcu with supReq := putBit s.fcu.supReq n false } }
  let s := s.when (old = axDISABLED) (comLeftDisabled n)
  let s := s.when (new ≠ axRUNNING && new ≠ axSTOPPING) (comNotRunning n)
  let s := s.when (old = axARMING && new = axRUNNING) fun s => s.setO n { s.o n with since := s.ctTicks, ran := true }
  let s := s.when (new = axSAFE) fun s =>
    almEvent 4 0 (setGo n false (s.setA n { s.a n with disableSeen := false, fsWait := false }))
  s.when (new ≠ axSTOPPING && new ≠ axHELD) (setStop n 0 false)

/-- An axis changes state: it is the first frame in the new state, and an AXIS_STATE event is reported (R228, R368). -/
def setAxis (n new : Nat) (s : State) : State :=
  let old := s.ax n
  if old = new then s
  else
    let s := s.when (new = axSAFE) (safeLegs n)
    let s := enterAxis n old new (s.wr (Reg.SYS_AXn_STAT_STATE n) new)
    let s := (s.setA n { s.a n with first := true }).wr (Reg.SYS_AXn_FRAMES n) 1
    postEvent 1 [n + old * 16 + new * 256, s.axStat n] s

/-- CTL of this frame (R224). -/
def State.ctlWord (s : State) (n : Nat) : Nat :=
  s.ax n + s.rd (Reg.SYS_AXn_STAT_STOP_KIND n) * 8 + s.rd (Reg.SYS_AXn_STAT_END_HOLD n) * 32 +
    s.rd (Reg.SYS_AXn_STAT_FRESH n) * 64 + b2n (s.a n).first * 128 + s.rd (Reg.SYS_AXn_STAT_AGE n) * 2 ^ 8 +
    b2n (decide (s.dev.state = .lee)) * 2 ^ 13 + b2n (decide (s.role = roleACTIVE)) * 2 ^ 14 +
    min (s.rd (Reg.SYS_AXn_FRAMES n)) 65535 * 2 ^ 16

/-- CTL is rebuilt (R224). -/
def buildCtl (n : Nat) (s : State) : State := s.setA n { s.a n with ctl := s.ctlWord n }

/-- The role of a worker follows its axes (R34): ACTIVE while one is out of DISABLED, STANDBY otherwise, also while a Lee cause
stands: a worker in LEE whose last axis returns to DISABLED leaves LEE for STANDBY, the state R31 joins to that role (log entry
603), but not once the Lee count has reached its limit, which ends in SAFE (R418, R429). -/
def workerRole (s : State) : State :=
  if ! s.worker then s
  else
    let out := ! s.allAxes [axDISABLED]
    if out && s.dev.state = .standby && s.role = roleSTANDBY then enterActive s
    else if ! out && (s.dev.state = .active || (s.dev.state = .lee && decide (s.leeCount < s.leeLimit))) then
      setDevRole .standby roleSTANDBY (leaveLee s)
    else s

/-- A class-S fault that names axis n is held (R229, R234). -/
def State.heldOn (s : State) (n : Nat) : Bool :=
  s.fcu.held.any fun p => faultClass p.1 = .s && tb (SMap.get 0 s.fcu.axes p.1) n

/-- The channel role is ACTIVE or STANDBY. -/
def State.roleRuns (s : State) : Bool := s.role = roleACTIVE || s.role = roleSTANDBY

/-- The device is in STANDBY, ACTIVE or LEE. -/
def State.devRuns (s : State) : Bool := s.dev.state = .standby || s.dev.state = .active || s.dev.state = .lee

/-- The first failing arming condition (R229); 0 when all hold. -/
def State.refuse (s : State) (n : Nat) : Nat :=
  let prof := s.rd (Reg.SYS_AXn_CFG_PROFILE n)
  if ! (s.devRuns && s.roleRuns) then 1
  else if ! (s.on Reg.ANV_STAT_RUNNING && s.bit Reg.CEC_STAT_LOADED n && ! s.bit Reg.CEC_STAT_FENCED n) then 2
  else if prof = 0 ∨ 4 < prof ∨ s.rd (Reg.COM_An_CFG_MEAS n) = 0 ∨ s.cfgBad n then 3
  else if ! s.ready n || tb s.tripMask n then 4
  else if s.on (Reg.SYS_AXn_CFG_FBREQ n) && ! tb (s.fbStatus (s.axChan n)) 0 then 5
  else if s.heldOn n then 6
  else if s.rd (Reg.SYS_AXn_CFG_FS_RETRY n) < (s.a n).fsTries then 7
  else if ! s.enabled n then 8
  else 0

/-- The axis status word as the axis unit uses it (R227): 0 unless the FN word before it names the frame that has just
ended. -/
def State.statusWord (s : State) (n : Nat) : Nat :=
  let off := s.rd (Reg.SYS_AXn_CFG_SWOFF n)
  let base := s.rd Reg.ANV_STAT_BASE * 2 ^ 14
  if off = 0 then 0
  else if getWord s.mem (base + 4 * (off - 1)) % 2 ^ 29 = (s.fn + 2 ^ 32 - 1) % 2 ^ 29 then
    getWord s.mem (base + 4 * off)
  else 0

/-- Kind and end of a stop the axis unit starts for lost setpoints or Gust (R231). -/
def State.lossStop (s : State) (n : Nat) : Nat × Bool :=
  let l := s.rd (Reg.SYS_AXn_CFG_LOSS n)
  (l + 1, l = 2 || s.on (Reg.SYS_AXn_CFG_STOP_END n))

/-- The stop causes of this frame tick that a fresh request or the role brings (R231). -/
def State.stopCauses (s : State) (n : Nat) : List (Nat × Bool) :=
  let e := s.on (Reg.SYS_AXn_CFG_STOP_END n)
  let req := match (s.a n).freshReq with
    | some 0 => [(1, false)]
    | some 2 => [(1, e)]
    | some 3 => [(2, e)]
    | some 4 => [(3, true)]
    | _ => []
  if s.roleRuns then req else req ++ [(1, false)]

/-- The merge of R233: the stronger kind, HELD if either cause ends in HELD. -/
def mergeStops (l : List (Nat × Bool)) : Nat × Bool :=
  l.foldl (fun r c => (max r.1 c.1, r.2 || c.2)) (0, false)

/-- Stop causes act on an axis (R230, R233): RUNNING begins to stop, STOPPING takes the merge, ARMING is left. -/
def applyStops (n : Nat) (l : List (Nat × Bool)) (s : State) : State :=
  if l = [] then s
  else if s.ax n = axARMING then setAxis n axDISABLED s
  else if s.ax n = axRUNNING then
    let r := mergeStops l
    setAxis n axSTOPPING (setStop n r.1 r.2 (s.setA n { s.a n with stopCycles := 0, stopUp := false }))
  else if s.ax n = axSTOPPING then
    let r := mergeStops ((s.rd (Reg.SYS_AXn_STAT_STOP_KIND n), s.on (Reg.SYS_AXn_STAT_END_HOLD n)) :: l)
    setStop n r.1 r.2 s
  else s

/-- GUST at this frame tick (R247). -/
def gustTick (n : Nat) (seen : Bool) (s : State) : State :=
  let a := s.a n
  s.setA n (if seen then { a with gustRun := a.gustRun + 1 } else { a with gustRun := 0, gustUp := false })

/-- GUST was seen for more than GUST_MAX cycles and GUST_LONG is to be raised (R247). -/
def State.gustDue (s : State) (n : Nat) : Bool :=
  let a := s.a n
  decide (s.rd (Reg.SYS_AXn_GUST n) * s.cycleFrames < a.gustRun) && ! a.gustUp

/-- A stop that the axis unit itself starts at this tick is still to come (SP_STALE, GUST_LONG). -/
def State.lossPending (s : State) (n : Nat) : Bool := (s.a n).staleDue || s.gustDue n

/-- DISABLED with GO (R230, R233): the axis arms when every condition holds; one AXIS_REFUSED per RUN edge otherwise. A stop
cause of this tick overrides GO (R235). -/
def evalDisabled (n : Nat) (s : State) : State :=
  let code := s.refuse n
  if ! s.go n || (s.a n).fsWait || s.lossPending n then s
  else if code = 0 then setAxis n axARMING s
  else if (s.a n).refusedUp then s
  else raiseAx (Fc.AXIS_REFUSED n) n (s.setA n { s.a n with refusedUp := true })

/-- FS_FAIL in ARMING (R233): back to DISABLED, a try is counted, GO clears beyond FS_RETRY. `axisStep` raises the fault. -/
def fsFail (n : Nat) (s : State) : State :=
  let t := (s.a n).fsTries + 1
  let s := s.setA n { s.a n with fsTries := t, fsWait := true }
  let s := s.wr (Reg.SYS_AXn_STAT_FS_TRIES n) (min t 7)
  let s := s.when (decide (s.rd (Reg.SYS_AXn_CFG_FS_RETRY n) < t)) fun s =>
    setGo n false (s.wr (Reg.SYS_AXn_STAT_REFUSE n) 7)
  setAxis n axDISABLED s

/-- ARMING (R230): a stop cause or GO clear, then ARMED, then FS_FAIL, then a failing condition. -/
def evalArming (n st : Nat) (s : State) : State :=
  let code := s.refuse n
  if s.stopCauses n ≠ [] || ! s.go n then
    setAxis n axDISABLED (s.when (! s.roleRuns) (setGo n false))
  else if s.lossPending n then s
  else if tb st 0 && code = 0 then setAxis n axRUNNING s
  else if tb st 1 then fsFail n s
  else if code ≠ 0 then setAxis n axDISABLED s
  else s

/-- STOPPING (R230, R233): causes of this tick merge first; STOPPED then ends the stop. -/
def evalStopping (n st : Nat) (boundary : Bool) (s : State) : State :=
  let s := applyStops n (s.stopCauses n ++ (if s.lossPending n then [s.lossStop n] else [])) s
  let s := s.when boundary fun s => s.setA n { s.a n with stopCycles := (s.a n).stopCycles + 1 }
  if tb st 2 then setAxis n (if s.on (Reg.SYS_AXn_STAT_END_HOLD n) then axHELD else axDISABLED) s else s

/-- HELD (R230, R235): REQ DISABLE or a lost role, then GO, unless a stop cause of this tick overrides it. -/
def evalHeld (n : Nat) (s : State) : State :=
  if s.lreq n = 0 || ! s.roleRuns then setAxis n axDISABLED (s.when (! s.roleRuns) (setGo n false))
  else if s.go n && s.stopCauses n = [] && ! s.lossPending n then setAxis n axRUNNING s
  else s

/-- SAFE (R234). -/
def evalSafe (n st : Nat) (s : State) : State :=
  if (s.a n).disableSeen && s.lreq n = 0 && s.devRuns && ! s.heldOn n &&
      (s.rd (Reg.COM_An_CFG_SAFE_KIND n) ≠ 1 || tb st 2)
  then setAxis n axDISABLED s else s

/-- The transition of one axis at a frame tick (R230, R235): a safe-state request first. FS_FAIL seen in ARMING is raised
whatever transition is taken (R250). -/
def axisStep (n : Nat) (boundary : Bool) (s : State) : State :=
  let st := s.statusWord n
  let s := gustTick n (tb st 4) s
  let s := s.when (s.ax n = axARMING && tb st 1) (raiseAx (Fc.FS_FAIL n) n)
  if tb s.fcu.supReq n && s.ax n ≠ axSAFE then setAxis n axSAFE s
  else if s.ax n = axDISABLED then evalDisabled n (s.when ((s.a n).roleRan && ! s.roleRuns) (setGo n false))
  else if s.ax n = axARMING then evalArming n st s
  else if s.ax n = axRUNNING then applyStops n (s.stopCauses n) (s.when (! s.roleRuns) (setGo n false))
  else if s.ax n = axSTOPPING then evalStopping n st boundary (s.when (! s.roleRuns) (setGo n false))
  else if s.ax n = axHELD then evalHeld n s
  else evalSafe n st s

/-- The evaluation of one axis at a frame tick (R228): REFUSE shows the first failing arming condition in every state (R229),
FRAMES counts on unless the state changed, CTL is rebuilt. -/
def axisEval (n : Nat) (boundary : Bool) (s : State) : State :=
  let old := s.ax n
  let s := axisStep n boundary (s.wr (Reg.SYS_AXn_STAT_REFUSE n) (s.refuse n))
  let s := s.when (s.ax n = old) fun s =>
    (s.setA n { s.a n with first := false }).inc (Reg.SYS_AXn_FRAMES n)
  buildCtl n (s.setA n { s.a n with freshReq := none, roleRan := s.roleRuns })

/-- Every axis at a frame tick, then the role that follows from them (R228, R34). -/
def axisTick (boundary : Bool) (s : State) : State :=
  let s := workerRole (s.each (List.range 8) fun n => axisEval n boundary)
  s.each (List.range 8) buildCtl

/-- After a change the axis unit makes beside the evaluation: the worker's role and CTL. -/
def axisAfter (n : Nat) (s : State) : State := buildCtl n (workerRole s)

/-- ARM_TIMEOUT (R230): the axis has spent ARM_TOUT frames in ARMING and did not go to RUNNING at this tick. -/
def execArmTimeout (n : Fin 8) (s : State) : Out :=
  if s.ax n = axARMING ∧ s.rd (Reg.SYS_AXn_TIME_ARM_TOUT n) < s.rd (Reg.SYS_AXn_FRAMES n) then
    done (axisAfter n (setAxis n axDISABLED (raiseAx (Fc.ARM_TIMEOUT n) n (setGo n false s))))
  else .next s

/-- STOP_TIMEOUT (R233): STOP_TOUT cycles in STOPPING. -/
def execStopTimeout (n : Fin 8) (s : State) : Out :=
  let a := s.a n
  if s.ax n = axSTOPPING ∧ s.rd (Reg.SYS_AXn_TIME_STOP_TOUT n) ≤ a.stopCycles ∧ ! a.stopUp then
    done (raiseAx (Fc.STOP_TIMEOUT n) n (s.setA n { a with stopUp := true }))
  else .next s

/-- SP_STALE (R231): the setpoint loss that arose at this boundary: raised once per run, GO clears, the LOSS stop starts. -/
def execSpStale (n : Fin 8) (s : State) : Out :=
  let a := s.a n
  if a.staleDue then
    let s := s.setA n { a with staleDue := false, staleUp := true }
    let s := setGo n false (raiseAx (Fc.SP_STALE n) n s)
    done (axisAfter n (applyStops n [s.lossStop n] s))
  else .next s

/-- GUST_LONG (R231, R247): GUST for more than GUST_MAX consecutive cycles. -/
def execGustLong (n : Fin 8) (s : State) : Out :=
  if s.gustDue n then
    let s := s.setA n { s.a n with gustUp := true }
    let s := setGo n false (raiseAx (Fc.GUST_LONG n) n s)
    done (axisAfter n (applyStops n [s.lossStop n] s))
  else .next s

/-- An enable withdrawn from an axis in ARMING, RUNNING, STOPPING or HELD raises ENABLE_LOST and is a safe-state cause
whatever the reaction (R232); `old` are the effective output bits before the change. -/
def enablesFrom (old : Nat) (s : State) : State :=
  s.each (List.range 8) fun n s =>
    s.when (tb old n && ! s.enabled n && (s.ax n = axARMING || s.driving n)) fun s =>
      raiseAx (Fc.ENABLE_LOST n) n (s.when (s.dev.state ≠ .replay) (requestSafe (2 ^ n)))

end Sys2Proof.Machine
end

