-- ==== Sys2Proof/Machine/Sha.lean ====
section
/-! DEFINITION. SHA-384, which R442 names by its standard, FIPS 180-4; the steps and constants are PRESUMED from that standard
(notes/assumptions/6.md). -/
namespace Sys2Proof.Machine

/-- The constants of the 80 rounds. -/
def shaK : List Nat :=
  [ 0x428A2F98D728AE22, 0x7137449123EF65CD, 0xB5C0FBCFEC4D3B2F, 0xE9B5DBA58189DBBC,
    0x3956C25BF348B538, 0x59F111F1B605D019, 0x923F82A4AF194F9B, 0xAB1C5ED5DA6D8118,
    0xD807AA98A3030242, 0x12835B0145706FBE, 0x243185BE4EE4B28C, 0x550C7DC3D5FFB4E2,
    0x72BE5D74F27B896F, 0x80DEB1FE3B1696B1, 0x9BDC06A725C71235, 0xC19BF174CF692694,
    0xE49B69C19EF14AD2, 0xEFBE4786384F25E3, 0x0FC19DC68B8CD5B5, 0x240CA1CC77AC9C65] ++
  [ 0x2DE92C6F592B0275, 0x4A7484AA6EA6E483, 0x5CB0A9DCBD41FBD4, 0x76F988DA831153B5,
    0x983E5152EE66DFAB, 0xA831C66D2DB43210, 0xB00327C898FB213F, 0xBF597FC7BEEF0EE4,
    0xC6E00BF33DA88FC2, 0xD5A79147930AA725, 0x06CA6351E003826F, 0x142929670A0E6E70,
    0x27B70A8546D22FFC, 0x2E1B21385C26C926, 0x4D2C6DFC5AC42AED, 0x53380D139D95B3DF,
    0x650A73548BAF63DE, 0x766A0ABB3C77B2A8, 0x81C2C92E47EDAEE6, 0x92722C851482353B] ++
  [ 0xA2BFE8A14CF10364, 0xA81A664BBC423001, 0xC24B8B70D0F89791, 0xC76C51A30654BE30,
    0xD192E819D6EF5218, 0xD69906245565A910, 0xF40E35855771202A, 0x106AA07032BBD1B8,
    0x19A4C116B8D2D0C8, 0x1E376C085141AB53, 0x2748774CDF8EEB99, 0x34B0BCB5E19B48A8,
    0x391C0CB3C5C95A63, 0x4ED8AA4AE3418ACB, 0x5B9CCA4F7763E373, 0x682E6FF3D6B2B8A3,
    0x748F82EE5DEFB2FC, 0x78A5636F43172F60, 0x84C87814A1F0AB72, 0x8CC702081A6439EC] ++
  [ 0x90BEFFFA23631E28, 0xA4506CEBDE82BDE9, 0xBEF9A3F7B2C67915, 0xC67178F2E372532B,
    0xCA273ECEEA26619C, 0xD186B8C721C0C207, 0xEADA7DD6CDE0EB1E, 0xF57D4F7FEE6ED178,
    0x06F067AA72176FBA, 0x0A637DC5A2C898A6, 0x113F9804BEF90DAE, 0x1B710B35131C471B,
    0x28DB77F523047D84, 0x32CAAB7B40C72493, 0x3C9EBE0A15C9BEBC, 0x431D67C49C100D4C,
    0x4CC5D4BECB3E42B6, 0x597F299CFC657E2A, 0x5FCB6FAB3AD6FAEC, 0x6C44198C4A475817]

/-- The initial value. -/
def shaInit : List Nat :=
  [ 0xCBBB9D5DC1059ED8, 0x629A292A367CD507, 0x9159015A3070DD17, 0x152FECD8F70E5939,
    0x67332667FFC00B31, 0x8EB44A8768581511, 0xDB0C2E0D64F98FA7, 0x47B5481DBEFA4FA4]

/-- Rotate a 64-bit word right. -/
def ror64 (n x : Nat) : Nat := x / 2 ^ n + x % 2 ^ n * 2 ^ (64 - n)

/-- One round on the eight working words. -/
def shaRound (k w : Nat) : List Nat → List Nat
  | [a, b, c, d, e, f, g, h] =>
    let t1 := h + (ror64 14 e ^^^ ror64 18 e ^^^ ror64 41 e) + ((e &&& f) ^^^ ((2 ^ 64 - 1 - e) &&& g)) + k + w
    let t2 := (ror64 28 a ^^^ ror64 34 a ^^^ ror64 39 a) + ((a &&& b) ^^^ (a &&& c) ^^^ (b &&& c))
    [(t1 + t2) % 2 ^ 64, a, b, c, (d + t1) % 2 ^ 64, e, f, g]
  | v => v

/-- The word of the message schedule 16 after the first of a window. -/
def shaNext (w : List Nat) : Nat :=
  let x := w.getD 1 0
  let y := w.getD 14 0
  ((ror64 19 y ^^^ ror64 61 y ^^^ (y / 2 ^ 6)) + w.getD 9 0 + (ror64 1 x ^^^ ror64 8 x ^^^ (x / 2 ^ 7)) + w.getD 0 0) % 2 ^ 64

/-- The rounds of one block: a round for each constant, over a window of 16 schedule words. -/
def shaRounds : List Nat → List Nat → List Nat → List Nat
  | [], _, v => v
  | k :: ks, w, v => shaRounds ks (w.drop 1 ++ [shaNext w]) (shaRound k (w.headD 0) v)

/-- The 64-bit words of bytes, most significant byte first. -/
def bigWords : Nat → List Nat → List Nat
  | 0, _ => []
  | n + 1, bs => (bs.take 8).foldl (fun v b => 256 * v + b) 0 :: bigWords n (bs.drop 8)

/-- The chain over `n` blocks of 128 bytes. -/
def shaBlocks : Nat → List Nat → List Nat → List Nat
  | 0, v, _ => v
  | n + 1, v, bs =>
    let out := shaRounds shaK (bigWords 16 bs) v
    shaBlocks n ((v.zip out).map fun p => (p.1 + p.2) % 2 ^ 64) (bs.drop 128)

/-- The big-endian bytes of a 64-bit word. -/
def bigBytes (v : Nat) : List Nat := (wordsBytes [v % 2 ^ 32, v / 2 ^ 32]).reverse

/-- SHA-384 of a message of bytes: 48 bytes. -/
def sha384Bytes (bs : List Nat) : List Nat :=
  let n := bs.length / 128 + (if bs.length % 128 < 112 then 1 else 2)
  let msg := padTo (128 * n - 8) (bs ++ [0x80]) ++ bigBytes (8 * bs.length)
  ((shaBlocks n shaInit msg).take 6).flatMap bigBytes

/-- SHA-384 of a message of little-endian words, as 12 such words. -/
def sha384 (ws : List Nat) : List Nat := bytesWords 12 (sha384Bytes (wordsBytes ws))

end Sys2Proof.Machine
end

