-- ==== Sys2Proof/Machine/Crypto.lean ====
section
/-! DEFINITION. The keys of R439 and the results of Crucible's other algorithms (R442), each an uninterpreted function of the words it
covers. -/
namespace Sys2Proof.Machine

/-- `n` words of the result named by a tag. -/
def cryptoWords (tag n : Nat) (ws : List Nat) : List Nat := padTo n ((Config.crypto tag ws).map BitVec.toNat)

/-- KDF(label, e) over the DRS: `n` bytes of SHA-384(DRS, label, e, i) for i from 0 (R439). The label is given as its bytes. -/
def kdf (drs label : List Nat) (e n : Nat) : List Nat :=
  ((List.range (ceilDiv n 48)).flatMap fun i => sha384Bytes (wordsBytes drs ++ label ++ [e, i])).take n

/-- SK.seed, SK.prf and PK.seed of DIK_e, and the key of the identity block: labels "DIK" and "WRAP" (R439). -/
def dikSeeds (drs : List Nat) (e : Nat) : List Nat := kdf drs [0x44, 0x49, 0x4B] e 72
def wrapKey (drs : List Nat) (e : Nat) : List Nat := kdf drs [0x57, 0x52, 0x41, 0x50] e 32

/-- An SLH-DSA-SHA2-192f signature over a digest with the DIK of these seeds: 35,664 bytes (R489, R505). -/
def dikSign (seeds digest : List Nat) : List Nat := cryptoWords 2 8916 (seeds ++ digest)

/-- The DIK public key of these seeds (R439, R489). -/
def dikPublic (seeds : List Nat) : List Nat := cryptoWords 3 12 seeds

/-- What AES-256-GCM takes: key, IV and additional data, each after its length, and the plaintext. -/
def gcmInput (key iv aad plain : List Nat) : List Nat :=
  key.length :: key ++ iv.length :: iv ++ aad.length :: aad ++ plain

/-- AES-256-GCM ciphertext and tag of a plaintext (R439, R485, R493). -/
def gcmText (key iv aad plain : List Nat) : List Nat := cryptoWords 4 plain.length (gcmInput key iv aad plain)
def gcmTag (key iv aad plain : List Nat) : List Nat := cryptoWords 5 4 (gcmInput key iv aad plain)

/-- The hashes H_R and H_S of the VENDOR keys, held in the boot ROM (R440). -/
def vendorHash : List Nat := cryptoWords 6 24 []

/-- The 32-byte key that RSAES-OAEP under DTK unwraps from 384 bytes (R442, R473); `dtk` is the private key as it is held. -/
def oaepKey (dtk wrapped : List Nat) : List Nat := cryptoWords 7 8 (dtk ++ wrapped)

/-- `n` words from the TRNG (R441). -/
def State.draw : Nat → State → List Nat × State
  | 0, s => ([], s)
  | n + 1, s =>
    let (v, s) := s.free
    let (vs, s) := State.draw n s
    (v :: vs, s)

end Sys2Proof.Machine
end

