-- ==== Sys2Proof/Machine/EngineIsa.lean ====
section
/-! DEFINITION. The engine instructions as functions from the engine before to the engine after, with their
cycles (R101 to R109, R115, R116). Every operand is read before any result is written (R100). -/
namespace Sys2Proof.Machine

/-- The lanes an instruction acts in, ascending. -/
def lanes (w : Nat) : List Nat := List.range (ewLanes w)

/-- Write one result at D; SAT follows the saturation unless QUIET (R97). -/
def wr1 (e : EngSt) (w : Nat) (r : Int × Bool) (quiet : Bool) : EngSt :=
  (e.put (ewD w) [r.1]).satIf (r.2 && ! quiet)

/-- Write results at D, D + 1, …; SAT is set if one saturated and the scaling is not quiet. -/
def wrN (e : EngSt) (w : Nat) (rs : List (Int × Bool)) (quiet : Bool) : EngSt :=
  (e.put (ewD w) (rs.map Prod.fst)).satIf ((rs.any Prod.snd) && ! quiet)

def engMOV (e : EngSt) (w : Nat) : EngSt := e.put (ewD w) ((lanes w).map fun i => e.m (ewA w + i))
def engLDK (e : EngSt) (w : Nat) : EngSt := e.put (ewD w) [e.v (ewK w)]
def engASH (e : EngSt) (w : Nat) : EngSt :=
  wr1 e w (scale (e.m (ewA w)) (e.sh (ewK w))) (e.quiet (ewK w))
def engADD (e : EngSt) (w : Nat) : EngSt :=
  wrN e w ((lanes w).map fun i => sat32 (e.m (ewA w + i) + e.m (ewB w + i))) false
def engSUB (e : EngSt) (w : Nat) : EngSt :=
  wrN e w ((lanes w).map fun i => sat32 (e.m (ewA w + i) - e.m (ewB w + i))) false
def engNEG (e : EngSt) (w : Nat) : EngSt := wr1 e w (sat32 (-e.m (ewA w))) false
def engABS (e : EngSt) (w : Nat) : EngSt := wr1 e w (sat32 (e.m (ewA w)).natAbs) false
def engMULD (e : EngSt) (w : Nat) : EngSt :=
  wr1 e w (scale (e.m (ewA w) * e.m (ewB w)) (e.sh (ewK w))) (e.quiet (ewK w))
def engMULC (e : EngSt) (w : Nat) : EngSt :=
  wr1 e w (scale (e.m (ewA w) * e.v (ewK w)) (e.sh (ewK w))) (e.quiet (ewK w))

/-- AXPY: either saturation, of the product or of the sum, counts (R102). -/
def engAXPY (e : EngSt) (w : Nat) : EngSt :=
  let p := scale (e.m (ewA w) * e.v (ewK w)) (e.sh (ewK w))
  let r := sat32 (e.m (ewB w) + p.1)
  wr1 e w (r.1, p.2 || r.2) (e.quiet (ewK w))

def engACLR (e : EngSt) (w : Nat) : EngSt := (lanes w).foldl (fun e i => e.setAcc i 0) e
def engMACC (e : EngSt) (w : Nat) : EngSt :=
  (lanes w).foldl (fun e i => e.addAcc i (e.m (ewA w + i) * e.v (ewK w + i))) e
def engMACD (e : EngSt) (w : Nat) : EngSt :=
  (lanes w).foldl (fun e i => e.addAcc i (e.m (ewA w + i) * e.m (ewB w + i))) e
def engMSUD (e : EngSt) (w : Nat) : EngSt :=
  (lanes w).foldl (fun e i => e.addAcc i (-(e.m (ewA w + i) * e.m (ewB w + i)))) e
def engACST (e : EngSt) (w : Nat) : EngSt :=
  wrN e w ((lanes w).map fun i => scale (e.acc i) (e.sh (ewK w))) (e.quiet (ewK w))
def engACSM (e : EngSt) (w : Nat) : EngSt :=
  wr1 e w (scale (e.acc0 + e.acc1 + e.acc2 + e.acc3) (e.sh (ewK w))) (e.quiet (ewK w))
def engMIN (e : EngSt) (w : Nat) : EngSt :=
  e.put (ewD w) ((lanes w).map fun i => min (e.m (ewA w + i)) (e.m (ewB w + i)))
def engMAX (e : EngSt) (w : Nat) : EngSt :=
  e.put (ewD w) ((lanes w).map fun i => max (e.m (ewA w + i)) (e.m (ewB w + i)))
def engCLMP (e : EngSt) (w : Nat) : EngSt :=
  e.put (ewD w) [clampI (e.m (ewA w)) (e.m (ewB w)) (e.m (ewB w + 1))]

/-- The condition of SEL on the old destination (R102). -/
def selCond (md : Nat) (x : Int) : Bool :=
  match md with
  | 0 => decide (x ≥ 0) | 1 => decide (x > 0) | 2 => decide (x = 0) | _ => decide (x < 0)
def engSEL (e : EngSt) (w : Nat) : EngSt :=
  e.put (ewD w) [if selCond (ewMd w) (e.m (ewD w)) then e.m (ewA w) else e.m (ewB w)]

/-- A bitwise operation on the 32-bit words. -/
def engBits (f : Nat → Nat → Nat) (e : EngSt) (w : Nat) : EngSt :=
  e.put (ewD w) [(f (trunc 32 (e.m (ewA w))) (trunc 32 (e.m (ewB w))) : Nat)]
def engAND : EngSt → Nat → EngSt := engBits (· &&& ·)
def engOR : EngSt → Nat → EngSt := engBits (· ||| ·)
def engXOR : EngSt → Nat → EngSt := engBits (· ^^^ ·)

/-- The constants of CLARKE (R104): round(2^30 / √3) and round(2^30 / 3). -/
def cR3 : Int := 619925131
def c3 : Int := 357913941

def engCLARKE (e : EngSt) (w : Nat) : EngSt :=
  let a := ewA w
  if ewMd w = 0 then
    wrN e w [(e.m a, false), rnd30 ((e.m a + 2 * e.m (a + 1)) * cR3)] false
  else
    wrN e w [rnd30 ((2 * e.m a - e.m (a + 1) - e.m (a + 2)) * c3),
      rnd30 ((e.m (a + 1) - e.m (a + 2)) * cR3)] false

def engPARK (e : EngSt) (w : Nat) : EngSt :=
  let a := e.m (ewA w)
  let b := e.m (ewA w + 1)
  let sn := e.m (ewB w)
  let cs := e.m (ewB w + 1)
  wrN e w [rnd30 (a * cs + b * sn), rnd30 (b * cs - a * sn)] false

def engIPARK (e : EngSt) (w : Nat) : EngSt :=
  let d := e.m (ewA w)
  let q := e.m (ewA w + 1)
  let sn := e.m (ewB w)
  let cs := e.m (ewB w + 1)
  wrN e w [rnd30 (d * cs - q * sn), rnd30 (d * sn + q * cs)] false

/-- ATAN[i] = round(2^32 × atan(2^−i) / 2π) for i = 0 to 29 (R106). -/
def atanTable : List Int :=
  [536870912, 316933406, 167458907, 85004756, 42667331, 21354465, 10679838, 5340245, 2670163, 1335087,
   667544, 333772, 166886, 83443, 41722, 20861, 10430, 5215, 2608, 1304, 652, 326, 163, 81, 41, 20, 10,
   5, 3, 1]

/-- XC = round(2^30 × Π (1 + 2^−2i)^−1/2) (R106). -/
def cordicXC : Int := 652032874

/-- The 30 CORDIC steps from step `i` on x, y and z (R106). -/
def cordicSteps : List Int → Nat → Int × Int × Int → Int × Int
  | [], _, (x, y, _) => (x, y)
  | a :: as, i, (x, y, z) =>
    let d : Int := if z ≥ 0 then 1 else -1
    cordicSteps as (i + 1) (x - d * ashr y i, y + d * ashr x i, z - d * a)

/-- sincos(a) of R106: the sine and the cosine. -/
def sincos (a : Nat) : Int × Int :=
  let q : Nat := (a + 2 ^ 29) / 2 ^ 30 % 4
  let z := sext 32 (trunc 32 ((a : Int) - (q : Int) * 2 ^ 30))
  let xy := cordicSteps atanTable 0 (cordicXC, 0, z)
  let cs : Int × Int := match q with
    | 0 => (xy.1, xy.2) | 1 => (-xy.2, xy.1) | 2 => (-xy.1, -xy.2) | _ => (xy.2, -xy.1)
  (clampI cs.2 (-2 ^ 30) (2 ^ 30), clampI cs.1 (-2 ^ 30) (2 ^ 30))

def engSINCOS (e : EngSt) (w : Nat) : EngSt :=
  let r := sincos (trunc 32 (e.m (ewA w)))
  e.put (ewD w) [r.1, r.2]

/-- The index and the fraction of lut1 for n points of spacing 2^p from x0 (R107). -/
def lutAt (x x0 : Int) (p n : Nat) : Nat × Int :=
  let u := x - x0
  let i := clampI (ashr u p) 0 ((n : Int) - 2)
  (i.toNat, clampI (u - i * (2 ^ p : Nat)) 0 (2 ^ p : Nat))

/-- y0 + ((y1 − y0) × f + h) >> p (R107). -/
def lutMix (y0 y1 f : Int) (p : Nat) : Int :=
  y0 + ashr ((y1 - y0) * f + (if p > 0 then (2 ^ (p - 1) : Nat) else 0 : Nat)) p

def engLUT1 (e : EngSt) (w : Nat) : EngSt :=
  let k := ewK w
  let p := (e.sh k).toNat
  let r := lutAt (e.m (ewA w)) (e.v k) p (e.v (k + 1)).toNat
  e.put (ewD w) [lutMix (e.v (k + 2 + r.1)) (e.v (k + 3 + r.1)) r.2 p]

def engLUT2 (e : EngSt) (w : Nat) : EngSt :=
  let k := ewK w
  let px := (e.sh k).toNat
  let py := (e.sh (k + 1)).toNat
  let nx := bits (e.cw (k + 2)) 0 16
  let ny := bits (e.cw (k + 2)) 16 16
  let rx := lutAt (e.m (ewA w)) (e.v k) px nx
  let ry := lutAt (e.m (ewA w + 1)) (e.v (k + 1)) py ny
  let row := fun j => lutMix (e.v (k + 3 + j * nx + rx.1)) (e.v (k + 3 + j * nx + rx.1 + 1)) rx.2 px
  e.put (ewD w) [lutMix (row ry.1) (row (ry.1 + 1)) ry.2 py]

def engINTG (e : EngSt) (w : Nat) : EngSt :=
  let p := scale (e.m (ewA w) * e.v (ewK w)) (e.sh (ewK w))
  let r := sat32 (e.m (ewD w) + p.1)
  wr1 e w (clampI r.1 (e.m (ewB w)) (e.m (ewB w + 1)), p.2 || r.2) (e.quiet (ewK w))

def engRLIM (e : EngSt) (w : Nat) : EngSt :=
  let lim : Int := min (e.v (ewK w)).natAbs (2 ^ 31 - 1)
  let d := e.m (ewD w)
  wr1 e w (sat32 (d + clampI (e.m (ewA w) - d) (-lim) lim)) false

/-- BIQ (R109). Where m[B] lies among the state words, the state word stands (log entry 506). -/
def engBIQ (e : EngSt) (w : Nat) : EngSt :=
  let k := ewK w
  let d := ewD w
  let x := e.m (ewA w)
  let p := e.v k * x + e.v (k + 1) * e.m d + e.v (k + 2) * e.m (d + 1) - e.v (k + 3) * e.m (d + 2) -
    e.v (k + 4) * e.m (d + 3)
  let y := scale p (e.sh k)
  ((e.put (ewB w) [y.1]).put d [x, e.m d, y.1, e.m (d + 2)]).satIf (y.2 && ! e.quiet k)

/-- The number of taps of a FIR (R109), and its delay line x[n−1] … x[n−N+1]. -/
def firN (e : EngSt) (w : Nat) : Nat := (e.v (ewK w)).toNat
def firLine (e : EngSt) (w : Nat) : List Int := (List.range (firN e w - 1)).map fun j => e.m (ewD w + j)

def engFIR (e : EngSt) (w : Nat) : EngSt :=
  let k := ewK w
  let xs := e.m (ewA w) :: firLine e w
  let hs := (List.range (firN e w)).map fun j => e.v (k + 1 + j)
  let y := scale ((List.zipWith (· * ·) hs xs).foldl (· + ·) 0) (e.sh k)
  ((e.put (ewB w) [y.1]).put (ewD w) (xs.take (firN e w - 1))).satIf (y.2 && ! e.quiet k)

/-- FCST (R115): a counter outside 0 to LIMIT is treated as LIMIT (R116). -/
def engFCST (e : EngSt) (w : Nat) : EngSt :=
  let k := ewK w
  let lim := e.v (k + 3)
  let c0 := e.m (ewD w)
  let c := if c0 < 0 ∨ c0 > lim then lim else c0
  let r : Int := (e.m (ewA w) - e.m (ewB w)).natAbs
  let c' := if r > e.v k then min (c + e.v (k + 1)) lim else max (c - e.v (k + 2)) 0
  { e.put (ewD w) [c'] with fcst := e.fcst || decide (c' = lim) }

/-- The cycles of an instruction (R102, R103). -/
def engCycles (e : EngSt) (w : Nat) : Nat :=
  match ewOp w with
  | 0x01 => 2 | 0x25 => 2 | 0x40 => 3 | 0x41 => 2 | 0x42 => 2 | 0x43 => 16 | 0x44 => 6 | 0x45 => 10
  | 0x46 => 2 | 0x47 => 2 | 0x48 => 3 | 0x49 => 2 + ceilDiv (firN e w) 4 | 0x4A => 3 | _ => 1

/-- Which of K, D, A and B an opcode uses, and whether MD is a lane count or a condition (R101 to R103). -/
structure OpUse where
  op : Nat
  k : Bool
  d : Bool
  a : Bool
  b : Bool
  /-- The largest MD allowed. -/
  md : Nat
deriving DecidableEq, Repr

/-- Every opcode of R102 and R103 with the fields it uses. -/
def opUses : List OpUse := [
  ⟨0x00, false, false, false, false, 0⟩, ⟨0x01, false, false, false, false, 0⟩,
  ⟨0x02, false, true, true, false, 3⟩, ⟨0x03, true, true, false, false, 0⟩,
  ⟨0x04, true, true, true, false, 0⟩, ⟨0x10, false, true, true, true, 3⟩,
  ⟨0x11, false, true, true, true, 3⟩, ⟨0x12, false, true, true, false, 0⟩,
  ⟨0x13, false, true, true, false, 0⟩, ⟨0x14, true, true, true, true, 0⟩,
  ⟨0x15, true, true, true, false, 0⟩, ⟨0x16, true, true, true, true, 0⟩,
  ⟨0x20, false, false, false, false, 3⟩, ⟨0x21, true, false, true, false, 3⟩,
  ⟨0x22, false, false, true, true, 3⟩, ⟨0x23, false, false, true, true, 3⟩,
  ⟨0x24, true, true, false, false, 3⟩, ⟨0x25, true, true, false, false, 0⟩,
  ⟨0x30, false, true, true, true, 3⟩, ⟨0x31, false, true, true, true, 3⟩,
  ⟨0x32, false, true, true, true, 0⟩, ⟨0x33, false, true, true, true, 3⟩,
  ⟨0x38, false, true, true, true, 0⟩, ⟨0x39, false, true, true, true, 0⟩,
  ⟨0x3A, false, true, true, true, 0⟩, ⟨0x40, false, true, true, false, 1⟩,
  ⟨0x41, false, true, true, true, 0⟩, ⟨0x42, false, true, true, true, 0⟩,
  ⟨0x43, false, true, true, false, 0⟩, ⟨0x44, true, true, true, false, 0⟩,
  ⟨0x45, true, true, true, false, 0⟩, ⟨0x46, true, true, true, true, 0⟩,
  ⟨0x47, true, true, true, false, 0⟩, ⟨0x48, true, true, true, true, 0⟩,
  ⟨0x49, true, true, true, true, 0⟩, ⟨0x4A, true, true, true, true, 0⟩]

/-- A program word is valid: its opcode is listed, its MD is allowed, and the fields it does not use are
0 (R94, R101, R103). -/
def validWord (w : Nat) : Bool :=
  match opUses.find? fun u => u.op = ewOp w with
  | none => false
  | some u => decide (ewMd w ≤ u.md) && (u.k || ewK w = 0) && (u.d || ewD w = 0) && (u.a || ewA w = 0) &&
      (u.b || ewB w = 0)

end Sys2Proof.Machine
end

