-- ==== Sys2Proof/Machine/Engine.lean ====
section
/-! DEFINITION. The control engines: start, execution of one instruction, halt, stop and completion (R93, R97,
R110 to R117, R125), and the trace record of a completed run (R121 to R123). -/
namespace Sys2Proof.Machine

/-- Engine `n`. -/
def State.e (s : State) (n : Nat) : EngSt := SMap.get {} s.eng n
def State.setE (s : State) (n : Nat) (e : EngSt) : State := { s with eng := SMap.set {} s.eng n e }

/-- A RUN of engine `n` at program word `entry` (R93, R112): a fenced or unloaded engine executes nothing, sets
its completion flag and CEC_FLAG.SKIP; it completes no run, so source 32 + 4n (R126) is not raised (log entry 504). -/
def engStart (n entry : Nat) (s : State) : State :=
  if s.bit Reg.CEC_STAT_FENCED n || ! s.bit Reg.CEC_STAT_LOADED n then
    ((s.wrBit Reg.CEC_STAT_DONE n true).wrBit Reg.CEC_FLAG_SKIP n true).put (Reg.CEC_En_FRAME_SKIP n) true
  else
    let e := { s.e n with acc0 := 0, acc1 := 0, acc2 := 0, acc3 := 0, sat := false, fcst := false, pc := entry,
                          cycles := 4, startClk := s.time.ft, halted := false, ended := false, doneFc := none }
    ((s.setE n e).wrBit Reg.CEC_STAT_BUSY n true).put (Reg.CEC_En_FRAME_SKIP n) false

/-- Record the end of a run in CEC_En_LAST (R127). -/
def engLast (n cycles : Nat) (s : State) : State :=
  (s.wr (Reg.CEC_En_LAST_ELAPSED n) (min cycles 0xFFFF)).wr (Reg.CEC_En_LAST_FN n) s.fn

/-- The flags of the run that ended last (R114, R127; log entry 508). -/
def engFlags (n : Nat) (sat fcst ovr : Bool) (s : State) : State :=
  ((s.put (Reg.CEC_En_FRAME_SAT n) sat).put (Reg.CEC_En_FRAME_FCST n) fcst).put (Reg.CEC_En_FRAME_OVR n) ovr

/-- FC as a number. -/
def State.fcNat (s : State) : Nat := s.time.fc.toNat

/-- Engine n completed a run in this frame and has started no other since (R112); it was stopped in this frame (R113). -/
def State.ranNow (s : State) (n : Nat) : Bool := (s.e n).doneFc = some s.fcNat
def State.stoppedNow (s : State) (n : Nat) : Bool := (s.e n).stopFc = some s.fcNat

/-- What every stop of engine n leaves (R113): its overrun flag for the frame, CEC_FLAG.ABORT and ENG_ABORT. The flags of a
run that completed in the frame before stand. -/
def engStopped (n : Nat) (s : State) : State :=
  let sat := s.ranNow n && s.on (Reg.CEC_En_FRAME_SAT n)
  let fcst := s.ranNow n && s.on (Reg.CEC_En_FRAME_FCST n)
  let s := s.setE n { s.e n with stopFc := some s.fcNat }
  irq (35 + 4 * n) (raiseAx (Fc.ENG_ABORT n) n (engFlags n sat fcst true (s.wrBit Reg.CEC_FLAG_ABORT n true)))

/-- The Anvil stops engine `n` (R113): BUSY clears and no completion flag is set. -/
def engAbort (n : Nat) (s : State) : State :=
  if s.bit Reg.CEC_STAT_BUSY n then
    let e := s.e n
    let cyc := if e.halted then e.cycles else max (e.cycles - 4) (3 * (s.time.ft - e.startClk) / 2)
    let s := s.setE n { e with halted := false, ended := false }
    engStopped n (engLast n cyc (s.wrBit Reg.CEC_STAT_BUSY n false))
  else s

/-- Record the first uncorrectable error or invalid word since CEC_ECC.UNC was cleared (R125). -/
def eccRecord (n mem index : Nat) (s : State) : State :=
  if s.on Reg.CEC_ECC_UNC then s
  else (((s.wr Reg.CEC_ECC_ENG n).wr Reg.CEC_ECC_MEM mem).put Reg.CEC_ECC_UNC true).wr Reg.CEC_ECC_ADDR index

/-- Engine `n` halts at its instruction without results (R125). -/
def engHalt (n mem index code : Nat) (s : State) : State :=
  let s := s.setE n { s.e n with halted := true }
  irq (35 + 4 * n) (raiseAx code n (eccRecord n mem index (engLast n (s.e n).cycles s)))

/-- Engine `n` is executing: BUSY, not halted, its END not retired. -/
def State.engLive (s : State) (n : Nat) : Bool :=
  s.bit Reg.CEC_STAT_BUSY n && ! (s.e n).halted && ! (s.e n).ended

/-- The program word at the engine's program counter. -/
def EngSt.word (e : EngSt) : Nat := SMap.get 0 e.prog (e.pc % 2048)

/-- One instruction retires: its results are written, its cycles counted, the program counter moves on (R100,
R110). -/
def engRetire (f : EngSt → Nat → EngSt) (e : EngSt) : EngSt :=
  let e' := f e e.word
  { e' with pc := e.pc + 1, cycles := e.cycles + engCycles e e.word }

/-- A correctable error is corrected and written back and raises ENG_ECC_CORR (R125). -/
def eccCorr (n : Nat) (s : State) : State :=
  raiseAx (Fc.ENG_ECC_CORR n) n (s.inc Reg.CEC_ECC_CORR_CNT)

/-- What the ECC of an engine memory shows at a use of its word i outside a run (R125): an uncorrectable error is recorded and
raised, and no run is there to halt (log entry 2428). -/
def engUseEcc (n mem i : Nat) (e : Ecc) (s : State) : State :=
  match e with
  | .ok => s
  | .corrected => eccCorr n s
  | .uncorrectable => raiseAx (Fc.ENG_ECC_UNCORR n) n (eccRecord n mem i s)

/-- Engine `n` executes the instruction with opcode `op` that stands at its program counter (R99 to R109). Where
another word stands there, or no run is in progress, nothing happens. -/
def engExec (op : Nat) (f : EngSt → Nat → EngSt) (n : Nat) (ecc : EngEcc) (s : State) : State :=
  let e := s.e n
  if s.engLive n && validWord e.word && ewOp e.word = op then
    match ecc with
    | .ok => s.setE n (engRetire f e)
    |   .corrected _ _ => eccCorr n (s.setE n (engRetire f e))
    | .uncorrectable mem i => engHalt n mem i (Fc.ENG_ECC_UNCORR n) s
  else s

def execEngNop (n : Fin 8) (ecc : EngEcc) (s : State) : Out :=
  if ! s.live (engDomain n) then .next s else
  done (engExec 0x00 (fun e _ => e) n ecc s)

/-- END (R112): the run retires; its completion flag sets at the clock of R110. -/
def execEngEnd (n : Fin 8) (ecc : EngEcc) (s : State) : Out :=
  if ! s.live (engDomain n) then .next s else
  done (engExec 0x01 (fun e _ => { e with ended := true }) n ecc s)

def execMov (n : Fin 8) (ecc : EngEcc) (s : State) : Out :=
  if ! s.live (engDomain n) then .next s else
  done (engExec 0x02 engMOV n ecc s)
def execLdk (n : Fin 8) (ecc : EngEcc) (s : State) : Out :=
  if ! s.live (engDomain n) then .next s else
  done (engExec 0x03 engLDK n ecc s)
def execAsh (n : Fin 8) (ecc : EngEcc) (s : State) : Out :=
  if ! s.live (engDomain n) then .next s else
  done (engExec 0x04 engASH n ecc s)
def execAdd (n : Fin 8) (ecc : EngEcc) (s : State) : Out :=
  if ! s.live (engDomain n) then .next s else
  done (engExec 0x10 engADD n ecc s)
def execSub (n : Fin 8) (ecc : EngEcc) (s : State) : Out :=
  if ! s.live (engDomain n) then .next s else
  done (engExec 0x11 engSUB n ecc s)
def execNeg (n : Fin 8) (ecc : EngEcc) (s : State) : Out :=
  if ! s.live (engDomain n) then .next s else
  done (engExec 0x12 engNEG n ecc s)
def execAbs (n : Fin 8) (ecc : EngEcc) (s : State) : Out :=
  if ! s.live (engDomain n) then .next s else
  done (engExec 0x13 engABS n ecc s)
def execMuld (n : Fin 8) (ecc : EngEcc) (s : State) : Out :=
  if ! s.live (engDomain n) then .next s else
  done (engExec 0x14 engMULD n ecc s)
def execMulc (n : Fin 8) (ecc : EngEcc) (s : State) : Out :=
  if ! s.live (engDomain n) then .next s else
  done (engExec 0x15 engMULC n ecc s)
def execAxpy (n : Fin 8) (ecc : EngEcc) (s : State) : Out :=
  if ! s.live (engDomain n) then .next s else
  done (engExec 0x16 engAXPY n ecc s)
def execAclr (n : Fin 8) (ecc : EngEcc) (s : State) : Out :=
  if ! s.live (engDomain n) then .next s else
  done (engExec 0x20 engACLR n ecc s)
def execMacc (n : Fin 8) (ecc : EngEcc) (s : State) : Out :=
  if ! s.live (engDomain n) then .next s else
  done (engExec 0x21 engMACC n ecc s)
def execMacd (n : Fin 8) (ecc : EngEcc) (s : State) : Out :=
  if ! s.live (engDomain n) then .next s else
  done (engExec 0x22 engMACD n ecc s)
def execMsud (n : Fin 8) (ecc : EngEcc) (s : State) : Out :=
  if ! s.live (engDomain n) then .next s else
  done (engExec 0x23 engMSUD n ecc s)
def execAcst (n : Fin 8) (ecc : EngEcc) (s : State) : Out :=
  if ! s.live (engDomain n) then .next s else
  done (engExec 0x24 engACST n ecc s)
def execAcsm (n : Fin 8) (ecc : EngEcc) (s : State) : Out :=
  if ! s.live (engDomain n) then .next s else
  done (engExec 0x25 engACSM n ecc s)
def execMin (n : Fin 8) (ecc : EngEcc) (s : State) : Out :=
  if ! s.live (engDomain n) then .next s else
  done (engExec 0x30 engMIN n ecc s)
def execMax (n : Fin 8) (ecc : EngEcc) (s : State) : Out :=
  if ! s.live (engDomain n) then .next s else
  done (engExec 0x31 engMAX n ecc s)
def execClmp (n : Fin 8) (ecc : EngEcc) (s : State) : Out :=
  if ! s.live (engDomain n) then .next s else
  done (engExec 0x32 engCLMP n ecc s)
def execSel (n : Fin 8) (ecc : EngEcc) (s : State) : Out :=
  if ! s.live (engDomain n) then .next s else
  done (engExec 0x33 engSEL n ecc s)
def execAnd (n : Fin 8) (ecc : EngEcc) (s : State) : Out :=
  if ! s.live (engDomain n) then .next s else
  done (engExec 0x38 engAND n ecc s)
def execOr (n : Fin 8) (ecc : EngEcc) (s : State) : Out :=
  if ! s.live (engDomain n) then .next s else
  done (engExec 0x39 engOR n ecc s)
def execXor (n : Fin 8) (ecc : EngEcc) (s : State) : Out :=
  if ! s.live (engDomain n) then .next s else
  done (engExec 0x3A engXOR n ecc s)
def execClarke (n : Fin 8) (ecc : EngEcc) (s : State) : Out :=
  if ! s.live (engDomain n) then .next s else
  done (engExec 0x40 engCLARKE n ecc s)
def execPark (n : Fin 8) (ecc : EngEcc) (s : State) : Out :=
  if ! s.live (engDomain n) then .next s else
  done (engExec 0x41 engPARK n ecc s)
def execIpark (n : Fin 8) (ecc : EngEcc) (s : State) : Out :=
  if ! s.live (engDomain n) then .next s else
  done (engExec 0x42 engIPARK n ecc s)
def execSincos (n : Fin 8) (ecc : EngEcc) (s : State) : Out :=
  if ! s.live (engDomain n) then .next s else
  done (engExec 0x43 engSINCOS n ecc s)
def execLut1 (n : Fin 8) (ecc : EngEcc) (s : State) : Out :=
  if ! s.live (engDomain n) then .next s else
  done (engExec 0x44 engLUT1 n ecc s)
def execLut2 (n : Fin 8) (ecc : EngEcc) (s : State) : Out :=
  if ! s.live (engDomain n) then .next s else
  done (engExec 0x45 engLUT2 n ecc s)
def execIntg (n : Fin 8) (ecc : EngEcc) (s : State) : Out :=
  if ! s.live (engDomain n) then .next s else
  done (engExec 0x46 engINTG n ecc s)
def execRlim (n : Fin 8) (ecc : EngEcc) (s : State) : Out :=
  if ! s.live (engDomain n) then .next s else
  done (engExec 0x47 engRLIM n ecc s)
def execBiq (n : Fin 8) (ecc : EngEcc) (s : State) : Out :=
  if ! s.live (engDomain n) then .next s else
  done (engExec 0x48 engBIQ n ecc s)
def execFir (n : Fin 8) (ecc : EngEcc) (s : State) : Out :=
  if ! s.live (engDomain n) then .next s else
  done (engExec 0x49 engFIR n ecc s)
def execFcst (n : Fin 8) (ecc : EngEcc) (s : State) : Out :=
  if ! s.live (engDomain n) then .next s else
  done (engExec 0x4A engFCST n ecc s)

/-- ENG_ILLEGAL (R125): an invalid program word is met at execution; CEC_ECC.MEM reads 0b11. -/
def execEngIllegal (n : Fin 8) (s : State) : Out :=
  if ! s.live (engDomain n) then .next s else
  if s.engLive n && ! validWord (s.e n).word then
    done (engHalt n 3 ((s.e n).pc % 2048) (Fc.ENG_ILLEGAL n) s)
  else .next s

/-! ### Trace (R120 to R123, R481) -/

/-- Node `j` of engine `n` is captured under the coverage in force. -/
def State.nodeCovered (s : State) (n node : Nat) : Bool :=
  match s.cec.cover with
  | none => false
  | some (cls, mask) => tb mask n && decide (bits node 16 2 ≤ cls)

/-- The defined nodes of an engine. -/
def EngSt.defined (e : EngSt) : List Nat := (List.range 64).filter fun j => tb (SMap.get 0 e.nodes j) 31

/-- The trace record of a completed run (R121, R122). -/
def State.traceRecord (s : State) (n : Nat) : List Nat :=
  let e := s.e n
  let cov := e.defined.filter fun j => s.nodeCovered n (SMap.get 0 e.nodes j)
  let mask := cov.foldl (fun m j => m + 2 ^ j) 0
  let vals := cov.map fun j => SMap.get 0 e.data (bits (SMap.get 0 e.nodes j) 0 14)
  [s.fn, n + vals.length * 2 ^ 8 + b2n (decide (cov.length < e.defined.length)) * 2 ^ 16,
    mask % 2 ^ 32, mask / 2 ^ 32] ++ vals

/-- Bytes of the trace ring and of its unread records. -/
def State.traceSize (s : State) : Nat := s.rd Reg.CEC_TR_SIZE * 4096
def State.traceUsed (s : State) : Nat :=
  (s.rd Reg.CEC_TR_WP + s.traceSize - s.rd Reg.CEC_TR_RP) % s.traceSize

/-- The trace SRAM word at a byte offset of the ring; a ring that software lays past the end of the 1 MB wraps to its start
(log entry 505). -/
def State.traceIdx (s : State) (off : Nat) : Nat :=
  (s.rd Reg.CEC_TR_BASE * 1024 + off % s.traceSize / 4) % 262144

/-- Write words at the write pointer, wrapping at the end of the ring. -/
def traceWords : List Nat → State → State
  | [], s => s
  | w :: ws, s =>
    let wp := s.rd Reg.CEC_TR_WP
    let s' := { s with cec := { s.cec with trace := SMap.set 0 s.cec.trace (s.traceIdx wp) w } }
    traceWords ws (s'.wr Reg.CEC_TR_WP ((wp + 4) % s.traceSize))

/-- A record that does not fit before the read pointer is dropped whole (R123). Equal pointers stand for an empty ring, so a
record that would bring WP to RP does not fit (log entry 503). -/
def tracePut (rec : List Nat) (s : State) : State :=
  if s.traceUsed + 4 * rec.length < s.traceSize then traceWords rec s else s.inc Reg.CEC_TR_DROP

/-- The trace stream ring takes the unread records, oldest first, by advancing CEC_TR_RP (R369). -/
def traceDrain : Nat → Nat → State → State
  | 0, _, s => s
  | k + 1, r, s =>
    if s.traceUsed = 0 then s
    else
      let rp := s.rd Reg.CEC_TR_RP
      let word := fun i => SMap.get 0 s.cec.trace (s.traceIdx (rp + 4 * i))
      let len := 4 + bits (word 1) 8 8
      let rec' := (List.range len).map word
      let s := streamRecord r 0x81 (word 0) rec' (s.wr Reg.CEC_TR_RP ((rp + 4 * len) % s.traceSize))
      traceDrain k r s

/-- The trace record of engine `n`, while TREN is set. -/
def engTrace (n : Nat) (s : State) : State :=
  if s.bit Reg.CEC_CTRL_TREN n then
    let s := tracePut (s.traceRecord n) s
    match s.ringOfKind 4 with
    | none => s
    | some r => traceDrain (s.traceUsed / 16) r s
  else s

/-! ### Completion (R110, R112, R117) -/

/-- The Forecast flag at completion: FORECAST is raised when the previous completed run had it clear (R117). -/
def engForecast (n : Nat) (flag prev : Bool) (s : State) : State :=
  if flag then
    let s := irq (33 + 4 * n) (s.wrBit Reg.CEC_FLAG_FCST n true)
    s.when (! prev) (raiseAx (Fc.FORECAST n) n)
  else s

/-- SAT at completion: ENG_SAT is raised when CEC_FLAG.SAT was clear (R124). -/
def engSatAt (n : Nat) (sat : Bool) (s : State) : State :=
  if sat then
    let was := s.bit Reg.CEC_FLAG_SAT n
    let s := irq (34 + 4 * n) (s.wrBit Reg.CEC_FLAG_SAT n true)
    s.when (! was) (raiseAx (Fc.ENG_SAT n) n)
  else s

/-- Everything the completion of engine `n` does at its clock. -/
def engComplete (n : Nat) (s : State) : State :=
  let e := s.e n
  let s := advanceTo (e.startClk + ceilDiv (2 * e.cycles) 3) s
  let s := s.setE n { e with ended := false, fcstPrev := e.fcst, doneFc := some s.fcNat }
  let s := (s.wrBit Reg.CEC_STAT_BUSY n false).wrBit Reg.CEC_STAT_DONE n true
  let s := engFlags n e.sat e.fcst (s.stoppedNow n) (engLast n e.cycles s)
  let s := engForecast n e.fcst e.fcstPrev s
  let s := engSatAt n e.sat s
  irq (32 + 4 * n) (engTrace n s)

/-- ENGINE_COMPLETION (R112): the run of engine `n` whose END retired completes; `corr` tells of a single-bit error in a data word
that trace capture reads (R125). -/
def execEngineCompletion (n : Fin 8) (corr : Bool) (s : State) : Out :=
  if ! s.live (engDomain n) then .next s else
  if s.bit Reg.CEC_STAT_BUSY n && (s.e n).ended then
    done ((engComplete n s).when (corr && s.bit Reg.CEC_CTRL_TREN n) (eccCorr n))
  else .next s

/-- TRACE_RP_WRITE (R123): the consumer moves the read pointer. -/
def execTraceRpWrite (v : Word) (s : State) : Out :=
  if ! s.runs then .next s else
  done (s.wr Reg.CEC_TR_RP (v.toNat % 2 ^ 20))

/-- The word PUBLISH writes before SOFF (R114): the flags of this frame; those of another frame read 0. -/
def State.publishWord (s : State) (n : Nat) : Nat :=
  s.fn % 2 ^ 29 + b2n (s.ranNow n && s.on (Reg.CEC_En_FRAME_SAT n)) * 2 ^ 29 +
    b2n (s.ranNow n && s.on (Reg.CEC_En_FRAME_FCST n)) * 2 ^ 30 + b2n (s.stoppedNow n) * 2 ^ 31

/-- N for ENTRY 0 (R110, CEC_En_CYC): 4 plus the cycles up to and including the first END. -/
def progCycles (e : EngSt) : Nat → Nat → Nat
  | 0, _ => 0
  | k + 1, p =>
    let w := SMap.get 0 e.prog p
    let c := engCycles e w
    if ewOp w = 1 then c else c + progCycles e k (p + 1)

/-- CEC_En_CYC of an engine that holds a program (R110, R111): the taps of a FIR, a coefficient, count in it. -/
def engCyc (n : Nat) (s : State) : State :=
  s.when (s.bit Reg.CEC_STAT_LOADED n) (·.wr (Reg.CEC_En_CYC n) (min (4 + progCycles (s.e n) 2048 0) 0xFFFF))

/-- The frame tick of an engine (R25, R93): a load reported complete since the last tick is taken up, and for an ENGINE load
sets LOADED unless R491 keeps the engine unloaded; the engine is fenced while a load for it stands accepted and not reported, or
waits for the engine's domain (R91). -/
def engTakeUp (n : Nat) (s : State) : State :=
  let e := s.e n
  let on := decide (s.domState (engDomain n) = 2)
  let s := s.wrBit Reg.CEC_STAT_FENCED n (decide (s.sec.accepted = some n) || (e.load.isSome && ! on))
  match if on then e.load else none with
  | none => s
  | some l =>
    let coef := l.coefs.foldl (fun c p => SMap.set 0 c p.1 p.2) e.coef
    let s := { s with alm := { s.alm with loadNow := s.alm.loadNow || l.program.isSome || ! l.coefs.isEmpty } }
    let s := match l.program with
      | none => s.setE n { e with coef := coef, load := none }
      | some (prog, pages, nodes, id) =>
        let e := { e with coef := coef, prog := SMap.setMany 0 [] 0 prog, nodes := SMap.setMany 0 [] 0 nodes,
                          load := none }
        let defs := e.defined.foldl (fun m j => m + 2 ^ j) 0
        let s := (s.setE n e).each (List.range 4) fun m s => s.wr (Reg.CEC_En_PAGEm n m) (pages.getD m 0)
        let s := s.wr (Reg.CEC_En_ID n) id
        ((s.wr (Reg.CEC_En_NODE_L n) (defs % 2 ^ 32)).wr (Reg.CEC_En_NODE_H n) (defs / 2 ^ 32)).wrBit
          Reg.CEC_STAT_LOADED n (! tb s.sec.sealBar n)
    let sealed := ((List.range 4096).filter fun k => tb (SMap.get 0 coef k) 39).length
    engCyc n (s.wr (Reg.CEC_En_COEF n) sealed)

end Sys2Proof.Machine
end

