-- ==== Sys2Proof/Machine/Fuse.lean ====
section
/-! DEFINITION. Fused bits in three copies, and the counters they make up (R434, R438). -/
namespace Sys2Proof.Machine

/-- Crucible and its replacement. -/
def setSec (x : SecSt) (s : State) : State := { s with sec := x }

/-- The number of a fused bit: lifecycle bit k, revocation of slot k, SPLIT, SPLIT_LOCK, GRADE bit k, step 0 of counter k and of TKC. -/
def fzLC (k : Nat) : Nat := k
def fzREV (k : Nat) : Nat := 4 + k
def fzSPLIT : Nat := 8
def fzSPLIT_LOCK : Nat := 9
def fzGRADE (k : Nat) : Nat := 10 + k
def fzARB (k : Nat) : Nat := 64 + 64 * k
def fzTKC : Nat := 320

/-- A fused bit counts as set with two of its three copies blown (R434). -/
def fuseSet (m : SMap Nat) (k : Nat) : Bool := decide (2 ≤ SMap.get 0 m k)
def State.fuse (s : State) (k : Nat) : Bool := fuseSet s.sec.fuses k

/-- Clocks that blowing the three copies of a bit takes (R436: 30 µs typical). -/
def blowClks : Nat := 12000

/-- Blow all three copies of a bit; a reset in the time this takes cuts the write off. -/
def blow (k : Nat) (s : State) : State :=
  setSec { s.sec with fuses := SMap.set 0 s.sec.fuses k 3, blown := some (k, s.time.clk + blowClks) } s

/-- The third copy of every bit found with two is blown (R434). -/
def complete3 (m : SMap Nat) : SMap Nat := m.map fun p => if p.2 = 2 then (p.1, 3) else p

/-- Steps blown of the `n` of a counter from bit `base`. -/
def stepCount (m : SMap Nat) (base n : Nat) : Nat := ((List.range n).filter fun i => fuseSet m (base + i)).length

/-- Steps not yet blown are blown in order, as many as are asked for (R446, R455). -/
def blowSteps : List Nat → Nat → State → State
  | [], _, s => s
  | k :: ks, n, s => if n = 0 then s else if s.fuse k then blowSteps ks n s else blowSteps ks (n - 1) (blow k s)

/-- Anti-rollback counter k and the token counter; one with an uncorrectable error counts as fully advanced (R438). -/
def State.arbCtr (s : State) (k : Nat) : Nat := if tb s.sec.badCtr k then 64 else stepCount s.sec.fuses (fzARB k) 64
def State.tkcNow (s : State) : Nat := if tb s.sec.badCtr 4 then 256 else stepCount s.sec.fuses fzTKC 256

/-- A counter advances to a value, one step at a time; a counter is never set back. -/
def advanceArb (k goal : Nat) (s : State) : State := blowSteps ((List.range 64).map (fzARB k + ·)) (goal - s.arbCtr k) s
def advanceTkcTo (goal : Nat) (s : State) : State := blowSteps ((List.range 256).map (fzTKC + ·)) (goal - s.tkcNow) s

end Sys2Proof.Machine
end

