-- ==== Sys2Proof/Machine/Chk.lean ====
section
/-! DEFINITION. Checked execution in the application pairs: coupled stores, checkpoints, exchanges, loss and rejoin,
Assay, SCRUB and debug (R252 to R280). Draining a release is in Bus.lean, since its stores are bus writes. -/
namespace Sys2Proof.Machine

/-- The polynomial of R257, as the signature takes it: least significant bit of each record first. -/
def sigStep (c : Nat) (b : Bool) : Nat := crcBitM 64 0x42F0E1EBA9EA3693 (c ^^^ (b2n b * 2 ^ 63))

/-- The signature continued over one 128-bit store record (R257): the address in bits 31:0, the byte mask in bits 39:32,
the data in bits 127:64. -/
def sigRecord (c : Nat) (r : RelStore) : Nat :=
  (lsbFirst 128 (r.addr % 2 ^ 32 + r.mask % 256 * 2 ^ 32 + r.data % 2 ^ 64 * 2 ^ 64)).foldl sigStep c

/-- The presented and in-service state of an interrupt target is cleared; pending bits stay (R391). -/
def intcClear (t : Nat) (s : State) : State :=
  let s := (s.put (Reg.INTC_Tt_PRES_VALID t) false).put (Reg.INTC_Tt_INSV_VALID t) false
  { s with intc := { s.intc with held := SMap.set none s.intc.held t none } }

/-- Pair state change: source 12 + p (R280); on a return to service its pair-loss faults clear themselves (R417). -/
def setPair (p st : Nat) (s : State) : State :=
  if s.pairState p = st then s
  else
    let s := raiseIrq (12 + p) (s.wr (pairFld p) st)
    let s := s.when (st ≠ pairINSERVICE) (intcClear p)
    s.when (st = pairINSERVICE) fun s => s.each (List.range 6) fun k => unhold (0x2400 + 16 * p + k)

/-- The other pair. -/
def other (p : Nat) : Nat := 1 - p

/-- The outputs of pair p pass to the other pair (R269): each holds its last released value until that pair releases. -/
def transfer (p : Nat) (s : State) : State :=
  let mine := (List.range 12).foldl (fun m b => if tb s.eown b = decide (p = 1) then m + 2 ^ b else m) 0
  let vals := s.outBits
  { s with chk := { moved := orW s.chk.moved mine
                    movedTo := if p = 0 then orW s.chk.movedTo mine else andNotW s.chk.movedTo mine
                    hold := orW s.chk.hold mine
                    holdVal := orW (andNotW s.chk.holdVal mine) (andW vals mine)
                    holdLeft := s.rd Reg.CHK_CFG2_OHOLD } }

/-- A pair is taken out of service (R270): halted, its buffers discarded, cause and FN kept, LOST, its outputs passed
on; with the other pair LOST or OFF the device enters SAFE. -/
def losePair (p kind : Nat) (s : State) : State :=
  let old := s.outBits
  let q := s.pr p
  let s := s.setPr p { q with buf := [], fifo := [], stalled := none, drain := [], sig := 0xFFFFFFFFFFFFFFFF
                              chkSig := 0xFFFFFFFFFFFFFFFF, chkBuf := [], wfi := false
                              scrubWait := false, resync := false, released := false }
  let s := (s.wr (Reg.CHK_Px_LOSS p) kind).wr (Reg.CHK_Px_LOSSFN p) s.fn
  let s := setPair p pairLOST s
  let o := s.pairState (other p)
  let s := s.when (o = pairINSERVICE) (transfer p)
  let s := s.when (o = pairLOST || o = pairOFF) enterSafe
  enablesFrom old (applyLeeCause s)

/-- A fault of kind k of pair p that takes it out of service (R270); a rejoining pair is LOST again with REJOIN_FAIL
(R271). -/
def pairFault (p kind : Nat) (s : State) : State :=
  let rejoining := decide (s.pairState p = pairREJOINING)
  let s := losePair p kind (raiseDev (0x2400 + 16 * p + kind) s)
  s.when rejoining (raiseDev (Fc.REJOIN_FAIL p))

/-- Mark a checkpoint (R258). A mark at the IC of the checkpoint before it adds nothing; at a seventeenth the main core
stalls. -/
def markCp (p ic cpid src : Nat) (s : State) : State :=
  let q := s.pr p
  if q.lastMark = some ic then s
  else
    let taken := q.fifo.foldl (fun n m => n + m.stores) 0
    let m : Mark := { ic := ic, cpid := cpid, src := src, sig := q.sig, at' := s.ctTicks
                      stores := q.buf.length - taken, scrub := q.scrubDue && s.on Reg.CHK_CTRL_SCRUB_EN }
    let q := { q with lastMark := some ic, sig := 0xFFFFFFFFFFFFFFFF, scrubDue := false }
    if 16 ≤ q.fifo.length then s.setPr p { q with stalled := some m }
    else s.setPr p { q with fifo := q.fifo ++ [m] }

/-- CHK_Px_LAG, and the time the main core stalls at LAG_MAX, which does not count against CP_TOUT: the marks in the FIFO
are moved on by it (R254, R261). -/
def lagSync (p : Nat) (s : State) : State :=
  let q := s.pr p
  let lag := q.mainIc - q.chkIc
  let beyond := decide (s.rd Reg.CHK_CFG_LAG_MAX < lag)
  let q := match q.lagAt with
    | none => if beyond then { q with lagAt := some s.ctTicks } else q
    | some t => if beyond then q else { q with
        lagAt := none, fifo := q.fifo.map fun m : Mark => { m with at' := m.at' + (s.ctTicks - max t m.at') } }
  ((s.setPr p q).wr (Reg.CHK_Px_LAG_NOW p) (min lag 65535)).maxi (Reg.CHK_Px_LAG_MAX p) (min lag 65535)

/-- The instruction count the checker cannot pass by itself: that of the oldest checkpoint still to be compared or of the
oldest logged delivery (R259, R265). -/
def PairSt.chkLimit (q : PairSt) : Option Nat :=
  match q.fifo.head?.map Mark.ic, q.log.head?.map Delivery.ic with
  | some a, some b => some (min a b)
  | some a, none => some a
  | none, b => b

/-- The main core can have retired instruction ic: it stalls while its IC exceeds the checker's by more than LAG_MAX (R254). -/
def State.mainCan (s : State) (p ic : Nat) : Bool :=
  match (s.pr p).chkLimit with
  | none => true
  | some l => decide (ic ≤ l + s.rd Reg.CHK_CFG_LAG_MAX + 1)

/-- The checker waits in its wfi: the main core waits in the wfi at the same IC, and its completion completes the checker's
(R266). -/
def PairSt.chkWfi (q : PairSt) : Bool := q.wfi && decide (q.chkIc = q.mainIc)

/-- The checker can have retired instruction ic: one the main core has retired, none beyond a checkpoint or a delivery
it still has to reach (R254), and none beyond the wfi it waits in (R266). -/
def State.chkCan (s : State) (p ic : Nat) : Bool :=
  let q := s.pr p
  decide (ic ≤ q.mainIc) && (! q.chkWfi || decide (ic ≤ q.chkIc)) && match q.chkLimit with
    | none => true
    | some l => decide (ic ≤ l)

/-- The main core's IC as a command tells it: an instruction retired ends its wfi (R266), and Idle with it (R519). The checker is then
at most LAG_MAX behind, but where a checkpoint or a delivery holds it (R254). -/
def setMainIc (p ic : Nat) (s : State) : State :=
  let q := s.pr p
  let m := max q.mainIc (ic % 2 ^ 64)
  let near := m - s.rd Reg.CHK_CFG_LAG_MAX
  let c := match q.chkLimit with
    | none => near
    | some l => min near l
  let s := { s with pwr := { s.pwr with idle := s.pwr.idle && decide (m = q.mainIc) } }
  lagSync p (s.setPr p { q with mainIc := m, chkIc := max q.chkIc c, wfi := q.wfi && decide (m = q.mainIc) })

/-- The checker's IC. -/
def setChkIc (p ic : Nat) (s : State) : State :=
  let q := s.pr p
  lagSync p (s.setPr p { q with chkIc := max q.chkIc ic })

/-- Entries of the release buffer: stores not yet agreed, and agreed ones still to drain (R256). -/
def PairSt.buffered (q : PairSt) : Nat := q.drain.foldl (fun n d => n + d.2.length) q.buf.length

/-- The main core stalls: at a seventeenth mark, with a full release buffer, more than LAG_MAX ahead, during a resync, or
while halted (R254, R256, R258, R276, R278). -/
def State.mainStalled (s : State) (p : Nat) : Bool :=
  let q := s.pr p
  q.stalled.isSome || decide (512 ≤ q.buffered) || decide (s.rd Reg.CHK_CFG_LAG_MAX < q.mainIc - q.chkIc) || q.resync ||
    q.halted.isSome

/-- Private memory of a core (R253), and the boot ROM: their accesses take no part in the coupling. -/
def isPrivate (a : Nat) : Bool := decide (0x08000000 ≤ a ∧ a < 0x08100000)
def isUncoupled (a : Nat) : Bool := isPrivate a || decide (a < 0x20000)

/-- A coupled store at instruction count ic: of the main core into the release buffer and its signature, of the checker into
its own signature and forwarding buffer only (R256 to R258). -/
def pairStore (p : Nat) (chk : Bool) (ic : Nat) (r : RelStore) (s : State) : State :=
  if ! s.pairOn p || isUncoupled r.addr then s
  else if chk then
    if ! s.chkCan p ic then s
    else
      let s := setChkIc p ic s
      let q := s.pr p
      s.setPr p { q with chkSig := sigRecord q.chkSig r, chkBuf := q.chkBuf ++ [r] }
  else if s.mainStalled p || ! s.mainCan p ic then s
  else
    let s := setMainIc p ic (reachClk (s.pr p).resumeAt s)
    let q := s.pr p
    let s := s.setPr p { q with buf := q.buf ++ [r], sig := sigRecord q.sig r }
    s.when (q.buffered + 1 = 448) (markCp p ic 0xFFFF 2)

/-- COUPLED_STORE: a store of the main core, or of the checker, outside private memory (R256 to R258). -/
def execCoupledStore (p : Fin 2) (chk : Bool) (ic : BitVec 64) (addr : Word) (mask : BitVec 8) (data : BitVec 64)
    (s : State) : Out :=
  if ! s.live p then .next s else
  done (pairStore p chk ic.toNat { addr := addr.toNat, mask := mask.toNat, data := data.toNat } s)

/-- The byte of a store at address a. -/
def RelStore.byteAt (r : RelStore) (a : Nat) : Option Nat :=
  let b := r.addr - r.addr % 8
  if b ≤ a ∧ a < b + 8 ∧ tb r.mask (a - b) = true then some (bits r.data (8 * (a - b)) 8) else none

/-- A loaded value of `w` bytes at address a under the buffered stores, the oldest first (R256). -/
def forwarded (sts : List RelStore) (w a v : Nat) : Nat :=
  (List.range w).foldl (fun v i =>
    match sts.reverse.findSome? fun r : RelStore => r.byteAt (a + i) with
    | some b => putBits v (8 * i) 8 b
    | none => v) v

/-- The stores a load of the main core, or of the checker, finds (R256). -/
def PairSt.forwards (q : PairSt) (chk : Bool) : List RelStore :=
  (q.drain.flatMap fun d : Nat × List RelStore => d.2) ++ if chk then q.chkBuf else q.buf

/-- CHKPT: a write of CSR 0x800 at instruction count ic (R258). -/
def execChkpt (p : Fin 2) (ic : BitVec 64) (v : Word) (s : State) : Out :=
  if ! s.live p then .next s else
  if ! s.pairOn p || s.mainStalled p || ! s.mainCan p ic.toNat then .next s
  else done (markCp p ic.toNat (v.toNat % 2 ^ 16) 1 (setMainIc p ic.toNat (reachClk (s.pr p).resumeAt s)))

/-- A CHECK entry marks at the IC of the last instruction the main core retired (R68, R258); none during a resync (R276). -/
def anvilCheck (p ic cpid : Nat) (s : State) : State :=
  if ! s.pairOn p || (s.pr p).resync || (s.pr p).stalled.isSome then s
  else
    let s := s.when (s.mainCan p ic) (setMainIc p ic)
    markCp p (s.pr p).mainIc cpid 0 s

/-- Two values agree under a rule of R263: NEAR takes the difference of their low 32 bits. -/
def exchangeAgrees (rule tol m c : Nat) : Bool :=
  match rule with
  | 2 => decide ((c % 2 ^ 32 + 2 ^ 32 - m % 2 ^ 32) % 2 ^ 32 ≤ tol)
  | _ => decide (m = c)

/-- The rule, retries and tolerance for an address: the first enabled region that contains it; without one RESAMPLE with
two retries (R263). Reserved rules are treated as disabled. -/
def State.region (s : State) (a : Nat) : Nat × Nat × Nat :=
  match (List.range 16).find? fun k =>
    s.on (Reg.CHK_RGNk_RULE_EN k) && decide (s.rd (Reg.CHK_RGNk_RULE_RULE k) ≠ 3) &&
      decide (s.rd (Reg.CHK_RGNk_BASE k) * 4 ≤ a ∧ a < s.rd (Reg.CHK_RGNk_BASE k) * 4 + s.rd (Reg.CHK_RGNk_SIZE k) * 4) with
  | some k => (s.rd (Reg.CHK_RGNk_RULE_RULE k), s.rd (Reg.CHK_RGNk_RULE_RETRY k), s.rd (Reg.CHK_RGNk_TOL k))
  | none => (0, 2, 0)

/-- The CSRs cycle, time and mcycle, and the exchanged CSRs with their high halves (R262). -/
def csrNear (c : Nat) : Bool := [0xC00, 0xC01, 0xB00].contains c
def csrExchanged (c : Nat) : Bool :=
  csrNear c || [0x344, 0xC80, 0xC81, 0xB80].contains c || decide (0xB03 ≤ c ∧ c ≤ 0xB1F) || decide (0xB83 ≤ c ∧ c ≤ 0xB9F)

/-- The rule for an exchanged input: CSRs cycle, time and mcycle are NEAR within CP_TOUT, other CSRs RESAMPLE (R263); none for
what is not exchanged (R253, R262). -/
def State.exchangeRule (s : State) : ExInput → Option (Nat × Nat × Nat)
  | .load a => if isUncoupled a.toNat then none else some (s.region a.toNat)
  | .csr c => if csrNear c then some (2, 0, s.rd Reg.CHK_CFG_CP_TOUT)
              else if csrExchanged c then some (0, 2, 0) else none

/-- Reads of both cores in turn until they agree: the number of re-reads, and the agreed value, or none after the last
permitted re-read. No answer while a permitted re-read is still to come. -/
def agreeReads (rule tol : Nat) : Nat → Nat → List (Nat × Nat) → Option (Nat × Option Nat)
  | _, _, [] => none
  | left, done, (m, c) :: rest =>
    if exchangeAgrees rule tol m c then some (done, some m)
    else match left with
      | 0 => some (done, none)
      | left + 1 => if rule = 0 then agreeReads rule tol left (done + 1) rest else some (done, none)

/-- Comparator c of pair p serves (CHK_STAT.CMP_OK). -/
def State.cmpOk (s : State) (p c : Nat) : Bool := s.bit Reg.CHK_STAT_CMP_OK (2 * p + c)

/-- Both cores can meet in an exchange at instruction count ic (R263): the main core has retired it, and nothing holds the
checker before it. -/
def State.canMeet (s : State) (p ic : Nat) : Bool :=
  ! s.mainStalled p && decide ((s.pr p).mainIc ≤ ic) && match (s.pr p).chkLimit with
    | none => true
    | some l => decide (ic ≤ l)

/-- Main core and checker have met at instruction count ic: the exchange counts, and the main core resumes 2 clocks later
(R263). -/
def meet (p ic : Nat) (s : State) : State :=
  let s := setChkIc p ic (setMainIc p ic (reachClk (s.pr p).resumeAt s))
  (s.setPr p { s.pr p with resumeAt := s.time.clk + 2 }).inc (Reg.CHK_Px_XCNT p)

/-- A re-read of an exchanged input: the retry is counted and reported (R263, R281). -/
def inputRetry (p : Nat) (s : State) : State := raiseDev (Fc.INPUT_RETRY p) (s.inc (Reg.CHK_Px_RETRY p))

/-- INPUT_EXCHANGE: the reads of main core and checker of one asynchronous input at the same IC, first read first, and what
the ECC of shared SRAM shows; `unitsDiffer` tells that the two exchange units, where both serve, judge differently (R263,
R264, R274). A load finds the core's buffered stores (R256). -/
def execInputExchange (p : Fin 2) (ic : BitVec 64) (i : ExInput) (first : BitVec 64 × BitVec 64)
    (again : List (BitVec 64 × BitVec 64)) (unitsDiffer : Bool) (ecc : Ecc) (s : State) : Out :=
  if ! s.live p then .next s else
  if ! s.pairOn p || ! s.canMeet p ic.toNat then .next s
  else match s.exchangeRule i with
    | none => .next s
    | some (rule, retry, tol) =>
      let seen (v : BitVec 64 × BitVec 64) : Nat × Nat :=
        match i with
        | .load a => (forwarded ((s.pr p).forwards false) 8 a.toNat v.1.toNat,
            forwarded ((s.pr p).forwards true) 8 a.toNat v.2.toNat)
        | .csr _ => (v.1.toNat, v.2.toNat)
      match agreeReads rule tol retry 0 ((first :: again).map seen) with
      | none => .next s
      | some r =>
        let s := meet p ic.toNat s
        let s := match i with
          | .load a => s.when (inSram a.toNat 4) (sramEcc (masterCode (mainCore p)) 1 ecc a.toNat)
          | .csr _ => s
        let s := s.each (List.range r.1) fun _ => inputRetry p
        if unitsDiffer && s.cmpOk p 0 && s.cmpOk p 1 then done (pairFault p 3 s)
        else match r.2 with
          | none => done (pairFault p 1 s)
          | some v => done { s with dev := { s.dev with readData := v } }

/-- The verdict of one comparator over its FIFO copy (R259, R272): an uncorrectable error reports a mismatch, and a
comparator may itself be faulty. -/
def cmpVerdict (equal : Bool) (e : Ecc) (faulty : Bool) : Bool := (equal && decide (e ≠ .uncorrectable)) != faulty

/-- An agreed checkpoint (R258 to R260, R271): its stores are handed to the drain, the registers name it, a stalled
mark enters the FIFO, a rejoining pair returns to service. -/
def agreeCp (p : Nat) (m : Mark) (rest : List Mark) (s : State) : State :=
  let q := s.pr p
  let fifo := rest ++ q.stalled.toList
  let s := s.setPr p { q with
    buf := q.buf.drop m.stores, drain := q.drain ++ [(m.ic, q.buf.take m.stores)]
    fifo := fifo, stalled := none, scrubWait := q.scrubWait || m.scrub
    chkSig := 0xFFFFFFFFFFFFFFFF, chkBuf := [] }
  let s := (s.wr (Reg.CHK_Px_ICL p) (m.ic % 2 ^ 32)).wr (Reg.CHK_Px_ICH p) (m.ic / 2 ^ 32)
  let s := ((s.wr (Reg.CHK_Px_CP_CPID p) m.cpid).wr (Reg.CHK_Px_CP_SRC p) m.src).inc (Reg.CHK_Px_CPCNT p)
  s.when (s.pairState p = pairREJOINING) (setPair p pairINSERVICE)

/-- Ticks since mark m that count against CP_TOUT: a stall at LAG_MAX in progress does not, and one that has ended has moved
the mark on (R261). -/
def State.cpTicks (s : State) (p : Nat) (m : Mark) : Nat :=
  let now := match (s.pr p).lagAt with
    | some t => max t m.at'
    | none => s.ctTicks
  now - m.at'

/-- CHECKPOINT_COMPARE: the checker retires the instruction of the oldest checkpoint and the comparators compare its
signature with the main core's (R259, R272). One it reaches more than CP_TOUT ticks after the mark is not agreed (R261). -/
def execCheckpointCompare (p : Fin 2) (eccA eccB : Ecc) (faultyA faultyB : Bool) (s : State) : Out :=
  if ! s.live p then .next s else
  match (s.pr p).fifo with
  | [] => .next s
  | m :: _ =>
    if ! s.pairOn p || ! s.chkCan p m.ic then .next s
    else
      let s := setChkIc p m.ic s
      let m := (s.pr p).fifo.headD m
      if s.rd Reg.CHK_CFG_CP_TOUT < s.cpTicks p m then done (pairFault p 2 s)
      else
        let corr (e : Ecc) (s : State) : State :=
          s.when (decide (e = .corrected)) fun s => raiseDev (Fc.FIFO_ECC_CORR p) (s.inc Reg.CHK_ECC)
        let s := corr eccB (corr eccA s)
        let eq := decide ((s.pr p).chkSig = m.sig)
        let a := cmpVerdict eq eccA faultyA
        let b := cmpVerdict eq eccB faultyB
        let useA := s.cmpOk p 0
        let useB := s.cmpOk p 1
        if useA && useB && (a != b) then done (pairFault p 3 s)
        else if (useA && a) || (! useA && useB && b) then done (agreeCp p m (s.pr p).fifo.tail s)
        else done (pairFault p 0 s)

/-- CP_TIMEOUT: the checker has not reached the oldest checkpoint CP_TOUT ticks after its mark; time the main core stalls at
LAG_MAX does not count (R261). -/
def execCpTimeout (p : Fin 2) (s : State) : Out :=
  if ! s.live p then .next s else
  match (s.pr p).fifo with
  | [] => .next s
  | m :: _ =>
    if s.pairOn p && (s.pr p).lagAt.isNone then
      done (pairFault p 2 (reach (m.at' + s.rd Reg.CHK_CFG_CP_TOUT) s))
    else .next s

/-- The number of minstret among a core's registers: it reads IC, which is its one home (R254). -/
def regMINSTRET : Nat := 4096 + 0xB02

/-- Apply one change to a core: register or CSR `i`, or a byte of private memory at 2^32 + its address; minstret is not
held here. -/
def CoreSt.apply (c : CoreSt) (ch : Nat × Nat × Nat) : CoreSt :=
  if 2 ^ 32 ≤ ch.2.1 then { c with mem := putByte c.mem (ch.2.1 - 2 ^ 32) ch.2.2 }
  else if ch.2.1 = regMINSTRET then c
  else { c with regs := SMap.set 0 c.regs ch.2.1 ch.2.2 }

/-- Both counts continue from v in place of c, and what waits for a later IC with them (R254, R278;
notes/assumptions/2430.md). -/
def PairSt.rebase (c v : Nat) (q : PairSt) : PairSt :=
  let on (n : Nat) : Nat := (n - c + v) % 2 ^ 64
  { q with mainIc := on q.mainIc, chkIc := on q.chkIc, lastMark := q.lastMark.map on, halted := q.halted.map on
           fifo := q.fifo.map fun m : Mark => { m with ic := on m.ic }
           stalled := q.stalled.map fun m : Mark => { m with ic := on m.ic }
           log := q.log.map fun d : Delivery => { d with ic := on d.ic }
           dbgLog := q.dbgLog.map fun d => (on d.1, d.2) }

/-- The logged changes reach the checker at the IC of each (R278). A change of minstret sets the count of both cores
there (R254). -/
def applyDebug (p : Nat) (s : State) : State :=
  let q := s.pr p
  let due := q.dbgLog.filter fun d : Nat × Nat × Nat => d.1 ≤ q.chkIc
  let q := { q with chk := due.foldl CoreSt.apply q.chk
                    dbgLog := q.dbgLog.filter fun d : Nat × Nat × Nat => q.chkIc < d.1 }
  match due.reverse.find? fun d : Nat × Nat × Nat => d.2.1 = regMINSTRET with
  | some d => s.setPr p (q.rebase d.1 d.2.2)
  | none => s.setPr p q

/-- A core of pair p takes a trap. -/
def trapCore (p : Nat) (main chk : Option Nat) (s : State) : State :=
  let q := s.pr p
  s.setPr p { q with main := (match main with | some c => { q.main with trap := some c } | none => q.main)
                     chk := (match chk with | some c => { q.chk with trap := some c } | none => q.chk) }

/-- ACCESS_FAULT: an AMO, LR or SC outside private memory raises an access fault in both cores (R255); not in a split
device (R277). -/
def execAccessFault (p : Fin 2) (lr : Bool) (s : State) : Out :=
  if ! s.live p then .next s else
  let c := if lr then 5 else 7
  if s.pairOn p then done (trapCore p (some c) (some c) s) else .next s

/-- CHECKER_TRAP: the checker retires the logged instruction and takes the same trap, or waits there for the debugger; the
entry is freed (R265, R266, R278). -/
def execCheckerTrap (p : Fin 2) (s : State) : Out :=
  if ! s.live p then .next s else
  match (s.pr p).log with
  | [] => .next s
  | d :: rest =>
    if s.pairOn p && s.chkCan p d.ic then
      let s := setChkIc p d.ic s
      let s := applyDebug p (s.setPr p { s.pr p with log := rest })
      done (if d.debug then s else trapCore p none (some d.mcause) s)
    else .next s

/-- OHOLD_EXPIRY: the OHOLD-th frame tick after a transfer without a release of the new owner: the bits are 0 (R269). -/
def execOholdExpiry (s : State) : Out :=
  if ! s.runs then .next s else
  if s.chk.hold ≠ 0 ∧ s.chk.holdLeft = 0 then
    let old := s.outBits
    done (enablesFrom old { s with chk := { s.chk with holdVal := 0 } })
  else .next s

/-- REJOIN: a write of REJOIN for a LOST pair, released by the other pair (R271): its cores are reset; their
private memories stand. -/
def rejoin (p : Nat) (s : State) : State :=
  if s.pairState p = pairLOST && ! s.split then
    let q := s.pr p
    let s := s.setPr p { failed := q.failed, main := { mem := q.main.mem }, chk := { mem := q.chk.mem } }
    setPair p pairREJOINING (s.wr (Reg.CHK_Px_LAG_NOW p) 0)
  else s

def execRejoin (p : Fin 2) (s : State) : Out :=
  if ! s.runs then .next s else
  done (rejoin p s)

/-- First failures of an Assay in the order of CMP_OK (CHK_ASSAY.PATTERN). -/
def firstPattern (a b : Option Nat) : Nat := (a.getD (b.getD 0x7F)) % 128

/-- Assay of pair p is due (R273): its cores are not released, and it rejoins, or the device has booted an image and the pair
has power. A boot that ended in SAFE keeps the cores in reset (R437, R456). -/
def State.assayDue (s : State) (p : Nat) : Bool :=
  ! s.split && s.dev.state ≠ .boot && s.sec.image.isSome && ! (s.pr p).released &&
    (s.pairState p = pairREJOINING || s.pairState p = pairOFF)

/-- ASSAY: Assay of a pair's comparators completes; `a` and `b` are each comparator's first failing pattern, none where
it passes (R273, R274). A pair that fails at a later power-up is LOST, which is a Lee cause (R415). -/
def execAssay (p : Fin 2) (a b : Option (Fin 66)) (s : State) : Out :=
  if ! s.live p then .next s else
  if ! s.assayDue p then .next s
  else
    let q := s.pr p
    let okA := a.isNone && ! tb q.failed 0
    let okB := b.isNone && ! tb q.failed 1
    let q := { q with failed := orW q.failed (b2n (! okA) + b2n (! okB) * 2) }
    let s := s.setPr p q
    let f (o : Option (Fin 66)) : Option Nat := o.map Fin.val
    let s := s.wr Reg.CHK_ASSAY_RAN (orW (s.rd Reg.CHK_ASSAY_RAN) (3 * 4 ^ p.val))
    let s := s.wr Reg.CHK_ASSAY_PASS (putBits (s.rd Reg.CHK_ASSAY_PASS) (2 * p.val) 2 (b2n a.isNone + b2n b.isNone * 2))
    let s := s.wr Reg.CHK_ASSAY_PATTERN (firstPattern (f a) (f b))
    let s := s.wr Reg.CHK_STAT_CMP_OK (putBits (s.rd Reg.CHK_STAT_CMP_OK) (2 * p.val) 2 (b2n okA + b2n okB * 2))
    let s := raiseIrq 15 s
    let s := s.when (okA != okB) (raiseDev (Fc.CMP_FALLBACK p))
    if okA || okB then
      let s := releaseCores p s
      done (s.when (s.pairState p = pairOFF) (setPair p pairINSERVICE))
    else if s.pairState p = pairREJOINING then
      done (raiseDev (Fc.REJOIN_FAIL p) (setPair p pairLOST s))
    else if s.dev.state = .assay then done (enterSafe (setPair p pairLOST s))
    else done (applyLeeCause (setPair p pairLOST s))

/-- The number of a register, CSR or private-memory byte of a core. -/
def dbgIndex : DbgTarget → Nat
  | .x r => r.val
  | .f r => 32 + r.val
  | .pc => 64
  | .csr c => 4096 + c.val
  | .mem a => 2 ^ 32 + a.val

/-- A register the scrub engine hashes (R275): x1 to x31, f0 to f31, pc, fcsr and the machine and supervisor CSRs but those
of R262 and minstret. -/
def hashedReg (k : Nat) : Bool :=
  decide (1 ≤ k ∧ k ≤ 64) || decide (k = 4096 + 3) ||
    (decide (4096 ≤ k) && (k / 256 % 4 = 1 || k / 256 % 4 = 3) && ! csrExchanged (k - 4096) && decide (k ≠ regMINSTRET))

/-- The hash of a core's state with the polynomial of R257 (R275; notes/assumptions/1207.md): each register and each byte of
private memory that is not 0, as a record of its number and its value. -/
def CoreSt.hash (c : CoreSt) : Nat :=
  let regs := c.regs.filter fun r : Nat × Nat => hashedReg r.1
  let bytes := c.mem.map fun b : Host.Cell => (2 ^ 32 + b.1, b.2.toNat)
  (regs ++ bytes).foldl (fun h r => (lsbFirst 128 (r.1 + r.2 % 2 ^ 64 * 2 ^ 64)).foldl sigStep h) 0xFFFFFFFFFFFFFFFF

/-- A core's state with what it has computed since. -/
def CoreSt.with' (c : CoreSt) (vs : List (DbgTarget × BitVec 64)) : CoreSt :=
  vs.foldl (fun c v => c.apply (0, dbgIndex v.1, v.2.toNat)) c

/-- SCRUB_COMPARE: the hashes of a scrub checkpoint are compared; `main` and `chk` are the values each core's state held there,
where the model does not hold them (R275, R276). -/
def execScrubCompare (p : Fin 2) (main chk : List (DbgTarget × BitVec 64)) (s : State) : Out :=
  if ! s.live p then .next s else
  let q := s.pr p
  if ! (s.pairOn p && q.scrubWait) then .next s
  else
    let m := q.main.with' main
    let c := q.chk.with' chk
    let s := (s.setPr p { q with scrubWait := false, main := m, chk := c }).inc (Reg.CHK_Px_SCRUB_DONE p)
    if m.hash = c.hash then done s
    else
      let s := s.inc (Reg.CHK_Px_SCRUB_DIVERGE p)
      let s := raiseIrq 14 (raiseDev (Fc.LATENT_DIVERGENCE p) s)
      let s := s.put (if p = 0 then Reg.CHK_STAT_X_RESYNC else Reg.CHK_STAT_Y_RESYNC) true
      let soon := match q.resyncFc with
        | none => false
        | some f => decide (s.time.fc.toNat - f ≤ 10 * s.rd Reg.CHK_CFG2_SCRUB_INT)
      done (s.when soon (pairFault p 5))

/-- The RESYNC bit of pair p. -/
def resyncFld (p : Nat) : Fld := if p = 0 then Reg.CHK_STAT_X_RESYNC else Reg.CHK_STAT_Y_RESYNC

/-- PAIR_RESYNC: the main core waits in wfi (`wfi`) with its buffer empty, the checker, at IC chkIc, has reached its IC, and
no exchange is pending (R276). -/
def execPairResync (p : Fin 2) (wfi : Bool) (chkIc : BitVec 64) (s : State) : Out :=
  if ! s.live p then .next s else
  let q := s.pr p
  if s.pairOn p && s.on (resyncFld p) && (wfi || q.wfi) && q.buf.isEmpty && q.drain.isEmpty && q.fifo.isEmpty && q.log.isEmpty &&
      decide (chkIc.toNat = q.mainIc) && ! q.resync then
    done (s.setPr p { q with resync := true, wfi := true, chkIc := q.mainIc, lagAt := none })
  else .next s

/-- PAIR_RESYNC_END: the checker holds the main core's state and private memory; the pair resumes (R276). -/
def execPairResyncEnd (p : Fin 2) (s : State) : Out :=
  if ! s.live p then .next s else
  let q := s.pr p
  if q.resync then
    let s := s.setPr p { q with resync := false, chk := q.main, resyncFc := some s.time.fc.toNat }
    done (raiseIrq 14 (s.put (resyncFld p) false))
  else .next s

/-! ### Debug (R278) -/

/-- DEBUG_HALT: a halt request to the main core at instruction count ic; refused in ACTIVE and LEE. It is recorded in the
delivery log, at whose entry the checker waits (R265, R278), and so in the Almanac's (R495); while the log is full it stays
pending. -/
def execDebugHalt (p : Fin 2) (ic : BitVec 64) (s : State) : Out :=
  if ! s.live p then .next s else
  if s.debugFull && decide (s.dev.state ≠ .active ∧ s.dev.state ≠ .lee) && (s.pr p).halted.isNone &&
      decide ((s.pr p).log.length < 64) && s.mainCan p ic.toNat then
    let s := setMainIc p ic.toNat s
    let q := s.pr p
    let d : Delivery := { ic := q.mainIc, mcause := 0, src := 0, debug := true }
    let s := { s with alm := { s.alm with deliveries := s.alm.deliveries ++ [(q.mainIc, 0, p.val, 0)] } }
    done (s.setPr p { q with halted := some q.mainIc, log := q.log ++ [d] })
  else .next s

/-- DEBUG_WRITE: a change to the halted main core, logged with its IC and applied to the checker when it is there. -/
def execDebugWrite (p : Fin 2) (t : DbgTarget) (v : BitVec 64) (s : State) : Out :=
  if ! s.live p then .next s else
  match (s.pr p).halted with
  | none => .next s
  | some c =>
    if ! s.debugFull || t = .x 0 then .next s
    else
      let q := s.pr p
      let ch := (c, dbgIndex t, match t with | .mem _ => v.toNat % 256 | _ => v.toNat)
      done (applyDebug p (s.setPr p { q with main := q.main.apply ch, dbgLog := q.dbgLog ++ [ch] }))

/-- DEBUG_STEP: one instruction in each core; a checker still behind takes it when it is there. -/
def execDebugStep (p : Fin 2) (s : State) : Out :=
  if ! s.live p then .next s else
  match (s.pr p).halted with
  | none => .next s
  | some c =>
    if ! s.debugFull then .next s
    else
      let s := applyDebug p s
      let c := (s.pr p).halted.getD c
      let there := decide ((s.pr p).chkIc = c) && (s.pr p).log.isEmpty
      let s := setMainIc p (c + 1) s
      let s := s.setPr p { s.pr p with halted := some (s.pr p).mainIc }
      done (s.when there (setChkIc p (s.pr p).mainIc))

/-- DEBUG_RESUME: the halted main core runs on, and the checker past the halt IC. -/
def execDebugResume (p : Fin 2) (s : State) : Out :=
  if ! s.live p then .next s else
  if (s.pr p).halted.isSome && s.debugFull then
    let s := applyDebug p s
    done (s.setPr p { s.pr p with halted := none })
  else .next s

/-- The frame tick of CHK: the scrub interval (R275) and the hold of transferred bits (R269) count. -/
def chkTick (s : State) : State :=
  let s := { s with chk := { s.chk with holdLeft := s.chk.holdLeft - 1 } }
  s.each [0, 1] fun p s =>
    if ! (s.pairOn p && s.on Reg.CHK_CTRL_SCRUB_EN) then s.setPr p { s.pr p with scrubCnt := 0, scrubDue := false }
    else
      let q := s.pr p
      let due := decide (s.rd Reg.CHK_CFG2_SCRUB_INT ≤ q.scrubCnt + 1)
      s.setPr p { q with scrubCnt := if due then 0 else q.scrubCnt + 1, scrubDue := q.scrubDue || due }

end Sys2Proof.Machine
end

