-- ==== Sys2Proof/Machine/Net.lean ====
section
/-! DEFINITION. What the Seam and Fudorlink units read of each other and of the schedule: the mode region in use (R318,
R319, R337), admission, the worker's own claim (R287) and the channel's standing (R33, R283, R458). -/
namespace Sys2Proof.Machine

/-- The Seam unit and the Fudorlink unit, and their replacements. -/
def setSeam (x : SeamSt) (s : State) : State := { s with seam := x }
def setFdl (x : FdlSt) (s : State) : State := { s with fdl := x }

/-! ### Mode regions -/

/-- The mode whose slot table the Fudorlink unit uses (R337): the active mode, or START_MODE while the Anvil stands. -/
def State.netMode (s : State) : Nat :=
  if s.on Reg.ANV_STAT_RUNNING then s.rd Reg.ANV_STAT_MODE else s.rd Reg.ANV_CTRL_START_MODE

/-- A mode is VALID. -/
def State.modeValid (s : State) (m : Nat) : Bool := s.bit Reg.ANV_STAT_VALID m

/-- Word i of the region of mode m (R318). -/
def State.regionWord (s : State) (m i : Nat) : Nat := SMap.get 0 s.fdl.region (1024 * m + i)

/-- GUARD, HMAX, the number of slots and AGREE_OFS of mode m. -/
def State.guardT (s : State) (m : Nat) : Nat := bits (s.regionWord m 0) 0 10
def State.hmax (s : State) (m : Nat) : Nat := bits (s.regionWord m 0) 10 2
def State.nslot (s : State) (m : Nat) : Nat := bits (s.regionWord m 0) 12 6 + 1
def State.agreeOfs (s : State) (m : Nat) : Nat := bits (s.regionWord m 1) 0 20

/-- ADMIT bit of node (0b00, n) and ADMIT_MGR bit of channel c. -/
def State.admits (s : State) (m n : Nat) : Bool := tb (s.regionWord m (2 + n / 32)) (n % 32)
def State.admitsMgr (s : State) (m c : Nat) : Bool := tb (s.regionWord m 4) (c - 1)

/-- ROLES of node (0b00, n): 1 is a sub-star. -/
def State.roleCode (s : State) (m n : Nat) : Nat := bits (s.regionWord m (8 + n / 16)) (2 * (n % 16)) 2

/-- WCLAIM[n] of mode m. -/
def State.wclaimOf (s : State) (m n : Nat) : Nat := bits (s.regionWord m (16 + n / 4)) (8 * (n % 4)) 8

/-- Words 0 and 1 of slot entry i (R319). -/
def State.slotW0 (s : State) (m i : Nat) : Nat := s.regionWord m (64 + 4 * i)
def State.slotW1 (s : State) (m i : Nat) : Nat := s.regionWord m (64 + 4 * i + 1)
def State.slotStart (s : State) (m i : Nat) : Nat := bits (s.slotW0 m i) 0 28
def State.slotNode (s : State) (m i : Nat) : Nat := bits (s.slotW1 m i) 0 6
def State.slotStar (s : State) (m i : Nat) : Nat := bits (s.slotW1 m i) 6 2
def State.slotKind (s : State) (m i : Nat) : Nat := bits (s.slotW1 m i) 8 3
def State.slotSync (s : State) (m i : Nat) : Bool := tb (s.slotW1 m i) 11
def State.slotLenw (s : State) (m i : Nat) : Nat := bits (s.slotW1 m i) 12 7
def State.slotGrec (s : State) (m i : Nat) : Nat := bits (s.slotW1 m i) 19 5
def State.slotGen (s : State) (m i : Nat) : Bool := tb (s.slotW1 m i) 24
def State.slotIrqEn (s : State) (m i : Nat) : Bool := tb (s.slotW1 m i) 25
def State.slotIrqSel (s : State) (m i : Nat) : Nat := bits (s.slotW1 m i) 26 3

/-- The slot kinds (R320). -/
def kCOMMAND : Nat := 1
def kSTATUS : Nat := 2
def kDATA : Nat := 3
def kPEER : Nat := 4
def kJOIN : Nat := 5

/-- The slots of mode m of a kind. -/
def State.slotsOf (s : State) (m kind : Nat) : List Nat :=
  (List.range (s.nslot m)).filter fun i => s.slotKind m i = kind

/-! ### This node -/

/-- This device's NODE and STAR, and both as one number STAR × 64 + NODE (R316). -/
def State.node (s : State) : Nat := s.rd Reg.FDL_CFG_NODE
def State.star (s : State) : Nat := if s.node = 0 then s.rd Reg.SEAM_CFG_CH else 0
def State.nodeId (s : State) : Nat := s.star * 64 + s.node

/-- The network roles: 0 worker, 1 sub-star, 2 manager (R316, FDL_STAT.ROLE). -/
def State.netRole (s : State) : Nat :=
  if s.node = 0 then 2
  else if s.modeValid s.netMode && s.roleCode s.netMode s.node = 1 then 1 else 0

/-- A node is admitted by mode m: workers by ADMIT, managers of a set by ADMIT_MGR; the manager of a simplex cluster has no
bit of its own. -/
def State.admitsId (s : State) (m id : Nat) : Bool :=
  if id < 64 then s.admits m id else decide (id % 64 = 0) && s.admitsMgr m (id / 64)

/-- The sync states (FDL_STAT.SSTATE). -/
def ssOFF : Nat := 0
def ssLISTEN : Nat := 1
def ssCOLDSTART : Nat := 2
def ssINTEGRATE : Nat := 3
def ssSYNC : Nat := 4
def ssLOST : Nat := 5
def State.sstate (s : State) : Nat := s.rd Reg.FDL_STAT_SSTATE

/-- SEAM_CLAIM.WCLAIM: the worker claim from the active schedule (R287); 0 without a valid region. -/
def State.wclaim (s : State) : Nat :=
  if s.node ≠ 0 && s.modeValid s.netMode then s.wclaimOf s.netMode s.node else 0

/-! ### This channel -/

/-- This channel's code, L and CTO in cycles (R287, R288, R293). -/
def State.ch (s : State) : Nat := s.rd Reg.SEAM_CFG_CH
def State.leaseL (s : State) : Nat := s.rd Reg.SEAM_CFG_LEASE + 1
def State.cto (s : State) : Nat := s.rd Reg.SEAM_CFG_CLAIM_TO + 1

/-- The channels of the set (R282). -/
def State.channels (s : State) : List Nat :=
  match s.rd Reg.SEAM_CFG_SET with
  | 1 => [1, 2]
  | 2 => [1, 2, 3]
  | _ => []

/-- The other channels of the set. -/
def State.others (s : State) : List Nat := s.channels.filter fun c => c ≠ s.ch

/-- The device may take part in a set: it is not barred, and no sub-star, which holds no lease (R27). -/
def State.mayServe (s : State) : Bool := ! s.barred && decide (s.netRole ≠ 1)

/-- The device takes part in the lease: in a set, its configuration good (R282, R288), and it may serve. -/
def State.inLease (s : State) : Bool := s.inSet && ! s.seamCfgBad && s.mayServe

/-- A simplex manager (R283). -/
def State.simplexMgr (s : State) : Bool := s.rd Reg.SEAM_CFG_SET = 0 && s.node = 0

/-- CT in ticks of the cycle boundary before. -/
def State.cycleStart (s : State) : Nat := (s.time.fc.toNat - s.fidx) * s.frameTicks

/-- CT in ticks of the next frame boundary. -/
def State.frameEnd (s : State) : Nat := (s.time.fc.toNat + 1) * s.frameTicks

/-- Cycle length in ticks. -/
def State.cycleTicks (s : State) : Nat := s.cycleFrames * s.frameTicks

end Sys2Proof.Machine
end

