-- ==== Sys2Proof/Machine/Seam.lean ====
section
/-! DEFINITION. Lease messages, the state copy, the bulk copy, the slice self-test and the Seam ports (R282 to R311): the
commands between two cycle boundaries. The boundary itself is in Lease.lean. -/
namespace Sys2Proof.Machine

/-! ### The view of the set -/

/-- Channel c as this channel knows it, and its replacement. -/
def State.peer (s : State) (c : Nat) : PeerSt := SMap.get {} s.seam.peers c
def setPeer (c : Nat) (x : PeerSt) (s : State) : State :=
  { s with seam := { s.seam with peers := SMap.set {} s.seam.peers c x } }

/-- Fields of a health word (R304). -/
def hwState (h : Nat) : Nat := bits h 0 3
def hwRole (h : Nat) : Nat := bits h 3 2
def hwSliceOk (h : Nat) : Bool := tb h 13
def hwFstop (h : Nat) : Bool := tb h 21

/-- The recognised holder, the term and the cycles left of the lease (R293). -/
def State.holder (s : State) : Nat := s.rd Reg.SEAM_STAT_HOLDER
def State.epoch (s : State) : Nat := s.rd Reg.SEAM_STAT_EPOCH
def State.left (s : State) : Nat := s.rd Reg.SEAM_STAT_LEFT

/-- This channel holds the lease. -/
def State.iHold (s : State) : Bool := s.inSet && s.role = roleACTIVE && s.holder = s.ch

/-- Channel c may be heir (R284). A channel judges itself by its own role, class-S faults and slices. -/
def State.eligible (s : State) (c : Nat) : Bool :=
  decide (s.seam.lapsed ≠ some c) &&
    if c = s.ch then s.role = roleSTANDBY && ! s.holdsClass .s && ! s.seam.sliceFail
    else match (s.peer c).prev with
      | some h => hwRole h = roleSTANDBY && ! hwFstop h && hwSliceOk h
      | none => false

/-- The ring after the holder, from A when there is none (R284). -/
def State.succession (s : State) : List Nat :=
  (s.channels.filter fun c => s.holder < c) ++ s.channels.filter fun c => c ≤ s.holder

/-- The heir in this device's view; 0 for none (SEAM_STAT.HEIR). -/
def State.heir (s : State) : Nat := (s.succession.find? s.eligible).getD 0

/-- The claim this device holds (R287, R288). -/
def State.claimNow (s : State) : Nat :=
  if s.seamCfgBad || s.barred || ! s.devRuns || s.role = roleOFFLINE || s.role = roleOBSERVER then 0
  else if s.inSet then
    if s.role = roleACTIVE then 0x80 + 4 * s.epoch + s.ch
    else if s.heir = s.ch then 8 + s.ch else 4 + s.ch
  else if s.node = 0 then (if s.role = roleACTIVE then 0x80 else 0)
  else s.wclaim

/-- What the boundary, and what happens at it, leave for the words that start after it: claim and health word (R287,
R304). -/
def claimTick (s : State) : State :=
  let s := s.wr Reg.SEAM_CLAIM_CLAIM s.claimNow
  s.wr Reg.SEAM_HEALTH s.healthWord

/-! ### Seam frames (R299, R300) -/

/-- The TYPE codes. -/
def sfLEASE : Nat := 1
def sfSTATE : Nat := 2
def sfBULK : Nat := 3
def sfBULKEND : Nat := 4

/-- The bytes of a frame from TYPE to the end of the payload of words, the high byte of a header field first
(notes/assumptions/1613.md). -/
def seamBody (ty seq len tag : Nat) (words : List Nat) : List Nat :=
  [ty, seq / 256 % 256, seq % 256, len / 256 % 256, len % 256] ++ (wordBytes tag).reverse ++ wordsBytes words

/-- A frame as it is sent: K27.7, the bytes, their CRC-32, K29.7; `true` marks a control character. -/
def seamFrame (ty seq tag : Nat) (words : List Nat) : List (Bool × Nat) :=
  let body := seamBody ty seq (4 * words.length) tag words
  (true, 0xFB) :: (body ++ (wordBytes (crc32 body)).reverse).map (Prod.mk false) ++ [(true, 0xFD)]

/-- A received frame is one of the row's TYPE and passes the guards of R300: code, TYPE, LEN and CRC. -/
def seamGood (ty : Nat) (h : SeamHead) (words : List Nat) : Bool :=
  h.codeOk && decide (h.ty.toNat = ty) && decide (h.len.toNat = 4 * words.length) &&
    decide (3 ≤ words.length ∧ words.length ≤ 256) &&
    decide (crc32 (seamBody ty h.seq.toNat h.len.toNat h.tag.toNat words) = h.crc.toNat)

/-- Time on a link in fifths of a clock: a character of 8 ns is 16; a full segment with its two idles. -/
def segTime : Nat := 1041 * 16

/-- While a bulk is being sent, a state copy or a lease message takes its time from the link (R306). -/
def takeLink (chars : Nat) (s : State) : State :=
  if s.rd Reg.SEAM_STAT_BULK = 2 then
    let x := s.seam
    let k := (5 * s.time.clk - x.linkAt) / segTime
    setSeam { x with bulkCount := x.bulkCount + k, linkAt := x.linkAt + k * segTime + 16 * chars } s
  else s

/-- The bulk segments sent so far (SEAM_BULKST.DONE of a sender). -/
def State.bulkSentNow (s : State) : Nat :=
  min (s.rd Reg.SEAM_BULKSZ + 1) (s.seam.bulkCount + (5 * s.time.clk - s.seam.linkAt) / segTime)

/-- The clock by which the last segment and the bulk-end frame are sent. -/
def State.bulkSentAt (s : State) : Nat :=
  ceilDiv (s.seam.linkAt + (s.rd Reg.SEAM_BULKSZ + 1 - s.seam.bulkCount) * segTime + 29 * 16) 5

/-- A clock of this frame: it comes before the next frame tick. -/
def State.inFrame (c : Nat) (s : State) : Bool := decide (c < s.time.clk + s.edgesTo (s.frameEnd * 2 ^ 32))

/-! ### Sending (R291 to R295) -/

/-- The KIND codes of R292. -/
def lkRENEW : Nat := 1
def lkGRANT : Nat := 2
def lkTAKE : Nat := 3
def lkTGRANT : Nat := 4
def lkHEALTH : Nat := 5
def lkBULKREQ : Nat := 6

/-- The three words of a lease message (R292). -/
def leaseWords (kind sender holder epoch target cn health : Nat) : List Nat :=
  [kind + sender * 2 ^ 4 + holder * 2 ^ 6 + epoch % 32 * 2 ^ 8 + target * 2 ^ 13, cn, health]

/-- A lease message is sent on every enabled Seam port (R291, R292): a frame of 27 characters and two idles. -/
def sendLease (kind epoch target : Nat) (s : State) : State :=
  let words := leaseWords kind s.ch s.holder epoch target s.cn (s.rd Reg.SEAM_HEALTH)
  takeLink 29 (setSeam { s.seam with lastTx := words } s)

/-- The frame of the lease message sent last. -/
def State.leaseFrame (s : State) : List (Bool × Nat) := seamFrame sfLEASE 0 0 s.seam.lastTx

/-- The holder yields: it is in LEE, YIELD is 1 and it sees an heir (R296). -/
def State.yields (s : State) : Bool := s.on Reg.SEAM_CFG_YIELD && s.dev.state = .lee && decide (s.heir ≠ 0)

/-- The heir whose LEFT is 0 takes the lease under the next term; at term 31 it waits CTO cycles first (R295). -/
def takeLease (s : State) : State :=
  match s.seam.term with
  | none => sendLease lkTAKE 0 0 (setSeam { s.seam with sentTake := some 0 } s)
  | some _ =>
    let t := s.epoch
    if t = 31 ∧ s.seam.takeWait < s.cto then
      sendLease lkHEALTH s.epoch 0 (setSeam { s.seam with takeWait := s.seam.takeWait + 1 } s)
    else sendLease lkTAKE (min (t + 1) 31) 0 (setSeam { s.seam with sentTake := some (min (t + 1) 31) } s)

/-- The message of P1 (R292). -/
def p1Message (s : State) : State :=
  if s.iHold then
    if s.left = 0 || s.yields then sendLease lkHEALTH s.epoch 0 s
    else sendLease lkRENEW s.epoch 0 (setSeam { s.seam with sentRenew := true } s)
  else if s.left = 0 && s.role = roleSTANDBY && s.dev.state = .standby && s.heir = s.ch then takeLease s
  else if s.seam.bulkReq && decide (s.holder ≠ 0) then sendLease lkBULKREQ s.epoch s.holder s
  else sendLease lkHEALTH s.epoch 0 s

/-- P1 (R291): 2,000 ticks after the cycle boundary. -/
def execP1 (s : State) : Out :=
  if ! s.live pdNET then .next s else
  let at' := s.cycleStart + 2000
  if ! s.inLease || s.seam.p1Done || s.seam.p2Done || s.frameEnd ≤ at' then .next s
  else
    let s := reach at' s
    done (p1Message (setSeam { s.seam with p1Done := true } s))

/-- The standing P1 message of channel c in this cycle is of a kind (stored as kind, holder, epoch, target). -/
def State.p1Is (s : State) (c kind : Nat) : Bool :=
  let x := s.peer c
  ! x.bad1 && match x.msg1 with
    | some (k :: _) => k = kind
    | _ => false

/-- The same for P2. -/
def State.p2Is (s : State) (c kind : Nat) : Bool :=
  let x := s.peer c
  ! x.bad2 && match x.msg2 with
    | some (k :: _) => k = kind
    | _ => false

/-- EPOCH of the P1 message, EPOCH and TARGET of the P2 message of channel c. -/
def State.p1Epoch (s : State) (c : Nat) : Nat := ((s.peer c).msg1.getD []).getD 2 0
def State.p2Epoch (s : State) (c : Nat) : Nat := ((s.peer c).msg2.getD []).getD 2 0
def State.p2Target (s : State) (c : Nat) : Nat := ((s.peer c).msg2.getD []).getD 3 0

/-- The RENEW of the recognised holder arrived in this cycle with the recognised term (R293). -/
def State.renewed (s : State) : Bool :=
  decide (s.holder ≠ 0 ∧ s.holder ≠ s.ch) && s.p1Is s.holder lkRENEW && s.p1Epoch s.holder = s.epoch

/-- This channel votes for the take of the heir (R295): its own LEFT is 0, no RENEW arrived in the cycle, and it voted
for no other candidate in that term. -/
def State.mayTgrant (s : State) : Bool :=
  let c := s.heir
  s.left = 0 && decide (c ≠ 0 ∧ c ≠ s.ch) && s.p1Is c lkTAKE &&
    ! (s.others.any fun o => s.p1Is o lkRENEW) &&
    (let w := SMap.get 0 s.seam.voted (s.p1Epoch c)
     decide (w = 0 ∨ w = c))

/-- The message of P2 (R293, R295, R297). A channel with the role OFFLINE takes no part and sends HEALTH (R30). -/
def p2Message (s : State) : State :=
  if s.iHold || s.role = roleOFFLINE then sendLease lkHEALTH s.epoch 0 s
  else if s.renewed then sendLease lkGRANT s.epoch s.holder (setSeam { s.seam with sentGrant := true } s)
  else if s.mayTgrant then
    let c := s.heir
    let t := s.p1Epoch c
    sendLease lkTGRANT t c (setSeam { s.seam with sentTgrant := some (c, t), voted := SMap.set 0 s.seam.voted t c } s)
  else sendLease lkHEALTH s.epoch 0 s

/-- P2 (R291): half a cycle after the boundary. -/
def execP2 (s : State) : Out :=
  if ! s.live pdNET then .next s else
  let at' := s.cycleStart + s.cycleTicks / 2
  if ! s.inLease || s.seam.p2Done || s.frameEnd ≤ at' then .next s
  else
    let s := reach at' s
    done (p2Message (setSeam { s.seam with p1Done := true, p2Done := true } s))

/-! ### Receiving -/

/-- The enable, peer and UP bit of Seam port p, and its count of discarded frames. -/
def seamEn (p : Nat) : Fld := if p = 0 then Reg.SEAM_PORT_S0_EN else Reg.SEAM_PORT_S1_EN
def seamPeerF (p : Nat) : Fld := if p = 0 then Reg.SEAM_PORT_S0_PEER else Reg.SEAM_PORT_S1_PEER
def seamUp (p : Nat) : Fld := if p = 0 then Reg.SEAM_STAT_S0_UP else Reg.SEAM_STAT_S1_UP
def seamCrcF (p : Nat) : Fld := if p = 0 then Reg.SEAM_ERR_S0_CRC else Reg.SEAM_ERR_S1_CRC

/-- Seam port p is enabled and UP. -/
def State.seamLive (s : State) (p : Nat) : Bool := s.on (seamEn p) && s.on (seamUp p)

/-- A Seam frame on port p is discarded (R300). -/
def seamDiscard (p : Nat) (s : State) : State := raiseDev Fc.SEAM_CRC (s.inc (seamCrcF p))

/-- A lease message or payload is rejected (R289, R291). -/
def msgReject (s : State) : State := raiseDev Fc.MSG_REJECT (s.inc Reg.SEAM_REJ)

/-- A lease message from channel c updates its health word, its age and what R286 listens for. -/
def hearPeer (c health holder : Nat) (renew : Bool) (s : State) : State :=
  let old := s.rd (Reg.SEAM_PHc c)
  let x := s.peer c
  let s := (setPeer c { x with now := some health, lostUp := false } s).wr (Reg.SEAM_PHc c) health
  let s := s.wr Reg.SEAM_PAGE (putBits (s.rd Reg.SEAM_PAGE) (8 * (c - 1)) 8 0)
  let s := s.when (decide (hwRole old ≠ hwRole health ∨ hwState old ≠ hwState health) || hwFstop old != hwFstop health)
    (raiseIrq 157)
  s.when (renew || decide (holder ≠ 0)) fun s => setSeam { s.seam with holderSeen := true } s

/-- A RENEW is recognised by a channel whose own LEFT is 0, when its term is above every term recognised (R293). -/
def recognise (c epoch : Nat) (s : State) : State :=
  if s.left = 0 && decide (s.role ≠ roleACTIVE) &&
      (match s.seam.term with
        | none => true
        | some t => decide (t < epoch))
  then setSeam { s.seam with term := some epoch } ((s.wr Reg.SEAM_STAT_HOLDER c).wr Reg.SEAM_STAT_EPOCH epoch)
  else s

/-- The clock 250 ms after the first bulk segment (R302). -/
def State.bulkLimit (s : State) : Nat := s.seam.bulkAt + 100000000

/-- A request of channel c asks for the bulk it is being sent again, under a new generation: the 250 ms go on (R302, R306;
notes/assumptions/2431.md). -/
def State.bulkAgain (s : State) (c : Nat) : Bool :=
  decide (s.seam.bulkGen ≠ 0 ∧ s.seam.bulkFor = c ∧ s.time.clk < s.bulkLimit ∧ s.rd Reg.SEAM_STAT_BULK ≠ 3)

/-- A holder with BULK_EN serves a bulk request (R306). -/
def serveBulk (c : Nat) (s : State) : State :=
  if s.iHold && s.on Reg.SEAM_CTRL_BULK_EN && decide (s.rd Reg.SEAM_STAT_BULK ≠ 2) then
    let since := if s.bulkAgain c then s.seam.bulkAt else s.time.clk
    let s := setSeam { s.seam with bulkGen := (s.seam.bulkGen + 1) % 2 ^ 32, bulkFor := c, bulkAt := since,
                                   bulkCount := 0, linkAt := 5 * s.time.clk } s
    (s.wr Reg.SEAM_STAT_BULK 2).wr Reg.SEAM_BULKST 0
  else s

/-- The first copy of a valid lease message takes effect. -/
def leaseEffect (kind c epoch target : Nat) (s : State) : State :=
  if kind = lkRENEW then recognise c epoch s
  else if kind = lkBULKREQ ∧ target = s.ch then serveBulk c s
  else s

/-- A lease message belongs to P1 or P2: RENEW, TAKE and BULK_REQ to P1, GRANT and TGRANT to P2, HEALTH to the one that
its arrival falls in. -/
def State.msgP2 (s : State) (kind : Nat) : Bool :=
  kind = lkGRANT || kind = lkTGRANT || (kind = lkHEALTH && s.seam.p2Done)

/-- What a lease message from channel c finds. -/
def State.seamWas (c : Nat) (s : State) : SeamWas :=
  let x := s.peer c
  { now := x.now, word := s.rd (Reg.SEAM_PHc c), age := bits (s.rd Reg.SEAM_PAGE) (8 * (c - 1)) 8, lostUp := x.lostUp,
    seen := s.seam.holderSeen, holder := s.holder, epoch := s.epoch, term := s.seam.term,
    bulk := s.rd Reg.SEAM_STAT_BULK, bulkSt := s.rd Reg.SEAM_BULKST, bulkGen := s.seam.bulkGen,
    bulkFor := s.seam.bulkFor, bulkAt := s.seam.bulkAt }

/-- A standing message of channel c in this cycle names a holder (R286). -/
def State.namesHolder (s : State) (c : Nat) : Bool :=
  let x := s.peer c
  let names := fun (bad : Bool) (m : Option (List Nat)) => ! bad && match m with
    | some (kind :: holder :: _) => decide (kind = lkRENEW ∨ holder ≠ 0)
    | _ => false
  names x.bad1 x.msg1 || names x.bad2 x.msg2

/-- The message of channel c is discarded (R291): what its first copy brought is taken back, where nothing newer has
replaced it. `other` tells that its other message of the cycle stands. -/
def unhear (c : Nat) (words : List Nat) (w : SeamWas) (other : Bool) (s : State) : State :=
  let kind := words.headD 0
  let s := if other then s else
    let s := (setPeer c { s.peer c with now := w.now, lostUp := w.lostUp } s).wr (Reg.SEAM_PHc c) w.word
    s.wr Reg.SEAM_PAGE (putBits (s.rd Reg.SEAM_PAGE) (8 * (c - 1)) 8 w.age)
  let s := s.when (kind = lkRENEW && decide (s.holder = c ∧ s.epoch = words.getD 2 0 ∧ s.seam.term ≠ w.term)) fun s =>
    setSeam { s.seam with term := w.term } ((s.wr Reg.SEAM_STAT_HOLDER w.holder).wr Reg.SEAM_STAT_EPOCH w.epoch)
  let s := s.when (kind = lkBULKREQ && decide (s.seam.bulkFor = c ∧ s.seam.bulkGen ≠ w.bulkGen)) fun s =>
    setSeam { s.seam with bulkGen := w.bulkGen, bulkFor := w.bulkFor, bulkAt := w.bulkAt }
      ((s.wr Reg.SEAM_STAT_BULK w.bulk).wr Reg.SEAM_BULKST w.bulkSt)
  setSeam { s.seam with holderSeen := w.seen || s.others.any s.namesHolder } s

/-- A lease message whose frame is good (R291): CN, the instant and the agreement of its copies. -/
def leaseMessage (kind : Nat) (m : LeaseMsg) (s : State) : State :=
  let c := m.sender.val
  let p2 := s.msgP2 kind
  let words := [kind, m.holder.val, m.epoch.val, m.target.val, m.health.toNat]
  let x := s.peer c
  let stored := if p2 then x.msg2 else x.msg1
  if ! s.others.contains c || decide (kind = 0 ∨ 6 < kind) || decide (m.cn.toNat ≠ s.cn) || (! p2 && s.seam.p2Done) then
    msgReject s
  else match stored with
    | some w =>
      if w = words then s
      else if (if p2 then x.bad2 else x.bad1) then msgReject s
      else
        let s := setPeer c (if p2 then { x with bad2 := true } else { x with bad1 := true }) s
        let other := if p2 then x.msg1.isSome && ! x.bad1 else x.msg2.isSome && ! x.bad2
        msgReject (unhear c w (if p2 then x.was2 else x.was1) other s)
    | none =>
      let was := s.seamWas c
      let s := setPeer c (if p2 then { x with msg2 := some words, was2 := was } else
        { x with msg1 := some words, was1 := was }) s
      let s := hearPeer c m.health.toNat m.holder.val (kind = lkRENEW) s
      leaseEffect kind c m.epoch.val m.target.val s

/-- A lease message by a path. A channel outside the lease ignores it. -/
def leaseBy (kind : Nat) (m : LeaseMsg) (path : LeasePath) (s : State) : Out :=
  match path with
  | .fudorlink => if s.inLease then done (leaseMessage kind m s) else .next s
  | .seam p h =>
    let words := leaseWords kind m.sender.val m.holder.val m.epoch.val m.target.val m.cn.toNat m.health.toNat
    if ! s.seamLive p then .next s
    else if ! seamGood sfLEASE h words then done (seamDiscard p s)
    else if s.inLease then done (leaseMessage kind m s)
    else .next s

/-- RENEW (R293). -/
def execRenew (m : LeaseMsg) (path : LeasePath) (s : State) : Out :=
  if ! s.live pdNET then .next s else
  leaseBy lkRENEW m path s
/-- GRANT (R293). -/
def execGrant (m : LeaseMsg) (path : LeasePath) (s : State) : Out :=
  if ! s.live pdNET then .next s else
  leaseBy lkGRANT m path s
/-- TAKE (R295). -/
def execTake (m : LeaseMsg) (path : LeasePath) (s : State) : Out :=
  if ! s.live pdNET then .next s else
  leaseBy lkTAKE m path s
/-- TGRANT (R295). -/
def execTgrant (m : LeaseMsg) (path : LeasePath) (s : State) : Out :=
  if ! s.live pdNET then .next s else
  leaseBy lkTGRANT m path s
/-- HEALTH (R304). -/
def execHealth (m : LeaseMsg) (path : LeasePath) (s : State) : Out :=
  if ! s.live pdNET then .next s else
  leaseBy lkHEALTH m path s
/-- BULK_REQ (R306). -/
def execBulkReq (m : LeaseMsg) (path : LeasePath) (s : State) : Out :=
  if ! s.live pdNET then .next s else
  leaseBy lkBULKREQ m path s

/-! ### What a cycle without a message, a lease or a claim brings -/

/-- Cycles since channel c was last heard (SEAM_PAGE). -/
def State.age (s : State) (c : Nat) : Nat := bits (s.rd Reg.SEAM_PAGE) (8 * (c - 1)) 8

/-- PEER_LOST (R302): no lease message from channel c + 1 for L consecutive cycles, raised once per silence. -/
def execPeerLost (c : Fin 3) (s : State) : Out :=
  if ! s.live pdNET then .next s else
  let k := c.val + 1
  let x := s.peer k
  if s.inLease && s.others.contains k && decide (s.leaseL ≤ s.age k) && ! x.lostUp then
    done (raiseDev Fc.PEER_LOST (setPeer k { x with lostUp := true } s))
  else .next s

/-- LEASE_LAPSED (R294): LEFT has reached 0 at the holder. ACTIVE goes to STANDBY, LEE to SAFE; the lapsed channel is no
heir until its guard has ended (R284). -/
def execLeaseLapsed (s : State) : Out :=
  if ! s.live pdNET then .next s else
  if s.iHold && s.left = 0 then
    let c := s.ch
    let s := setSeam { s.seam with lapsed := some c } (s.wr Reg.SEAM_STAT_HOLDER 0)
    let s := match s.dev.state with
      | .active => setDevRole .standby roleSTANDBY s
      | .lee => enterSafe s
      | _ => s
    done (almEvent 5 0 (claimTick (raiseDev Fc.LEASE_LAPSED s)))
  else .next s

/-- LAST_CHANNEL (R296): the holder counted no STANDBY peer for a whole cycle. DEDUCED (notes/assumptions/16.md): while the
fault is held a further such cycle raises nothing new. -/
def execLastChannel (s : State) : Out :=
  if ! s.live pdNET then .next s else
  if s.seam.aloneDue && s.iHold then
    let s := setSeam { s.seam with aloneDue := false } s
    done (s.when (! s.isHeld Fc.LAST_CHANNEL) (raiseDev Fc.LAST_CHANNEL))
  else .next s

/-- NO_MGR_CLAIM (R290): a whole cycle without a current manager claim. -/
def execNoMgrClaim (s : State) : Out :=
  if ! s.live pdNET then .next s else
  if s.seam.noClaimDue then
    done (raiseDev Fc.NO_MGR_CLAIM (setSeam { s.seam with noClaimDue := false } s))
  else .next s

/-- SET_START (R286): L + 1 whole cycles have been listened at this boundary; in a set that is starting the channel takes
the role STANDBY, otherwise it has to rejoin. -/
def execSetStart (s : State) : Out :=
  if ! s.live pdNET then .next s else
  match s.seam.listened with
  | none => .next s
  | some n =>
    if n < s.leaseL + 1 || s.seam.setDone || decide (s.fidx ≠ 0) || ! s.inLease ||
        decide (s.role ≠ roleOFFLINE ∨ s.dev.state ≠ .standby) then .next s
    else
      let s := setSeam { s.seam with setDone := true } s
      if s.seam.holderSeen then done s
      else done (claimTick (applyLeeCause (setRole roleSTANDBY s)))

/-! ### State copy and bulk copy (R301, R306) -/

/-- Bytes of the declared-state region, and of the bulk region. -/
def State.copyBytes (s : State) : Nat := s.rd Reg.SEAM_TXSZ * 1024
def State.bulkBytes (s : State) : Nat := (s.rd Reg.SEAM_BULKSZ + 1) * 1024

/-- The clocks of an EXCHANGE copy of `n` words (R67). -/
def exchangeClk (n : Nat) : Nat := 4 + ceilDiv n 4

/-- EXCHANGE with NET = 1 (R67, R301): the holder snapshots its declared-state region into the transmit buffer. -/
def seamSnapshot (s : State) : State :=
  if s.iHold then
    let n := s.copyBytes / 4
    setSeam { s.seam with txCn := s.cn, txBuf := getWords s.mem (s.rd Reg.SEAM_TX * 1024) n,
                          txEnd := s.time.clk + exchangeClk n, snapNow := some false } s
  else s

/-- The enabled Seam ports whose peer is in the set (R301). -/
def State.setPorts (s : State) : List Nat :=
  [0, 1].filter fun p => s.on (seamEn p) && s.channels.contains (s.rd (seamPeerF p))

/-- STATE_COPY_SEND (R301): the snapshot has ended; the region is sent as state segments. It is sent in full when every
such port is UP. -/
def execStateCopySend (s : State) : Out :=
  if ! s.live pdNET then .next s else
  match s.seam.snapNow with
  | none => .next s
  | some _ =>
    if ! s.iHold then .next s
    else
      let s := advance (s.seam.txEnd - s.time.clk) s
      let s := takeLink (s.rd Reg.SEAM_TXSZ * 1041) s
      done (setSeam { s.seam with snapNow := some (s.setPorts.all fun p => s.on (seamUp p)) } s)

/-- Segments of 1 KB. -/
def segments (size : Nat) (words : List Nat) : List (List Nat) :=
  (List.range size).map fun q => (words.drop (256 * q)).take 256

/-- The frames of a state copy (R300, R301), and of the bulk copy with its bulk-end frame (R306): the CRC-32 of the region
is word 0 of a payload of three words (notes/assumptions/1614.md). -/
def State.copyFrames (s : State) : List (List (Bool × Nat)) :=
  (segments (s.rd Reg.SEAM_TXSZ) s.seam.txBuf).zipIdx.map fun e => seamFrame sfSTATE e.2 s.seam.txCn e.1
def State.bulkFrames (s : State) : List (List (Bool × Nat)) :=
  let n := s.rd Reg.SEAM_BULKSZ + 1
  let words := getWords s.mem (s.rd Reg.SEAM_BULK * 1024) (256 * n)
  ((segments n words).zipIdx.map fun e => seamFrame sfBULK e.2 s.seam.bulkGen e.1) ++
    [seamFrame sfBULKEND 0 s.seam.bulkGen [crc32 (wordsBytes words), 0, 0]]

/-- A device that takes state copies: in a set and not the holder. -/
def State.copyRx (s : State) : Bool := s.inSet && ! s.iHold

/-- STATE_SEGMENT (R301): a state segment with its TAG and SEQ reaches port p. -/
def execStateSegment (p : Fin 2) (h : SeamHead) (words : List Word) (s : State) : Out :=
  if ! s.live pdNET then .next s else
  let tag := h.tag
  if ! s.seamLive p then .next s
  else if ! seamGood sfSTATE h (words.map BitVec.toNat) || decide (s.rd Reg.SEAM_TXSZ ≤ h.seq.toNat) then
    done (seamDiscard p s)
  else if ! s.copyRx then .next s
  else
    let q := h.seq.toNat
    let x := s.seam
    let base := s.rd Reg.SEAM_RX * 1024 + (1 - s.rd Reg.SEAM_RXSTAT_BANK) * s.copyBytes
    let s := { s with mem := putWords s.mem (base + 1024 * q) (words.map BitVec.toNat) }
    let good := decide (q = 0) || (decide (x.rxTag = some tag.toNat) && decide (q = x.rxNext))
    let next := if good then q + 1 else 0
    let full := good && decide (next = s.rd Reg.SEAM_TXSZ)
    done (setSeam { x with rxTag := if good then some tag.toNat else none, rxNext := next, rxDone := full,
                           rxTags := if full then (tag.toNat :: x.rxTags).take 4 else x.rxTags } s)

/-- The TAG of the copy due at this boundary: that of the snapshot two cycles before (R301). -/
def State.copyDueTag (s : State) : Nat := (s.cn + 2 ^ 32 - 2) % 2 ^ 32

/-- That copy has been complete. -/
def State.dueComplete (s : State) : Bool := s.seam.rxTags.contains s.copyDueTag

/-- COPY_MISSED (R301): the copy was not complete by the second boundary after its snapshot; a newer one in reception goes
on. Four in a row make COPY_STALE, and a STANDBY role OBSERVER. A newer copy that this boundary has applied comes after the
missed one: it ends the run of missed copies, and its own count stands. -/
def execCopyMissed (s : State) : Out :=
  if ! s.live pdNET then .next s else
  if ! s.copyRx || s.dueComplete || decide (s.fidx ≠ 0 ∨ s.time.ft ≠ 0 ∨ s.seam.missCn = some s.cn) then .next s
  else
    let x := s.seam
    let stale := decide (x.rxTag = some s.copyDueTag)
    let newer := decide (x.applied = some ((s.copyDueTag + 1) % 2 ^ 32))
    let n := (if newer then x.missWas else s.rd Reg.SEAM_RXSTAT_MISS) + 1
    let s := setSeam { x with copyOk := false, copiesAfter := if newer then x.copiesAfter else 0
                              rxTag := if stale then none else x.rxTag
                              rxDone := ! stale && x.rxDone, missCn := some s.cn } s
    let s := raiseDev Fc.COPY_MISSED (s.when (! newer) (State.inc · Reg.SEAM_RXSTAT_MISS))
    let s := s.when (n = 4) (raiseDev Fc.COPY_STALE)
    done (claimTick (s.when (decide (4 ≤ n) && s.role = roleSTANDBY && s.dev.state = .standby) (setRole roleOBSERVER)))

/-- RESYNC (R306): a write of SEAM_CTRL.RESYNC by a channel that has to rejoin. SLICE_DONE starts anew (R303). -/
def resyncReq (s : State) : State :=
  if s.inSet && s.mayServe && s.dev.state = .standby && (s.role = roleOFFLINE || s.role = roleOBSERVER) then
    let x := s.seam
    setSeam { x with bulkReq := true, resync := true, resynced := false, bulkDone := false, copiesAfter := 0,
                     sliceRound := 0 } (s.put Reg.SEAM_STAT_SLICE_DONE false)
  else s

def execResync (s : State) : Out :=
  if ! s.live pdNET then .next s else
  done (resyncReq s)

/-- BULK_SEGMENT (R306): a bulk segment with its generation and SEQ reaches port p. -/
def execBulkSegment (p : Fin 2) (h : SeamHead) (words : List Word) (s : State) : Out :=
  if ! s.live pdNET then .next s else
  let gen := h.tag
  if ! s.seamLive p then .next s
  else if ! seamGood sfBULK h (words.map BitVec.toNat) || decide (s.rd Reg.SEAM_BULKSZ + 1 ≤ h.seq.toNat) then
    done (seamDiscard p s)
  else if ! s.seam.resync || s.seam.bulkDone then .next s
  else
    let q := h.seq.toNat
    let x := s.seam
    let first := decide (s.rd Reg.SEAM_STAT_BULK ≠ 1)
    let s := { s with mem := putWords s.mem (s.rd Reg.SEAM_BULK * 1024 + 1024 * q) (words.map BitVec.toNat) }
    let good := decide (q = 0) || (decide (x.bulkGen = gen.toNat) && decide (q = x.bulkNext))
    let s := (s.wr Reg.SEAM_STAT_BULK 1).wr Reg.SEAM_BULKST (if good then q + 1 else s.rd Reg.SEAM_BULKST)
    done (setSeam { x with bulkReq := false, bulkGen := gen.toNat, bulkNext := if good then q + 1 else 0,
                           bulkAt := if first then s.time.clk else x.bulkAt } s)

/-- BULK_END (R306): the bulk-end frame; the region's CRC is checked. On a mismatch the region is asked for again. -/
def execBulkEnd (p : Fin 2) (h : SeamHead) (words : List Word) (s : State) : Out :=
  if ! s.live pdNET then .next s else
  let gen := h.tag
  let crc := words.headD 0
  if ! s.seamLive p then .next s
  else if ! seamGood sfBULKEND h (words.map BitVec.toNat) then done (seamDiscard p s)
  else if ! s.seam.resync || s.seam.bulkDone || decide (s.rd Reg.SEAM_STAT_BULK ≠ 1) then .next s
  else
    let bytes := wordsBytes (getWords s.mem (s.rd Reg.SEAM_BULK * 1024) (s.bulkBytes / 4))
    if s.seam.bulkGen = gen.toNat ∧ s.seam.bulkNext = s.rd Reg.SEAM_BULKSZ + 1 ∧ crc32 bytes = crc.toNat then
      done (raiseIrq 156 (setSeam { s.seam with bulkDone := true, copiesAfter := 0 } (s.wr Reg.SEAM_STAT_BULK 0)))
    else done (setSeam { s.seam with bulkReq := true, bulkNext := 0 } s)

/-- BULK_SENT (R306): the holder has sent the region and the bulk-end frame, in the link time that was left. -/
def execBulkSent (s : State) : Out :=
  if ! s.live pdNET then .next s else
  if s.rd Reg.SEAM_STAT_BULK = 2 && s.inFrame s.bulkSentAt then
    let s := advance (s.bulkSentAt - s.time.clk) s
    done (raiseIrq 156 ((s.wr Reg.SEAM_STAT_BULK 0).wr Reg.SEAM_BULKST (s.rd Reg.SEAM_BULKSZ + 1)))
  else .next s

/-- RESYNC_FAIL (R306): 250 ms after the first segment the bulk is not complete, at the sender or the receiver. -/
def execResyncFail (s : State) : Out :=
  if ! s.live pdNET then .next s else
  let b := s.rd Reg.SEAM_STAT_BULK
  if (b = 1 || b = 2) && s.inFrame s.bulkLimit then
    let s := advance (s.bulkLimit - s.time.clk) s
    let s := setSeam { s.seam with bulkReq := false, resync := false, bulkNext := 0 } (s.wr Reg.SEAM_STAT_BULK 3)
    done (raiseDev Fc.RESYNC_FAIL s)
  else .next s

/-- STANDBY_OK (R306): a released write in OBSERVER after a resync acts at the next boundary. -/
def standbyOkReq (s : State) : State :=
  if s.role = roleOBSERVER && s.seam.resynced then setSeam { s.seam with standbyOk := true } s else s

def execStandbyOk (s : State) : Out :=
  if ! s.live pdNET then .next s else
  done (standbyOkReq s)

/-! ### Ports and slices -/

/-- SEAM_PORT_UP (R299): 64 consecutive valid characters on an enabled port. -/
def execSeamPortUp (p : Fin 2) (s : State) : Out :=
  if ! s.live pdNET then .next s else
  if s.on (seamEn p) && ! s.on (seamUp p) then done (raiseIrq 158 (s.put (seamUp p) true)) else .next s

/-- SEAM_LINK_DOWN (R299): no valid character for 400 ns on an enabled port. -/
def execSeamLinkDown (p : Fin 2) (s : State) : Out :=
  if ! s.live pdNET then .next s else
  if s.on (seamEn p) && s.on (seamUp p) then
    done (raiseDev Fc.SEAM_LINK_DOWN (raiseIrq 158 (s.put (seamUp p) false)))
  else .next s

/-- Clearing the enable of a port takes it DOWN without a fault (R299). -/
def seamDisable (p : Nat) (s : State) : State :=
  if ! s.on (seamEn p) && s.on (seamUp p) then raiseIrq 158 (s.put (seamUp p) false) else s

/-- A slice test is due and may run (R303): after END with 2,400 clocks left, or, while the Anvil stands, at a frame
tick. -/
def State.sliceReady (s : State) : Bool :=
  s.devRuns && ! s.on Reg.SEAM_CTRL_SLICE_HOLD && decide (s.rd Reg.SEAM_STAT_BULK ≠ 1) &&
    decide (s.rd Reg.SEAM_CFG_SLICE_INT ≤ s.seam.sliceWait) &&
    (if ! s.on Reg.ANV_STAT_RUNNING then decide (s.time.ft = 0) else (s.anv.endReached && decide (s.time.ft + 2400 ≤ s.frameMinClk)))

/-- One slice was tested with its verdict (R303, R304). -/
def sliceTested (ok : Bool) (s : State) : State :=
  let x := s.seam
  let full := decide (64 ≤ x.sliceRound + 1)
  let s := setSeam { x with slice := (x.slice + 1) % 64, sliceLast := x.slice, sliceWait := 0,
                            sliceRound := if full then 0 else x.sliceRound + 1,
                            sliceFail := x.sliceFail || ! ok } s
  let s := s.when full (·.put Reg.SEAM_STAT_SLICE_DONE true)
  s.when (! ok) (raiseDev Fc.SLICE_FAIL)

/-- SLICE_TEST (R303). -/
def execSliceTest (ok : Bool) (s : State) : Out :=
  if ! s.live pdNET then .next s else
  if s.sliceReady then done (sliceTested ok s) else .next s

/-- SLICE_HOLD (R303, R311): a write of the bit, accepted only in STANDBY; a hold starts SLICE_DONE anew. -/
def sliceHold (b : Bool) (s : State) : State :=
  if s.dev.state ≠ .standby then s
  else
    let s := s.put Reg.SEAM_CTRL_SLICE_HOLD b
    s.when b fun s => setSeam { s.seam with sliceRound := 0, sliceWait := 0 } (s.put Reg.SEAM_STAT_SLICE_DONE false)

def execSliceHold (b : Bool) (s : State) : Out :=
  if ! s.live pdNET then .next s else
  done (sliceHold b s)

end Sys2Proof.Machine
end

