-- ==== Sys2Proof/Machine/Fdl.lean ====
section
/-! DEFINITION. Fudorlink frames: reception and its checks, claim arbitration, transmission, relaying, ports and link delay
(R312 to R330, R343 to R346). -/
namespace Sys2Proof.Machine

/-! ### Nodes, ports, proposer -/

/-- Node id (STAR × 64 + NODE), port p, and their replacements. -/
def State.nd (s : State) (id : Nat) : NodeSt := SMap.get {} s.fdl.nodes id
def setNd (id : Nat) (x : NodeSt) (s : State) : State := setFdl { s.fdl with nodes := SMap.set {} s.fdl.nodes id x } s
def State.pt (s : State) (p : Nat) : PortSt := SMap.get {} s.fdl.ports p
def setPt (p : Nat) (x : PortSt) (s : State) : State := setFdl { s.fdl with ports := SMap.set {} s.fdl.ports p x } s

/-- The port classes and port states (R313, FDL_Pp_STAT). -/
def State.pclass (s : State) (p : Nat) : Nat := s.rd (Reg.FDL_Pp_CFG_CLASS p)
def State.pstate (s : State) (p : Nat) : Nat := s.rd (Reg.FDL_Pp_STAT_STATE p)
def psDOWN : Nat := 0
def psMEASURING : Nat := 1
def psUP : Nat := 2
def psISOLATED : Nat := 3

/-- The ports of a class. -/
def State.portsOf (s : State) (cls : Nat) : List Nat := (List.range 6).filter fun p => s.pclass p = cls

/-- The port classes agree with the network role (R313): a worker has uplinks only, a sub-star at least one uplink and star
ports, a manager star and peer ports. -/
def State.classesOk (s : State) : Bool :=
  let cs := (List.range 6).map s.pclass
  match s.netRole with
  | 0 => cs.all fun c => c = 0 || c = 1
  | 1 => (cs.all fun c => c = 0 || c = 1 || c = 2) && cs.contains 1
  | _ => cs.all fun c => c = 0 || c = 2 || c = 3

/-- The sync state changes (R337, R349). -/
def setSs (x : Nat) (s : State) : State :=
  if s.sstate = x then s else raiseIrq 129 (s.wr Reg.FDL_STAT_SSTATE x)

/-- ADMITTED follows the ADMIT of the mode in use (R346, FDL_STAT). When it becomes 1: source 134, and a departure is over,
so that LEAVE is no longer set (R365). -/
def setAdmitted (b : Bool) (s : State) : State :=
  let s' := s.put Reg.FDL_STAT_ADMITTED b
  s'.when (b && ! s.on Reg.FDL_STAT_ADMITTED) fun s =>
    raiseIrq 134 (setFdl { s.fdl with leaving := false } (s.put Reg.FDL_STAT_LEAVE false))

/-- EN, role and port classes decide between OFF and LISTEN (R313, R337, R338). -/
def fdlRefresh (s : State) : State :=
  let s := s.wr Reg.FDL_STAT_ROLE s.netRole
  if s.on Reg.FDL_CTRL_EN && s.classesOk then
    if s.sstate = ssOFF then setSs ssLISTEN (setFdl { s.fdl with cold := 0, good := 0, misses := 0 } s) else s
  else setSs ssOFF s

/-- Every axis out of DISABLED goes to SAFE, whatever reaction is configured (R336, R346). -/
def fdlSafe (s : State) : State :=
  requestSafe ((List.range 8).foldl (fun v n => v + if s.ax n = axDISABLED then 0 else 2 ^ n) 0) s

/-- The channel of a set whose frames carry the highest current claim at the active level; the manager of a simplex
cluster otherwise (R340). -/
def State.proposer (s : State) : Option Nat :=
  let own := if s.inSet && decide (0x80 ≤ s.claim) then [(s.claim, s.nodeId)] else []
  let heard := ([64, 128, 192].filter fun id => 0 < (s.nd id).left ∧ 0x80 ≤ (s.nd id).claim ∧ id ≠ s.nodeId).map fun id =>
    ((s.nd id).claim, id)
  let all := own ++ heard
  match all.find? fun x => all.all fun y => y.1 ≤ x.1 with
  | some x => some x.2
  | none => if s.inSet then none else some 0

/-- This device is the proposer. -/
def State.iPropose (s : State) : Bool := s.node = 0 && decide (s.proposer = some s.nodeId)

/-! ### Guards of a payload (R344) -/

/-- Word i of guard record r of mode m. -/
def State.grecW (s : State) (m r i : Nat) : Nat := s.regionWord m (512 + 16 * r + i)

/-- Range check j of record r over a payload. A payload without the word fails. -/
def State.rangeOk (s : State) (m r : Nat) (words : List Nat) (j : Nat) : Bool :=
  let c := s.grecW m r (1 + 3 * j)
  let w := bits c 16 5 + 1
  match words[bits c 0 6]? with
  | none => false
  | some x =>
    let v := bits x (bits c 8 5) w
    let lo := s.grecW m r (2 + 3 * j)
    let hi := s.grecW m r (3 + 3 * j)
    if tb c 24 then decide (sext 32 lo ≤ sext w v ∧ sext w v ≤ sext 32 hi) else decide (lo ≤ v ∧ v ≤ hi)

/-- The payload passes the guards of its slot. -/
def State.payloadOk (s : State) (m i : Nat) (words : List Nat) : Bool :=
  let r := s.slotGrec m i
  ! s.slotGen m i || (List.range (bits (s.grecW m r 0) 9 3)).all (s.rangeOk m r words)

/-- The axes that take setpoints from slot i: an EXCHANGE of the active mode copies the slot into their pending bank
(R23, R64). -/
def State.slotAxes (s : State) (i : Nat) : Nat :=
  let m := s.netMode
  let es := (List.range (s.rd (Reg.ANV_MODEn_LENM1 m) + 1)).map fun k => SMap.get 0 s.anv.table (s.rd (Reg.ANV_MODEn_BASE m) + k)
  (List.range 8).foldl (fun v n => v + if es.any fun e => enOp e = opEXCHANGE && enDir e && ! enNet e && enSlot e = i &&
      enBuf e = 0x4003A800 + 256 * n then 2 ^ n else 0) 0

/-- A guard fault of slot i (R344). -/
def guardFault (m i : Nat) (s : State) : State :=
  let code := if tb (s.grecW m (s.slotGrec m i) 0) 8 then Fc.PAYLOAD_GUARD_S else Fc.PAYLOAD_GUARD_M
  raiseAxes code (s.slotAxes i) s

/-- A payload of slot i failed its guards: FILTER failing payloads in a row are a fault (R344). Further copies of the same
frame, from sender id, do not count again. -/
def guardFail (m i id : Nat) (s : State) : State :=
  if s.fdl.gSeen.contains (i, id) then s
  else
    let n := SMap.get 0 s.fdl.gFail i + 1
    let s := setFdl { s.fdl with gFail := SMap.set 0 s.fdl.gFail i n, gSeen := (i, id) :: s.fdl.gSeen } s
    s.when (n = bits (s.grecW m (s.slotGrec m i) 0) 4 4) (guardFault m i)

/-- A payload of slot i was accepted. -/
def guardPass (i : Nat) (s : State) : State :=
  let f := s.fdl
  setFdl { f with gFail := SMap.set 0 f.gFail i 0, gWait := SMap.set 0 f.gWait i 0, gUp := SMap.set false f.gUp i false } s

/-! ### Receiving a frame (R317) -/

/-- STAR × 64 + NODE of a frame's header. -/
def idOf (f : FdlFrame) : Nat := f.star.val * 64 + f.node.val
def wordsOf (f : FdlFrame) : List Nat := f.payload.map BitVec.toNat

/-- H0 to H7 and CN of a frame as bytes, CN high byte first, and its payload: what the CRC covers (R315). -/
def fdlBody (slot node star mode : Nat) (null : Bool) (claim h5 h6 h7 cn : Nat) (words : List Nat) : List Nat :=
  [slot, node + 64 * star, mode + 8 * b2n null, words.length, claim, h5, h6, h7] ++
    (List.range 6).map (fun k => cn / 256 ^ (5 - k) % 256) ++ wordsBytes words

/-- The body of a received frame. -/
def bodyOf (f : FdlFrame) : List Nat :=
  fdlBody f.slot.val f.node.val f.star.val f.mode.val f.null f.claim.toNat (128 * b2n f.pv + f.pmode.val)
    (128 * b2n f.rv + f.rmode.val) (128 * b2n f.cv + f.cmode.val) f.cn.toNat (wordsOf f)

/-- Characters, HOPS pair, CRC and EOF of a frame are good (R315, R317). -/
def frameOk (f : FdlFrame) : Bool :=
  f.codeOk && f.hops = f.hops2 && decide (f.hops.toNat < 8) && decide (crc32 (bodyOf f) = f.crc.toNat)

/-- AP of slot i in eighths of a tick after the cycle boundary (R321). -/
def State.ap8 (s : State) (i : Nat) : Nat := 8 * (s.slotStart s.netMode i + s.guardT s.netMode)

/-- The deviation of a frame's SOF from AP + HOPS × HOP, in eighths of a tick (R332). -/
def State.frameDev (s : State) (f : FdlFrame) : Int := f.sof - (s.ap8 f.slot.val + f.hops.toNat * 1280 : Nat)

/-- The sender a slot of a kind permits: the named node, any manager in a COMMAND slot, any node that is not admitted in a
JOIN slot (R320). -/
def State.senderOk (s : State) (kind : Nat) (f : FdlFrame) : Bool :=
  let m := s.netMode
  let i := f.slot.val
  if kind = kCOMMAND then f.node = 0
  else if kind = kJOIN then ! s.admitsId m (idOf f)
  else f.node.val = s.slotNode m i && f.star.val = s.slotStar m i

/-- The frame names a slot of the mode in use, of the kind, and comes from its sender. -/
def State.slotOk (s : State) (kind : Nat) (f : FdlFrame) : Bool :=
  decide (f.slot.val < s.nslot s.netMode) && s.slotKind s.netMode f.slot.val = kind && s.senderOk kind f

/-- Bits 47:0 of the cycle count. -/
def State.cn48 (s : State) : Nat := s.time.fc.toNat / s.cycleFrames % 2 ^ 48

/-- What R317 finds of a frame: accepted, faulty in MODE only, a payload guard, or another fault. -/
inductive FrameCheck where
  | accepted | modeOnly | guard | bad
deriving DecidableEq, Repr

/-- The checks of R317 in a node that keeps cluster time. -/
def State.frameCheck (s : State) (kind : Nat) (f : FdlFrame) : FrameCheck :=
  if ! (frameOk f && s.slotOk kind f && decide (f.cn.toNat = s.cn48)) then .bad
  else if f.mode.val ≠ s.netMode then
    if f.null || s.payloadOk s.netMode f.slot.val (wordsOf f) then .modeOnly else .bad
  else if ! f.null && ! s.payloadOk s.netMode f.slot.val (wordsOf f) then .guard
  else .accepted

/-- The port can deliver a frame: Fudorlink enabled, its class not off, the port UP or isolated, and the mode in use
VALID. -/
def State.rxLive (s : State) (p : Nat) : Bool :=
  s.on Reg.FDL_CTRL_EN && decide (s.sstate ≠ ssOFF) && decide (s.pclass p ≠ 0) &&
    (s.pstate p = psUP || s.pstate p = psISOLATED) && s.modeValid s.netMode

/-- A frame is discarded under FRAME_CRC (R317). -/
def frameCrc (p : Nat) (s : State) : State :=
  raiseDev Fc.FRAME_CRC ((s.inc Reg.FDL_DISC_CRC).inc (Reg.FDL_Pp_CNT_CRC p))

/-- The LOST bit of a node (R343): bits of FDL_LOST_L and _H for workers and the simplex manager, FDL_LOSTM for the
managers of channels. -/
def lostBit (id : Nat) : Fld × Nat :=
  if id % 64 = 0 ∧ id ≠ 0 then (Reg.FDL_LOSTM, id / 64 - 1)
  else if id % 64 < 32 then (Reg.FDL_LOST_L, id % 64) else (Reg.FDL_LOST_H, id % 64 - 32)

/-- A node is heard in its slot (R343): it is no longer lost. A node newly heard in its own slots raises source 134 (R349). -/
def hearNode (f : FdlFrame) (s : State) : State :=
  let id := (idOf f)
  let b := lostBit id
  let own := decide (s.slotKind s.netMode f.slot.val ≠ kJOIN)
  let newly := own && (s.bit b.1 b.2 || ! (s.nd id).known)
  let x := s.nd id
  let s := setNd id { x with heard := true, known := x.known || own, claim := f.claim.toNat, left := s.cto } s
  let s := (s.wrBit b.1 b.2 false).when newly (raiseIrq 134)
  s.when (decide (0x80 ≤ f.claim.toNat)) fun s => setSeam { s.seam with holderSeen := true } s

/-- The deviation of an accepted frame (R329, R332): FDL_EDGE beyond GUARD / 2; that of a sync node's first copy in the
cycle, if within GUARD, is its measurement. -/
def measure (f : FdlFrame) (s : State) : State :=
  let m := s.netMode
  let i := f.slot.val
  let g : Int := 8 * s.guardT m
  let d : Int := (s.frameDev f).natAbs
  let s := s.when (decide (g < 2 * d)) fun s =>
    if i < 32 then s.wrBit Reg.FDL_EDGE_L i true else s.wrBit Reg.FDL_EDGE_H (i - 32) true
  if s.slotSync m i then
    let s := setFdl { s.fdl with syncHeard := true } s
    if s.fdl.devOut.contains (idOf f) || decide (SMap.get none s.fdl.devs (idOf f) ≠ none) then s
    else if d ≤ g then setFdl { s.fdl with devs := SMap.set none s.fdl.devs (idOf f) (some (s.frameDev f)) } s
    else setFdl { s.fdl with devOut := idOf f :: s.fdl.devOut } s
  else s

/-- The frame reached this node before AGREE_OFS of the last frame of the cycle (R340). -/
def State.beforeAgree (s : State) : Bool :=
  decide (s.fidx + 1 < s.cycleFrames) || decide (s.time.ft < s.agreeOfs s.netMode)

/-- A switch is agreed in this commit cycle (R340). -/
def agree (m : Nat) (s : State) : State :=
  if s.fdl.agreed = some m then s
  else
    let s := setFdl { s.fdl with agreed := some m } s
    raiseIrq 131 ((s.put Reg.FDL_STAT_COMMIT true).wr Reg.FDL_STAT_PMODE m)

/-- The proposal, readiness and commit fields of a header (R340). -/
def headerFields (f : FdlFrame) (s : State) : State :=
  let fromProp := decide (s.proposer = some (idOf f)) && ! s.iPropose
  let s := s.when fromProp fun s =>
    let s := setFdl { s.fdl with heardProp := if f.pv then some f.pmode.val else none } s
    s.when (f.pv && s.fdl.agreed = none) (·.wr Reg.FDL_STAT_PMODE f.pmode.val)
  let s := match s.fdl.prop with
    | none => s
    | some p =>
      if ! p.gather then s
      else
        let rest := p.ready.filter fun i => i ≠ (idOf f)
        let ready := if f.rv && f.rmode.val = p.mode then (idOf f) :: rest else rest
        setFdl { s.fdl with prop := some { p with ready := ready } } s
  if f.cv && (fromProp || f.node = 0) && ! s.iPropose then
    let s := setFdl { s.fdl with heardCommit := some f.cmode.val } s
    s.when s.beforeAgree (agree f.cmode.val)
  else s

/-- A frame of the proposer that is good but for MODE counts for R341. -/
def noteProposer (f : FdlFrame) (own : Bool) (s : State) : State :=
  if s.proposer = some (idOf f) ∧ ! s.iPropose then
    setFdl { s.fdl with propFrame := true, propMode := s.fdl.propMode || own } s
  else s

/-- What the header of an accepted frame brings. -/
def acceptHeader (f : FdlFrame) (s : State) : State :=
  headerFields f (noteProposer f true (measure f (hearNode f s)))

/-- The receive buffer of slot i with a payload accepted in this cycle (R67, R324). -/
def State.rxNow (s : State) (i : Nat) : Option RxBuf := (SMap.get none s.fdl.rx i).filter fun b => b.cn = s.cn48

/-- An accepted payload enters the receive buffer of its slot (R324); of copies by several ports the lowest stays. -/
def acceptPayload (f : FdlFrame) (s : State) : State :=
  let i := f.slot.val
  let m := s.netMode
  let b : RxBuf := { port := f.port.val, cn := s.cn48, words := wordsOf f }
  match s.rxNow i with
  | some old =>
    if b.port < old.port then setFdl { s.fdl with rx := SMap.set none s.fdl.rx i (some b) } s
    else s
  | none =>
    let x := s.fdl
    let s := setFdl { x with rx := SMap.set none x.rx i (some b), rxok := putBit x.rxok i true } s
    let s := guardPass i s
    s.when (s.slotIrqEn m i) (raiseIrq (144 + s.slotIrqSel m i))

/-- CT at the end of the first sync frame heard (R338), in units of 2^−32 tick: CN × CL + START + GUARD + HOPS × HOP + the
time elapsed since its SOF, that is its own length. -/
def State.integrateCt (s : State) (f : FdlFrame) : Nat :=
  let m := s.netMode
  let len := if f.null then 0 else 4 * f.payload.length
  (f.cn.toNat * s.cycleTicks + s.slotStart m f.slot.val + s.guardT m + f.hops.toNat * 160) * 2 ^ 32 +
    (len + 22) * 128 * 2 ^ 32 / 10

/-- The first sync frame in LISTEN, or in LOST once the Anvil has stopped (R336, R338): TIME_CT_SET takes the cluster's time,
CT is loaded and the node integrates. While the Anvil runs the load is refused (R40). A node that is LOST on the RC backup
stays so. A load begins a session of the Almanac (R485), with the next frame. -/
def integrate (f : FdlFrame) (s : State) : State :=
  let s := setFdl { s.fdl with syncHeard := true } s
  if s.sstate = ssLOST && s.on Reg.TIME_STAT_ON_RC then s
  else
    let v := s.integrateCt f
    let s := (s.wr Reg.TIME_CT_SET_F (v % 2 ^ 32)).wr Reg.TIME_CT_SET_L (v / 2 ^ 32 % 2 ^ 32)
    let s := s.wr Reg.TIME_CT_SET_H (v / 2 ^ 64 % 2 ^ 32)
    if s.on Reg.ANV_STAT_RUNNING || s.on Reg.ANV_CTRL_RUN then s.put Reg.TIME_STAT_LOAD_DENIED true
    else
      let s := loadCt v { s with alm := { s.alm with loadDue := true } }
      setSs ssINTEGRATE (setFdl { s.fdl with good := 0, misses := 0, devs := [], devOut := [], computed := false } s)

/-- The order of R339: the managers of channels A, B and C, then nodes by number. -/
def coldRank (id : Nat) : Nat := if id % 64 = 0 then id / 64 else 3 + id % 64

/-- A frame in a node without cluster time: only a sync frame counts, CN and MODE unchecked (R338, R339). -/
def listenFrame (kind : Nat) (f : FdlFrame) (s : State) : State :=
  if ! (frameOk f && s.slotOk kind f) then frameCrc f.port s
  else if ! f.null && ! s.payloadOk s.netMode f.slot.val (wordsOf f) then
    guardFail s.netMode f.slot.val (idOf f) (frameCrc f.port s)
  else if ! s.slotSync s.netMode f.slot.val then s
  else integrate f s

/-- An accepted sync frame of an earlier node sends a node in COLDSTART back to LISTEN (R339). -/
def coldFrame (f : FdlFrame) (s : State) : State :=
  if s.sstate = ssCOLDSTART && s.slotSync s.netMode f.slot.val && decide (coldRank (idOf f) < coldRank s.nodeId) then
    setSs ssLISTEN (setFdl { s.fdl with cold := 0 } s)
  else s

/-- The common part of every reception: `k` is what an accepted frame does beyond its header; a node in COLDSTART stays there. -/
def recvFrame (kind : Nat) (f : FdlFrame) (k : State → State) (s : State) : State :=
  if ! s.rxLive f.port then s
  else if s.sstate = ssLISTEN || s.sstate = ssLOST then listenFrame kind f s
  else match s.frameCheck kind f with
    | .accepted => k (acceptHeader f s)
    | .modeOnly => noteProposer f false (s.inc Reg.FDL_DISC_MODE_DISC)
    | .guard => guardFail s.netMode f.slot.val (idOf f) (frameCrc f.port s)
    | .bad => frameCrc f.port s

/-- The reception of one frame. -/
def receive (kind : Nat) (f : FdlFrame) (k : State → State) : State → State := recvFrame kind f fun s => coldFrame f (k s)

/-- The payload of an accepted frame, unless it is a null frame. -/
def payload1 (f : FdlFrame) (s : State) : State := if f.null then s else acceptPayload f s

/-- STATUS_FRAME (R317, R323): ACC_CLAIM of the status word is what the worker reports obeying. -/
def execStatusFrame (f : FdlFrame) (s : State) : Out :=
  if ! s.live pdNET then .next s else
  done (receive kSTATUS f (fun s =>
    if f.null then s
    else
      let acc := bits ((wordsOf f).headD 0) 0 8
      noteClaim acc (setNd (idOf f) { s.nd (idOf f) with acc := some acc } (acceptPayload f s))) s)

/-- DATA_FRAME (R320). -/
def execDataFrame (f : FdlFrame) (s : State) : Out :=
  if ! s.live pdNET then .next s else
  done (receive kDATA f (payload1 f) s)

/-- The lease message of a PEER slot's payload (R291, R292). -/
def peerMessage (words : List Nat) (s : State) : State :=
  let w := words.headD 0
  let m : LeaseMsg := { sender := Fin.ofNat 4 (bits w 4 2), holder := Fin.ofNat 4 (bits w 6 2),
                        epoch := Fin.ofNat 32 (bits w 8 5), target := Fin.ofNat 4 (bits w 13 2),
                        cn := BitVec.ofNat 32 (words.getD 1 0), health := BitVec.ofNat 32 (words.getD 2 0) }
  if s.inLease then leaseMessage (bits w 0 4) m s else s

/-- PEER_FRAME (R320): a copy of a lease message. -/
def execPeerFrame (f : FdlFrame) (s : State) : Out :=
  if ! s.live pdNET then .next s else
  done (receive kPEER f (fun s => if f.null then s else peerMessage (wordsOf f) (acceptPayload f s)) s)

/-! ### Command slots (R289) -/

/-- The highest claim current at this worker; 0 for none. -/
def State.topClaim (s : State) : Nat := s.seam.claims.foldl (fun v p => max v p.1) 0

/-- The command payloads of one slot: the highest claim is accepted if it is not below one that is current; payloads with
the same claim are refused (R289). -/
def arbitrate (fs : List FdlFrame) (s : State) : State :=
  let cs := fs.filter fun f => ! f.null && decide (f.claim.toNat ≠ 0)
  let dup := cs.filter fun f => 1 < (cs.filter fun g => g.claim = f.claim).length
  let s := s.add Reg.SEAM_REJ dup.length
  let s := s.when (decide (dup ≠ [])) (raiseDev Fc.MSG_REJECT)
  match cs.find? fun f => cs.all fun g => g.claim.toNat ≤ f.claim.toNat with
  | none => s
  | some f =>
    if dup.contains f || decide (f.claim.toNat < s.topClaim) then s
    else
      let s := acceptPayload f s
      setSeam { s.seam with claims := SMap.set 0 s.seam.claims f.claim.toNat s.cto, accClaim := f.claim.toNat } s

/-- COMMAND_FRAME (R289): the frames that reach a worker in one COMMAND slot, one per star. -/
def execCommandFrame (fs : List FdlFrame) (s : State) : Out :=
  if ! s.live pdNET then .next s else
  if s.node = 0 then .next s
  else
    let live := fs.filter fun f => s.rxLive f.port && decide (some f.slot = (fs.head?.map FdlFrame.slot))
    let good := if s.sstate = ssLISTEN ∨ s.sstate = ssLOST then []
      else live.filter fun f => s.frameCheck kCOMMAND f = .accepted
    let s := live.foldl (fun s f => recvFrame kCOMMAND f id s) s
    done (good.foldl (fun s f => coldFrame f s) (arbitrate good s))

/-! ### JOIN (R345) -/

/-- The first mismatch of a join request with the proposer's values. -/
def State.joinResult (s : State) (f : FdlFrame) : Nat :=
  let w := (wordsOf f)
  let m := bits (w.getD 2 0) 0 3
  if w.getD 0 0 ≠ s.frameTicks then 1
  else if w.getD 1 0 ≠ s.cycleFrames then 2
  else if ! s.modeValid m ∨ w.getD 3 0 ≠ s.rd (Reg.FDL_Mm_IDL m) ∨ w.getD 4 0 ≠ s.rd (Reg.FDL_Mm_IDH m) then 3
  else if ! s.admitsId m (idOf f) then 4
  else if w.getD 5 0 ≠ s.rd Reg.SYS_ID_REV + s.rd Reg.SYS_ID_VARIANT * 2 ^ 8 + s.rd Reg.SYS_ID_DEVCLASS * 2 ^ 16 then 5
  else 0

/-- JOIN_REQUEST (R345): the payload is accepted as in any slot (R324); the proposer records the request and its
comparison. -/
def execJoinRequest (f : FdlFrame) (s : State) : Out :=
  if ! s.live pdNET then .next s else
  done (receive kJOIN f (fun s =>
    let s := payload1 f s
    if f.null || ! s.iPropose then s
    else
      let r := s.joinResult f
      let s := (s.wr Reg.FDL_JOIN_NODE f.node.val).wr Reg.FDL_JOIN_STAR f.star.val
      let s := (s.wr Reg.FDL_JOIN_TMODE (bits ((wordsOf f).getD 2 0) 0 3)).wr Reg.FDL_JOIN_RESULT r
      let s := s.put Reg.FDL_JOIN_NEW true
      if r = 0 then raiseIrq 133 s else raiseDev Fc.JOIN_REFUSED s) s)

/-! ### Sending (R321, R323) -/

/-- Ticks a frame of n payload words lasts (R315). -/
def txTicks (n : Nat) : Nat := ceilDiv ((4 * n + 22) * 128) 10

/-- This node is the sender of slot i of the mode in use, in its present sync state (R320, R338, R339, R346). -/
def State.sends (s : State) (i : Nat) : Bool :=
  let m := s.netMode
  let k := s.slotKind m i
  let own := decide (s.slotNode m i = s.node ∧ s.slotStar m i = s.star)
  let admitted := s.admitsId m s.nodeId
  let mine := if k = kCOMMAND then s.node = 0 else (k = kSTATUS || k = kDATA || k = kPEER) && own
  decide (i < s.nslot m) && s.modeValid m && s.dev.state ≠ .replay &&
    ((s.sstate = ssCOLDSTART && mine) ||
      (s.sstate = ssSYNC && ((admitted && mine) || (! admitted && decide (k = kJOIN)))))

/-- The ports a frame of slot i leaves by (R320): a manager's COMMAND in its own star only. -/
def State.txPorts (s : State) (i : Nat) : List Nat :=
  let m := s.netMode
  let k := s.slotKind m i
  let up := (List.range 6).filter fun p => s.pstate p = psUP || s.pstate p = psISOLATED
  up.filter fun p =>
    match s.netRole with
    | 2 =>
      if k = kPEER then s.pclass p = 3
      else s.pclass p = 2 || (s.pclass p = 3 && s.slotSync m i && decide (k ≠ kCOMMAND))
    | 1 => s.pclass p = 1 || s.pclass p = 2
    | _ => s.pclass p = 1

/-- CT in eighths of a tick at which port p starts the frame of slot i (R321): AP − DLY, at a coupler AP + HOP − DLY. -/
def State.startOn (s : State) (i p : Nat) : Nat :=
  8 * s.cycleStart + s.ap8 i + (if s.netRole = 0 then 0 else 1280) - s.rd (Reg.FDL_Pp_STAT_DLY p)

/-- CT in ticks at which the first of its ports starts the frame. -/
def State.txAt (s : State) (i : Nat) : Nat :=
  let ts := (s.txPorts i).map (s.startOn i)
  ts.foldl min (ts.headD 0) / 8

/-- Words 0 and 1 of a status payload (R323). -/
def State.statusWords (s : State) : List Nat :=
  [(if s.seam.claims = [] then 0 else s.seam.accClaim) + s.wclaim * 2 ^ 8 + s.dev.state.code * 2 ^ 16 +
    s.rd Reg.FDL_STAT_LEAVE * 2 ^ 19 + b2n (s.holdsClass .s) * 2 ^ 20 + b2n (s.holdsClass .m) * 2 ^ 21,
    (List.range 8).foldl (fun v n => v + s.ax n * 8 ^ n) 0]

/-- The buffer of slot i is full and was filled at least 200 ticks before START (R323). -/
def State.txReady (s : State) (i : Nat) : Option (List Nat) :=
  match SMap.get none s.fdl.tx i with
  | some b => if b.at' + 200 ≤ s.cycleStart + s.slotStart s.netMode i then some b.words else none
  | none => none

/-- The join request of a node that is not admitted (R345). -/
def State.joinWords (s : State) : List Nat :=
  let m := s.rd Reg.FDL_MODE_PROP_MODE
  [s.frameTicks, s.cycleFrames, m, s.rd (Reg.FDL_Mm_IDL m), s.rd (Reg.FDL_Mm_IDH m),
    s.rd Reg.SYS_ID_REV + s.rd Reg.SYS_ID_VARIANT * 2 ^ 8 + s.rd Reg.SYS_ID_DEVCLASS * 2 ^ 16]

/-- The payload slot i sends now; none for a null frame. -/
def State.txPayload (s : State) (i : Nat) : Option (List Nat) :=
  let m := s.netMode
  let k := s.slotKind m i
  if k = kJOIN then some s.joinWords
  else if k = kPEER then (if s.seam.p1Done && s.seam.lastTx ≠ [] then some s.seam.lastTx else none)
  else (s.txReady i).map fun ws =>
    let ws := padTo (s.slotLenw m i) ws
    if k = kSTATUS then s.statusWords ++ ws.drop 2 else ws

/-- H5 to H7 (R315, R340): proposal, readiness, commit. A join request carries PV and CV at 0 and readiness for the mode it
asks for (R345). -/
def State.h5 (s : State) : Nat :=
  match s.fdl.prop with
  | some p => if s.iPropose then 0x80 + p.mode else 0
  | none => 0
def State.h6 (s : State) (join : Bool) : Nat :=
  if join then
    let m := s.rd Reg.FDL_MODE_PROP_MODE
    if s.modeValid m then 0x80 + m else 0
  else match s.fdl.heardProp with
    | some m => if s.modeValid m && s.sstate = ssSYNC then 0x80 + m else 0
    | none => 0
def State.h7 (s : State) : Nat :=
  match s.fdl.prop, s.fdl.heardCommit with
  | some p, _ => if p.commit && s.iPropose then 0x80 + p.mode else 0
  | none, some m => if s.node = 0 then 0x80 + m else 0
  | none, none => 0

/-- A frame with PV or CV has been sent by the proposer: readiness is gathered from the next cycle; the proposer has agreed
when the commit left in time (R340). -/
def sentFields (s : State) : State :=
  match s.fdl.prop with
  | none => s
  | some p =>
    if ! s.iPropose then s
    else
      let s := setFdl { s.fdl with prop := some { p with sent := true } } s
      s.when (p.commit && s.beforeAgree) (agree p.mode)

/-- SLOT_TRANSMIT (R321, R323): the frame of slot i leaves at its instant, once in a cycle; past that instant nothing is sent. -/
def execSlotTransmit (i : Fin 64) (s : State) : Out :=
  if ! s.live pdNET then .next s else
  let at' := s.txAt i
  let again := match s.fdl.sent with
    | some f => decide (f.slot = i.val ∧ f.cn = s.cn48)
    | none => false
  if ! s.sends i || decide (s.txPorts i = []) || decide (s.frameEnd ≤ at' ∨ at' < s.ctTicks) || again then .next s
  else
    let s := reach at' s
    let join := decide (s.slotKind s.netMode i = kJOIN)
    let pay := s.txPayload i
    let full := (SMap.get none s.fdl.tx i).isSome
    let buffered := ! join && decide (s.slotKind s.netMode i ≠ kPEER)
    let f : FdlSent := { slot := i, node := s.node, star := s.star, mode := s.netMode, claim := s.claim,
                         h5 := if join then 0 else s.h5, h6 := s.h6 join, h7 := if join then 0 else s.h7, cn := s.cn48,
                         payload := pay, ports := s.txPorts i, starts := (s.txPorts i).map (s.startOn i),
                         hops := if s.netRole = 0 then 0 else 1 }
    let s := setFdl { s.fdl with sent := some f } s
    let s := s.when (buffered && pay.isSome) fun s => setFdl { s.fdl with tx := SMap.set none s.fdl.tx i none } s
    let s := s.when (! join) sentFields
    done (s.when (buffered && full && pay.isNone) (raiseDev Fc.TX_LATE))

/-- The characters of a frame as it is sent (R315): K27.7, HOPS twice, the body, its CRC-32, K29.7; `true` marks a control
character. -/
def fdlChars (f : FdlSent) : List (Bool × Nat) :=
  let body := fdlBody f.slot f.node f.star f.mode f.payload.isNone f.claim f.h5 f.h6 f.h7 f.cn (f.payload.getD [])
  (true, 0xFB) :: (f.hops :: f.hops :: body ++ (wordBytes (crc32 body)).reverse).map (Prod.mk false) ++ [(true, 0xFD)]

/-- EXCHANGE with DIR = 0 fills the transmit buffer of slot i; the copy ends at CT `at'` (R67, R323). -/
def fillSlot (i at' : Nat) (ws : List Nat) (s : State) : State :=
  setFdl { s.fdl with tx := SMap.set none s.fdl.tx i (some { words := ws, at' := at' }) } s

/-- The payload of slot i accepted in this cycle (R67). -/
def State.slotPayload (s : State) (i : Nat) : Option (List Nat) := (s.rxNow i).map RxBuf.words

/-! ### Star couplers (R326 to R330) -/

/-- The slot's sender is reachable through port p (R327): in a COMMAND slot a manager; a JOIN slot is open for one port
(R345). -/
def State.reachable (s : State) (p i : Nat) : Bool :=
  let m := s.netMode
  let n := s.slotNode m i
  if s.slotKind m i = kJOIN then s.fdl.joinPort = p
  else if s.slotKind m i = kCOMMAND then decide (s.rd (Reg.FDL_Pp_MASKM p) ≠ 0)
  else if n = 0 ∧ s.slotStar m i ≠ 0 then s.bit (Reg.FDL_Pp_MASKM p) (s.slotStar m i - 1)
  else if n < 32 then s.bit (Reg.FDL_Pp_MASK_L p) n else s.bit (Reg.FDL_Pp_MASK_H p) (n - 32)

/-- This device relays: a coupler in SYNC or COLDSTART (R326, R336). -/
def State.relays (s : State) : Bool :=
  decide (s.netRole ≠ 0) && (s.sstate = ssSYNC || s.sstate = ssCOLDSTART) && s.modeValid s.netMode && s.dev.state ≠ .replay

/-- EDGE counts of a sender in the last 16 cycles (R329). -/
def NodeSt.edgeCount (x : NodeSt) : Nat := (((x.edge :: x.edges).take 16).filter id).length

/-- A relayed frame counts as EDGE (R329); EDGE_N of 16 cycles raise SYNC_MARGIN. -/
def edgeAt (p id : Nat) (s : State) : State :=
  let s := s.inc (Reg.FDL_Pp_MON_EDGE p)
  let x := s.nd id
  if x.edge then s
  else
    let x := { x with edge := true }
    let s := setNd id x s
    if x.edgeCount < s.rd Reg.FDL_CFG2_EDGE_N then s
    else raiseDev Fc.SYNC_MARGIN ((s.wr Reg.FDL_MARGIN_NODE (id % 64)).wr Reg.FDL_MARGIN_STAR (id / 64))

/-- A star port delivers a frame outside its windows: it babbles in this cycle (R330). -/
def babble (p : Nat) (s : State) : State := setPt p { s.pt p with babble := true, quiet := 0 } s

/-- E of port p for slot i, in eighths of a tick after the cycle boundary (R327). -/
def State.expected8 (s : State) (p i : Nat) : Nat := s.ap8 i + 1280 * s.rd (Reg.FDL_Pp_CFG_HOPX p)

/-- H0, H1 and H3 are those of slot i (R328): its number, a sender that it permits, its length or the 0 of a null frame. -/
def State.headerOk (s : State) (i h0 h1 h3 : Nat) : Bool :=
  let m := s.netMode
  let k := s.slotKind m i
  decide (h0 = i) && (decide (h3 = s.slotLenw m i) || decide (h3 = 0)) &&
    if k = kCOMMAND then decide (h1 % 64 = 0)
    else if k = kJOIN then ! s.admitsId m h1
    else decide (h1 = s.slotStar m i * 64 + s.slotNode m i)

/-- The output ports of a frame that arrives on port p (R326): every other star port and, from a star port, the uplinks. -/
def State.relayPorts (s : State) (p : Nat) : List Nat :=
  (List.range 6).filter fun q => decide (q ≠ p) && (s.pstate q = psUP || s.pstate q = psISOLATED) &&
    (s.pclass q = 2 || (s.pclass p = 2 && s.pclass q = 1))

/-- The relayed frame of slot i that reached this coupler by port p at CT t, in eighths: it starts on q at t + HOP − DLY of
q, with HOPS one higher (R321). -/
def State.relayOf (s : State) (p i hops t : Nat) : Relayed :=
  { slot := i, src := p, hops := hops + 1
    outs := (s.relayPorts p).map fun q => (q, t + 1280 - s.rd (Reg.FDL_Pp_STAT_DLY q)) }

/-- The frame of slot i arrives at port p. -/
def arrive (p i : Nat) (s : State) : State := setPt p { s.pt p with relay := some i } s

/-- A coupler begins to relay a frame; one whose header differs from its slot is cut off at once (R328). -/
def startRelay (p i hops h0 h1 h3 sof : Nat) (s : State) : State :=
  let r := s.relayOf p i hops (8 * s.cycleStart + sof)
  let s := arrive p i s
  if s.headerOk i h0 h1 h3 then setFdl { s.fdl with relayed := some r } s
  else
    raiseDev Fc.SENDER_MISMATCH
      ((setFdl { s.fdl with relayed := some { r with cut := true } } s).inc (Reg.FDL_Pp_CNT_TRUNC p))

/-- FRAME_RELAY (R326 to R329): a frame of slot i arrives on port p with these header characters, its SOF at `sof` eighths
of a tick of CT after the cycle boundary. A COMMAND frame of another star is never relayed: none from a star port, and from
an uplink only those of the manager whose frames that uplink brings. -/
def execFrameRelay (p : Fin 6) (i : Fin 64) (hops h0 h1 h3 : BitVec 8) (sof : Nat) (s : State) : Out :=
  if ! s.live pdNET then .next s else
  let m := s.netMode
  let g : Int := 8 * s.guardT m
  let e : Int := sof - (s.expected8 p i : Int)
  let live := s.pstate p = psUP || s.pstate p = psISOLATED
  let command := decide (s.slotKind m i = kCOMMAND)
  let start := startRelay p i (hops.toNat % 8) h0.toNat h1.toNat h3.toNat sof
  if ! (s.relays && live) then .next s
  else if s.pclass p = 1 then
    let star := h1.toNat / 64
    if s.netRole ≠ 1 then .next s
    else if ! command then done (start s)
    else if (s.pt p).star.any fun c => c ≠ star then .next s
    else done (start (setPt p { s.pt p with star := some star } s))
  else if s.pclass p ≠ 2 then .next s
  else if ! s.reachable p i || decide (e < -g ∨ g + 8 * txTicks (s.slotLenw m i) < e) then done (babble p s)
  else if s.pstate p = psISOLATED || command then done (arrive p i s)
  else
    let s := start s
    done (s.when (s.headerOk i h0.toNat h1.toNat h3.toNat && decide (g < 2 * (e.natAbs : Int) ∧ (e.natAbs : Int) ≤ g))
      (edgeAt p h1.toNat))

/-- CT in ticks at which the window of slot i closes at port p: E + TX + GUARD (R327). -/
def State.windowEnd (s : State) (p i : Nat) : Nat :=
  s.cycleStart + s.expected8 p i / 8 + txTicks (s.slotLenw s.netMode i) + s.guardT s.netMode

/-- WINDOW_CLOSE (R327): the window closes on a frame still arriving; the relayed frame ends in K30.7, and what arrives from
then on is babbling (R330). -/
def execWindowClose (p : Fin 6) (s : State) : Out :=
  if ! s.live pdNET then .next s else
  let x := s.pt p
  match x.relay with
  | none => .next s
  | some i =>
    if s.pclass p ≠ 2 || decide (s.frameEnd ≤ s.windowEnd p i) then .next s
    else
      let s := babble p (setPt p { x with relay := none } (reach (s.windowEnd p i) s))
      match s.fdl.relayed with
      | none => done s
      | some r =>
        if r.src ≠ p.val ∨ r.slot ≠ i ∨ r.cut then done s
        else done ((setFdl { s.fdl with relayed := some { r with cut := true } } s).inc (Reg.FDL_Pp_CNT_TRUNC p))

/-- PORT_ISOLATED (R330): BAB_N consecutive cycles with babbling. -/
def execPortIsolated (p : Fin 6) (s : State) : Out :=
  if ! s.live pdNET then .next s else
  if s.relays && s.pclass p = 2 && s.pstate p = psUP && decide (s.rd Reg.FDL_CFG2_BAB_N ≤ (s.pt p).run) then
    let s := raiseIrq 138 (s.wr (Reg.FDL_Pp_STAT_STATE p) psISOLATED)
    done (raiseDev Fc.PORT_ISOLATED s)
  else .next s

/-- REOPEN (R330): isolation ends if the port has not babbled in the last 16 cycles. -/
def reopen (p : Nat) (s : State) : State :=
  let x := s.pt p
  if s.pstate p = psISOLATED && ! x.babble && decide (16 ≤ x.quiet) then
    raiseIrq 138 ((setPt p { x with run := 0 } s).wr (Reg.FDL_Pp_STAT_STATE p) psUP)
  else s

def execReopen (p : Fin 6) (s : State) : Out :=
  if ! s.live pdNET then .next s else
  done (reopen p s)

/-! ### Links (R312, R314) -/

/-- FDL_LINK_UP (R312): 64 valid characters with the delay measured. -/
def execFdlLinkUp (p : Fin 6) (s : State) : Out :=
  if ! s.live pdNET then .next s else
  if decide (s.pclass p ≠ 0) && (s.pt p).measured && (s.pstate p = psDOWN || s.pstate p = psMEASURING) then
    done (raiseIrq 138 (s.wr (Reg.FDL_Pp_STAT_STATE p) psUP))
  else .next s

/-- LINK_DOWN (R312): no valid character for 400 ns. -/
def execLinkDown (p : Fin 6) (s : State) : Out :=
  if ! s.live pdNET then .next s else
  if s.pclass p = 0 ∨ s.pstate p = psDOWN then .next s
  else
    let x := s.pt p
    let s := setPt p { x with measured := false, newDly := none, relay := none, star := none } (s.wr (Reg.FDL_Pp_STAT_STATE p) psDOWN)
    done (raiseDev Fc.LINK_DOWN (raiseIrq 138 s))

/-- DLY of eight echo exchanges (R314): half the shortest round trip less the far end's turnaround, rounded up, in eighths
of a tick. -/
def linkDelay (trips : List Nat) (turn : Nat) : Nat :=
  let best := trips.foldl min (trips.headD 0)
  min (ceilDiv (best - turn) 2) 1023

/-- LINK_DELAY_MEASUREMENT (R314): round trips and the far end's turnaround in eighths of a tick, at link-up, and on a port
that is up while a measurement runs: every 256 cycles and after REMEASURE. -/
def execLinkDelayMeasurement (p : Fin 6) (trips : List (BitVec 16)) (turn : BitVec 16) (s : State) : Out :=
  if ! s.live pdNET then .next s else
  let up := s.pstate p = psUP || s.pstate p = psISOLATED
  if s.pclass p = 0 || decide (trips = []) || (up && ! (s.pt p).measuring) then .next s
  else
    let d := linkDelay (trips.map BitVec.toNat) turn.toNat
    let x := { s.pt p with measuring := false, cycles := 0 }
    let late := raiseDev Fc.LINK_DELAY
    if up then
      let old := s.rd (Reg.FDL_Pp_STAT_DLY p)
      let s := setPt p { x with newDly := some d } s
      done (s.when (decide (640 < d ∨ old + 8 < d ∨ d + 8 < old)) late)
    else
      let up := decide (s.pstate p = psDOWN)
      let s := setPt p { x with measured := decide (d ≤ 640) } s
      let s := (s.wr (Reg.FDL_Pp_STAT_DLY p) d).wr (Reg.FDL_Pp_STAT_STATE p) psMEASURING
      let s := s.when up (raiseIrq 138)
      done (s.when (decide (640 < d)) late)

/-- REMEASURE (R314): a write starts a measurement. -/
def remeasure (p : Nat) (s : State) : State := if s.pclass p = 0 then s else setPt p { s.pt p with measuring := true } s

def execRemeasure (p : Fin 6) (s : State) : Out :=
  if ! s.live pdNET then .next s else
  done (remeasure p s)

end Sys2Proof.Machine
end

