-- ==== Sys2Proof/Machine/FdlSync.lean ====
section
/-! DEFINITION. Fudorlink's clock synchronisation, sync states, mode agreement, joining and leaving, the checks of a mode
region, and what a cycle boundary does to the unit (R325, R332 to R346). -/
namespace Sys2Proof.Machine

/-! ### Clock synchronisation (R332, R333) -/

/-- A list without repeats, first occurrences kept. -/
def dedupNat (l : List Nat) : List Nat := l.foldl (fun r x => if r.contains x then r else r ++ [x]) []

/-- STAR × 64 + NODE of the sender that slot i names. -/
def State.slotId (s : State) (m i : Nat) : Nat := s.slotStar m i * 64 + s.slotNode m i

/-- The managers of mode m: those of ADMIT_MGR, or the one of a simplex cluster. -/
def State.mgrIds (s : State) (m : Nat) : List Nat :=
  if s.regionWord m 4 % 8 = 0 then [0] else ([1, 2, 3].filter fun c => s.admitsMgr m c).map fun c => c * 64

/-- The senders of slot i: in a COMMAND slot the managers, whatever NODE and STAR say (R320). -/
def State.slotIds (s : State) (m i : Nat) : List Nat :=
  if s.slotKind m i = kCOMMAND then s.mgrIds m else [s.slotId m i]

/-- The sync nodes of mode m, in slot order (R332). -/
def State.syncNodes (s : State) (m : Nat) : List Nat :=
  dedupNat (((List.range (s.nslot m)).filter fun i => s.slotSync m i).flatMap fun i => s.slotIds m i)

/-- The instant by which slot i must be over (R322), in ticks of the cycle. -/
def State.slotEnd (s : State) (m i : Nat) : Nat :=
  s.slotStart m i + 2 * s.guardT m + txTicks (s.slotLenw m i) + s.hmax m * 160

/-- The end of the last SYNC slot of a cycle (R333), in ticks of the cycle. -/
def State.syncEnd (s : State) (m : Nat) : Nat :=
  ((List.range (s.nslot m)).filter fun i => s.slotSync m i).foldl (fun v i => max v (s.slotEnd m i)) 0

/-- The deviation of sync node id in this cycle, in eighths of a tick; this node's own counts as 0. -/
def State.devOf (s : State) (id : Nat) : Option Int :=
  if id = s.nodeId then some 0 else SMap.get none s.fdl.devs id

/-- Insertion into a list sorted by deviation. -/
def insertDev (x : Int × Nat) : List (Int × Nat) → List (Int × Nat)
  | [] => [x]
  | y :: ys => if x.1 ≤ y.1 then x :: y :: ys else y :: insertDev x ys

/-- The deviations of the cycle with their sync node, sorted, without the largest and the smallest of four or more
(R333). -/
def keptDevs (ms : List (Int × Nat)) : List (Int × Nat) :=
  let l := ms.foldl (fun r x => insertDev x r) []
  if 4 ≤ l.length then l.tail.dropLast else l

/-- off of R333 in units of 2^−32 tick: the mean of deviations in eighths, rounded half up. -/
def syncOff (ds : List Int) : Int :=
  let n : Int := ds.length
  (2 * (ds.foldl (· + ·) 0 * 2 ^ 29) + n) / (2 * n)

/-- adj of R333. -/
def syncAdj (off rem : Int) (cl k : Nat) : Int :=
  let d : Int := (cl * 2 ^ k : Nat)
  (2 * (off + rem) + d) / (2 * d)

/-- FDL_DEVj (R333, R351): deviation j of the cycle, measured and kept. -/
def showDev (kept : List (Int × Nat)) (j id : Nat) (s : State) : State :=
  let d := s.devOf id
  let s := (s.wr (Reg.FDL_DEVj_NODE j) (id % 64)).wr (Reg.FDL_DEVj_STAR j) (id / 64)
  let s := (s.wr (Reg.FDL_DEVj_DEV j) (trunc 22 (d.getD 0))).put (Reg.FDL_DEVj_VALID j) d.isSome
  s.put (Reg.FDL_DEVj_USED j) (kept.any fun x => x.2 = id)

/-- FDL_DEVj without a sync node. -/
def clearDev (j : Nat) (s : State) : State :=
  let s := (s.wr (Reg.FDL_DEVj_NODE j) 0).wr (Reg.FDL_DEVj_STAR j) 0
  ((s.wr (Reg.FDL_DEVj_DEV j) 0).put (Reg.FDL_DEVj_VALID j) false).put (Reg.FDL_DEVj_USED j) false

/-- SYNC_COMPUTATION (R333), after the last SYNC slot of the cycle. -/
def execSyncComputation (s : State) : Out :=
  if ! s.live pdNET then .next s else
  let at' := s.cycleStart + s.syncEnd s.netMode
  if ! (s.sstate = ssINTEGRATE || s.sstate = ssSYNC || s.sstate = ssCOLDSTART) || s.fdl.computed ||
      ! s.modeValid s.netMode || decide (s.frameEnd ≤ at') then .next s
  else
    let s := reach at' s
    let ids := (s.syncNodes s.netMode).take 8
    let kept := keptDevs (ids.filterMap fun id => (s.devOf id).map fun d => (d, id))
    let s := setFdl { s.fdl with computed := true } s
    let s := (List.range 8).foldl
      (fun s j => if j < ids.length then showDev kept j (ids.getD j 0) s else clearDev j s) s
    if kept = [] then
      done (raiseIrq 128 ((setFdl { s.fdl with misses := s.fdl.misses + 1, good := 0 } s).wr Reg.FDL_STAT_NSYNC 0))
    else
      let off := syncOff (kept.map Prod.fst)
      let k := if s.sstate = ssINTEGRATE then 0 else s.rd Reg.FDL_CFG_RSH
      let adj := syncAdj off s.time.rem s.cycleTicks k
      let s := (s.wr Reg.FDL_OFS (trunc 32 (off / 2 ^ 24))).wr Reg.FDL_RADJ (trunc 32 adj)
      let s := s.wr Reg.FDL_STAT_NSYNC kept.length
      let req := trunc 64 (-off)
      let s := (s.wr Reg.TIME_OFS_REQ_F (req % 2 ^ 32)).wr Reg.TIME_OFS_REQ_I (req / 2 ^ 32)
      let s := { s with time := { s.time with ofsArmed := true } }
      let s := s.wr Reg.TIME_RATE_REQ (trunc 32 (s.rate - adj))
      let x := s.fdl
      let miss := s.sstate = ssSYNC && decide (s.rd Reg.FDL_CFG_LOSS_TH * 2 ^ 32 < off.natAbs)
      let near := decide (off.natAbs ≤ s.rd Reg.FDL_CFG_SYNC_TH * 2 ^ 32)
      let s := setFdl { x with misses := if miss then x.misses + 1 else 0, good := if near then x.good + 1 else 0 } s
      done (raiseIrq 128 s)

/-- LOST (R336): the node stops sending and relaying, SYNC_LOST is raised, every axis out of DISABLED goes to SAFE. -/
def enterLost (s : State) : State := fdlSafe (raiseDev Fc.SYNC_LOST (setSs ssLOST s))

/-- SYNC_LOST (R336): misses reach LOSS_CYC, or the timebase runs on the RC backup. -/
def execSyncLost (s : State) : Out :=
  if ! s.live pdNET then .next s else
  if s.sstate = ssSYNC && (decide (s.rd Reg.FDL_CFG_LOSS_CYC + 1 ≤ s.fdl.misses) || s.on Reg.TIME_STAT_ON_RC) then
    done (enterLost s)
  else .next s

/-- The timebase runs from the RC backup (R42): source 216; a node in SYNC is LOST at once (R336). -/
def onRc (s : State) : State :=
  if s.on Reg.TIME_STAT_ON_RC then s
  else
    let s := irq 216 (s.put Reg.TIME_STAT_ON_RC true)
    s.when (s.live pdNET && s.sstate = ssSYNC) enterLost

/-- OSC_FALLBACK (R42): the reference fails a guard and the timebase moves to the RC backup until the next reset. -/
def execOscFallback (s : State) : Out :=
  if s.on Reg.TIME_STAT_ON_RC then .next s
  else
    let s := { s.put Reg.TIME_STAT_REF_OK false with time := { s.time with fell := true } }
    done (onRc (raiseDev Fc.OSC_FALLBACK s))

/-- The node enters SYNC; it is admitted if the mode in use admits it (R338). -/
def enterSync (s : State) : State := setAdmitted (s.admitsId s.netMode s.nodeId) (setSs ssSYNC s)

/-- INTEGRATE_TO_SYNC (R338): four consecutive cycles within SYNC_TH. -/
def execIntegrateToSync (s : State) : Out :=
  if ! s.live pdNET then .next s else
  if s.sstate = ssINTEGRATE && decide (4 ≤ s.fdl.good) then done (enterSync s) else .next s

/-- COLDSTART (R339): no sync frame for COLD_CYC cycles in LISTEN. -/
def execColdstart (s : State) : Out :=
  if ! s.live pdNET then .next s else
  if s.sstate = ssLISTEN && s.on Reg.FDL_CTRL_COLDSTART && ! s.on Reg.ANV_STAT_RUNNING && s.modeValid s.netMode &&
      (s.syncNodes s.netMode).contains s.nodeId && decide (s.rd Reg.FDL_CFG2_COLD_CYC ≤ s.fdl.cold) then
    done (setSs ssCOLDSTART (setFdl { s.fdl with coldCyc := 0, misses := 0 } s))
  else .next s

/-- COLDSTART_TO_SYNC (R339): after one cycle. -/
def execColdstartToSync (s : State) : Out :=
  if ! s.live pdNET then .next s else
  if s.sstate = ssCOLDSTART && decide (1 ≤ s.fdl.coldCyc) then done (enterSync s) else .next s

/-! ### Mode agreement (R340 to R342) -/

/-- A proposal is refused or dropped (R340). -/
def modeRefused (s : State) : State := raiseDev Fc.MODE_REFUSED s

/-- The proposal of this device ends without a commit. -/
def dropProposal (s : State) : State :=
  modeRefused ((setFdl { s.fdl with prop := none } s).put Reg.FDL_STAT_PEND false)

/-- A mode switch is armed: latched by a MODE entry, agreed, or in its commit cycle. -/
def State.switchArmed (s : State) : Bool :=
  s.on Reg.ANV_STAT_ARMED || s.fdl.agreed.isSome ||
    (match s.fdl.prop with
      | some p => p.commit
      | none => false)

/-- A write of PROP = 1 (R340). -/
def propose (s : State) : State :=
  let m := s.rd Reg.FDL_MODE_PROP_MODE
  if ! s.iPropose || s.on Reg.ANV_CTRL_STANDALONE || ! s.modeValid m ||
      (s.on Reg.ANV_STAT_RUNNING && s.rd Reg.ANV_STAT_MODE = m) || s.switchArmed then modeRefused s
  else ((setFdl { s.fdl with prop := some { mode := m } } s).put Reg.FDL_STAT_PEND true).wr Reg.FDL_STAT_PMODE m

/-- A write of CANCEL = 1 drops a proposal before its commit cycle (R340). -/
def cancelProposal (s : State) : State :=
  match s.fdl.prop with
  | some p => if p.commit then s else (setFdl { s.fdl with prop := none } s).put Reg.FDL_STAT_PEND false
  | none => s

/-- PROP (R340): a write of FDL_MODE_PROP with PROP set. -/
def execProp (m : Fin 8) (s : State) : Out :=
  if ! s.live pdNET then .next s else
  done (propose (s.wr Reg.FDL_MODE_PROP_MODE m))

/-- CANCEL (R340). -/
def execCancel (s : State) : Out :=
  if ! s.live pdNET then .next s else
  done (cancelProposal s)

/-- PROPOSAL_TIMEOUT (R340): no commit within PROP_TOUT cycles. -/
def execProposalTimeout (s : State) : Out :=
  if ! s.live pdNET then .next s else
  match s.fdl.prop with
  | some p =>
    if ! p.commit ∧ s.rd Reg.FDL_CFG2_PROP_TOUT ≤ p.cycles then done (dropProposal s) else .next s
  | none => .next s

/-- MODE_SPLIT (R341): a whole cycle of the proposer's frames without this node's mode. -/
def execModeSplit (s : State) : Out :=
  if ! s.live pdNET then .next s else
  if s.fdl.splitDue && s.sstate = ssSYNC then
    done (enterLost (raiseDev Fc.MODE_SPLIT (setFdl { s.fdl with splitDue := false } s)))
  else .next s

/-- The nodes whose readiness a switch to mode m needs, this device apart (R340). -/
def State.needed (s : State) (m : Nat) : List Nat :=
  ((List.range 64).filter fun n => s.admits m n && decide (n ≠ s.nodeId)) ++
    (([1, 2, 3].filter fun c => s.admitsMgr m c && decide (c * 64 ≠ s.nodeId)).map fun c => c * 64)

/-- The proposal at a cycle boundary (R340, R342): the commit cycle ends or begins, the proposer's standing is checked. -/
def proposalTick (s : State) : State :=
  match s.fdl.prop with
  | none => s
  | some p =>
    if p.commit then (setFdl { s.fdl with prop := none } s).put Reg.FDL_STAT_PEND false
    else if ! s.iPropose then dropProposal s
    else
      let go := p.gather && s.modeValid p.mode && (s.needed p.mode).all fun id => p.ready.contains id
      let s := setFdl { s.fdl with prop := some { p with gather := p.sent, cycles := p.cycles + 1, commit := go } } s
      s.when go (raiseIrq 130)

/-! ### Nodes and guards at work (R343, R344, R346) -/

/-- The nodes whose frames this node expects: admitted senders of named slots, and for a worker the admitted managers of
its command slots. -/
def State.expected (s : State) : List Nat :=
  let m := s.netMode
  let named := (List.range (s.nslot m)).filter fun i =>
    s.slotKind m i = kSTATUS || s.slotKind m i = kDATA || s.slotKind m i = kPEER
  let mgrs := if s.node ≠ 0 ∧ s.slotsOf m kCOMMAND ≠ [] then s.mgrIds m else []
  (dedupNat ((named.map fun i => s.slotId m i) ++ mgrs)).filter fun id => s.admitsId m id && decide (id ≠ s.nodeId)

/-- A lost node is not ready for the proposal of this device until it says so again (R340, R342). -/
def unready (id : Nat) (s : State) : State :=
  match s.fdl.prop with
  | some p => setFdl { s.fdl with prop := some { p with ready := p.ready.filter fun i => i ≠ id } } s
  | none => s

/-- NODE_LOST (R343): an expected node silent for LOSS_CYC cycles. -/
def execNodeLost (star : Fin 4) (node : Fin 64) (s : State) : Out :=
  if ! s.live pdNET then .next s else
  let id := star.val * 64 + node.val
  let b := lostBit id
  if s.sstate = ssSYNC && s.expected.contains id && decide (s.rd Reg.FDL_CFG_LOSS_CYC + 1 ≤ (s.nd id).silent) &&
      ! s.bit b.1 b.2 then
    done (raiseDev Fc.NODE_LOST (unready id (s.wrBit b.1 b.2 true)))
  else .next s

/-- PAYLOAD_GUARD_TIMEOUT (R344): no accepted payload in a guarded slot for TIMEOUT cycles, raised once until the next
accepted payload. -/
def execPayloadGuardTimeout (i : Fin 64) (s : State) : Out :=
  if ! s.live pdNET then .next s else
  let m := s.netMode
  let t := bits (s.grecW m (s.slotGrec m i) 0) 0 4
  if s.modeValid m && decide (i < s.nslot m) && s.slotGen m i && decide (t ≠ 0 ∧ t ≤ SMap.get 0 s.fdl.gWait i) &&
      ! SMap.get false s.fdl.gUp i then
    done (guardFault m i (setFdl { s.fdl with gUp := SMap.set false s.fdl.gUp i true } s))
  else .next s

/-- LEAVE in the status word once every axis is SAFE or DISABLED (R346). -/
def leaveTick (s : State) : State :=
  if s.fdl.leaving && ! s.on Reg.FDL_STAT_LEAVE && s.allAxes [axDISABLED, axSAFE] then
    raiseIrq 136 (s.put Reg.FDL_STAT_LEAVE true)
  else s

/-- A write of LEAVE (R346). -/
def leaveReq (s : State) : State :=
  leaveTick (fdlSafe (raiseDev Fc.LEAVE_REQ (setFdl { s.fdl with leaving := true } s)))

def execLeave (s : State) : Out :=
  if ! s.live pdNET then .next s else
  done (leaveReq s)

/-! ### The cycle boundary -/

/-- A mode has taken effect on a node of the cluster (R345, R346): one in SYNC is admitted as its ADMIT says; one that is
absent from it is not, in any sync state. -/
def admission (s : State) : State :=
  let a := s.admitsId s.netMode s.nodeId
  if s.sstate = ssOFF then s
  else if a then s.when (s.sstate = ssSYNC) (setAdmitted true)
  else
    let s := setAdmitted false s
    s.when (! s.on Reg.FDL_STAT_LEAVE) fun s => fdlSafe (raiseDev Fc.NOT_ADMITTED s)

/-- A node's record at the end of a cycle; `loss` is LOSS_CYC. -/
def nodeTick (loss : Nat) (x : NodeSt) : NodeSt :=
  let silent := if x.heard then 0 else x.silent + 1
  { heard := false, known := x.known && decide (silent < loss), silent := silent, claim := x.claim, left := x.left - 1,
    acc := none, edge := false, edges := (x.edge :: x.edges).take 15 }

/-- A port at the end of a cycle (R314, R330): a new delay takes effect, babbling is counted. -/
def portTick (p : Nat) (s : State) : State :=
  let x := s.pt p
  let s := match x.newDly with
    | some d => s.wr (Reg.FDL_Pp_STAT_DLY p) d
    | none => s
  let s := s.when x.babble (·.inc (Reg.FDL_Pp_MON_BABBLE p))
  setPt p { x with newDly := none, cycles := x.cycles + 1, babble := false, relay := none,
                   measuring := x.measuring || decide (256 ≤ x.cycles + 1),
                   run := if x.babble then x.run + 1 else 0, quiet := if x.babble then 0 else x.quiet + 1 } s

/-- The next star port, ascending, that the JOIN slot is opened for (R345). -/
def State.nextJoin (s : State) : Nat :=
  let ps := s.portsOf 2
  (ps.find? fun p => s.fdl.joinPort < p).getD (ps.headD 0)

/-- Cycles without an accepted payload, per guarded slot (R344). -/
def guardWaits (s : State) : State :=
  let m := s.netMode
  if ! (s.sstate = ssSYNC && s.modeValid m) then s
  else (List.range (s.nslot m)).foldl (fun s i =>
    if s.slotGen m i && ! tb s.fdl.rxok i then
      setFdl { s.fdl with gWait := SMap.set 0 s.fdl.gWait i (SMap.get 0 s.fdl.gWait i + 1) } s
    else s) s

/-- FDL_DEVj after a cycle without a computation: no deviation was measured in it (R351). -/
def unmeasured (s : State) : State :=
  s.each (List.range 8) fun j s => (s.put (Reg.FDL_DEVj_VALID j) false).put (Reg.FDL_DEVj_USED j) false

/-- The Fudorlink unit at a cycle boundary. An agreed switch stands until a MODE entry latches it (R73). -/
def fdlTick (switched : Bool) (s : State) : State :=
  let s := (guardWaits (proposalTick s)).when (! s.fdl.computed) unmeasured
  let keep := s.expected
  let tick := nodeTick (s.rd Reg.FDL_CFG_LOSS_CYC + 1)
  let nodes := keep.foldl (fun m id => SMap.set {} m id (tick (SMap.get {} s.fdl.nodes id)))
    (s.fdl.nodes.foldl (fun m e => SMap.set {} m e.1 (tick e.2)) [])
  let x := s.fdl
  let listening := s.sstate = ssLISTEN
  let s := (s.wr Reg.FDL_RXOK_L (x.rxok % 2 ^ 32)).wr Reg.FDL_RXOK_H (x.rxok / 2 ^ 32)
  let s := setFdl { x with
    nodes := nodes, rx := x.rx.filter fun e => e.2.any fun b => (b.cn + 1) % 2 ^ 48 = s.cn48
    rxok := 0, gSeen := [], devs := [], devOut := [], computed := false, syncHeard := false
    cold := if listening && ! x.syncHeard then x.cold + 1 else 0
    coldCyc := x.coldCyc + 1, agreed := if s.on Reg.ANV_STAT_RUNNING then x.agreed else none, heardCommit := none
    heardProp := if switched then none else x.heardProp
    splitDue := x.propFrame && ! x.propMode && s.sstate = ssSYNC, propFrame := false, propMode := false
    joinPort := s.nextJoin } (s.put Reg.FDL_STAT_COMMIT false)
  let s := s.each (List.range 6) portTick
  fdlRefresh (s.when switched admission)

/-! ### The checks of a mode region (R322, R325) -/

/-- The first slot of mode m that a check fails on. -/
def State.failSlot (s : State) (m : Nat) (bad : Nat → Bool) : Option Nat := (List.range (s.nslot m)).find? bad

/-- Code 0x1: START not ascending, or R322 broken. -/
def State.badTiming (s : State) (m : Nat) : Option Nat :=
  let n := s.nslot m
  match (List.range (n - 1)).find? fun i => decide (s.slotStart m (i + 1) < s.slotEnd m i) with
  | some i => some (i + 1)
  | none => if s.cycleTicks < s.slotEnd m (n - 1) + 400 then some (n - 1) else none

/-- Code 0x2. -/
def State.badKind (s : State) (m : Nat) : Option Nat := s.failSlot m fun i =>
  decide (5 < s.slotKind m i ∨ 64 < s.slotLenw m i) || (s.slotKind m i = kSTATUS && decide (s.slotLenw m i < 2))

/-- Code 0x3: sync senders. -/
def State.badSync (s : State) (m : Nat) : Option Nat :=
  let n := (s.syncNodes m).length
  if n = 0 ∨ 8 < n then some 0 else none

/-- A slot reaches every star before AGREE_OFS of the last frame (R325, 0x4). -/
def State.slotEarly (s : State) (m i : Nat) : Bool :=
  decide (s.slotStart m i + s.guardT m + txTicks (s.slotLenw m i) + s.hmax m * 160 <
    (s.cycleFrames - 1) * s.frameTicks + s.agreeOfs m)

/-- The manager of channel c, or the simplex manager (c = 0), sends in a slot whose frame reaches every star in time: its
DATA and STATUS frames go to its star, and with SYNC to its peers; a PEER frame reaches no star; the simplex manager's own star
is every star (R320; notes/assumptions/2432.md). -/
def State.mgrReaches (s : State) (m c : Nat) : Bool :=
  (List.range (s.nslot m)).any fun i =>
    s.slotEarly m i &&
      ((s.slotNode m i = 0 && s.slotStar m i = c &&
        ((s.slotKind m i = kDATA && (c = 0 || s.slotSync m i)) || (s.slotKind m i = kSTATUS && s.slotSync m i))) ||
      (decide (c = 0) && decide (s.slotKind m i = kCOMMAND)))

/-- Code 0x4. -/
def State.badAgree (s : State) (m : Nat) : Option Nat :=
  let mgrs := if s.regionWord m 4 % 8 = 0 then [0] else [1, 2, 3].filter fun c => s.admitsMgr m c
  if s.frameMinClk ≤ s.agreeOfs m ∨ ! mgrs.all (s.mgrReaches m) then some 0 else none

/-- Code 0x5. -/
def State.badGuard (s : State) (m : Nat) : Option Nat := if s.guardT m < 16 ∨ s.hmax m = 0 then some 0 else none

/-- Guard record r breaks R344. -/
def State.badRecord (s : State) (m r : Nat) : Bool :=
  let w := s.grecW m r 0
  let n := bits w 9 3
  decide (w ≠ 0) && (decide (bits w 4 4 = 0 ∨ 4 < n ∨ bits w 12 20 ≠ 0) || (List.range (min n 4)).any fun j =>
    let c := s.grecW m r (1 + 3 * j)
    let lo := s.grecW m r (2 + 3 * j)
    let hi := s.grecW m r (3 + 3 * j)
    decide (31 < bits c 8 5 + bits c 16 5) || (if tb c 24 then decide (sext 32 hi < sext 32 lo) else decide (hi < lo)))

/-- Code 0x6. -/
def State.badRecords (s : State) (m : Nat) : Option Nat :=
  match s.failSlot m fun i => s.slotGen m i &&
      (decide (s.grecW m (s.slotGrec m i) 0 = 0) || s.badRecord m (s.slotGrec m i)) with
  | some i => some i
  | none => if (List.range 32).any (s.badRecord m) then some 0 else none

/-- Code 0x7. -/
def State.badRoles (s : State) (m : Nat) : Option Nat :=
  match s.failSlot m fun i => (s.slotKind m i = kSTATUS || s.slotKind m i = kDATA || s.slotKind m i = kPEER) &&
      ! s.admitsId m (s.slotId m i) with
  | some i => some i
  | none => if (List.range 64).any fun n => decide (1 < s.roleCode m n) then some 0 else none

/-- Code 0x8. -/
def State.badSigned (s : State) (m : Nat) : Option Nat :=
  if SMap.get (0, 0) s.fdl.signed m = (s.frameTicks, s.cycleFrames) then none else some 0

/-- The first failing check of the region of mode m and its slot (R325). -/
def State.regionCheck (s : State) (m : Nat) : Nat × Nat :=
  let checks := [(1, s.badTiming m), (2, s.badKind m), (3, s.badSync m), (4, s.badAgree m), (5, s.badGuard m),
    (6, s.badRecords m), (7, s.badRoles m), (8, s.badSigned m)]
  match checks.find? fun c => c.2.isSome with
  | some c => (c.1, c.2.getD 0)
  | none => (0, 0)

end Sys2Proof.Machine
end

