-- ==== Sys2Proof/Machine/Lease.lean ====
section
/-! DEFINITION. The lease, the claims and the Seam copies at a cycle boundary (R283 to R304). -/
namespace Sys2Proof.Machine

/-- A GRANT for this channel's term arrived at P2 of the cycle (R293). -/
def State.granted (s : State) : Bool :=
  s.others.any fun c => s.p2Is c lkGRANT && s.p2Target c = s.ch && s.p2Epoch c = s.epoch

/-- Another channel is in service: its health word of the cycle shows STANDBY (R285). -/
def State.peerStandby (s : State) (c : Nat) : Bool :=
  match (s.peer c).now with
  | some h => hwRole h = roleSTANDBY
  | none => false

/-- Every partner on an enabled gate link reported OBEYED in the last status word of the cycle, and every worker that the
active mode admits reported accepting this channel's claim (R293). -/
def State.actuatorsObey (s : State) : Bool :=
  ((List.range 8).all fun n => ! s.on (Reg.OUT_An_CFG_GLEN n) ||
    (tb (s.rd (Reg.OUT_An_UPL_FLAGS n)) 2 && decide (s.seam.cycleClk ≤ (s.o n).statAt))) &&
  (List.range 64).all fun n => n = 0 || ! s.admits s.netMode n || decide ((s.nd n).acc = some s.claim)

/-- What the set requires for a renewal (R293). -/
def State.gathered (s : State) : Bool :=
  if s.granted then true
  else if s.rd Reg.SEAM_CFG_SET = 2 && s.others.any s.peerStandby then false
  else (s.others.all fun c => (s.peer c).now = none) && s.actuatorsObey

/-- The candidate takes the role at this boundary (R295). -/
def State.takes (s : State) (t : Nat) : Bool :=
  s.inLease && s.role = roleSTANDBY && s.dev.state = .standby &&
    ((s.others.any fun c => s.p2Is c lkTGRANT && s.p2Target c = s.ch && s.p2Epoch c = t) ||
      (s.rd Reg.SEAM_CFG_SET = 1 && (s.others.all fun c => decide (s.leaseL + 1 ≤ s.age c)) && ! s.seam.obey80))

/-- A boundary counts as a renewal (R293): LEFT is L, SEAM_RENEW names the cycle that begins. -/
def renewal (s : State) : State :=
  setSeam { s.seam with takeWait := 0, lapsed := none } ((s.wr Reg.SEAM_STAT_LEFT s.leaseL).wr Reg.SEAM_RENEW s.cn)

/-- A holder with its term (R293, R295); the highest term recognised never falls. -/
def setHolder (c t : Nat) (s : State) : State :=
  setSeam { s.seam with term := some (max t (s.seam.term.getD t)) }
    ((s.wr Reg.SEAM_STAT_HOLDER c).wr Reg.SEAM_STAT_EPOCH t)

/-- TAKEOVER (R295): the candidate takes the role ACTIVE and its device enters ACTIVE. -/
def takeOver (t : Nat) (s : State) : State :=
  let s := renewal (setHolder s.ch t s)
  almEvent 5 0 (raiseDev Fc.TAKEOVER (enterActive s))

/-- No renewal (R293, R294): LEFT falls by one; at 0 a channel that is not the holder recognises none. -/
def leaseFalls (s : State) : State :=
  let n := s.left - 1
  let gone := decide (s.left = 1) && ! s.iHold
  let s := s.wr Reg.SEAM_STAT_LEFT n
  if gone then
    let h := s.holder
    setSeam { s.seam with lapsed := if h = 0 then none else some h } (s.wr Reg.SEAM_STAT_HOLDER 0)
  else s

/-- The lease at the boundary (R293 to R295). A granter counts the boundary as a renewal whatever else it sent. -/
def leaseRule (s : State) : State :=
  let x := s.seam
  let hold := s.iHold && s.inLease && x.sentRenew && decide (0 < s.left) && s.gathered
  match x.sentTake.filter s.takes with
  | some t => takeOver t s
  | none =>
    if hold || x.sentGrant then renewal s
    else match x.sentTgrant with
      | some (c, t) => renewal (setHolder c t s)
      | none => leaseFalls s

/-- The ages of the other channels (SEAM_PAGE): one more cycle for a channel not heard in it. -/
def ageTick (s : State) : State :=
  s.each s.others fun c s =>
    if (s.peer c).now.isSome then s
    else s.wr Reg.SEAM_PAGE (putBits (s.rd Reg.SEAM_PAGE) (8 * (c - 1)) 8 (min (s.age c + 1) 255))

/-- The messages of the cycle become those of the previous one; what was sent is forgotten. -/
def messagesTick (s : State) : State :=
  let s := s.each s.others fun c s =>
    let x := s.peer c
    setPeer c { prev := x.now, lostUp := x.lostUp } s
  let x := s.seam
  setSeam { x with sentRenew := false, sentGrant := false, sentTake := none, sentTgrant := none, p1Done := false,
                   p2Done := false, obey80 := false, cycleClk := s.time.clk } s

/-- LAST_CHANNEL (R296): a holder through the whole cycle that counted no STANDBY channel; it clears itself when one is
counted again. -/
def aloneTick (s : State) : State :=
  let counted := s.others.any s.peerStandby
  let s := s.when counted (unhold Fc.LAST_CHANNEL)
  setSeam { s.seam with aloneDue := s.seam.held && s.iHold && ! counted } s

/-- The listening of R286: whole cycles from a boundary at which the device is in STANDBY, OFFLINE and in SYNC. -/
def listenTick (s : State) : State :=
  let x := s.seam
  if s.inLease && s.dev.state = .standby && s.role = roleOFFLINE && s.sstate = ssSYNC && ! x.setDone then
    match x.listened with
    | none => setSeam { x with listened := some 0, holderSeen := false } s
    | some n => setSeam { x with listened := some (n + 1) } s
  else setSeam { x with listened := none } s

/-- A complete state copy is applied (R301); the fourth of four consecutive ones after the bulk ends the resync (R306). -/
def copyApply (s : State) : State :=
  match s.seam.rxTag with
  | none => s
  | some tag =>
    if ! (s.seam.rxDone && s.copyRx) then s
    else
      let x := s.seam
      let follows := decide (x.applied.map (fun t => (t + 1) % 2 ^ 32) = some tag)
      let n := if ! x.bulkDone then 0 else if follows then x.copiesAfter + 1 else 1
      let misses := s.rd Reg.SEAM_RXSTAT_MISS
      let ends := x.resync && decide (4 ≤ n)
      let s := (s.wr Reg.SEAM_RXSTAT_BANK (1 - s.rd Reg.SEAM_RXSTAT_BANK)).wr Reg.SEAM_RXSTAT_MISS 0
      let s := raiseIrq 154 (s.wr Reg.SEAM_RXCN tag)
      let s := setSeam { s.seam with rxTag := none, rxDone := false, rxNext := 0, applied := some tag,
                                     appliedPrev := x.applied, copiesAfter := n, resync := x.resync && ! ends,
                                     resynced := x.resynced || ends, missWas := misses } s
      s.when (ends && s.mayServe && s.role = roleOFFLINE && s.dev.state = .standby) (setRole roleOBSERVER)

/-- The copy of the snapshot two boundaries back falls due (R304): COPY_OK tells whether the holder sent it in full, or that
another channel has applied it; one that it missed clears COPY_OK with COPY_MISSED. -/
def copyDue (s : State) : State :=
  let x := s.seam
  let s := setSeam { x with snapPrev := x.snapNow, snapNow := none } s
  let due := some s.copyDueTag
  let s := s.when (s.copyRx && (decide (x.applied = due) || decide (x.appliedPrev = due))) fun s =>
    setSeam { s.seam with copyOk := true } s
  match x.snapPrev with
  | some sent => s.when s.iHold fun s => setSeam { s.seam with copyOk := sent } s
  | none => s

/-- STANDBY_OK acts (R306), unless a Lee cause stands (R415). -/
def standbyTick (s : State) : State :=
  let x := s.seam
  let s := setSeam { x with standbyOk := false } s
  if x.standbyOk && s.mayServe && s.role = roleOBSERVER && s.dev.state = .standby && ! s.leeCause then
    setRole roleSTANDBY (setSeam { s.seam with resynced := false } s)
  else s

/-- The simplex manager takes the role ACTIVE (R283). -/
def simplexTick (s : State) : State :=
  if s.simplexMgr && ! s.seamCfgBad && ! s.barred && s.dev.state = .standby &&
      (s.sstate = ssSYNC || ! s.on Reg.FDL_CTRL_EN) then enterActive s
  else s

/-- A worker outside a set holds the role STANDBY while none of its axes is out of DISABLED (R34). -/
def workerStandby (s : State) : State :=
  if s.worker && ! s.barred && s.dev.state = .standby && s.role = roleOFFLINE then setRole roleSTANDBY s else s

/-- The role that a write of NODE or SET leaves a device (R34), and what Fudorlink shows after it. -/
def netWritten (s : State) : State := fdlRefresh (workerStandby s)

/-- Slice tests fall due every SLICE_INT cycles (R303). -/
def sliceTick (s : State) : State :=
  let x := s.seam
  let runs := s.devRuns && ! s.on Reg.SEAM_CTRL_SLICE_HOLD && decide (s.rd Reg.SEAM_STAT_BULK ≠ 1)
  setSeam { x with sliceWait := if runs then x.sliceWait + 1 else 0 } s

/-- The command claims at a worker (R289, R290): a cycle without one is due to be reported; each claim has one cycle
less. -/
def claimsTick (s : State) : State :=
  let x := s.seam
  setSeam { x with noClaimDue := s.worker && decide (x.claims = []), claims := x.claims.foldl (fun m e => SMap.set 0 m e.1 (e.2 - 1)) [] } s

/-- The Seam block at a cycle boundary, before the mode switch. -/
def seamTick (s : State) : State :=
  let s := claimsTick s
  if s.inSet then
    let s := ageTick s
    let s := leaseRule (setSeam { s.seam with lapsed := none } s)
    let s := messagesTick (aloneTick s)
    let s := standbyTick (copyDue (copyApply (listenTick s)))
    sliceTick (setSeam { s.seam with held := s.iHold } s)
  else sliceTick (setSeam { s.seam with cycleClk := s.time.clk } s)

end Sys2Proof.Machine
end

