-- ==== Sys2Proof/Machine/Fcu.lean ====
section
/-! DEFINITION. The fault collection unit's own commands: the Lee timer, the error pins, the first-error record, the log,
the per-source settings and clearing (R408 to R432). -/
namespace Sys2Proof.Machine

/-- The FCU and its replacement. -/
def setFcu (x : FcuSt) (s : State) : State := { s with fcu := x }

/-! ### The Lee timer -/

/-- LEE_WARN (R418): the count reaches WARN seconds before LIMIT. -/
def execLeeWarn (s : State) : Out :=
  if ! s.runs then .next s else
  match s.fcu.leeEntry with
  | none => .next s
  | some t =>
    if s.fcu.leeWarned || s.rd Reg.FCU_LEE_WARN = 0 then .next s
    else
      let s := reach (t + (s.leeLimit - s.rd Reg.FCU_LEE_WARN * 400000000 - s.fcu.leeKept)) s
      done (irq 2 (setFcu { s.fcu with leeWarned := true } s))

/-- LEE_EXPIRED (R418): at the first frame tick at or after the count reaching LIMIT. -/
def execLeeExpired (s : State) : Out :=
  if ! s.runs then .next s else
  if s.dev.state = .lee && s.time.ft = 0 && decide (s.leeLimit ≤ s.leeCount) then
    done (enterSafe (raiseDev Fc.LEE_EXPIRED s))
  else .next s

/-- A fault that this boundary raises, and whose reaction is Lee entry, is still to be reported by a row of its own: LAST_CHANNEL,
NO_MGR_CLAIM, SP_STALE or GUST_LONG. -/
def State.leeDue (s : State) : Bool :=
  let lee (code : Nat) : Bool := decide (s.reactOf code = .lee)
  (s.seam.aloneDue && lee Fc.LAST_CHANNEL) || (s.seam.noClaimDue && lee Fc.NO_MGR_CLAIM) ||
    (List.range 8).any fun n => ((s.a n).staleDue && lee (Fc.SP_STALE n)) || (s.gustDue n && lee (Fc.GUST_LONG n))

/-- LEE is left at a boundary at which no Lee cause stands or is raised and the role is still ACTIVE (R417, R429). -/
def leeExit (s : State) : State :=
  if s.dev.state = .lee && ! s.leeCause && ! s.leeDue && s.role = roleACTIVE && decide (s.leeCount < s.leeLimit) then
    setDevRole .active roleACTIVE (leaveLee s)
  else s

/-- The end of a cycle boundary for a device in LEE: CTL shows whether it left (R224). -/
def leeBoundary (s : State) : State :=
  if s.dev.state = .lee then (leeExit s).each (List.range 8) buildCtl else s

/-- Lee time left in ms (FCU_LEESTAT.LEFT). -/
def State.leeLeft (s : State) : Nat := (s.leeLimit - s.leeCount) / 400000

/-- LEE_LIMIT_WRITE (R418). -/
def execLeeLimitWrite (v : Word) (s : State) : Out :=
  if ! s.runs then .next s else
  let limit := bits v.toNat 0 10
  let warn := bits v.toNat 10 10
  if s.on Reg.FCU_CTRL then .next s
  else if limit = 0 || decide (600 < limit) || decide (599 < warn) then done (s.put Reg.FCU_STAT_WDENY true)
  else done ((s.wr Reg.FCU_LEE_LIMIT limit).wr Reg.FCU_LEE_WARN warn)

/-! ### The error pins -/

/-- The pins may toggle (R419). -/
def State.fltOk (s : State) : Bool :=
  (s.dev.state = .standby || s.dev.state = .active || s.dev.state = .lee) && ! s.holdsClass .s &&
    s.pwr.mode = .run && ! s.pwr.rstLow

/-- Length of an interval of the error pins in ticks (R419). -/
def fltPer : Nat := 20000

/-- FLT_EDGE (R419): the next CT multiple of 20,000 ticks. -/
def execFltEdge (s : State) : Out :=
  if ! s.runs then .next s else
  let s := reach (nextAt fltPer 0 (s.ctTicks + 1)) s
  if s.fltOk then
    let even := decide (s.ctTicks / fltPer % 2 = 0)
    let s := setFcu { s.fcu with fltOn := true, fltP := even, fltN := ! even } s
    done ((s.put Reg.FCU_STAT_FLT_P even).put Reg.FCU_STAT_FLT_N (! even))
  else done (fltStop s)

/-- FLT_READBACK_CHECK (R421): 10 µs after the edge instant the levels at the balls are compared with those driven, once for each
edge instant; FCU_STAT shows the levels. -/
def execFltReadbackCheck (p n : Bool) (s : State) : Out :=
  if ! s.runs then .next s else
  let edge := s.ctTicks / fltPer
  let s := reach (edge * fltPer + usTicks 10) s
  let mis := decide (p ≠ s.fcu.fltP ∨ n ≠ s.fcu.fltN)
  let again := mis && s.fcu.fltMis && decide (s.fcu.fltCheck.map (· + 1) = some edge)
  let s := (s.put Reg.FCU_STAT_FLT_P p).put Reg.FCU_STAT_FLT_N n
  if s.fcu.fltCheck = some edge then done s
  else done ((setFcu { s.fcu with fltMis := mis, fltCheck := some edge } s).when again (raiseDev Fc.FLT_READBACK))

/-! ### Record and log -/

/-- A clear of FCU_REC.VALID (R423). It acts before the faults of its clock: one of them captures a new record (R429). -/
def clearRecord (s : State) : State :=
  if s.fcu.recAt = some s.time.clk then s
  else
    let now := if s.fcu.mergeAt = s.time.clk then s.fcu.merged else []
    now.foldl (fun s f => recordFault f s) (setFcu { s.fcu with merged := [] } (s.put Reg.FCU_REC_VALID false))

/-- RECORD_CLEAR: a W1C of FCU_REC.VALID (R423, R429). -/
def execRecordClear (s : State) : Out :=
  if ! s.runs then .next s else
  done (clearRecord s)

/-- LOG_RP_WRITE (R426): RP moves within the unread entries or to WP. -/
def execLogRpWrite (v : BitVec 8) (s : State) : Out :=
  if ! s.runs then .next s else
  let wp := s.rd Reg.FCU_LOGWP_WP
  let rp := s.rd Reg.FCU_LOGRP_RP
  let un := s.rd Reg.FCU_LOGRP_UNREAD
  let step := (v.toNat + 256 - rp) % 256
  if v.toNat = wp then done ((s.wr Reg.FCU_LOGRP_RP wp).wr Reg.FCU_LOGRP_UNREAD 0)
  else if step < un then done ((s.wr Reg.FCU_LOGRP_RP v.toNat).wr Reg.FCU_LOGRP_UNREAD (un - step))
  else done (s.put Reg.FCU_STAT_WDENY true)

/-! ### Settings of a source -/

/-- A write of REACT that R412 or R411 refuses. -/
def State.reactDenied (s : State) (code r : Nat) : Bool :=
  s.on Reg.FCU_CTRL || decide (5 < r) ||
    (faultClass code = .s && (r = 0 || (r = 1 && decide (1 < (faultDefault code).code))))

/-- REACT_WRITE: a write of FCU_SCFG, REACT in bits 2:0 and REPORT in bit 3, for the source FCU_SEL names (R411, R412,
R426, R432). A code that names no source has no settings. -/
def execReactWrite (v : BitVec 4) (s : State) : Out :=
  if ! s.runs then .next s else
  let code := s.rd Reg.FCU_SEL
  let r := v.toNat % 8
  if (faultRow code).isNone then .next s
  else
    let s := s.when (! s.on Reg.FCU_CTRL) fun s =>
      setFcu { s.fcu with report := SMap.set false s.fcu.report code (tb v.toNat 3) } s
    if s.reactDenied code r then done (s.put Reg.FCU_STAT_WDENY true)
    else
      let x := React.ofCode r
      done (setFcu { s.fcu with
        react := SMap.set none s.fcu.react code (if x = some (faultDefault code) then none else x) } s)

/-! ### Clearing -/

/-- A gate-link partner reports one of its conditions (R209, R410). -/
def State.uplReports (s : State) (n k : Nat) : Bool :=
  match k with
  | 0 => s.on (Reg.OUT_An_CFG_GLEN n) && s.rd (Reg.OUT_An_GLST_STATE n) ≠ 2
  | 1 => decide (s.rd (Reg.OUT_An_UPL_FLT n) % 128 ≠ 0)
  | 2 => tb (s.rd (Reg.OUT_An_UPL_FLAGS n)) 1
  | 3 => decide (sext 8 (s.rd (Reg.OUT_An_GL_TTRIP n)) ≤ sext 8 (s.rd (Reg.OUT_An_UPL_TEMP n)))
  | 4 => decide (sext 8 (s.rd (Reg.OUT_An_GL_TWARN n)) ≤ sext 8 (s.rd (Reg.OUT_An_UPL_TEMP n)))
  | 6 => s.on (Reg.OUT_An_STAT_PFULL n)
  | _ => false

/-- A feedback channel shows the condition of its fault of kind k (R192). -/
def State.fbReports (s : State) (n k : Nat) : Bool :=
  let f : FbSt := SMap.get {} s.fb n
  match k with
  | 0 | 2 => s.rd (Reg.FBK_Cn_CFG_MODE n) ≠ 0 && ! f.valid
  | 1 => f.frozen
  | 3 => f.missing
  | 4 => f.hallBad
  | 5 => f.ssiErr
  | 6 => f.los || f.ampBad
  | _ => false

/-- COM of an axis shows the condition of its fault of kind k (R158): the link level, the latches of R149 and R152 that
only an owner clears. -/
def State.comReports (s : State) (n k : Nat) : Bool :=
  match k with
  | 0 => s.on (Reg.COM_An_STAT_STARVED n)
  | 1 => (SMap.get ({} : ComSt) s.com n).above
  | 3 => s.on (Reg.COM_An_STAT_CHOP_STUCK n)
  | 4 => s.on (Reg.COM_An_STAT_CHOP_FAULT n)
  | 5 => s.on (Reg.COM_An_STAT_ALIGN n)
  | _ => false

/-- An axis shows the condition of its fault of kind k (R250). -/
def State.axReports (s : State) (n k : Nat) : Bool :=
  let a : AxisSt := SMap.get {} s.axs n
  match k with
  | 3 => s.ax n = axSTOPPING && a.stopUp
  | 4 => s.ax n ≠ axDISABLED && decide (s.rd (Reg.SYS_AXn_CFG_SP_MISS n) + 1 ≤ s.rd (Reg.SYS_AXn_STAT_AGE n))
  | 6 => a.gustUp
  | _ => false

/-- A safe output shows the condition of its fault of kind k (R218, R220). -/
def State.soReports (s : State) (m k : Nat) : Bool :=
  match k with
  | 0 => s.on (Reg.OUT_SOm_STAT_OC m)
  | 1 => s.on (Reg.OUT_SOm_STAT_RB m)
  | 2 => s.on (Reg.OUT_SOm_STAT_TEST m)
  | _ => s.on (Reg.OUT_SOm_STAT_OPEN m)

/-- SEAM, FDL, HIF, CAN and TSK show the condition of a fault of theirs. -/
def State.linkReports (s : State) (code : Nat) : Bool :=
  match code with
  | 0x2801 => s.seam.peers.any fun p => p.2.lostUp
  | 0x2803 => s.seam.sliceFail
  | 0x2804 => decide (4 ≤ s.rd Reg.SEAM_RXSTAT_MISS)
  | 0x2805 => (s.on Reg.SEAM_PORT_S0_EN && ! s.on Reg.SEAM_STAT_S0_UP) ||
      (s.on Reg.SEAM_PORT_S1_EN && ! s.on Reg.SEAM_STAT_S1_UP)
  | 0x2806 => s.rd Reg.SEAM_STAT_BULK = 3
  | 0x2807 => s.seam.claims.isEmpty && decide (s.node ≠ 0)
  | 0x2C00 | 0x2C01 => s.sstate = ssLOST
  | 0x2C02 => s.on Reg.FDL_CTRL_EN && s.modeValid s.netMode && ! s.admitsId s.netMode s.nodeId
  | 0x2C03 | 0x2C08 => ! s.fdl.gUp.isEmpty
  | 0x2C04 => decide (s.rd Reg.FDL_LOST_L + s.rd Reg.FDL_LOST_H + s.rd Reg.FDL_LOSTM ≠ 0)
  | 0x2C06 => (List.range 6).any fun p => s.rd (Reg.FDL_Pp_STAT_STATE p) = 3
  | 0x2C09 => (List.range 6).any fun p => decide (s.rd (Reg.FDL_Pp_CFG_CLASS p) ≠ 0) && s.rd (Reg.FDL_Pp_STAT_STATE p) = 0
  | 0x3000 => s.hif.silentUp
  | 0x3001 => ! s.on Reg.HIF_STAT_LINK_UP
  | 0x3003 => (List.range 16).any fun r => s.on (Reg.HIF_Rr_STAT_STOPPED r)
  | 0x3400 => s.rd (Reg.CAN_Cc_STAT_STATE 0) = 2
  | 0x3410 => s.rd (Reg.CAN_Cc_STAT_STATE 1) = 2
  | 0x3401 => s.rd (Reg.CAN_Cc_STAT_STATE 0) = 1
  | 0x3411 => s.rd (Reg.CAN_Cc_STAT_STATE 1) = 1
  | 0x3402 | 0x3403 => ! (SMap.get ({} : CanSt) s.can 0).timedOut.isEmpty
  | 0x3412 | 0x3413 => ! (SMap.get ({} : CanSt) s.can 1).timedOut.isEmpty
  | 0x3801 => s.on Reg.INTC_STAT_DMISM
  | 0x3C00 => s.on (Reg.TSK_Px_STAT_SPILLERR 0)
  | 0x3C10 => s.on (Reg.TSK_Px_STAT_SPILLERR 1)
  | _ => false

/-- PWR, TIME, FCU and SEC show the condition of a fault of theirs. -/
def State.deviceReports (s : State) (code : Nat) : Bool :=
  match code with
  | 0x0400 => s.on Reg.PWR_SUPSTAT_UV
  | 0x0401 => decide (s.rd Reg.PWR_DOM2_FAILED ≠ 0)
  | 0x0403 => ! s.on Reg.PWR_SUPSTAT_A_OK
  | 0x0404 => ! s.on Reg.PWR_SUPSTAT_B_OK
  | 0x0405 => s.on Reg.PWR_SUPSTAT_OV
  | 0x0406 => decide (s.rd Reg.PWR_RET_LOST ≠ 0)
  | 0x0407 => s.on Reg.PWR_RSTCAUSE_WAKE_FAIL
  | 0x0408 | 0x0800 => s.on Reg.TIME_STAT_ON_RC
  | 0x0802 => decide (4 ≤ s.time.backlog)
  | 0x0C00 => s.on Reg.ANV_STAT_OVR
  | 0x4004 => s.fcu.fltMis
  | 0x4C01 => s.on Reg.SEC_STAT_FALLBACK
  | 0x4C02 => s.sec.trngFail
  | 0x4C03 => s.rd Reg.SEC_STAT_DBG = 2 && s.rd Reg.SEC_STAT_LC = 2
  | 0x4C04 => (List.range 4).any fun k => s.arbCtr k = 64
  | _ => false

/-- The detecting block still reports the condition of a fault, as its own status bit, latch or level shows (R427). -/
def State.stillReports (s : State) (code : Nat) : Bool :=
  let n := code / 16 % 8
  let k := code % 16
  if 0x1000 ≤ code ∧ code < 0x1080 then
    if k = 0 then (SMap.get ({} : EngSt) s.eng n).fcstPrev
    else (k = 1 || k = 2) && (SMap.get ({} : EngSt) s.eng n).halted
  else if 0x1400 ≤ code ∧ code < 0x1480 then s.comReports n k
  else if 0x1800 ≤ code ∧ code < 0x1880 then s.fbReports n k
  else if 0x1C00 ≤ code ∧ code < 0x1C06 then s.bit Reg.ADC_STAT_DROP (code - 0x1C00)
  else if 0x1C10 ≤ code ∧ code < 0x1C30 then s.bit Reg.ADC_SDSTUCK (code - 0x1C10)
  else if 0x1C30 ≤ code ∧ code < 0x1C34 then tb s.adc.ssupOff (code - 0x1C30)
  else if 0x2000 ≤ code ∧ code < 0x2080 then s.uplReports n k
  else if 0x2080 ≤ code ∧ code < 0x2090 then
    s.bit Reg.OUT_TRIP_STAT_LATCH (code % 8) || s.bit Reg.OUT_TRIP_STAT_LEVEL (code % 8)
  else if 0x2090 ≤ code ∧ code < 0x20A0 then s.soReports (code / 4 % 4) (code % 4)
  else if 0x0100 ≤ code ∧ code < 0x0180 then s.axReports n k
  else if code = 0x2406 then decide (s.rd Reg.CHK_STAT_CMP_OK % 4 ≠ 3)
  else if code = 0x2416 then decide (s.rd Reg.CHK_STAT_CMP_OK / 4 ≠ 3)
  else if code = 0x2407 then s.on Reg.CHK_STAT_X_RESYNC
  else if code = 0x2417 then s.on Reg.CHK_STAT_Y_RESYNC
  else s.linkReports code || s.deviceReports code

/-- The roles of R467. -/
def roleVENDOR : Nat := 0
def roleMAKER : Nat := 1
def roleOPERATOR : Nat := 2
def roleSERVICE : Nat := 3
def roleHOST : Nat := 4
def rolePEER : Nat := 5
def roleTUNER : Nat := 6

/-- A role may clear a fault (R471): MAKER and SERVICE every class; HOST class M, and class S whose reaction is Lee entry.
VENDOR holds the rights of MAKER in BLANK (R472). -/
def State.mayClear (s : State) (roles : List Nat) (code : Nat) : Bool :=
  roles.contains roleMAKER || roles.contains roleSERVICE ||
    (roles.contains roleVENDOR && s.rd Reg.SEC_STAT_LC = 0) ||
    (roles.contains roleHOST &&
      (faultClass code = .m || (faultClass code = .s && s.heldReact code = some .lee)))

/-- A clear is refused (R427). -/
def State.clearRefused (s : State) (roles : List Nat) (code : Nat) : Bool :=
  ! s.isHeld code || faultAuto code || s.stillReports code ||
    (faultClass code = .s && s.heldReact code = some .axisSafe &&
      (bitsOf 8 (SMap.get 0 s.fcu.axes code)).any fun n => s.ax n ≠ axSAFE && s.ax n ≠ axDISABLED) ||
    ! s.mayClear roles code

/-- The raise of a fault on the present clock, if any: whether the fault was held before it. -/
def State.struckNow (s : State) (code : Nat) : Option Bool :=
  match SMap.get none s.fcu.struck code with
  | some (t, was) => if t = s.time.clk then some was else none
  | none => none

/-- A clear of a fault (R427): 0 cleared, 1 refused, and what it does. It acts before a raise of its clock (R429): one that raise
alone holds is refused as not held, one held before is cleared and held again. -/
def clearFault (roles : List Nat) (code : Nat) (s : State) : Nat × State :=
  if s.clearRefused roles code || s.struckNow code = some false then (1, raiseDev Fc.CLEAR_REFUSED s)
  else if s.struckNow code = some true then
    let t := unhold code s
    (0, postEvent 2 [code] (setFcu { t.fcu with held := s.fcu.held, axes := s.fcu.axes } t))
  else (0, unhold code s)

end Sys2Proof.Machine
end

