-- ==== Sys2Proof/Machine/Hif.lean ====
section
/-! DEFINITION. The ring unit: doorbells, rings, descriptor fetch, apply-at-frame and completions (R352 to R371). -/
namespace Sys2Proof.Machine

/-- The ring unit and its replacement. -/
def setHif (x : HifSt) (s : State) : State := { s with hif := x }

/-! ### Configuration of a ring -/

/-- LOC and KIND of a ring, and whether it is enabled. -/
def State.loc (s : State) (r : Nat) : Nat := s.rd (Reg.HIF_Rr_CFG_LOC r)
def State.kind (s : State) (r : Nat) : Nat := s.rd (Reg.HIF_Rr_CFG_KIND r)
def State.ringEn (s : State) (r : Nat) : Bool := s.on (Reg.HIF_Rr_CTL r)

/-- The ring kinds (HIF_Rr_CFG). -/
def rkCOMMAND : Nat := 0
def rkCOMPLETION : Nat := 1
def rkEVENT : Nat := 2
def rkALMANAC : Nat := 3
def rkTRACE : Nat := 4

/-- HIF_Rr_STAT.CFG_BAD (R356). -/
def State.ringCfgBad (s : State) (r : Nat) : Bool :=
  let k := s.kind r
  let c := s.rd (Reg.HIF_Rr_CFG_CRING r)
  let base := s.ringBase r
  let m := s.rd (Reg.HIF_Rr_CFG_AXMASK r)
  decide (4 < k) || decide (s.rd (Reg.HIF_Rr_CFG_LSIZE r) < 4) || decide (12 < s.rd (Reg.HIF_Rr_CFG_LSIZE r)) ||
    (s.loc r = 0 && decide (base % 4096 ≠ 0)) || (s.loc r = 1 && ! inSram base (32 * s.ringSize r)) ||
    (k = rkCOMMAND && ! (s.ringEn c && s.kind c = rkCOMPLETION && s.loc c = s.loc r)) ||
    (k ≠ rkCOMMAND && decide (m ≠ 0)) ||
    (k = rkCOMMAND && (List.range 16).any fun q =>
      decide (q ≠ r) && s.ringEn q && s.kind q = rkCOMMAND && decide (andW (s.rd (Reg.HIF_Rr_CFG_AXMASK q)) m ≠ 0))

/-! ### Completions -/

/-- CT bits 31:0 of the tick of frame `fn`, counted from the present frame (R44, R367). -/
def State.tickCt (s : State) (fn : Nat) : Nat :=
  ((((s.time.fc.toNat : Int) + dist32 s.fn fn) * s.frameTicks) % 2 ^ 32).toNat

/-- STATUS of a completion (R367). -/
def stOK : Nat := 0
def stSTALE : Nat := 1
def stBAD_DESC : Nat := 2
def stDENIED : Nat := 3
def stAXIS_GONE : Nat := 4
def stDMA_ERR : Nat := 6
def stREFUSED : Nat := 7
def stFLUSHED : Nat := 8
def stBUSY : Nat := 9
def stBUS_OFF : Nat := 10

/-- OPCODE, AXIS, TAG, APPLY_FN and DEADLINE_FN of a command, and word i (R360). -/
def Cmd.w (c : Cmd) (i : Nat) : Nat := c.desc.getD i 0
def Cmd.op (c : Cmd) : Nat := bits (c.w 0) 0 8
def Cmd.axis (c : Cmd) : Nat := bits (c.w 0) 8 3
def Cmd.now (c : Cmd) : Bool := tb (c.w 0) 11
def Cmd.tag (c : Cmd) : Nat := bits (c.w 0) 16 16
def Cmd.apply (c : Cmd) : Nat := c.w 1
def Cmd.deadline (c : Cmd) : Nat := c.w 2

/-- A completion (R367) to the completion ring of the command's ring, if it is open and has room. -/
def completeAt (c : Cmd) (status fn ct : Nat) (late : Bool) (result : List Nat) (s : State) : State :=
  let cr := s.rd (Reg.HIF_Rr_CFG_CRING c.ring)
  if s.ringOpen cr rkCOMPLETION && decide (s.ringFree cr ≠ 0) then
    ringWrite cr [[status + b2n late * 2 ^ 8 + c.ring * 2 ^ 12 + c.cidx * 2 ^ 16,
      c.tag + c.op * 2 ^ 16, fn, ct] ++ result] s
  else s

/-- A completion with the FN of the present frame and the CT of its tick. -/
def complete (c : Cmd) (status : Nat) (late : Bool) (result : List Nat) (s : State) : State :=
  completeAt c status s.fn (s.tickCt s.fn) late result s

/-! ### Doorbells -/

/-- A message of a vector that was held while masked is sent when its mask bit clears (R354). -/
def msixUnmask (vec : Nat) (s : State) : State :=
  if tb s.hif.pba vec && SMap.get 0 s.hif.msix (4 * vec + 3) % 2 = 0 then
    msix vec (setHif { s.hif with pba := putBit s.hif.pba vec false } s)
  else s

/-- A write of BAR2 beside the doorbells (R354): the MSI-X table; every other offset ignores writes. -/
def bar2Write (off v : Nat) (s : State) : State :=
  if 0x800 ≤ off ∧ off < 0xA00 ∧ off % 4 = 0 then
    let i := (off - 0x800) / 4
    msixUnmask (i / 4) (setHif { s.hif with msix := SMap.set 0 s.hif.msix i v } s)
  else s

/-- A doorbell of ring r (R358): the new PI of a command ring, the new CI of any other. -/
def ringBell (r v : Nat) (s : State) : State :=
  let size := s.ringSize r
  let idx := bits v 0 12
  let cmd := decide (s.kind r = rkCOMMAND)
  let pi := s.rd (Reg.HIF_Rr_IDX_PI r)
  let ci := s.rd (Reg.HIF_Rr_IDX_CI r)
  let step := (idx + size - (if cmd then pi else ci)) % size
  let room := if cmd then (ci + size - 1 - pi) % size else (pi + size - ci) % size
  if decide (size ≤ idx) || decide (room < step) then
    raiseDev Fc.RING_ERR (s.put (Reg.HIF_Rr_STAT_IDXERR r) true)
  else if cmd then s.wr (Reg.HIF_Rr_IDX_PI r) idx
  else (s.wr (Reg.HIF_Rr_IDX_CI r) idx).when (tb v 31) (·.put (Reg.HIF_Rr_IRQ_ARM r) true)

/-- A read of BAR2 (R354): the MSI-X table and its pending bits; doorbells are write only, and every other offset reads 0. -/
def State.bar2Read (s : State) (off : Nat) : Nat :=
  if 0x800 ≤ off ∧ off < 0xA00 ∧ off % 4 = 0 then SMap.get 0 s.hif.msix ((off - 0x800) / 4)
  else if off = 0xC00 then s.hif.pba else 0

/-- The identity of the endpoint function (R352), in the words of configuration space that hold it (log entry 2436): device and
vendor, class code and revision, subsystem and its vendor; no other word is described. -/
def State.pcieIdentity (s : State) (word : Nat) : Option Nat :=
  match word with
  | 0 => some 0x96481F96
  | 2 => some (0x088000 * 2 ^ 8 + s.rd Reg.SYS_ID_REV)
  | 11 => some 0x0A011F96
  | _ => none

/-- A word the host reads. -/
def hostReads (v : Nat) (s : State) : State := { s with dev := { s.dev with readData := v } }

/-- DOORBELL (R354, R358): a write of a doorbell or of the MSI-X table, or a read of BAR2 or of the function's identity (R352);
`word` tells that it is a 32-bit access (R376). A doorbell reaches an enabled ring of its own LOC. -/
def execDoorbell (b : Bell) (word : Bool) (v : Word) (s : State) : Out :=
  if ! s.live pdHIF then .next s else
  if ! word then .next s
  else match b with
    | .internal r =>
      if s.ringEn r && s.loc r = 1 then done (ringBell r v.toNat s) else .next s
    | .bar2 off =>
      let r := off.val / 0x80
      if off.val < 0x800 ∧ off.val % 0x80 = 0 then
        if s.ringEn r && s.loc r = 0 then done (ringBell r v.toNat s) else .next s
      else done (bar2Write off v.toNat s)
    | .bar2Read off => done (hostReads (s.bar2Read off) s)
    | .config w =>
      match s.pcieIdentity w with
      | some v => done (hostReads v s)
      | none => .next s

/-! ### Enabling, ending, losing rings -/

/-- A trace ring of shared SRAM caps the coverage at public, and what was captured above it and is unread is discarded (R482, R483). -/
def capCover (r : Nat) (s : State) : State :=
  match s.cec.cover with
  | some (c, m) =>
    if s.kind r = rkTRACE ∧ s.loc r = 1 ∧ 0 < c then
      let s := s.wr Reg.CEC_TR_RP (s.rd Reg.CEC_TR_WP)
      { s with cec := { s.cec with cover := some (0, m) }, alm := { s.alm with grantNow := true } }
    else s
  | none => s

/-- RING_ENABLE (R356, R367). -/
def execRingEnable (r : Fin 16) (s : State) : Out :=
  if ! s.live pdHIF then .next s else
  if s.ringEn r then .next s
  else if s.ringCfgBad r then done (raiseDev Fc.RING_ERR s)
  else
    let s := ((s.put (Reg.HIF_Rr_CTL r) true).wr (Reg.HIF_Rr_IDX_PI r) 0).wr (Reg.HIF_Rr_IDX_CI r) 0
    let s := ((s.put (Reg.HIF_Rr_STAT_PHASE r) true).put (Reg.HIF_Rr_STAT_STOPPED r) false).put (Reg.HIF_Rr_IRQ_ARM r) false
    let s := capCover r (setHif { s.hif with lastMsg := SMap.set none s.hif.lastMsg r none } s)
    done (s.when (s.kind r = rkCOMMAND && s.loc r = 0) (setHif { s.hif with silent := 0, silentUp := false }))

/-- A ring is off: EN clears, its queued commands and those whose copy is still to come are discarded. -/
def ringOff (r : Nat) (s : State) : State :=
  let h := s.hif
  setHif { h with queue := h.queue.filter fun c => c.ring ≠ r, status := h.status.filter fun c => c.ring ≠ r }
    (s.put (Reg.HIF_Rr_CTL r) false)

/-- RING_DISABLE (R356): the queued commands complete FLUSHED. -/
def execRingDisable (r : Fin 16) (s : State) : Out :=
  if ! s.live pdHIF then .next s else
  if ! s.ringEn r then .next s
  else
    let mine := (s.hif.status ++ s.hif.queue).filter fun c => c.ring = r.val
    done (mine.foldl (fun s c => complete c stFLUSHED false [] s) (ringOff r s))

/-- The host is lost (R355): every enabled LOC = 0 ring ends without completions. -/
def hostLost (s : State) : State :=
  (List.range 16).foldl (fun s r => if s.ringEn r && s.loc r = 0 then ringOff r s else s) s

/-- FUNCTION_LEVEL_RESET (R355). -/
def execFunctionLevelReset (s : State) : Out :=
  if ! s.live pdHIF then .next s else
  done (irq 178 (raiseDev Fc.HOST_RESET (hostLost (s.put Reg.HIF_STAT_FLR true))))

/-- PCIE_LINK_DOWN (R355): the data link layer has been down for 1 ms. -/
def execPcieLinkDown (s : State) : Out :=
  if ! s.live pdHIF then .next s else
  if ! s.on Reg.HIF_STAT_LINK_UP then .next s
  else
    let s := ((s.put Reg.HIF_STAT_LINK_UP false).wr Reg.HIF_STAT_SPEED 0).wr Reg.HIF_STAT_WIDTH 0
    done (irq 177 (raiseDev Fc.PCIE_LINK_DOWN (hostLost s)))

/-- PCIE_LINK_UP (R352, R378, R379): L0 at a speed of 1 to 3 and a width of x1 or x2; `bme`: the host enables bus mastering. -/
def execPcieLinkUp (speed : Fin 4) (width : Fin 4) (bme : Bool) (s : State) : Out :=
  if ! s.live pdHIF then .next s else
  if speed = 0 ∨ width = 0 ∨ width = 3 then .next s
  else
    let s := ((s.put Reg.HIF_STAT_LINK_UP true).wr Reg.HIF_STAT_SPEED speed).wr Reg.HIF_STAT_WIDTH width
    done (irq 177 (s.put Reg.HIF_STAT_BME bme))

/-! ### Fetching -/

/-- The opcodes of R361. -/
def ocNOP : Nat := 0x00
def ocSET_INLINE : Nat := 0x01
def ocSET_BLOCK : Nat := 0x02
def ocREAD_STATUS : Nat := 0x10
def ocLOAD : Nat := 0x20
def ocHALLMARK : Nat := 0x21
def ocFAULT_CLEAR : Nat := 0x30
def ocCAN_TX : Nat := 0x40

/-- The address words 4 and 5, and 5 and 6 for CAN_TX. -/
def Cmd.addr (c : Cmd) : Nat := c.w 4 + c.w 5 * 2 ^ 32
def Cmd.canAddr (c : Cmd) : Nat := c.w 5 + c.w 6 * 2 ^ 32

/-- Fields of W3 of SET_INLINE, SET_BLOCK, READ_STATUS and LOAD (R361). A LEN of 0 stands for 16 MB. -/
def Cmd.first (c : Cmd) : Nat := bits (c.w 3) 0 6
def Cmd.nw (c : Cmd) : Nat := if c.op = ocSET_INLINE then bits (c.w 3) 8 2 + 1 else bits (c.w 3) 8 6 + 1
def Cmd.soff (c : Cmd) : Nat := bits (c.w 3) 0 12
def Cmd.rsNw (c : Cmd) : Nat := bits (c.w 3) 16 8 + 1
def Cmd.loadLen (c : Cmd) : Nat := if bits (c.w 3) 0 24 = 0 then 2 ^ 24 else bits (c.w 3) 0 24

/-- Fields of CAN_TX (R374). -/
def Cmd.canFdf (c : Cmd) : Bool := tb (c.w 3) 30
def Cmd.canLen (c : Cmd) : Nat := bits (c.w 4) 0 7
def Cmd.canCtl (c : Cmd) : Nat := bits (c.w 4) 8 1
def Cmd.canRtr (c : Cmd) : Bool := tb (c.w 4) 9
def Cmd.canPtr (c : Cmd) : Bool := tb (c.w 4) 10

/-- A valid CAN length (R374). -/
def canLenOk (fdf : Bool) (n : Nat) : Bool :=
  decide (n ≤ 8) || (fdf && [12, 16, 20, 24, 32, 48, 64].contains n)

/-- Words k to 7 hold 0: the operand list of the opcode names no field there (R361). -/
def Cmd.zeroFrom (c : Cmd) (k : Nat) : Bool := (List.range (8 - k)).all fun i => c.w (k + i) = 0

/-- The operands of a command are good (R361, R374): reserved bits 0, lengths in range.
DEDUCED (notes/assumptions/18.md): a bit of words 3 to 7 that the opcode's operand list names no field for is reserved. -/
def Cmd.operandsOk (c : Cmd) : Bool :=
  match c.op with
  | 0x00 => c.zeroFrom 3
  | 0x01 => bits (c.w 3) 6 2 = 0 && bits (c.w 3) 10 22 = 0 && decide (c.first + c.nw ≤ 64)
  | 0x02 => bits (c.w 3) 6 2 = 0 && bits (c.w 3) 14 18 = 0 && c.zeroFrom 6 && decide (c.first + c.nw ≤ 64)
  | 0x10 => bits (c.w 3) 12 4 = 0 && bits (c.w 3) 24 8 = 0 && c.zeroFrom 6 && decide (c.soff + c.rsNw ≤ 4096)
  | 0x20 => bits (c.w 3) 24 8 = 0 && c.zeroFrom 6
  | 0x21 => bits (c.w 3) 16 16 = 0
  | 0x30 => bits (c.w 3) 16 16 = 0 && c.zeroFrom 4
  | 0x40 => bits (c.w 4) 7 1 = 0 && bits (c.w 4) 11 21 = 0 && canLenOk c.canFdf c.canLen &&
      ! (c.canRtr && c.canFdf) && ! (! c.canPtr && ! c.canRtr && decide (12 < c.canLen))
  | _ => false

/-- A command is refused at fetch with BAD_DESC (R361, R362). -/
def State.badDesc (s : State) (c : Cmd) : Bool :=
  bits (c.w 0) 12 4 ≠ 0 || ! c.operandsOk ||
    (c.op ≠ ocSET_INLINE && c.op ≠ ocSET_BLOCK && decide (c.axis ≠ 0)) ||
    decide (dist32 c.apply c.deadline < 0) ||
    (! c.now && decide ((s.rd Reg.HIF_CFG_HORIZON : Int) < dist32 s.fn c.apply))

/-- The address and the number of words read at fetch, if any (R361, R374). -/
def Cmd.fetches (c : Cmd) : Option (Nat × Nat) :=
  if c.op = ocSET_BLOCK then some (c.addr, c.nw)
  else if c.op = ocCAN_TX && c.canPtr && ! c.canRtr then some (c.canAddr, ceilDiv c.canLen 4)
  else none

/-- The span of bytes a command writes or has read later (R361). -/
def Cmd.buffer (c : Cmd) : Option (Nat × Nat) :=
  if c.op = ocREAD_STATUS then some (c.addr, 4 * c.rsNw)
  else if c.op = ocLOAD then some (c.addr, c.loadLen)
  else if c.op = ocHALLMARK then some (c.addr, bits (c.w 3) 0 16)
  else none

/-- DMA_ERR (R376): the ring stops; HIF_ERRA keeps the first failing address. Of a LOC = 1 ring the access `acc` received a bus
error (R253, R410). -/
def dmaErr (r acc a : Nat) (s : State) : State :=
  let s := s.when (s.loc r = 1) (raise { code := Fc.BUS_ERROR, addr := a, master := 8, acc := acc })
  let s := if s.on Reg.HIF_STAT_DMAERR then s
    else (s.wr Reg.HIF_ERRA_L (a % 2 ^ 32)).wr Reg.HIF_ERRA_H (a / 2 ^ 32)
  raiseDev Fc.DMA_ERR ((s.put Reg.HIF_STAT_DMAERR true).put (Reg.HIF_Rr_STAT_STOPPED r) true)

/-- The words of a read at fetch: from shared SRAM for LOC = 1, else as host memory returns them; none on an error. -/
def State.fetchWords (s : State) (r a n : Nat) (host : List Word) (ok : Bool) : Option (List Nat) :=
  if s.loc r = 1 then (if inSram a (4 * n) then some (getWords s.mem a n) else none)
  else if ok then some (padTo n (host.map BitVec.toNat)) else none

/-- A LOC = 1 buffer lies outside shared SRAM. -/
def State.bufferBad (s : State) (c : Cmd) : Bool :=
  match c.buffer with
  | some (a, n) => s.loc c.ring = 1 && ! inSram a n
  | none => false

/-- CI of a command ring moves on, with its index block (R357, R359). -/
def advanceCi (r : Nat) (s : State) : State :=
  let ci := (s.rd (Reg.HIF_Rr_IDX_CI r) + 1) % s.ringSize r
  let s := (s.wr (Reg.HIF_Rr_IDX_CI r) ci).inc (Reg.HIF_Rr_STAT_COUNT r)
  s.dmaWrite (s.loc r) (s.ringIdxA r) [ci, s.fn]

/-- The command joins the apply queue (R359). -/
def enqueue (c : Cmd) (s : State) : State :=
  let s := setHif { s.hif with queue := s.hif.queue ++ [{ c with clk := s.time.clk }] } s
  s.maxi Reg.HIF_APQ_MAX s.hif.queue.length

/-- What ECC shows of a read at fetch by a LOC = 1 ring (R410). -/
def fetchEcc (r a n : Nat) (ecc : WordEcc) (s : State) : State := s.when (s.loc r = 1) (sramEccs 8 ecc a n)

/-- DESCRIPTOR_FETCH of ring r (R359 to R362, R376), ended on clock `clk`. -/
def execDescriptorFetch (r : Fin 16) (clk : Nat) (f : FetchData) (s : State) : Out :=
  if ! s.live pdHIF then .next s else
  let ci := s.rd (Reg.HIF_Rr_IDX_CI r)
  if ! (s.ringOpen r rkCOMMAND && decide (s.rd (Reg.HIF_Rr_IDX_PI r) ≠ ci) && decide (s.hif.queue.length < 256)) then
    .next s
  else
    let s := advance (clk - s.time.clk) s
    let a := s.ringBase r + 32 * ci
    match s.fetchWords r a 8 f.desc f.descOk with
    | none => done (dmaErr r 1 a s)
    | some d =>
      let s := fetchEcc r a 8 f.descEcc s
      let s := s.when (s.loc r = 0) (setHif { s.hif with silent := 0, silentUp := false })
      let c : Cmd := { ring := r, cidx := ci, desc := d, data := [] }
      if s.badDesc c then done (advanceCi r (complete c stBAD_DESC false [] (raiseDev Fc.BAD_DESC s)))
      else if s.bufferBad c then
        done (dmaErr r (if c.op = ocLOAD then 1 else 2) c.addr (complete c stDMA_ERR false [] s))
      else match c.fetches with
        | none => done (advanceCi r (enqueue c s))
        | some (b, n) =>
          match s.fetchWords r b n f.data f.dataOk with
          | none => done (dmaErr r 1 b (complete c stDMA_ERR false [] s))
          | some ws => done (advanceCi r (enqueue { c with data := ws } (fetchEcc r b n f.dataEcc s)))

/-! ### Apply at a frame tick -/

/-- A command is due at this tick (R362, R363): it was ready before the tick, and is NOW or has reached its apply frame. -/
def State.due (s : State) (c : Cmd) : Bool :=
  decide (c.clk < s.time.clk) && (c.now || decide (0 ≤ dist32 c.apply s.fn))

/-- The next command to be applied at this tick (R363): ascending ring number, ring order within a ring. -/
def State.nextDue (s : State) : Option Cmd :=
  if s.time.ft ≠ 0 || ! s.on Reg.HIF_CTRL_EN then none
  else (List.range 16).findSome? fun r => (s.hif.queue.filter fun c => c.ring = r).find? s.due

/-- The command leaves the apply queue. -/
def dequeue (c : Cmd) (s : State) : State := setHif { s.hif with queue := s.hif.queue.erase c } s

/-- LATE of an applied command (R363). -/
def State.late (s : State) (c : Cmd) : Bool := ! c.now && decide (0 < dist32 c.apply s.fn)

/-- Apply the next due command if its opcode is `op`: past its deadline it completes STALE (R363), else it takes effect. -/
def applyDue (op : Nat) (s : State) (eff : Cmd → State → State) : Out :=
  match s.nextDue with
  | none => .next s
  | some c =>
    if c.op ≠ op then .next s
    else
      let s := dequeue c s
      if 0 ≤ dist32 s.fn c.deadline then done (eff c s)
      else done (complete c stSTALE false [] (raiseDev Fc.DESC_STALE s))

/-- HOST_NOP (R361). -/
def execHostNop (s : State) : Out :=
  if ! s.live pdHIF then .next s else
  applyDue ocNOP s fun c s => complete c stOK (s.late c) [] s

/-- Base of the pending-bank alias of axis n (R64). -/
def pendingBase (n : Nat) : Nat := 0x4003A800 + 256 * n

/-- The entries of mode m in the Anvil table (R50). -/
def State.modeEntries (s : State) (m : Nat) : List Nat :=
  (List.range (s.rd (Reg.ANV_MODEn_LENM1 m) + 1)).map fun i =>
    SMap.get 0 s.anv.table (s.rd (Reg.ANV_MODEn_BASE m) + i)

/-- The axis takes its setpoints from Fudorlink in the active mode (R364): its frame program names the pending bank as
destination of an EXCHANGE with DIR 1. -/
def State.spFdl (s : State) (n : Nat) : Bool :=
  s.on Reg.ANV_STAT_RUNNING && (s.modeEntries (s.rd Reg.ANV_STAT_MODE)).any fun e =>
    enOp e = opEXCHANGE && enDir e && ! enNet e &&
      decide (pendingBase n ≤ enBuf e ∧ enBuf e < pendingBase n + 256)

/-- The device has left the cluster (R346, R365): LEAVE in its status word, or the mode in use does not admit it. -/
def State.gone (s : State) : Bool :=
  s.on Reg.FDL_CTRL_EN && (s.on Reg.FDL_STAT_LEAVE ||
    (s.modeValid s.netMode && ! s.admitsId s.netMode s.nodeId))

/-- A SET at its apply tick (R364). -/
def applySet (ws : Cmd → List Nat) (c : Cmd) (s : State) : State :=
  let n := c.axis
  if s.gone then complete c stAXIS_GONE (s.late c) [] s
  else if s.spFdl n || ! tb (s.rd (Reg.HIF_Rr_CFG_AXMASK c.ring)) n then
    complete c stDENIED (s.late c) [] (raiseDev Fc.DESC_DENIED (postEvent 3 [n] s))
  else complete c stOK (s.late c) [] (writePending n c.first (ws c) s)

/-- SET_INLINE (R361, R364): NW words from W4. -/
def execSetInline (s : State) : Out :=
  if ! s.live pdHIF then .next s else
  applyDue ocSET_INLINE s (applySet fun c => padTo c.nw (c.desc.drop 4))

/-- SET_BLOCK (R361, R364): the words read at fetch. -/
def execSetBlock (s : State) : Out :=
  if ! s.live pdHIF then .next s else
  applyDue ocSET_BLOCK s (applySet fun c => padTo c.nw c.data)

/-- READ_STATUS (R361): due at its apply tick; the copy follows the END of the frame. -/
def execReadStatus (s : State) : Out :=
  if ! s.live pdHIF then .next s else
  applyDue ocREAD_STATUS s fun c s =>
    if s.gone then complete c stAXIS_GONE (s.late c) [] s
    else setHif { s.hif with status := s.hif.status ++ [{ c with dueFn := s.fn, late := s.late c }] } s

/-- Base of the status buffer (R64). -/
def State.statusBase (s : State) : Nat := s.rd Reg.ANV_STAT_BASE * 2 ^ 14

/-- READ_STATUS_COPY (R361, R366): once END of the apply frame has issued the words are copied out; `ecc` is what ECC shows of
them (R410). -/
def execReadStatusCopy (ecc : WordEcc) (s : State) : Out :=
  if ! s.live pdHIF then .next s else
  match s.hif.status with
  | [] => .next s
  | c :: cs =>
    if s.fn = c.dueFn && s.on Reg.ANV_STAT_RUNNING && ! s.anv.endReached then .next s
    else
      let ws := getWords s.mem (s.statusBase + 4 * c.soff) c.rsNw
      let s := sramEccs 8 ecc (s.statusBase + 4 * c.soff) c.rsNw (setHif { s.hif with status := cs } s)
      let s := s.dmaWrite (s.loc c.ring) c.addr ws
      done (completeAt c stOK c.dueFn (s.tickCt c.dueFn) c.late [c.rsNw] s)

/-- A container waits, not a HALLMARK descriptor. -/
def isContainer : CrucSrc → Bool
  | .hallmark _ => false
  | _ => true

/-- Crucible holds 8 waiting containers beside the one in process (R448); those nested in the booted image do not count. -/
def State.crucibleFull (s : State) : Bool :=
  decide (8 ≤ ((s.sec.queue.drop 1).filter fun
    | .nested _ | .hallmark _ => false
    | .ring _ | .window _ => true).length)

/-- TYPE in the second header word of a container is TOKEN (R443). -/
def isToken (w1 : Nat) : Bool := decide (bits w1 16 8 = 5)

/-- LOAD (R361): the container is handed to Crucible; a ninth waiting one is refused with status 0x0F (R448), a TOKEN under its own
fault (R447); `token` tells of the header of a container in host memory. -/
def execLoad (token : Bool) (s : State) : Out :=
  if ! s.live pdHIF then .next s else
  applyDue ocLOAD s fun c s =>
    let tok := if s.loc c.ring = 1 then isToken (getWord s.mem (c.addr + 4)) else token
    let refuse := fun code => complete c stREFUSED (s.late c) [code]
      (raiseIrq 225 (raiseDev (if tok then Fc.TOKEN_REFUSED else Fc.LOAD_REFUSED) (s.wr Reg.SEC_LAST code)))
    if s.crucibleFull then refuse 0x0F
    else
      let q := s.sec.queue ++ [CrucSrc.ring { c with dueFn := s.fn, late := s.late c, takenAt := s.time.clk }]
      { s.put Reg.SEC_STAT_BUSY true with sec := { s.sec with queue := q } }

/-- The roles a ring posts with (R370, R468): HOST, and on a LOC = 0 ring that of the grant in force. -/
def State.ringRoles (s : State) (r : Nat) : List Nat :=
  match s.sec.grant with
  | some g => if s.loc r = 0 then [roleHOST, g.role] else [roleHOST]
  | none => [roleHOST]

/-- FAULT_CLEAR (R361, R427): RESULT 0 cleared, 1 refused. OPERATOR and TUNER clear as HOST (R471). Its tick may be a boundary at
which no Lee cause then stands (R417). -/
def execFaultClear (s : State) : Out :=
  if ! s.live pdHIF then .next s else
  applyDue ocFAULT_CLEAR s fun c s =>
    let late := s.late c
    let (r, s) := clearFault (s.ringRoles c.ring) (bits (c.w 3) 0 16) s
    let s := complete c stOK late [r] s
    s.when (s.fidx = 0) leeBoundary

/-! ### The host's silence, and the views -/

/-- An enabled LOC = 0 command ring exists. -/
def State.hostRing (s : State) : Bool := (List.range 16).any fun r => s.ringEn r && s.kind r = rkCOMMAND && s.loc r = 0

/-- HOST_SILENT (R376). -/
def execHostSilent (s : State) : Out :=
  if ! s.live pdHIF then .next s else
  let t := s.rd Reg.HIF_CFG_HOST_TOUT
  if t ≠ 0 && s.hostRing && decide (t ≤ s.hif.silent) && ! s.hif.silentUp then
    done (raiseDev Fc.HOST_SILENT (setHif { s.hif with silentUp := true } s))
  else .next s

/-- HIF_SRC (R364). -/
def State.hifSrc (s : State) : Nat :=
  let ring := (List.range 16).foldl (fun m r =>
    if s.ringEn r && s.kind r = rkCOMMAND then orW m (s.rd (Reg.HIF_Rr_CFG_AXMASK r)) else m) 0
  (List.range 8).foldl (fun m n => if s.spFdl n then m + 2 ^ n else m) 0 + ring * 256

/-- The ring unit at a cycle boundary (R376): a host ring's silence counts. -/
def hifBoundary (s : State) : State := s.when s.hostRing (setHif { s.hif with silent := s.hif.silent + 1 })

/-- Leaving the cluster ends queued SET and READ_STATUS commands (R365), at the boundary at which LEAVE is set or the mode
takes effect. -/
def hifLeaving (s : State) : State :=
  let ends := s.gone && ! s.hif.gone
  let s := setHif { s.hif with gone := s.gone } s
  if ! ends then s
  else
    let hit := fun c : Cmd => c.op = ocSET_INLINE || c.op = ocSET_BLOCK || c.op = ocREAD_STATUS
    let cs := s.hif.queue.filter hit ++ s.hif.status
    let s := setHif { s.hif with queue := s.hif.queue.filter fun c => ! hit c, status := [] } s
    cs.foldl (fun s c => complete c stAXIS_GONE false [] s) s

end Sys2Proof.Machine
end

