-- ==== Sys2Proof/Machine/Alm.lean ====
section
/-! DEFINITION. The Almanac: frame records, keyframes, sessions, triggers, dumps and the live stream (R492 to R506,
R512). -/
namespace Sys2Proof.Machine

/-- The Almanac and its replacement. -/
def setAlm (x : AlmSt) (s : State) : State := { s with alm := x }

/-- The recording state (ALM_STAT.STATE). -/
def State.almState (s : State) : Nat := s.rd Reg.ALM_STAT_STATE

/-- Words of a snapshot, words of a setpoint bank recorded, the axes and engines recorded (ALM_CFG). -/
def State.snapw (s : State) : Nat := s.rd Reg.ALM_CFG_SNAPW + 1
def State.spw (s : State) : Nat := 16 * (s.rd Reg.ALM_CFG_SPW + 1)
def State.almAxes (s : State) : List Nat := bitsOf 8 (s.rd Reg.ALM_CFG_AXMASK)
def State.almEngs (s : State) : List Nat := bitsOf 8 (s.rd Reg.ALM_CFG_ENGMASK)

/-- Words of the state regions of a keyframe (R496). -/
def State.keyWords (s : State) : Nat := s.almEngs.foldl (fun k n => k + s.rd (Reg.ALM_KEYn_LENM1 n) + 1) 0

/-- ALM_STAT.CFG_BAD (R515). -/
def State.almCfgBad (s : State) : Bool := decide (s.snapw < 16) || decide (8192 < s.keyWords)

/-- The header word of a record of `n` words (R493). -/
def almHdr (kind n : Nat) : Nat := kind + 4 * n * 2 ^ 16

/-- The recording state follows EN, CFG_BAD and KR (R501): out of OFF, NOKEY and back; CFG_BAD ends a recording. -/
def almRefresh (s : State) : State :=
  let st := s.almState
  if st = almOFF || st = almNOKEY then
    s.wr Reg.ALM_STAT_STATE
      (if ! s.on Reg.ALM_CTRL_EN || s.almCfgBad then almOFF else if s.alm.kr.isNone then almNOKEY else almARMED)
  else if (st = almARMED || st = almPOST) && s.almCfgBad then s.wr Reg.ALM_STAT_STATE almOFF
  else s

/-- ALM_ENABLE (R501): a write of ALM_CTRL.EN; clearing it discards the ring. -/
def almEnable (b : Bool) (s : State) : State :=
  let was := s.on Reg.ALM_CTRL_EN
  let s := s.put Reg.ALM_CTRL_EN b
  if was && ! b && s.almState ≠ almREPLAY then
    setAlm { s.alm with ring := [], dumpLeft := [] } (s.wr Reg.ALM_STAT_STATE almOFF)
  else almRefresh s
def execAlmEnable (b : Bool) (s : State) : Out :=
  if ! s.live pdALM then .next s else
  done (almEnable b s)

/-- TRIG: a write of ALM_CTRL.TRIG is a trigger with source bit 7 (R502). -/
def execTrig (s : State) : Out :=
  if ! s.live pdALM then .next s else
  done (almTrigger 7 0 s)

/-- Discard the ring and both keyframes, then record again (R503). -/
def almRelease (s : State) : State :=
  if s.almState = almFROZEN then
    almRefresh ((setAlm { s.alm with ring := [], keys := [] } (s.wr Reg.ALM_STAT_STATE almOFF)).put Reg.ALM_STAT_RESET false)
  else s

/-- RELEASE: a write of ALM_CTRL.RELEASE (R503). -/
def execRelease (s : State) : Out :=
  if ! s.live pdALM then .next s else
  done (almRelease s)

/-! ### Sessions (R485, R500) -/

/-- A record goes to the live stream (R506) in ARMED and POST. -/
def almStream (r : AlmRec) (s : State) : State :=
  let ring := s.rd Reg.ALM_CTRL_SRING
  if s.on Reg.ALM_CTRL_STREAM && (s.almState = almARMED || s.almState = almPOST) && s.ringOpen ring rkALMANAC then
    streamRecord ring 0x80 r.fn r.words s
  else s

/-- A new session key S and recording identifier RID from the TRNG (R485). Without randomness no session begins. -/
def newSession (s : State) : State :=
  if s.alm.kr.isNone then s
  else if s.sec.trngFail then setAlm { s.alm with sessionOn := false } s
  else
    let (key, s) := s.draw 8
    let (rid, s) := s.draw 2
    setAlm { s.alm with session := s.alm.session + 1, skey := key, rid := rid.getD 0 0 + rid.getD 1 0 * 2 ^ 32, sessionOn := true,
                        sessDue := true } s

/-- The IV of the present session: RID and a word (R485). -/
def ridIv (rid w : Nat) : List Nat := [rid % 2 ^ 32, rid / 2 ^ 32, w]

/-- The SESSION record of the present session, whose first frame recorded is `fn`: S wrapped under KR (R500). -/
def State.sessionRec (s : State) (fn : Nat) : AlmRec :=
  let keyid := s.alm.kr.getD 0
  let aad := [almHdr 2 18, fn, s.alm.rid % 2 ^ 32, s.alm.rid / 2 ^ 32, keyid % 2 ^ 32, keyid / 2 ^ 32]
  let iv := ridIv s.alm.rid 0
  { kind := 2, fn := fn, sess := s.alm.session
    words := aad ++ gcmText s.alm.krKey iv aad s.alm.skey ++ gcmTag s.alm.krKey iv aad s.alm.skey }

/-- Before the first record under a session its SESSION record is stored, among the 200 latest, and streamed (R497, R500, R506). -/
def ensureSession (fn : Nat) (s : State) : State :=
  s.when s.alm.sessDue fun s =>
    let all := s.alm.sessions ++ [s.sessionRec fn]
    almStream (s.sessionRec fn) (setAlm { s.alm with sessDue := false, sessions := all.drop (all.length - 200) } s)

/-- KR installed from this frame (R484): the session begins, and recording with it (R501). -/
def installKr (s : State) : State :=
  match s.alm.krNext with
  | none => s
  | some id => newSession (almRefresh (setAlm { s.alm with kr := some id, krKey := s.alm.krKeyNext, krNext := none, krKeyNext := [] } s))

/-! ### Frame records (R493 to R495) -/

/-- Words of an engine's data memory, from word a on; past its last word they wrap to its first (log entry 2420). -/
def State.engWords (s : State) (n a len : Nat) : List Nat :=
  (List.range len).map fun i => SMap.get 0 (s.e n).data ((a + i) % 16384)

/-- An entry gives ODIG its words, in issue order (R494); the copy of a PUBLISH has ended, and the words copied take their place. -/
def odigAdd (x : OdigPart) (s : State) : State := { s with anv := { s.anv with odig := s.anv.odig ++ [x] } }
def odigFill (ws : List Nat) : List OdigPart → List OdigPart
  | [] => []
  | x :: xs => if x.src.isSome then { words := x.words ++ ws } :: xs else x :: odigFill ws xs

/-- ODIG (R494); words still to be copied count as they now stand. -/
def State.odig (s : State) : Nat :=
  crc32 (wordsBytes (s.anv.odig.flatMap fun x => x.words ++ match x.src with
    | some (n, a, len) => s.engWords n a len
    | none => []))

/-- The CTL an axis has in the next frame if nothing changes (R495): FIRST 0, FRAMES one more, saturating. -/
def ctlNext (c : Nat) : Nat := putBits (putBit c 7 false) 16 16 (min (bits c 16 16 + 1) 65535)

/-- A section of a frame record: its header and its words (R495). -/
def almSection (kind entries : Nat) (ws : List Nat) : List Nat :=
  (kind + entries * 2 ^ 8 + 4 * (ws.length + 1) * 2 ^ 16) :: ws

/-- The CTL section is present (R495). -/
def State.ctlDue (s : State) : Bool :=
  s.fidx = 0 || s.almAxes.any fun n => (s.a n).ctl ≠ ctlNext (SMap.get 0 s.alm.prevCtl n)

/-- The words of the SP section of one axis. -/
def State.spWords (s : State) (n : Nat) : List Nat :=
  ((List.range s.spw).filter fun i => i ≠ 1 && i ≠ 15).map fun i => s.bankWord n false i

/-- Up to 15 delivery entries of 12 bytes (R495). -/
def irqEntries (ds : List (Nat × Nat × Nat × Nat)) : List Nat :=
  (ds.take 15).flatMap fun (ic, src, pair, cause) =>
    [ic % 2 ^ 32, ic / 2 ^ 32 % 2 ^ 32, src % 2 ^ 8 + pair % 2 * 2 ^ 8 + cause % 32 * 2 ^ 9]

/-- FLAGS of a frame record (R493), its sections apart. -/
def State.almFlags (s : State) (ctl sp irqs : Bool) : Nat :=
  s.rd Reg.ANV_STAT_MODE + b2n s.anv.ovrNow * 8 + b2n s.anv.slipNow * 16 +
    b2n (s.anv.incomp || decide (s.anv.snapshot.length < s.snapw)) * 32 + b2n s.alm.loadNow * 64 +
    b2n s.alm.grantNow * 128 + s.fidx * 2 ^ 8 + s.claim * 2 ^ 16 + b2n (decide (s.dev.state = .lee)) * 2 ^ 24 +
    b2n s.alm.keyTaken * 2 ^ 25 + b2n ctl * 2 ^ 26 + b2n sp * 2 ^ 27 + b2n irqs * 2 ^ 28 +
    b2n (irqs && decide (15 < s.alm.deliveries.length)) * 2 ^ 29

/-- The plaintext of the frame record: FLAGS, ODIG, payload, sections. -/
def State.framePlain (s : State) : List Nat :=
  let ctl := s.ctlDue
  let sp := decide (s.fidx = 0)
  let ds := s.alm.deliveries
  let irqs := s.on Reg.ALM_CTRL_ILOG && ds ≠ []
  let axes := s.almAxes
  [s.almFlags ctl sp irqs, s.odig] ++ padTo s.snapw s.anv.snapshot ++
    (if ctl then almSection 1 axes.length (axes.map fun n => (s.a n).ctl) else []) ++
    (if sp then almSection 2 axes.length (axes.flatMap s.spWords) else []) ++
    (if irqs then almSection 3 (min ds.length 15) (irqEntries ds) else [])

/-- The frame record, encrypted under S (R493). -/
def State.frameRecord (s : State) : AlmRec :=
  let p := s.framePlain
  let aad := [almHdr 1 (p.length + 6), s.fn]
  let iv := ridIv s.alm.rid s.fn
  { kind := 1, fn := s.fn, sess := s.alm.session,
    words := aad ++ gcmText s.alm.skey iv aad p ++ gcmTag s.alm.skey iv aad p }

/-- Bytes of the frame ring (R497). -/
def ringBytes : Nat := 12498944

/-- Bytes of a list of records. -/
def recBytes (l : List AlmRec) : Nat := l.foldl (fun n r => n + 4 * r.words.length) 0

/-- Overwrite the oldest records until those left fit (R497). -/
def trimRing : List AlmRec → Nat → List AlmRec
  | [], _ => []
  | r :: rs, total => if total ≤ ringBytes then r :: rs else trimRing rs (total - 4 * r.words.length)

/-- A frame record is due in this state (R493): ARMED, or POST with records to come, under a session. -/
def State.recording (s : State) : Bool :=
  s.alm.sessionOn && s.live pdALM &&
    (s.almState = almARMED || (s.almState = almPOST && ! (s.alm.trigWritten && decide (s.alm.postLeft = 0))))

/-- One frame record is written; in POST the frames after the trigger frame are counted (R501). -/
def putRecord (s : State) : State :=
  if ! s.recording then s
  else
    let s := ensureSession s.fn s
    let r := s.frameRecord
    let ring := s.alm.ring ++ [r]
    let s := setAlm { s.alm with ring := trimRing ring (recBytes ring), recNow := true } s
    let s := almStream r s
    if s.almState ≠ almPOST then s
    else if ! s.alm.trigWritten then setAlm { s.alm with trigWritten := true } s
    else setAlm { s.alm with postLeft := s.alm.postLeft - 1 } s

/-! ### Keyframes (R496) -/

/-- The identity of an engine in a keyframe (R496): PROG_ID, D of the last ENGINE container, D of the last SEALED one. -/
def State.engIdentity (s : State) (n : Nat) : List Nat :=
  s.rd (Reg.CEC_En_ID n) :: (padTo 4 (SMap.get [] s.sec.engD n) ++ padTo 2 (SMap.get [] s.sec.seaD n))

/-- MODE_ID of modes 0 to 7. -/
def State.modeIds (s : State) : List Nat :=
  (List.range 8).flatMap fun m => [s.rd (Reg.FDL_Mm_IDL m), s.rd (Reg.FDL_Mm_IDH m)]

/-- ALM_CFG as one word. -/
def State.almCfg (s : State) : Nat :=
  s.rd Reg.ALM_CFG_SNAPW + s.rd Reg.ALM_CFG_AXMASK * 2 ^ 8 + s.rd Reg.ALM_CFG_SPW * 2 ^ 16 + s.rd Reg.ALM_CFG_ENGMASK * 2 ^ 18

/-- ALM_KEYn as one word. -/
def State.almKey (s : State) (n : Nat) : Nat := s.rd (Reg.ALM_KEYn_BASE n) + s.rd (Reg.ALM_KEYn_LENM1 n) * 2 ^ 16

/-- The mode of the next frame. -/
def State.nextMode (s : State) : Nat :=
  let m := s.rd Reg.ANV_STAT_ARMED_MODE
  if s.on Reg.ANV_STAT_ARMED && s.modeValid m then m else s.rd Reg.ANV_STAT_MODE

/-- The state regions of the keyframe, as data memory stands. -/
def State.keyRegions (s : State) : List Nat :=
  s.almEngs.flatMap fun n =>
    (List.range (s.rd (Reg.ALM_KEYn_LENM1 n) + 1)).map fun i =>
      SMap.get 0 (s.e n).data ((s.rd (Reg.ALM_KEYn_BASE n) + i) % 16384)

/-- The keyframe of the following frame. -/
def State.keyframe (s : State) : AlmRec :=
  let reg := s.keyRegions
  let fc := s.time.fc.toNat + 1
  let fn := fc % 2 ^ 32
  let head := [almHdr 3 (100 + reg.length), fn, fn, fc / 2 ^ 32 % 2 ^ 32, s.frameTicks,
      s.cycleFrames % 2 ^ 16 + s.nextMode * 2 ^ 16 + s.rd Reg.ALM_CFG_ENGMASK * 2 ^ 24, s.almCfg, 0] ++
    s.modeIds ++ (List.range 8).flatMap s.engIdentity ++ (List.range 8).map (fun n => s.rd (Reg.SYS_AXn_LIM n)) ++
    (List.range 8).map s.almKey
  let iv := ridIv (s.alm.rid ^^^ 0x80) fn
  { kind := 3, fn := fn, sess := s.alm.session,
    words := head ++ gcmText s.alm.skey iv head reg ++ gcmTag s.alm.skey iv head reg }

/-- A keyframe is to be taken at this END: the boundary after it is a multiple of KEY_INT, or the last one was late. -/
def State.keyDue (s : State) : Bool :=
  s.recording && s.fidx + 1 = s.cycleFrames &&
    (s.alm.keyRetry || decide ((s.cn + 1) % 2 ^ 32 % s.rd Reg.ALM_CFG2_KEY_INT = 0))

/-- The keyframe at END (R496): the slot of the older one takes it; too late, it is attempted in the next cycle. -/
def takeKey (s : State) : State :=
  if ! s.keyDue then s
  else if s.frameMinClk < s.time.ft + ceilDiv s.keyWords 4 + 16 then
    (setAlm { s.alm with keyRetry := true } s).later { code := Fc.ALM_KEY_LATE }
  else
    let k := s.keyframe
    let s := ensureSession k.fn s
    let keys := s.alm.keys.drop (s.alm.keys.length - 1) ++ [k]
    almStream k (setAlm { s.alm with keys := keys, keyRetry := false, keyTaken := true } s)

/-- The Almanac at END (R493, R496): the frame record, unless it cannot be written in time, and the keyframe. KEY of the
record tells of the keyframe taken before this frame. -/
def almEnd (inTime : Bool) (s : State) : State :=
  let s := if inTime then putRecord s else s.when s.recording (setAlm { s.alm with pendingRec := true })
  takeKey (setAlm { s.alm with keyTaken := false } s)

/-- The Almanac at the frame tick, before FC counts (R493, R495, R512): a record still unwritten is lost; a frame without
END leaves its record now, with INCOMP; the marks of the frame end, and the trigger's frame with it. -/
def almFrameEnd (running endReached : Bool) (s : State) : State :=
  let s := s.when s.alm.pendingRec fun s =>
    ((setAlm { s.alm with pendingRec := false } s).inc Reg.ALM_DROP_OVERRUN).later { code := Fc.ALM_OVERRUN }
  let s := s.when (running && ! endReached) fun s =>
    let s := putRecord { s with anv := { s.anv with incomp := true } }
    setAlm { s.alm with keyTaken := false } s
  let prev := (List.range 8).foldl (fun m n => SMap.set 0 m n (s.a n).ctl) s.alm.prevCtl
  setAlm { s.alm with prevCtl := prev, deliveries := [], loadNow := false, grantNow := false, recNow := false,
                      trigWritten := s.alm.trigWritten || decide (s.almState = almPOST) } s

/-- The Almanac after the frame tick: a recording key from this frame, a new session when FN wraps or Fudorlink has loaded
CT (R485), ALM_NOKEY at the first frame the Anvil runs (R501). -/
def almFrameStart (s : State) : State :=
  let due := s.alm.loadDue && s.dev.state ≠ .replay
  let s := setAlm { s.alm with loadDue := false } s
  let s := if s.alm.krNext.isSome then installKr s else s.when (s.fn = 0 || due) newSession
  if s.on Reg.ANV_STAT_RUNNING && s.almState = almNOKEY && ! s.alm.nokeyUp then
    (setAlm { s.alm with nokeyUp := true } s).later { code := Fc.ALM_NOKEY }
  else s

/-! ### Freezing and dumps (R501, R504, R505) -/

/-- The session of a record is held (R497); the frame records a dump sends. -/
def State.sessHeld (s : State) (r : AlmRec) : Bool := s.alm.sessions.any fun x => x.sess = r.sess
def State.dumpFrames (s : State) : List AlmRec := s.alm.ring.filter s.sessHeld

/-- A record takes its place by ascending FN. -/
def putByFn (r : AlmRec) : List AlmRec → List AlmRec
  | [] => [r]
  | x :: xs => if r.fn < x.fn then r :: x :: xs else x :: putByFn r xs

/-- The records a dump sends before the SEAL, in order (R504): SESSION records of the frames and keyframes sent, by ascending FN, the
held keyframes, the TRIGGER record, frame records of the sessions held. -/
def State.dumpRecords (s : State) : List AlmRec :=
  let used := s.alm.sessions.filter fun x => (s.dumpFrames ++ s.alm.keys).any fun r => r.sess = x.sess
  used.foldl (fun l r => putByFn r l) [] ++ s.alm.keys ++ s.alm.trigger.toList ++ s.dumpFrames

/-- A frame record belongs to a session no longer held (R497). -/
def State.sessLost (s : State) : Bool := s.alm.ring.any fun r => ! s.sessHeld r

/-- A dump starts, if its ring is ready (R504). -/
def startDump (s : State) : State :=
  if s.ringOpen (s.rd Reg.ALM_CTRL_SRING) rkALMANAC then
    let s := s.when s.sessLost (·.put Reg.ALM_STAT_SESSLOST true)
    setAlm { s.alm with dumpLeft := s.dumpRecords, dumpSent := 0, dumpHash := zeros 12 } (s.wr Reg.ALM_STAT_STATE almDUMPING)
  else s

/-- A write of DUMP: in FROZEN only; refused with DDENY while the ring is not ready (R504). -/
def almDump (s : State) : State :=
  if s.almState ≠ almFROZEN then s
  else if s.ringOpen (s.rd Reg.ALM_CTRL_SRING) rkALMANAC then startDump s
  else s.put Reg.ALM_STAT_DDENY true

/-- DUMP: a write of ALM_CTRL.DUMP (R504). -/
def execDump (s : State) : Out :=
  if ! s.live pdALM then .next s else
  done (almDump s)

/-- ALM_FREEZE (R501): POST further records are written; the ring is frozen. AUTODUMP starts a dump. -/
def execAlmFreeze (s : State) : Out :=
  if ! s.live pdALM then .next s else
  if s.almState = almPOST && s.alm.trigWritten && decide (s.alm.postLeft = 0) then
    let s := s.wr Reg.ALM_STAT_STATE almFROZEN
    done (s.when (s.on Reg.ALM_CTRL_AUTODUMP) startDump)
  else .next s

/-- DUMP_RECORD (R504, R505, R512): the next record, when the ring has room for all of it. `bad` is the record as it reads
with an uncorrectable error in it. -/
def execDumpRecord (bad : Option (List Word)) (s : State) : Out :=
  if ! s.live pdALM then .next s else
  let ring := s.rd Reg.ALM_CTRL_SRING
  match s.alm.dumpLeft with
  | [] => .next s
  | r :: rs =>
    let ws := match bad with
      | none => r.words
      | some b => padTo r.words.length (b.map BitVec.toNat)
    if s.almState = almDUMPING && s.ringOpen ring rkALMANAC && decide (streamUnits ws.length ≤ s.ringFree ring) then
      let s := streamRecord ring 0x80 r.fn ws s
      let s := setAlm { s.alm with dumpLeft := rs, dumpSent := s.alm.dumpSent + 1,
                                   dumpHash := sha384 (s.alm.dumpHash ++ ws) } s
      done (if bad.isSome then raiseDev Fc.ALM_ECC_UNCORR (s.inc Reg.ALM_DROP_ECC) else s)
    else .next s

/-- Epoch e (R439): 1 in RETURN. -/
def State.epoch1 (s : State) : Nat := b2n (decide (s.rd Reg.SEC_STAT_LC = 3))

/-- The seeds of the DIK in force (R439). -/
def State.dik (s : State) : List Nat := dikSeeds s.sec.drs s.epoch1

/-- The SEAL record (R505). -/
def State.sealRecord (s : State) : AlmRec :=
  let frames := s.dumpFrames
  let last := (frames.getLast?.map AlmRec.fn).getD 0
  let first := (frames.head?.map AlmRec.fn).getD 0
  let body := [almHdr 5 8936, last, s.sec.serial % 2 ^ 32, s.sec.serial / 2 ^ 32, first, s.alm.dumpSent, s.epoch1, 0] ++
    s.alm.dumpHash
  { kind := 5, fn := last, words := body ++ dikSign s.dik (sha384 body) }

/-- SEAL (R504, R505): every record is sent; the signed SEAL follows and the dump ends. -/
def execSeal (s : State) : Out :=
  if ! s.live pdALM then .next s else
  let ring := s.rd Reg.ALM_CTRL_SRING
  let r := s.sealRecord
  if s.almState = almDUMPING && decide (s.alm.dumpLeft = []) && s.ringOpen ring rkALMANAC &&
      decide (streamUnits r.words.length ≤ s.ringFree ring) then
    let s := raiseDev Fc.ALM_DUMPED (streamRecord ring 0x80 r.fn r.words s)
    if s.on Reg.ALM_CTRL_REARM then done (almRefresh (setAlm { s.alm with ring := [] } (s.wr Reg.ALM_STAT_STATE almOFF)))
    else done (s.wr Reg.ALM_STAT_STATE almFROZEN)
  else .next s

/-- The Almanac at a reset that PD_ALM survives (R503, R512): a recording that ran is frozen, a dump is to be repeated. -/
def almReset (s : State) : State :=
  let st := s.almState
  if st = almARMED || st = almPOST || st = almFROZEN || st = almDUMPING then
    let armed := decide (st = almARMED)
    let fn := (s.alm.ring.getLast?.map AlmRec.fn).getD 0
    let s := (s.wr Reg.ALM_STAT_STATE almFROZEN).put Reg.ALM_STAT_RESET true
    let fc := s.time.fc.toNat
    let s := if armed then
        setAlm { s.alm with trigFc := fc - (fc + 2 ^ 32 - fn) % 2 ^ 32, trigPost := s.rd Reg.ALM_CFG2_POST } s
      else s
    let s := if armed then putTrigger (((s.wr Reg.ALM_TRFN fn).wr Reg.ALM_TRSRC_SRC 0x100).wr Reg.ALM_TRSRC_CODE 0) else s
    setAlm { s.alm with dumpLeft := [], pendingRec := false } s
  else s

end Sys2Proof.Machine
end

