-- ==== Sys2Proof/Machine/Sched.lean ====
section
/-! DEFINITION. The Anvil table: the regions its entries may name (R58, R63, R64) and the validation of a mode (R52). -/
namespace Sys2Proof.Machine

/-- The Anvil and its replacement. -/
def setAnv (x : AnvSt) (s : State) : State := { s with anv := x }

/-- The parts of the address map that entries name: frame input buffer, setpoint aliases, engine windows (R64, R89). -/
def fibBase : Nat := 0x40038000
def activeBase : Nat := 0x4003A000
def engBase : Nat := 0x42000000

/-- The engine whose data memory holds the span of `n` bytes from `a`; none if no one engine's does. -/
def engSpan (a n : Nat) : Option Nat :=
  let e := (a - engBase) / 2 ^ 20
  if engBase ≤ a ∧ e < 8 ∧ (a - engBase) % 2 ^ 20 + n ≤ 2 ^ 16 then some e else none

/-- A span meets the status buffer (R64). -/
def State.inStatus (s : State) (a n : Nat) : Bool :=
  decide (a < s.statusBase + 2 ^ 14) && decide (s.statusBase < a + n)

/-- A permitted source and a permitted destination of a MOVE of `n` bytes (R63). -/
def State.moveSrcOk (s : State) (a n : Nat) : Bool :=
  decide (fibBase ≤ a ∧ a + n ≤ activeBase + 0x800) || (engSpan a n).isSome || (inSram a n && ! s.inStatus a n)
def State.moveDstOk (_ : State) (a n : Nat) : Bool := (engSpan a n).isSome || inSram a n

/-- The axis whose pending-bank alias starts at an address (R58, R64). -/
def pendingAxis (a : Nat) : Option Nat := (List.range 8).find? fun n => a = pendingBase n

/-- A permitted BUF of an EXCHANGE (R58). -/
def bufOk (e : Nat) : Bool :=
  enNet e || inSram (enBuf e) (4 * enXLen e) || (enDir e && (pendingAxis (enBuf e)).isSome)

/-! ### Validation (R52) -/

/-- The operand bits of an opcode (R58), from bit 40; every other bit above bit 39 is reserved. -/
def opFields : Nat → List (Nat × Nat)
  | 1 => [(40, 6)]
  | 2 => [(40, 10)]
  | 3 => [(40, 12), (64, 64)]
  | 4 => [(40, 19)]
  | 5 => [(40, 9), (64, 20)]
  | 6 => [(40, 14), (64, 32)]
  | 7 => [(40, 2), (48, 16)]
  | 8 => [(40, 3), (48, 14), (64, 8), (80, 12)]
  | 9 => [(40, 8), (48, 14), (64, 21)]
  | 10 => [(40, 8), (64, 32)]
  | 11 => [(40, 2), (48, 7), (56, 5), (64, 4)]
  | _ => []

/-- A reserved bit of an entry is set (R55, R58). -/
def reservedSet (e : Nat) : Bool :=
  let left := (opFields (enOp e)).foldl (fun v f => putBits v f.1 f.2 0) e
  bits e 29 3 ≠ 0 || bits left 40 88 ≠ 0

/-- The index of the first entry a check fails on. -/
def firstBad (es : List Nat) (bad : Nat → Bool) : Option Nat := es.findIdx? bad

/-- Offsets that do not rise, from an entry with index `i` after one with offset `o`. -/
def notRising : Nat → Nat → List Nat → Option Nat
  | _, _, [] => none
  | i, o, e :: es => if enOffset e ≤ o then some i else notRising (i + 1) (enOffset e) es

/-- The entry acts in a frame with index `f` (R57). -/
def actsIn (f e : Nat) : Bool := ! enPhen e || enOp e = opMODE || enPhase e = f

/-- The data memories an entry reads or writes. -/
def entryEngs (e : Nat) : List Nat :=
  if enOp e = opMOVE then (engSpan (enSrc e) (4 * enMoveLen e)).toList ++ (engSpan (enDst e) (4 * enMoveLen e)).toList
  else if enOp e = opPUBLISH then [enPubEng e]
  else if enOp e = opLAUNCH then [enLEng e]
  else []

/-- The engines that run between RUN and AWAIT in one frame, with the entry that ran each: the entries that break code 0x6
and those that break code 0x7 for it. -/
def runWalk (f : Nat) : Nat → SMap (Option Nat) → List Nat → List Nat × List Nat
  | _, run, [] => (run.filterMap Prod.snd, [])
  | i, run, e :: es =>
    let running := fun n => (SMap.get none run n).isSome
    if ! actsIn f e then runWalk f (i + 1) run es
    else if enOp e = opRUN then
      let engs := bitsOf 8 (enEngMask e)
      let again := engs.any running
      let r := runWalk f (i + 1) (engs.foldl (fun m n => SMap.set none m n (some i)) run) es
      if again then (i :: r.1, r.2) else r
    else if enOp e = opAWAIT then
      runWalk f (i + 1) ((bitsOf 8 (enEngMask e)).foldl (fun m n => SMap.set none m n none) run) es
    else
      let r := runWalk f (i + 1) run es
      if (entryEngs e).any running then (r.1, i :: r.2) else r

/-- The frames of a cycle that differ in the entries that act: one per PHASE named, and one that none names. -/
def walkFrames (cycle : Nat) (es : List Nat) : List Nat :=
  let named := (es.filter enPhen).map enPhase
  named ++ ((List.range cycle).find? fun f => ! named.contains f).toList

/-- The least number of a list. -/
def least : List Nat → Option Nat
  | [] => none
  | a :: as => match least as with
    | some b => some (min a b)
    | none => some a

/-- What code 0x7 says of one entry alone. -/
def State.entryBad (s : State) (e : Nat) : Bool :=
  let op := enOp e
  if op = opMOVE then
    let n := 4 * enMoveLen e
    decide (enSrc e % 4 ≠ 0) || decide (enDst e % 4 ≠ 0) || ! s.moveSrcOk (enSrc e) n || ! s.moveDstOk (enDst e) n
  else if op = opEXCHANGE then ! enNet e && (decide (enBuf e % 4 ≠ 0) || ! bufOk e)
  else if op = opRECORD then
    decide (enSrc e % 4 ≠ 0) || decide (enSrc e < fibBase) || decide (fibBase + 0x2000 < enSrc e + 4 * enRecLen e)
  else if op = opPUBLISH then decide (enSoff e = 0) || decide (4096 < enSoff e + enPubLen e)
  else false

/-- The lead of a LAUNCH in clocks (R70). -/
def launchLead (tgt : Nat) : Nat := if tgt = 1 then 16 else 200

/-- What code 0x9 says of one entry. -/
def State.launchBad (s : State) (e : Nat) : Bool :=
  let tgt := enTgt e
  enOp e = opLAUNCH && (decide (tgt = 0) || (tb tgt 0 && decide (3 < enAxis e)) ||
    decide (enApply e < enOffset e + launchLead tgt) || decide (2 * s.frameTicks ≤ enApply e))

/-- The table entries of a mode, as a span. -/
def State.modeSpan (s : State) (m : Nat) : Nat × Nat :=
  (s.rd (Reg.ANV_MODEn_BASE m), s.rd (Reg.ANV_MODEn_LENM1 m) + 1)

/-- The index within a span of its first entry that lies in another span, if they overlap. -/
def overlapAt (a b : Nat × Nat) : Option Nat :=
  if a.1 < b.1 + b.2 ∧ b.1 < a.1 + a.2 then some (b.1 - a.1) else none

/-- The first failing check of the frame program of mode m: its code and its entry, where the check concerns one. `ecc` is the
first entry with an uncorrectable error. Of several failing checks the one with the lowest code counts, at its first entry (log entry 2425). -/
def State.progCheck (s : State) (m : Nat) (ecc : Option Nat) : Nat × Option Nat :=
  let es := s.modeEntries m
  let fmc := s.frameMinClk
  let all := fun (o : Option Nat) => o.map some
  let walks := (walkFrames s.cycleFrames es).map fun f => runWalk f 0 [] es
  let modes := (List.range es.length).filter fun i => enOp (es.getD i 0) = opMODE
  let recs := es.filter fun e => enOp e = opRECORD
  let total := recs.foldl (fun n e => n + enRecLen e) 0
  let checks : List (Nat × Option (Option Nat)) := [
    (0x1, all (notRising 1 (enOffset (es.headD 0)) es.tail)),
    (0x2, all (firstBad es fun e => decide (fmc < enOffset e) || (enOp e = opAWAIT && decide (fmc < enDeadline e)))),
    (0x3, all (firstBad es fun e => decide (opEND < enOp e) || reservedSet e || (enOp e = opSAMPLE && enKind e = 3))),
    (0x4, match es.findIdx? fun e => enOp e = opEND with
      | none => some none
      | some i => if i + 1 = es.length then none else some (some i)),
    (0x5, match modes with
      | [] => some none
      | [_] => none
      | _ :: j :: _ => some (some j)),
    (0x6, all (least (walks.flatMap Prod.fst))),
    (0x7, all (least (walks.flatMap Prod.snd ++ (firstBad es s.entryBad).toList))),
    (0x8, match firstBad es fun e => enOp e = opRECORD && enPhen e with
      | some i => some (some i)
      | none => if total = s.snapw then none else some none),
    (0x9, all (firstBad es s.launchBad)),
    (0xA, all (least ((List.range 8).filterMap fun j =>
      if j ≠ m ∧ s.modeValid j then overlapAt (s.modeSpan m) (s.modeSpan j) else none))),
    (0xB, all (firstBad es fun e => enPhen e && enOp e ≠ opMODE && decide (s.cycleFrames ≤ enPhase e))),
    (0xC, all (firstBad es fun e => enOp e = opAWAIT && decide (enDeadline e ≤ enOffset e))),
    (0xD, all ecc),
    (0xE, all (firstBad es fun e => enOp e = opMODE && decide (enOffset e < s.agreeOfs m)))]
  match checks.find? fun c => c.2.isSome with
  | some (code, some e) => (code, e)
  | _ => (0, none)

/-- A mode loses its VALID bit (R51, R53). CODE and ENTRY of its last validation stay as they read (log entry 2422). -/
def modeInvalid (m : Nat) (s : State) : State := (s.wrBit Reg.ANV_STAT_VALID m false).put (Reg.ANV_VALn_VALID m) false

/-- Validation of mode m ends (R52, R325): both parts are recorded, VALID sets if both pass; source 21. An entry the check
does not name is a free value. -/
def validate (m : Nat) (ecc : Option Nat) (s : State) : State :=
  let (code, at') := s.progCheck m ecc
  let (rcode, rslot) := s.regionCheck m
  let shown := if code = 0 ∧ rcode ≠ 0 then 0xF else code
  let s := (s.wr (Reg.FDL_Mm_VAL_CODE m) rcode).wr (Reg.FDL_Mm_VAL_SLOT m) rslot
  let s := setAnv { s.anv with validating := s.anv.validating.filter (· ≠ m) } s
  let s := (s.wrBit Reg.ANV_STAT_VALID m (decide (shown = 0))).put (Reg.ANV_VALn_VALID m) (decide (shown = 0))
  let s := s.wr (Reg.ANV_VALn_CODE m) shown
  let s := if shown = 0 then s.wr (Reg.ANV_VALn_ENTRY m) 0
    else match at' with
      | some i => s.wr (Reg.ANV_VALn_ENTRY m) i
      | none => let (v, s) := s.free; s.wr (Reg.ANV_VALn_ENTRY m) (v % 2048)
  irq 21 s

end Sys2Proof.Machine
end

