-- ==== Sys2Proof/Machine/Can.lean ====
section
/-! DEFINITION. The two CAN FD controllers (R372 to R376, R380). -/
namespace Sys2Proof.Machine

/-- Controller c, and its replacement. -/
def State.cc (s : State) (c : Nat) : CanSt := SMap.get {} s.can c
def State.setCc (s : State) (c : Nat) (x : CanSt) : State := { s with can := SMap.set {} s.can c x }

/-- The controller is on. -/
def State.canOn (s : State) (c : Nat) : Bool := s.on (Reg.CAN_Cc_CTRL_EN c)

/-- The states of a controller (R375, CAN_Cc_STAT). -/
def canACTIVE : Nat := 0
def canPASSIVE : Nat := 1
def canBUSOFF : Nat := 2

/-- CAN_TX (R374): at its apply tick the frame enters the transmit queue, or completes BUSY. -/
def execCanTx (s : State) : Out :=
  if ! s.live pdHIF then .next s else
  applyDue ocCAN_TX s fun c s =>
    let n := c.canCtl
    let x := s.cc n
    if 16 ≤ x.txq.length then complete c stBUSY (s.late c) [] s
    else
      let data := if c.canPtr then c.data else c.desc.drop 5
      let f : CanFrame := { cmd := { c with late := s.late c }, w3 := c.w 3, w4 := c.w 4
                            data := padTo (ceilDiv c.canLen 4) data, at' := s.ctTicks }
      s.setCc n { x with txq := x.txq ++ [f] }

/-- The frame the queue sends first (R374): the lowest identifier; of equal ones the first applied. -/
def firstFrame : List CanFrame → Option CanFrame
  | [] => none
  | f :: fs =>
    match firstFrame fs with
    | none => some f
    | some g => if bits g.w3 0 29 < bits f.w3 0 29 then some g else some f

/-- CAN_TX_STALE (R374): a frame not begun by the end of its deadline frame is removed; `onBus` is the place in the queue of the
frame that has begun. -/
def execCanTxStale (c : Fin 2) (onBus : Option (Fin 16)) (s : State) : Out :=
  if ! s.live pdHIF then .next s else
  let x := s.cc c
  let late := (List.range x.txq.length).find? fun k =>
    decide (onBus.map Fin.val ≠ some k) && (x.txq[k]?).any fun f => decide (dist32 s.fn f.cmd.deadline < 0)
  match late.bind fun k => x.txq[k]?.map (Prod.mk k) with
  | none => .next s
  | some (k, f) => done (complete f.cmd stSTALE f.cmd.late [] (s.setCc c { x with txq := x.txq.eraseIdx k }))

/-- The first enabled filter that accepts an identifier (R373). -/
def State.canFilter (s : State) (c : Nat) (id : Nat) (ide : Bool) : Option Nat :=
  (List.range 32).find? fun f =>
    let m := s.rd (Reg.CAN_Cc_Ff_MASK c f)
    s.on (Reg.CAN_Cc_Ff_ID_EN c f) && s.on (Reg.CAN_Cc_Ff_ID_IDE c f) = ide &&
      decide (andW id m = andW (s.rd (Reg.CAN_Cc_Ff_ID_FID c f)) m)

/-- A filter accepts a frame: its timeout starts again (R376). -/
def canSeen (c f : Nat) (s : State) : State :=
  let x := s.cc c
  s.setCc c { x with age := SMap.set 0 x.age f 0, timedOut := SMap.set false x.timedOut f false }

/-- The descriptors of a received frame (R373). -/
def canDescs (c f fn : Nat) (x : CanRx) : List (List Nat) :=
  let n := if x.rtr then 0 else x.len.val
  let words := bytesWords 19 (padTo n (x.data.map BitVec.toNat))
  let ncont := ceilDiv (n - 12) 28
  let w0 := 0x10 + ncont * 2 ^ 8 + c * 2 ^ 12
  let w2 := x.id.toNat + b2n x.ide * 2 ^ 29 + b2n x.fdf * 2 ^ 30 + b2n x.brs * 2 ^ 31
  let w3 := x.len.val + b2n x.esi * 2 ^ 7 + b2n x.rtr * 2 ^ 8 + f * 2 ^ 16
  ([w0, fn, w2, w3, x.sof.toNat] ++ words.take 3) ::
    (List.range ncont).map fun k => 0x11 :: (words.drop (3 + 7 * k)).take 7

/-- A guard fault of filter f, by its CLASS (R376). -/
def canGuard (c f : Nat) (s : State) : State :=
  irq (183 + 4 * c) (raiseDev (if s.on (Reg.CAN_Cc_Ff_GRD_CLASS c f) then Fc.CAN_GUARD_S c else Fc.CAN_GUARD_M c) s)

/-- The frame passes the guard of filter f (R373, R376). -/
def State.canInRange (s : State) (c f : Nat) (x : CanRx) : Bool :=
  decide (s.rd (Reg.CAN_Cc_Ff_GRD_LENMIN c f) ≤ x.len.val ∧ x.len.val ≤ s.rd (Reg.CAN_Cc_Ff_GRD_LENMAX c f)) &&
    (! x.fdf || s.on (Reg.CAN_Cc_Ff_GRD_FDOK c f))

/-- What controller c does with a frame it receives (R373): filtered, guarded, written to its ring. -/
def canReceive (c : Nat) (x : CanRx) (s : State) : State :=
  match s.canFilter c x.id.toNat x.ide with
  | none => s
  | some f =>
    let s := canSeen c f s
    if ! s.canInRange c f x then canGuard c f (s.inc (Reg.CAN_Cc_CNT_GUARDFAIL c))
    else
      let r := s.rd (Reg.CAN_Cc_CTRL_RXRING c)
      let ds := canDescs c f s.fn x
      if s.ringOpen r rkEVENT && decide (ds.length ≤ s.ringFree r) then irq (180 + 4 * c) (ringWrite r ds s)
      else raiseDev (Fc.CAN_RX_DROP c) (s.inc (Reg.CAN_Cc_CNT_RXDROP c))

/-- CAN_RX (R373): a frame has been received from the bus. In internal loopback the controller hears only itself (R372; log
entry 2434). -/
def execCanRx (c : Fin 2) (x : CanRx) (s : State) : Out :=
  if ! s.live pdHIF then .next s else
  if ! s.canOn c || s.on (Reg.CAN_Cc_CTRL_LOOP c) || s.rd (Reg.CAN_Cc_STAT_STATE c) = canBUSOFF ||
      (x.fdf && ! s.on (Reg.CAN_Cc_CTRL_FDEN c)) || (x.rtr && x.fdf) then .next s
  else done (canReceive c x s)

/-- A sent frame as the controller that loops it back receives it (R372). -/
def State.looped (s : State) (c : Nat) (f : CanFrame) (sof : Nat) : CanRx :=
  let len := bits f.w4 0 7
  { id := BitVec.ofNat 29 f.w3, ide := tb f.w3 29, fdf := tb f.w3 30, brs := tb f.w3 31
    esi := tb f.w3 30 && s.rd (Reg.CAN_Cc_STAT_STATE c) = canPASSIVE, rtr := tb f.w4 9
    len := Fin.ofNat 65 len, data := ((wordsBytes f.data).take len).map (BitVec.ofNat 8), sof := BitVec.ofNat 32 sof }

/-- A queued frame can be sent: a classical one, or an FD frame while FDEN is 1 (R372, R380). -/
def State.canSends (s : State) (c : Nat) (f : CanFrame) : Bool := ! tb f.w3 30 || s.on (Reg.CAN_Cc_CTRL_FDEN c)

/-- The controller transmits: it is on, not bus-off, and not a bus monitor, unless it sends to itself only (R372). -/
def State.canTalks (s : State) (c : Nat) : Bool :=
  s.canOn c && (! s.on (Reg.CAN_Cc_CTRL_LISTEN c) || s.on (Reg.CAN_Cc_CTRL_LOOP c)) &&
    s.rd (Reg.CAN_Cc_STAT_STATE c) ≠ canBUSOFF

/-- CAN_TX_DONE (R374): a queued frame has been sent; `sof` is the whole ticks of CT at its start of frame. With LOOP the
controller receives it as well (R372). -/
def execCanTxDone (c : Fin 2) (sof : BitVec 64) (s : State) : Out :=
  if ! s.live pdHIF then .next s else
  let x := s.cc c
  let fn := sof.toNat / s.frameTicks % 2 ^ 32
  match firstFrame (x.txq.filter fun f => decide (f.at' ≤ sof.toNat) && s.canSends c f) with
  | none => .next s
  | some f =>
    if ! s.canTalks c || decide (s.ctTicks < sof.toNat) || decide (dist32 fn f.cmd.deadline < 0) then .next s
    else
      let s := s.setCc c { x with txq := x.txq.erase f }
      let s := irq (181 + 4 * c) (completeAt f.cmd stOK s.fn (sof.toNat % 2 ^ 32) f.cmd.late [] s)
      done (s.when (s.on (Reg.CAN_Cc_CTRL_LOOP c)) fun s => canReceive c (s.looped c f sof.toNat) s)

/-- Bus-off (R374, R375): every queued frame completes BUS_OFF; with AUTO_REC the recovery sequence runs. -/
def canBusOff (c : Nat) (s : State) : State :=
  let x := s.cc c
  let s := s.setCc c { x with txq := [], recovering := s.on (Reg.CAN_Cc_CTRL_AUTO_REC c) }
  x.txq.foldl (fun s f => complete f.cmd stBUS_OFF f.cmd.late [] s) s

/-- CAN_ERROR_STATE (R375): the controller is under ISO 11898-1 in state `st` with the counts given, which TEC and REC follow;
a change of state is reported. It leaves bus-off only for error active and only by the recovery sequence. -/
def execCanErrorState (c : Fin 2) (st : Fin 3) (tec : BitVec 8) (rec : BitVec 7) (s : State) : Out :=
  if ! s.live pdHIF then .next s else
  let old := s.rd (Reg.CAN_Cc_STAT_STATE c)
  if ! s.canOn c || (old = canBUSOFF && st.val ≠ canBUSOFF && ! (st.val = canACTIVE && (s.cc c).recovering)) then .next s
  else if old = st.val then .next ((s.wr (Reg.CAN_Cc_STAT_TEC c) tec.toNat).wr (Reg.CAN_Cc_STAT_REC c) rec.toNat)
  else
    let s := ((s.wr (Reg.CAN_Cc_STAT_STATE c) st).wr (Reg.CAN_Cc_STAT_TEC c) tec.toNat).wr (Reg.CAN_Cc_STAT_REC c) rec.toNat
    let s := s.when (old = canBUSOFF) fun s => s.setCc c { s.cc c with recovering := false }
    let s := irq (182 + 4 * c) s
    let s := s.when (st.val = canPASSIVE) (raiseDev (Fc.CAN_ERR_PASSIVE c))
    done (s.when (st.val = canBUSOFF) fun s => raiseDev (Fc.CAN_BUS_OFF c) (canBusOff c s))

/-- RECOVER (R375): a write of RECOVER at bus-off starts the recovery sequence. -/
def execRecover (c : Fin 2) (s : State) : Out :=
  if ! s.live pdHIF then .next s else
  if s.canOn c && s.rd (Reg.CAN_Cc_STAT_STATE c) = canBUSOFF then
    done (s.setCc c { s.cc c with recovering := true })
  else .next s

/-- CAN_GUARD_TIMEOUT (R376) of filter f. -/
def execCanGuardTimeout (c : Fin 2) (f : Fin 32) (s : State) : Out :=
  if ! s.live pdHIF then .next s else
  let x := s.cc c
  let t := s.rd (Reg.CAN_Cc_Ff_GRD_TOUT c f)
  if s.canOn c && s.on (Reg.CAN_Cc_Ff_ID_EN c f) && t ≠ 0 && decide (t ≤ SMap.get 0 x.age f) &&
      ! SMap.get false x.timedOut f then
    done (canGuard c f (s.setCc c { x with timedOut := SMap.set false x.timedOut f true }))
  else .next s

/-- A cycle boundary: the enabled filters of the controllers that are on count it (R376). -/
def canBoundary (s : State) : State :=
  s.each [0, 1] fun c s =>
    if ! s.canOn c then s
    else
      let x := s.cc c
      let fs := (List.range 32).filter fun f => s.on (Reg.CAN_Cc_Ff_ID_EN c f)
      s.setCc c { x with age := fs.foldl (fun m f => SMap.set 0 m f (min (SMap.get 0 m f + 1) 255)) x.age }

/-- What setting EN does (R376): the filters' timeouts count from there. -/
def canEnabled (c : Nat) (s : State) : State := s.setCc c { s.cc c with age := [], timedOut := [] }

end Sys2Proof.Machine
end

