-- ==== Sys2Proof/Machine/Intc.lean ====
section
/-! DEFINITION. The interrupt controller: presentation, acceptance, completion, masking and re-targeting (R381 to R392). -/
namespace Sys2Proof.Machine

/-- The interrupt controller and its replacement. -/
def setIntc (x : IntcSt) (s : State) : State := { s with intc := x }

/-- A source is pending. -/
def State.pend (s : State) (src : Nat) : Bool := s.bit (Reg.INTC_PENDk (src / 32)) (src % 32)

/-- TGT of a source names target t (R383): its code is t + 1. -/
def State.aimsAt (s : State) (src t : Nat) : Bool := s.rd (Reg.INTC_SRCs_TGT src) = t + 1

/-- A TGT code that may be written (R383): targets 2 and 3 exist on a split device only. -/
def State.tgtOk (s : State) (code : Nat) : Bool := decide (code ≤ 2) || (s.split && decide (code ≤ 4))

/-- The pair a target belongs to, and its power domain. -/
def targetPair (t : Nat) : Nat := t % 2
def targetDomain (t : Nat) : Nat := t % 2

/-- A target is awake (R390) and can be served: the pair of a target that is not split is neither LOST nor OFF (R391). -/
def State.awake (s : State) (t : Nat) : Bool :=
  s.live (targetDomain t) &&
    (s.split || (decide (t < 2) && s.pairState (targetPair t) ≠ pairLOST && s.pairState (targetPair t) ≠ pairOFF))

/-- EN of a source as arbitration sees it: a clear takes effect 2 clocks after its write (R388; notes/assumptions/2437.md). -/
def State.enAt (s : State) (src : Nat) : Bool :=
  s.on (Reg.INTC_SRCs_EN src) || decide (s.time.clk < SMap.get 0 s.intc.enOff src)

/-- The source is presented to target t and EN does not end that yet: it stays so for 4 clocks after its presentation (R388). -/
def State.inWindow (s : State) (t src : Nat) : Bool :=
  s.on (Reg.INTC_Tt_PRES_VALID t) && s.rd (Reg.INTC_Tt_PRES_SRC t) = src &&
    decide (s.time.clk ≤ SMap.get 0 s.intc.presAt t + 4)

/-- The source is held on a target other than t (R389): it is delivered there, and once. -/
def State.heldElsewhere (s : State) (t src : Nat) : Bool :=
  (List.range 4).any fun u => decide (u ≠ t) && decide (SMap.get none s.intc.held u = some src)

/-- The lowest-numbered source that is pending, enabled and aimed at a target, and not held on another (R384, R389). -/
def State.lowestFor (s : State) (t : Nat) : Option Nat :=
  (List.range 256).find? fun src =>
    s.pend src && s.aimsAt src t && (s.enAt src || s.inWindow t src) && ! s.heldElsewhere t src

/-- The source presented to target t: while arbitration finds it enabled, within the window of R388, or held by R389. -/
def State.presented (s : State) (t : Nat) : Option Nat :=
  let src := s.rd (Reg.INTC_Tt_PRES_SRC t)
  if s.on (Reg.INTC_Tt_PRES_VALID t) && (s.enAt src || s.inWindow t src || (SMap.get none s.intc.held t).isSome) then some src
  else none

/-- INTERRUPT_PRESENT: the arbitration of target t (R384, R388, R389). -/
def execInterruptPresent (t : Fin 4) (s : State) : Out :=
  if ! s.on Reg.INTC_CTRL_EN || s.on (Reg.INTC_Tt_INSV_VALID t) || ! s.awake t ||
      (SMap.get none s.intc.held t).isSome then .next s
  else match s.lowestFor t with
    | none => done (s.put (Reg.INTC_Tt_PRES_VALID t) false)
    | some src =>
      if s.presented t = some src then .next s
      else
        let s := (s.put (Reg.INTC_Tt_PRES_VALID t) true).wr (Reg.INTC_Tt_PRES_SRC t) src
        done (setIntc { s.intc with presAt := SMap.set 0 s.intc.presAt t s.time.clk } s)

/-- The source that target t may take: the one presented; with LATE, for one whose EN is clear (R388). -/
def State.offered (s : State) (t : Nat) : Option (Nat × Bool) := (s.presented t).map fun src => (src, ! s.enAt src)

/-- The source is no longer pending: the wake votes it holds end (R390). -/
def endVotes (src : Nat) (s : State) : State :=
  setIntc { s.intc with votes := s.intc.votes.filter fun v => v.1 ≠ src } s

/-- A pair's main core can take a trap now (R266): its delivery log has room, no resync runs, it is not halted. -/
def State.canDeliver (s : State) (p : Nat) : Bool :=
  let q := s.pr p
  s.split || (decide (q.log.length < 64) && ! q.resync && q.halted.isNone)

/-- INTERRUPT_ACCEPT: the target core takes the trap at instruction count ic on clock `clk` (R385, R265). -/
def execInterruptAccept (t : Fin 4) (ic : BitVec 64) (clk : Nat) (s : State) : Out :=
  let s := advance (clk - s.time.clk) s
  let p := targetPair t
  match s.offered t with
  | none => .next s
  | some (src, late) =>
    if ! s.canDeliver p || ! (s.split || s.mainCan p ic.toNat) then .next s
    else
      let lvl := s.rd (Reg.INTC_SRCs_LVL src)
      let mcause := if lvl = 1 then 9 else 11
      let s := endVotes src (s.wrBit (Reg.INTC_PENDk (src / 32)) (src % 32) false)
      let s := ((s.wr (Reg.INTC_Tt_INSV_SRC t) src).put (Reg.INTC_Tt_INSV_VALID t) true).wr (Reg.INTC_Tt_INSV_LVL t) lvl
      let s := ((s.put (Reg.INTC_Tt_INSV_LATE t) late).put (Reg.INTC_Tt_PRES_VALID t) false).inc (Reg.INTC_Tt_CNT t)
      let s := setIntc { s.intc with held := SMap.set none s.intc.held t none } s
      let s := { s with pwr := { s.pwr with idle := false } }
      if s.split then
        done (if t.val < 2 then trapCore p (some mcause) none s else trapCore p none (some mcause) s)
      else
        let s := setMainIc p ic.toNat s
        let q := s.pr p
        let s := s.setPr p { q with wfi := false, log := q.log ++ [{ ic := ic.toNat, mcause := mcause, src := src }] }
        let s := { s with alm := { s.alm with deliveries := s.alm.deliveries ++ [(ic.toNat, src, p, mcause)] } }
        done (trapCore p (some mcause) none s)

/-- A write of INTC_Tt_DONE (R386). -/
def intcDone (t src : Nat) (s : State) : State :=
  if s.on (Reg.INTC_Tt_INSV_VALID t) && s.rd (Reg.INTC_Tt_INSV_SRC t) = src then
    s.put (Reg.INTC_Tt_INSV_VALID t) false
  else raiseDev Fc.DONE_MISMATCH (s.put Reg.INTC_STAT_DMISM true)

/-- DONE (R386). -/
def execDone (t : Fin 4) (src : BitVec 8) (s : State) : Out :=
  if ! s.runs then .next s else
  done (intcDone t src.toNat s)

/-- Events on the software sources of a mask (R382). -/
def swset (mask : Nat) (s : State) : State := s.each (bitsOf 16 mask) fun j => irq (240 + j)

/-- SWSET (R382). -/
def execSwset (mask : BitVec 16) (s : State) : Out :=
  if ! s.runs then .next s else
  done (swset mask.toNat s)

/-- EN of a source is cleared (R388): the clear reaches arbitration 2 clocks after the write. -/
def enCleared (src : Nat) (s : State) : State :=
  setIntc { s.intc with enOff := SMap.set 0 s.intc.enOff src (s.time.clk + 2) } s

/-- TGT of a source changes (R389): where it is presented it is held there. -/
def tgtChanged (src : Nat) (s : State) : State :=
  s.each (List.range 4) fun t s =>
    if s.presented t = some src then setIntc { s.intc with held := SMap.set none s.intc.held t (some src) } s else s

/-- A target is asleep (R390): its core's domain is unpowered, or the device is in Sleep. -/
def State.asleep (s : State) (t : Nat) : Bool := decide (s.pwr.mode = .sleep) || s.domState (targetDomain t) ≠ 2

/-- A source that can wake target t: pending, enabled, aimed at it, with WAKE (R390). -/
def State.wakes (s : State) (t src : Nat) : Bool :=
  s.pend src && s.on (Reg.INTC_SRCs_EN src) && s.on (Reg.INTC_SRCs_WAKE src) && s.aimsAt src t

/-- The wake votes held last until their source is accepted or no longer pending, whatever becomes of its configuration or of
the target's sleep (R390). -/
def keepVotes (s : State) : State :=
  let new := ((List.range 4).filter s.asleep).flatMap fun t => ((List.range 256).filter (s.wakes t)).map fun src => (src, t)
  setIntc { s.intc with votes := s.intc.votes ++ new.filter fun v => ! s.intc.votes.contains v } s

/-- A write of INTC_SRCs (R383, R388, R389, R406). -/
def sourceConfig (src v : Nat) (s : State) : State :=
  let locked := s.on Reg.INTC_CTRL_LOCK
  let s := keepVotes s
  let tgt := bits v 1 3
  let old := s.rd (Reg.INTC_SRCs_TGT src)
  let s := s.when (s.on (Reg.INTC_SRCs_EN src) && ! tb v 0) (enCleared src)
  let s := s.put (Reg.INTC_SRCs_EN src) (tb v 0)
  if locked then s
  else
    let s := (s.put (Reg.INTC_SRCs_LVL src) (tb v 4)).put (Reg.INTC_SRCs_WAKE src) (tb v 5)
    if s.tgtOk tgt then
      (s.when (decide (old ≠ tgt)) (tgtChanged src)).wr (Reg.INTC_SRCs_TGT src) tgt
    else s.put Reg.INTC_STAT_WDENY true

/-- SOURCE_CONFIG_WRITE (R388, R389). -/
def execSourceConfigWrite (src : Fin 256) (v : BitVec 6) (s : State) : Out :=
  if ! s.runs then .next s else
  done (sourceConfig src v.toNat s)

/-- Software clears pending bits of word k (R382, R389): a source no longer pending is not presented. -/
def pendClear (k mask : Nat) (s : State) : State :=
  let s := s.wr (Reg.INTC_PENDk k) (andNotW (s.rd (Reg.INTC_PENDk k)) mask)
  let s := s.each (bitsOf 32 mask) fun j => endVotes (32 * k + j)
  s.each (List.range 4) fun t s =>
    let src := s.rd (Reg.INTC_Tt_PRES_SRC t)
    if s.on (Reg.INTC_Tt_PRES_VALID t) && src / 32 = k && tb mask (src % 32) then
      let s := s.put (Reg.INTC_Tt_PRES_VALID t) false
      setIntc { s.intc with held := SMap.set none s.intc.held t none } s
    else s

/-- INTC_Tt_WAKE.REQ (R390): a wake vote is held for the target: a source that can wake it, while it is asleep, or one kept. -/
def State.wakeReq (s : State) (t : Nat) : Bool :=
  (s.intc.votes.any fun v => v.2 = t) || (s.asleep t && (List.range 256).any (s.wakes t))

end Sys2Proof.Machine
end

