-- ==== Sys2Proof/Machine/Tsk.lean ====
section
/-! DEFINITION. The task units: task states, ready order, decisions, spill and refill, the decision trace (R393 to R402). -/
namespace Sys2Proof.Machine

/-- Task unit p and its replacement; task k of it. -/
def State.tu (s : State) (p : Nat) : TskSt := SMap.get {} s.tsk p
def State.setTu (s : State) (p : Nat) (x : TskSt) : State := { s with tsk := SMap.set {} s.tsk p x }
def State.tk (s : State) (p k : Nat) : TaskSt := SMap.get {} (s.tu p).tasks k
def setTk (p k : Nat) (x : TaskSt) (s : State) : State :=
  let u := s.tu p
  s.setTu p { u with tasks := SMap.set {} u.tasks k x }

/-- The encodings of STATE (R407). -/
def tsDORMANT : Nat := 0
def tsWAITING : Nat := 1
def tsREADY : Nat := 2
def tsRUNNING : Nat := 3

/-- The running task (R393: at most one). -/
def State.running (s : State) (p : Nat) : Option Nat :=
  ((s.tu p).tasks.find? fun t => t.2.st = tsRUNNING).map (·.1)

/-- The ready tasks in the hardware queue, and in the spill region (R400). -/
def State.hwq (s : State) (p : Nat) : List Nat :=
  ((s.tu p).tasks.filter fun t => t.2.st = tsREADY && t.2.slot.isNone).map (·.1)
def State.spilled (s : State) (p : Nat) : List Nat :=
  ((s.tu p).tasks.filter fun t => t.2.st = tsREADY && t.2.slot.isSome).map (·.1)

/-- Task a ranks before task b (R394): PRIO ascending, then SEQ in modular order. -/
def State.ahead (s : State) (p a b : Nat) : Bool :=
  let x := s.tk p a
  let y := s.tk p b
  decide (x.prio < y.prio) || (decide (x.prio = y.prio) && decide (0 < dist32 x.seq y.seq))

/-- The highest-ranked and the lowest-ranked task of a list. -/
def State.best (s : State) (p : Nat) : List Nat → Option Nat
  | [] => none
  | a :: as =>
    match s.best p as with
    | none => some a
    | some b => if s.ahead p a b then some a else some b
def State.worst (s : State) (p : Nat) : List Nat → Option Nat
  | [] => none
  | a :: as =>
    match s.worst p as with
    | none => some a
    | some b => if s.ahead p b a then some a else some b

/-- The head (R394): the highest-ranked ready task, in the hardware queue or in the spill region. -/
def State.head (s : State) (p : Nat) : Option Nat := s.best p (s.hwq p ++ s.spilled p)

/-- QSTAT.PREEMPT (R398). -/
def State.preempt (s : State) (p : Nat) : Bool :=
  match s.head p, s.running p with
  | some h, some r => decide ((s.tk p h).prio < (s.tk p r).prio)
  | some _, none => true
  | none, _ => false

/-- An operation of the unit, with the interrupt of a PREEMPT that it sets (R398). -/
def withPreempt (p : Nat) (f : State → State) (s : State) : State :=
  let s' := f s
  s'.when (! s.preempt p && s'.preempt p && s'.on (Reg.TSK_Px_CTRL_PREEMPT_IRQ p)) (irq (193 + 8 * p))

/-- A wait condition holds (R395). -/
def TaskSt.met (t : TaskSt) : Bool :=
  let m := andW t.flags t.mask
  if t.mode then decide (m = t.mask) else decide (m ≠ 0)

/-- A task becomes READY with the next ready order (R394). -/
def makeReady (p k : Nat) (s : State) : State :=
  let u := s.tu p
  setTk p k { s.tk p k with st := tsREADY, seq := u.seqCtr } (s.setTu p { u with seqCtr := (u.seqCtr + 1) % 2 ^ 32 })

/-- A WAITING task whose condition holds becomes READY (R395). -/
def checkReady (p k : Nat) (s : State) : State :=
  let t := s.tk p k
  if t.st = tsWAITING && t.met then
    let m := andW t.flags t.mask
    makeReady p k (setTk p k { t with hit := m, flags := if t.autoclr then andNotW t.flags m else t.flags } s)
  else s

/-! ### Spill and refill -/

/-- Base of the spill region. -/
def State.spillBase (s : State) (p : Nat) : Nat := s.rd (Reg.TSK_Px_SPILL p) * 512

/-- CHECK of a spill entry (R400). -/
def spillCheck (w0 w1 : Nat) : Nat := crcBits 16 0x1021 0xFFFF (lsbFirst 16 w0 ++ lsbFirst 32 w1)

/-- Words 0 and 1 of the entry of a task. -/
def TaskSt.entry (t : TaskSt) (k : Nat) : List Nat :=
  let lo := k + t.prio * 2 ^ 8
  [lo + spillCheck lo t.seq * 2 ^ 16, t.seq]

/-- The ready task that must go to the spill region (R400): the lowest-ranked of more than 64, or one that ranks below a
spilled one. A full region takes none. -/
def State.toSpill (s : State) (p : Nat) : Option Nat :=
  match s.worst p (s.hwq p) with
  | none => none
  | some w =>
    if decide (64 ≤ (s.spilled p).length) then none
    else if decide (64 < (s.hwq p).length) then some w
    else match s.best p (s.spilled p) with
      | some b => if s.ahead p b w then some w else none
      | none => none

/-- Write the entry of task k into entry e of the spill region. -/
def writeEntry (p k e : Nat) (s : State) : State :=
  let a := s.spillBase p + 8 * e
  s.when (inSram a 8) fun s => { s with mem := putWords s.mem a ((s.tk p k).entry k) }

/-- Write one entry to the spill region. -/
def spillOne (p : Nat) (s : State) : State :=
  match s.toSpill p with
  | none => s
  | some k =>
    let used := (s.tu p).tasks.filterMap fun t => t.2.slot
    let e := ((List.range 64).find? fun i => ! used.contains i).getD 0
    let s := writeEntry p k e s
    setTk p k { s.tk p k with slot := some e } s

/-- TASK_SPILL (R400): after 8 clocks. -/
def execTaskSpill (p : Fin 2) (s : State) : Out :=
  if s.on (Reg.TSK_Px_STAT_SPILLERR p) || (s.toSpill p).isNone then .next s
  else done (withPreempt p (spillOne p) (advance 8 s))

/-! ### Decisions -/

/-- A hardware queue that holds more than its 64 entries has the one too many spilled before another task becomes READY. -/
def spillFull (p : Nat) (s : State) : State := s.when (decide (64 < (s.hwq p).length)) (spillOne p)

/-- One record of the decision trace (R401); a write pointer beyond a ring made smaller starts at its base (log entry 2429). -/
def traceDecision (p op ic : Nat) (former : Option Nat) (s : State) : State :=
  let now := s.running p
  let nready := (s.hwq p).length + (s.spilled p).length
  let w2 := op + former.getD 0 * 2 ^ 4 + b2n former.isSome * 2 ^ 11 + now.getD 0 * 2 ^ 12 + b2n now.isSome * 2 ^ 19 +
    nready * 2 ^ 20
  let size := (s.rd (Reg.TSK_Px_TRSIZE p) + 1) * 4096
  let at' := if s.rd (Reg.TSK_Px_TRWP_WP p) < size then s.rd (Reg.TSK_Px_TRWP_WP p) else 0
  let a := s.rd (Reg.TSK_Px_TRBASE p) * 4096 + at'
  let s := s.when (inSram a 16) fun s =>
    { s with mem := putWords s.mem a [s.fn, s.ctTicks % 2 ^ 32, w2, if s.split then 0 else ic % 2 ^ 32] }
  if at' + 16 = size then
    irq (194 + 8 * p) (((s.wr (Reg.TSK_Px_TRWP_WP p) 0).inc (Reg.TSK_Px_TRWP_WRAPS p)).put (Reg.TSK_Px_STAT_WRAP p) true)
  else s.wr (Reg.TSK_Px_TRWP_WP p) (at' + 16)

/-- A decision is made (R396, R397): where no task runs the head runs; CUR, DSEQ, the trace and source 192 + 8 p. -/
def decideNow (p op ic : Nat) (former : Option Nat) (s : State) : State :=
  let s := match s.running p, s.head p with
    | none, some h => setTk p h { s.tk p h with st := tsRUNNING } s
    | _, _ => s
  let s := match s.running p with
    | some r => ((s.wr (Reg.TSK_Px_CUR_TASK p) r).put (Reg.TSK_Px_CUR_VALID p) true).wr (Reg.TSK_Px_CUR_PRIO p) (s.tk p r).prio
    | none => s.put (Reg.TSK_Px_CUR_VALID p) false
  let s := s.wr (Reg.TSK_Px_CUR_DSEQ p) (s.rd (Reg.TSK_Px_CUR_DSEQ p) + 1)
  irq (192 + 8 * p) (traceDecision p op ic former s)

/-- The head lies in the spill region. -/
def State.headSpilled (s : State) (p : Nat) : Bool :=
  match s.head p with
  | some h => (s.tk p h).slot.isSome
  | none => false

/-- The effect of SWITCH on the running task (R396): where the head's PRIO is below its own it becomes READY with its SEQ. -/
def switchOut (p : Nat) (s : State) : State :=
  match s.running p with
  | some r => s.when (s.preempt p) (setTk p r { s.tk p r with st := tsREADY })
  | none => s

/-- A decision; one that finds its head in the spill region, as with the hardware queue empty, waits for a refill (R400). SWITCH
acts on the running task when it is decided. -/
def decision (p op ic : Nat) (former : Option Nat) (s : State) : State :=
  if s.headSpilled p && (op = 7 || (s.running p).isNone) then
    s.setTu p { s.tu p with wait := some { op := op, former := former, ic := ic } }
  else decideNow p op ic former (s.when (op = 7) (switchOut p))

/-- Entry words as read from the region are those of task k: CHECK is good, the reserved bits are 0 (R400). -/
def entryOk (k w0 w1 : Nat) : Bool :=
  decide (bits w0 16 16 = spillCheck (bits w0 0 16) w1) && ! tb w0 7 && decide (bits w0 12 4 = 0) &&
    decide (bits w0 0 7 = k)

/-- Read the highest-ranked spilled entry back, with the PRIO and the SEQ it holds (R400); one that fails its check stops
the unit. -/
def refillOne (p : Nat) (s : State) : State :=
  match s.best p (s.spilled p) with
  | none => s
  | some k =>
    let t := s.tk p k
    let a := s.spillBase p + 8 * t.slot.getD 0
    let w0 := getWord s.mem a
    let w1 := getWord s.mem (a + 4)
    if inSram a 8 && entryOk k w0 w1 then
      let s := setTk p k { t with slot := none, prio := bits w0 8 4, seq := w1 } s
      match (s.tu p).wait with
      | none => s
      | some w => decideNow p w.op w.ic w.former ((s.setTu p { s.tu p with wait := none }).when (w.op = 7) (switchOut p))
    else
      raiseDev (Fc.TSK_SPILL_ERR p) ((s.put (Reg.TSK_Px_STAT_SPILLERR p) true).setTu p { s.tu p with wait := none })

/-- What ECC shows of the two words of the entry to be read back (R410). -/
def refillEcc (p : Nat) (ecc : WordEcc) (s : State) : State :=
  match s.best p (s.spilled p) with
  | some k => sramEccs 0 ecc (s.spillBase p + 8 * (s.tk p k).slot.getD 0) 2 s
  | none => s

/-- TASK_REFILL (R400): after 8 clocks, while the queue holds fewer than 56 entries or a decision waits; `ecc` is what ECC shows
of the entry. -/
def execTaskRefill (p : Fin 2) (ecc : WordEcc) (s : State) : Out :=
  if s.on (Reg.TSK_Px_STAT_SPILLERR p) || (s.spilled p).isEmpty ||
      ((s.tu p).wait.isNone && (decide (56 ≤ (s.hwq p).length) || (s.toSpill p).isSome)) then .next s
  else done (withPreempt p (refillOne p) (refillEcc p ecc (advance 8 s)))

/-! ### Commands -/

/-- The unit executes commands (R400, R407): it is on, has not stopped, and its pair is powered. -/
def State.tskOn (s : State) (p : Nat) : Bool :=
  s.on (Reg.TSK_Px_CTRL_EN p) && ! s.on (Reg.TSK_Px_STAT_SPILLERR p) && s.live p

/-- A command is refused (R396). -/
def cmdBad (p : Nat) (s : State) : State := raiseDev (Fc.TSK_CMD_BAD p) (s.put (Reg.TSK_Px_STAT_CMDBAD p) true)

/-- A task's flags are set (R396). -/
def flagsOn (p k m : Nat) (s : State) : State :=
  let t := s.tk p k
  setTk p k { t with flags := orW t.flags m } s

/-- SET of flags and the readiness it brings (R395, R396). -/
def setFlags (p k m : Nat) (s : State) : State := checkReady p k (flagsOn p k m s)

/-- The SIGNAL entries of the present clock. -/
def State.markNow (s : State) (p : Nat) : Option TskMark := (s.tu p).mark.filter fun m => m.clk = s.time.clk

/-- The unit with the flags of this clock's SIGNAL entries set and their readiness not judged (R399); the source that judging it
raised is taken back. -/
def unjudged (p : Nat) (s : State) : State :=
  match s.markNow p with
  | none => s
  | some m =>
    let s := s.setTu p { s.tu p with tasks := m.tasks, seqCtr := m.seqCtr, mark := none }
    s.when m.fired fun s => s.wrBit (Reg.INTC_PENDk ((193 + 8 * p) / 32)) ((193 + 8 * p) % 32) false

/-- Readiness of the tasks this clock's SIGNAL entries named, judged after the command of the clock (R399). -/
def judge (p : Nat) (named : List Nat) (s : State) : State := s.each named fun k s => checkReady p k s

/-- Execute a command: a decision that waits for a refill is made first, and where the refill stops the unit the command is
not executed (R400). SIGNAL entries of this clock have set their flags, and readiness follows the command (R399); `f` gives the
command's effect, none where it is refused. -/
def tskCmd (p : Nat) (f : State → Option State) (s : State) : State :=
  if ! s.tskOn p then s
  else
    let s := s.when (s.tu p).wait.isSome fun s => withPreempt p (refillOne p) (advance 8 s)
    if ! s.tskOn p then s
    else
      let named := ((s.markNow p).map (·.named)).getD []
      let s := spillFull p (unjudged p s)
      match f s with
      | none => cmdBad p (withPreempt p (judge p named) s)
      | some s' => (withPreempt p (fun _ => judge p named s') s).inc (Reg.TSK_Px_CMDCNT p)

/-- ARG as released before the command (R396). -/
def State.arg (s : State) (p : Nat) : Nat := s.rd (Reg.TSK_Px_ARG p)

/-- START (R396). -/
def tskStart (p k prio : Nat) (mode autoclr : Bool) : State → State :=
  tskCmd p fun s =>
    let t := s.tk p k
    if t.st ≠ tsDORMANT then none
    else some (makeReady p k (setTk p k { t with prio := prio, mode := mode, autoclr := autoclr, mask := s.arg p } s))

/-- STOP (R396). -/
def tskStop (p k ic : Nat) : State → State :=
  tskCmd p fun s =>
    let t := s.tk p k
    let s' := setTk p k { t with st := tsDORMANT, slot := none } s
    some (if t.st = tsRUNNING then decision p 2 ic (some k) s' else s')

/-- SET (R396). -/
def tskSet (p k : Nat) : State → State := tskCmd p fun s => some (setFlags p k (s.arg p) s)

/-- A SIGNAL entry sets one flag (R72, R399); a unit that is off or unpowered loses it. -/
def tskSignal (p k flag : Nat) (s : State) : State :=
  if ! s.tskOn p then s
  else
    let named := ((s.markNow p).map (·.named)).getD [] ++ [k]
    let s := flagsOn p k (2 ^ flag) (spillFull p (unjudged p s))
    let t := withPreempt p (judge p named) s
    let fired := ! s.preempt p && t.preempt p && s.on (Reg.TSK_Px_CTRL_PREEMPT_IRQ p) &&
      ! s.bit (Reg.INTC_PENDk ((193 + 8 * p) / 32)) ((193 + 8 * p) % 32)
    let m : TskMark := { clk := s.time.clk, named := named, tasks := (s.tu p).tasks, seqCtr := (s.tu p).seqCtr, fired := fired }
    t.setTu p { t.tu p with mark := some m }

/-- CLEAR (R396). -/
def tskClear (p k : Nat) : State → State :=
  tskCmd p fun s =>
    let t := s.tk p k
    some (setTk p k { t with flags := andNotW t.flags (s.arg p) } s)

/-- WAIT (R396). -/
def tskWait (p : Nat) (mode autoclr : Bool) (ic : Nat) : State → State :=
  tskCmd p fun s =>
    match s.running p with
    | none => none
    | some r =>
      if s.arg p = 0 then none
      else
        let t := { s.tk p r with st := tsWAITING, mask := s.arg p, mode := mode, autoclr := autoclr }
        some (decision p 5 ic (some r) (checkReady p r (setTk p r t s)))

/-- YIELD (R396). -/
def tskYield (p ic : Nat) : State → State :=
  tskCmd p fun s =>
    match s.running p with
    | none => none
    | some r => some (decision p 6 ic (some r) (makeReady p r s))

/-- SWITCH (R394, R396). -/
def tskSwitch (p ic : Nat) : State → State := tskCmd p fun s => some (decision p 7 ic (s.running p) s)

/-- PRIO (R396): a task in the spill region is re-ranked there, and one that now ranks above an entry of the hardware queue joins
the queue, from which the lowest-ranked is spilled where it is full (R400). -/
def tskPrio (p k prio : Nat) : State → State :=
  tskCmd p fun s =>
    let s := setTk p k { s.tk p k with prio := prio } s
    some (match (s.tk p k).slot with
      | some e =>
        if (s.worst p (s.hwq p)).any (s.ahead p k) then setTk p k { s.tk p k with slot := none } s else writeEntry p k e s
      | none => s)

/-- A write of TSK_Px_CMD, with the checkpoint's IC of its release (R396, R401). -/
def tskWrite (p v ic : Nat) (s : State) : State :=
  let k := bits v 4 7
  let prio := bits v 11 4
  match bits v 0 4 with
  | 1 => tskStart p k prio (tb v 15) (tb v 16) s
  | 2 => tskStop p k ic s
  | 3 => tskSet p k s
  | 4 => tskClear p k s
  | 5 => tskWait p (tb v 15) (tb v 16) ic s
  | 6 => tskYield p ic s
  | 7 => tskSwitch p ic s
  | 8 => tskPrio p k prio s
  | _ => s.when (s.tskOn p) (cmdBad p)

/-- START, STOP, SET, CLEAR (R396): task commands released for unit p; `ic` is that of the checkpoint (R401). -/
def execStart (p : Fin 2) (k : Fin 128) (prio : Fin 16) (mode autoclr : Bool) (s : State) : Out :=
  done (tskStart p k prio mode autoclr s)
def execStop (p : Fin 2) (k : Fin 128) (ic : Word) (s : State) : Out := done (tskStop p k ic.toNat s)
def execSet (p : Fin 2) (k : Fin 128) (s : State) : Out := done (tskSet p k s)
def execClear (p : Fin 2) (k : Fin 128) (s : State) : Out := done (tskClear p k s)

/-- WAIT, YIELD, SWITCH, PRIO (R396). -/
def execWait (p : Fin 2) (mode autoclr : Bool) (ic : Word) (s : State) : Out := done (tskWait p mode autoclr ic.toNat s)
def execYield (p : Fin 2) (ic : Word) (s : State) : Out := done (tskYield p ic.toNat s)
def execSwitch (p : Fin 2) (ic : Word) (s : State) : Out := done (tskSwitch p ic.toNat s)
def execPrio (p : Fin 2) (k : Fin 128) (prio : Fin 16) (s : State) : Out := done (tskPrio p k prio s)

/-- Every task is DORMANT with PRIO 15 and every field 0, and no task runs (R393). -/
def tskReset (p : Nat) (s : State) : State :=
  let s := (s.setTu p {}).put (Reg.TSK_Px_CUR_VALID p) false
  (s.put (Reg.TSK_Px_STAT_SPILLERR p) false).wr (Reg.TSK_Px_TRWP_WRAPS p) 0

/-- A write of TSK_Px_CTRL.EN (R393, R400). -/
def tskEn (p : Nat) (b : Bool) (s : State) : State :=
  let rise := b && ! s.on (Reg.TSK_Px_CTRL_EN p)
  (s.put (Reg.TSK_Px_CTRL_EN p) b).when rise (tskReset p)

/-- TSK_ENABLE (R393): a write of EN from 0 to 1. -/
def execTskEnable (p : Fin 2) (s : State) : Out := if ! s.live p then .next s else done (tskEn p true s)

end Sys2Proof.Machine
end

