-- ==== Sys2Proof/Machine/Anvil.lean ====
section
/-! DEFINITION. The Anvil sequencer: the issue of one table entry, what each opcode does, overruns, and starting and
stopping (R55 to R83). -/
namespace Sys2Proof.Machine

/-! ### The next entry (R57, R59) -/

/-- The frame program of the active mode: its first entry and its length. -/
def State.activeSpan (s : State) : Nat × Nat := s.modeSpan (s.rd Reg.ANV_STAT_MODE)

/-- The entry to be issued next, while the Anvil runs and no AWAIT holds the table. -/
def State.nextEntry (s : State) : Option Nat :=
  if s.on Reg.ANV_STAT_RUNNING && ! s.anv.endReached && ! s.anv.hold && decide (s.anv.ptr < s.activeSpan.2) then
    some (SMap.get 0 s.anv.table (s.activeSpan.1 + s.anv.ptr))
  else none

/-- The entry acts in this frame (R57, R73). -/
def State.acts (s : State) (e : Nat) : Bool := ! enPhen e || enOp e = opMODE || enPhase e = s.fidx

/-- The opcode an entry issues as: NOP in another phase (R57), for a LAUNCH after an overrun (R80), and in REPLAY for the
entries R509 names. -/
def State.issuesAs (s : State) (e : Nat) : Nat :=
  let op := enOp e
  if ! s.acts e then opNOP
  else if op = opLAUNCH && s.anv.launchOff then opNOP
  else if s.dev.state = .replay &&
      (op = opSAMPLE || op = opCAPTURE || op = opRECORD || op = opEXCHANGE || op = opCHECK || op = opMODE) then opNOP
  else op

/-- FT at which an entry issues: its offset, or the first clock on which it can (R59). -/
def State.issueAt (s : State) (e : Nat) : Nat := max (max (enOffset e) s.anv.freeClk) s.time.ft

/-! ### The move queue (R63, R65, R69) -/

/-- Word at a source address of a MOVE. -/
def State.anvRead (s : State) (a : Nat) : Nat :=
  if fibBase ≤ a ∧ a < activeBase then SMap.get 0 s.anv.fib ((a - fibBase) / 4)
  else if activeBase ≤ a ∧ a < activeBase + 0x800 then s.activeWord ((a - activeBase) / 256) ((a - activeBase) % 256 / 4)
  else match engSpan a 4 with
    | some n => SMap.get 0 (s.e n).data ((a - engBase) % 2 ^ 20 / 4)
    | none => getWord s.mem a

/-- Write words at a destination of a MOVE. -/
def anvWrite (a : Nat) (ws : List Nat) (s : State) : State :=
  match engSpan a (4 * ws.length) with
  | some n => s.setE n { s.e n with data := SMap.setMany 0 (s.e n).data ((a - engBase) % 2 ^ 20 / 4) ws }
  | none => { s with mem := putWords s.mem a ws }

/-- The clock on which the copy at the head of the queue ends (R63). -/
def State.moveEnd (s : State) (m : Move) : Nat := max m.issued s.anv.moveFree + 4 + ceilDiv m.len 4

/-- A queued copy writes the data memory of engine n. -/
def Move.writes (m : Move) (n : Nat) : Bool := engSpan m.dst (4 * m.len) = some n

/-- Engines whose last copy has ended start (R65). -/
def releaseRuns (s : State) : State :=
  let ready := s.anv.runWait.filter fun r => ! s.anv.moveQ.any (·.writes r.1)
  let s := setAnv { s.anv with runWait := s.anv.runWait.filter fun r => s.anv.moveQ.any (·.writes r.1) } s
  ready.foldl (fun s r => engStart r.1 r.2 s) s

/-- The copy at the head ends on the present clock: its words move, the FN word of a PUBLISH before them, and ODIG takes those. -/
def moveDone (m : Move) (rest : List Move) (s : State) : State :=
  let s := match m.publish with
    | some w =>
      let ws := s.engWords ((m.src - engBase) / 2 ^ 20) ((m.src - engBase) % 2 ^ 20 / 4) m.len
      anvWrite (m.dst - 4) (w :: ws) (s.when m.digest fun s => setAnv { s.anv with odig := odigFill ws s.anv.odig } s)
    | none => anvWrite m.dst ((List.range m.len).map fun i => s.anvRead (m.src + 4 * i)) s
  releaseRuns (setAnv { s.anv with moveQ := rest, moveFree := s.time.clk, moveDst := m.dst, moveLen := m.len } s)

/-- An EXCHANGE with DIR = 1 writes its words to BUF or to the pending bank BUF names (R64, R67). -/
def rxWrite (x : RxCopy) (s : State) : State :=
  match pendingAxis x.dst with
  | some n => writePending n 0 x.words s
  | none => { s with mem := putWords s.mem x.dst x.words }

/-- The copies of EXCHANGE entries that have ended by now are written, in the order of issue (R67). -/
def rxDone (s : State) : State :=
  let ended := s.anv.rxq.filter fun x => decide (x.ends ≤ s.time.clk)
  let s := setAnv { s.anv with rxq := s.anv.rxq.filter fun x => decide (s.time.clk < x.ends) } s
  ended.foldl (fun s x => rxWrite x s) s

/-- Copies that end by clock `c` end, each on its clock. -/
def drainMoves : Nat → Nat → State → State
  | 0, _, s => s
  | k + 1, c, s =>
    match s.anv.moveQ with
    | [] => s
    | m :: ms =>
      let t := s.moveEnd m
      if t ≤ c then drainMoves k c (moveDone m ms (rxDone (advance (t - s.time.clk) s))) else s

/-- Bring the clock to FT `t`, with the copies that end by then. -/
def anvTo (t : Nat) (s : State) : State := rxDone (advanceTo t (drainMoves 16 (s.time.clk + (t - s.time.ft)) s))

/-- What ECC shows over a read of n words from a on, in an engine's data memory (R125) or in shared SRAM (R410), by the master of
a code of R422. -/
def readEcc (m : Nat) (e : WordEcc) (a n : Nat) (s : State) : State :=
  match engSpan a (4 * n) with
  | some k => s.each (List.range n) fun i s => engUseEcc k 1 ((a - engBase) % 2 ^ 20 / 4 + i) (eccAt e i) s
  | none => sramEccs m e a n s

/-- MOVE_COPY_DONE (R63): the copy in progress ends; `ecc` is what ECC shows over its source. -/
def execMoveCopyDone (ecc : WordEcc) (s : State) : Out :=
  if ! s.live pdANV then .next s else
  match s.anv.moveQ with
  | [] => .next s
  | m :: ms => done (readEcc 7 ecc m.src m.len (moveDone m ms (rxDone (advance (s.moveEnd m - s.time.clk) s))))

/-- The queue has room for another copy. -/
def State.queueRoom (s : State) : Bool := decide (s.anv.moveQ.length < 16)

/-- Queue a copy. -/
def enqueueMove (src dst len : Nat) (publish : Option Nat) (s : State) : State :=
  let m : Move := { src := src, dst := dst, len := len, issued := s.time.clk, publish := publish, digest := publish.isSome }
  setAnv { s.anv with moveQ := s.anv.moveQ ++ [m] } s

/-! ### Overruns (R79 to R81) -/

/-- The Anvil stops engine n (R66, R113); one whose start still waited never starts. -/
def stopEngine (n : Nat) (s : State) : State :=
  if s.anv.runWait.any fun r => r.1 = n then
    engStopped n (setAnv { s.anv with runWait := s.anv.runWait.filter fun r => r.1 ≠ n } s)
  else engAbort n s

/-- An earlier frame 1 to 8 frames before this one overran (R81). -/
def State.overranBefore (s : State) : Bool := s.anv.ovrHist.any id

/-- A LAUNCH of the frame is suppressed (R81). -/
def suppressed (e : Nat) (s : State) : State := s.when (s.anv.ovrNow && s.overranBefore && s.dev.state ≠ .replay) (requestSafe (2 ^ enAxis e))

/-- A frame overruns (R79, R80); `fn` is that of the frame it belongs to (R81). Causes: 1 deadline, 2 END not reached,
3 ECC. -/
def overrun (cause entry engs fn : Nat) (s : State) : State :=
  let s := s.inc Reg.ANV_OVR_CNT
  let s := if s.on Reg.ANV_STAT_OVR then s
    else (((s.wr Reg.ANV_OVR_FN fn).wr Reg.ANV_OVR_INFO_ENTRY entry).wr Reg.ANV_OVR_INFO_CAUSE cause).wr Reg.ANV_OVR_INFO_ENG engs
  let s := s.put Reg.ANV_STAT_OVR true
  let s := setAnv { s.anv with ovrNow := true, launchOff := true } s
  irq 19 (raiseDev Fc.FRAME_OVERRUN s)

/-! ### Issue (R53, R59, R60) -/

/-- A slip of the entry that issues now (R60). -/
def slip (e : Nat) (s : State) : State :=
  let d := s.time.ft - enOffset e
  if d = 0 then s
  else
    let first := ! s.on Reg.ANV_STAT_SLIP
    let s := ((s.inc Reg.ANV_SLIP_CNT).maxi Reg.ANV_SLIP_MAX d).put Reg.ANV_STAT_SLIP true
    let s := irq 20 (setAnv { s.anv with slipNow := true } s)
    s.when first (raiseDev Fc.SLIP)

/-- The table moves on past the entry, which has taken this clock. -/
def nextPtr (s : State) : State := setAnv { s.anv with ptr := s.anv.ptr + 1, freeClk := s.time.ft + 1 } s

/-- A corrected error (R53). -/
def anvCorr (s : State) : State :=
  raiseDev Fc.ECC_CORR ((s.inc Reg.ANV_ECC_CORR_CNT).put Reg.ANV_STAT_ECC_CORR true)

/-- An uncorrectable error in table entry `i` (R53). -/
def anvUncorr (i : Nat) (s : State) : State := raiseDev Fc.ECC_UNCORR (s.wr Reg.ANV_ECC_ADDR i)

/-- An uncorrectable error on issue (R53, R79): the entry is not issued, the frame overruns, VALID clears. -/
def issueEcc (e : Nat) (s : State) : State :=
  let i := s.activeSpan.1 + s.anv.ptr
  let entry := s.anv.ptr
  let m := s.rd Reg.ANV_STAT_MODE
  let s := s.when (enOp e = opRECORD) fun s =>
    setAnv { s.anv with incomp := true, snapshot := s.anv.snapshot ++ zeros (enRecLen e) } s
  let s := overrun 3 entry 0 s.fn (modeInvalid m (anvUncorr i s))
  nextPtr s

/-- Issue the next entry if it issues as `op` and `p` holds of it: the clock comes to its instant, and `k` is what it does;
`ecc` is what the check bits show. -/
def issueIf (op : Nat) (p : Nat → Bool) (ecc : Ecc) (k : Nat → State → State) (s : State) : Out :=
  match s.nextEntry with
  | none => .next s
  | some e =>
    if ecc = .uncorrectable then done (issueEcc e (anvTo (s.issueAt e) s))
    else if s.issuesAs e ≠ op || ! p e then .next s
    else
      let s := slip e (anvTo (s.issueAt e) s)
      done (k e (s.when (ecc = .corrected) anvCorr))

/-- Issue the next entry if it issues as `op`. -/
def issue (op : Nat) (ecc : Ecc) (k : Nat → State → State) (s : State) : Out := issueIf op (fun _ => true) ecc k s

/-- NOP (R57, R74, R80): also every entry that issues as one. A suppressed LAUNCH of a second overrun takes its axis to
SAFE (R81). -/
def execNop (ecc : Ecc) (s : State) : Out :=
  if ! s.live pdANV then .next s else
  issue opNOP ecc (fun e s => nextPtr (s.when (s.acts e && enOp e = opLAUNCH) (suppressed e))) s

/-- SAMPLE (R61). -/
def execSample (ecc : Ecc) (s : State) : Out :=
  if ! s.live pdANV then .next s else
  issue opSAMPLE ecc (fun e s => nextPtr (sample (enGroup e) (enKind e) s)) s

/-- The levels and latches of the TRIP inputs, as word 385 shows them (R161). -/
def State.tripWord (s : State) : Nat :=
  (List.range 8).foldl (fun v t => v + b2n (s.bit Reg.OUT_TRIP_STAT_LEVEL t) * 2 ^ t + b2n (s.bit Reg.OUT_TRIP_STAT_LATCH t) * 2 ^ (8 + t)) 0

/-- CAPTURE (R62, R161): `gpi` are the levels of the general-purpose inputs. -/
def execCapture (ecc : Ecc) (gpi : Word) (s : State) : Out :=
  if ! s.live pdANV then .next s else
  issue opCAPTURE ecc (fun e s =>
    let s := s.each (bitsOf 8 (enFbMask e)) fun n => beforeRearm n (fbCapture n)
    let s := s.when (enPins e) fun s =>
      setFibs 384 [gpi.toNat, s.tripWord, s.ctTicks] { s with adc := { s.adc with gpi := gpi.toNat } }
    nextPtr (s.when (enDcl e) comCapture)) s

/-- MOVE (R63): the copy is queued; while the queue is full the entry waits. -/
def execMove (ecc : Ecc) (s : State) : Out :=
  if ! s.live pdANV then .next s else
  match s.nextEntry with
  | none => .next s
  | some e =>
    if ecc ≠ .uncorrectable && ! (anvTo (s.issueAt e) s).queueRoom then .next s
    else issue opMOVE ecc (fun e s => nextPtr (enqueueMove (enSrc e) (enDst e) (enMoveLen e) none s)) s

/-- RUN (R65, R93): an engine into whose data memory a copy is queued waits for it; a fenced or unloaded engine completes
on this clock. -/
def execRun (ecc : Ecc) (s : State) : Out :=
  if ! s.live pdANV then .next s else
  issue opRUN ecc (fun e s => nextPtr (s.each (bitsOf 8 (enEngMask e)) fun n s =>
    if (s.anv.moveQ.any (·.writes n)) && s.bit Reg.CEC_STAT_LOADED n && ! s.bit Reg.CEC_STAT_FENCED n then
      (setAnv { s.anv with runWait := s.anv.runWait ++ [(n, enEntry e)] } s).put (Reg.CEC_En_FRAME_SKIP n) false
    else engStart n (enEntry e) s)) s

/-- The condition of an AWAIT (R66). -/
def State.awaitDone (s : State) (e : Nat) : Bool :=
  (bitsOf 8 (enEngMask e)).all (fun n => s.bit Reg.CEC_STAT_DONE n) && (! enMovq e || s.anv.moveQ = [])

/-- AWAIT (R59, R66): it passes on its issue clock or holds the table. -/
def execAwait (ecc : Ecc) (s : State) : Out :=
  if ! s.live pdANV then .next s else
  issue opAWAIT ecc (fun e s =>
    if s.awaitDone e then nextPtr s else setAnv { s.anv with hold := true, freeClk := s.time.ft + 1 } s) s

/-- The AWAIT that holds the table. -/
def State.holding (s : State) : Option Nat :=
  if s.on Reg.ANV_STAT_RUNNING && ! s.anv.endReached && s.anv.hold then
    some (SMap.get 0 s.anv.table (s.activeSpan.1 + s.anv.ptr))
  else none

/-- FT at which the wait of a holding AWAIT fails: its deadline, or the clock after its issue. -/
def State.failAt (s : State) (e : Nat) : Nat := max (enDeadline e) s.anv.freeClk

/-- AWAIT_PASS (R66): the condition of the holding AWAIT has become true by its deadline. -/
def execAwaitPass (s : State) : Out :=
  if ! s.live pdANV then .next s else
  match s.holding with
  | none => .next s
  | some e =>
    let t := max s.time.ft s.anv.freeClk
    let s' := anvTo t s
    if s'.awaitDone e && decide (t ≤ s.failAt e) then done (nextPtr (setAnv { s'.anv with hold := false } s')) else .next s

/-- AWAIT_DEADLINE (R66, R79): FT reaches the deadline with the condition unmet; the engines waited for stop and the frame
overruns. -/
def execAwaitDeadline (s : State) : Out :=
  if ! s.live pdANV then .next s else
  match s.holding with
  | none => .next s
  | some e =>
    let late := decide (s.failAt e < s.time.ft)
    let s' := anvTo (s.failAt e) s
    if s'.awaitDone e && ! late then .next s
    else
      let open' := (bitsOf 8 (enEngMask e)).filter fun n => ! s'.bit Reg.CEC_STAT_DONE n
      let stopped := open'.filter fun n => s'.bit Reg.CEC_STAT_BUSY n || s'.anv.runWait.any fun r => r.1 = n
      let s' := s'.each open' stopEngine
      let s' := overrun 1 s'.anv.ptr (stopped.foldl (fun v n => v + 2 ^ n) 0) s'.fn s'
      done (nextPtr (setAnv { s'.anv with hold := false } s'))

/-- EXCHANGE_TX: DIR = 0 (R67, R323); `src` is what ECC shows over the words copied (R410). -/
def execExchangeTx (ecc : Ecc) (src : WordEcc) (s : State) : Out :=
  if ! s.live pdANV then .next s else
  issueIf opEXCHANGE (fun e => ! enNet e && ! enDir e) ecc (fun e s =>
    let n := enXLen e
    let t := (advance (exchangeClk n) s).ctTicks
    nextPtr (sramEccs 7 src (enBuf e) n (fillSlot (enSlot e) t (getWords s.mem (enBuf e) n) s))) s

/-- EXCHANGE_RX: DIR = 1 (R64, R67): the payload of the slot accepted in this cycle, cut to LENM1 + 1 words, is written when
its copy ends. -/
def execExchangeRx (ecc : Ecc) (s : State) : Out :=
  if ! s.live pdANV then .next s else
  issueIf opEXCHANGE (fun e => ! enNet e && enDir e) ecc (fun e s =>
    match s.slotPayload (enSlot e) with
      | none => nextPtr s
      | some ws =>
        let ws := ws.take (enXLen e)
        let x : RxCopy := { ends := s.time.clk + exchangeClk ws.length, dst := enBuf e, words := ws }
        nextPtr (setAnv { s.anv with rxq := s.anv.rxq ++ [x] } s)) s

/-- EXCHANGE_SEAM: NET = 1 (R67, R301); `src` is what ECC shows over the words copied (R410). -/
def execExchangeSeam (ecc : Ecc) (src : WordEcc) (s : State) : Out :=
  if ! s.live pdANV then .next s else
  issueIf opEXCHANGE enNet ecc (fun _ s =>
    nextPtr ((seamSnapshot s).when s.iHold (sramEccs 7 src (s.rd Reg.SEAM_TX * 1024) (s.copyBytes / 4)))) s

/-- CHECK (R68): `icX` and `icY` are the ICs of the last instructions the main cores retired. -/
def execCheck (ecc : Ecc) (icX icY : BitVec 64) (s : State) : Out :=
  if ! s.live pdANV then .next s else
  issue opCHECK ecc (fun e s =>
    let s := s.when (tb (enPairs e) 0) (anvilCheck 0 icX.toNat (enCpid e))
    nextPtr (s.when (tb (enPairs e) 1) (anvilCheck 1 icY.toNat (enCpid e)))) s

/-- PUBLISH (R69, R114, R494): the copy is queued with the FN and flag word of this frame; ODIG takes that word and what is copied;
`corr` tells of a single-bit error in the engine's data memory (R125). -/
def execPublish (ecc : Ecc) (corr : Bool) (s : State) : Out :=
  if ! s.live pdANV then .next s else
  match s.nextEntry with
  | none => .next s
  | some e =>
    if ecc ≠ .uncorrectable && ! (anvTo (s.issueAt e) s).queueRoom then .next s
    else issue opPUBLISH ecc (fun e s =>
      let n := enPubEng e
      let s := s.when corr (eccCorr n)
      let w := s.publishWord n
      let s := odigAdd { words := [w], src := some (n, enDoff e, enPubLen e) } s
      nextPtr (enqueueMove (engBase + n * 2 ^ 20 + 4 * enDoff e) (s.statusBase + 4 * enSoff e) (enPubLen e) (some w) s)) s

/-- LAUNCH commits a block (R70, R132, R199): dropped for a DISABLED axis and in REPLAY, refused when late or off the
carrier, each with its own fault. -/
def launch (e : Nat) (s : State) : State :=
  let n := enAxis e
  let b := s.engWords (enLEng e) (enDoff e) 8
  let s := odigAdd { words := b } s
  let at' := s.time.fc.toNat * s.frameTicks + enApply e
  if s.dev.state = .replay || s.ax n = axDISABLED then s
  else
    let late := decide (s.edgesTo (at' * 2 ^ 32) < launchLead (enTgt e))
    let off := ! s.onCarrier n at'
    let s := s.when late (raiseDev Fc.LAUNCH_LATE)
    let s := s.when off fun s => raiseAx (Fc.LAUNCH_ALIGN n) n (s.put (Reg.COM_An_STAT_ALIGN n) true)
    s.when (! late && ! off) (outCommit n at' (enTgt e) b)

/-- LAUNCH (R70); `corr` tells of a single-bit error in the engine's data memory (R125). -/
def execLaunch (ecc : Ecc) (corr : Bool) (s : State) : Out :=
  if ! s.live pdANV then .next s else
  issue opLAUNCH ecc (fun e s => nextPtr (launch e (s.when corr (eccCorr (enLEng e))))) s

/-- RECORD (R71): words of the frame input buffer, as they stand on the issue clock (log entry 2421), join the snapshot. -/
def execRecord (ecc : Ecc) (s : State) : Out :=
  if ! s.live pdANV then .next s else
  issue opRECORD ecc (fun e s =>
    let ws := (List.range (enRecLen e)).map fun i => SMap.get 0 s.anv.fib ((enSrc e - fibBase) / 4 + i)
    nextPtr (setAnv { s.anv with snapshot := s.anv.snapshot ++ ws } s)) s

/-- SIGNAL (R72). -/
def execSignal (ecc : Ecc) (s : State) : Out :=
  if ! s.live pdANV then .next s else
  issue opSIGNAL ecc (fun e s =>
    let s := s.when (tb (enTu e) 0) (tskSignal 0 (enTask e) (enFlag e))
    let s := s.when (tb (enTu e) 1) (tskSignal 1 (enTask e) (enFlag e))
    nextPtr (s.when (enIrq e) (irq (24 + enIrqSel e)))) s

/-- A write of ANV_MODE_REQ may request a switch (R76). -/
def State.ownModes (s : State) : Bool := s.on Reg.ANV_CTRL_STANDALONE && ! s.on Reg.FDL_CTRL_EN

/-- The switch agreed or requested by now (R73, R76, R340). -/
def State.wanted (s : State) : Option Nat :=
  if s.fdl.agreed.isSome then s.fdl.agreed else if s.ownModes then s.anv.modeReq else none

/-- MODE (R73): in the last frame of a cycle the switch is latched and armed. -/
def execMode (ecc : Ecc) (s : State) : Out :=
  if ! s.live pdANV then .next s else
  issue opMODE ecc (fun _ s =>
    if s.fidx + 1 ≠ s.cycleFrames then nextPtr s
    else match s.wanted with
      | none => nextPtr s
      | some m =>
        let s := setFdl { s.fdl with agreed := none } (setAnv { s.anv with modeReq := none } s)
        nextPtr ((s.put Reg.ANV_STAT_ARMED true).wr Reg.ANV_STAT_ARMED_MODE m)) s

/-- The ODIG of a replayed frame is compared with the recorded one (R510). -/
def replayCompare (s : State) : State :=
  match s.alm.rpNow with
  | none => s
  | some r =>
    let s := setAlm { s.alm with rpNow := none } s
    if r.words.getD 1 0 = s.odig then s
    else
      let first := ! s.on Reg.ALM_RPSTAT_DIVERGED
      let s := s.inc Reg.ALM_RPDCNT
      if first then raiseDev Fc.REPLAY_DIVERGE ((s.put Reg.ALM_RPSTAT_DIVERGED true).wr Reg.ALM_RPDIV r.fn) else s

/-- END (R74, R493, R496): the frame program ends; `inTime` tells that the frame record is written before the next is due. -/
def execEnd (ecc : Ecc) (inTime : Bool) (s : State) : Out :=
  if ! s.live pdANV then .next s else
  issue opEND ecc (fun _ s => replayCompare (almEnd inTime (setAnv { s.anv with endReached := true } s))) s

/-- FT of the next scrub read: the first clock on which no entry has issued and none was read (R53). -/
def State.scrubAt (s : State) : Nat :=
  max (max s.time.ft (s.time.ft + s.anv.scrubFree - s.time.clk)) (if s.on Reg.ANV_STAT_RUNNING then s.anv.freeClk else 0)

/-- SCRUB_READ (R53): the scrubber reads one entry on a clock without issue, before the next frame tick. -/
def execScrubRead (ecc : Ecc) (s : State) : Out :=
  if ! s.live pdANV then .next s else
  let due := match s.nextEntry with
    | some e => decide (s.issueAt e ≤ s.scrubAt)
    | none => false
  if ! s.on Reg.ANV_SCRUB || due || ! s.inFrame (s.time.clk + (s.scrubAt - s.time.ft)) then .next s
  else
    let i := s.anv.scrub
    let s := anvTo s.scrubAt s
    let s := setAnv { s.anv with scrub := (i + 1) % 8192, scrubFree := s.time.clk + 1 } s
    match ecc with
    | .ok => done s
    | .corrected => done (anvCorr s)
    | .uncorrectable =>
      let hit := (List.range 8).filter fun m =>
        decide ((s.modeSpan m).1 ≤ i ∧ i < (s.modeSpan m).1 + (s.modeSpan m).2)
      let active := hit.contains (s.rd Reg.ANV_STAT_MODE) && s.on Reg.ANV_STAT_RUNNING
      let s := s.each (hit.filter s.modeValid) modeInvalid
      if active then done (overrun 3 (i - s.activeSpan.1) 0 s.fn (anvUncorr i s)) else done (s.wr Reg.ANV_ECC_ADDR i)

/-! ### Starting, stopping, switching (R75 to R78) -/

/-- A write of ANV_CTRL.RUN: 1 requests a start (R75), 0 a stop (R77). A 1 written before the END of a stop withdraws the stop
(log entry 2423). -/
def anvRun (b : Bool) (s : State) : State :=
  if b then setAnv { s.anv with stopReq := false } (s.put Reg.ANV_CTRL_RUN true)
  else if ! s.on Reg.ANV_STAT_RUNNING then s.put Reg.ANV_CTRL_RUN false
  else if s.allAxes [axDISABLED, axSAFE] then setAnv { s.anv with stopReq := true } (s.put Reg.ANV_CTRL_RUN false)
  else s

/-- ANV_RUN_START (R75). -/
def execAnvRunStart (s : State) : Out :=
  if ! s.live pdANV then .next s else
  done (anvRun true s)

/-- ANV_RUN_STOP (R77). -/
def execAnvRunStop (s : State) : Out :=
  if ! s.live pdANV then .next s else
  done (anvRun false s)

/-- A device state in which the Anvil runs (R78). -/
def State.anvilState (s : State) : Bool := s.dev.state ≠ .boot && s.dev.state ≠ .assay

/-- The conditions of a start (R75). -/
def State.startOk (s : State) : Bool :=
  s.on Reg.ANV_CTRL_RUN && ! s.on Reg.ANV_STAT_RUNNING && s.anvilState && s.modeValid (s.rd Reg.ANV_CTRL_START_MODE) &&
    s.on Reg.TIME_STAT_CT_VALID && s.live pdANV

/-- The table starts at entry 0 of the active mode. -/
def frameStart (s : State) : State :=
  setAnv { s.anv with ptr := 0, endReached := false, hold := false, launchOff := false, freeClk := 0, snapshot := [],
                      incomp := false, odig := [], slipNow := false, ovrNow := false,
                      moveQ := s.anv.moveQ.map fun m => { m with digest := false } } s

/-- ANVIL_START (R75): at the cycle boundary that the last frame tick made, with RUN at 1 since before it. -/
def execAnvilStart (s : State) : Out :=
  if ! s.live pdANV then .next s else
  if s.startOk && s.anv.runSeen && decide (s.time.ft = 0) && decide (s.fidx = 0) then
    let m := s.rd Reg.ANV_CTRL_START_MODE
    let s := (s.put Reg.ANV_STAT_RUNNING true).wr Reg.ANV_STAT_MODE m
    let s := frameStart s
    let s := setAnv { s.anv with stopReq := false, runSeen := false } s
    let s := s.when (s.almState = almNOKEY && ! s.alm.nokeyUp) fun s =>
      (setAlm { s.alm with nokeyUp := true } s).later { code := Fc.ALM_NOKEY }
    done (fdlRefresh s)
  else .next s

/-- ANVIL_STOP (R77): after the END of the frame. An armed switch is dropped (log entry 2426). -/
def execAnvilStop (s : State) : Out :=
  if ! s.live pdANV then .next s else
  if s.on Reg.ANV_STAT_RUNNING && s.anv.stopReq && s.anv.endReached then
    let s := setAnv { s.anv with stopReq := false } (s.put Reg.ANV_STAT_RUNNING false)
    done (s.put Reg.ANV_STAT_ARMED false)
  else .next s

/-- A write of ANV_MODE_REQ with REQ = 1 (R76). -/
def modeRequest (m : Nat) (s : State) : State :=
  if s.ownModes then setAnv { s.anv with modeReq := some m } (s.wr Reg.ANV_MODE_REQ_MODE m)
  else s.put Reg.ANV_STAT_MODE_REQ_REFUSED true

/-- MODE_REQUEST (R76). -/
def execModeRequest (m : Fin 8) (s : State) : Out :=
  if ! s.live pdANV then .next s else
  done (modeRequest m s)

end Sys2Proof.Machine
end

