-- ==== Sys2Proof/Machine/Blule.lean ====
section
/-! DEFINITION. The Blule container as Crucible reads it: header fields, payloads of images and tokens (R443, R446, R449, R452,
R473, R478). -/
namespace Sys2Proof
open Machine

/-- Header word i, and the fields of the header. -/
def Container.w (c : Container) (i : Nat) : Nat := ((c.hdr.map BitVec.toNat).getD i 0)
def Container.type (c : Container) : Nat := bits (c.w 1) 16 8
def Container.flags (c : Container) : Nat := bits (c.w 1) 24 8
def Container.len (c : Container) : Nat := c.w 2
def Container.arbIdx (c : Container) : Nat := bits (c.w 3) 0 2
def Container.arbVal (c : Container) : Nat := bits (c.w 3) 2 7
def Container.arbEn (c : Container) : Bool := tb (c.w 3) 15
def Container.lcmask (c : Container) : Nat := bits (c.w 5) 0 8
def Container.keyslot (c : Container) : Nat := bits (c.w 5) 8 8
def Container.target (c : Container) : Nat := bits (c.w 5) 16 8
def Container.serial (c : Container) : Nat := c.w 6 + c.w 7 * 2 ^ 32
def Container.sermask (c : Container) : Nat := c.w 8 + c.w 9 * 2 ^ 32
def Container.tkc (c : Container) : Nat := c.w 10
def Container.vendor (c : Container) : Bool := c.keyslot = 0xFF

/-- The LENGTH / 4 words of the payload. -/
def Container.body (c : Container) : List Nat := padTo (c.len / 4) (c.payload.map BitVec.toNat)

/-- The types of a container. -/
def ctIMAGE : Nat := 1
def ctENGINE : Nat := 2
def ctSEALED : Nat := 3
def ctSCHEDULE : Nat := 4
def ctTOKEN : Nat := 5

/-- The header is malformed (R443, R446). -/
def Container.malformed (c : Container) : Bool :=
  let t := c.type
  let tok := decide (t = ctTOKEN)
  decide (c.w 0 ≠ 0x4C554C42) || decide (bits (c.w 1) 0 16 ≠ 1) || decide (t = 0) || decide (5 < t) ||
    decide (4 ≤ c.flags) || (tb c.flags 0 && ! tok) || (tb c.flags 1 && decide (t ≠ ctIMAGE)) ||
    decide (c.len % 16 ≠ 0) || decide (c.len < 16) || decide (16760000 < c.len) ||
    decide (64 < c.arbVal) || decide (bits (c.w 3) 9 6 ≠ 0) || decide (bits (c.w 3) 16 16 ≠ 0) ||
    decide (16 ≤ c.lcmask) || (decide (3 < c.keyslot) && ! c.vendor) ||
    decide (7 < c.target) || (decide (c.target ≠ 0) && (tok || decide (t = ctIMAGE))) || decide (bits (c.w 5) 24 8 ≠ 0) ||
    (if tok then decide (256 < c.tkc) else decide (c.tkc ≠ 0)) ||
    [11, 12, 13, 14, 15].any fun i => decide (c.w i ≠ 0)

/-- Token kinds (R473). -/
def tkLIFECYCLE : Nat := 1
def tkKEYS : Nat := 2
def tkDEBUG : Nat := 3
def tkGRANT : Nat := 4
def tkREPLAY : Nat := 5
def tkRECKEY : Nat := 6

/-- KIND and ROLE of a token, and word i of its payload. -/
def Container.pw (c : Container) (i : Nat) : Nat := c.body.getD i 0
def Container.kind (c : Container) : Nat := bits (c.pw 0) 0 8
def Container.role (c : Container) : Nat := bits (c.pw 0) 8 8

/-- TO of a LIFECYCLE token. -/
def Container.to (c : Container) : Nat := bits (c.pw 1) 0 3

/-- Which step processes a container: its TYPE, and 16 + KIND for a token. A malformed header, and a TYPE that is reserved,
counts as an image; a reserved KIND as a lifecycle token. -/
def Container.step (c : Container) : Nat :=
  if c.malformed then ctIMAGE
  else if c.type = ctTOKEN then (if 1 ≤ c.kind ∧ c.kind ≤ 6 then 16 + c.kind else 17)
  else c.type

/-- A container cut out of words (R443): 16 header words, the payload of LENGTH bytes, the signature block. -/
def Container.cut (c : Container) (ws : List Nat) : Container :=
  let bs := (ws.map (BitVec.ofNat 32 ·))
  let n := ws.getD 2 0 / 4
  { c with hdr := bs.take 16, payload := (bs.drop 16).take n, sig := bs.drop (16 + n) }

/-- SHA-384 of the modulus N and of the SLH-DSA public key in the signature block, to be compared with H_R and H_S (R440, R444). -/
def Container.keyHash (c : Container) : List Nat :=
  let ws := padTo 108 (c.sig.map BitVec.toNat)
  sha384 (ws.take 96) ++ sha384 (ws.drop 96)

/-- Words of an image payload from byte offset `off`. -/
def imageWords (ws : List Nat) (off n : Nat) : List Nat := bytesWords n (((wordsBytes (ws.drop (off / 4))).drop (off % 4)))

/-- Offset and length of container i nested in an image payload (R452). -/
def nestEntry (ws : List Nat) (i : Nat) : Nat × Nat :=
  let k := 4 + 4 * ws.getD 0 0 + 2 * i
  (ws.getD k 0, ws.getD (k + 1) 0)

/-- D: the digest of header and payload (R444). -/
def Container.digest (c : Container) : List Nat := sha384 (padTo 16 (c.hdr.map BitVec.toNat) ++ c.body)

/-- The 8 bytes a copy of the boot control block puts under its CRC, the CRC-32 of them, whether it is the one it holds, and the copy
with its CRC made right (R451). -/
def Machine.Bcb.bytes (b : Machine.Bcb) : List Nat := wordBytes b.gen ++ [b.prefer % 256, b.stA % 256, b.stB % 256, b.pad % 256]
def Machine.Bcb.valid (b : Machine.Bcb) : Bool := decide (b.crc = crc32 b.bytes)
def Machine.Bcb.seal (b : Machine.Bcb) : Machine.Bcb := { b with crc := crc32 b.bytes }

/-- FIRST and COUNT of a SEALED payload. -/
def Container.sealFirst (c : Container) : Nat := bits (c.pw 99) 0 16
def Container.sealCount (c : Container) : Nat := bits (c.pw 99) 16 16

/-- Base and size of the destination a segment target names (R452). -/
def segmentSpan (target : Nat) : Option (Nat × Nat) :=
  if target = 0 then some (sramBase, sramEnd) else if target ≤ 3 then some (0x08000000, 0x08100000) else none

/-- Segment i of an image payload: offset, length, destination, target. -/
def imageSegment (ws : List Nat) (i : Nat) : Nat × Nat × Nat × Nat :=
  (ws.getD (4 + 4 * i) 0, ws.getD (5 + 4 * i) 0, ws.getD (6 + 4 * i) 0, ws.getD (7 + 4 * i) 0)

/-- A segment lies inside the payload and inside its destination. -/
def segmentFits (len : Nat) (g : Nat × Nat × Nat × Nat) : Bool :=
  match segmentSpan g.2.2.2 with
  | none => false
  | some (lo, hi) => decide (g.1 + g.2.1 ≤ len) && decide (lo ≤ g.2.2.1) && decide (g.2.2.1 + g.2.1 ≤ hi)

/-- The rules of R452. -/
def Container.imageOk (c : Container) : Bool :=
  let ws := c.body
  let nseg := ws.getD 0 0
  let nnest := ws.getD 1 0
  decide (1 ≤ nseg) && decide (nseg ≤ 16) && decide (nnest ≤ 64) && decide (17104 + c.len ≤ 0x800000) &&
    decide (16 + 16 * nseg + 8 * nnest ≤ c.len) &&
    ((List.range nseg).all fun i => segmentFits c.len (imageSegment ws i)) &&
    (List.range nnest).all fun i =>
      let (off, n) := nestEntry ws i
      let t := bits ((imageWords ws off 2).getD 1 0) 16 8
      decide (off + n ≤ c.len) && (t = ctENGINE || t = ctSEALED || t = ctSCHEDULE)

end Sys2Proof
end

