-- ==== Sys2Proof/Machine/EngLoad.lean ====
section
/-! DEFINITION. What Crucible checks and writes for an engine: the reach of every instruction, the checks of R94, the layout
of an ENGINE payload (R449) and of sealed words (R478). -/
namespace Sys2Proof.Machine

/-- The data words an instruction reads, those it writes, and the coefficient words it reads, as spans (R102 to R109,
R115). -/
structure Reach where
  reads : List (Nat × Nat)
  writes : List (Nat × Nat)
  coef : Option (Nat × Nat)
deriving DecidableEq, Repr

/-- The reach of a program word in an engine. -/
def reachOf (e : EngSt) (w : Nat) : Reach :=
  let l := ewLanes w
  let a := ewA w
  let b := ewB w
  let d := ewD w
  let k := ewK w
  match ewOp w with
  | 0x02 => ⟨[(a, l)], [(d, l)], none⟩
  | 0x03 => ⟨[], [(d, 1)], some (k, 1)⟩
  | 0x04 | 0x15 => ⟨[(a, 1)], [(d, 1)], some (k, 1)⟩
  | 0x10 | 0x11 | 0x30 | 0x31 => ⟨[(a, l), (b, l)], [(d, l)], none⟩
  | 0x12 | 0x13 => ⟨[(a, 1)], [(d, 1)], none⟩
  | 0x14 | 0x16 => ⟨[(a, 1), (b, 1)], [(d, 1)], some (k, 1)⟩
  | 0x21 => ⟨[(a, l)], [], some (k, l)⟩
  | 0x22 | 0x23 => ⟨[(a, l), (b, l)], [], none⟩
  | 0x24 => ⟨[], [(d, l)], some (k, 1)⟩
  | 0x25 => ⟨[], [(d, 1)], some (k, 1)⟩
  | 0x32 => ⟨[(a, 1), (b, 2)], [(d, 1)], none⟩
  | 0x33 => ⟨[(a, 1), (b, 1), (d, 1)], [(d, 1)], none⟩
  | 0x38 | 0x39 | 0x3A => ⟨[(a, 1), (b, 1)], [(d, 1)], none⟩
  | 0x40 => ⟨[(a, if ewMd w = 0 then 2 else 3)], [(d, 2)], none⟩
  | 0x41 | 0x42 => ⟨[(a, 2), (b, 2)], [(d, 2)], none⟩
  | 0x43 => ⟨[(a, 1)], [(d, 2)], none⟩
  | 0x44 => ⟨[(a, 1)], [(d, 1)], some (k, 2 + (e.v (k + 1)).toNat)⟩
  | 0x45 => ⟨[(a, 2)], [(d, 1)], some (k, 3 + bits (e.cw (k + 2)) 0 16 * bits (e.cw (k + 2)) 16 16)⟩
  | 0x46 => ⟨[(a, 1), (b, 2), (d, 1)], [(d, 1)], some (k, 1)⟩
  | 0x47 => ⟨[(a, 1), (d, 1)], [(d, 1)], some (k, 1)⟩
  | 0x48 => ⟨[(a, 1), (d, 4)], [(d, 4), (b, 1)], some (k, 5)⟩
  | 0x49 => ⟨[(a, 1), (d, firN e w - 1)], [(d, firN e w - 1), (b, 1)], some (k, 1 + firN e w)⟩
  | 0x4A => ⟨[(a, 1), (b, 1), (d, 1)], [(d, 1)], some (k, 4)⟩
  | _ => ⟨[], [], none⟩

/-- Check 2 of R94: the reach of a word stays within 16,384 data words and 4,096 coefficient words. -/
def reachBad (e : EngSt) (w : Nat) : Bool :=
  let r := reachOf e w
  (r.reads ++ r.writes).any (fun p => decide (16384 < p.1 + p.2)) ||
    match r.coef with
    | some p => decide (4096 < p.1 + p.2)
    | none => false

/-- Check 3 of R94: a table or filter header outside its limits (R107, R109, R115). -/
def headerBad (e : EngSt) (w : Nat) : Bool :=
  let k := ewK w
  let out := fun (x lo hi : Int) => decide (x < lo) || decide (hi < x)
  match ewOp w with
  | 0x44 => decide (e.sh k < 0) || out (e.v (k + 1)) 2 1024
  | 0x45 => decide (e.sh k < 0) || decide (e.sh (k + 1) < 0) || out (bits (e.cw (k + 2)) 0 16) 2 64 ||
      out (bits (e.cw (k + 2)) 16 16) 2 64
  | 0x49 => out (e.v k) 1 64
  | 0x4A => decide (e.v k < 0) || out (e.v (k + 1)) 1 65535 || out (e.v (k + 2)) 0 65535 || out (e.v (k + 3)) 1 1048576
  | _ => false

/-- The class of data page j, as four 16-page words hold it (R118, CEC_En_PAGEm). -/
def pageClass (pages : List Nat) (j : Nat) : Nat := bits (pages.getD (j / 16) 0) (2 * (j % 16)) 2

/-- A coefficient word is sealed. -/
def EngSt.sealedAt (e : EngSt) (k : Nat) : Bool := tb (e.cw k) 39

/-- Check 7 of R94: an instruction that reads a sealed word writes a word of a public page. -/
def leakBad (e : EngSt) (pages : List Nat) (w : Nat) : Bool :=
  let r := reachOf e w
  match r.coef with
  | none => false
  | some (k, n) =>
    (List.range n).any (fun i => e.sealedAt (k + i)) &&
      r.writes.any fun p => (List.range p.2).any fun i => pageClass pages ((p.1 + i) / 256) = 0

/-- Check 6 of R94: a node's class is lower than that of its page (R120). -/
def nodeBad (pages : List Nat) (node : Nat) : Bool :=
  tb node 31 && decide (bits node 16 2 < pageClass pages (bits node 0 14 / 256))

/-- The first failing check of R94 over a program of an engine, 0 if none fails. -/
def loadCheck (e : EngSt) (prog pages nodes : List Nat) : Nat :=
  if prog.any fun w => ! validWord w then 1
  else if prog.any (reachBad e) then 2
  else if prog.any (headerBad e) then 3
  else if prog.getLast?.map ewOp ≠ some 1 then 4
  else if decide (2048 < prog.length) then 5
  else if nodes.any (nodeBad pages) then 6
  else if prog.any (leakBad e pages) then 7
  else 0

/-- The engine with a load still waiting taken up: what the next load is judged against (R94). -/
def State.future (s : State) (n : Nat) : EngSt × List Nat × Bool :=
  let e := s.e n
  let now := (List.range 4).map fun m => s.rd (Reg.CEC_En_PAGEm n m)
  match e.load with
  | none => (e, now, s.bit Reg.CEC_STAT_LOADED n)
  | some l =>
    let e := { e with coef := l.coefs.foldl (fun c p => SMap.set 0 c p.1 p.2) e.coef }
    match l.program with
    | none => (e, now, s.bit Reg.CEC_STAT_LOADED n)
    | some (prog, pages, nodes, _) =>
      ({ e with prog := SMap.setMany 0 [] 0 prog, nodes := SMap.setMany 0 [] 0 nodes }, pages, ! tb s.sec.sealBar n)

/-- A load joins what the engine takes up (R93). -/
def engLoad (n : Nat) (prog : Option (List Nat × List Nat × List Nat × Nat)) (coefs : List (Nat × Nat)) (s : State) :
    State :=
  let e := s.e n
  let l := match e.load with
    | none => { program := prog, coefs := coefs }
    | some l => { l with program := if prog.isSome then prog else l.program, coefs := l.coefs ++ coefs }
  s.setE n { e with load := some l }

/-! ### The ENGINE payload (R449) -/

/-- END as a program word. -/
def endWord : Nat := 2 ^ 56

/-- An 8-byte coefficient entry (R478): VALUE, SHIFT and QUIET; none where a reserved bit is set. -/
def coefEntry (lo hi : Nat) : Option Nat := if hi < 128 then some (lo + hi * 2 ^ 32) else none

/-- `n` coefficient entries from word `k`. -/
def coefEntries : Nat → Nat → List Nat → Option (List (Nat × Nat))
  | 0, _, _ => some []
  | n + 1, k, lo :: hi :: ws =>
    match coefEntry lo hi, coefEntries n (k + 1) ws with
    | some v, some r => some ((k, v) :: r)
    | _, _ => none
  | _, _, _ => none

/-- The coefficient runs of a payload (R449): ascending, without overlap, within 4,096; then zero padding. -/
def coefRuns : Nat → Nat → List Nat → Option (List (Nat × Nat))
  | 0, _, ws => if ws.length < 4 ∧ ws.all (· = 0) then some [] else none
  | n + 1, lo, h0 :: h1 :: ws =>
    let first := bits h0 0 12
    let count := bits h0 16 13
    if bits h0 12 4 ≠ 0 ∨ bits h0 29 3 ≠ 0 ∨ h1 ≠ 0 ∨ first < lo ∨ count = 0 ∨ 4096 < first + count then none
    else match coefEntries count first ws, coefRuns n (first + count) (ws.drop (2 * count)) with
      | some a, some b => some (a ++ b)
      | _, _ => none
  | _, _, _ => none

/-- Pairs of 32-bit words as 64-bit words, low word first. -/
def wordPairs : List Nat → List Nat
  | a :: b :: ws => (a + b * 2 ^ 32) :: wordPairs ws
  | _ => []

/-- An ENGINE payload laid out as R449 asks: PROG_ID, program, page classes, node table, coefficients. -/
structure EnginePayload where
  id : Nat
  prog : List Nat
  pages : List Nat
  nodes : List Nat
  coefs : List (Nat × Nat)
deriving DecidableEq, Repr

/-- Read an ENGINE payload; none where it breaks the layout (CHECK 0x30). -/
def readEngine (ws : List Nat) : Option EnginePayload :=
  let w := fun i => ws.getD i 0
  let np := bits (w 1) 0 12 + 1
  let pages := (ws.drop 4).take 4
  let nodes := (ws.drop 16).take 64
  if ws.length < 80 + 2 * np ∨ ws.length % 4 ≠ 0 ∨ 4096 ≤ w 1 ∨ 2048 < np ∨ 64 < w 2 ∨ w 3 ≠ 0 ∨
      ((ws.drop 8).take 8).any (· ≠ 0) ∨ (List.range 64).any (fun j => pageClass pages j = 3) ∨
      nodes.any (fun x => bits x 14 2 ≠ 0 || bits x 18 13 ≠ 0 || bits x 16 2 = 3) then none
  else match coefRuns (w 2) 0 (ws.drop (80 + 2 * np)) with
    | none => none
    | some coefs =>
      some { id := w 0, prog := wordPairs ((ws.drop 80).take (2 * np)), pages := pages, nodes := nodes, coefs := coefs }

/-- The program memory an ENGINE load gives: words NPROG to 2,047 are END. -/
def fullProgram (prog : List Nat) : List Nat := prog ++ List.replicate (2048 - prog.length) endWord

/-- Bit 39 of a coefficient word: SEALED (R88). -/
def sealWord (p : Nat × Nat) : Nat × Nat := (p.1, p.2 % 2 ^ 39 + 2 ^ 39)

end Sys2Proof.Machine
end

