-- ==== Sys2Proof/Machine/Sec.lean ====
section
/-! DEFINITION. Crucible: verification of Blule containers (R443 to R448), engine, sealed and schedule loads (R449, R450,
R478, R479), images and slots (R451 to R455), tokens (R435, R440, R457, R473 to R477, R484, R507), the mailbox (R462), the
token window (R459) and the Hallmark (R488, R489). -/
namespace Sys2Proof.Machine

/-! ### Fuses and flash as the registers show them -/

/-- The lifecycle the fuses show: 0 BLANK, else one above the highest bit set (R434). -/
def State.lcFuses (s : State) : Nat := ((List.range 4).filter fun k => s.fuse (fzLC k)).foldl (fun _ k => k + 1) 0

/-- A lifecycle bit is set above an unset one (R437). -/
def State.lcBroken (s : State) : Bool :=
  (List.range 3).any fun k => ! s.fuse (fzLC k) && decide (k + 1 < s.lcFuses)

/-- The lifecycle state in force (R433). -/
def State.lc (s : State) : Nat := s.rd Reg.SEC_STAT_LC
def lcBLANK : Nat := 0
def lcMAKER : Nat := 1
def lcFIELD : Nat := 2
def lcRETURN : Nat := 3
def lcDEAD : Nat := 4

/-- A maker slot is programmed; it is revoked, by its fuses or by an uncorrectable error (R438, R440). -/
def State.slotProg (s : State) (k : Nat) : Bool := decide (SMap.get [] s.sec.keys k ≠ [])
def State.slotRevoked (s : State) (k : Nat) : Bool := s.fuse (fzREV k) || tb s.sec.badSlots k

/-- SEC_FUSE and SEC_ARB. -/
def State.secFuse (s : State) : Nat :=
  ((List.range 4).foldl (fun v k => putBit (putBit v k (s.slotProg k)) (4 + k) (s.slotRevoked k)) 0) +
    b2n (s.fuse fzSPLIT) * 2 ^ 8 + b2n (s.fuse fzSPLIT_LOCK) * 2 ^ 9
def State.secArb (s : State) : Nat := (List.range 4).foldl (fun v k => v + s.arbCtr k * 2 ^ (8 * k)) 0

/-- GRADE as the Hallmark gives it (R489): the codes of R438, 0 for any other. -/
def State.grade (s : State) : Nat :=
  let g := b2n (s.fuse (fzGRADE 0)) + 2 * b2n (s.fuse (fzGRADE 1))
  if g = 3 then 0 else g

/-- The copy of the boot control block that governs, and its number; none where neither is valid (R451). -/
def State.bcb (s : State) : Option (Nat × Bcb) :=
  let a := s.sec.bcb0
  let b := s.sec.bcb1
  let d := (b.gen + 2 ^ 32 - a.gen) % 2 ^ 32
  if a.valid && b.valid then if 0 < d ∧ d < 2 ^ 31 then some (1, b) else some (0, a)
  else if a.valid then some (0, a)
  else if b.valid then some (1, b)
  else none

/-- States of a slot (R451). -/
def bsEMPTY : Nat := 0
def bsTRIAL : Nat := 1
def bsGOOD : Nat := 2
def bsFAILED : Nat := 3

/-- What holds with no valid copy: both slots TRIAL, A preferred (R453). -/
def bcbNone : Bcb := { stA := bsTRIAL, stB := bsTRIAL }

/-- The block in force, as the registers and the boot ROM read it. -/
def State.bcbNow (s : State) : Bcb := (s.bcb.map Prod.snd).getD bcbNone

/-- State and attempt mask of a slot: 0 A, 1 B. -/
def Bcb.st (b : Bcb) (slot : Nat) : Nat := if slot = 0 then b.stA else b.stB
def Bcb.att (b : Bcb) (slot : Nat) : Nat := if slot = 0 then b.attA else b.attB
def Bcb.setSt (b : Bcb) (slot v : Nat) : Bcb := if slot = 0 then { b with stA := v } else { b with stB := v }
def Bcb.setAtt (b : Bcb) (slot v : Nat) : Bcb := if slot = 0 then { b with attA := v } else { b with attB := v }

/-- A new generation in the copy that does not govern (R451). -/
def newBcb (f : Bcb → Bcb) (s : State) : State :=
  let (i, b) := s.bcb.getD (0, bcbNone)
  let b := { f b with gen := (b.gen + 1) % 2 ^ 32 }.seal
  if i = 0 then setSec { s.sec with bcb1 := b } s else setSec { s.sec with bcb0 := b } s

/-- A change of the attempt masks of the governing copy, which needs no new generation (R451). -/
def sameBcb (f : Bcb → Bcb) (s : State) : State :=
  match s.bcb with
  | some (0, b) => setSec { s.sec with bcb0 := f b } s
  | some (_, b) => setSec { s.sec with bcb1 := f b } s
  | none => s

/-- The container Crucible reads: header and payload come from the operand where they lie in host memory, else from shared
SRAM, from the token window or from the booted image. -/
def State.contents (s : State) (src : CrucSrc) (c : Container) : Container :=
  match src with
  | .ring d => if s.loc d.ring = 1 then c.cut (getWords s.mem d.addr (d.loadLen / 4)) else c
  | .window ws => c.cut ws
  | .hallmark _ => c
  | .nested i =>
    match s.sec.image with
    | some im => let e := nestEntry im.body i; c.cut (imageWords im.body e.1 (e.2 / 4))
    | none => c

/-- The clock on which the container reached Crucible. -/
def State.reached (s : State) : CrucSrc → Nat
  | .ring d => d.takenAt
  | .window _ => s.sec.winClk
  | .nested _ | .hallmark _ => 0

/-- A mailbox command that reached Crucible on the same clock is served first (R461). -/
def State.mboxAhead (s : State) (src : CrucSrc) : Bool := s.sec.mbox.any fun m => decide (m.clk = s.reached src)

/-- Crucible serves: it is powered, and the boot ROM found a lifecycle field it could read and that is not DEAD (R437). -/
def State.crucUp (s : State) : Bool := s.live pdCRUC && ! s.sec.lcDown

/-- The bytes handed over. -/
def State.handed (s : State) (src : CrucSrc) : Nat :=
  match src with
  | .ring d => d.loadLen
  | .window ws => 4 * ws.length
  | .hallmark _ => 0
  | .nested i => ((s.sec.image.map fun im => (nestEntry im.body i).2)).getD 0

/-! ### Verification (R444) -/

/-- A type the path accepts: the window takes DEBUG tokens, an image nests ENGINE, SEALED and SCHEDULE (R452, R459). -/
def pathTakes (src : CrucSrc) (c : Container) : Bool :=
  match src with
  | .ring _ => true
  | .window _ => c.type = ctTOKEN && c.kind = tkDEBUG
  | .nested _ => c.type = ctENGINE || c.type = ctSEALED || c.type = ctSCHEDULE
  | .hallmark _ => false

/-- The signers of R445. In RETURN a SEALED container is judged as in FIELD, so that R479 refuses it. -/
def State.signerOk (s : State) (c : Container) : Bool :=
  let v := c.vendor
  if c.type = ctSEALED then decide (s.lc ≠ lcBLANK) && ! v
  else if s.lc = lcBLANK then v
  else if s.lc = lcFIELD then ! v || (c.type = ctTOKEN && c.kind = tkLIFECYCLE && c.to = lcDEAD)
  else decide (s.lc ≠ lcDEAD)

/-- The first failing check of R444 but for the path and the content; 0 if none fails. -/
def State.verify (s : State) (takes : Bool) (c : Container) : Nat :=
  let k := c.keyslot
  let rev := s.rd Reg.SYS_ID_REV
  if c.malformed then 0x01
  else if ! takes then 0x02
  else if decide (bits (c.w 4) 0 16 ≠ s.rd Reg.SYS_ID_DEVCLASS) || decide (rev < bits (c.w 4) 16 8) ||
      decide (bits (c.w 4) 24 8 < rev) then 0x08
  else if ! tb c.lcmask s.lc then 0x09
  else if s.sec.serial &&& c.sermask ≠ c.serial &&& c.sermask then 0x0A
  else if ! s.signerOk c || (! c.vendor && (! s.slotProg k || s.slotRevoked k)) then 0x03
  else if c.keyHash ≠ (if c.vendor then vendorHash else SMap.get [] s.sec.keys k) then 0x04
  else if ! c.rsaOk then 0x05
  else if ! c.slhOk then 0x06
  else if c.arbEn && decide (c.arbVal < s.arbCtr c.arbIdx) then 0x07
  else if c.type = ctTOKEN && decide (c.tkc < s.tkcNow) then 0x0B
  else 0

/-! ### The verdict (R447) -/

/-- RESULT word 4: CODE, CHECK and the engine or mode. -/
def verdictWord (code check unit : Nat) : Nat := code + check * 2 ^ 8 + unit % 8 * 2 ^ 16

/-- The container in process is done with; the next one is taken. -/
def nextContainer (s : State) : State :=
  let q := s.sec.queue.drop 1
  setSec { s.sec with queue := q, sched := none, accepted := none } (s.put Reg.SEC_STAT_BUSY (q.any isContainer))

/-- A SEALED container nested in the image of a split device is refused with CHECK 0x26 and keeps its engine unloaded; an ENGINE
container loaded later brings the engine back (R491). -/
def sealBar (src : CrucSrc) (c : Container) (code check : Nat) (s : State) : State :=
  match src with
  | .nested _ =>
    s.when (c.type = ctSEALED && code = 0x0C && check = 0x26) fun s =>
      setSec { s.sec with sealBar := putBit s.sec.sealBar c.target true } (s.wrBit Reg.CEC_STAT_LOADED c.target false)
  | .ring _ =>
    s.when (c.type = ctENGINE && code = 0) fun s => setSec { s.sec with sealBar := putBit s.sec.sealBar c.target false } s
  | _ => s

/-- Crucible reports its verdict on the container in process and takes the next one. -/
def verdict (src : CrucSrc) (c : Container) (code check : Nat) (s : State) : State :=
  let named := ! c.malformed && (c.type = ctENGINE || c.type = ctSEALED || c.type = ctSCHEDULE)
  let v := verdictWord code check (if named then c.target else 0)
  let s := sealBar src c code check (nextContainer (s.wr Reg.SEC_LAST v))
  let s := s.when (code ≠ 0) (raiseDev (if c.type = ctTOKEN then Fc.TOKEN_REFUSED else Fc.LOAD_REFUSED))
  let s := irq 225 s
  match src with
  | .ring d => complete d (if code = 0 then stOK else stREFUSED) d.late [v] s
  | .window _ => (s.wr Reg.DBG_STAT_CODE code).put Reg.DBG_STAT_BUSY false
  | .nested _ | .hallmark _ => s

/-- A DMA read of the container in process has failed (R376): the descriptor completes DMA_ERR and its ring stops; Crucible gives no
verdict. None where the container is not one of host memory, or has been read. -/
def readFailed (src : CrucSrc) (c : Container) (s : State) : Option State :=
  match src with
  | .ring d =>
    if ! c.dmaOk ∧ s.loc d.ring ≠ 1 then some (dmaErr d.ring 1 d.addr (complete d stDMA_ERR d.late [] (nextContainer s))) else none
  | _ => none

/-- One container of the given step is processed: verified, then its content and target. `eff` answers CODE, CHECK and the
state where it gives the verdict itself, or none while the verdict is still to come. A container in process holds the
queue. -/
def crucible (step : Nat) (c : Container) (eff : Container → State → Option (Nat × Nat) × State) (s : State) : Out :=
  match s.sec.queue with
  | [] => .next s
  | src :: _ =>
    let c := s.contents src c
    if c.step ≠ step || s.sec.sched.isSome || ! isContainer src || s.mboxAhead src then .next s
    else if let some s := readFailed src c s then done s
    else if s.dev.state = .replay then done (verdict src c 0x0D 0 s)
    else
      let short := decide (s.handed src < 17104 + c.len)
      let code := if short then 0x01 else s.verify (pathTakes src c) c
      if code ≠ 0 then done (verdict src c code 0 s)
      else match eff c s with
        | (some (code, check), s) => done (verdict src c code check s)
        | (none, s) => done s

/-! ### Engines (R92 to R94, R449, R478, R479) -/

/-- The axis of the target is not DISABLED (R92). -/
def State.loadBlocked (s : State) (n : Nat) : Bool := s.ax n ≠ axDISABLED

/-- The container in process is accepted for its target: from the next frame tick the engine is fenced (R93, R479). -/
def acceptLoad (c : Container) (s : State) : State := setSec { s.sec with accepted := some c.target } s

/-- ENGINE: target state, layout, then R94 against the contents after the load. Without `report` the container is accepted
and its verdict still to come. -/
def engineEff (report : Bool) (c : Container) (s : State) : Option (Nat × Nat) × State :=
  let n := c.target
  if s.loadBlocked n then (some (0x0D, 0), s)
  else if ! report then (none, acceptLoad c s)
  else match readEngine c.body with
    | none => (some (0x0C, 0x30), s)
    | some p =>
      let (e, _, _) := s.future n
      let e := { e with coef := p.coefs.foldl (fun m x => SMap.set 0 m x.1 x.2) e.coef }
      let check := loadCheck e p.prog p.pages p.nodes
      if check ≠ 0 then (some (0x0C, check), s)
      else
        let s := engLoad n (some (fullProgram p.prog, p.pages, p.nodes, p.id)) p.coefs s
        (some (0, 0), setSec { s.sec with engD := SMap.set [] s.sec.engD n c.digest } s)

/-- ENGINE_LOAD (R92 to R94, R449): `report` tells whether Crucible completes the load, or has only accepted it so far. -/
def execEngineLoad (c : Container) (report : Bool) (s : State) : Out :=
  if ! s.crucUp then .next s else
  crucible ctENGINE c (engineEff report) s

/-- What is refused before the load is accepted (R458, R476, R479). -/
def State.sealRefused (s : State) (c : Container) : Option (Nat × Nat) :=
  let n := c.sealCount
  let dbg := s.rd Reg.SEC_STAT_DBG
  if dbg = 2 ∨ (s.lc = lcMAKER ∧ dbg ≠ 0) ∨ s.lc = lcRETURN ∨ s.sec.drsBad = true then some (0x0E, 0)
  else if s.split then some (0x0C, 0x26)
  else if s.loadBlocked c.target then some (0x0D, 0)
  else if c.len ≠ ceilDiv (416 + 8 * n) 16 * 16 then some (0x0C, 0x20)
  else if n = 0 ∨ 4096 < c.sealFirst + n then some (0x0C, 0x23)
  else none

/-- SEALED after its acceptance: unwrapping, tag, entries, R94; a failure leaves the contents but fences the engine. -/
def sealEff (unwrapOk tagOk report : Bool) (plain : List Word) (c : Container) (s : State) : Option (Nat × Nat) × State :=
  match s.sealRefused c with
  | some r => (some r, s)
  | none =>
    if ! report then (none, acceptLoad c s) else
    let n := c.target
    let bad := fun check => (some (0x0C, check), engLoad n none [] s)
    if ! unwrapOk then bad 0x24
    else if ! tagOk then bad 0x25
    else match coefEntries c.sealCount c.sealFirst (padTo (2 * c.sealCount) (plain.map BitVec.toNat)) with
      | none => bad 0x23
      | some es =>
        let es := es.map sealWord
        let (e, pages, loaded) := s.future n
        let e := { e with coef := es.foldl (fun m x => SMap.set 0 m x.1 x.2) e.coef }
        let prog := SMap.getMany 0 e.prog 0 2048
        let check := if loaded then loadCheck e prog pages (SMap.getMany 0 e.nodes 0 64) else 0
        if check ≠ 0 then bad check
        else
          let s := engLoad n none es s
          (some (0, 0), setSec { s.sec with seaD := SMap.set [] s.sec.seaD n c.digest } s)

/-- SEALED_LOAD (R479): `report` as for ENGINE_LOAD; `unwrapOk`, `tagOk` and `plain` are what steps 3 to 5 give. -/
def execSealedLoad (c : Container) (unwrapOk tagOk report : Bool) (plain : List Word) (s : State) : Out :=
  if ! s.crucUp then .next s else
  crucible ctSEALED c (sealEff unwrapOk tagOk report plain) s

/-! ### Schedules (R51, R52, R318, R325, R450) -/

/-- A mode is active or armed (R51). -/
def State.modeBusy (s : State) (m : Nat) : Bool :=
  (s.on Reg.ANV_STAT_RUNNING && s.rd Reg.ANV_STAT_MODE = m) ||
    (s.on Reg.ANV_STAT_ARMED && s.rd Reg.ANV_STAT_ARMED_MODE = m)

/-- A SCHEDULE payload keeps the layout of R450. -/
def scheduleOk (ws : List Nat) : Bool :=
  let w := fun i => ws.getD i 0
  let n := w 3 + 1
  decide (w 0 < 2 ^ 20) && decide (w 1 < 2 ^ 9) && decide (w 2 < 2 ^ 13) && decide (w 3 < 2048) &&
    ((ws.drop 4).take 12).all (fun x => decide (x = 0)) && decide (ws.length = 16 + 4 * n + 1024) && decide (w 2 + n ≤ 8192)

/-- Table entries out of words, bits 31:0 first (R55). -/
def entriesOf : Nat → List Nat → List Nat
  | 0, _ => []
  | n + 1, ws => (ws.getD 0 0 + ws.getD 1 0 * 2 ^ 32 + ws.getD 2 0 * 2 ^ 64 + ws.getD 3 0 * 2 ^ 96) :: entriesOf n (ws.drop 4)

/-- The modes written since reset whose entries a span overlaps, each with its first overwritten entry (R51). -/
def State.overlapped (s : State) (m : Nat) (span : Nat × Nat) : List (Nat × Nat) :=
  (s.anv.written.filter (· ≠ m)).filterMap fun j => (overlapAt (s.modeSpan j) span).map fun i => (j, i)

/-- An overlapped mode is taken out of service (R51). -/
def outOfService (p : Nat × Nat) (s : State) : State :=
  let s := ((modeInvalid p.1 s).wr (Reg.ANV_VALn_CODE p.1) 0xA).wr (Reg.ANV_VALn_ENTRY p.1) p.2
  setAnv { s.anv with validating := s.anv.validating.filter (· ≠ p.1) } s

/-- SCHEDULE: layout, R51, then the mode is written and its validation begins. -/
def scheduleEff (c : Container) (s : State) : Option (Nat × Nat) × State :=
  let m := c.target
  let ws := c.body
  let w := fun i => ws.getD i 0
  if ! scheduleOk ws then (some (0x0C, 0x31), s)
  else
    let base := w 2
    let n := w 3 + 1
    let hit := s.overlapped m (base, n)
    if s.modeBusy m || hit.any (fun p => s.modeBusy p.1) then
      (some (0x0D, 0), irq 22 (s.put Reg.ANV_STAT_EDIT_DENIED true))
    else
      let region := ws.drop (16 + 4 * n)
      let s := hit.foldl (fun s p => outOfService p s) (modeInvalid m s)
      let s := (s.wr (Reg.ANV_MODEn_BASE m) base).wr (Reg.ANV_MODEn_LENM1 m) (n - 1)
      let d := sha384 region
      let s := (s.wr (Reg.FDL_Mm_IDL m) (d.getD 0 0)).wr (Reg.FDL_Mm_IDH m) (d.getD 1 0)
      let s := setFdl { s.fdl with region := SMap.setMany 0 s.fdl.region (1024 * m) region
                                   signed := SMap.set (0, 0) s.fdl.signed m (w 0, w 1) } s
      let s := setAnv { s.anv with table := SMap.setMany 0 s.anv.table base (entriesOf n (ws.drop 16))
                                   written := m :: s.anv.written.filter (· ≠ m)
                                   validating := m :: s.anv.validating.filter (· ≠ m) } s
      (none, setSec { s.sec with sched := some m } (fdlRefresh s))

/-- SCHEDULE_LOAD: the container stays in process until its mode is validated. -/
def execScheduleLoad (c : Container) (s : State) : Out :=
  if ! s.crucUp then .next s else
  crucible ctSCHEDULE c scheduleEff s

/-- VALIDATION_DONE (R52, R325): the mode in process is validated, and Crucible gives its verdict. `ecc` is the entry with
the first uncorrectable error the Anvil met. -/
def execValidationDone (ecc : Option (Fin 2048)) (s : State) : Out :=
  if ! s.live pdCRUC then .next s else
  match s.sec.sched, s.sec.queue with
  | some m, src :: _ =>
    let s := fdlRefresh (validate m (ecc.map Fin.val) s)
    let code := s.rd (Reg.ANV_VALn_CODE m)
    let rcode := s.rd (Reg.FDL_Mm_VAL_CODE m)
    let check := if code ≠ 0 ∧ code ≠ 0xF then 0x10 + code else 0x40 + rcode
    let c : Container := { hdr := [0x4C554C42, BitVec.ofNat 32 (1 + ctSCHEDULE * 2 ^ 16), 16, 0, 0, BitVec.ofNat 32 (m * 2 ^ 16)],
                           payload := [], sig := [], rsaOk := true, slhOk := true }
    done (if code = 0 then verdict src c 0 0 s else verdict src c 0x0C check s)
  | _, _ => .next s

/-! ### Images (R451 to R455) -/

/-- IMAGE (R454): refused while the booted slot is TRIAL; else written into the slot not booted, TRIAL and preferred. -/
def imageEff (flashOk : Bool) (c : Container) (s : State) : Option (Nat × Nat) × State :=
  let booted := s.sec.booted.getD 0
  let slot := 1 - booted
  if s.bcbNow.st booted = bsTRIAL then (some (0x0D, 0), s)
  else if ! c.imageOk then (some (0x0C, 0), s)
  else
    let s := newBcb (·.setSt slot bsEMPTY) s
    if ! flashOk then (some (0x10, 0), s)
    else
      let s := setSec (if slot = 0 then { s.sec with slotA := some c } else { s.sec with slotB := some c }) s
      (some (0, 0), newBcb (fun b => { (b.setSt slot bsTRIAL).setAtt slot 255 with prefer := slot }) s)

/-- IMAGE_LOAD. -/
def execImageLoad (c : Container) (flashOk : Bool) (s : State) : Out :=
  if ! s.crucUp then .next s else
  crucible ctIMAGE c (imageEff flashOk) s

/-- Bytes go to the destination of a segment (R452). -/
def fillSegment (bs : List Nat) (g : Nat × Nat × Nat × Nat) (s : State) : State :=
  let put := fun (m : List Host.Cell) => putBytes m (g.2.2.1 - 0x08000000) bs
  let pair := fun p (s : State) =>
    let x := s.pr p
    s.setPr p { x with main := { x.main with mem := put x.main.mem }, chk := { x.chk with mem := put x.chk.mem } }
  if g.2.2.2 = 0 then { s with mem := putBytes s.mem g.2.2.1 bs }
  else (s.when (g.2.2.2 ≠ 2) (pair 0)).when (g.2.2.2 ≠ 1) (pair 1)

/-- Copy a segment to its destination (R452). -/
def copySegment (ws : List Nat) (g : Nat × Nat × Nat × Nat) (s : State) : State :=
  fillSegment (((wordsBytes (ws.drop (g.1 / 4))).drop (g.1 % 4)).take g.2.1) g s

/-- The ranges a refused slot wrote are zeroed (R453): its segments are copied while the payload is hashed, which the checks on the
header and the key come before (R444, R456). -/
def zeroSlot (code : Nat) (c : Container) (s : State) : State :=
  if code = 0 ∨ code = 5 ∨ code = 6 ∨ code = 7 then
    let segs := (List.range (min (c.body.getD 0 0) 16)).map (imageSegment c.body)
    (segs.filter (segmentFits c.len)).foldl (fun s g => fillSegment (zeros g.2.1) g s) s
  else s

/-- What the boot ROM finds beside the flash (R434, R437, R438): `cut` copies of the bit whose write the reset cut off, fuse fields with
an uncorrectable error. Bits with two copies are completed. With an unreadable lifecycle field no debug opens. -/
def fuseRead (lcBad : Bool) (slots : Nat) (drs : Bool) (ctr cut : Nat) (s : State) : State :=
  let x := s.sec
  let found := match x.torn with
    | some k => SMap.set 0 x.fuses k cut
    | none => x.fuses
  let s := setSec { x with badSlots := slots, drsBad := drs, badCtr := ctr, torn := none, fuses := complete3 found } s
  let lc := s.lcFuses
  let down := lcBad || s.lcBroken || lc = lcDEAD
  let s := setSec { s.sec with lcDown := down } s
  let openRole := if down then none
    else if lc = lcMAKER then some roleMAKER else if lc = lcBLANK ∨ lc = lcRETURN then some roleVENDOR else none
  let dbg := if openRole.isSome then 2 else 0
  let s := ((s.wr Reg.SEC_STAT_LC lc).wr Reg.SEC_STAT_DBG dbg).wr Reg.DBG_STAT_LEVEL dbg
  let s := (setSec { s.sec with dbgRole := openRole } s).put Reg.SEC_STAT_TRNG_OK (! s.sec.trngFail)
  s.when (lcBad || s.lcBroken || decide (slots ≠ 0) || drs || decide (ctr ≠ 0)) (raiseDev Fc.FUSE_ERROR)

/-- One slot is tried (R453): whether it boots, and the state. -/
def trySlot (slot : Nat) (counted : Bool) (s : State) : Bool × State :=
  let b := s.bcbNow
  let st := b.st slot
  let att := b.att slot
  if st = bsEMPTY ∨ st = bsFAILED then (false, s)
  else if counted && st = bsTRIAL && att % 8 = 0 then (false, newBcb (·.setSt slot bsFAILED) s)
  else
    let s := s.when (counted && st = bsTRIAL) (sameBcb (·.setAtt slot (putBit att (lowBit 3 att) false)))
    match if slot = 0 then s.sec.slotA else s.sec.slotB with
    | none => (false, s)
    | some c =>
      let code := s.verify (decide (c.type = ctIMAGE)) c
      if code = 0 && c.imageOk then (true, s) else (false, zeroSlot code c s)

/-- The device starts the verified image of a slot: its segments stand in memory, its nested containers wait. BOOT becomes ASSAY;
a device that FUSE_ERROR has already taken to SAFE stays there (R29, R438). A split device runs no Assay, and its cores are
released at once (R277, R536). -/
def bootSlot (slot : Nat) (c : Container) (s : State) : State :=
  let ws := c.body
  let s := (List.range (ws.getD 0 0)).foldl (fun s i => copySegment ws (imageSegment ws i) s) s
  let nest := (List.range (ws.getD 1 0)).map CrucSrc.nested
  let s := s.when (s.lc = lcMAKER && tb c.flags 1) fun s =>
    setSec { s.sec with dbgRole := none } ((s.wr Reg.SEC_STAT_DBG 0).wr Reg.DBG_STAT_LEVEL 0)
  let s := (s.wr Reg.SEC_STAT_BOOT_SLOT slot).put Reg.SEC_STAT_BUSY (! nest.isEmpty)
  let s := setSec { s.sec with booted := some slot, image := some c, queue := nest } s
  let s := s.when s.split fun s => releaseCores 1 (releaseCores 0 s)
  s.when (s.dev.state = .boot) (setDevRole .assay roleOFFLINE)

/-- BOOT_SELECT (R453): fuses, boot control block, then the slots in order. An operand that is present is what the flash
holds at that place; `lcBad` and the rest are what ECC finds in the fuses. -/
def execBootSelect (bcb0 bcb1 : Option Bcb) (slotA slotB : Option Container) (lcBad : Bool) (slots : BitVec 4) (drs : Bool)
    (ctr : BitVec 5) (cut : Fin 4) (s : State) : Out :=
  if ! s.live pdCRUC then .next s else
  if s.dev.state ≠ .boot then .next s
  else
    let x := s.sec
    let s := setSec { x with bcb0 := bcb0.getD x.bcb0, bcb1 := bcb1.getD x.bcb1,
                             slotA := if slotA.isSome then slotA else x.slotA,
                             slotB := if slotB.isSome then slotB else x.slotB } s
    let s := fuseRead lcBad slots.toNat drs ctr.toNat cut s
    if s.sec.lcDown then done (enterSafe s)
    else
      let counted := s.bcb.isSome
      let s := s.when (! counted) (raiseDev Fc.BCB_ERROR)
      let first := s.bcbNow.prefer % 2
      let image := fun slot (s : State) => if slot = 0 then s.sec.slotA else s.sec.slotB
      let (ok, s) := trySlot first counted s
      match ok, image first s with
      | true, some c => done (bootSlot first c s)
      | _, _ =>
        let (ok, s) := trySlot (1 - first) counted s
        match ok, image (1 - first) s with
        | true, some c =>
          done (bootSlot (1 - first) c (raiseDev Fc.BOOT_FALLBACK (s.put Reg.SEC_STAT_FALLBACK true)))
        | _, _ => done (enterSafe s)

/-! ### Tokens (R473 to R477) -/

/-- The class ceiling of a role (R474): 0 public, 1 protected, 2 secret. -/
def roleCeiling (r : Nat) : Nat := if r = roleOPERATOR then 0 else if r = roleSERVICE then 1 else 2

/-- LENGTH of a token of its kind (R473). -/
def State.tokenLen (s : State) (c : Container) : Nat :=
  if c.kind = tkLIFECYCLE then (if s.lc = lcBLANK ∧ c.to = lcMAKER then 112 else 16)
  else if c.kind = tkKEYS then (if bits (c.pw 1) 8 2 = 0 then 112 else 16)
  else if c.kind = tkREPLAY ∨ c.kind = tkRECKEY then 400
  else 16

/-- ROLE goes with the kind and the signer (R435, R474). -/
def State.roleOk (s : State) (c : Container) : Bool :=
  let r := c.role
  let maker := ! c.vendor
  if c.kind = tkLIFECYCLE then
    (r = (if maker then roleMAKER else roleVENDOR)) && (c.to = lcDEAD || (if s.lc = lcBLANK then c.vendor else maker))
  else if c.kind = tkKEYS ∨ c.kind = tkRECKEY then maker && r = roleMAKER
  else if c.kind = tkDEBUG then r = roleSERVICE || r = roleTUNER || r = roleMAKER || (r = roleVENDOR && c.vendor)
  else if c.kind = tkGRANT then maker && (r = roleOPERATOR || r = roleSERVICE || r = roleTUNER || r = roleMAKER)
  else maker && (r = roleSERVICE || r = roleTUNER || r = roleMAKER)

/-- The lifecycle state of R474 for the kind. -/
def State.tokenLc (s : State) (kind : Nat) : Bool :=
  if kind = tkGRANT ∨ kind = tkRECKEY then s.lc = lcMAKER || s.lc = lcFIELD
  else if kind = tkREPLAY then s.lc = lcMAKER || s.lc = lcFIELD || s.lc = lcRETURN
  else true

/-- A field is out of range, or a reserved bit or an unused word is set (R440, R473, R476). -/
def State.fieldBad (s : State) (c : Container) : Bool :=
  let w := fun i => c.pw i
  decide (2 ^ 16 ≤ w 0) ||
    (if c.kind = tkLIFECYCLE then
      decide (8 ≤ w 1) || decide (w 2 ≠ 0) || decide (w 3 ≠ 0) || ! (c.to = lcDEAD || c.to = s.lc + 1) || decide (c.to > 4)
    else if c.kind = tkKEYS then
      let act := bits (w 1) 8 2
      let slot := bits (w 1) 0 2
      decide (bits (w 1) 2 6 ≠ 0) || decide (bits (w 1) 10 22 ≠ 0) || decide (w 2 ≠ 0) || decide (w 3 ≠ 0) ||
        (act = 0 && (s.lc ≠ lcMAKER || slot = 0 || s.slotProg slot)) || (act ≥ 2 && s.lc ≠ lcMAKER)
    else if c.kind = tkDEBUG then
      decide (4 ≤ w 1) || decide (w 1 = 0) || decide (w 1 = 3) || decide (w 2 ≠ 0) || decide (w 3 ≠ 0)
    else if c.kind = tkRECKEY then decide (w 1 ≠ 0)
    else
      let cls := bits (w 1) 0 2
      decide (bits (w 1) 2 6 ≠ 0) || decide (bits (w 1) 16 16 ≠ 0) ||
        (c.kind = tkGRANT && decide (w 3 ≠ 0)) ||
        (if cls = 3 then c.kind = tkREPLAY else decide (roleCeiling c.role < cls)))

/-- A secret class on a split device (R472, R476). -/
def State.secretSplit (s : State) (c : Container) : Bool :=
  s.split && (((c.kind = tkGRANT || c.kind = tkREPLAY) && bits (c.pw 1) 0 2 = 2) ||
    (c.kind = tkDEBUG && roleCeiling c.role = 2))

/-- The first failing content check of a token: CODE and CHECK (R476). -/
def State.tokenCheck (s : State) (c : Container) : Option (Nat × Nat) :=
  if c.kind = 0 ∨ 6 < c.kind ∨ c.len ≠ s.tokenLen c then some (0x0C, 0x20)
  else if ! s.roleOk c then some (0x0C, 0x21)
  else if c.sermask ≠ 2 ^ 64 - 1 ∨ c.lcmask ≠ 2 ^ s.lc ∨ s.tokenLc c.kind = false then some (0x0C, 0x22)
  else if s.fieldBad c then some (0x0C, 0x23)
  else if s.secretSplit c then some (0x0C, 0x26)
  else none

/-- A verified token with TKC_ADVANCE moves the device TKC to its own (R446). -/
def advanceTkc (c : Container) (s : State) : State :=
  s.when (tb c.flags 0) (advanceTkcTo c.tkc)

/-- One token: its content checks, then what the kind adds, which answers a refusal or the new state. -/
def tokenEff (f : Container → State → Sum (Nat × Nat) State) (c : Container) (s : State) : Option (Nat × Nat) × State :=
  match s.tokenCheck c with
  | some r => (some r, s)
  | none => match f c s with
    | .inl r => (some r, s)
    | .inr s => (some (0, 0), advanceTkc c s)

/-- The conditions of R436: STANDBY or SAFE, every axis DISABLED or SAFE. -/
def State.quiet (s : State) : Bool :=
  (s.dev.state = .standby || s.dev.state = .safe) && s.allAxes [axDISABLED, axSAFE]

/-- The scrub of R457 on every engine. -/
def scrubEngine (n : Nat) (s : State) : State :=
  let e := s.e n
  let pages := (List.range 4).map fun m => s.rd (Reg.CEC_En_PAGEm n m)
  let data := e.data.filter fun p => pageClass pages (p.1 / 256) = 0
  let load := e.load.map fun l => { l with program := none, coefs := [] }
  ((s.setE n { e with coef := [], data := data, load := load }).wrBit Reg.CEC_STAT_LOADED n false).wr (Reg.CEC_En_COEF n) 0
def scrub (s : State) : State := s.each (List.range 8) scrubEngine

/-- The DRS and DTK are generated, DTK held under the WRAP key of epoch 0, and slot 0 is programmed from the token (R435, R439). -/
def makeKeys (c : Container) (s : State) : State :=
  let (drs, s) := s.draw 8
  let (iv, s) := s.draw 3
  let (dtk, s) := s.draw 96
  setSec { s.sec with drs := drs, dtk := iv ++ gcmText (wrapKey drs 0) iv [] dtk ++ gcmTag (wrapKey drs 0) iv [] dtk
                      keys := SMap.set [] s.sec.keys 0 (c.body.drop 4) } s

/-- LIFECYCLE (R435, R436): the effect, the three copies of the new bit, and the reset 10 µs after the last of them. -/
def lifecycle (c : Container) (s : State) : Sum (Nat × Nat) State :=
  if ! s.quiet then .inl (0x0D, 0)
  else if s.lc = lcBLANK ∧ c.to = lcMAKER ∧ s.sec.serialFused = false then .inl (0x0D, 0)
  else if s.lc = lcBLANK ∧ c.to = lcMAKER ∧ s.sec.trngFail = true then .inl (0x0F, 0)
  else if s.lc = lcMAKER ∧ c.to = lcFIELD ∧
      (s.slotProg 0 = false ∨ s.slotRevoked 0 = true ∨ s.rd Reg.SEC_STAT_DBG ≠ 0) then .inl (0x0D, 0)
  else
    let s := s.when (s.lc = lcBLANK && c.to = lcMAKER) (makeKeys c)
    let s := s.when (c.to = lcRETURN || c.to = lcDEAD) scrub
    let s := blow (fzLC (c.to - 1)) s
    .inr (irq 226 { s with dev := { s.dev with resetDue :=
      if s.dev.resetDue.isSome then s.dev.resetDue else some (s.ctTicks + blowClks + 4000, 9) } })

/-- LIFECYCLE token. -/
def execLifecycle (c : Container) (s : State) : Out :=
  if ! s.crucUp then .next s else
  crucible 17 c (tokenEff lifecycle) s

/-- KEYS (R440). -/
def keys (c : Container) (s : State) : Sum (Nat × Nat) State :=
  let slot := bits (c.pw 1) 0 2
  let act := bits (c.pw 1) 8 2
  let x := s.sec
  if act = 0 then .inr (setSec { x with keys := SMap.set [] x.keys slot (c.body.drop 4) } s)
  else if act = 1 then
    if c.keyslot = slot ∨ ((List.range 4).all fun k => k = slot || ! s.slotProg k || s.slotRevoked k) then .inl (0x03, 0)
    else .inr (blow (fzREV slot) s)
  else .inr (blow (if act = 2 then fzSPLIT else fzSPLIT_LOCK) s)

/-- KEYS token. -/
def execKeys (c : Container) (s : State) : Out :=
  if ! s.crucUp then .next s else
  crucible 18 c (tokenEff keys) s

/-- DEBUG (R457, R458): OBSERVE on verification, FULL under R436 and after the scrub. -/
def debug (c : Container) (s : State) : Sum (Nat × Nat) State :=
  let level := c.pw 1
  if level = 2 ∧ s.quiet = false then .inl (0x0D, 0)
  else
    let now := max (s.rd Reg.SEC_STAT_DBG) level
    let s := s.when (level = 2) scrub
    let s := setSec { s.sec with dbgRole := some c.role } ((s.wr Reg.SEC_STAT_DBG now).wr Reg.DBG_STAT_LEVEL now)
    let s := irq 227 s
    if level = 2 ∧ s.lc = lcFIELD then .inr (raiseDev Fc.DEBUG_OPEN (setRole roleOFFLINE s)) else .inr s

/-- DEBUG token. -/
def execDebug (c : Container) (s : State) : Out :=
  if ! s.crucUp then .next s else
  crucible 19 c (tokenEff debug) s

/-- GRANT (R474, R477): in force from the next frame tick, for DURATION frames. -/
def grant (c : Container) (s : State) : Sum (Nat × Nat) State :=
  let g : Grant := { role := c.role, cls := bits (c.pw 1) 0 2, mask := bits (c.pw 1) 8 8, tkc := c.tkc,
                     ends := if c.pw 2 = 0 then none else some (c.pw 2) }
  .inr (setSec { s.sec with grantNext := some g } s)

/-- GRANT token. -/
def execGrantToken (c : Container) (s : State) : Out :=
  if ! s.crucUp then .next s else
  crucible 20 c (tokenEff grant) s

/-- DTK can be unwrapped: the DRS is readable and the epoch is that of MAKER and FIELD (R438, R439). -/
def State.dtkOk (s : State) : Bool := ! s.sec.drsBad && decide (s.lc ≠ lcRETURN)

/-- REPLAY (R474, R487, R507): STANDBY, every axis DISABLED, the Anvil stopped; Almanac SRAM is discarded. -/
def replayToken (unwrapOk : Bool) (c : Container) (s : State) : Sum (Nat × Nat) State :=
  if s.dev.state ≠ .standby ∨ s.allAxes [axDISABLED] = false ∨ s.on Reg.ANV_STAT_RUNNING = true then .inl (0x0D, 0)
  else if ! unwrapOk ∨ s.dtkOk = false then .inl (0x0C, 0x24)
  else
    let g : Grant := { role := c.role, cls := bits (c.pw 1) 0 2, mask := bits (c.pw 1) 8 8, ends := none, tkc := c.tkc }
    let s := setSec { s.sec with replay := some g } s
    let s := setDevRole .replay roleOFFLINE s
    .inr (setAlm { s.alm with ring := [], keys := [], sessions := [], trigger := none, rpKeyId := c.pw 2 + c.pw 3 * 2 ^ 32 }
      (s.wr Reg.ALM_STAT_STATE almREPLAY))

/-- REPLAY token. -/
def execReplayToken (c : Container) (unwrapOk : Bool) (s : State) : Out :=
  if ! s.crucUp then .next s else
  crucible 21 c (tokenEff (replayToken unwrapOk)) s

/-- RECKEY (R484): KR from the frame after verification. Its session key needs the TRNG (R441). -/
def reckey (unwrapOk : Bool) (c : Container) (s : State) : Sum (Nat × Nat) State :=
  if ! unwrapOk ∨ s.dtkOk = false then .inl (0x0C, 0x24)
  else if s.sec.trngFail then .inl (0x0F, 0)
  else
    let key := oaepKey s.sec.dtk ((c.body.drop 4).take 96)
    .inr (setAlm { s.alm with krNext := some (c.pw 2 + c.pw 3 * 2 ^ 32), krKeyNext := key } s)

/-- RECKEY token. -/
def execReckey (c : Container) (unwrapOk : Bool) (s : State) : Out :=
  if ! s.crucUp then .next s else
  crucible 22 c (tokenEff (reckey unwrapOk)) s

/-! ### Trace coverage (R477, R481 to R483) -/

/-- The trace stream ring lies in shared SRAM (R482). -/
def State.traceInternal (s : State) : Bool :=
  match s.ringOfKind rkTRACE with
  | some r => s.loc r = 1
  | none => false

/-- The coverage the tokens give (R481, R482). -/
def State.coverDue (s : State) : Option (Nat × Nat) :=
  let g := if s.dev.state = .replay then s.sec.replay else s.sec.grant
  g.map fun g => (if s.traceInternal then 0 else g.cls, g.mask)

/-- One coverage is not within another. -/
def narrows (old new : Option (Nat × Nat)) : Bool :=
  match old, new with
  | none, _ => false
  | some _, none => true
  | some (c, m), some (c', m') => decide (c' < c) || decide (andNotW m m' ≠ 0)

/-- The coverage follows the tokens; where it narrows, what was captured under the old one and is unread is discarded
(R483). -/
def setCover (s : State) : State :=
  let new := s.coverDue
  if s.cec.cover = new then s
  else
    let s := s.when (narrows s.cec.cover new) fun s => s.wr Reg.CEC_TR_RP (s.rd Reg.CEC_TR_WP)
    { s with cec := { s.cec with cover := new }, alm := { s.alm with grantNow := true } }

/-- A grant after one more frame. -/
def Grant.spent (g : Grant) : Grant := { g with ends := g.ends.map (· - 1) }

/-- Grants at a frame tick: one whose TKC the device TKC has passed ends, or does not begin (R475); a verified one takes effect or,
with class 0b11, ends the grant in force; a frame of the grant in force has elapsed (R477). -/
def grantTick (s : State) : State :=
  let x := s.sec
  let live := fun (g : Grant) => decide (s.tkcNow ≤ g.tkc)
  let old := (x.grant.filter live).map Grant.spent
  let g := match x.grantNext.filter live with
    | none => old
    | some g => if g.cls = 3 then none else some g
  setCover (setSec { x with grant := g, grantNext := none, replay := x.replay.filter live } s)

/-- GRANT_EXPIRY (R477): DURATION frames have elapsed since the grant took effect. -/
def execGrantExpiry (s : State) : Out :=
  if ! s.live pdCRUC then .next s else
  match s.sec.grant with
  | some g => if g.ends = some 0 then done (setCover (setSec { s.sec with grant := none } s)) else .next s
  | none => .next s

/-! ### Mailbox, TRNG, window (R441, R455, R459, R462) -/

/-- A write of SEC_MBOX_CMD (R462): the command is taken with its arguments, BUSY until it ends; one written while BUSY is not
performed. A number that R462 does not list does nothing. -/
def mboxWrite (cmd : Nat) (s : State) : State :=
  if ! s.crucUp || cmd = 0 || decide (4 < cmd) then s
  else if s.sec.mbox.isSome then s.wr Reg.SEC_MBOX_STAT_RESULT 0x0F
  else
    let args := (List.range 3).map fun j => s.rd (Reg.SEC_MBOX_ARGj j)
    setSec { s.sec with mbox := some { cmd := cmd, args := args, clk := s.time.clk } } (s.put Reg.SEC_MBOX_STAT_BUSY true)

/-- Argument j of a mailbox command. -/
def MboxCmd.arg (m : MboxCmd) (j : Nat) : Nat := m.args.getD j 0

/-- The mailbox command of a number ends, if it is the one in progress. -/
def mboxRun (cmd : Nat) (f : MboxCmd → State → Out) (s : State) : Out :=
  match s.sec.mbox with
  | some m =>
    if s.crucUp && decide (m.cmd = cmd) then f m (setSec { s.sec with mbox := none } (s.put Reg.SEC_MBOX_STAT_BUSY false))
    else .next s
  | none => .next s

/-- A mailbox command ends with its RESULT (R462, R464). -/
def mboxDone (r : Nat) (s : State) : Out := done (irq 224 (s.wr Reg.SEC_MBOX_STAT_RESULT r))

/-- A RESULT the specification does not state. -/
def mboxOpen (s : State) : Out := let (v, s) := s.free; mboxDone (v % 256) s

/-- The ARB values of the booted image and of its nested containers, for one index (R455). -/
def State.arbCarried (s : State) (k : Nat) : Nat :=
  match s.sec.image with
  | none => 0
  | some c =>
    let nest := (List.range (c.body.getD 1 0)).map fun i =>
      c.cut (imageWords c.body (nestEntry c.body i).1 16)
    ((c :: nest).filter fun x => x.arbEn && x.arbIdx = k && decide (x.arbVal ≤ 64)).foldl (fun v x => max v x.arbVal) 0

/-- Counter k advances to what the running image carries; one that reaches 64 raises ARB_FULL (R455). -/
def arbAdvance (k : Nat) (s : State) : State :=
  let old := s.arbCtr k
  let new := max old (s.arbCarried k)
  if new = old then s else (advanceArb k new s).when (new = 64) (raiseDev Fc.ARB_FULL)

/-- CONFIRM (R455). -/
def execConfirm (flashOk : Bool) (s : State) : Out := mboxRun 1 (fun _ s =>
  match s.sec.booted, s.sec.image with
  | some slot, some c =>
    if ! c.vendor && s.slotRevoked c.keyslot then mboxOpen s
    else if ! flashOk then mboxDone 0x10 s
    else
      let s := newBcb (fun b => (b.setSt slot bsGOOD).setAtt slot 255) s
      mboxDone 0 (s.each (List.range 4) arbAdvance)
  | _, _ => mboxOpen s) s

/-- Bytes of the user area, which runs to the end of the flash (R451). -/
def State.userSize (s : State) : Nat := s.sec.flash - 0x1100000

/-- A transfer of ARG2 bytes at ARG0 lies in the user area (R462). -/
def State.nvOk (s : State) (m : MboxCmd) : Bool :=
  decide (1 ≤ m.arg 2) && decide (m.arg 2 ≤ 65536) && decide (m.arg 0 + m.arg 2 ≤ s.userSize)

/-- Byte i of the user area; an erased byte reads 0xFF. -/
def State.nvByte (s : State) (i : Nat) : Nat := SMap.get 0xFF s.sec.user i

/-- NV_READ (R462). -/
def execNvRead (flashOk : Bool) (s : State) : Out := mboxRun 2 (fun m s =>
  let n := m.arg 2
  if ! s.nvOk m then mboxDone 0x01 s
  else if ! inSram (m.arg 1) n then mboxOpen s
  else if ! flashOk then mboxDone 0x10 s
  else mboxDone 0 { s with mem := putBytes s.mem (m.arg 1) ((List.range n).map fun i => s.nvByte (m.arg 0 + i)) }) s

/-- NV_WRITE (R462): the target bytes must be erased. -/
def execNvWrite (flashOk : Bool) (s : State) : Out := mboxRun 3 (fun m s =>
  let n := m.arg 2
  let at' := m.arg 0
  if ! s.nvOk m then mboxDone 0x01 s
  else if ! inSram (m.arg 1) n then mboxOpen s
  else if ! flashOk || (List.range n).any (fun i => decide (s.nvByte (at' + i) ≠ 0xFF)) then mboxDone 0x10 s
  else
    let user := (List.range n).foldl (fun u i => SMap.set 0xFF u (at' + i) (getByte s.mem (m.arg 1 + i))) s.sec.user
    mboxDone 0 (setSec { s.sec with user := user } s)) s

/-- NV_ERASE (R462). -/
def execNvErase (flashOk : Bool) (s : State) : Out := mboxRun 4 (fun m s =>
  let n := 4096 * m.arg 2
  if m.arg 0 + n > s.userSize then mboxDone 0x01 s
  else if m.arg 0 % 4096 ≠ 0 then mboxOpen s
  else if ! flashOk then mboxDone 0x10 s
  else mboxDone 0 (setSec { s.sec with user := SMap.clearRange s.sec.user (m.arg 0) (m.arg 0 + n) } s)) s

/-- TRNG_FAIL (R441). -/
def execTrngFail (s : State) : Out :=
  if ! s.live pdCRUC then .next s else
  if s.sec.trngFail then .next s
  else done (irq 228 (raiseDev Fc.TRNG_FAIL (setSec { s.sec with trngFail := true } (s.put Reg.SEC_STAT_TRNG_OK false))))

/-- The window is submitted (R459): the container leaves it and waits for Crucible, which refuses a ninth (R448). -/
def submit (s : State) : State :=
  let n := s.rd Reg.DBG_TOKLEN
  let win := s.sec.tokwin
  if ! s.crucUp || s.lc = lcDEAD || s.on Reg.DBG_STAT_BUSY then s
  else if n < 17120 ∨ 32768 < n ∨ s.crucibleFull = true then
    let code := if n < 17120 ∨ 32768 < n then 0x01 else 0x0F
    let fault := if isToken (SMap.get 0 win 1) then Fc.TOKEN_REFUSED else Fc.LOAD_REFUSED
    irq 225 (raiseDev fault (setSec { s.sec with tokwin := [] } ((s.wr Reg.DBG_STAT_CODE code).wr Reg.SEC_LAST code)))
  else
    let s := (s.put Reg.DBG_STAT_BUSY true).put Reg.SEC_STAT_BUSY true
    setSec { s.sec with tokwin := [], winClk := s.time.clk, queue := s.sec.queue ++ [.window (SMap.getMany 0 win 0 (n / 4))] } s

/-- SUBMIT. -/
def execSubmit (s : State) : Out :=
  done (submit s)

/-! ### Hallmark (R488, R489) -/

/-- Engine n in a Hallmark record; a load reported complete shows, taken up or not (R491). -/
def State.hallmarkEngine (now : State) (n : Nat) : List Nat :=
  let s := if (now.e n).load.isSome then engTakeUp n now else now
  [s.rd (Reg.CEC_En_ID n), s.rd (Reg.CEC_En_COEF n) + b2n (s.bit Reg.CEC_STAT_LOADED n) * 2 ^ 16 +
    b2n (s.bit Reg.CEC_STAT_FENCED n) * 2 ^ 17] ++
    padTo 4 (SMap.get [] s.sec.engD n) ++ padTo 2 (SMap.get [] s.sec.seaD n)

/-- The 1,024 bytes a Hallmark record signs. -/
def State.hallmarkBody (s : State) (n0 n1 : Nat) : List Nat :=
  let f := b2n s.split + s.rd Reg.SEC_STAT_DBG * 2 + s.rd Reg.SEC_STAT_BOOT_SLOT * 8 + s.rd Reg.SEC_STAT_FALLBACK * 16 +
    s.rd Reg.SEC_STAT_TRNG_OK * 32 + s.epoch1 * 64
  let ct := s.time.fc.toNat * s.frameTicks
  let (cls, mask) := s.cec.cover.getD (0xFF, 0)
  let (slot, d) := match s.sec.image with
    | some c => (c.keyslot, c.digest)
    | none => (0, zeros 12)
  let host := match s.sec.grant with
    | some g => g.role
    | none => roleHOST
  let ends := ((s.sec.grant.bind fun g => g.ends).map fun d => (s.fn + d) % 2 ^ 32).getD 0
  let kr := s.alm.kr.getD 0
  [0x4B524D48, 1 + 0x400 * 2 ^ 16,
    s.rd Reg.SYS_ID_REV + s.rd Reg.SYS_ID_VARIANT * 2 ^ 8 + s.rd Reg.SYS_ID_DEVCLASS * 2 ^ 16,
    s.grade + s.lc * 2 ^ 8 + f * 2 ^ 16 + s.secFuse % 256 * 2 ^ 24,
    s.sec.serial % 2 ^ 32, s.sec.serial / 2 ^ 32, n0, n1, s.fn, 0, ct % 2 ^ 32, ct / 2 ^ 32 % 2 ^ 32,
    s.secArb, s.tkcNow + slot * 2 ^ 16 + (s.rd Reg.SEAM_CFG_CH + s.rd Reg.SEAM_CFG_SET * 4) * 2 ^ 24, s.rd Reg.SEAM_HEALTH, 0] ++
    padTo 12 d ++ dikPublic s.dik ++ s.modeIds ++
    [s.rd Reg.ANV_STAT_VALID + s.rd Reg.ANV_STAT_MODE * 2 ^ 8 + cls * 2 ^ 16 + mask * 2 ^ 24,
      host + (s.sec.dbgRole.getD 0xFF) * 2 ^ 8, ends, 0, kr % 2 ^ 32, kr / 2 ^ 32, 0, 0] ++
    (List.range 8).flatMap s.hallmarkEngine ++ zeros 128

/-- The record goes to the buffer; a short buffer and an unreadable DRS complete REFUSED, a TRNG that failed REFUSED with status 0x0F
(R441). -/
def hallmark (c : Cmd) (late : Bool) (s : State) : State :=
  if bits (c.w 3) 0 16 < 36688 then complete c stREFUSED late [0] s
  else if s.sec.trngFail then complete c stREFUSED late [0x0F] s
  else if s.sec.drsBad then complete c stREFUSED late [0] s
  else
    let body := s.hallmarkBody (c.w 6) (c.w 7)
    let s := s.dmaWrite (s.loc c.ring) c.addr (body ++ dikSign s.dik (sha384 body))
    complete c stOK late [36688] s

/-- HALLMARK: served where nothing waits for Crucible, else in its turn behind what does (R448, R491). -/
def execHallmark (s : State) : Out :=
  if ! s.crucUp then .next s else
  match s.sec.queue with
  | .hallmark c :: q => done (hallmark c c.late (setSec { s.sec with queue := q } s))
  | [] => applyDue ocHALLMARK s fun c s => hallmark c (s.late c) s
  | q => applyDue ocHALLMARK s fun c s =>
    setSec { s.sec with queue := q ++ [.hallmark { c with dueFn := s.fn, late := s.late c }] } s

end Sys2Proof.Machine
end

