-- ==== Sys2Proof/Machine/Replay.lean ====
section
/-! DEFINITION. Replay of a recording: the check of the input, the frames, the end (R507 to R511). -/
namespace Sys2Proof.Machine

/-- The records of a replay input, each as its words; none where a KIND or a LEN is malformed (R493, R508). -/
def cutRecords : Nat → List Nat → Option (List (List Nat))
  | 0, ws => if ws.isEmpty then some [] else none
  | n + 1, ws =>
    match ws with
    | [] => some []
    | h :: _ =>
      let kind := bits h 0 8
      let len := bits h 16 16
      let least := if kind = 1 then 96 else if kind = 2 then 72 else if kind = 3 then 400 else if kind = 4 then 32 else 35744
      if kind = 0 ∨ 5 < kind ∨ bits h 8 8 ≠ 0 ∨ len % 4 ≠ 0 ∨ len < least ∨ ws.length < len / 4 then none
      else (cutRecords n (ws.drop (len / 4))).map (ws.take (len / 4) :: ·)

/-- KIND and FN of a record. -/
def recKind (r : List Nat) : Nat := bits (r.headD 0) 0 8
def recFn (r : List Nat) : Nat := r.getD 1 0

/-- The SESSION record of a frame: the one with the latest FN at or below its own (R508). -/
def sessionOf (sess : List (List Nat)) (fn : Nat) : Option (List Nat) :=
  (sess.filter fun r => decide (0 ≤ dist32 (recFn r) fn)).foldl (fun b r =>
    match b with
    | some x => if dist32 (recFn x) fn < dist32 (recFn r) fn then some x else some r
    | none => some r) none

/-- The largest replay input, in bytes (R507). -/
def replayMax : Nat := 12566528

/-- The words of the input as the ring unit's DMA reads them; none on an error. -/
def State.replayWords (s : State) (x : ReplayInput) : Option (List Nat) :=
  let len := s.rd Reg.ALM_RPLEN_LEN
  let a := s.rd Reg.ALM_RPSRC_L + s.rd Reg.ALM_RPSRC_H * 2 ^ 32
  if replayMax < len ∨ x.dmaOk = false then none
  else if s.on Reg.ALM_RPLEN_LOC then (if inSram a len then some (getWords s.mem a (len / 4)) else none)
  else some (padTo (len / 4) (x.raw.map BitVec.toNat))

/-- A keyframe's identity is this device's (CAUSE 0x5 of R508). -/
def State.sameIdentity (s : State) (k : List Nat) : Bool :=
  k.getD 4 0 = s.frameTicks && bits (k.getD 5 0) 0 16 = s.cycleFrames && k.getD 6 0 = s.almCfg &&
    (k.drop 8).take 16 = s.modeIds && (k.drop 24).take 56 = (List.range 8).flatMap s.engIdentity

/-- FN rise by one from `fn` (CAUSE 0x6). -/
def consecutive : Nat → List Nat → Bool
  | _, [] => true
  | fn, f :: fs => f = fn % 2 ^ 32 && consecutive (fn + 1) fs

/-- What a checked input gives: the keyframe's clear words and regions, the frames. -/
structure ReplayPlan where
  key : List Nat
  regions : List Nat
  frames : List AlmRec
deriving DecidableEq, Repr

/-- The checks of R508 in order: the first failing CAUSE, or the plan. -/
def State.replayPlan (s : State) (x : ReplayInput) : Sum Nat ReplayPlan :=
  match s.replayWords x with
  | none => .inl 1
  | some ws =>
    match cutRecords ws.length ws with
    | none => .inl 2
    | some recs =>
      let sess := recs.filter fun r => recKind r = 2
      match recs.find? fun r => recKind r = 3 with
      | none => .inl 2
      | some k =>
        let fn := recFn k
        let fs := recs.filter fun r => recKind r = 1 && decide (0 ≤ dist32 fn (recFn r))
        if sess.isEmpty then .inl 2
        else if x.unwrapOk = false ∨ sess.any (fun r => decide (r.getD 4 0 + r.getD 5 0 * 2 ^ 32 ≠ s.alm.rpKeyId)) then .inl 3
        else match x.key with
          | none => .inl 4
          | some reg =>
            let plain := (List.range fs.length).map fun i => (x.frames.getD i none)
            if plain.any Option.isNone ∨ (k :: fs).any (fun r => (sessionOf sess (recFn r)).isNone) then .inl 4
            else if ! s.sameIdentity k then .inl 5
            else if fs.isEmpty || ! consecutive fn (fs.map recFn) then .inl 6
            else
              let rec' := fun i : Nat =>
                let r := fs.getD i []
                let p := ((plain.getD i none).getD []).map BitVec.toNat
                ({ kind := 1, fn := recFn r, words := padTo (r.length - 6) p } : AlmRec)
              .inr { key := k, regions := padTo (k.length - 100) (reg.map BitVec.toNat),
                     frames := (List.range fs.length).map rec' }

/-- MODE, LOAD, CTLS and SPS of a decrypted frame record: FLAGS is its first word. -/
def AlmRec.mode (r : AlmRec) : Nat := bits (r.words.headD 0) 0 3
def AlmRec.load (r : AlmRec) : Bool := tb (r.words.headD 0) 6
def AlmRec.ctls (r : AlmRec) : Bool := tb (r.words.headD 0) 26
def AlmRec.sps (r : AlmRec) : Bool := tb (r.words.headD 0) 27

/-- The keyframe's regions into the data memories (R509): ALM_KEYn as recorded. -/
def writeRegions (k : List Nat) : List Nat → List Nat → State → State
  | [], _, s => s
  | n :: ns, ws, s =>
    let w := k.getD (88 + n) 0
    let len := bits w 16 10 + 1
    let put := fun (d : SMap Nat) => (List.range len).foldl (fun d i =>
      SMap.set 0 d ((bits w 0 14 + i) % 16384) (ws.getD i 0)) d
    writeRegions k ns (ws.drop len) (s.setE n { s.e n with data := put (s.e n).data })

/-- The start of replay (R509): CT 2,000 ticks before the keyframe's boundary, RUN with its mode, regions, LIM. -/
def startReplay (p : ReplayPlan) (s : State) : State :=
  let k := p.key
  let fc := k.getD 2 0 + k.getD 3 0 * 2 ^ 32
  let ct : Int := (fc * s.frameTicks : Nat) - 2000
  let s := loadCt (trunc 64 ct * 2 ^ 32) s
  let s := anvRun true (s.wr Reg.ANV_CTRL_START_MODE (bits (k.getD 5 0) 16 8))
  let s := writeRegions k (bitsOf 8 (bits (k.getD 5 0) 24 8)) p.regions s
  let usable := p.frames.takeWhile fun r => ! r.load
  let view := s.almAxes.foldl (fun m n => SMap.set 0 m (64 * n + 15) (k.getD (80 + n) 0)) []
  let s := (s.put Reg.ALM_RPSTAT_RUN true).wr Reg.ALM_RPSTAT_CAUSE 0
  setAlm { s.alm with rpOn := true, rpFrames := usable, rpNow := none, rpView := view,
                      rpEnd := if usable.length = p.frames.length then 8 else 7 } s

/-- REPLAY_CHECK (R508): once, on entry to REPLAY. -/
def execReplayCheck (x : ReplayInput) (s : State) : Out :=
  if ! s.live pdALM then .next s else
  if s.dev.state ≠ .replay ∨ s.alm.rpOn = true then .next s
  else match s.replayPlan x with
    | .inl cause =>
      done (raiseDev Fc.REPLAY_REFUSED (setAlm { s.alm with rpOn := true } (s.wr Reg.ALM_RPSTAT_CAUSE cause)))
    | .inr p => done (startReplay p s)

/-- The payload goes to the words the RECORD entries of the mode read, in their order (R509). -/
def writePayload : List Nat → List Nat → State → State
  | [], _, s => s
  | e :: es, ws, s =>
    if enOp e = opRECORD then
      writePayload es (ws.drop (enRecLen e)) (setFibs ((enSrc e - fibBase) / 4) (ws.take (enRecLen e)) s)
    else writePayload es ws s

/-- What the axes read of a record: CTL, recorded or its successor, and the SP words (R495, R509). -/
def State.viewOf (s : State) (r : AlmRec) : SMap Nat :=
  let axes := s.almAxes
  let rest := r.words.drop (2 + s.snapw)
  let ctl := rest.drop 1
  let sp := (if r.ctls then rest.drop (1 + axes.length) else rest).drop 1
  let idx := (List.range s.spw).filter fun i => i ≠ 1 && i ≠ 15
  (List.range axes.length).foldl (fun m j =>
    let n := axes.getD j 0
    let c := if r.ctls then ctl.getD j 0 else ctlNext (SMap.get 0 m (64 * n + 1))
    let m := SMap.set 0 m (64 * n + 1) c
    if r.sps then
      (List.range idx.length).foldl (fun m i => SMap.set 0 m (64 * n + idx.getD i 0) (sp.getD (j * idx.length + i) 0)) m
    else m) s.alm.rpView

/-- A switch to mode m takes effect at a boundary; to a mode that is not valid it is not performed (R26, R76). -/
def switchTo (m : Nat) (s : State) : State × Bool :=
  if s.modeValid m then (postEvent 4 [m] (irq 18 (s.wr Reg.ANV_STAT_MODE m)), true) else (s.later { code := Fc.MODE_INVALID }, false)

/-- A frame tick of a replay (R509): the next record stands for the new frame. -/
def replayTick (s : State) : State :=
  if ! s.on Reg.ALM_RPSTAT_RUN then s
  else
    match s.alm.rpFrames with
    | [] => s
    | r :: rs =>
      let s := ((s.wr Reg.ALM_RPFN r.fn).inc Reg.ALM_RPCNT)
      let switch := s.fidx = 0 && s.on Reg.ANV_STAT_RUNNING && decide (s.rd Reg.ANV_STAT_MODE ≠ r.mode)
      let s := s.when switch fun s => (switchTo r.mode s).1
      let mode := if s.on Reg.ANV_STAT_RUNNING then s.rd Reg.ANV_STAT_MODE else s.rd Reg.ANV_CTRL_START_MODE
      let s := writePayload (s.modeEntries mode) (r.words.drop 2) s
      setAlm { s.alm with rpFrames := rs, rpNow := some r, rpView := s.viewOf r } s

/-- REPLAY_END (R510): after the last usable frame RUN is cleared; CAUSE 0x7 or 0x8. -/
def execReplayEnd (s : State) : Out :=
  if ! s.live pdALM then .next s else
  if s.on Reg.ALM_RPSTAT_RUN && decide (s.alm.rpFrames = []) && decide (s.alm.rpNow = none) then
    let s := anvRun false ((s.put Reg.ALM_RPSTAT_RUN false).wr Reg.ALM_RPSTAT_CAUSE s.alm.rpEnd)
    done (raiseDev Fc.REPLAY_DONE s)
  else .next s

end Sys2Proof.Machine
end

