-- ==== Sys2Proof/Machine/Power.lean ====
section
/-! DEFINITION. Supply, power states, domains, operating points, retention, start-up, resets and the watchdog (R516 to
R544, R554, R569). -/
namespace Sys2Proof.Machine

/-- The PWR block's own state and its replacement. -/
def setPwr (x : PwrSt) (s : State) : State := { s with pwr := x }

/-! ### Reset (R537) -/

/-- Copy register fields from an older state. -/
def copyFlds (fs : List Fld) (old s : State) : State := fs.foldl (fun s f => s.wr f (old.rd f)) s

/-- The first-error record (R425). -/
def recordFlds : List Fld :=
  [Reg.FCU_REC_CODE, Reg.FCU_REC_CLASS, Reg.FCU_REC_VALID, Reg.FCU_REC_REACT, Reg.FCU_REC_COUNT, Reg.FCU_REC2_CLASSES,
    Reg.FCU_REC2_MASTER, Reg.FCU_REC2_ACC, Reg.FCU_REC_ADDR, Reg.FCU_REC_FN, Reg.FCU_REC_CTL, Reg.FCU_REC_CTH]

/-- The always-on latches (R537). -/
def latchFlds : List Fld := [Reg.PWR_RSTCAUSE_WAKE_FAIL, Reg.PWR_RSTCAUSE_ATTEMPTS, Reg.PWR_WAKE_CAUSE]

/-- What the Almanac keeps through a reset that PD_ALM survives beside its SRAM (R503). -/
def almFlds : List Fld :=
  [Reg.ALM_STAT_STATE, Reg.ALM_STAT_RESET, Reg.ALM_STAT_MISSED, Reg.ALM_STAT_NTRIG, Reg.ALM_TRFN, Reg.ALM_TRSRC_SRC,
    Reg.ALM_TRSRC_CODE]

/-- Fuses and flash outlive every reset; a reset before the copies of the last bit were all blown cuts that write off (R434). -/
def SecSt.kept (clk : Nat) (x : SecSt) : SecSt :=
  { fuses := x.fuses, torn := (x.blown.filter fun b => decide (clk < b.2)).map Prod.fst, keys := x.keys, drs := x.drs, dtk := x.dtk,
    serial := x.serial, serialFused := x.serialFused, flash := x.flash, bcb0 := x.bcb0, bcb1 := x.bcb1, slotA := x.slotA,
    slotB := x.slotB, user := x.user }

/-- The strap is read at the release of reset (R277). -/
def sampleSplit (s : State) : State :=
  s.put Reg.CHK_STAT_SPLIT (s.fuse fzSPLIT || (! s.pwr.splitN && ! s.fuse fzSPLIT_LOCK))

/-- The next rail reaches power good; the rail that started last stops (R518). -/
def railGood (s : State) : State :=
  match (railOrder.drop s.pwr.rails.length).head? with
  | some r => setPwr { s.pwr with rails := s.pwr.rails ++ [r] } s
  | none => s
def railStop (s : State) : State := setPwr { s.pwr with rails := s.pwr.rails.dropLast } s

/-- Every rail but VAON comes up in its order, or goes in the reverse order (R518). -/
def railsUp (s : State) : State := railOrder.foldl (fun s _ => railGood s) s
def railsDown (s : State) : State := railOrder.foldl (fun s _ => railStop s) s

/-- A reset of the device (R537); `bit` is its bit of PWR_RSTCAUSE. Everything returns to its reset value but what R537
keeps: the latches from every source but POR, and from PIN on the first-error record and the Almanac's memory. Host memory,
fuses and flash are not the device's to reset; commands that wait still wait. -/
def deviceReset (bit : Nat) (s : State) : State :=
  let held := decide (4 ≤ bit)
  let frozen := almReset s
  let keepAlm := held && decide (frozen.almState = almFROZEN)
  let alm : AlmSt := if keepAlm then
      { ring := frozen.alm.ring, keys := frozen.alm.keys, sessions := frozen.alm.sessions, trigger := frozen.alm.trigger,
        trigFc := frozen.alm.trigFc, trigPost := frozen.alm.trigPost, session := frozen.alm.session
        trigWritten := frozen.alm.trigWritten }
    else { session := s.alm.session }
  let t : State := { pending := s.pending, fresh := s.fresh, hif := { hostMem := s.hif.hostMem }, sec := s.sec.kept s.time.clk, alm := alm
                     pwr := { rails := s.pwr.rails, splitN := s.pwr.splitN, cause := bit, banks := if bit = 3 then s.pwr.banks else []
                              blocked := s.pwr.blocked && decide (bit ≠ 0) } }
  let t := t.when (bit ≠ 0) (copyFlds latchFlds s)
  let t := t.when held (copyFlds recordFlds s)
  let t := t.when keepAlm (copyFlds almFlds frozen)
  sampleSplit (t.wr Reg.PWR_RSTCAUSE_CAUSE (2 ^ bit))

/-- A reset is due 4,000 ticks from now; one that is due already stays (R411, R436, R538, R539). -/
def dueReset (bit : Nat) (s : State) : State :=
  { s with dev := { s.dev with resetDue := if s.dev.resetDue.isSome then s.dev.resetDue else some (s.ctTicks + 4000, bit) } }

/-- The reset that is due, of a kind, acts at its instant. -/
def resetNow (life : Bool) (s : State) : Out :=
  match s.dev.resetDue with
  | some (t, bit) => if decide (bit = 9) = life then .next (deviceReset bit (reach t s)) else .next s
  | none => .next s

/-- RESET_REACTION: 4,000 ticks after a reset reaction, a watchdog expiry or a SWRST (R411, R538, R539). -/
def execResetReaction (s : State) : Out := resetNow false s

/-- LIFECYCLE_RESET: 10 µs after the last fuse copy (R436). -/
def execLifecycleReset (s : State) : Out := resetNow true s

/-- PIN_RESET (R537, R554): the device stays in reset while RST_N is low. -/
def execPinReset (s : State) : Out :=
  if s.pwr.mode = .run ∨ s.pwr.mode = .sleep then
    let s := deviceReset 4 s
    .next (setPwr { s.pwr with rstLow := true } s)
  else .next s

/-- RESET_RELEASE (R277, R554): RST_N goes high; SPLIT_N is sampled, BOOT begins. -/
def execResetRelease (splitN : Bool) (s : State) : Out :=
  if s.pwr.mode = .run && s.pwr.rstLow then
    done (sampleSplit (setPwr { s.pwr with rstLow := false, splitN := splitN } s))
  else .next s

/-- DEBUG_RESET (R457, R537): the debug module, open under FULL, requests a reset. -/
def execDebugReset (s : State) : Out :=
  if s.debugFull && (s.pwr.mode = .run || s.pwr.mode = .sleep) then .next (deviceReset 7 s) else .next s

/-- BROWNOUT (R517, R537): everything but the latches is lost; the rails have to rise again. -/
def execBrownout (s : State) : Out :=
  if s.pwr.mode = .run ∨ s.pwr.mode = .sleep then
    let s := railsDown (deviceReset 1 s)
    .next (setPwr { s.pwr with mode := .starting } (s.wr Reg.PWR_RSTCAUSE_ATTEMPTS 0))
  else .next s

/-- POWER_ON_RESET (R537): nothing is kept; the device is in Off, and starts at once if WAKE is active. -/
def execPowerOnReset (wake : Bool) (s : State) : Out :=
  let s := railsDown (deviceReset 0 s)
  if wake then .next (setPwr { s.pwr with mode := .starting } (s.wr Reg.PWR_WAKE_CAUSE 1))
  else .next (setPwr { s.pwr with mode := .off } s)

/-- A write of 1 to PWR_CTRL.SWRST (R539). -/
def swrst (s : State) : State :=
  if s.dev.state = .active ∨ s.dev.state = .lee then s.put Reg.PWR_STAT_WDENY true else dueReset 8 s

/-- SWRST. -/
def execSwrst (s : State) : Out :=
  if ! s.runs then .next s else
  done (swrst s)

/-! ### Supply inputs (R517) -/

/-- The device has its rails and is out of reset: Run, Idle or Sleep (R519). -/
def State.watches (s : State) : Bool := (s.pwr.mode = .run || s.pwr.mode = .sleep) && ! s.pwr.rstLow

/-- The measured inputs, in units of 0.1 V. -/
def setSupply (a b : BitVec 10) (s : State) : State :=
  (s.wr Reg.PWR_SUP_VSUP_A a.toNat).wr Reg.PWR_SUP_VSUP_B b.toNat

/-- SUPPLY_A_LOST: input A has been below 20 V for 100 µs. -/
def execSupplyALost (a b : BitVec 10) (s : State) : Out :=
  if ! s.watches || decide (200 ≤ a.toNat) then .next s
  else done (irq 212 (raiseDev Fc.SUPPLY_A_LOST ((setSupply a b s).put Reg.PWR_SUPSTAT_A_OK false)))

/-- SUPPLY_B_LOST. -/
def execSupplyBLost (a b : BitVec 10) (s : State) : Out :=
  if ! s.watches || decide (200 ≤ b.toNat) then .next s
  else done (irq 212 (raiseDev Fc.SUPPLY_B_LOST ((setSupply a b s).put Reg.PWR_SUPSTAT_B_OK false)))

/-- SUPPLY_UV: both inputs have been below 28 V for 100 µs. -/
def execSupplyUv (a b : BitVec 10) (s : State) : Out :=
  if s.watches = false ∨ 280 ≤ a.toNat ∨ 280 ≤ b.toNat then .next s
  else done (irq 212 (raiseDev Fc.SUPPLY_UV ((setSupply a b s).put Reg.PWR_SUPSTAT_UV true)))

/-- SUPPLY_OV: an input has been above 82 V for 10 µs; the safe outputs are forced off. -/
def execSupplyOv (a b : BitVec 10) (s : State) : Out :=
  if s.watches = false ∨ (a.toNat ≤ 820 ∧ b.toNat ≤ 820) then .next s
  else
    let s := ((setSupply a b s).put Reg.PWR_SUPSTAT_OV true).put Reg.PWR_STAT_OV_FORCE true
    done (irq 212 (raiseDev Fc.SUPPLY_OV s))

/-- SUPPLY_OV_END: both inputs have been below 80 V for 1 ms. -/
def execSupplyOvEnd (a b : BitVec 10) (s : State) : Out :=
  if s.watches = false ∨ ! s.on Reg.PWR_STAT_OV_FORCE ∨ 800 ≤ a.toNat ∨ 800 ≤ b.toNat then .next s
  else done (irq 212 (((setSupply a b s).put Reg.PWR_SUPSTAT_OV false).put Reg.PWR_STAT_OV_FORCE false))

/-- SUPPLY_RETURN: an input is above its threshold again, or undervoltage has ended. -/
def execSupplyReturn (a b : BitVec 10) (s : State) : Out :=
  if ! s.watches then .next s else
  let t := setSupply a b s
  let t := t.when (200 ≤ a.toNat) (·.put Reg.PWR_SUPSTAT_A_OK true)
  let t := t.when (200 ≤ b.toNat) (·.put Reg.PWR_SUPSTAT_B_OK true)
  let t := t.when (280 ≤ a.toNat || 280 ≤ b.toNat) (·.put Reg.PWR_SUPSTAT_UV false)
  let changed := [Reg.PWR_SUPSTAT_A_OK, Reg.PWR_SUPSTAT_B_OK, Reg.PWR_SUPSTAT_UV].any fun f => t.rd f ≠ s.rd f
  done (t.when changed (irq 212))

/-! ### Votes and domains (R523 to R526) -/

/-- An axis of a set of axes is out of DISABLED. -/
def State.axesOut (s : State) (ns : List Nat) : Bool := ns.any fun n => s.ax n ≠ axDISABLED

/-- A load holds a vote for the engine's domain from its acceptance until its contents are taken up (R91, R93). -/
def State.loading (s : State) (ns : List Nat) : Bool :=
  ns.any fun n => (s.e n).load.isSome || s.sec.accepted = some n

/-- The hardware votes of R523, the load votes of R91 and the wake votes of R390. -/
def State.hwVote (s : State) (d : Nat) : Bool :=
  let wake := fun t => s.wakeReq t || (s.split && s.wakeReq (t + 2))
  match d with
  | 0 => wake 0
  | 1 => wake 1
  | 2 => true
  | 3 => s.axesOut [0, 1, 2, 3] || s.loading [0, 1, 2, 3]
  | 4 => s.axesOut [4, 5, 6, 7] || s.loading [4, 5, 6, 7]
  | 5 => s.on Reg.ANV_CTRL_RUN || s.on Reg.ANV_STAT_RUNNING || s.sec.sched.isSome
  | 6 => s.axesOut (List.range 8)
  | 7 => s.axesOut (List.range 8) || (List.range 4).any fun k => tb (s.rd Reg.ADC_SSUP_EN) k
  | 8 => s.on Reg.FDL_CTRL_EN || s.on Reg.SEAM_PORT_S0_EN || s.on Reg.SEAM_PORT_S1_EN || s.sec.sched.isSome
  | 9 => (List.range 16).any s.ringEn || (List.range 2).any s.canOn
  | 10 => s.axesOut (List.range 8) || (List.range 4).any fun m => s.on (Reg.OUT_SOm_CFG_EN m)
  | 11 => s.almState ≠ almOFF
  | _ => false

/-- PWR_VOTE_HW: hardware, access, load and wake votes held. -/
def State.voteHw (s : State) : Nat :=
  (List.range 12).foldl (fun v d => putBit v d (s.hwVote d || tb s.pwr.access d)) 0

/-- Some vote for domain d is held (R524). -/
def State.voted (s : State) (d : Nat) : Bool :=
  tb (s.rd Reg.PWR_VOTE_X) d || tb (s.rd Reg.PWR_VOTE_Y) d || tb (s.rd Reg.PWR_VOTE_H) d || s.hwVote d || tb s.pwr.access d

/-- The domain states (R525). -/
def dmOFF : Nat := 0
def dmUP : Nat := 1
def dmON : Nat := 2
def dmDOWN : Nat := 3

/-- Domain d changes state; source 210. -/
def setDom (d v : Nat) (s : State) : State := irq 210 (s.wr Reg.PWR_DOM (putBits (s.rd Reg.PWR_DOM) (2 * d) 2 v))

/-- Domain d is marked FAILED (R526). -/
def State.domFailed (s : State) (d : Nat) : Bool := s.bit Reg.PWR_DOM2_FAILED d

/-- PWR_DOM2.PEND (R526): a vote is held for a domain that is DOWN or OFF. -/
def State.domPend (s : State) : Nat :=
  (List.range 12).foldl (fun v d =>
    putBit v d (s.voted d && ! s.domFailed d && (s.domState d = dmDOWN || s.domState d = dmOFF))) 0

/-- Everything the pair has released or holds back has drained (R525). -/
def PairSt.drained (q : PairSt) : Bool := q.buf.isEmpty && q.drain.isEmpty && q.fifo.isEmpty && q.stalled.isNone

/-- DOMAIN_POWER_DOWN (R525): no vote is held; a pair's cores both wait in wfi (`wfi`) with the buffer empty, or it is LOST. -/
def execDomainPowerDown (d : Fin 12) (wfi : Bool) (s : State) : Out :=
  let n := d.val
  let there := ! s.pairOn n || decide ((s.pr n).chkIc = (s.pr n).mainIc)
  let pairOk := decide (1 < n) || s.pairState n = pairLOST || (wfi && there && (s.pr n).drained)
  if s.pwr.mode = .run && s.domState n = dmON && ! s.voted n && pairOk then done (setDom n dmDOWN s) else .next s

/-- The registers of the blocks in an address range return to their reset values. -/
def resetRange (lo hi : Nat) (s : State) : State :=
  let old := s.regs.filter fun p => ! (decide (8 * lo ≤ p.1) && decide (p.1 < 8 * hi))
  let new := resetCells.filter fun p => decide (8 * lo ≤ p.1) && decide (p.1 < 8 * hi)
  { s with regs := new.foldl (fun m p => SMap.set 0 m p.1 p.2) old }

/-- The registers of block b. -/
def resetBlock (b : Nat) (s : State) : State := resetRange (0x40000000 + 0x10000 * b) (0x40010000 + 0x10000 * b) s

/-- Engine n loses its memories (R91), which read 0 afterwards (log entry 403), and its registers and bits of CEC (log entry 507). -/
def engOff (n : Nat) (s : State) : State :=
  let s := resetRange (0x40040100 + 0x40 * n) (0x40040140 + 0x40 * n) (s.setE n {})
  [Reg.CEC_STAT_BUSY, Reg.CEC_STAT_DONE, Reg.CEC_STAT_LOADED, Reg.CEC_STAT_FENCED, Reg.CEC_FLAG_SAT, Reg.CEC_FLAG_FCST,
    Reg.CEC_FLAG_ABORT, Reg.CEC_FLAG_SKIP].foldl (fun s f => s.wrBit f n false) s

/-- A pair's domain is OFF: the pair is OFF for CHK, its released word 0; nothing is presented or in service on its targets,
in a split device those of both its cores (R270, R391, R393). -/
def pairOffDomain (p : Nat) (s : State) : State :=
  let old := s.outBits
  let s := intcClear (p + 2) (intcClear p s)
  let s := (s.setPr p { failed := (s.pr p).failed }).put (resyncFld p) false
  let s := s.wr Reg.CHK_STAT_CMP_OK (putBits (s.rd Reg.CHK_STAT_CMP_OK) (2 * p) 2 0)
  let s := resetRange (0x40090200 + 0x80 * p) (0x40090280 + 0x80 * p) (setPair p pairOFF s)
  let s := s.setTu p {}
  enablesFrom old (resetRange (0x400F0000 + 0x8000 * p) (0x400F8000 + 0x8000 * p) s)

/-- What a domain loses with its power (R91, R189, R523). The role outlives the Seam registers. -/
def loseDomain (d : Nat) (s : State) : State :=
  match d with
  | 0 => pairOffDomain 0 s
  | 1 => pairOffDomain 1 s
  | 3 => s.each [0, 1, 2, 3] engOff
  | 4 => s.each [4, 5, 6, 7] engOff
  | 5 =>
    let s := setAnv {} (resetBlock 3 s)
    s.each (List.range 8) fun n s => s.setA n { s.a n with act := 0, bank := [], written := false }
  | 6 => { resetBlock 6 s with fb := [] }
  | 7 =>
    let s := s.each (List.range 8) fbInvalid
    { resetBlock 7 s with adc := {} }
  | 8 =>
    let t := resetBlock 11 (resetBlock 10 s)
    { t.wr Reg.SEAM_STAT_ROLE s.role with seam := {}, fdl := {} }
  | 9 => { resetBlock 13 (resetBlock 12 s) with hif := { hostMem := s.hif.hostMem }, can := [] }
  | 10 => { resetBlock 8 (resetBlock 5 s) with com := [], out := [], so := [] }
  | 11 =>
    let x := s.alm
    { resetBlock 17 s with alm := { session := x.session, skey := x.skey, rid := x.rid, sessionOn := x.sessionOn, kr := x.kr
                                    krKey := x.krKey, krNext := x.krNext, krKeyNext := x.krKeyNext } }
  | _ => s

/-- DOMAIN_OFF (R525): a domain that powers down reaches OFF and loses its contents. -/
def execDomainOff (d : Fin 12) (s : State) : Out :=
  if s.domState d = dmDOWN then
    let s := setDom d dmOFF (loseDomain d s)
    done (setPwr { s.pwr with offAt := SMap.set 0 s.pwr.offAt d s.ctTicks } s)
  else .next s

/-- DOMAIN_POWER_UP (R525, R526): a vote is held for a domain that has been OFF for 4,000 ticks. -/
def execDomainPowerUp (d : Fin 12) (s : State) : Out :=
  if s.pwr.mode = .run && s.domState d = dmOFF && s.voted d && ! s.domFailed d then
    let s := reach (SMap.get 0 s.pwr.offAt d + 4000) s
    let s := setDom d dmUP s
    done (setPwr { s.pwr with upAt := SMap.set 0 s.pwr.upAt d s.ctTicks } s)
  else .next s

/-- DOMAIN_FAIL (R526): not ready 100 µs after UP began. -/
def execDomainFail (d : Fin 12) (s : State) : Out :=
  if s.domState d = dmUP then
    let s := reach (SMap.get 0 s.pwr.upAt d + 40000) s
    let s := (setDom d dmOFF s).wrBit Reg.PWR_DOM2_FAILED d true
    done (raiseDev Fc.DOMAIN_FAIL s)
  else .next s

/-- A core of pair p writes for it: its main core, or either core of a split device (R524). -/
def State.speaksFor (s : State) (m : Master) (p : Nat) : Bool :=
  match m with
  | .ac0 => p = 0
  | .ac1 => p = 0 && s.split
  | .ac2 => p = 1
  | .ac3 => p = 1 && s.split
  | _ => false

/-- A write of PWR_VOTE_X (0), _Y (1) or _H (2) (R524); by any other master a bus error. The cores of a pair that is out of
service are halted and write nothing (R270). -/
def voteWrite (m : Master) (r v : Nat) (s : State) : State :=
  let ok := if r = 2 then m = .host else s.speaksFor m r
  if ok && decide (r < 2) && ! s.split && ! s.pairOn r then s
  else if ok then s.wr (if r = 0 then Reg.PWR_VOTE_X else if r = 1 then Reg.PWR_VOTE_Y else Reg.PWR_VOTE_H) v
  else busError m 2 (0x40010020 + 4 * r) s

/-- VOTE_WRITE. -/
def execVoteWrite (m : Master) (r : Fin 3) (v : Word) (s : State) : Out :=
  if ! s.runs then .next s else
  done (voteWrite m r v.toNat s)

/-! ### Operating points (R527 to R529) -/

/-- A change of point begins (R528): to a lower one the clock is lowered first; to a higher one it follows VCORE, at the end. -/
def startPoint (v : Nat) (s : State) : State :=
  let x := s.pwr
  setPwr { x with dvfs := some v, dvfsNext := none, dvfsAt := s.ctTicks, clkPoint := max x.clkPoint v }
    (s.put Reg.PWR_STAT_DVFS_BUSY true)

/-- Ticks that a change from the voltage of point v to that of point w takes: 40 before it begins, 40 for the switch of the
clock, 10 mV each 1 µs, and 5 µs to settle (R528). -/
def pointTicks (v w : Nat) : Nat := 80 + 4000 * (max v w - min v w) + 2000

/-- A write of PWR_DVFS.POINT. -/
def pointWrite (v : Nat) (s : State) : State :=
  let v := v % 4
  if v = 3 then s.put Reg.PWR_STAT_WDENY true
  else
    let s := s.wr Reg.PWR_DVFS v
    if s.pwr.dvfs.isSome then setPwr { s.pwr with dvfsNext := some v } s
    else if v = s.rd Reg.PWR_STAT_POINT_NOW then s else startPoint v s

/-- POINT_CHANGE. -/
def execPointChange (v : BitVec 2) (s : State) : Out :=
  if ! s.runs then .next s else
  done (pointWrite v.toNat s)

/-- A change has ended, well or not: source 211; a pending point follows. -/
def endPoint (s : State) : State :=
  let next := s.pwr.dvfsNext
  let s := setPwr { s.pwr with dvfs := none, dvfsNext := none } (irq 211 (s.put Reg.PWR_STAT_DVFS_BUSY false))
  match next with
  | some v => if v = s.rd Reg.PWR_STAT_POINT_NOW then s else startPoint v s
  | none => s

/-- DVFS_DONE (R528): VCORE is confirmed at the point, and the clock is at it. -/
def execDvfsDone (s : State) : Out :=
  if ! s.runs then .next s else
  match s.pwr.dvfs with
  | some v =>
    let s := reach (s.pwr.dvfsAt + pointTicks s.pwr.vPoint v) s
    done (endPoint (setPwr { s.pwr with clkPoint := v, vPoint := v } (s.wr Reg.PWR_STAT_POINT_NOW v)))
  | none => .next s

/-- DVFS_FAIL (R529), 100 µs after VCORE began to move: POINT_NOW keeps the old point. -/
def execDvfsFail (s : State) : Out :=
  if ! s.runs then .next s else
  match s.pwr.dvfs with
  | some v =>
    let s := reach (s.pwr.dvfsAt + (if v < s.pwr.vPoint then 40 else 80) + 40000) s
    done (endPoint (raiseDev Fc.DVFS_FAIL s))
  | none => .next s

/-! ### Power states (R519 to R522) -/

/-- The two cores of pair p wait in wfi, by a mask of the cores; the checker of a checked pair waits where the main core
does, once it is there (R266). -/
def State.bothWait (s : State) (wfi : BitVec 4) (p : Nat) : Bool :=
  tb wfi.toNat (2 * p) && if s.pairOn p then decide ((s.pr p).chkIc = (s.pr p).mainIc) else tb wfi.toNat (2 * p + 1)

/-- The main cores that wait in wfi. -/
def noteWfi (wfi : BitVec 4) (s : State) : State :=
  s.each [0, 1] fun p s => s.when (s.pairOn p) fun s => s.setPr p { s.pr p with wfi := tb wfi.toNat (2 * p) }

/-- Every powered core waits (R519, R520). -/
def State.coresWait (s : State) (wfi : BitVec 4) : Bool := [0, 1].all fun p => s.domState p ≠ dmON || s.bothWait wfi p

/-- The cores allow an entry (R520): every in-service pair has its main core in wfi, its buffer empty, its checker there. -/
def State.entryDue (s : State) (wfi : BitVec 4) : Bool :=
  if s.split then s.coresWait wfi
  else [0, 1].all fun p => s.pairState p ≠ pairINSERVICE ||
    (tb wfi.toNat (2 * p) && (s.pr p).drained && (s.pr p).mainIc = (s.pr p).chkIc)

/-- IDLE_ENTRY (R519); the main cores that wait are kept for R266. -/
def execIdleEntry (wfi : BitVec 4) (s : State) : Out :=
  if s.pwr.mode = .run && ! s.pwr.rstLow && s.rd Reg.PWR_MODE = 0 && s.coresWait wfi then
    .next (setPwr { s.pwr with idle := true } (noteWfi wfi s))
  else .next s

/-- The wake sources that act in a target state: 1 Sleep, 2 Deep Sleep, 3 Off (R522). -/
def State.wakeMask (s : State) (target : Nat) : Nat :=
  if target = 3 then 1
  else andW (s.rd Reg.PWR_WAKE_EN) (if target = 1 then 0x7FF else 0x3FF)

/-- The interrupt controller as a wake source (R522): a pending, enabled source of a target with WAKE. -/
def State.intcWake (s : State) : Bool := (List.range 4).any fun t => (List.range 256).any (s.wakes t)

/-- The sources active: pins and ports as given (bits 8:0), the wake timer, the interrupt controller. -/
def State.wakeActive (s : State) (pins : BitVec 9) : Nat :=
  pins.toNat + b2n s.pwr.timer * 2 ^ 9 + b2n s.intcWake * 2 ^ 10

/-- The first condition of R520 that fails, 0 if none. -/
def State.entryRefused (s : State) (target : Nat) (pins : BitVec 9) : Nat :=
  if s.dev.state ≠ .standby ∧ s.dev.state ≠ .safe then 1
  else if s.allAxes [axDISABLED] = false then 2
  else if s.on Reg.ANV_STAT_RUNNING then 3
  else if s.on Reg.SEC_STAT_BUSY || s.on Reg.SEC_MBOX_STAT_BUSY || s.on Reg.PWR_STAT_DVFS_BUSY ||
      (List.range 12).any (fun d => s.domState d = dmUP || s.domState d = dmDOWN) then 4
  else if andW (s.wakeActive pins) (s.wakeMask target) ≠ 0 then 5
  else if s.almState = almDUMPING ∨ s.almState = almREPLAY then 6
  else 0

/-- The error pins are low in every state but Run and Idle (R419, R521). -/
def enterMode (m : PState) (s : State) : State := setPwr { s.pwr with mode := m, idle := false, timer := false } (fltStop s)

/-- An attempted entry: refused with its code, or made. -/
def tryEntry (target : Nat) (wfi : BitVec 4) (pins : BitVec 9) (enter : State → State) (s : State) : Out :=
  if ! (s.pwr.mode = .run && ! s.pwr.rstLow && s.rd Reg.PWR_MODE = target && s.entryDue wfi) then .next s
  else
    let code := s.entryRefused target pins
    let s := s.wr Reg.PWR_STAT_REFUSE code
    if code ≠ 0 then done (irq 209 (raiseDev Fc.SLEEP_REFUSED (s.wr Reg.PWR_MODE 0))) else done (enter s)

/-- SLEEP_ENTRY (R520, R521). -/
def execSleepEntry (wfi : BitVec 4) (pins : BitVec 9) (s : State) : Out := tryEntry 1 wfi pins (enterMode .sleep) s

/-- The registers of a retention bank (R530). -/
def bankFlds : Nat → List Fld
  | 0 => [Reg.INTC_CTRL_EN, Reg.INTC_CTRL_LOCK] ++ (List.range 256).flatMap fun i =>
      [Reg.INTC_SRCs_EN i, Reg.INTC_SRCs_TGT i, Reg.INTC_SRCs_LVL i, Reg.INTC_SRCs_WAKE i]
  | 1 => [Reg.TIME_CTRL_REFSEL, Reg.TIME_CTRL_LOCK, Reg.TIME_FRAME, Reg.TIME_CYCLE, Reg.TIME_RATE_REQ]
  | 2 => (List.range 8).flatMap fun m => [Reg.ANV_MODEn_BASE m, Reg.ANV_MODEn_LENM1 m]
  | 3 => [Reg.FDL_CTRL_EN, Reg.FDL_CTRL_COLDSTART, Reg.FDL_CTRL_LOCK, Reg.FDL_CFG_NODE, Reg.FDL_CFG_RSH,
      Reg.FDL_CFG_SYNC_TH, Reg.FDL_CFG_LOSS_TH, Reg.FDL_CFG_LOSS_CYC, Reg.FDL_CFG2_COLD_CYC, Reg.FDL_CFG2_BAB_N,
      Reg.FDL_CFG2_EDGE_N, Reg.FDL_CFG2_PROP_TOUT] ++ (List.range 6).flatMap fun p =>
      [Reg.FDL_Pp_CFG_CLASS p, Reg.FDL_Pp_CFG_HOPX p, Reg.FDL_Pp_CFG_PEER p, Reg.FDL_Pp_MASK_L p, Reg.FDL_Pp_MASK_H p,
        Reg.FDL_Pp_MASKM p]
  | 4 => recordFlds
  | _ => [Reg.PWR_CTRL_LOCK, Reg.PWR_WAKE_EN, Reg.PWR_WTIMER, Reg.PWR_DVFS, Reg.PWR_WDT_EN, Reg.PWR_WDT_MIN,
      Reg.PWR_WDT_TIMEOUT]

/-- A bank as it is saved: every register of it with its value. -/
def State.saveBank (s : State) (b : Nat) : List (Nat × Nat) := (bankFlds b).map fun f => (f.key, s.rd f)

/-- DEEP_SLEEP_ENTRY (R521, R531): the banks are saved, every rail but VAON goes. -/
def execDeepSleepEntry (wfi : BitVec 4) (pins : BitVec 9) (s : State) : Out :=
  tryEntry 2 wfi pins (fun s =>
    let banks := (List.range 6).foldl (fun m b => SMap.set [] m b (s.saveBank b)) []
    railsDown (enterMode .deepSleep (setPwr { s.pwr with banks := banks } { s with alm := { session := s.alm.session } }))) s

/-- OFF_ENTRY (R521): the banks are discarded, every rail but VAON goes. -/
def execOffEntry (wfi : BitVec 4) (pins : BitVec 9) (s : State) : Out :=
  tryEntry 3 wfi pins (fun s =>
    railsDown (enterMode .off (setPwr { s.pwr with banks := [] } { s with alm := { session := s.alm.session } }))) s

/-- WAKE_TIMER (R522): PERIOD × 10 ms after entry to Sleep or Deep Sleep. -/
def execWakeTimer (s : State) : Out :=
  if (s.pwr.mode = .sleep ∨ s.pwr.mode = .deepSleep) ∧ s.rd Reg.PWR_WTIMER ≠ 0 then
    .next (setPwr { s.pwr with timer := true } s)
  else .next s

/-- SLEEP_WAKE (R43, R355, R522): an enabled source is active; the PCIe link has gone down; time is not valid; an enabled
Fudorlink listens. -/
def execSleepWake (pins : BitVec 9) (s : State) : Out :=
  let on := s.wakeActive pins
  if s.pwr.mode = .sleep ∧ andW on (s.wakeMask 1) ≠ 0 then
    let s := keepVotes s
    let s := setPwr { s.pwr with mode := .run, timer := false } ((s.wr Reg.PWR_WAKE_CAUSE on).put Reg.TIME_STAT_CT_VALID false)
    let s := s.when (s.on Reg.HIF_STAT_LINK_UP) fun s =>
      let s := ((s.put Reg.HIF_STAT_LINK_UP false).wr Reg.HIF_STAT_SPEED 0).wr Reg.HIF_STAT_WIDTH 0
      irq 177 (raiseDev Fc.PCIE_LINK_DOWN (hostLost s))
    done (irq 208 (s.when (s.on Reg.FDL_CTRL_EN) (setSs ssLISTEN)))
  else .next s

/-! ### Wake and start-up (R531 to R536) -/

/-- POWER_UP (R522, R533): a wake from Deep Sleep or Off starts the rails; after WAKE_FAIL only a source that was inactive for
10 ms (`again`) does. -/
def execPowerUp (pins : BitVec 9) (again : Bool) (s : State) : Out :=
  let deep := decide (s.pwr.mode = .deepSleep)
  let on := (pins.toNat + b2n s.pwr.timer * 2 ^ 9)
  if (deep ∨ s.pwr.mode = .off) ∧ andW on (s.wakeMask (if deep then 2 else 3)) ≠ 0 ∧ (s.pwr.blocked = false ∨ again = true) then
    let s := (s.wr Reg.PWR_WAKE_CAUSE on).wr Reg.PWR_RSTCAUSE_ATTEMPTS 0
    .next (setPwr { s.pwr with mode := .starting, cause := if deep then 3 else 2, blocked := false, timer := false } s)
  else .next s

/-- RAIL_TIMEOUT (R533): every rail is removed; after three retries the device stays Off with WAKE_FAIL. -/
def execRailTimeout (s : State) : Out :=
  if s.pwr.mode ≠ .starting then .next s
  else
    let s := railsDown s
    let n := s.rd Reg.PWR_RSTCAUSE_ATTEMPTS
    if n = 3 then
      .next (setPwr { s.pwr with mode := .off, blocked := true, banks := [] } (s.put Reg.PWR_RSTCAUSE_WAKE_FAIL true))
    else .next (setPwr { s.pwr with mode := .waiting } (s.wr Reg.PWR_RSTCAUSE_ATTEMPTS (n + 1)))

/-- RAIL_RETRY (R533): 10 ms after a failed attempt. -/
def execRailRetry (s : State) : Out :=
  if s.pwr.mode = .waiting then .next (setPwr { s.pwr with mode := .starting } s) else .next s

/-- A bank that passes its CRC returns to its owner; one that fails is lost; an empty one does nothing (R531, R532). -/
def restoreBank (bad : BitVec 6) (b : Nat) (s : State) : State :=
  match SMap.get [] s.pwr.banks b with
  | [] => s
  | cells =>
    if tb bad.toNat b then s.wrBit Reg.PWR_RET_LOST b true
    else
      let s := { s with regs := cells.foldl (fun m (c : Nat × Nat) => SMap.set 0 m c.1 c.2) s.regs }
      let s := s.wrBit Reg.PWR_RET_RESTORED b true
      if b = 0 then s.put Reg.INTC_STAT_RESTORED true
      else if b = 3 then s.when (s.on Reg.FDL_CTRL_EN) (setSs ssLISTEN)
      else if b = 5 then
        let v := s.rd Reg.PWR_DVFS
        setPwr { s.pwr with clkPoint := v, vPoint := v } (s.wr Reg.PWR_STAT_POINT_NOW v)
      else s

/-- POWER_GOOD (R518, R531 to R534, R554): VIO33, the last rail, is good; the reset of the start acts; the banks are checked and restored; the latch WAKE_FAIL is
raised as a fault. With RST_N low the device stays in reset. -/
def execPowerGood (rstN splitN : Bool) (bad : BitVec 6) (s : State) : Out :=
  if s.pwr.mode ≠ .starting then .next s
  else
    let s := deviceReset s.pwr.cause (setPwr { s.pwr with splitN := splitN } (railsUp s))
    let s := (List.range 6).foldl (fun s b => restoreBank bad b s) s
    let lost := s.rd Reg.PWR_RET_LOST
    let s := s.when (lost ≠ 0) fun s => irq 213 (raise { code := Fc.RET_LOST, addr := lost } s)
    let s := setPwr { s.pwr with banks := [], rstLow := ! rstN } s
    done (s.when (s.on Reg.PWR_RSTCAUSE_WAKE_FAIL) (raiseDev Fc.WAKE_FAIL))

/-- The reference of REFSEL is awaited (R534), and the clock at which its 10 ms end. -/
def State.refAwaited (s : State) : Bool :=
  s.pwr.refWait && s.on Reg.TIME_STAT_ON_RC && s.rd Reg.TIME_CTRL_REFSEL ≠ 2 && s.pwr.mode = .run
def State.refDue (s : State) : Nat := s.pwr.refAt + 4000000

/-- REFERENCE_LOCK (R42, R534): the reference passes its guards within 10 ms of power good. -/
def execReferenceLock (s : State) : Out :=
  if s.refAwaited && decide (s.time.clk ≤ s.refDue) then
    let s := (s.put Reg.TIME_STAT_ON_RC false).put Reg.TIME_STAT_REF_OK true
    done (irq 216 (setPwr { s.pwr with refWait := false } s))
  else .next s

/-- OSC_START (R534): it does not; the device stays on the RC until the next reset. -/
def execOscStart (s : State) : Out :=
  if s.refAwaited && s.inFrame s.refDue then
    let s := advance (s.refDue - s.time.clk) s
    let s := { s with time := { s.time with fell := true } }
    done (raiseDev Fc.OSC_START (setPwr { s.pwr with refWait := false } s))
  else .next s

/-- The pairs' Assay is done, or the device is split (R273, R277). -/
def State.assayed (s : State) : Bool := s.split || s.rd Reg.CHK_ASSAY_RAN = 15

/-- LOGIC_BIST (R29, R536): in ASSAY, after the last nested container; all 64 slices pass, or the device enters SAFE. A worker
then holds STANDBY (R34), and the Lee causes held so far act (R415). -/
def execLogicBist (ok : Bool) (s : State) : Out :=
  if s.runs = true ∧ s.dev.state = .assay ∧ s.assayed = true ∧ s.sec.queue.all (fun
      | .nested _ => false
      | _ => true) = true ∧ s.sec.sched = none then
    if ok then done (applyLeeCause (workerStandby (setDevRole .standby roleOFFLINE s)))
    else done (enterSafe (raiseDev Fc.SLICE_FAIL (setSeam { s.seam with sliceFail := true } s)))
  else .next s

/-! ### Watchdog (R538) -/

/-- Clocks of one millisecond, by the nominal timebase. -/
def msClk : Nat := 400000

/-- The watchdog runs: EN, in Run or Idle. -/
def State.wdtOn (s : State) : Bool := s.on Reg.PWR_WDT_EN && s.pwr.mode = .run && ! s.pwr.rstLow && ! s.pwr.wdtOver

/-- PWR_WDT_CNT.LEFT. -/
def State.wdtLeft (s : State) : Nat :=
  if s.on Reg.PWR_WDT_EN then s.rd Reg.PWR_WDT_TIMEOUT - (s.time.clk - s.pwr.wdtAt) / msClk else 0

/-- The watchdog expires: the reset follows whatever the reaction. -/
def wdtExpire (s : State) : State := raiseDev Fc.WDT_EXPIRED (dueReset 6 (setPwr { s.pwr with wdtOver := true } s))

/-- A write of PWR_WDT_KICK by a path with the role HOST. -/
def wdtKick (v : Nat) (s : State) : State :=
  if ! s.wdtOn then s
  else if v % 2 ^ 16 ≠ 0xA5C3 ∨
      (s.pwr.wdtKicked = true ∧ s.time.clk - s.pwr.wdtAt < s.rd Reg.PWR_WDT_MIN * msClk) then wdtExpire s
  else setPwr { s.pwr with wdtAt := s.time.clk, wdtKicked := true, wdtHalf := false } s

/-- WDT_KICK. -/
def execWdtKick (v : BitVec 16) (s : State) : Out := done (wdtKick v.toNat s)

/-- The clock at which `n` halves of TIMEOUT have passed since the last kick. -/
def State.wdtDue (s : State) (n : Nat) : Nat := s.pwr.wdtAt + n * s.rd Reg.PWR_WDT_TIMEOUT * msClk / 2

/-- WDT_HALF: half of TIMEOUT has passed without a kick. -/
def execWdtHalf (s : State) : Out :=
  if s.wdtOn && ! s.pwr.wdtHalf && s.inFrame (s.wdtDue 1) then
    let s := advance (s.wdtDue 1 - s.time.clk) s
    done (irq 214 (setPwr { s.pwr with wdtHalf := true } s))
  else .next s

/-- WDT_EXPIRED: all of it has. -/
def execWdtExpired (s : State) : Out :=
  if s.wdtOn && s.inFrame (s.wdtDue 2) then done (wdtExpire (advance (s.wdtDue 2 - s.time.clk) s)) else .next s

/-- PWR_WDT.EN is written: 1 starts the count, 0 leaves it. -/
def wdtEnable (b : Bool) (s : State) : State :=
  if b && ! s.on Reg.PWR_WDT_EN then
    setPwr { s.pwr with wdtAt := s.time.clk, wdtKicked := false, wdtHalf := false } (s.put Reg.PWR_WDT_EN true)
  else s

end Sys2Proof.Machine
end

