-- ==== Sys2Proof/Machine/Regs.lean ====
section
/-! DEFINITION. The registers as they read: the fields of a register by its address, and the read-only fields whose
value is a function of other state (R14 to R16, R549 and the register tables). -/
namespace Sys2Proof.Machine

/-- The rows of block b (R547). -/
def blockRows : Nat → List RegRow
  | 0 => regRowsSYS | 1 => regRowsPWR | 2 => regRowsTIME | 3 => regRowsANV | 4 => regRowsCEC | 5 => regRowsCOM
  | 6 => regRowsFBK | 7 => regRowsADC | 8 => regRowsOUT | 9 => regRowsCHK | 10 => regRowsSEAM | 11 => regRowsFDL
  | 12 => regRowsHIF | 13 => regRowsCAN | 14 => regRowsINTC | 15 => regRowsTSK | 16 => regRowsFCU | 17 => regRowsALM
  | 18 => regRowsDBG | 19 => regRowsSEC | _ => []

/-- An offset is the sum of an index times its stride for each dimension, the wider stride first. -/
def dimsHit : List (Nat × Nat) → Nat → Bool
  | [], d => decide (d = 0)
  | (st, n) :: ds, d => decide (d / st < n) && dimsHit ds (d % st)

/-- The register of a row lies at address a; a field wider than a word spans the words from its own. -/
def rowHits (r : RegRow) (a : Nat) : Bool :=
  if r.w ≤ 32 then decide (r.addr ≤ a) && dimsHit r.dims (a - r.addr)
  else decide (r.addr ≤ a) && dimsHit r.dims ((a - r.addr) / 16 * 16) && decide ((a - r.addr) % 4 = 0)

/-- The rows of the register at address a. -/
def rowsAt (a : Nat) : List RegRow := (blockRows ((a - 0x40000000) / 2 ^ 16)).filter fun r => rowHits r a

/-- A list of bits from bit 0. -/
def bitVec8 (p : Nat → Bool) : Nat := (List.range 8).foldl (fun v n => v + b2n (p n) * 2 ^ n) 0

/-- The shadow or, for a master without one, the present value (R41): high ticks and fraction. -/
def State.timeHf (s : State) (m : Master) (r : TimeReg) : Nat × Nat :=
  let v := match r with
    | .lt => s.time.lt.toNat
    | .ct => s.ct
  if hasShadow m then
    match r with
    | .lt => SMap.get (0, 0) s.time.shadowLt (masterCode m)
    | .ct => SMap.get (0, 0) s.time.shadowCt (masterCode m)
  else (v / 2 ^ 64, v % 2 ^ 32)

/-- Read-only fields that show other state, block by block. -/
def State.viewsSYS (s : State) : List (Fld × Nat) :=
  (Reg.SYS_AXSTATE, (List.range 8).foldl (fun v n => v + s.ax n * 8 ^ n) 0) ::
    (List.range 8).map fun n => (Reg.SYS_AXn_STAT_PEND n, b2n (s.go n && s.ax n = axSTOPPING))

def State.viewsPWR (s : State) : List (Fld × Nat) :=
  [(Reg.PWR_VOTE_HW, s.voteHw), (Reg.PWR_DOM2_PEND, s.domPend), (Reg.PWR_WDT_CNT, s.wdtLeft)]

def State.viewsTIME (s : State) (m : Master) : List (Fld × Nat) :=
  let rem := trunc 64 s.time.rem
  [(Reg.TIME_LT_L, s.time.lt.toNat / 2 ^ 32 % 2 ^ 32), (Reg.TIME_CT_L, s.ctTicks % 2 ^ 32),
    (Reg.TIME_LT_H, (s.timeHf m .lt).1), (Reg.TIME_LT_F, (s.timeHf m .lt).2),
    (Reg.TIME_CT_H, (s.timeHf m .ct).1), (Reg.TIME_CT_F, (s.timeHf m .ct).2),
    (Reg.TIME_OFS_REM_F, rem % 2 ^ 32), (Reg.TIME_OFS_REM_I, rem / 2 ^ 32),
    (Reg.TIME_FC_L, s.fn), (Reg.TIME_FC_H, s.time.fc.toNat / 2 ^ 32), (Reg.TIME_FT_FT, s.time.ft),
    (Reg.TIME_FT_FIDX, s.fidx), (Reg.TIME_CN_L, s.cn)]

def State.viewsCOM (s : State) : List (Fld × Nat) :=
  (Reg.COM_STAT_CFG_BAD, bitVec8 s.cfgBad) :: (Reg.COM_STAT_SAFE, bitVec8 s.safeNow) ::
    (List.range 8).map fun n => (Reg.COM_An_STAT_CFG_BAD n, b2n (s.cfgBad n))

def State.viewsFBK (s : State) : List (Fld × Nat) :=
  (List.range 8).flatMap fun n =>
    [(Reg.FBK_Cn_STAT n, s.fbStatus n), (Reg.FBK_Cn_POS n, (s.fbc n).pos % 2 ^ 32)]

def State.viewsADC (s : State) : List (Fld × Nat) :=
  [(Reg.ADC_SSUP_PG, (List.range 4).foldl (fun v k => v + b2n (s.ssupPg k) * 2 ^ k) 0)]

def State.viewsOUT (s : State) : List (Fld × Nat) :=
  (Reg.OUT_STAT_READY, bitVec8 s.ready) ::
    (((List.range 8).flatMap fun n =>
      [(Reg.OUT_An_STAT_TRIPPED n, b2n (s.tripped n)), (Reg.OUT_An_STAT_GEN_A n, b2n (s.genA n)),
        (Reg.OUT_An_STAT_GEN_B n, b2n (s.genB n)), (Reg.OUT_An_STAT_PEND n, (s.o n).pend.length)]) ++
      (List.range 4).flatMap fun m =>
        [(Reg.OUT_SOm_STAT_HS_CMD m, b2n (s.soHigh m)), (Reg.OUT_SOm_STAT_LS_CMD m, b2n (s.soLow m))])

def State.viewsCHK (s : State) : List (Fld × Nat) :=
  [(Reg.CHK_EOWN, s.eown), (Reg.CHK_Px_OUT_AXEN 0, s.relWord 0 % 256), (Reg.CHK_Px_OUT_SO 0, s.relWord 0 / 256),
    (Reg.CHK_Px_OUT_AXEN 1, s.relWord 1 % 256), (Reg.CHK_Px_OUT_SO 1, s.relWord 1 / 256)]

def State.viewsSEAM (s : State) : List (Fld × Nat) :=
  [(Reg.SEAM_STAT_HEIR, s.heir), (Reg.SEAM_STAT_CFG_BAD, b2n s.seamCfgBad), (Reg.SEAM_CLAIM_CLAIM, s.claim),
    (Reg.SEAM_CLAIM_WCLAIM, s.wclaim),
    (Reg.SEAM_BULKST, if s.rd Reg.SEAM_STAT_BULK = 2 then s.bulkSentNow else s.rd Reg.SEAM_BULKST)]

def State.viewsHIF (s : State) : List (Fld × Nat) :=
  (Reg.HIF_SRC_FDL, s.hifSrc % 256) :: (Reg.HIF_SRC_RING, s.hifSrc / 256) :: (Reg.HIF_APQ_NOW, s.hif.queue.length) ::
    (List.range 16).map fun r => (Reg.HIF_Rr_STAT_CFG_BAD r, b2n (s.ringCfgBad r))

def State.viewsCAN (s : State) : List (Fld × Nat) :=
  (List.range 2).map fun c => (Reg.CAN_Cc_STAT_TXQ c, (s.cc c).txq.length)

def State.viewsINTC (s : State) : List (Fld × Nat) :=
  (List.range 4).flatMap fun t =>
    [(Reg.INTC_Tt_WAKE t, b2n (s.wakeReq t)), (Reg.INTC_Tt_PRES_VALID t, b2n (s.presented t).isSome)]

def State.viewsTSK (s : State) : List (Fld × Nat) :=
  (List.range 2).flatMap fun p =>
    [(Reg.TSK_Px_QSTAT_HWQ p, min (s.hwq p).length 64), (Reg.TSK_Px_QSTAT_SPILLED p, (s.spilled p).length),
      (Reg.TSK_Px_QSTAT_HEAD_PRIO p, ((s.head p).map fun k => (s.tk p k).prio).getD 0),
      (Reg.TSK_Px_QSTAT_PREEMPT p, b2n (s.preempt p))]

/-- The registers of task k of unit p (R407). -/
def State.taskReg (s : State) (p k off : Nat) : Nat :=
  let t := s.tk p k
  match off with
  | 0 => t.st + t.prio * 2 ^ 4 + b2n t.mode * 2 ^ 8 + b2n t.autoclr * 2 ^ 9 + b2n t.slot.isSome * 2 ^ 10
  | 4 => t.flags
  | 8 => t.mask
  | _ => t.hit

/-- The level of MAINT_N: low while a class-M fault is held, and released in reset and in the states that power VAON alone (R420,
R521). -/
def State.maintN (s : State) : Bool :=
  ! (s.holdsClass .m && (s.pwr.mode = .run || s.pwr.mode = .sleep) && ! s.pwr.rstLow)

def State.viewsFCU (s : State) : List (Fld × Nat) :=
  let code := s.rd Reg.FCU_SEL
  [(Reg.FCU_STAT_FSTOP, b2n (s.holdsClass .s)), (Reg.FCU_STAT_MAINT, b2n (s.holdsClass .m)),
    (Reg.FCU_STAT_LEE, b2n (s.dev.state = .lee)), (Reg.FCU_STAT_CAUSE, b2n s.leeCause),
    (Reg.FCU_STAT_MAINT_N, b2n s.maintN), (Reg.FCU_STAT_NHELD, min s.fcu.held.length 1023),
    (Reg.FCU_LEESTAT_LEFT, s.leeLeft), (Reg.FCU_SCFG_REACT, (s.reactOf code).code),
    (Reg.FCU_SCFG_REPORT, b2n (s.reported code)), (Reg.FCU_SCFG_CLASS, (faultClass code).code),
    (Reg.FCU_SCFG_DEFAULT, (faultDefault code).code), (Reg.FCU_SCFG_IMPL, b2n (faultRow code).isSome),
    (Reg.FCU_SSTAT_HELD, b2n (s.isHeld code)), (Reg.FCU_SSTAT_AUTO, b2n (faultAuto code)),
    (Reg.FCU_SSTAT_COUNT, SMap.get 0 s.fcu.count code), (Reg.FCU_SSTAT_LASTFN, SMap.get 0 s.fcu.lastFn code),
    (Reg.FCU_NEXT, ((s.fcu.held.find? fun p => decide (code < p.1)).map Prod.fst).getD 0xFFFF)]

def State.viewsALM (s : State) : List (Fld × Nat) :=
  [(Reg.ALM_STAT_KEYOK, b2n (! s.alm.keys.isEmpty)), (Reg.ALM_STAT_CFG_BAD, b2n s.almCfgBad),
    (Reg.ALM_RETAIN, s.alm.ring.length), (Reg.ALM_OLDFN, (s.alm.ring.head?.map AlmRec.fn).getD 0),
    (Reg.ALM_KEYFN, (s.alm.keys.head?.map AlmRec.fn).getD 0)]

def State.viewsSEC (s : State) : List (Fld × Nat) :=
  let f := s.secFuse
  let b := s.bcbNow
  [(Reg.SEC_FUSE_SLOTS, f % 16), (Reg.SEC_FUSE_REVOKED, f / 16 % 16), (Reg.SEC_FUSE_SPLIT, f / 256 % 2),
    (Reg.SEC_FUSE_SPLIT_LOCK, f / 512 % 2), (Reg.SEC_ARB, s.secArb), (Reg.SEC_TKC, s.tkcNow),
    (Reg.SEC_SERIAL_L, s.sec.serial % 2 ^ 32), (Reg.SEC_SERIAL_H, s.sec.serial / 2 ^ 32 % 2 ^ 32),
    (Reg.SEC_BOOT_STATE_A, b.stA), (Reg.SEC_BOOT_STATE_B, b.stB), (Reg.SEC_BOOT_ATT_A, b.attA % 8),
    (Reg.SEC_BOOT_ATT_B, b.attB % 8)]

/-- The views of block b. -/
def State.views (s : State) (m : Master) : Nat → List (Fld × Nat)
  | 0 => s.viewsSYS | 1 => s.viewsPWR | 2 => s.viewsTIME m | 5 => s.viewsCOM | 6 => s.viewsFBK | 7 => s.viewsADC
  | 8 => s.viewsOUT | 9 => s.viewsCHK | 10 => s.viewsSEAM | 12 => s.viewsHIF | 13 => s.viewsCAN | 14 => s.viewsINTC
  | 15 => s.viewsTSK | 16 => s.viewsFCU | 17 => s.viewsALM | 19 => s.viewsSEC | _ => []

/-- One field of a register as it reads: write-only fields read 0 (R15). -/
def State.fieldNow (s : State) (views : List (Fld × Nat)) (a : Nat) (r : RegRow) : Nat :=
  let f : Fld := ⟨8 * a + r.lsb, r.w⟩
  if r.acc = .wo then 0
  else match views.find? fun v => v.1.key = f.key with
    | some v => v.2 % 2 ^ r.w
    | none => s.rd f

/-- A register as master m reads it; reserved bits read 0 (R16). Nothing for an offset the index does not list (R546). -/
def State.readReg (s : State) (m : Master) (a : Nat) : Option Nat :=
  let b := (a - 0x40000000) / 2 ^ 16
  match rowsAt a with
  | [] => none
  | r :: rs =>
    if 32 < r.w then some (bits (s.rd ⟨8 * (a / 16 * 16), r.w⟩) (8 * (a % 16)) 32)
    else if b = 15 ∧ 0x1000 ≤ a % 0x8000 then
      some (s.taskReg (a % 2 ^ 16 / 0x8000) ((a % 0x8000 - 0x1000) / 16) (a % 16))
    else some ((r :: rs).foldl (fun v r => putBits v r.lsb r.w (s.fieldNow (s.views m b) a r)) 0)

end Sys2Proof.Machine
end

