-- ==== Sys2Proof/Machine/Bus.lean ====
section
/-! DEFINITION. Bus accesses: who reaches which region (R545 to R547, R468 to R472), what a register write does (R15 and the
rules of each block), engine data memory (R90, R119), BAR0 (R353), released stores (R260, R267) and boundary scan (R460). -/
namespace Sys2Proof.Machine

/-- The state a part of a command leaves; one that does not answer a state changes nothing. -/
def keep (s : State) (o : Out) : State :=
  match o with
  | .next t => t
  | _ => s

/-! ### Roles (R467 to R472) -/

/-- Application cores and, without a grant, the PCIe host hold the role HOST (R468). -/
def isCore (m : Master) : Bool := decide (m = .ac0 ∨ m = .ac1 ∨ m = .ac2 ∨ m = .ac3)
def hostPath (m : Master) : Bool := isCore m || decide (m = .host)

/-- The roles of a path (R468). The security core reads as software of the device does. -/
def State.mRoles (s : State) (m : Master) : List Nat :=
  match m with
  | .debugger => if s.rd Reg.SEC_STAT_DBG = 0 then [] else s.sec.dbgRole.toList
  | .host => roleHOST :: (s.sec.grant.map Grant.role).toList
  | _ => [roleHOST]

/-- VENDOR holds the rights of MAKER in BLANK (R472). -/
def State.asMaker (s : State) (r : Nat) : Bool := decide (r = roleMAKER) || (decide (r = roleVENDOR) && decide (s.lc = lcBLANK))

/-- The R cells of schedules, recordings and the fault log: every role but VENDOR and PEER (R471). -/
def State.mayRead (s : State) (m : Master) : Bool :=
  s.lc ≠ lcDEAD && ((s.mRoles m).any fun r =>
    s.asMaker r || [roleOPERATOR, roleSERVICE, roleHOST, roleTUNER].contains r)

/-- The G cells of the debugger path: engine programs and trace node tables (R471, R472). -/
def State.mayProgram (s : State) (m : Master) : Bool :=
  s.lc ≠ lcDEAD && decide (m = .debugger) && ((s.mRoles m).any fun r =>
    s.asMaker r || [roleSERVICE, roleTUNER].contains r || (r = roleVENDOR && decide (s.lc = lcRETURN)))

/-- The class ceiling of a role (R474). -/
def ceilingOf (r : Nat) : Nat := if r = roleOPERATOR then 0 else if r = roleSERVICE then 1 else 2

/-- A read of a data page of class c is covered for the master (R119, R471, R472): public pages for every reader, the others by
the token of the debugger path. -/
def State.pageCovered (s : State) (m : Master) (c : Nat) : Bool :=
  (decide (c = 0) && (s.mayRead m || s.mayProgram m)) ||
    (s.mayProgram m && ((s.mRoles m).any fun r => decide (c ≤ ceilingOf r)) && ! (s.split && decide (c = 2)))

/-- The class of the page that holds data word a of engine n (R118). -/
def State.pageClass (s : State) (n a : Nat) : Nat := bits (s.rd (Reg.CEC_En_PAGEm n (a / 4096))) (2 * (a / 256 % 16)) 2

/-- A register of the RISC-V debug module on the bus (R549). -/
def isDmi (a : Nat) : Bool := decide (0x40124000 ≤ a ∧ a < 0x40124200)

/-- The debugger's path is open to a bus access (R457, R466, R468, R472): OBSERVE reads only; the token registers always answer but in
DEAD, the registers of the debug module under FULL; no other master reaches them. In DEAD the PCIe host reaches nothing. -/
def State.pathOpen (s : State) (m : Master) (write : Bool) (a : Nat) : Bool :=
  let dbg := decide (0x40120000 ≤ a ∧ a < 0x40130000)
  if m = .debugger then
    s.lc ≠ lcDEAD && ((dbg && ! isDmi a) || decide (s.rd Reg.SEC_STAT_DBG = 2) || (decide (s.rd Reg.SEC_STAT_DBG = 1) && ! write))
  else if m = .host then s.lc ≠ lcDEAD && decide (0x40000000 ≤ a ∧ a < 0x40100000)
  else ! dbg

/-! ### What an address names -/

/-- A word of the block windows is listed (R546, R549) or lies in a window of a chapter. -/
def inWindow (a : Nat) : Bool :=
  decide (0x40038000 ≤ a ∧ a < 0x4003B000) || decide (0x400B8000 ≤ a ∧ a < 0x400C0000) || isDmi a ||
    decide (0x40128000 ≤ a ∧ a < 0x40130000)
def listed (a : Nat) : Bool := inWindow a || ! (rowsAt a).isEmpty

/-- The switched domain an address lies in (R523); none for what is always on. -/
def domainOf (a : Nat) : Option Nat :=
  if 0x41000000 ≤ a ∧ a < 0x41020000 then some pdANV
  else if 0x42000000 ≤ a ∧ a < 0x42800000 then some (if (a - 0x42000000) / 2 ^ 20 < 4 then pdCEL else pdCEH)
  else if a < 0x40000000 ∨ 0x40140000 ≤ a then none
  else
    let off := a % 2 ^ 16
    match (a - 0x40000000) / 2 ^ 16 with
    | 3 => some pdANV
    | 4 => if 0x100 ≤ off ∧ off < 0x300 then some (if off < 0x200 then pdCEL else pdCEH) else none
    | 5 | 8 => some pdOUT
    | 6 => some pdFBK
    | 7 => some pdANA
    | 9 => if 0x200 ≤ off ∧ off < 0x300 then some (if off < 0x280 then pdPAIRX else pdPAIRY) else none
    | 10 | 11 => some pdNET
    | 12 | 13 => some pdHIF
    | 15 => some (if off < 0x8000 then pdPAIRX else pdPAIRY)
    | 17 => some pdALM
    | 19 => some pdCRUC
    | _ => none

/-! ### Reads -/

/-- A word of a window inside a block (R64, R318, R466). -/
def State.windowWord (s : State) (m : Master) (a : Nat) : Option Nat :=
  if a < 0x4003A000 then some (SMap.get 0 s.anv.fib ((a - 0x40038000) / 4))
  else if a < 0x4003A800 then some (s.activeWord ((a - 0x4003A000) / 256) (a % 256 / 4))
  else if a < 0x4003B000 then some (s.bankWord ((a - 0x4003A800) / 256) true (a % 256 / 4))
  else if a < 0x400C0000 then
    if s.mayRead m then some (s.regionWord ((a - 0x400B8000) / 0x1000) (a % 0x1000 / 4)) else none
  else some (SMap.get 0 s.sec.tokwin ((a - 0x40128000) / 4))

/-- A word of engine n's window (R89): program memory and node table under the matrix, coefficients never. Data memory is
`busWord`'s. -/
def State.engineWord (s : State) (m : Master) (n off : Nat) : Option Nat :=
  let e := s.e n
  if 0x10000 ≤ off ∧ off < 0x14000 then
    if s.mayProgram m then some (bits (SMap.get 0 e.prog ((off - 0x10000) / 8)) (8 * (off % 8)) 32) else none
  else if 0x30000 ≤ off ∧ off < 0x30100 then
    if s.mayProgram m then some (SMap.get 0 e.nodes ((off - 0x30000) / 4) % 2 ^ 32) else none
  else none

/-- A bus read of data word a of engine n (R90, R119): 0 with ENG_REDACT where its class is not covered. -/
def dataRead (m : Master) (n a : Nat) (s : State) : Nat × State :=
  if s.pageCovered m (s.pageClass n a) then (SMap.get 0 (s.e n).data a, s)
  else (0, raise { code := Fc.ENG_REDACT n, axes := 2 ^ n, addr := 0x42000000 + 0x100000 * n + 4 * a
                   master := masterCode m, acc := 1 } s)

/-- The registers of FCU that the matrix guards: the first-error record and the log (R426, R471). -/
def faultLogAddr (a : Nat) : Bool := decide (0x40100040 ≤ a ∧ a < 0x40100060) || decide (0x40101000 ≤ a ∧ a < 0x40102000)

/-- One aligned word as master m reads it, and what the read does (R41, R119); nothing for a bus error. -/
def busWord (m : Master) (a : Nat) (s : State) : Option Nat × State :=
  if ! s.pathOpen m false a then (none, s)
  else if a < 0x20000 then
    (if isCore m || m = .sec then some (Config.bootRom (a / 4)).toNat else none, s)
  else if inSram a 4 then (if m = .host then none else some (getWord s.mem a), s)
  else if 0x03000000 ≤ a ∧ a < 0x03100000 then
    let open' := (s.mRoles m).any fun r => match s.cec.cover with
      | some (c, _) => decide (c ≤ ceilingOf r)
      | none => true
    (if m = .debugger then some (if open' then SMap.get 0 s.cec.trace ((a - 0x03000000) / 4) else 0) else none, s)
  else if 0x40000000 ≤ a ∧ a < 0x40140000 then
    if isDmi a then
      let (v, s) := s.free
      (some v, s)
    else if inWindow a then (s.windowWord m a, s)
    else if faultLogAddr a && ! s.mayRead m then (none, s)
    else if a = 0x40020010 ∨ a = 0x40020020 then
      (s.readReg m a, keep s (execTimeReadLatch m (if a = 0x40020010 then .lt else .ct) s))
    else (s.readReg m a, s)
  else if 0x41000000 ≤ a ∧ a < 0x41020000 then
    (if s.mayRead m then some (bits (SMap.get 0 s.anv.table ((a - 0x41000000) / 16)) (8 * (a % 16)) 32) else none, s)
  else if 0x42000000 ≤ a ∧ a < 0x42800000 then
    let n := (a - 0x42000000) / 2 ^ 20
    let off := (a - 0x42000000) % 2 ^ 20
    if off < 0x10000 then
      let r := dataRead m n (off / 4) s
      (some r.1, r.2)
    else (s.engineWord m n off, s)
  else (none, s)

/-! ### Register writes -/

/-- Write the fields of the register at a that are open: RW and RWL take the value, W1C bits clear (R15). -/
def writeRows (a v : Nat) (ok : RegRow → Bool) (s : State) : State :=
  (rowsAt a).foldl (fun s r =>
    let f : Fld := ⟨8 * a + r.lsb, r.w⟩
    let x := bits v r.lsb r.w
    match r.acc with
    | .rw => if ok r then s.wr f x else s
    | .rwl => if ok r then s.wr f x else s
    | .w1c => s.wr f (andNotW (s.rd f) x)
    | _ => s) s

/-- Every field, the RWL ones only while they are open. -/
def plainWrite (a v : Nat) (open' : Bool) (s : State) : State := writeRows a v (fun r => r.acc ≠ .rwl || open') s

/-- The rows of a register hold an RWL field. -/
def hasRwl (a : Nat) : Bool := (rowsAt a).any fun r => r.acc = .rwl

/-- The per-axis rule of R133, R201 and R251: RWL fields only while the axis is DISABLED, the block not locked and the
value permitted; any other write of them sets the axis's bit of WDENY. -/
def axisWrite (a v n : Nat) (lock wdeny : Fld) (good : Bool) (s : State) : State :=
  if ! hasRwl a then plainWrite a v false s
  else if s.ax n = axDISABLED && ! s.on lock && good then plainWrite a v true s
  else (plainWrite a v false s).wrBit wdeny n true

/-- SYS (R251). -/
def sysWrite (a v : Nat) (s : State) : State :=
  let off := a - 0x40000000
  if off < 0x440 then plainWrite a v (! s.on Reg.SYS_AXCTRL_LOCK) s
  else
    let good := match off % 0x20 with
      | 0 => decide (bits v 4 2 ≠ 3)
      | 4 => decide (bits v 0 10 ≠ 0 ∧ bits v 16 16 ≠ 0)
      | 8 => decide (bits v 0 8 ≠ 0)
      | _ => true
    axisWrite a v ((off - 0x440) / 0x20) Reg.SYS_AXCTRL_LOCK Reg.SYS_AXCTRL_WDENY good s

/-- PWR (R520, R524, R527, R538, R539, R544). -/
def pwrWrite (m : Master) (a v : Nat) (s : State) : State :=
  let open' := ! s.on Reg.PWR_CTRL_LOCK
  match a - 0x40010000 with
  | 0x000 => (plainWrite a v open' s).when (tb v 0 && hostPath m) swrst
  | 0x020 => voteWrite m 0 v s
  | 0x024 => voteWrite m 1 v s
  | 0x028 => voteWrite m 2 v s
  | 0x040 => s.when (hostPath m) (pointWrite v)
  | 0x060 =>
    let s' := writeRows a v (fun r => open' && decide (r.lsb ≠ 0)) s
    s'.when open' (wdtEnable (tb v 0))
  | 0x064 => s.when (hostPath m) (wdtKick (v % 2 ^ 16))
  | _ => plainWrite a v open' s

/-- CT_LOAD (R40): a write of 1; refused while the Anvil runs or is to run. A load begins a session of the Almanac (R485). -/
def ctLoad (s : State) : State :=
  if s.on Reg.ANV_CTRL_RUN || s.on Reg.ANV_STAT_RUNNING then s.put Reg.TIME_STAT_LOAD_DENIED true
  else
    let s := loadCt s.ctSet s
    s.when (s.dev.state ≠ .replay && s.alm.kr.isSome) newSession

/-- A write of REFSEL (R42, R84): the RC backup as reference takes the timebase to the RC; from it an XIN reference is taken up
once it passes its guards (R534), but never after a fallback; the reserved value is not written, and REFSEL itself raises no OSC_FALLBACK (log entry 2706). -/
def refSelect (sel : Nat) (s : State) : State :=
  let old := s.rd Reg.TIME_CTRL_REFSEL
  if sel = 3 || sel = old then s
  else
    let s := s.wr Reg.TIME_CTRL_REFSEL sel
    if sel = 2 then setPwr { s.pwr with refWait := false } (onRc s)
    else s.when (old = 2 && ! s.time.fell) fun s => setPwr { s.pwr with refWait := true, refAt := s.time.clk } s

/-- TIME (R39, R40, R42, R46, R84, R334). -/
def timeWrite (a v : Nat) (s : State) : State :=
  let open' := ! s.on Reg.TIME_CTRL_LOCK
  match a - 0x40020000 with
  | 0x000 => ((writeRows a v (fun r => decide (r.lsb ≠ 0) && (r.acc ≠ .rwl || open')) s).when open'
      (refSelect (v % 4))).when (tb v 4) ctLoad
  | 0x034 | 0x038 => if s.on Reg.FDL_CTRL_EN then s.put Reg.FDL_STAT_SWDENY true else plainWrite a v open' s
  | 0x03C => keep s (execOffsetRequest (BitVec.ofNat 32 v) s)
  | 0x060 => keep s (execFrameCycleWrite false (BitVec.ofNat 32 v) s)
  | 0x064 => keep s (execFrameCycleWrite true (BitVec.ofNat 32 v) s)
  | _ => plainWrite a v open' s

/-- ANV (R64, R75 to R77, R85). -/
def anvRegWrite (a v : Nat) (s : State) : State :=
  let open' := ! s.on Reg.ANV_CTRL_LOCK
  match a - 0x40030000 with
  | 0x000 => anvRun (tb v 0) (writeRows a v (fun r => decide (r.lsb ≠ 0) && (r.acc ≠ .rwl || open')) s)
  | 0x008 => if tb v 31 then modeRequest (v % 8) s else plainWrite a v open' s
  | 0x080 =>
    if ! open' then s
    else if inSram (bits v 14 18 * 2 ^ 14) (2 ^ 14) then plainWrite a v true s
    else s.put Reg.ANV_STAT_WDENY true
  | _ => plainWrite a v open' s

/-- What a change of CH_EN or of the gate path of axis n does beside the bit (R148, R149): the chopper counts as commanded
off from the clock on which CH_EN became 1, and nothing commands it on while chopper control does not run
(notes/assumptions/906.md). -/
def chEnChanged (n : Nat) (old s : State) : State :=
  let s := s.when (! old.on (Reg.COM_An_CHOP_CH_EN n) && s.on (Reg.COM_An_CHOP_CH_EN n)) fun s =>
    s.setC n { s.c n with chopAt := s.ctTicks }
  s.when (old.chopRuns n && ! s.chopRuns n) (chopper n false 0)

/-- COM (R133, R160). -/
def comWrite (a v : Nat) (s : State) : State :=
  let off := a - 0x40050000
  if off < 0x100 then plainWrite a v (! s.on Reg.COM_CTRL) s
  else
    let n := (off - 0x100) / 0x80
    chEnChanged n s (axisWrite a v n Reg.COM_CTRL Reg.COM_STAT_WDENY true s)

/-- FBK (R163, R178, R190). Out-of-range parameters are stored as written (log entry 918). -/
def fbkWrite (a v : Nat) (s : State) : State :=
  let off := a - 0x40060000
  let open' := ! s.on Reg.FBK_CTRL_LOCK
  if off = 0 then (plainWrite a v open' s).each (bitsOf 8 (v % 256)) rearm
  else if off = 4 then keep s (execFbkAxmapWrite (BitVec.ofNat 24 v) s)
  else if off = 8 ∨ off = 0xC then
    let held := [6, 7].filter fun n => s.fbMode n = 4 && s.chanBusy n
    if ! open' then s
    else if held.isEmpty then plainWrite a v true s
    else s.each held fun n s => s.wrBit Reg.FBK_WDENY n true
  else if off < 0x100 then plainWrite a v open' s
  else
    let n := (off - 0x100) / 0x40
    let mode := v % 8
    let badMode := decide ((off - 0x100) % 0x40 = 0) && (decide (6 ≤ mode) || (decide (4 ≤ mode) && decide (n < 6)))
    if ! hasRwl a || ! open' then s
    else if s.chanBusy n || badMode then s.wrBit Reg.FBK_WDENY n true
    else
      let t := plainWrite a v true s
      let f := t.fbc n
      t.setFb n { f with cfgAt := t.ctCeil, ssiT0 := if t.fbMode n = 3 then f.ssiT0 else none }

/-- A reserved encoding of an ADC register (R190, R195): GAIN above 0b100, DEC above 0b100, a source that does not exist. -/
def adcReserved (a v : Nat) : Bool :=
  let off := a - 0x40070000
  if off = 0x18 then (List.range 4).any fun k => decide (4 < bits v (8 * k + 1) 3)
  else if 0x40 ≤ off ∧ off < 0xA0 then decide (4 < bits v 4 3)
  else if 0x100 ≤ off ∧ off < 0x500 ∧ off % 0x40 ≠ 0 then
    if tb v 6 then decide (24 ≤ v % 64) else decide (48 ≤ v % 64)
  else false

/-- A sigma-delta clock output or input, or EN of a sensor supply is written (R185, R188): a clock output runs from the
first clock after EN is set. -/
def adcEnables (a v : Nat) (old s : State) : State :=
  let off := a - 0x40070000
  if 0x20 ≤ off ∧ off < 0x30 then
    let k := (off - 0x20) / 4
    let restart := s.on (Reg.ADC_SDCKk_EN k) && (! old.on (Reg.ADC_SDCKk_EN k) ||
      decide (s.rd (Reg.ADC_SDCKk_DIV k) ≠ old.rd (Reg.ADC_SDCKk_DIV k)))
    let s := s.when restart fun s =>
      { s with adc := { s.adc with sdCk := SMap.set 0 s.adc.sdCk k (s.time.clk + 1) } }
    s.each (List.range 24) fun n s => sdSync n old s
  else if 0x40 ≤ off ∧ off < 0xA0 then sdSync ((off - 0x40) / 4) old s
  else if off = 0x1C then
    s.each (bitsOf 4 (v % 16)) fun k s =>
      s.when (! s.bit Reg.ADC_SSUP_FAULT k) fun s =>
        { s with adc := { s.adc with ssupOff := putBit s.adc.ssupOff k false } }
  else s

/-- ADC (R190, R195). -/
def adcWrite (a v : Nat) (s : State) : State :=
  let locked := decide (s.on Reg.ADC_CTRL)
  let t :=
    if ! hasRwl a then plainWrite a v false s
    else if locked then plainWrite a v false s
    else if s.allAxes [axDISABLED] && ! adcReserved a v then plainWrite a v true s
    else (plainWrite a v false s).put Reg.ADC_STAT_WDENY true
  adcEnables a v s t

/-- GLEN of axis n is set, which starts the grid of characters, or cleared, which takes the link DOWN (R203, R210). -/
def glenChanged (n : Nat) (old s : State) : State :=
  if s.glen n && ! old.glen n then s.setO n { s.o n with gridAt := s.time.clk }
  else if ! s.glen n && old.glen n then linkDown n s
  else s

/-- TPEN of safe output m is set: its interval begins (R218). -/
def tpenSet (m : Nat) (old s : State) : State :=
  s.when (s.on (Reg.OUT_SOm_CFG_TPEN m) && ! old.on (Reg.OUT_SOm_CFG_TPEN m)) fun s =>
    s.setSo m { s.sout m with testAt := s.time.clk }

/-- OUT (R197, R201, R202, R210, R218, R222). -/
def outWrite (a v : Nat) (s : State) : State :=
  let off := a - 0x40080000
  let open' := ! s.on Reg.OUT_CTRL
  if off = 8 then keep s (execTripLatchClear (BitVec.ofNat 8 (v / 256)) s)
  else if off < 0x100 then plainWrite a v open' s
  else if off < 0x400 then
    let n := (off - 0x100) / 0x40
    match (off - 0x100) % 0x40 with
    | 0x00 =>
      let t := axisWrite a v n Reg.OUT_CTRL Reg.OUT_STAT_WDENY (! (tb v 0 && decide (4 ≤ n))) s
      chEnChanged n s (glenChanged n s t)
    | 0x04 => axisWrite a v n Reg.OUT_CTRL Reg.OUT_STAT_WDENY (decide (v % 4096 ≤ 4000)) s
    | 0x0C =>
      let s := if tb v 0 then keep s (execTrain (Fin.ofNat 8 n) s) else s
      if tb v 1 then keep s (execGlClear (Fin.ofNat 8 n) s) else s
    | _ => axisWrite a v n Reg.OUT_CTRL Reg.OUT_STAT_WDENY true s
  else if (off - 0x400) % 0x20 = 4 then
    keep s (execSoLatchClear (Fin.ofNat 4 ((off - 0x400) / 0x20)) (BitVec.ofNat 4 (v / 256)) s)
  else tpenSet ((off - 0x400) / 0x20) s (plainWrite a v open' s)

/-- CHK_Px_OUT: the released word of pair p; the outputs act on it from the clock after its release (R267, R232). A split
device refuses it (R277). -/
def releasedWord (p v : Nat) (s : State) : State :=
  if s.split then s
  else
    let s := advance 1 s
    let old := s.outBits
    enablesFrom old ((s.wr (Reg.CHK_Px_OUT_AXEN p) (v % 256)).wr (Reg.CHK_Px_OUT_SO p) (v / 256 % 16))

/-- CHK (R267 to R271, R275, R281): REJOIN is released by the other pair. -/
def chkWrite (m : Master) (a v : Nat) (s : State) : State :=
  let open' := ! s.on Reg.CHK_CTRL_LOCK
  match a - 0x40090000 with
  | 0x000 =>
    let s := plainWrite a v open' s
    let s := s.when (tb v 0 && s.speaksFor m 1) (rejoin 0)
    s.when (tb v 1 && s.speaksFor m 0) (rejoin 1)
  | 0x008 => enablesFrom s.outBits (plainWrite a v open' s)
  | 0x014 =>
    let x := bits v 16 4
    writeRows a v (fun r => open' && (decide (r.lsb = 0) || decide (1 ≤ x ∧ x ≤ 8))) s
  | 0x200 => releasedWord 0 v s
  | 0x280 => releasedWord 1 v s
  | _ => plainWrite a v open' s

/-- SEAM (R299, R303, R306, R311). -/
def seamWrite (m : Master) (a v : Nat) (s : State) : State :=
  let open' := ! s.on Reg.SEAM_CTRL_LOCK
  match a - 0x400A0000 with
  | 0x000 =>
    let s := writeRows a v (fun r => r.acc = .rwl && open') s
    let s := if tb v 2 = s.on Reg.SEAM_CTRL_SLICE_HOLD then s else sliceHold (tb v 2) s
    let s := s.when (tb v 0) resyncReq
    s.when (tb v 1 && isCore m) standbyOkReq
  | 0x004 =>
    if ! open' then s
    else if bits v 12 8 = 0 then s.put Reg.SEAM_STAT_WDENY true
    else netWritten (plainWrite a v true s)
  | 0x008 => seamDisable 1 (seamDisable 0 (plainWrite a v open' s))
  | _ => plainWrite a v open' s

/-- FDL (R314, R330, R340, R346, R351). -/
def fdlWrite (a v : Nat) (s : State) : State :=
  let open' := ! s.on Reg.FDL_CTRL_LOCK
  let off := a - 0x400B0000
  if off = 0 then (netWritten (plainWrite a v open' s)).when (tb v 2) leaveReq
  else if off = 0x10 then
    let s := plainWrite a v open' s
    let s := s.when (tb v 30) cancelProposal
    s.when (tb v 31) propose
  else if 0x100 ≤ off ∧ off < 0x1C0 then
    let p := (off - 0x100) / 0x20
    if off % 0x20 = 0x14 then
      let s := s.when (tb v 0) (reopen p)
      s.when (tb v 1) (remeasure p)
    else fdlRefresh (plainWrite a v open' s)
  else netWritten (plainWrite a v open' s)

/-- HIF (R356, R358, R379). -/
def hifWrite (a v : Nat) (s : State) : State :=
  let open' := ! s.on Reg.HIF_CTRL_LOCK
  let off := a - 0x400C0000
  if 0x8000 ≤ off then keep s (execDoorbell (.internal (Fin.ofNat 16 ((off - 0x8000) / 0x80))) true (BitVec.ofNat 32 v) s)
  else if 0x100 ≤ off ∧ off < 0x500 ∧ off % 0x40 = 4 then
    let r := Fin.ofNat 16 ((off - 0x100) / 0x40)
    keep s (if tb v 0 then execRingEnable r s else execRingDisable r s)
  else plainWrite a v open' s

/-- CAN (R375, R380): RWL fields but EN only while EN reads 0. -/
def canWrite (a v : Nat) (s : State) : State :=
  let off := a - 0x400D0000
  let c := off / 0x400
  let open' := ! s.on (Reg.CAN_Cc_CTRL_LOCK c)
  let was := s.canOn c
  let ctrl := decide (off % 0x400 = 0)
  let s := writeRows a v (fun r => r.acc ≠ .rwl || (open' && (! was || (ctrl && decide (r.lsb = 0))))) s
  if ctrl then
    let s := s.when (! was && s.canOn c) (canEnabled c)
    if tb v 6 then keep s (execRecover (Fin.ofNat 2 c) s) else s
  else s

/-- INTC (R382, R386, R388, R389, R406). -/
def intcWrite (a v : Nat) (s : State) : State :=
  let off := a - 0x400E0000
  if 0x10 ≤ off ∧ off < 0x30 then pendClear ((off - 0x10) / 4) v s
  else if off = 0x50 then swset (v % 2 ^ 16) s
  else if 0x100 ≤ off ∧ off < 0x180 then
    if off % 0x20 = 8 then intcDone ((off - 0x100) / 0x20) (v % 256) s else s
  else if 0x400 ≤ off then sourceConfig ((off - 0x400) / 4) (v % 64) s
  else plainWrite a v (! s.on Reg.INTC_CTRL_LOCK) s

/-- TSK (R393, R396, R407). -/
def tskRegWrite (ic a v : Nat) (s : State) : State :=
  let off := a - 0x400F0000
  let p := off / 0x8000
  let open' := ! s.on (Reg.TSK_Px_CTRL_EN p) && ! s.on (Reg.TSK_Px_CTRL_LOCK p)
  if off % 0x8000 = 0 then tskEn p (tb v 0) (writeRows a v (fun r => r.acc = .rwl && open') s)
  else if off % 0x8000 = 4 then tskWrite p v (if s.split then 0 else ic) s
  else plainWrite a v open' s

/-- FCU (R411, R412, R418, R423, R426, R432). -/
def fcuWrite (a v : Nat) (s : State) : State :=
  match a - 0x40100000 with
  | 0x008 => keep s (execLeeLimitWrite (BitVec.ofNat 32 v) s)
  | 0x014 => keep s (execReactWrite (BitVec.ofNat 4 v) s)
  | 0x040 => if tb v 18 then keep s (execRecordClear s) else s
  | 0x064 => keep s (execLogRpWrite (BitVec.ofNat 8 v) s)
  | _ => plainWrite a v (! s.on Reg.FCU_CTRL) s

/-- ALM (R501 to R504, R515). -/
def almWrite (a v : Nat) (s : State) : State :=
  let open' := ! s.on Reg.ALM_CTRL_LOCK
  let off := a - 0x40110000
  if off = 0 then
    let s := almEnable (tb v 0) (writeRows a v (fun r => r.acc = .rwl && open') s)
    let s := s.when (tb v 1) (almTrigger 7 0)
    let s := s.when (tb v 2) almRelease
    s.when (tb v 3) almDump
  else if hasRwl a then almRefresh (plainWrite a v (open' && ! s.on Reg.ANV_STAT_RUNNING) s)
  else plainWrite a v open' s

/-- SEC: the mailbox (R462). -/
def secWrite (a v : Nat) (s : State) : State := if a = 0x40130020 then mboxWrite (v % 16) s else plainWrite a v true s

/-- DBG: the token registers and window (R459, R466). -/
def dbgWrite (a v : Nat) (s : State) : State :=
  if 0x40128000 ≤ a then setSec { s.sec with tokwin := SMap.set 0 s.sec.tokwin ((a - 0x40128000) / 4) v } s
  else (plainWrite a v true s).when (decide (a = 0x40120000) && tb v 0) submit

/-- Registers that only some masters write; a write by any other is a bus error (R267, R396, R520, R524). -/
def State.writerOk (s : State) (m : Master) (a : Nat) : Bool :=
  match a with
  | 0x40010008 => s.speaksFor m 0 || s.speaksFor m 1
  | 0x40010020 => s.speaksFor m 0
  | 0x40010024 => s.speaksFor m 1
  | 0x40010028 => m = .host
  | 0x40090200 => s.speaksFor m 0
  | 0x40090280 => s.speaksFor m 1
  | 0x400F0004 => s.speaksFor m 0
  | 0x400F8004 => s.speaksFor m 1
  | _ => true

/-- A write of one register, by block (R547). The read-only windows ignore it (R15). -/
def regWrite (op : BusOp) (a v : Nat) (s : State) : State :=
  match (a - 0x40000000) / 2 ^ 16 with
  | 0 => sysWrite a v s
  | 1 => pwrWrite op.m a v s
  | 2 => timeWrite a v s
  | 3 => if inWindow a then s else anvRegWrite a v s
  | 4 => plainWrite a v (! s.on Reg.CEC_CTRL_LOCK) s
  | 5 => comWrite a v s
  | 6 => fbkWrite a v s
  | 7 => adcWrite a v s
  | 8 => outWrite a v s
  | 9 => chkWrite op.m a v s
  | 10 => seamWrite op.m a v s
  | 11 => if inWindow a then s else fdlWrite a v s
  | 12 => hifWrite a v s
  | 13 => canWrite a v s
  | 14 => intcWrite a v s
  | 15 => tskRegWrite op.ic a v s
  | 16 => fcuWrite a v s
  | 17 => almWrite a v s
  | 18 => dbgWrite a v s
  | _ => secWrite a v s

/-! ### Accesses -/

/-- Bytes of a word under a nibble of the mask. -/
def mergeWord (old new mask : Nat) : Nat :=
  (List.range 4).foldl (fun w i => if tb mask i then putBits w (8 * i) 8 (bits new (8 * i) 8) else w) old

/-- A bus write to engine n's data memory is performed (R90). -/
def State.dataOpen (s : State) (n : Nat) : Bool := s.ax n = axDISABLED && ! s.bit Reg.CEC_STAT_BUSY n

/-- The MOVE copy that ended on this clock has written data word a of engine n: it is performed last (R90). -/
def State.movedNow (s : State) (n a : Nat) : Bool :=
  let w := engBase + n * 2 ^ 20 + 4 * a
  decide (s.anv.moveFree = s.time.clk ∧ s.anv.moveDst ≤ w ∧ w < s.anv.moveDst + 4 * s.anv.moveLen)

/-- Write bytes of data word a of engine n (R90). -/
def dataWrite (n a v mask : Nat) (s : State) : State :=
  let e := s.e n
  if s.movedNow n a then s
  else s.setE n { e with data := SMap.set 0 e.data a (mergeWord (SMap.get 0 e.data a) v mask) }

/-- A write of bytes of the word at a would not be answered with a bus error (R546 and the rules of each region). -/
def State.writeOk (s : State) (m : Master) (a mask : Nat) : Bool :=
  if ! s.pathOpen m true a then false
  else if inSram a 4 then m ≠ .host
  else if 0x40000000 ≤ a ∧ a < 0x40140000 then
    decide (mask = 15) && listed a && s.writerOk m a && ! decide (0x400B8000 ≤ a ∧ a < 0x400C0000)
  else if 0x42000000 ≤ a ∧ a < 0x42800000 then
    decide ((a - 0x42000000) % 2 ^ 20 < 0x10000) && s.dataOpen ((a - 0x42000000) / 2 ^ 20)
  else false

/-- Perform a write of bytes of the word at a. -/
def writeWord (op : BusOp) (a v mask : Nat) (s : State) : State :=
  if ! s.writeOk op.m a mask then busError op.m 2 a s
  else if inSram a 4 then { s with mem := putWord s.mem a (mergeWord (getWord s.mem a) v mask) }
  else if a < 0x42000000 then regWrite op a v s
  else dataWrite ((a - 0x42000000) / 2 ^ 20) ((a - 0x42000000) % 2 ^ 20 / 4) v mask s

/-- The two words of an access: nibbles of the mask, address and data. -/
def BusOp.parts (op : BusOp) : List (Nat × Nat × Nat) :=
  let a := op.st.addr - op.st.addr % 8
  let lo := op.st.mask % 16
  let hi := op.st.mask / 16 % 16
  (if lo = 0 then [] else [(a, op.st.data % 2 ^ 32, lo)]) ++
    (if hi = 0 then [] else [(a + 4, op.st.data / 2 ^ 32 % 2 ^ 32, hi)])

/-- The access takes more than one aligned word of a block window (R546). -/
def BusOp.wideBlock (op : BusOp) : Bool :=
  decide (0x40000000 ≤ op.st.addr ∧ op.st.addr < 0x40140000) && decide (op.st.mask ≠ 15 ∧ op.st.mask ≠ 240)

/-- What ECC shows of the word at a as master m reads it: of shared SRAM (R410), of an engine's data or program memory (R125). -/
def wordEcc (m : Master) (a : Nat) (e : Ecc) (s : State) : State :=
  let off := (a - 0x42000000) % 2 ^ 20
  let n := (a - 0x42000000) / 2 ^ 20
  if inSram a 4 then sramEcc (masterCode m) 1 e a s
  else if a < 0x42000000 ∨ 0x42800000 ≤ a then s
  else if off < 0x10000 then engUseEcc n 1 (off / 4) e s
  else if off < 0x14000 then engUseEcc n 0 ((off - 0x10000) / 8) e s
  else s

/-- A read: each word it takes; the bytes it names, moved down, are what the master receives (DevSt.readData). -/
def performRead (op : BusOp) (s : State) : State :=
  let step := fun (r : Option Nat × Nat × State) (p : Nat × Nat × Nat) =>
    match r.1 with
    | none => r
    | some v =>
      let w := busWord op.m p.1 r.2.2
      let w := (w.1, s.when w.1.isSome fun _ => wordEcc op.m p.1 (eccAt op.ecc (p.1 / 4 % 2)) w.2)
      match w.1 with
      | some x => (some (v + x * 2 ^ (8 * (p.1 % 8))), r.2.1, w.2)
      | none => (none, p.1, w.2)
  let r := op.parts.foldl step (some 0, op.st.addr, s)
  match r.1 with
  | none => busError op.m 1 r.2.1 r.2.2
  | some v =>
    let lo := lowBit 8 op.st.mask
    { r.2.2 with dev := { r.2.2.dev with readData := bits v (8 * lo) (8 * (bitsOf 8 op.st.mask).length) } }

/-- Perform an access whose domain is on (R546). Copies of the Anvil that have ended stand first (R67). -/
def perform (op : BusOp) (s : State) : State :=
  let s := rxDone s
  if op.wideBlock then busError op.m (if op.write then 2 else 1) op.st.addr s
  else if op.write then op.parts.foldl (fun s p => writeWord op p.1 p.2.1 p.2.2 s) s
  else performRead op s

/-- An access (R526): to a FAILED domain a bus error; to a domain that is not ON an access vote, and the access waits. -/
def access (op : BusOp) (s : State) : State :=
  match domainOf op.st.addr with
  | none => perform op s
  | some d =>
    if s.domState d = dmON then perform op s
    else if s.domFailed d then busError op.m (if op.write then 2 else 1) op.st.addr s
    else setPwr { s.pwr with access := putBit s.pwr.access d true, stalled := s.pwr.stalled ++ [op] } s

/-- The device runs its bus: Run or Idle, out of reset (R519, R537). -/
def State.busUp (s : State) : Bool := s.pwr.mode = .run && ! s.pwr.rstLow

/-- A naturally aligned access of 1, 2, 4 or 8 bytes as an access of bytes of a double word (R546). -/
def sizedOp (m : Master) (a size : Nat) (data : Option Nat) (ecc : WordEcc) : Option BusOp :=
  if (size = 1 ∨ size = 2 ∨ size = 4 ∨ size = 8) ∧ a % size = 0 then
    some { m := m, write := data.isSome, ecc := ecc
           st := { addr := a - a % 8, mask := (2 ^ size - 1) * 2 ^ (a % 8), data := data.getD 0 * 2 ^ (8 * (a % 8)) } }
  else none

/-- The pair of an application core, and whether it is its checker. -/
def corePair (m : Master) : Nat := if m = .ac0 ∨ m = .ac1 then 0 else 1
def coreChk (m : Master) : Bool := decide (m = .ac1 ∨ m = .ac3)

/-- The master is a core of a pair that is out of service: it is halted and makes no access (R270). -/
def State.coreHalted (s : State) (m : Master) : Bool := isCore m && ! s.split && ! s.pairOn (corePair m)

/-- An access of a core to its own private memory (R253). -/
def privateAccess (op : BusOp) (s : State) : State :=
  let p := corePair op.m
  let q := s.pr p
  let mem := if coreChk op.m then q.chk.mem else q.main.mem
  let off := op.st.addr - op.st.addr % 8 - 0x08000000
  if op.write then
    let mem := (bitsOf 8 op.st.mask).foldl (fun m i => putByte m (off + i) (bits op.st.data (8 * i) 8)) mem
    s.setPr p (if coreChk op.m then { q with chk := { q.chk with mem := mem } } else { q with main := { q.main with mem := mem } })
  else
    let v := (bitsOf 8 op.st.mask).foldl (fun v i => v + getByte mem (off + i) * 2 ^ (8 * i)) 0
    { s with dev := { s.dev with readData := v / 2 ^ (8 * lowBit 8 op.st.mask) } }

/-- The first byte an access reads. -/
def BusOp.first (op : BusOp) : Nat := op.st.addr - op.st.addr % 8 + lowBit 8 op.st.mask

/-- The checker of pair p. -/
def chkCore (p : Nat) : Master := if p = 0 then .ac1 else .ac3

/-- One read by each core of pair p, for itself, with its own buffered stores in it (R256, R262): the state then, and the two
values. -/
def bothRead (p : Nat) (op : BusOp) (s : State) : State × Nat × Nat :=
  let one (chk : Bool) (t : State) : Nat :=
    forwarded ((s.pr p).forwards chk) (bitsOf 8 op.st.mask).length op.first t.dev.readData
  let t := perform { op with m := mainCore p } s
  let u := perform { op with m := chkCore p, ecc := .ok } t
  (u, one false t, one true u)

/-- Reads of both cores until they agree, RESAMPLE alone reading again (R263): the value both receive, or INPUT_DISAGREE. -/
def readRounds (p : Nat) (op : BusOp) (rule tol : Nat) : Nat → State → State
  | left, s =>
    let r := bothRead p op s
    if exchangeAgrees rule tol r.2.1 r.2.2 then { r.1 with dev := { r.1.dev with readData := r.2.1 } }
    else match left with
      | 0 => pairFault p 1 r.1
      | left + 1 =>
        if rule = 0 then readRounds p { op with ecc := .ok } rule tol left (inputRetry p r.1) else pairFault p 1 r.1

/-- A load of a checked core from a domain that is on: both cores read and meet at the next instruction, and receive the value
they agree on (R262, R263). It waits while they cannot meet. -/
def meetLoad (op : BusOp) (s : State) : State :=
  let p := corePair op.m
  let ic := (s.pr p).mainIc + 1
  match s.exchangeRule (.load (BitVec.ofNat 32 op.first)) with
  | none => s
  | some (rule, retry, tol) => if s.canMeet p ic then readRounds p op rule tol retry (meet p ic s) else s

/-- A load of a checked core: it waits for a domain that is not on (R526). -/
def coupledLoad (op : BusOp) (s : State) : State :=
  match domainOf op.st.addr with
  | none => meetLoad op s
  | some d => if s.domState d = dmON then meetLoad op s else access op s

/-- An access that waited for its domain (R526). -/
def resumeAccess (op : BusOp) (s : State) : State :=
  if isCore op.m && ! s.split && ! op.write then coupledLoad op s else perform op s

/-- DOMAIN_ON (R525, R526, R569): a domain that powers up is ON; a pair's cores wait for their Assay, their memories
cleared; the accesses that waited for it are performed and their vote is withdrawn. -/
def execDomainOn (d : Fin 12) (s : State) : Out :=
  if s.domState d = dmUP ∧ s.ctTicks ≤ SMap.get 0 s.pwr.upAt d + 40000 then
    let s := setDom d dmON (keepVotes s)
    let mine := s.pwr.stalled.filter fun op => domainOf op.st.addr = some d.val
    let rest := s.pwr.stalled.filter fun op => domainOf op.st.addr ≠ some d.val
    let s := setPwr { s.pwr with access := putBit s.pwr.access d false, stalled := rest } s
    done (mine.foldl (fun s op => resumeAccess op s) s)
  else .next s

/-- An access a master makes. Cores reach their own private memory (R253); the accesses of a checked core outside it and the boot
ROM are coupled: stores enter the release buffer, or the checker's signature, at its next instruction, and loads are exchanged
(R253, R256, R262). The cores of a pair that is out of service are halted (R270). -/
def masterAccess (op : BusOp) (s : State) : State :=
  let p := corePair op.m
  if s.coreHalted op.m then s
  else if ! isCore op.m then access op s
  else if isPrivate op.st.addr then privateAccess op s
  else if s.split || isUncoupled op.st.addr then access op s
  else if op.write then
    pairStore p (coreChk op.m) ((if coreChk op.m then (s.pr p).chkIc else (s.pr p).mainIc) + 1) op.st s
  else coupledLoad op s

/-- REGISTER_WRITE (R15, R546): a bus access of a master, a write of the data or, with none, a read; `ecc` is what ECC shows of the
words of a read (R125, R410). -/
def execRegisterWrite (m : Master) (a : Word) (size : Fin 16) (data : Option (BitVec 64)) (ecc : WordEcc) (s : State) : Out :=
  if ! s.runs then .next s else
  if ! s.busUp then .next s
  else match sizedOp m a.toNat size (data.map BitVec.toNat) ecc with
    | some op => done (masterAccess op s)
    | none => done (if s.coreHalted m then s else busError m (if data.isSome then 2 else 1) a.toNat s)

/-- DATA_MEMORY_WRITE (R90): a bus write of data word a of engine n. -/
def execDataMemoryWrite (m : Master) (n : Fin 8) (a : Fin 16384) (v : Word) (s : State) : Out :=
  if ! s.runs then .next s else
  let addr := 0x42000000 + 0x100000 * n.val + 4 * a.val
  if ! s.busUp then .next s
  else match sizedOp m addr 4 (some v.toNat) .ok with
    | some op => done (masterAccess op s)
    | none => .next s

/-- DATA_MEMORY_READ (R119): a bus read of data word a of engine n; `corr` tells of a single-bit error in it (R125). -/
def execDataMemoryRead (m : Master) (n : Fin 8) (a : Fin 16384) (corr : Bool) (s : State) : Out :=
  if ! s.runs then .next s else
  let addr := 0x42000000 + 0x100000 * n.val + 4 * a.val
  if ! s.busUp then .next s
  else match sizedOp m addr 4 none (if corr then .corrected (a.val % 2) else .ok) with
    | some op => done (masterAccess op s)
    | none => .next s

/-- CT_LOAD (R40). -/
def execCtLoad (s : State) : Out :=
  if ! s.runs then .next s else
  done (ctLoad s)

/-- A BAR0 access that the block would answer with a bus error (R353). -/
def State.bar0Bad (s : State) (a : Nat) (write : Bool) : Bool :=
  if write then ! s.writeOk .host a 15
  else ! (s.pathOpen .host false a && (busWord .host a s).1.isSome)

/-- BAR0_ACCESS (R353): offset `off` of BAR0, a write or, with no data, a read. A denied one performs nothing, reads 0 and sets
DENY. -/
def execBar0Access (off : Fin 1048576) (size : Fin 16) (data : Option Word) (s : State) : Out :=
  let a := 0x40000000 + off.val
  let failed := match domainOf a with
    | some d => s.domFailed d
    | none => false
  if ! s.live pdHIF || ! s.on Reg.HIF_STAT_LINK_UP then .next s
  else if size.val ≠ 4 ∨ a % 4 ≠ 0 ∨ failed = true ∨ s.bar0Bad a data.isSome = true then
    let s := s.put Reg.HIF_STAT_DENY true
    done (if data.isSome then s else { s with dev := { s.dev with readData := 0 } })
  else match sizedOp .host a 4 (data.map BitVec.toNat) .ok with
    | some op => done (access op s)
    | none => .next s

/-! ### Released stores -/

/-- Drain stores of a release, one a clock from clock `clk` on (R260); a store to a domain that is not on waits, and the rest
with it (R526). -/
def drainStores (p ic : Nat) : Nat → List RelStore → State → State
  | _, [], s => s.setPr p { s.pr p with drain := (s.pr p).drain.tail }
  | clk, st :: sts, s =>
    let n := s.pwr.stalled.length
    let s := access { m := mainCore p, st := st, write := true, ic := ic } (reachClk clk s)
    if n < s.pwr.stalled.length then s.setPr p { s.pr p with drain := (ic, sts) :: (s.pr p).drain.tail }
    else if s.pairOn p then drainStores p ic (clk + 1) sts s
    else s

/-- The new owner has released: the transferred bits it owns follow its word (R269). -/
def endHold (p : Nat) (s : State) : State :=
  let old := s.outBits
  let mine := (List.range 12).foldl (fun m b => if tb s.eown b = decide (p = 1) then m + 2 ^ b else m) 0
  enablesFrom old { s with chk := { s.chk with hold := andNotW s.chk.hold mine, holdVal := andNotW s.chk.holdVal mine } }

/-- RELEASE_DRAIN (R260, R269): the stores of the oldest agreed checkpoint are performed in order; `sigOk` is the verdict on the
drain signature, and RELEASE_ERR takes the pair out of service. -/
def execReleaseDrain (p : Fin 2) (sigOk : Bool) (s : State) : Out :=
  if ! s.live p then .next s else
  if ! s.pairOn p || ! s.busUp || (s.pwr.stalled.any fun op => op.m = mainCore p) then .next s
  else match (s.pr p).drain with
    | [] => .next s
    | (ic, sts) :: _ =>
      let left := (s.pr p).drain.length
      let s := drainStores p ic (s.time.clk + 1) sts s
      if ! s.pairOn p || (s.pr p).drain.length = left then done s
      else if sigOk then done (endHold p s)
      else done (pairFault p 4 s)

/-! ### Boundary scan -/

/-- BOUNDARY_SCAN (R460): an instruction of IEEE 1149.1 comes into force; EXTEST, INTEST and CLAMP (3 to 5) only while FULL debug
is open, and never in DEAD. -/
def execBoundaryScan (i : Fin 6) (s : State) : Out :=
  if i.val < 3 || (s.debugFull && s.lc ≠ lcDEAD) then done { s with dev := { s.dev with scan := i.val } } else .next s

end Sys2Proof.Machine
end

