-- ==== Sys2Proof/Machine/Frame.lean ====
section
/-! DEFINITION. The frame tick and the cycle boundary (R26, R39, R44 to R48, R59, R79, R81, R417). -/
namespace Sys2Proof.Machine

/-- The LAUNCH entries of the active mode from entry `k` on that act in this frame: dropped unissued when END was not reached
(R79, R81). -/
def State.droppedLaunches (s : State) : List Nat :=
  if s.anv.endReached then []
  else ((s.modeEntries (s.rd Reg.ANV_STAT_MODE)).drop s.anv.ptr).filter fun e => enOp e = opLAUNCH && s.acts e

/-- The engines that still run, or wait to start, at the frame tick (R59). -/
def State.stillRunning (s : State) : List Nat :=
  (List.range 8).filter fun n => s.bit Reg.CEC_STAT_BUSY n || s.anv.runWait.any fun r => r.1 = n

/-- The frame that ends without END overruns; its dropped LAUNCHes count as suppressed (R79 to R81). -/
def endMissed (s : State) : State :=
  if s.on Reg.ANV_STAT_RUNNING && ! s.anv.endReached then
    let lost := s.droppedLaunches
    let s := overrun 2 s.anv.ptr (s.stillRunning.foldl (fun m n => m + 2 ^ n) 0) s.fn s
    lost.foldl (fun s e => suppressed e s) s
  else s

/-- The RATE that a request loads (R36). -/
def rateLimit : Int := 4294967
def clampRate (r : Int) : Int := if rateLimit < r then rateLimit else if r < -rateLimit then -rateLimit else r

/-- Load RATE from its request at a cycle boundary (R36). -/
def loadRate (s : State) : State :=
  let r := sext 32 (s.rd Reg.TIME_RATE_REQ)
  let s := s.wr Reg.TIME_RATE (trunc 32 (clampRate r))
  s.when (clampRate r ≠ r) fun s => (s.put Reg.TIME_STAT_RATE_CLAMP true).later { code := Fc.RATE_CLAMP }

/-- The fourth boundary in a row with a remainder raises SLEW_BACKLOG, once in the run (R39). -/
def backlogTick (s : State) : State :=
  let n := if s.time.rem = 0 then 0 else min (s.time.backlog + 1) 5
  let s := { s with time := { s.time with backlog := n } }
  s.when (n = 4) fun s => (s.put Reg.TIME_STAT_BACKLOG true).later { code := Fc.SLEW_BACKLOG }

/-- Load an armed offset request into the remainder, which it replaces (R38, R39). -/
def loadOffset (s : State) : State :=
  if s.time.ofsArmed then
    let rem := sext 64 (s.rd Reg.TIME_OFS_REQ_F + s.rd Reg.TIME_OFS_REQ_I * 2 ^ 32)
    { s.put Reg.TIME_STAT_SLEWING (rem ≠ 0) with time := { s.time with rem := rem, ofsArmed := false } }
  else s

/-- Clock correction: step 1 of R26. -/
def clockCorrection (s : State) : State := loadOffset (backlogTick (loadRate s))

/-- An armed switch takes effect (R76). -/
def modeSwitch (s : State) : State × Bool :=
  if ! s.on Reg.ANV_STAT_ARMED then (s, false)
  else
    let m := s.rd Reg.ANV_STAT_ARMED_MODE
    switchTo m ((s.put Reg.ANV_STAT_ARMED false).wr Reg.ANV_STAT_ARMED_MODE 0)

/-- The changes of a cycle boundary (R26) up to the loads; the lease and the links go with the clock correction. -/
def boundaryTick (s : State) : State :=
  let s := irq 17 (clockCorrection (setAnv { s.anv with runSeen := s.on Reg.ANV_CTRL_RUN } s))
  let s := seamTick s
  let (s, switched) := if s.dev.state = .replay then (s, false) else modeSwitch s
  let s := fdlTick switched s
  let s := s.when (s.dev.state ≠ .replay) fun s => s.each (List.range 8) axisSwap
  let s := canBoundary (hifBoundary s)
  simplexTick (workerStandby s)

/-- FC counts, the frame begins: completion flags and the marks of once-a-frame faults clear (R44, R112). -/
def countFrame (s : State) : State :=
  let s := { s with time := { s.time with fc := s.time.fc + 1, ft := 0 }, fcu := { s.fcu with seen := [] } }
  let s := setAnv { s.anv with ovrHist := (s.anv.ovrNow :: s.anv.ovrHist).take 8, ovrNow := false, runSeen := false } s
  let s := irq 16 (s.wr Reg.CEC_STAT_DONE 0)
  s.when (s.on Reg.ANV_STAT_RUNNING) frameStart

/-- The frame that ends: its overrun, its Almanac record, the comparison of a replayed one that did not reach END, the engines it stops
(R59, R79, R493, R510). -/
def endFrame (s : State) : State :=
  let s := replayCompare (almFrameEnd (s.on Reg.ANV_STAT_RUNNING) s.anv.endReached (endMissed s))
  s.each s.stillRunning stopEngine

/-- What every frame tick does after FC has counted and the boundary changes are made (R26 steps 4 and 5, R174, R228). -/
def frameWork (boundary : Bool) (s : State) : State :=
  let s := grantTick (s.each (List.range 8) engTakeUp)
  let s := if s.dev.state = .replay then replayTick s else s
  let s := chkTick (s.each (List.range 8) fbTick)
  let s := s.when (s.dev.state ≠ .replay) (axisTick boundary)
  let s := almFrameStart (leaveTick s)
  s.when boundary fun s => claimTick (hifLeaving s)

/-- FRAME_TICK (R44): the clock edge at which CT reaches the next frame. The timebase runs in Run and Idle (R43). -/
def execFrameTick (s : State) : Out :=
  if s.pwr.mode ≠ .run || s.pwr.rstLow then .next s
  else
    let s := rxDone (advance (s.edgesTo ((s.time.fc.toNat + 1) * s.frameTicks * 2 ^ 32)) s)
    let s := countFrame (endFrame s)
    let boundary := decide (s.fidx = 0)
    let s := s.when boundary boundaryTick
    let s := settleAll (frameWork boundary s)
    done (s.when boundary leeBoundary)

end Sys2Proof.Machine
end

