-- ==== Sys2Proof/Machine/Dispatch.lean ====
section
/-! DEFINITION. The dispatch of a command to its meaning: one arm per constructor of Instr, each one direct call. -/
namespace Sys2Proof.Machine

/-- The effect of a command on everything but the queue (every rule of spec/; the rows of its table name theirs). -/
def exec (i : Instr) (s : State) : Host.Outcome State Fault Refusal :=
  match i with
  | .offsetRequest v => Sys2Proof.Machine.execOffsetRequest v s
  | .timeReadLatch m r => Sys2Proof.Machine.execTimeReadLatch m r s
  | .frameCycleWrite cycle v => Sys2Proof.Machine.execFrameCycleWrite cycle v s
  | .anvSample ecc => Sys2Proof.Machine.execSample ecc s
  | .anvCapture ecc gpi => Sys2Proof.Machine.execCapture ecc gpi s
  | .anvMove ecc => Sys2Proof.Machine.execMove ecc s
  | .anvRun ecc => Sys2Proof.Machine.execRun ecc s
  | .anvAwait ecc => Sys2Proof.Machine.execAwait ecc s
  | .anvExchangeTx ecc src => Sys2Proof.Machine.execExchangeTx ecc src s
  | .anvExchangeRx ecc => Sys2Proof.Machine.execExchangeRx ecc s
  | .anvExchangeSeam ecc src => Sys2Proof.Machine.execExchangeSeam ecc src s
  | .anvCheck ecc icX icY => Sys2Proof.Machine.execCheck ecc icX icY s
  | .anvPublish ecc corr => Sys2Proof.Machine.execPublish ecc corr s
  | .anvLaunch ecc corr => Sys2Proof.Machine.execLaunch ecc corr s
  | .anvRecord ecc => Sys2Proof.Machine.execRecord ecc s
  | .anvSignal ecc => Sys2Proof.Machine.execSignal ecc s
  | .anvMode ecc => Sys2Proof.Machine.execMode ecc s
  | .anvNop ecc => Sys2Proof.Machine.execNop ecc s
  | .anvEnd ecc inTime => Sys2Proof.Machine.execEnd ecc inTime s
  | .scrubRead ecc => Sys2Proof.Machine.execScrubRead ecc s
  | .modeRequest m => Sys2Proof.Machine.execModeRequest m s
  | .validationDone ecc => Sys2Proof.Machine.execValidationDone ecc s
  | .engNop n ecc => Sys2Proof.Machine.execEngNop n ecc s
  | .engEnd n ecc => Sys2Proof.Machine.execEngEnd n ecc s
  | .engMov n ecc => Sys2Proof.Machine.execMov n ecc s
  | .engLdk n ecc => Sys2Proof.Machine.execLdk n ecc s
  | .engAsh n ecc => Sys2Proof.Machine.execAsh n ecc s
  | .engAdd n ecc => Sys2Proof.Machine.execAdd n ecc s
  | .engSub n ecc => Sys2Proof.Machine.execSub n ecc s
  | .engNeg n ecc => Sys2Proof.Machine.execNeg n ecc s
  | .engAbs n ecc => Sys2Proof.Machine.execAbs n ecc s
  | .engMuld n ecc => Sys2Proof.Machine.execMuld n ecc s
  | .engMulc n ecc => Sys2Proof.Machine.execMulc n ecc s
  | .engAxpy n ecc => Sys2Proof.Machine.execAxpy n ecc s
  | .engAclr n ecc => Sys2Proof.Machine.execAclr n ecc s
  | .engMacc n ecc => Sys2Proof.Machine.execMacc n ecc s
  | .engMacd n ecc => Sys2Proof.Machine.execMacd n ecc s
  | .engMsud n ecc => Sys2Proof.Machine.execMsud n ecc s
  | .engAcst n ecc => Sys2Proof.Machine.execAcst n ecc s
  | .engAcsm n ecc => Sys2Proof.Machine.execAcsm n ecc s
  | .engMin n ecc => Sys2Proof.Machine.execMin n ecc s
  | .engMax n ecc => Sys2Proof.Machine.execMax n ecc s
  | .engClmp n ecc => Sys2Proof.Machine.execClmp n ecc s
  | .engSel n ecc => Sys2Proof.Machine.execSel n ecc s
  | .engAnd n ecc => Sys2Proof.Machine.execAnd n ecc s
  | .engOr n ecc => Sys2Proof.Machine.execOr n ecc s
  | .engXor n ecc => Sys2Proof.Machine.execXor n ecc s
  | .engClarke n ecc => Sys2Proof.Machine.execClarke n ecc s
  | .engPark n ecc => Sys2Proof.Machine.execPark n ecc s
  | .engIpark n ecc => Sys2Proof.Machine.execIpark n ecc s
  | .engSincos n ecc => Sys2Proof.Machine.execSincos n ecc s
  | .engLut1 n ecc => Sys2Proof.Machine.execLut1 n ecc s
  | .engLut2 n ecc => Sys2Proof.Machine.execLut2 n ecc s
  | .engIntg n ecc => Sys2Proof.Machine.execIntg n ecc s
  | .engRlim n ecc => Sys2Proof.Machine.execRlim n ecc s
  | .engBiq n ecc => Sys2Proof.Machine.execBiq n ecc s
  | .engFir n ecc => Sys2Proof.Machine.execFir n ecc s
  | .engFcst n ecc => Sys2Proof.Machine.execFcst n ecc s
  | .engIllegal n => Sys2Proof.Machine.execEngIllegal n s
  | .engineCompletion n corr => Sys2Proof.Machine.execEngineCompletion n corr s
  | .dataMemoryWrite m n a v => Sys2Proof.Machine.execDataMemoryWrite m n a v s
  | .dataMemoryRead m n a corr => Sys2Proof.Machine.execDataMemoryRead m n a corr s
  | .traceRpWrite v => Sys2Proof.Machine.execTraceRpWrite v s
  | .samplingPlan n => Sys2Proof.Machine.execSamplingPlan n s
  | .shuntConversion n winB raw => Sys2Proof.Machine.execShuntConversion n winB raw s
  | .shuntSetComplete n => Sys2Proof.Machine.execShuntSetComplete n s
  | .dcLinkResult n => Sys2Proof.Machine.execDcLinkResult n s
  | .vdcLost n => Sys2Proof.Machine.execVdcLost n s
  | .chopperCurrentResult n => Sys2Proof.Machine.execChopperCurrentResult n s
  | .chopperNoFallCheck n => Sys2Proof.Machine.execChopperNoFallCheck n s
  | .quadratureTransition n clk raw => Sys2Proof.Machine.execQuadratureTransition n clk raw s
  | .indexAccept n clk raw => Sys2Proof.Machine.execIndexAccept n clk raw s
  | .overrate n gaps => Sys2Proof.Machine.execOverrate n gaps s
  | .hallStateChange n clk raw => Sys2Proof.Machine.execHallStateChange n clk raw s
  | .hallIllegal n => Sys2Proof.Machine.execHallIllegal n s
  | .ssiTransferStart n high => Sys2Proof.Machine.execSsiTransferStart n high s
  | .ssiResult n data par check => Sys2Proof.Machine.execSsiResult n data par check s
  | .resolverSample ch7 sn cs => Sys2Proof.Machine.execResolverSample ch7 sn cs s
  | .lineLoss n => Sys2Proof.Machine.execLineLoss n s
  | .rearm mask => Sys2Proof.Machine.execRearm mask s
  | .fbkAxmapWrite v => Sys2Proof.Machine.execFbkAxmapWrite v s
  | .adcConversionDone c raw => Sys2Proof.Machine.execAdcConversionDone c raw s
  | .groupTrigger g => Sys2Proof.Machine.execGroupTrigger g s
  | .groupConversionDrop g k => Sys2Proof.Machine.execGroupConversionDrop g k s
  | .sinc3Result n stream => Sys2Proof.Machine.execSinc3Result n stream s
  | .sdStuck n more => Sys2Proof.Machine.execSdStuck n more s
  | .csaOvr k => Sys2Proof.Machine.execCsaOvr k s
  | .ssupFault k => Sys2Proof.Machine.execSsupFault k s
  | .blockInForce n => Sys2Proof.Machine.execBlockInForce n s
  | .legTransition n x => Sys2Proof.Machine.execLegTransition n x s
  | .incomingTurnOn n x => Sys2Proof.Machine.execIncomingTurnOn n x s
  | .tripInput t => Sys2Proof.Machine.execTripInput t s
  | .tripLatchClear mask => Sys2Proof.Machine.execTripLatchClear mask s
  | .blockWord n => Sys2Proof.Machine.execBlockWord n s
  | .heartbeat n => Sys2Proof.Machine.execHeartbeat n s
  | .setupWord n => Sys2Proof.Machine.execSetupWord n s
  | .statusWord n clk valid c1 c2 c3 c4 => Sys2Proof.Machine.execStatusWord n clk valid c1 c2 c3 c4 s
  | .echoWord n clk valid value turn round => Sys2Proof.Machine.execEchoWord n clk valid value turn round s
  | .glTrain n => Sys2Proof.Machine.execTrain n s
  | .trainingDone n => Sys2Proof.Machine.execTrainingDone n s
  | .latencyRemeasure n => Sys2Proof.Machine.execLatencyRemeasure n s
  | .glLoss n => Sys2Proof.Machine.execGlLoss n s
  | .glClear n => Sys2Proof.Machine.execGlClear n s
  | .soReadbackCheck m midh midl ihs => Sys2Proof.Machine.execSoReadbackCheck m midh midl ihs s
  | .soOvercurrent m => Sys2Proof.Machine.execSoOvercurrent m s
  | .soTestPulse m => Sys2Proof.Machine.execSoTestPulse m s
  | .soTestPulseEnd m midh midl => Sys2Proof.Machine.execSoTestPulseEnd m midh midl s
  | .soLatchClear m mask => Sys2Proof.Machine.execSoLatchClear m mask s
  | .armTimeout n => Sys2Proof.Machine.execArmTimeout n s
  | .stopTimeout n => Sys2Proof.Machine.execStopTimeout n s
  | .spStale n => Sys2Proof.Machine.execSpStale n s
  | .gustLong n => Sys2Proof.Machine.execGustLong n s
  | .coupledStore p chk ic addr mask data => Sys2Proof.Machine.execCoupledStore p chk ic addr mask data s
  | .inputExchange p ic inp first again differ ecc => Sys2Proof.Machine.execInputExchange p ic inp first again differ ecc s
  | .chkpt p ic v => Sys2Proof.Machine.execChkpt p ic v s
  | .checkpointCompare p eccA eccB faultyA faultyB => Sys2Proof.Machine.execCheckpointCompare p eccA eccB faultyA faultyB s
  | .releaseDrain p sigOk => Sys2Proof.Machine.execReleaseDrain p sigOk s
  | .cpTimeout p => Sys2Proof.Machine.execCpTimeout p s
  | .accessFault p lr => Sys2Proof.Machine.execAccessFault p lr s
  | .checkerTrap p => Sys2Proof.Machine.execCheckerTrap p s
  | .rejoin p => Sys2Proof.Machine.execRejoin p s
  | .assay p a b => Sys2Proof.Machine.execAssay p a b s
  | .scrubCompare p main chk => Sys2Proof.Machine.execScrubCompare p main chk s
  | .pairResync p wfi chkIc => Sys2Proof.Machine.execPairResync p wfi chkIc s
  | .pairResyncEnd p => Sys2Proof.Machine.execPairResyncEnd p s
  | .debugHalt p ic => Sys2Proof.Machine.execDebugHalt p ic s
  | .leaseRenew m path => Sys2Proof.Machine.execRenew m path s
  | .leaseGrant m path => Sys2Proof.Machine.execGrant m path s
  | .leaseTake m path => Sys2Proof.Machine.execTake m path s
  | .tgrant m path => Sys2Proof.Machine.execTgrant m path s
  | .health m path => Sys2Proof.Machine.execHealth m path s
  | .bulkReq m path => Sys2Proof.Machine.execBulkReq m path s
  | .peerLost c => Sys2Proof.Machine.execPeerLost c s
  | .stateSegment p h words => Sys2Proof.Machine.execStateSegment p h words s
  | .bulkSegment p h words => Sys2Proof.Machine.execBulkSegment p h words s
  | .bulkEnd p h words => Sys2Proof.Machine.execBulkEnd p h words s
  | .seamPortUp p => Sys2Proof.Machine.execSeamPortUp p s
  | .seamLinkDown p => Sys2Proof.Machine.execSeamLinkDown p s
  | .sliceTest ok => Sys2Proof.Machine.execSliceTest ok s
  | .sliceHold b => Sys2Proof.Machine.execSliceHold b s
  | .commandFrame fs => Sys2Proof.Machine.execCommandFrame fs s
  | .statusFrame f => Sys2Proof.Machine.execStatusFrame f s
  | .dataFrame f => Sys2Proof.Machine.execDataFrame f s
  | .peerFrame f => Sys2Proof.Machine.execPeerFrame f s
  | .joinRequest f => Sys2Proof.Machine.execJoinRequest f s
  | .slotTransmit idx => Sys2Proof.Machine.execSlotTransmit idx s
  | .frameRelay p slot hops h0 h1 h3 sof => Sys2Proof.Machine.execFrameRelay p slot hops h0 h1 h3 sof s
  | .windowClose p => Sys2Proof.Machine.execWindowClose p s
  | .portIsolated p => Sys2Proof.Machine.execPortIsolated p s
  | .reopen p => Sys2Proof.Machine.execReopen p s
  | .fdlLinkUp p => Sys2Proof.Machine.execFdlLinkUp p s
  | .linkDown p => Sys2Proof.Machine.execLinkDown p s
  | .linkDelayMeasurement p trips turn => Sys2Proof.Machine.execLinkDelayMeasurement p trips turn s
  | .remeasure p => Sys2Proof.Machine.execRemeasure p s
  | .fdlProp m => Sys2Proof.Machine.execProp m s
  | .nodeLost star node => Sys2Proof.Machine.execNodeLost star node s
  | .payloadGuardTimeout idx => Sys2Proof.Machine.execPayloadGuardTimeout idx s
  | .bar0Access off size data => Sys2Proof.Machine.execBar0Access off size data s
  | .doorbell b word v => Sys2Proof.Machine.execDoorbell b word v s
  | .ringEnable r => Sys2Proof.Machine.execRingEnable r s
  | .ringDisable r => Sys2Proof.Machine.execRingDisable r s
  | .descriptorFetch r clk f => Sys2Proof.Machine.execDescriptorFetch r clk f s
  | .canTxDone c sof => Sys2Proof.Machine.execCanTxDone c sof s
  | .canTxStale c onBus => Sys2Proof.Machine.execCanTxStale c onBus s
  | .canRx c x => Sys2Proof.Machine.execCanRx c x s
  | .canErrorState c st tec rec => Sys2Proof.Machine.execCanErrorState c st tec rec s
  | .recover c => Sys2Proof.Machine.execRecover c s
  | .canGuardTimeout c f => Sys2Proof.Machine.execCanGuardTimeout c f s
  | .interruptPresent t => Sys2Proof.Machine.execInterruptPresent t s
  | .interruptAccept t ic clk => Sys2Proof.Machine.execInterruptAccept t ic clk s
  | .intcDone t src => Sys2Proof.Machine.execDone t src s
  | .swset mask => Sys2Proof.Machine.execSwset mask s
  | .sourceConfigWrite src v => Sys2Proof.Machine.execSourceConfigWrite src v s
  | .taskStart p k prio mode autoclr => Sys2Proof.Machine.execStart p k prio mode autoclr s
  | .taskStop p k ic => Sys2Proof.Machine.execStop p k ic s
  | .taskSet p k => Sys2Proof.Machine.execSet p k s
  | .taskClear p k => Sys2Proof.Machine.execClear p k s
  | .taskWait p mode autoclr ic => Sys2Proof.Machine.execWait p mode autoclr ic s
  | .taskYield p ic => Sys2Proof.Machine.execYield p ic s
  | .taskSwitch p ic => Sys2Proof.Machine.execSwitch p ic s
  | .taskPrio p k prio => Sys2Proof.Machine.execPrio p k prio s
  | .taskSpill p => Sys2Proof.Machine.execTaskSpill p s
  | .taskRefill p ecc => Sys2Proof.Machine.execTaskRefill p ecc s
  | .tskEnable p => Sys2Proof.Machine.execTskEnable p s
  | .fltReadbackCheck p n => Sys2Proof.Machine.execFltReadbackCheck p n s
  | .logRpWrite v => Sys2Proof.Machine.execLogRpWrite v s
  | .reactWrite v => Sys2Proof.Machine.execReactWrite v s
  | .leeLimitWrite v => Sys2Proof.Machine.execLeeLimitWrite v s
  | .bootSelect bcb0 bcb1 slotA slotB lcBad slots drs ctr cut => Sys2Proof.Machine.execBootSelect bcb0 bcb1 slotA slotB lcBad slots drs ctr cut s
  | .imageLoad c flashOk => Sys2Proof.Machine.execImageLoad c flashOk s
  | .engineLoad c report => Sys2Proof.Machine.execEngineLoad c report s
  | .sealedLoad c unwrapOk tagOk report plain => Sys2Proof.Machine.execSealedLoad c unwrapOk tagOk report plain s
  | .scheduleLoad c => Sys2Proof.Machine.execScheduleLoad c s
  | .lifecycle c => Sys2Proof.Machine.execLifecycle c s
  | .keys c => Sys2Proof.Machine.execKeys c s
  | .debugToken c => Sys2Proof.Machine.execDebug c s
  | .grantToken c => Sys2Proof.Machine.execGrantToken c s
  | .replayToken c unwrapOk => Sys2Proof.Machine.execReplayToken c unwrapOk s
  | .reckey c unwrapOk => Sys2Proof.Machine.execReckey c unwrapOk s
  | .confirm flashOk => Sys2Proof.Machine.execConfirm flashOk s
  | .nvRead flashOk => Sys2Proof.Machine.execNvRead flashOk s
  | .nvWrite flashOk => Sys2Proof.Machine.execNvWrite flashOk s
  | .nvErase flashOk => Sys2Proof.Machine.execNvErase flashOk s
  | .almEnable b => Sys2Proof.Machine.execAlmEnable b s
  | .dumpRecord bad => Sys2Proof.Machine.execDumpRecord bad s
  | .replayCheck x => Sys2Proof.Machine.execReplayCheck x s
  | .idleEntry wfi => Sys2Proof.Machine.execIdleEntry wfi s
  | .sleepEntry wfi pins => Sys2Proof.Machine.execSleepEntry wfi pins s
  | .deepSleepEntry wfi pins => Sys2Proof.Machine.execDeepSleepEntry wfi pins s
  | .offEntry wfi pins => Sys2Proof.Machine.execOffEntry wfi pins s
  | .sleepWake pins => Sys2Proof.Machine.execSleepWake pins s
  | .powerUp pins again => Sys2Proof.Machine.execPowerUp pins again s
  | .powerGood rstN splitN bad => Sys2Proof.Machine.execPowerGood rstN splitN bad s
  | .logicBist ok => Sys2Proof.Machine.execLogicBist ok s
  | .supplyALost a b => Sys2Proof.Machine.execSupplyALost a b s
  | .supplyBLost a b => Sys2Proof.Machine.execSupplyBLost a b s
  | .supplyUv a b => Sys2Proof.Machine.execSupplyUv a b s
  | .supplyOv a b => Sys2Proof.Machine.execSupplyOv a b s
  | .supplyOvEnd a b => Sys2Proof.Machine.execSupplyOvEnd a b s
  | .domainPowerDown d wfi => Sys2Proof.Machine.execDomainPowerDown d wfi s
  | .domainOff d => Sys2Proof.Machine.execDomainOff d s
  | .domainPowerUp d => Sys2Proof.Machine.execDomainPowerUp d s
  | .domainOn d => Sys2Proof.Machine.execDomainOn d s
  | .domainFail d => Sys2Proof.Machine.execDomainFail d s
  | .voteWrite m r v => Sys2Proof.Machine.execVoteWrite m r v s
  | .pointChange v => Sys2Proof.Machine.execPointChange v s
  | .wdtKick v => Sys2Proof.Machine.execWdtKick v s
  | .registerWrite m a size data ecc => Sys2Proof.Machine.execRegisterWrite m a size data ecc s
  | .powerOnReset wake => Sys2Proof.Machine.execPowerOnReset wake s
  | .supplyReturn a b => Sys2Proof.Machine.execSupplyReturn a b s
  | .tripRelease t active => Sys2Proof.Machine.execTripRelease t active s
  | .pcieLinkUp speed width bme => Sys2Proof.Machine.execPcieLinkUp speed width bme s
  | .resetRelease splitN => Sys2Proof.Machine.execResetRelease splitN s
  | .debugResume p => Sys2Proof.Machine.execDebugResume p s
  | .debugStep p => Sys2Proof.Machine.execDebugStep p s
  | .debugWrite p t v => Sys2Proof.Machine.execDebugWrite p t v s
  | .boundaryScan idx => Sys2Proof.Machine.execBoundaryScan idx s
  | .frameTick => Sys2Proof.Machine.execFrameTick s
  | .slewEnd => Sys2Proof.Machine.execSlewEnd s
  | .ctLoad => Sys2Proof.Machine.execCtLoad s
  | .oscFallback => Sys2Proof.Machine.execOscFallback s
  | .moveCopyDone ecc => Sys2Proof.Machine.execMoveCopyDone ecc s
  | .awaitPass => Sys2Proof.Machine.execAwaitPass s
  | .awaitDeadline => Sys2Proof.Machine.execAwaitDeadline s
  | .anvRunStart => Sys2Proof.Machine.execAnvRunStart s
  | .anvRunStop => Sys2Proof.Machine.execAnvRunStop s
  | .anvilStart => Sys2Proof.Machine.execAnvilStart s
  | .anvilStop => Sys2Proof.Machine.execAnvilStop s
  | .oholdExpiry => Sys2Proof.Machine.execOholdExpiry s
  | .p1 => Sys2Proof.Machine.execP1 s
  | .p2 => Sys2Proof.Machine.execP2 s
  | .leaseLapsed => Sys2Proof.Machine.execLeaseLapsed s
  | .lastChannel => Sys2Proof.Machine.execLastChannel s
  | .noMgrClaim => Sys2Proof.Machine.execNoMgrClaim s
  | .setStart => Sys2Proof.Machine.execSetStart s
  | .stateCopySend => Sys2Proof.Machine.execStateCopySend s
  | .copyMissed => Sys2Proof.Machine.execCopyMissed s
  | .resync => Sys2Proof.Machine.execResync s
  | .standbyOk => Sys2Proof.Machine.execStandbyOk s
  | .resyncFail => Sys2Proof.Machine.execResyncFail s
  | .syncComputation => Sys2Proof.Machine.execSyncComputation s
  | .syncLost => Sys2Proof.Machine.execSyncLost s
  | .integrateToSync => Sys2Proof.Machine.execIntegrateToSync s
  | .coldstart => Sys2Proof.Machine.execColdstart s
  | .coldstartToSync => Sys2Proof.Machine.execColdstartToSync s
  | .cancel => Sys2Proof.Machine.execCancel s
  | .proposalTimeout => Sys2Proof.Machine.execProposalTimeout s
  | .modeSplit => Sys2Proof.Machine.execModeSplit s
  | .leave => Sys2Proof.Machine.execLeave s
  | .functionLevelReset => Sys2Proof.Machine.execFunctionLevelReset s
  | .pcieLinkDown => Sys2Proof.Machine.execPcieLinkDown s
  | .hostNop => Sys2Proof.Machine.execHostNop s
  | .setInline => Sys2Proof.Machine.execSetInline s
  | .setBlock => Sys2Proof.Machine.execSetBlock s
  | .readStatus => Sys2Proof.Machine.execReadStatus s
  | .readStatusCopy ecc => Sys2Proof.Machine.execReadStatusCopy ecc s
  | .hostLoad token => Sys2Proof.Machine.execLoad token s
  | .hallmark => Sys2Proof.Machine.execHallmark s
  | .faultClear => Sys2Proof.Machine.execFaultClear s
  | .canTx => Sys2Proof.Machine.execCanTx s
  | .hostSilent => Sys2Proof.Machine.execHostSilent s
  | .leeWarn => Sys2Proof.Machine.execLeeWarn s
  | .leeExpired => Sys2Proof.Machine.execLeeExpired s
  | .fltEdge => Sys2Proof.Machine.execFltEdge s
  | .resetReaction => Sys2Proof.Machine.execResetReaction s
  | .recordClear => Sys2Proof.Machine.execRecordClear s
  | .lifecycleReset => Sys2Proof.Machine.execLifecycleReset s
  | .grantExpiry => Sys2Proof.Machine.execGrantExpiry s
  | .trngFail => Sys2Proof.Machine.execTrngFail s
  | .submit => Sys2Proof.Machine.execSubmit s
  | .trig => Sys2Proof.Machine.execTrig s
  | .almFreeze => Sys2Proof.Machine.execAlmFreeze s
  | .release => Sys2Proof.Machine.execRelease s
  | .dump => Sys2Proof.Machine.execDump s
  | .seal => Sys2Proof.Machine.execSeal s
  | .replayEnd => Sys2Proof.Machine.execReplayEnd s
  | .wakeTimer => Sys2Proof.Machine.execWakeTimer s
  | .railTimeout => Sys2Proof.Machine.execRailTimeout s
  | .railRetry => Sys2Proof.Machine.execRailRetry s
  | .referenceLock => Sys2Proof.Machine.execReferenceLock s
  | .oscStart => Sys2Proof.Machine.execOscStart s
  | .brownout => Sys2Proof.Machine.execBrownout s
  | .dvfsDone => Sys2Proof.Machine.execDvfsDone s
  | .dvfsFail => Sys2Proof.Machine.execDvfsFail s
  | .wdtHalf => Sys2Proof.Machine.execWdtHalf s
  | .wdtExpired => Sys2Proof.Machine.execWdtExpired s
  | .swrst => Sys2Proof.Machine.execSwrst s
  | .pinReset => Sys2Proof.Machine.execPinReset s
  | .debugReset => Sys2Proof.Machine.execDebugReset s
  | .bulkSent => Sys2Proof.Machine.execBulkSent s

end Sys2Proof.Machine
end

