-- ==== Sys2Proof/Machine/Pins.lean ====
section
/-! DEFINITION. What each output pin drives (R170, R185, R188, R200, R203, R214, R216, R419, R420, R553). -/
namespace Sys2Proof.Machine

/-- The output pins of the ball map (R551); k counts the seven direct pins of an axis. -/
inductive Pin where
  | pwm (n : Fin 4) (k : Fin 7) | genA (n : Fin 8) | genB (n : Fin 8) | fltP | fltN | maintN
  | soH (m : Fin 4) | soL (m : Fin 4) | glDn (n : Fin 8) | fbCk (n : Fin 8) | exc | sdCk (k : Fin 4) | ssup (k : Fin 4)
  | canTx (c : Fin 2) | ospiCs | ospiRst | fdlTx (p : Fin 6) | seamTx (n : Fin 2) | pcieTx
deriving DecidableEq, Repr

/-- What a pin does: high impedance or released; a logic level; a switch, driver or supply off, a line idle; one that is on, or sends. -/
inductive Level where
  | highZ | low | high | off | idle | on
deriving DecidableEq, Repr

/-- Only VAON has power: from the removal of the rails to power good (R518, R521, R533; log entry 2617). -/
def State.unpowered (s : State) : Bool :=
  s.pwr.mode = .off || s.pwr.mode = .deepSleep || s.pwr.mode = .starting || s.pwr.mode = .waiting

/-- The switched domain that a pin belongs to (R523, R553). -/
def Pin.domain : Pin → Option Nat
  | .pwm _ _ | .genA _ | .genB _ | .soH _ | .soL _ | .glDn _ => some pdOUT
  | .fbCk _ | .exc => some pdFBK
  | .sdCk _ | .ssup _ => some pdANA
  | .canTx _ | .pcieTx => some pdHIF
  | .fdlTx _ | .seamTx _ => some pdNET
  | .fltP | .fltN | .maintN | .ospiCs | .ospiRst => none

def levelOf (b : Bool) : Level := if b then .high else .low

/-- FBn_CK idles high; in an SSI transfer from T0 on it is low and high by turns for HALF ticks each, until its last rising
edge (R170). -/
def State.fbCkHigh (s : State) (n : Nat) : Bool :=
  match (s.fbc n).ssiAt with
  | none => true
  | some t =>
    let k := (s.ctTicks - t) / s.rd (Reg.FBK_Cn_SSI_HALF n)
    decide (s.ctTicks < t) || decide (2 * s.ssiM n - 1 ≤ k) || decide (k % 2 = 1)

/-- SDCKk is high for the first half of each of its periods (R185; log entry 804). -/
def State.sdCkHigh (s : State) (k : Nat) : Bool :=
  let div := max 1 (s.rd (Reg.ADC_SDCKk_DIV k))
  let p := SMap.get 0 s.adc.sdCk k
  s.on (Reg.ADC_SDCKk_EN k) && decide (p ≤ s.time.clk) && decide ((s.time.clk - p) % div < div / 2)

/-- The state of a pin (R553). -/
def State.pin (s : State) (p : Pin) : Level :=
  let up := ! s.unpowered
  match p with
  | .pwm n k => match (s.pins n).getD k none with
    | some b => levelOf b
    | none => .highZ
  | .genA n => levelOf (s.genA n)
  | .genB n => levelOf (s.genB n)
  | .fltP => levelOf (s.runs && s.on Reg.FCU_STAT_FLT_P)
  | .fltN => levelOf (s.runs && s.on Reg.FCU_STAT_FLT_N)
  | .maintN => if s.maintN then .highZ else .low
  | .soH m => if up && (s.soSwitches m).1 then .on else .off
  | .soL m => if up && (s.soSwitches m).2 then .on else .off
  | .glDn n => if ! up then .highZ else if s.live pdOUT && s.glen n then .on else .off
  | .fbCk n => if ! up then .highZ else levelOf (! s.live pdFBK || s.fbCkHigh n)
  | .exc => if s.live pdFBK && s.on Reg.FBK_CTRL_EXC_EN then .on else .highZ
  | .sdCk k => if ! up then .highZ else levelOf (s.live pdANA && s.sdCkHigh k)
  | .ssup k => if s.ssupOn k then .on else .off
  | .canTx c => if ! up then .highZ else if s.live pdHIF && s.canOn c then .on else .high
  | .ospiCs => if up then .high else .highZ
  | .ospiRst => if ! up then .highZ else levelOf (decide (4000 ≤ s.time.clk) || decide (4 ≤ s.pwr.cause))
  | .fdlTx p => if ! up then .off else if s.live pdNET && s.on Reg.FDL_CTRL_EN && s.pclass p ≠ 0 then .on else .idle
  | .seamTx n =>
    if ! up then .off else if s.live pdNET && s.on (if n = 0 then Reg.SEAM_PORT_S0_EN else Reg.SEAM_PORT_S1_EN) then .on else .idle
  | .pcieTx => if ! up then .off else if s.live pdHIF && s.on Reg.HIF_STAT_LINK_UP then .on else .idle

end Sys2Proof.Machine
end

