-- ==== Sys2Proof/Safety.lean ====
section
/-! DEFINITION. What counts as a safe state of the block, in the terms the statements use. -/
namespace Sys2Proof.Machine

/-- Memory is in its canonical form: addresses strictly rising, no byte equal to what an unlisted address reads as. -/
abbrev Memory.wf (m : List Host.Cell) : Bool := SMap.wf (0 : Byte) m

/-- The register file is in its canonical form. -/
abbrev Regs.wf (r : SMap Nat) : Bool := SMap.wf (0 : Nat) r

/-- Both stores are canonical. -/
def State.storesWf (s : State) : Bool := Regs.wf s.regs && Memory.wf s.mem

/-- The command completes: it answers a next state, of which P holds. -/
def Completes (c : Instr) (s : State) (P : State → Prop) : Prop := ∃ t, exec c s = .next t ∧ P t

/-- No consequence of a command is waiting to be raised, as between commands. -/
abbrev State.calm (s : State) : Prop := s.fcu.todo = []

/-- No consequence waits, and neither the named sources nor a missed event or a dropped one have a reaction beyond Interrupt. -/
abbrev State.mild (s : State) (codes : List Nat) : Prop :=
  s.calm ∧ ∀ c ∈ Fc.IRQ_MISSED :: Fc.EVENT_DROP :: codes, s.reactOf c = .none ∨ s.reactOf c = .interrupt

/-- An interrupt source is pending (INTC_PENDk, R382). -/
def State.pends (s : State) (src : Nat) : Bool := s.bit (Reg.INTC_PENDk (src / 32)) (src % 32)

/-- The next entry of the frame program is e and issues as opcode op, with PD_ANV on (R57, R59). -/
abbrev State.atEntry (s : State) (op e : Nat) : Prop :=
  s.live pdANV = true ∧ s.nextEntry = some e ∧ s.issuesAs e = op

/-- The state on the issue clock of entry e, with its slip and a corrected error counted (R53, R59, R60). -/
def State.issued (s : State) (e : Nat) (ecc : Ecc) : State :=
  (slip e (anvTo (s.issueAt e) s)).when (ecc = .corrected) anvCorr

/-- The register fields that raising a fault or an interrupt event may write: of the rings (R367, R368), the pending and missed
bits (R382), the fault unit's pins, counts, record and log (R418, R419, R422, R426), the Almanac's trigger (R502), the role and
the claim (R287, R304). -/
def Fld.ofFaults (f : Fld) : Bool :=
  (match f.key / 0x80000 with
  | 0x400C => decide (f.key = Reg.HIF_DROP_EVENT.key) || (List.range 16).any fun r =>
      [(Reg.HIF_Rr_IDX_PI r).key, (Reg.HIF_Rr_STAT_COUNT r).key, (Reg.HIF_Rr_STAT_PHASE r).key,
        (Reg.HIF_Rr_IRQ_ARM r).key].contains f.key
  | 0x400E => (List.range 8).any fun k => [(Reg.INTC_PENDk k).key, (Reg.INTC_MISSk k).key].contains f.key
  | 0x4010 => [Reg.FCU_STAT_FLT_P, Reg.FCU_STAT_FLT_N, Reg.FCU_LEESTAT_ENTRIES, Reg.FCU_REC_CODE, Reg.FCU_REC_CLASS,
      Reg.FCU_REC_VALID, Reg.FCU_REC_REACT, Reg.FCU_REC_COUNT, Reg.FCU_REC2_CLASSES, Reg.FCU_REC2_MASTER, Reg.FCU_REC2_ACC,
      Reg.FCU_REC_ADDR, Reg.FCU_REC_FN, Reg.FCU_REC_CTL, Reg.FCU_REC_CTH, Reg.FCU_LOGWP_WP, Reg.FCU_LOGWP_WRAPS,
      Reg.FCU_LOGRP_RP, Reg.FCU_LOGRP_UNREAD].any (fun g => decide (g.key = f.key)) || decide ((Reg.FCU_LOGi 0).key ≤ f.key)
  | 0x4011 => [Reg.ALM_STAT_STATE, Reg.ALM_STAT_MISSED, Reg.ALM_STAT_NTRIG, Reg.ALM_TRFN, Reg.ALM_TRSRC_SRC,
      Reg.ALM_TRSRC_CODE].any fun g => decide (g.key = f.key)
  | _ => false) || decide (f.key = Reg.SEAM_STAT_ROLE.key) || decide (f.key = Reg.SEAM_CLAIM_CLAIM.key)

/-- `t` is `s` but for what raising faults and interrupt events does: the registers of `Fld.ofFaults`, the fault unit,
the Almanac, the device state (never to or from REPLAY; from ACTIVE to LEE, or to SAFE with a request for every axis), the
role (in STANDBY to OBSERVER, or with SAFE to OFFLINE) with the claim it drops, a due reset, the legs of the safe pattern,
and, while device events are enabled, the event ring. Faults held, pending bits and safe-state requests of `s` stand in `t`. -/
structure OnlyFaults (s t : State) : Prop where
  rd : ∀ f, Fld.ofFaults f = false → t.rd f = s.rd f
  dev : t.dev = { s.dev with state := t.dev.state, resetDue := t.dev.resetDue }
  replay : t.dev.state = .replay ↔ s.dev.state = .replay
  state : t.dev.state = s.dev.state ∨ (t.dev.state = .lee ∧ s.dev.state = .active) ∨
    (t.dev.state = .safe ∧ ∀ n, n < 8 → tb t.fcu.supReq n = true)
  role : t.role = s.role ∨ (t.dev.state = .safe ∧ t.role = roleOFFLINE) ∨ (s.dev.state = .standby ∧ t.role = roleOBSERVER)
  claim : t.rd Reg.SEAM_CLAIM_CLAIM = s.rd Reg.SEAM_CLAIM_CLAIM ∨
    (t.rd Reg.SEAM_CLAIM_CLAIM = 0 ∧ (t.role = roleOFFLINE ∨ t.role = roleOBSERVER))
  out : ∀ n, t.o n = { s.o n with legA := (t.o n).legA, legB := (t.o n).legB, legC := (t.o n).legC }
  hif : t.hif = { s.hif with hostMem := t.hif.hostMem, lastMsg := t.hif.lastMsg, pba := t.hif.pba }
  evten : t.on Reg.HIF_CFG_EVTEN = s.on Reg.HIF_CFG_EVTEN
  quiet : s.on Reg.HIF_CFG_EVTEN = false → t.mem = s.mem ∧ t.hif = s.hif
  held : ∀ c, s.isHeld c = true → t.isHeld c = true
  pend : ∀ k n, s.bit (Reg.INTC_PENDk k) n = true → n < 32 → k < 8 → t.bit (Reg.INTC_PENDk k) n = true
  request : ∀ n, n < 8 → tb s.fcu.supReq n = true → tb t.fcu.supReq n = true
  time : t.time = s.time
  anv : t.anv = s.anv
  eng : t.eng = s.eng
  cec : t.cec = s.cec
  com : t.com = s.com
  fb : t.fb = s.fb
  adc : t.adc = s.adc
  so : t.so = s.so
  axs : t.axs = s.axs
  pair : t.pair = s.pair
  chk : t.chk = s.chk
  intc : t.intc = s.intc
  tsk : t.tsk = s.tsk
  can : t.can = s.can
  seam : t.seam = s.seam
  fdl : t.fdl = s.fdl
  sec : t.sec = s.sec
  pwr : t.pwr = s.pwr
  fresh : t.fresh = s.fresh
  pending : t.pending = s.pending

/-- `t` is the effect `x` once the consequences that wait in `x` are raised: `x` itself where none waits. -/
def Settled (x t : State) : Prop := OnlyFaults x t ∧ (x.calm → t = x)

/-- The commands that execute the instruction of each opcode on engine n (R102, R103). -/
def engineCmds (n : Fin 8) (x : EngEcc) : List (Nat × Instr) :=
  [(0x00, .engNop n x), (0x01, .engEnd n x), (0x02, .engMov n x), (0x03, .engLdk n x), (0x04, .engAsh n x),
    (0x10, .engAdd n x), (0x11, .engSub n x), (0x12, .engNeg n x), (0x13, .engAbs n x), (0x14, .engMuld n x),
    (0x15, .engMulc n x), (0x16, .engAxpy n x), (0x20, .engAclr n x), (0x21, .engMacc n x), (0x22, .engMacd n x),
    (0x23, .engMsud n x), (0x24, .engAcst n x), (0x25, .engAcsm n x), (0x30, .engMin n x), (0x31, .engMax n x),
    (0x32, .engClmp n x), (0x33, .engSel n x), (0x38, .engAnd n x), (0x39, .engOr n x), (0x3A, .engXor n x),
    (0x40, .engClarke n x), (0x41, .engPark n x), (0x42, .engIpark n x), (0x43, .engSincos n x), (0x44, .engLut1 n x),
    (0x45, .engLut2 n x), (0x46, .engIntg n x), (0x47, .engRlim n x), (0x48, .engBiq n x), (0x49, .engFir n x),
    (0x4A, .engFcst n x)]

/-- The valid word at the program counter of engine n, whose run is in progress, with its domain on, has opcode op. -/
abbrev State.atWord (s : State) (n op : Nat) : Prop :=
  s.live (engDomain n) = true ∧ s.engLive n = true ∧ validWord (s.e n).word = true ∧ ewOp (s.e n).word = op

/-- What one instruction does to its engine: its cycles, the data words it writes with their values, where two entries name one
word the first of them, the accumulators, and what it sets. -/
structure EngEffect where
  cycles : Nat := 1
  writes : List (Nat × Int) := []
  accs : Nat → Int
  sat : Bool := false
  fcst : Bool := false
  ended : Bool := false

/-- Engine e' is e after an instruction of effect x: the words it writes, the accumulators, SAT, the Forecast flag and END, the
program counter one on, the cycles counted, and nothing else (R97, R98, R100, R110). -/
def EngEffect.leaves (x : EngEffect) (e e' : EngSt) : Prop :=
  (∀ a, e'.m a = match x.writes.find? fun p => p.1 % 16384 = a % 16384 with
    | some p => p.2
    | none => e.m a) ∧
  e' = { e with data := e'.data, acc0 := x.accs 0, acc1 := x.accs 1, acc2 := x.accs 2, acc3 := x.accs 3,
                sat := e.sat || x.sat, fcst := e.fcst || x.fcst, ended := x.ended, pc := e.pc + 1,
                cycles := e.cycles + x.cycles }

/-- The container is nested in the booted image (R452). -/
def CrucSrc.isNested : CrucSrc → Bool
  | .nested _ => true
  | .ring _ | .window _ | .hallmark _ => false

/-- The parts of the state that a report (a completion, a verdict, an event) never changes. -/
def State.besideReport (s : State) :=
  (s.time, s.eng, s.cec, s.anv, s.fb, s.com, s.adc, s.so, s.axs, s.pair, s.chk, s.intc, s.tsk, s.can, s.seam, s.fdl, s.pwr, s.fresh)

/-- A completion of command d stands in its completion ring, where that ring is open with room in s (R367). -/
def Completed (d : Cmd) (st : Nat) (late : Bool) (res : List Nat) (s t : State) : Prop :=
  let cr := s.rd (Reg.HIF_Rr_CFG_CRING d.ring)
  s.ringOpen cr rkCOMPLETION = true → s.ringFree cr ≠ 0 →
    t.rd (Reg.HIF_Rr_IDX_PI cr) = (s.rd (Reg.HIF_Rr_IDX_PI cr) + 1) % s.ringSize cr % 4096 ∧
    (s.on Reg.HIF_CFG_EVTEN = false → t.mem = (complete d st late res s).mem ∧
      t.hif.hostMem = (complete d st late res s).hif.hostMem)

/-- The container came through the token window (R459). -/
def CrucSrc.isWindow : CrucSrc → Bool
  | .window _ => true
  | .ring _ | .nested _ | .hallmark _ => false

/-- The container came as a LOAD of a ring (R359). -/
def CrucSrc.isRing : CrucSrc → Bool
  | .ring _ => true
  | .window _ | .nested _ | .hallmark _ => false

/-- Crucible has given its verdict on container c from src in state u, which leads to t (R447, R459): SEC_LAST, the queue, the
interrupt, the status of the window or the completion of the LOAD, the bar of a split device (R491), and nothing else but what
raising does. -/
def Verdict (src : CrucSrc) (c : Container) (code check : Nat) (u t : State) : Prop :=
  let unit := if c.malformed = false ∧ (c.type = ctENGINE ∨ c.type = ctSEALED ∨ c.type = ctSCHEDULE) then c.target % 8 else 0
  let word := code + check * 2 ^ 8 + unit * 2 ^ 16
  let fault := if c.type = ctTOKEN then Fc.TOKEN_REFUSED else Fc.LOAD_REFUSED
  let bars := src.isNested = true ∧ c.type = ctSEALED ∧ code = 0x0C ∧ check = 0x26
  let frees := src.isRing = true ∧ c.type = ctENGINE ∧ code = 0
  let bar := if bars then putBit u.sec.sealBar c.target true else if frees then putBit u.sec.sealBar c.target false
    else u.sec.sealBar
  t.rd Reg.SEC_LAST = word ∧ t.sec = { u.sec with queue := u.sec.queue.drop 1, sched := none, accepted := none, sealBar := bar } ∧
  (bars → t.bit Reg.CEC_STAT_LOADED c.target = false) ∧
  t.on Reg.SEC_STAT_BUSY = (u.sec.queue.drop 1).any isContainer ∧ t.pends 225 = true ∧ t.besideReport = u.besideReport ∧
  t.lc = u.lc ∧ t.rd Reg.SEC_STAT_DBG = u.rd Reg.SEC_STAT_DBG ∧
  (code ≠ 0 → u.calm → SMap.get 0 t.fcu.count fault = min (SMap.get 0 u.fcu.count fault + 1) 255) ∧
  (∀ d, src = .ring d → Completed d (if code = 0 then stOK else stREFUSED) d.late [word] u t) ∧
  (src.isWindow = true → t.rd Reg.DBG_STAT_CODE = code ∧ t.on Reg.DBG_STAT_BUSY = false) ∧
  ∀ f, Fld.ofFaults f = false → f.key / 0x80000 ≠ 0x400C → f.key / 0x80000 ≠ 0x4012 → f.key / 0x80000 ≠ 0x4013 →
    (bars → f.key ≠ Reg.CEC_STAT_LOADED.key) → t.rd f = u.rd f

/-- The container in process is c from src, of the given step, outside REPLAY, whole, and passes every check of R444 before its
content (R444, R448); Crucible serves, no mailbox command of its clock is ahead of it, and the DMA read it (R376, R437, R461). -/
abbrev State.passes (s : State) (step : Nat) (src : CrucSrc) (c : Container) : Prop :=
  s.crucUp = true ∧ s.dev.state ≠ .replay ∧ s.sec.queue.head? = some src ∧ isContainer src = true ∧ s.sec.sched = none ∧
    s.mboxAhead src = false ∧ (∀ d, src = .ring d → c.dmaOk = true ∨ s.loc d.ring = 1) ∧ c.step = step ∧
    17104 + c.len ≤ s.handed src ∧ s.verify (pathTakes src c) c = 0

end Sys2Proof.Machine
end

