-- ==== Sys2Proof/Certificates/Slice0/Obligations.lean ====
section
/-! DEFINITION. The statements for the provers. -/
open Sys2Proof Sys2Proof.Machine

/-- Out of reset in Run: SLEW_END moves the exact remainder into OFS, clears the remainder and SLEWING and makes source
218 pending; OFFSET_REQUEST arms TIME_OFS_REQ when Fudorlink is off and sets SWDENY when it is on; CT_LOAD with the
Anvil stopped makes CT equal TIME_CT_SET, drops remainder and armed request, sets CT_VALID and makes 217 pending,
and is refused with LOAD_DENIED while RUN or RUNNING; TIME_READ_LATCH returns the low ticks and latches high ticks
and fraction for a master with a shadow; FRAME_CYCLE_WRITE writes an in-range value, otherwise sets WDENY, and
changes nothing once LOCK is set; OSC_FALLBACK sets ON_RC, clears REF_OK, makes 216 pending and holds OSC_FALLBACK;
a node in SYNC is LOST. (R38, R39, R40, R41, R46, R42, R336.) -/
def Obligations.TimeOffsetAndLoad : Prop :=
  (∀ s : State, s.runs = true → s.time.rem ≠ 0 → Completes .slewEnd s fun t =>
    t.time.rem = 0 ∧ t.time.ofs = s.time.ofs + BitVec.ofInt 96 s.time.rem ∧ t.on Reg.TIME_STAT_SLEWING = false ∧
    t.pends 218 = true ∧ t.time.fc = s.time.fc) ∧
  (∀ (v : Word) (s : State), s.runs = true → s.calm → s.on Reg.FDL_CTRL_EN = false →
    Completes (.offsetRequest v) s fun t =>
      t = { s.wr Reg.TIME_OFS_REQ_I v.toNat with time := { s.time with ofsArmed := true } }) ∧
  (∀ (v : Word) (s : State), s.runs = true → s.calm → s.on Reg.FDL_CTRL_EN = true →
    Completes (.offsetRequest v) s fun t => t = s.put Reg.FDL_STAT_SWDENY true) ∧
  (∀ s : State, s.runs = true → s.on Reg.ANV_CTRL_RUN = false → s.on Reg.ANV_STAT_RUNNING = false →
    Completes .ctLoad s fun t =>
      t.ct = s.ctSet % 2 ^ 96 ∧ t.time.lt = s.time.lt ∧ t.time.rem = 0 ∧ t.time.ofsArmed = false ∧
      t.time.fc.toNat = s.ctSet / 2 ^ 32 / s.frameTicks % 2 ^ 64 ∧ t.on Reg.TIME_STAT_CT_VALID = true ∧
      t.on Reg.TIME_STAT_SLEWING = false ∧ t.pends 217 = true) ∧
  (∀ s : State, s.runs = true → s.calm → (s.on Reg.ANV_CTRL_RUN || s.on Reg.ANV_STAT_RUNNING) = true →
    Completes .ctLoad s fun t => t = s.put Reg.TIME_STAT_LOAD_DENIED true) ∧
  (∀ (m : Master) (s : State), s.runs = true → s.calm → hasShadow m = true →
    Completes (.timeReadLatch m .lt) s (fun t =>
      t.dev.readData = s.time.lt.toNat / 2 ^ 32 % 2 ^ 32 ∧ t.regs = s.regs ∧ t.time.shadowCt = s.time.shadowCt ∧
      SMap.get (0, 0) t.time.shadowLt (masterCode m) = (s.time.lt.toNat / 2 ^ 64, s.time.lt.toNat % 2 ^ 32)) ∧
    Completes (.timeReadLatch m .ct) s fun t =>
      t.dev.readData = s.ct / 2 ^ 32 % 2 ^ 32 ∧ t.regs = s.regs ∧ t.time.shadowLt = s.time.shadowLt ∧
      SMap.get (0, 0) t.time.shadowCt (masterCode m) = (s.ct / 2 ^ 64, s.ct % 2 ^ 32)) ∧
  (∀ (v : Word) (s : State), s.runs = true → s.calm → s.on Reg.TIME_CTRL_LOCK = false →
    s.on Reg.ANV_STAT_RUNNING = false →
    Completes (.frameCycleWrite false v) s (fun t =>
      let x := v.toNat % 2 ^ 20
      t = if 4000 ≤ x ∧ x ≤ 1000000 then s.wr Reg.TIME_FRAME x else s.put Reg.TIME_STAT_WDENY true) ∧
    Completes (.frameCycleWrite true v) s fun t =>
      let x := v.toNat % 512
      t = if 1 ≤ x ∧ x ≤ 256 then s.wr Reg.TIME_CYCLE x else s.put Reg.TIME_STAT_WDENY true) ∧
  (∀ (b : Bool) (v : Word) (s : State), s.runs = true → s.calm → s.on Reg.TIME_CTRL_LOCK = false →
    s.on Reg.ANV_STAT_RUNNING = true → Completes (.frameCycleWrite b v) s fun t => t = s.put Reg.TIME_STAT_WDENY true) ∧
  (∀ (b : Bool) (v : Word) (s : State), s.runs = true → s.on Reg.TIME_CTRL_LOCK = true →
    Completes (.frameCycleWrite b v) s fun t => t = s) ∧
  (∀ s : State, s.on Reg.TIME_STAT_ON_RC = false → Completes .oscFallback s fun t =>
    t.on Reg.TIME_STAT_ON_RC = true ∧ t.on Reg.TIME_STAT_REF_OK = false ∧ t.pends 216 = true ∧
    t.isHeld Fc.OSC_FALLBACK = true ∧ (s.live pdNET = true → s.sstate = ssSYNC → t.sstate = ssLOST))

/-- In Run and out of reset FRAME_TICK brings the clock to the edge on which CT reaches the next frame, with the copies
that have ended, ends the frame and counts the next: in the state u that the rest of the tick works from, FC is one
more than before, FT is 0, the once-a-frame marks and the completion flags are clear and source 16 is pending; the
tick then completes with the boundary work if FC modulo CYCLE_FRAMES is 0 in u, and the frame work. (R44, R47,
R112.) -/
def Obligations.FrameTickCountsFrame : Prop :=
  ∀ s : State, s.runs = true →
    let u := countFrame (endFrame (rxDone (advance (s.edgesTo ((s.time.fc.toNat + 1) * s.frameTicks * 2 ^ 32)) s)))
    u.time.fc = s.time.fc + 1 ∧ u.time.ft = 0 ∧ u.fcu.seen = [] ∧ u.rd Reg.CEC_STAT_DONE = 0 ∧ u.pends 16 = true ∧
    Completes .frameTick s fun t =>
      t = settleAll (frameWork (decide (u.fidx = 0)) (if u.fidx = 0 then boundaryTick u else u))

/-- With PD_ANV on, when the next entry issues as the opcode and its word is correct or corrected, the entry completes
from the state u on its issue clock. SAMPLE stores the value of every slot of its group that its KIND latches in the
slot's word of the frame input buffer; CAPTURE takes the section of every channel it names, as before a REARM of its
clock, into the axes mapped to it, clearing DIR_CHG and IDX_SEEN, and with PINS the inputs, the TRIP word and CT;
MOVE queues its copy when the queue has room and waits when it has none; RUN starts each engine of its mask, lets it
wait for a queued copy into its data memory, each with SKIP 0, or sets DONE and SKIP for one that is fenced or not
loaded; AWAIT passes when the engines of its mask are DONE and, with MOVQ, no copy is queued, and else holds the
table; EXCHANGE with DIR 0 fills the slot's transmit buffer from BUF, with DIR 1 starts the copy of the accepted
payload, cut to its length, into BUF, which ends 4 clocks and one for 4 words later, and with NET 1 copies the
declared-state region on the lease holder; RECORD appends its words to the snapshot. Each moves the table on past
it, but an AWAIT that holds. Nothing changes but this, what issuing changes in u, and what raising faults changes.
(R57, R59, R61, R62, R63, R65, R66, R67, R71, R161, R184, R301.) -/
def Obligations.AnvilDataEntries : Prop :=
  ∀ (e : Nat) (ecc : Ecc) (s : State), ecc ≠ .uncorrectable → let u := s.issued e ecc
  (s.atEntry opSAMPLE e → Completes (.anvSample ecc) s fun t =>
    OnlyFaults (nextPtr (sample (enGroup e) (enKind e) u)) t ∧ t.anv.ptr = u.anv.ptr + 1 ∧
    tb t.adc.gdefer (enGroup e) = false ∧
    ∀ k < 8, u.on (Reg.ADC_Gg_Sk_EN (enGroup e) k) = true →
      enKind e ≠ (if u.on (Reg.ADC_Gg_Sk_SD (enGroup e) k) = true then 0 else 1) →
      SMap.get 0 t.anv.fib (256 + 8 * enGroup e + k) = u.slotValue (enGroup e) k % 2 ^ 32) ∧
  (∀ gpi : Word, s.atEntry opCAPTURE e → Completes (.anvCapture ecc gpi) s fun t =>
    OnlyFaults (nextPtr (((u.each (bitsOf 8 (enFbMask e)) fun n => beforeRearm n (fbCapture n)).when (enPins e) fun v =>
      setFibs 384 [gpi.toNat, v.tripWord, v.ctTicks] { v with adc := { v.adc with gpi := gpi.toNat } }).when
      (enDcl e) comCapture)) t ∧ t.anv.ptr = u.anv.ptr + 1 ∧
    (∀ n < 8, tb (enFbMask e) n = true → (t.fbc n).dirChg = false ∧ (t.fbc n).idxSeen = false ∧
      let v := if (u.fbc n).rearmAt = some u.time.clk then unRearm n u else u
      ∀ a < 8, u.axChan a = n → ∀ i < 8,
        SMap.get 0 t.anv.fib (32 * a + 16 + i) = (v.fbWords n).getD i 0 % 2 ^ 32) ∧
    (enPins e = true → SMap.get 0 t.anv.fib 384 = gpi.toNat ∧ SMap.get 0 t.anv.fib 385 = u.tripWord % 2 ^ 32 ∧
      SMap.get 0 t.anv.fib 386 = u.ctTicks % 2 ^ 32)) ∧
  (s.atEntry opMOVE e → (anvTo (s.issueAt e) s).anv.moveQ.length < 16 →
    Completes (.anvMove ecc) s (OnlyFaults (nextPtr { u with anv := { u.anv with moveQ :=
      u.anv.moveQ ++ [{ src := enSrc e, dst := enDst e, len := enMoveLen e, issued := u.time.clk }] } }))) ∧
  (s.atEntry opMOVE e → 16 ≤ (anvTo (s.issueAt e) s).anv.moveQ.length → Completes (.anvMove ecc) s fun t => t = s) ∧
  (s.atEntry opRUN e → Completes (.anvRun ecc) s fun t =>
    OnlyFaults (nextPtr (u.each (bitsOf 8 (enEngMask e)) fun n v =>
      if (v.anv.moveQ.any (·.writes n) && v.bit Reg.CEC_STAT_LOADED n && ! v.bit Reg.CEC_STAT_FENCED n) = true then
        ({ v with anv := { v.anv with runWait := v.anv.runWait ++ [(n, enEntry e)] } } : State).put (Reg.CEC_En_FRAME_SKIP n) false
      else engStart n (enEntry e) v)) t ∧ t.anv.ptr = u.anv.ptr + 1 ∧
    ∀ n < 8, tb (enEngMask e) n = true →
      if u.bit Reg.CEC_STAT_FENCED n = true ∨ u.bit Reg.CEC_STAT_LOADED n = false then
        t.bit Reg.CEC_STAT_DONE n = true ∧ t.bit Reg.CEC_FLAG_SKIP n = true ∧ t.e n = u.e n
      else t.on (Reg.CEC_En_FRAME_SKIP n) = false ∧
        if u.anv.moveQ.any (·.writes n) = true then (n, enEntry e) ∈ t.anv.runWait ∧ t.e n = u.e n
        else t.bit Reg.CEC_STAT_BUSY n = true ∧ (t.e n).pc = enEntry e ∧ (t.e n).data = (u.e n).data ∧
          (t.e n).acc0 = 0 ∧ (t.e n).acc1 = 0 ∧ (t.e n).acc2 = 0 ∧ (t.e n).acc3 = 0) ∧
  (s.atEntry opAWAIT e → Completes (.anvAwait ecc) s (OnlyFaults (
    if ((List.range 8).all fun n => ! tb (enEngMask e) n || u.bit Reg.CEC_STAT_DONE n) = true ∧ (enMovq e = false ∨ u.anv.moveQ = []) then
      nextPtr u
    else { u with anv := { u.anv with hold := true, freeClk := u.time.ft + 1 } }))) ∧
  (∀ src : WordEcc, s.atEntry opEXCHANGE e → enNet e = false → enDir e = false → Completes (.anvExchangeTx ecc src) s (OnlyFaults (nextPtr
    (fillSlot (enSlot e) (advance (4 + (enXLen e + 3) / 4) u).ctTicks (getWords u.mem (enBuf e) (enXLen e)) u)))) ∧
  (s.atEntry opEXCHANGE e → enNet e = false → enDir e = true → Completes (.anvExchangeRx ecc) s
    (OnlyFaults (nextPtr (match u.slotPayload (enSlot e) with
      | none => u
      | some ws => { u with anv := { u.anv with rxq := u.anv.rxq ++
          [{ ends := u.time.clk + 4 + ceilDiv (min (enXLen e) ws.length) 4, dst := enBuf e, words := ws.take (enXLen e) }] } })))) ∧
  (∀ src : WordEcc, s.atEntry opEXCHANGE e → enNet e = true → Completes (.anvExchangeSeam ecc src) s (OnlyFaults (nextPtr
    (if u.iHold = true then { u with seam := { u.seam with
        txCn := u.cn, txBuf := getWords u.mem (u.rd Reg.SEAM_TX * 1024) (u.copyBytes / 4)
        txEnd := u.time.clk + 4 + ceilDiv (u.copyBytes / 4) 4, snapNow := some false } }
     else u)))) ∧
  (s.atEntry opRECORD e → Completes (.anvRecord ecc) s (OnlyFaults (nextPtr { u with anv := { u.anv with
    snapshot := u.anv.snapshot ++ (List.range (enRecLen e)).map (fun i => SMap.get 0 u.anv.fib ((enSrc e - fibBase) / 4 + i)) } })))

/-- With PD_ANV on, when the next entry issues as the opcode and its word is correct or corrected, the entry completes
from the state u on its issue clock. CHECK queues a mark with its CPID, the pair's signature and the IC in each pair
it names that is in service, neither in a resync nor stalled, within LAG_MAX and not marked at that IC; PUBLISH
queues the copy of engine words behind the FN and flag word when the queue has room and waits when it has none;
LAUNCH is dropped for a DISABLED axis, and for another one raises LAUNCH_LATE within its lead and LAUNCH_ALIGN off
the carrier and otherwise commits the block, discarding pending blocks at or after its instant, unless two stand
before it (PEND_FULL); SIGNAL sets the flag and the interrupt event it names; MODE in the last frame of a cycle arms
the wanted switch; NOP only moves the table on (a LAUNCH suppressed by a second overrun also requests the safe state
of its axis); END ends the frame program. All but END move the table on past the entry. (R57, R68, R69, R70, R72,
R73, R74, R76, R80, R81, R132, R199.) -/
def Obligations.AnvilOutputEntries : Prop :=
  ∀ (e : Nat) (ecc : Ecc) (s : State), ecc ≠ .uncorrectable → let u := s.issued e ecc
  (∀ icX icY : BitVec 64, s.atEntry opCHECK e → Completes (.anvCheck ecc icX icY) s fun t =>
    t.anv.ptr = u.anv.ptr + 1 ∧ t.eng = u.eng ∧ t.axs = u.axs ∧ t.time = u.time ∧
    ∀ p < 2, let ic := max (u.pr p).mainIc (if p = 0 then icX.toNat else icY.toNat)
      (tb (enPairs e) p = false → t.pr p = u.pr p) ∧
      (tb (enPairs e) p = true → u.pairOn p = true → (u.pr p).resync = false → (u.pr p).stalled = none →
        u.mainCan p (if p = 0 then icX.toNat else icY.toNat) = true → (u.pr p).lastMark ≠ some ic → (u.pr p).fifo.length < 16 →
        ∃ m : Mark, (t.pr p).fifo = (u.pr p).fifo ++ [m] ∧ m.ic = ic ∧ m.cpid = enCpid e ∧ m.sig = (u.pr p).sig ∧
          (t.pr p).lastMark = some ic ∧ (t.pr p).buf = (u.pr p).buf)) ∧
  (∀ corr : Bool, s.atEntry opPUBLISH e → (anvTo (s.issueAt e) s).anv.moveQ.length < 16 →
    Completes (.anvPublish ecc corr) s fun t => t.anv.ptr = u.anv.ptr + 1 ∧ t.anv.fib = u.anv.fib ∧ t.eng = u.eng ∧
      t.anv.moveQ = u.anv.moveQ ++ [{ src := engBase + enPubEng e * 2 ^ 20 + 4 * enDoff e, dst := u.statusBase + 4 * enSoff e
                                      len := enPubLen e, issued := u.time.clk, publish := some (u.publishWord (enPubEng e)), digest := true }]) ∧
  (∀ corr : Bool, s.atEntry opPUBLISH e → 16 ≤ (anvTo (s.issueAt e) s).anv.moveQ.length →
    Completes (.anvPublish ecc corr) s fun t => t = s) ∧
  (∀ corr : Bool, s.atEntry opLAUNCH e → Completes (.anvLaunch ecc corr) s fun t =>
    let n := enAxis e
    let b := u.engWords (enLEng e) (enDoff e) 8
    let at' := u.time.fc.toNat * u.frameTicks + enApply e
    let late := u.edgesTo (at' * 2 ^ 32) < launchLead (enTgt e)
    let keep := (u.o n).pend.filter fun p => p.1 < at'
    t.anv.ptr = u.anv.ptr + 1 ∧ (∀ m, m ≠ n → (t.o m).pend = (u.o m).pend) ∧
    if u.dev.state = .replay ∨ u.ax n = axDISABLED then (t.o n).pend = (u.o n).pend
    else (late → t.isHeld Fc.LAUNCH_LATE = true) ∧
      (u.onCarrier n at' = false → t.on (Reg.COM_An_STAT_ALIGN n) = true ∧ t.isHeld (Fc.LAUNCH_ALIGN n) = true) ∧
      (late ∨ u.onCarrier n at' = false → (t.o n).pend = (u.o n).pend) ∧
      (¬ late → u.onCarrier n at' = true → if 2 ≤ keep.length then
          (t.o n).pend = keep ∧ t.on (Reg.OUT_An_STAT_PFULL n) = true ∧ t.isHeld (Fc.PEND_FULL n) = true
        else (t.o n).pend = keep ++ [(at', padTo 7 b ++ [enTgt e])])) ∧
  (s.atEntry opSIGNAL e → Completes (.anvSignal ecc) s fun t => t.anv.ptr = u.anv.ptr + 1 ∧
    (enIrq e = true → t.pends (24 + enIrqSel e) = true) ∧
    OnlyFaults (nextPtr (((u.when (tb (enTu e) 0) (tskSignal 0 (enTask e) (enFlag e))).when (tb (enTu e) 1)
      (tskSignal 1 (enTask e) (enFlag e))).when (enIrq e) (irq (24 + enIrqSel e)))) t) ∧
  (s.atEntry opMODE e → Completes (.anvMode ecc) s fun t => t.anv.ptr = u.anv.ptr + 1 ∧
    match u.wanted with
    | some m => if u.fidx + 1 = u.cycleFrames then
        t.on Reg.ANV_STAT_ARMED = true ∧ t.rd Reg.ANV_STAT_ARMED_MODE = m % 8 ∧ t.anv.modeReq = none ∧ t.fdl.agreed = none
      else OnlyFaults (nextPtr u) t
    | none => OnlyFaults (nextPtr u) t) ∧
  (s.atEntry opNOP e → Completes (.anvNop ecc) s fun t => t.anv.ptr = u.anv.ptr + 1 ∧
    if (u.acts e && enOp e = opLAUNCH && u.anv.ovrNow && u.overranBefore) = true ∧ u.dev.state ≠ .replay then
      tb t.fcu.supReq (enAxis e) = true
    else OnlyFaults (nextPtr u) t) ∧
  (∀ inTime : Bool, s.atEntry opEND e → Completes (.anvEnd ecc inTime) s fun t =>
    t.anv.endReached = true ∧ t.anv.ptr = u.anv.ptr ∧ t.eng = u.eng ∧ t.axs = u.axs ∧ t.time = u.time)

/-- With PD_ANV on: a start request sets RUN and withdraws a stop; a stop request clears RUN when the Anvil does not
run, clears it and asks for the stop with every axis DISABLED or SAFE, and is ignored otherwise; ANVIL_START at the
boundary tick, with RUN at 1 since before it, outside BOOT and ASSAY, CT_VALID and the start mode VALID, sets
RUNNING with that mode and entry 0; ANVIL_STOP after END clears RUNNING and ARMED; MODE_REQUEST is taken standalone
without Fudorlink and else sets MODE_REQ_REFUSED; SCRUB_READ reads the next entry on the first clock on which no
entry has issued or issues and none was read, counts a corrected error, and an uncorrectable one clears VALID of the
modes that hold the entry and overruns the frame if the running mode holds it; a queued copy ends at its clock with
its words written; a holding AWAIT passes when its condition holds and at its deadline stops its engines and
overruns the frame. Whatever opcode it has, when the next entry shows an uncorrectable error its command does not
perform it: VALID of the active mode clears, ANV_ECC_ADDR names the entry, the frame overruns (OVR, launches off,
source 19, FRAME_OVERRUN and ECC_UNCORR held) and the table moves on. (R53, R63, R66, R75, R76, R77, R79, R80.) -/
def Obligations.AnvilRunStopAndErrors : Prop :=
  ((∀ s : State, s.live pdANV = true → s.calm → Completes .anvRunStart s fun t =>
    t = { s.put Reg.ANV_CTRL_RUN true with anv := { s.anv with stopReq := false } }) ∧
  (∀ s : State, s.live pdANV = true → s.calm → Completes .anvRunStop s fun t =>
    t = if s.on Reg.ANV_STAT_RUNNING = false then s.put Reg.ANV_CTRL_RUN false
      else if ((List.range 8).all fun n => decide (s.ax n = axDISABLED ∨ s.ax n = axSAFE)) = true then
        { s.put Reg.ANV_CTRL_RUN false with anv := { s.anv with stopReq := true } }
      else s) ∧
  (∀ s : State, s.live pdANV = true → s.on Reg.ANV_CTRL_RUN = true → s.on Reg.ANV_STAT_RUNNING = false →
    s.dev.state ≠ .boot → s.dev.state ≠ .assay → s.modeValid (s.rd Reg.ANV_CTRL_START_MODE) = true →
    s.on Reg.TIME_STAT_CT_VALID = true → s.anv.runSeen = true → s.time.ft = 0 → s.fidx = 0 → Completes .anvilStart s fun t =>
    t.on Reg.ANV_STAT_RUNNING = true ∧ t.rd Reg.ANV_STAT_MODE = s.rd Reg.ANV_CTRL_START_MODE ∧ t.anv.ptr = 0 ∧
    t.anv.endReached = false ∧ t.anv.ovrHist = s.anv.ovrHist ∧ t.anv.stopReq = false ∧ t.eng = s.eng ∧ t.axs = s.axs) ∧
  (∀ s : State, s.live pdANV = true → s.calm → s.on Reg.ANV_STAT_RUNNING = true → s.anv.stopReq = true →
    s.anv.endReached = true → Completes .anvilStop s fun t =>
      t = { (s.put Reg.ANV_STAT_RUNNING false).put Reg.ANV_STAT_ARMED false with anv := { s.anv with stopReq := false } }) ∧
  (∀ (m : Fin 8) (s : State), s.live pdANV = true → s.calm → Completes (.modeRequest m) s fun t =>
    t = if (s.on Reg.ANV_CTRL_STANDALONE && ! s.on Reg.FDL_CTRL_EN) = true then
        { s.wr Reg.ANV_MODE_REQ_MODE m with anv := { s.anv with modeReq := some m.val } }
      else s.put Reg.ANV_STAT_MODE_REQ_REFUSED true) ∧
  (∀ s : State, s.live pdANV = true → s.on Reg.ANV_SCRUB = true →
    (∀ e, s.nextEntry = some e → s.scrubAt < s.issueAt e) → s.inFrame (s.time.clk + (s.scrubAt - s.time.ft)) = true →
    let u := anvTo s.scrubAt s
    (u.calm → Completes (.scrubRead .ok) s (fun t =>
      t = { u with anv := { u.anv with scrub := (s.anv.scrub + 1) % 8192, scrubFree := u.time.clk + 1 } })) ∧
    s.time.ft ≤ s.scrubAt ∧ (s.on Reg.ANV_STAT_RUNNING = true → s.anv.freeClk ≤ s.scrubAt) ∧
    Completes (.scrubRead .corrected) s (fun t => t.anv.scrub = (s.anv.scrub + 1) % 8192 ∧
      t.on Reg.ANV_STAT_ECC_CORR = true ∧ t.anv.table = s.anv.table) ∧
    Completes (.scrubRead .uncorrectable) s fun t => t.anv.scrub = (s.anv.scrub + 1) % 8192 ∧
      t.rd Reg.ANV_ECC_ADDR = s.anv.scrub % 2 ^ 13 ∧
      ∀ m < 8, s.rd (Reg.ANV_MODEn_BASE m) ≤ s.anv.scrub →
        s.anv.scrub ≤ s.rd (Reg.ANV_MODEn_BASE m) + s.rd (Reg.ANV_MODEn_LENM1 m) →
        t.bit Reg.ANV_STAT_VALID m = false ∧
        (m = s.rd Reg.ANV_STAT_MODE → s.on Reg.ANV_STAT_RUNNING = true →
          t.on Reg.ANV_STAT_OVR = true ∧ t.anv.launchOff = true ∧ t.pends 19 = true ∧ t.isHeld Fc.FRAME_OVERRUN = true ∧
          t.isHeld Fc.ECC_UNCORR = true)) ∧
  (∀ (x : WordEcc) (s : State) (m : Move) (ms : List Move), s.live pdANV = true → s.anv.moveQ = m :: ms →
    Completes (.moveCopyDone x) s fun t =>
      let v := rxDone (advance (s.moveEnd m - s.time.clk) s)
      let ws := match m.publish with
        | some w => w :: v.engWords ((m.src - engBase) / 2 ^ 20) ((m.src - engBase) % 2 ^ 20 / 4) m.len
        | none => (List.range m.len).map fun i => v.anvRead (m.src + 4 * i)
      let a := if m.publish.isSome = true then m.dst - 4 else m.dst
      t.anv.moveQ = ms ∧ t.anv.moveFree = v.time.clk ∧ t.time = v.time ∧
      (∀ n, engSpan a (4 * ws.length) = some n → ∀ i < ws.length,
        SMap.get 0 (t.e n).data ((a - engBase) % 2 ^ 20 / 4 + i) = ws.getD i 0) ∧
      (engSpan a (4 * ws.length) = none → s.on Reg.HIF_CFG_EVTEN = false → t.mem = putWords v.mem a ws)) ∧
  (∀ (s : State) (e : Nat), s.live pdANV = true → s.holding = some e →
    let u := anvTo (max s.time.ft s.anv.freeClk) s
    u.awaitDone e = true → max s.time.ft s.anv.freeClk ≤ s.failAt e →
    Completes .awaitPass s (OnlyFaults (nextPtr { u with anv := { u.anv with hold := false } }))) ∧
  ∀ (s : State) (e : Nat), s.live pdANV = true → s.holding = some e →
    let u := anvTo (s.failAt e) s
    (u.awaitDone e = false ∨ s.failAt e < s.time.ft) →
    Completes .awaitDeadline s fun t => t.anv.hold = false ∧ t.anv.ptr = u.anv.ptr + 1 ∧
      t.on Reg.ANV_STAT_OVR = true ∧ t.anv.launchOff = true ∧ t.pends 19 = true ∧ t.isHeld Fc.FRAME_OVERRUN = true ∧
      ∀ n < 8, tb (enEngMask e) n = true → u.bit Reg.CEC_STAT_DONE n = false →
        if u.anv.runWait.any (fun r => r.1 = n) = true then t.anv.runWait.any (fun r => r.1 = n) = false
        else t.bit Reg.CEC_STAT_BUSY n = false) ∧
  (∀ (e : Nat) (icX icY : BitVec 64) (gpi : Word) (b : Bool) (x : WordEcc) (s : State) (c : Instr), s.live pdANV = true →
    s.nextEntry = some e →
    c ∈ [.anvNop .uncorrectable, .anvSample .uncorrectable, .anvCapture .uncorrectable gpi, .anvMove .uncorrectable,
      .anvRun .uncorrectable, .anvAwait .uncorrectable, .anvExchangeTx .uncorrectable x, .anvExchangeRx .uncorrectable,
      .anvExchangeSeam .uncorrectable x, .anvCheck .uncorrectable icX icY, .anvPublish .uncorrectable b,
      .anvLaunch .uncorrectable b, .anvRecord .uncorrectable, .anvSignal .uncorrectable, .anvMode .uncorrectable,
      .anvEnd .uncorrectable b] →
    Completes c s fun t =>
      let u := anvTo (s.issueAt e) s
      t.on Reg.ANV_STAT_OVR = true ∧ t.anv.launchOff = true ∧ t.anv.ovrNow = true ∧ t.pends 19 = true ∧
      t.isHeld Fc.FRAME_OVERRUN = true ∧ t.isHeld Fc.ECC_UNCORR = true ∧ t.anv.ptr = u.anv.ptr + 1 ∧
      t.bit Reg.ANV_STAT_VALID (u.rd Reg.ANV_STAT_MODE) = false ∧
      t.rd Reg.ANV_ECC_ADDR = (u.activeSpan.1 + u.anv.ptr) % 2 ^ 13)

/-- While engine n runs with its domain on, the command of the opcode of the valid word at its program counter
completes: the data words the rule of the instruction names take the rule's results, computed from the words before
it, the accumulators take theirs, SAT is set by a saturation that QUIET does not mask, the program counter moves one
on, the cycles of R102 and R103 are counted, and nothing else of the block changes. FIR has its results for 1 to 64
taps and FCST for a filter within the limits of R115; both retire for every other word of their coefficients too. A
corrected error is also counted in CEC_ECC and raised, and holds no result back. A command whose opcode does not
stand there changes nothing. (R96, R97, R98, R99, R100, R102, R103, R104, R105, R106, R107, R108.) -/
def Obligations.EngineInstructionsRetire : Prop :=
  let sat := fun (x : Int) => max (-2147483648) (min 2147483647 x)
  let lost := fun (x : Int) => decide (sat x ≠ x)
  let scaled := fun (p h : Int) => if h > 0 then (p + 2 ^ (h.toNat - 1)) / 2 ^ h.toNat else p * 2 ^ (-h).toNat
  let hold := fun (x : Int) => max (-(2 ^ 79)) (min (2 ^ 79 - 1) x)
  let round30 := fun (p : Int) => (p + 536870912) / 1073741824
  let clamp := fun (x lo hi : Int) => min (max x lo) hi
  let low : Int → Nat := fun x => (x % 2 ^ 32).toNat
  let cordic := fun (z : Int) => (List.range 30).foldl (fun (r : Int × Int × Int) i =>
    let d : Int := if 0 ≤ r.2.2 then 1 else -1
    (r.1 - d * (r.2.1 / 2 ^ i), r.2.1 + d * (r.1 / 2 ^ i), r.2.2 - d * atanTable.getD i 0)) (652032874, 0, z)
  let index := fun (u : Int) (p : Nat) (pts : Int) => clamp (u / 2 ^ p) 0 (pts - 2)
  let mix := fun (y0 y1 f : Int) (p : Nat) => y0 + ((y1 - y0) * f + (if 0 < p then 2 ^ (p - 1) else 0)) / 2 ^ p
  let effects := fun (n : Fin 8) (x : EngEcc) (e : EngSt) =>
    let w := e.word
    let k := ewK w
    let d := ewD w
    let a := ewA w
    let b := ewB w
    let keep := e.acc
    let loud := ! e.quiet k
    let lanesOf := fun (r : Nat → Int) => ({ writes := (List.range (ewMd w + 1)).map fun i => (d + i, sat (r i)), accs := keep
                                             sat := (List.range (ewMd w + 1)).any fun i => lost (r i) } : EngEffect)
    let one := fun (r : Int) (q : Bool) => ({ writes := [(d, sat r)], accs := keep, sat := lost r && q } : EngEffect)
    let two := fun (cyc : Nat) (r q : Int) =>
      ({ cycles := cyc, writes := [(d, sat r), (d + 1, sat q)], accs := keep, sat := lost r || lost q } : EngEffect)
    let adds := fun (r : Nat → Int) =>
      ({ accs := fun i => if i ≤ ewMd w then hold (keep i + r i) else keep i
         sat := (List.range (ewMd w + 1)).any fun i => decide (hold (keep i + r i) ≠ keep i + r i) } : EngEffect)
    let gain := scaled (e.m a * e.v k) (e.sh k)
    let q : Nat := (low (e.m a) + 2 ^ 29) / 2 ^ 30 % 4
    let rot := cordic (sext 32 ((((low (e.m a) : Int) - q * 2 ^ 30) % 2 ^ 32).toNat))
    let cosSin := if q = 0 then (rot.1, rot.2.1) else if q = 1 then (-rot.2.1, rot.1)
      else if q = 2 then (-rot.1, -rot.2.1) else (rot.2.1, -rot.1)
    let lut : Int → Nat → Int → (Nat → Int) → Int := fun u p pts y =>
      mix (y (index u p pts).toNat) (y ((index u p pts).toNat + 1)) (clamp (u - index u p pts * 2 ^ p) 0 (2 ^ p)) p
    let biq := scaled (e.v k * e.m a + e.v (k + 1) * e.m d + e.v (k + 2) * e.m (d + 1) - e.v (k + 3) * e.m (d + 2) -
      e.v (k + 4) * e.m (d + 3)) (e.sh k)
    let taps := (e.v k).toNat
    let old := fun (j : Nat) => if j = 0 then e.m a else e.m (d + j - 1)
    let fir := scaled ((List.range taps).foldl (fun z j => z + e.v (k + 1 + j) * old j) 0) (e.sh k)
    let limit := e.v (k + 3)
    let from' := if e.m d < 0 ∨ limit < e.m d then limit else e.m d
    let count := if e.v k < ((e.m a - e.m b).natAbs : Int) then min (from' + e.v (k + 1)) limit else max (from' - e.v (k + 2)) 0
    ([(.engNop n x, 0x00, { accs := keep }), (.engEnd n x, 0x01, { cycles := 2, accs := keep, ended := true }),
      (.engMov n x, 0x02, lanesOf fun i => e.m (a + i)), (.engLdk n x, 0x03, one (e.v k) true),
      (.engAsh n x, 0x04, one (scaled (e.m a) (e.sh k)) loud),
      (.engAdd n x, 0x10, lanesOf fun i => e.m (a + i) + e.m (b + i)),
      (.engSub n x, 0x11, lanesOf fun i => e.m (a + i) - e.m (b + i)),
      (.engNeg n x, 0x12, one (- e.m a) true), (.engAbs n x, 0x13, one (e.m a).natAbs true),
      (.engMuld n x, 0x14, one (scaled (e.m a * e.m b) (e.sh k)) loud), (.engMulc n x, 0x15, one gain loud),
      (.engAxpy n x, 0x16, { writes := [(d, sat (e.m b + sat gain))], accs := keep
                             sat := (lost gain || lost (e.m b + sat gain)) && loud }),
      (.engAclr n x, 0x20, { accs := fun i => if i ≤ ewMd w then 0 else keep i }),
      (.engMacc n x, 0x21, adds fun i => e.m (a + i) * e.v (k + i)),
      (.engMacd n x, 0x22, adds fun i => e.m (a + i) * e.m (b + i)),
      (.engMsud n x, 0x23, adds fun i => -(e.m (a + i) * e.m (b + i))),
      (.engAcst n x, 0x24, { lanesOf (fun i => scaled (keep i) (e.sh k)) with
                             sat := (lanesOf fun i => scaled (keep i) (e.sh k)).sat && loud }),
      (.engAcsm n x, 0x25, { one (scaled (keep 0 + keep 1 + keep 2 + keep 3) (e.sh k)) loud with cycles := 2 }),
      (.engMin n x, 0x30, lanesOf fun i => min (e.m (a + i)) (e.m (b + i))),
      (.engMax n x, 0x31, lanesOf fun i => max (e.m (a + i)) (e.m (b + i))),
      (.engClmp n x, 0x32, one (clamp (e.m a) (e.m b) (e.m (b + 1))) true),
      (.engSel n x, 0x33, one (if (if ewMd w = 0 then 0 ≤ e.m d else if ewMd w = 1 then 0 < e.m d
        else if ewMd w = 2 then e.m d = 0 else e.m d < 0) then e.m a else e.m b) true),
      (.engAnd n x, 0x38, one (sext 32 (low (e.m a) &&& low (e.m b))) true),
      (.engOr n x, 0x39, one (sext 32 (low (e.m a) ||| low (e.m b))) true),
      (.engXor n x, 0x3A, one (sext 32 (low (e.m a) ^^^ low (e.m b))) true),
      (.engClarke n x, 0x40, if ewMd w = 0 then two 3 (e.m a) (round30 ((e.m a + 2 * e.m (a + 1)) * 619925131))
        else two 3 (round30 ((2 * e.m a - e.m (a + 1) - e.m (a + 2)) * 357913941))
          (round30 ((e.m (a + 1) - e.m (a + 2)) * 619925131))),
      (.engPark n x, 0x41, two 2 (round30 (e.m a * e.m (b + 1) + e.m (a + 1) * e.m b))
        (round30 (e.m (a + 1) * e.m (b + 1) - e.m a * e.m b))),
      (.engIpark n x, 0x42, two 2 (round30 (e.m a * e.m (b + 1) - e.m (a + 1) * e.m b))
        (round30 (e.m a * e.m b + e.m (a + 1) * e.m (b + 1)))),
      (.engSincos n x, 0x43, two 16 (clamp cosSin.2 (-(2 ^ 30)) (2 ^ 30)) (clamp cosSin.1 (-(2 ^ 30)) (2 ^ 30))),
      (.engLut1 n x, 0x44, { one (lut (e.m a - e.v k) (e.sh k).toNat (e.v (k + 1)).toNat fun i => e.v (k + 2 + i)) true with
                             cycles := 6 }),
      (.engLut2 n x, 0x45,
        let nx : Nat := low (e.v (k + 2)) % 2 ^ 16
        let px := (e.sh k).toNat
        let row : Nat → Int := fun j => lut (e.m a - e.v k) px nx fun i => e.v (k + 3 + j * nx + i)
        { one (lut (e.m (a + 1) - e.v (k + 1)) (e.sh (k + 1)).toNat (low (e.v (k + 2)) / 2 ^ 16 : Nat) row) true with
          cycles := 10 }),
      (.engIntg n x, 0x46, { cycles := 2, writes := [(d, clamp (sat (e.m d + sat gain)) (e.m b) (e.m (b + 1)))], accs := keep
                             sat := (lost gain || lost (e.m d + sat gain)) && loud }),
      (.engRlim n x, 0x47, { one (e.m d + clamp (e.m a - e.m d) (-(min ((e.v k).natAbs : Int) 2147483647)) (min ((e.v k).natAbs : Int) 2147483647)) true with
                             cycles := 2 }),
      (.engBiq n x, 0x48, { cycles := 3, accs := keep, sat := lost biq && loud
                            writes := [(d, e.m a), (d + 1, e.m d), (d + 2, sat biq), (d + 3, e.m (d + 2)), (b, sat biq)] }),
      (.engFir n x, 0x49, { cycles := 2 + (taps + 3) / 4, accs := keep, sat := lost fir && loud
                            writes := (List.range (taps - 1)).map (fun j => (d + j, old j)) ++ [(b, sat fir)] }),
      (.engFcst n x, 0x4A, { cycles := 3, writes := [(d, count)], accs := keep, fcst := decide (count = limit) })] :
      List (Instr × Nat × EngEffect))
  (∀ (n : Fin 8) (x : EngEcc) (s : State), (x = .ok ∨ ∃ i j, x = .corrected i j) → s.calm →
    ∀ p ∈ effects n x (s.e n), s.atWord n p.2.1 → Completes p.1 s fun t => ∃ e' : EngSt,
      e'.pc = (s.e n).pc + 1 ∧
      ((p.2.1 = 0x49 → 1 ≤ (s.e n).v (ewK (s.e n).word) ∧ (s.e n).v (ewK (s.e n).word) ≤ 64) →
        (p.2.1 = 0x4A → ∀ i < 4, ([0, 1, 0, 1] : List Int).getD i 0 ≤ (s.e n).v (ewK (s.e n).word + i) ∧
          (s.e n).v (ewK (s.e n).word + i) ≤ ([2147483647, 65535, 65535, 1048576] : List Int).getD i 0) →
        p.2.2.leaves (s.e n) e') ∧
      (x = .ok → t = s.setE n e') ∧
      (x ≠ .ok → OnlyFaults ((s.setE n e').inc Reg.CEC_ECC_CORR_CNT) t)) ∧
  ∀ (n : Fin 8) (x : EngEcc) (s : State), s.calm → ∀ p ∈ engineCmds n x, ¬ s.atWord n p.1 → Completes p.2 s fun t => t = s

/-- For a valid word at the program counter of a running engine the data words D to D + L - 1 take the results of R102
(L lanes for lane instructions, one word for the others), each lane computed from the words before the instruction,
with two's-complement saturation to 32 bits; every other data word, the coefficients and the accumulators are
unchanged; SAT is set if one result saturated and QUIET does not mask it. ACLR clears, MACC, MACD and MSUD add or
subtract one exact product in each of their lanes, held in 80 bits with SAT set when a bound holds it, and leave the
other accumulators and all data words as they were; ACST writes each lane's accumulator scaled and saturated, and
ACSM the sum of the four. (R96, R97, R99, R100, R102, R98.) -/
def Obligations.EngineArithmeticResults : Prop :=
  (let sat := fun (x : Int) => max (-2147483648) (min 2147483647 x)
  let lane := fun (r : EngSt → Nat → Nat → Int) (f : EngSt → Nat → EngSt) => ∀ (e : EngSt) (w : Nat),
    let t := f e w
    (∀ i < ewLanes w, t.m (ewD w + i) = sat (r e w i)) ∧
    (∀ a, (∀ i < ewLanes w, a % 16384 ≠ (ewD w + i) % 16384) → t.m a = e.m a) ∧
    t.coef = e.coef ∧ (∀ j, t.acc j = e.acc j) ∧
    t.sat = (e.sat || (List.range (ewLanes w)).any fun i => sat (r e w i) ≠ r e w i)
  let one := fun (r : EngSt → Nat → Int) (q : Bool) (f : EngSt → Nat → EngSt) => ∀ (e : EngSt) (w : Nat),
    let t := f e w
    t.m (ewD w) = sat (r e w) ∧ (∀ a, a % 16384 ≠ ewD w % 16384 → t.m a = e.m a) ∧ t.coef = e.coef ∧
    (∀ j, t.acc j = e.acc j) ∧ t.sat = (e.sat || (decide (sat (r e w) ≠ r e w) && ! (q && e.quiet (ewK w))))
  let scaled := fun (p s : Int) => if s > 0 then (p + 2 ^ (s.toNat - 1)) / 2 ^ s.toNat else p * 2 ^ (-s).toNat
  lane (fun e w i => e.m (ewA w + i) + e.m (ewB w + i)) engADD ∧
  lane (fun e w i => e.m (ewA w + i) - e.m (ewB w + i)) engSUB ∧
  lane (fun e w i => min (e.m (ewA w + i)) (e.m (ewB w + i))) engMIN ∧
  lane (fun e w i => max (e.m (ewA w + i)) (e.m (ewB w + i))) engMAX ∧
  lane (fun e w i => e.m (ewA w + i)) engMOV ∧
  one (fun e w => - e.m (ewA w)) false engNEG ∧
  one (fun e w => if e.m (ewA w) < 0 then - e.m (ewA w) else e.m (ewA w)) false engABS ∧
  one (fun e w => e.v (ewK w)) false engLDK ∧
  one (fun e w => min (max (e.m (ewA w)) (e.m (ewB w))) (e.m (ewB w + 1))) false engCLMP ∧
  one (fun e w => scaled (e.m (ewA w)) (e.sh (ewK w))) true engASH ∧
  one (fun e w => scaled (e.m (ewA w) * e.m (ewB w)) (e.sh (ewK w))) true engMULD ∧
  one (fun e w => scaled (e.m (ewA w) * e.v (ewK w)) (e.sh (ewK w))) true engMULC ∧
  one (fun e w =>
    let d := e.m (ewD w)
    let c := if ewMd w = 0 then decide (0 ≤ d) else if ewMd w = 1 then decide (0 < d)
      else if ewMd w = 2 then decide (d = 0) else decide (d < 0)
    if c then e.m (ewA w) else e.m (ewB w)) false engSEL ∧
  ∀ (e : EngSt) (w a : Nat), a % 16384 ≠ ewD w % 16384 →
    let low : Int → Nat := fun x => (x % 2 ^ 32).toNat
    (engAND e w).m a = e.m a ∧ (engOR e w).m a = e.m a ∧ (engXOR e w).m a = e.m a ∧
    low ((engAND e w).m (ewD w)) = low (e.m (ewA w)) &&& low (e.m (ewB w)) ∧
    low ((engOR e w).m (ewD w)) = low (e.m (ewA w)) ||| low (e.m (ewB w)) ∧
    low ((engXOR e w).m (ewD w)) = low (e.m (ewA w)) ^^^ low (e.m (ewB w))) ∧
  (∀ (e : EngSt) (w : Nat),
    let hold := fun (x : Int) => max (-(2 ^ 79)) (min (2 ^ 79 - 1) x)
    let adds := fun (f : EngSt → Nat → EngSt) (p : Nat → Int) =>
      (∀ i < ewLanes w, (f e w).acc i = hold (e.acc i + p i)) ∧ (∀ i < 4, ewLanes w ≤ i → (f e w).acc i = e.acc i) ∧
      (f e w).data = e.data ∧
      (f e w).sat = (e.sat || (List.range (ewLanes w)).any fun i => hold (e.acc i + p i) ≠ e.acc i + p i)
    adds engMACC (fun i => e.m (ewA w + i) * e.v (ewK w + i)) ∧
    adds engMACD (fun i => e.m (ewA w + i) * e.m (ewB w + i)) ∧
    adds engMSUD (fun i => -(e.m (ewA w + i) * e.m (ewB w + i))) ∧
    (∀ i < ewLanes w, (engACLR e w).acc i = 0) ∧ (∀ i < 4, ewLanes w ≤ i → (engACLR e w).acc i = e.acc i) ∧
    (engACLR e w).data = e.data ∧ (engACLR e w).sat = e.sat ∧
    (∀ i < ewLanes w, (engACST e w).m (ewD w + i) = (scale (e.acc i) (e.sh (ewK w))).1) ∧
    (engACSM e w).m (ewD w) = (scale (e.acc 0 + e.acc 1 + e.acc 2 + e.acc 3) (e.sh (ewK w))).1 ∧
    (∀ i < 4, (engACST e w).acc i = e.acc i ∧ (engACSM e w).acc i = e.acc i))

/-- An uncorrectable error met by any instruction, and an invalid word, halt a running engine at that instruction
without results: BUSY stays, the cycles and the frame of the run stand in CEC_En_LAST, the fault is held, its
interrupt pending, and CEC_ECC records engine, memory and word unless an error is recorded. ENGINE_COMPLETION moves
time to the clock of R110, clears BUSY, sets the completion flag, records cycles and frame, gives the frame's flags
those of the run (OVR if the engine was stopped in this frame before), makes its source pending and holds FORECAST
when its flag is new, and counts a corrected error of a traced word; no other engine changes. TRACE_RP_WRITE moves
the read pointer and changes nothing else. (R110, R112, R113, R114, R117, R123, R124, R125, R127.) -/
def Obligations.EngineErrorsAndCompletion : Prop :=
  (∀ (n : Fin 8) (k i : Nat) (s : State), ∀ p ∈ engineCmds n (.uncorrectable k i), s.atWord n p.1 → Completes p.2 s fun t =>
      t.e n = { s.e n with halted := true } ∧ (∀ m, m ≠ n.val → t.e m = s.e m) ∧ t.bit Reg.CEC_STAT_BUSY n = true ∧
      t.isHeld (Fc.ENG_ECC_UNCORR n) = true ∧ t.pends (35 + 4 * n) = true ∧ t.on Reg.CEC_ECC_UNC = true ∧
      t.rd (Reg.CEC_En_LAST_ELAPSED n) = min (s.e n).cycles 0xFFFF ∧ t.rd (Reg.CEC_En_LAST_FN n) = s.fn % 2 ^ 16 ∧
      (s.on Reg.CEC_ECC_UNC = false → t.rd Reg.CEC_ECC_ENG = n ∧ t.rd Reg.CEC_ECC_MEM = k % 4 ∧
        t.rd Reg.CEC_ECC_ADDR = i % 2 ^ 14)) ∧
  (∀ (n : Fin 8) (s : State), s.live (engDomain n) = true → s.engLive n = true → validWord (s.e n).word = false →
    Completes (.engIllegal n) s fun t =>
      t.e n = { s.e n with halted := true } ∧ (∀ m, m ≠ n.val → t.e m = s.e m) ∧ t.bit Reg.CEC_STAT_BUSY n = true ∧
      t.isHeld (Fc.ENG_ILLEGAL n) = true ∧ t.pends (35 + 4 * n) = true ∧ t.on Reg.CEC_ECC_UNC = true ∧
      t.rd (Reg.CEC_En_LAST_ELAPSED n) = min (s.e n).cycles 0xFFFF ∧ t.rd (Reg.CEC_En_LAST_FN n) = s.fn % 2 ^ 16 ∧
      (s.on Reg.CEC_ECC_UNC = false →
        t.rd Reg.CEC_ECC_ENG = n ∧ t.rd Reg.CEC_ECC_MEM = 3 ∧ t.rd Reg.CEC_ECC_ADDR = (s.e n).pc % 2048)) ∧
  (∀ (n : Fin 8) (corr : Bool) (s : State), s.live (engDomain n) = true → s.bit Reg.CEC_STAT_BUSY n = true → (s.e n).ended = true →
    Completes (.engineCompletion n corr) s fun t =>
      let u := advanceTo ((s.e n).startClk + (2 * (s.e n).cycles + 2) / 3) s
      t.time = u.time ∧ t.rd Reg.CEC_ECC_CORR_CNT = min (s.rd Reg.CEC_ECC_CORR_CNT + b2n (corr && s.bit Reg.CEC_CTRL_TREN n)) (2 ^ 16 - 1) ∧
      t.bit Reg.CEC_STAT_BUSY n = false ∧ t.bit Reg.CEC_STAT_DONE n = true ∧ t.pends (32 + 4 * n) = true ∧
      t.e n = { s.e n with ended := false, fcstPrev := (s.e n).fcst, doneFc := some u.time.fc.toNat } ∧
      t.rd (Reg.CEC_En_LAST_ELAPSED n) = min (s.e n).cycles 0xFFFF ∧ t.rd (Reg.CEC_En_LAST_FN n) = u.fn % 2 ^ 16 ∧
      t.on (Reg.CEC_En_FRAME_SAT n) = (s.e n).sat ∧ t.on (Reg.CEC_En_FRAME_FCST n) = (s.e n).fcst ∧
      t.on (Reg.CEC_En_FRAME_OVR n) = decide ((s.e n).stopFc = some u.time.fc.toNat) ∧
      ((s.e n).fcst = true → t.bit Reg.CEC_FLAG_FCST n = true ∧ t.pends (33 + 4 * n) = true) ∧
      ((s.e n).fcst = true → (s.e n).fcstPrev = false → t.isHeld (Fc.FORECAST n) = true) ∧
      ((s.e n).sat = true → t.bit Reg.CEC_FLAG_SAT n = true ∧ t.pends (34 + 4 * n) = true) ∧
      ∀ m, m ≠ n.val → t.e m = s.e m) ∧
  ∀ (v : Word) (s : State), s.runs = true → s.calm → Completes (.traceRpWrite v) s fun t =>
    t = s.wr Reg.CEC_TR_RP (v.toNat % 2 ^ 20)

/-- With PD_OUT on, SAMPLING_PLAN of a single-shunt axis sorts the off instants of the next peak's falling half (equal
instants a before b before c), computes both effective windows and their conversion instants, requests a window of
at least TMIN and counts the others as skipped; SHUNT_CONVERSION of a requested window whose turn on its ADC it is
(of the conversions due, the lower axis first) is skipped when it cannot complete before its window closes and else
stores the channel's result with its start, holds the ADC for 40 ticks and, unless it is a full-scale code, keeps
the sample; out of its turn it waits and changes nothing; SHUNT_SET_COMPLETE at the valley writes words 0 to 7 of
the set, counts predicted halves, raises SHUNT_STARVED when they reach N_PRED + 1, and is latched by a SAMPLE of its
clock. SAMPLING_PLAN and SHUNT_SET_COMPLETE change nothing else but what raising faults changes. (R134, R135, R136,
R137, R139, R140, R180.) -/
def Obligations.ShuntSampling : Prop :=
  (∀ (n : Fin 8) (s : State), s.live pdOUT = true → s.rd (Reg.COM_An_CFG_MEAS n) = 1 → Completes (.samplingPlan n) s fun t =>
    let at' := s.nextPeak n s.ctCeil
    let u := reach at' s
    let off := u.upperOff n at'
    let dt := u.rd (Reg.OUT_An_DT n)
    let settle := u.rd (Reg.COM_An_SS_SETTLE n)
    ∃ p : ShuntPlan, OnlyFaults ((skips n (b2n (! p.dueA) + b2n (! p.dueB)) u).setC n { u.c n with plan := some p }) t ∧
      p.peak = at' ∧ p.valley = at' + u.half n ∧ List.Perm [p.f, p.m, p.l] [0, 1, 2] ∧
      (off p.f < off p.m ∨ (off p.f = off p.m ∧ p.f < p.m)) ∧ (off p.m < off p.l ∨ (off p.m = off p.l ∧ p.m < p.l)) ∧
      p.wa = (off p.m : Int) - off p.f - dt ∧ p.wb = (off p.l : Int) - off p.m - dt ∧
      p.atA = off p.f + dt + settle ∧ p.atB = off p.m + dt + settle ∧
      (p.dueA = true ↔ (u.rd (Reg.COM_An_SS_TMIN n) : Int) ≤ p.wa) ∧
      (p.dueB = true ↔ (u.rd (Reg.COM_An_SS_TMIN n) : Int) ≤ p.wb) ∧
      p.closeA = off p.m ∧ p.closeB = off p.l ∧ p.sa = none ∧ p.sb = none) ∧
  (∀ (n : Fin 8) (winB : Bool) (raw : BitVec 14) (s : State) (p : ShuntPlan), s.live pdOUT = true →
    (s.c n).plan = some p → (if winB then p.dueB else p.dueA) = true →
    (s.shuntTurn n winB = false → Completes (.shuntConversion n winB raw) s fun t => t = s) ∧
    let ch := s.rd (Reg.COM_An_SS_CH n)
    let start := max (if winB then p.atB else p.atA) (s.adcFree (ch / 8))
    let code : Int := if s.adcBipolar ch then (raw.toNat : Int) - 8192 else raw.toNat
    let full := raw.toNat = 0 ∨ raw.toNat = 16383
    let took := if winB then { p with dueB := false } else { p with dueA := false }
    (s.shuntTurn n winB = true → Completes (.shuntConversion n winB raw) s fun t =>
      if (if winB then p.closeB else p.closeA) < start + 40 ∨ 47 < ch then
        OnlyFaults ((s.setC n { s.c n with plan := some took }).add (Reg.COM_An_SKIPS n) 1) t
      else t.time = (reach (start + 39) s).time ∧ t.rd (Reg.ADC_RESc_CODE ch) = trunc 16 code ∧
        t.rd (Reg.ADC_RESc_STAMP ch) = start % 65536 ∧ t.adcFree (ch / 8) = start + 40 ∧
        t.rd (Reg.COM_An_SKIPS n) = (if full then min (s.rd (Reg.COM_An_SKIPS n) + 1) (2 ^ 32 - 1)
          else s.rd (Reg.COM_An_SKIPS n)) ∧
        (t.c n).plan = some (if full then took else if winB then { took with sb := some code }
          else { took with sa := some code }))) ∧
  ∀ (n : Fin 8) (s : State) (p : ShuntPlan), s.live pdOUT = true → (s.c n).plan = some p →
    Completes (.shuntSetComplete n) s fun t =>
      let u := skips n (b2n p.dueA + b2n p.dueB) (reach p.valley s)
      let both := p.sa.isSome && p.sb.isSome
      let counts := s.ax n = axRUNNING ∨ s.ax n = axSTOPPING
      let pred := if ¬ counts ∨ both = true then 0 else min (s.rd (Reg.COM_An_STAT_PRED_RUN n) + 1) 31
      let limit := s.rd (Reg.COM_An_CFG_NPRED n) + 1
      let sa := p.sa.getD 0
      let sb := p.sb.getD 0
      let cur := fun (x : Nat) => if both = false then 0 else if x = p.f then -sa else if x = p.l then sb else sa - sb
      let w0 := b2n p.sa.isSome + 2 * b2n p.sb.isSome + 16 * orderCode p.f p.m + 2 ^ 8 * pred +
        2 ^ 15 * b2n (limit < pred) + 2 ^ 16 * (p.valley % 2 ^ 16)
      OnlyFaults (reSample (((u.wr (Reg.COM_An_STAT_PRED_RUN n) pred).put (Reg.COM_An_STAT_STARVED n) (limit < pred)).setC n
        { s.c n with plan := none, fresh := true, set := w0 :: ([cur 0, cur 1, cur 2, sa, sb, max p.wa 0, max p.wb 0].map
          (trunc 32)) })) t ∧
      (pred = limit + 1 → t.isHeld (Fc.SHUNT_STARVED n) = true)

/-- With PD_OUT on, the first waiting result of the DC-link source is stored and compared: a comparison changes state
after FILT consecutive results beyond its threshold in the direction awaited (positive full scale counts as above
every threshold); HI1 follows VDC_HI1 with HYST and, with CH_EN and the gate path enabled, commands the chopper,
whose change keeps its instant and its result; REGEN_CLAMP follows VDC_HI2 with HYST and is raised on its rise; the
upward crossing of VDC_TRIP latches TRIP, holds VDC_TRIP and, but in REPLAY, requests the safe state; no other
axis's COM state changes. VDC_LOST latches once, TOUT microseconds after the last result; the first waiting chopper-
current result, and the one check CH_TCHK after turn-on, raise CHOPPER_FAULT and CHOPPER_STUCK under the conditions
of R149, and change nothing else but what raising changes. Where no result waits, nothing changes. (R147, R148,
R149, R150, R151, R152.) -/
def Obligations.DcLinkAndChopper : Prop :=
  (∀ (n : Fin 8) (s : State), s.live pdOUT = true → (s.c n).vdcIn = [] → Completes (.dcLinkResult n) s fun t => t = s) ∧
  (∀ (n : Fin 8) (s : State) (at' : Nat) (v : Int) (rest : List (Nat × Int)), s.live pdOUT = true →
    (s.c n).vdcIn = (at', v) :: rest →
    let full := v = s.vdcFull n
    let cross := fun (above : Bool) (run : Nat) (on off : Int) =>
      if (if above then ¬ full ∧ v < off else full ∨ on ≤ v) then
        if s.rd (Reg.COM_An_VDCG_FILT n) ≤ run then (! above, 0) else (above, run + 1)
      else (above, 0)
    let hi1 := sext 16 (s.rd (Reg.COM_An_VDC1_HI1 n))
    let hi2 := sext 16 (s.rd (Reg.COM_An_VDC2_HI2 n))
    let trip := sext 16 (s.rd (Reg.COM_An_VDC2_TRIP n))
    let hyst : Int := s.rd (Reg.COM_An_VDC1_HYST n)
    let c := s.c n
    let a := cross (s.on (Reg.COM_An_STAT_HI1 n)) c.run1 hi1 (hi1 - hyst)
    let b := cross (s.on (Reg.COM_An_STAT_REGEN_CLAMP n)) c.run2 hi2 (hi2 - hyst)
    let d := cross c.above c.run3 trip trip
    let turns := a.1 ≠ s.on (Reg.COM_An_STAT_HI1 n) ∧ a.1 ≠ s.on (Reg.COM_An_STAT_CHOP_ON n) ∧
      s.on (Reg.COM_An_CHOP_CH_EN n) = true ∧
      (s.on (Reg.OUT_An_CFG_PINEN n) = true ∨ s.on (Reg.OUT_An_CFG_GLEN n) = true)
    Completes (.dcLinkResult n) s fun t =>
      t.time = s.time ∧ t.rd (Reg.COM_An_VDC_LAST n) = trunc 16 v ∧ t.on (Reg.COM_An_STAT_HI1 n) = a.1 ∧
      t.on (Reg.COM_An_STAT_REGEN_CLAMP n) = b.1 ∧
      t.c n = { c with vdcIn := rest, run1 := a.2, run2 := b.2, run3 := d.2, above := d.1, vdcAt := at',
                       chopAt := if turns then s.ctTicks else c.chopAt, chopVal := if turns then v else c.chopVal
                       chopChecked := if turns then false else c.chopChecked } ∧
      t.on (Reg.COM_An_STAT_CHOP_ON n) = (if turns then a.1 else s.on (Reg.COM_An_STAT_CHOP_ON n)) ∧
      (b.1 = true → s.on (Reg.COM_An_STAT_REGEN_CLAMP n) = false → t.pends (96 + n) = true) ∧
      (if d.1 = true ∧ c.above = false then t.on (Reg.COM_An_STAT_TRIP n) = true ∧ t.isHeld (Fc.VDC_TRIP n) = true ∧
          (s.dev.state ≠ .replay → tb t.fcu.supReq n = true)
        else t.on (Reg.COM_An_STAT_TRIP n) = s.on (Reg.COM_An_STAT_TRIP n)) ∧
      (∀ m, m ≠ n.val → t.c m = s.c m)) ∧
  (∀ (n : Fin 8) (s : State), s.live pdOUT = true → s.calm → Completes (.vdcLost n) s fun t =>
    if s.on (Reg.COM_An_STAT_VDC_LOST n) = true then t = s
    else
      let last := match (s.c n).vdcIn.getLast? with
        | some r => r.1
        | none => (s.c n).vdcAt
      OnlyFaults ((reach (last + 400 * s.rd (Reg.COM_An_VDCG_TOUT n)) s).put (Reg.COM_An_STAT_VDC_LOST n) true) t ∧
      t.isHeld (Fc.VDC_LOST n) = true) ∧
  (∀ (n : Fin 8) (s : State), s.live pdOUT = true → (s.c n).ichIn = [] →
    Completes (.chopperCurrentResult n) s fun t => t = s) ∧
  (∀ (n : Fin 8) (s : State) (at' : Nat) (v : Int) (rest : List (Nat × Int)), s.live pdOUT = true →
    (s.c n).ichIn = (at', v) :: rest → Completes (.chopperCurrentResult n) s fun t =>
      let u := (s.setC n { s.c n with ichIn := rest }).wr (Reg.COM_An_VDC_ICH n) (trunc 16 v)
      let en := s.on (Reg.COM_An_CHOP_CH_EN n)
      let on := s.on (Reg.COM_An_STAT_CHOP_ON n)
      let idly := 400 * s.rd (Reg.COM_An_CHT_IDLY n)
      let imin := sext 16 (s.rd (Reg.COM_An_CHOP_IMIN n))
      let span := at' - (s.c n).chopAt
      if s.on (Reg.COM_An_STAT_CHOP_FAULT n) = false ∧ en = true ∧ on = true ∧ idly ≤ span ∧ v < imin then
        OnlyFaults ((u.put (Reg.COM_An_STAT_CHOP_FAULT n) true).setC n { u.c n with chopSince := true }) t ∧
        t.isHeld (Fc.CHOPPER_FAULT n) = true
      else if s.on (Reg.COM_An_STAT_CHOP_STUCK n) = false ∧ en = true ∧ on = false ∧ idly < span ∧ imin ≤ v then
        OnlyFaults (u.put (Reg.COM_An_STAT_CHOP_STUCK n) true) t ∧ t.isHeld (Fc.CHOPPER_STUCK n) = true
      else OnlyFaults u t) ∧
  ∀ (n : Fin 8) (s : State), s.live pdOUT = true → s.calm → Completes (.chopperNoFallCheck n) s fun t =>
    if s.on (Reg.COM_An_CHOP_CH_EN n) = true ∧ s.on (Reg.COM_An_STAT_CHOP_ON n) = true ∧ (s.c n).chopChecked = false then
      let u := reach ((s.c n).chopAt + 400 * s.rd (Reg.COM_An_CHT_TCHK n)) s
      let v := u.setC n { s.c n with chopChecked := true }
      if s.on (Reg.COM_An_STAT_CHOP_FAULT n) = false ∧ (s.c n).chopVal ≤ sext 16 (s.rd (Reg.COM_An_VDC_LAST n)) then
        OnlyFaults ((v.put (Reg.COM_An_STAT_CHOP_FAULT n) true).setC n
          { s.c n with chopChecked := true, chopSince := true }) t ∧ t.isHeld (Fc.CHOPPER_FAULT n) = true
      else OnlyFaults v t
    else t = s

/-- With PD_ANA on: the group conversion an ADC takes next is the first in group and slot order of those due when it is
free, and none while a shunt conversion is due first; ADC_CONVERSION_DONE of its channel stores the code (bipolar
minus 8,192) and the start stamp, sets CLIP at a full-scale code, holds the ADC for 40 ticks, sets GDEFER if it
started late and its wait has not set it before and, with the last conversion of its group, makes the group's source
pending, and drops one that would start over 400 ticks after its trigger; of another channel it changes nothing.
GROUP_TRIGGER at the group's next instant replaces the group's waiting conversions by those of the enabled ADC slots
that are no shunt channel, back to back per ADC, and drops what still waited; GROUP_CONVERSION_DROP drops one whose
ADC is taken for 400 ticks after its trigger and changes nothing for another. SINC3_RESULT takes a decimation period
into the filter, discards the first three results after EN and then stores the code of R186 with its stamp; SD_STUCK
after STOUT times 16 modulator clocks without a transition, CSA_OVR and SSUP_FAULT set their bits and raise their
faults, and a faulty supply is switched off. (R180, R181, R182, R183, R185, R186, R187, R188, R193.) -/
def Obligations.AnalogConversions : Prop :=
  (∀ (a : Nat) (s : State) (w : GConv) (start : Nat), s.nextGroupConv a = some (w, start) →
    w ∈ s.adc.wait ∧ w.ch / 8 = a ∧ w.due ≤ start ∧ s.adcFree a ≤ start ∧ (∀ d ∈ s.shuntDue a, start < d.1) ∧
    ∀ x ∈ s.adc.wait, x.ch / 8 = a → start ≤ max (s.adcFree a) x.due ∧
      (x.due ≤ start → 8 * w.g + w.k ≤ 8 * x.g + x.k)) ∧
  (∀ (c : Fin 48) (raw : BitVec 14) (s : State), s.live pdANA = true →
    let code : Int := if s.adcBipolar c then (raw.toNat : Int) - 8192 else raw.toNat
    match s.nextGroupConv (c / 8) with
    | none => Completes (.adcConversionDone c raw) s fun t => t = s
    | some (w, start) =>
      (w.ch ≠ c.val → Completes (.adcConversionDone c raw) s fun t => t = s) ∧
      (w.ch = c.val → Completes (.adcConversionDone c raw) s fun t =>
        t.adc.wait = s.adc.wait.erase w ∧ (w.due < start → w.noted = false → tb t.adc.gdefer w.g = true) ∧
        if w.trig + 400 < start then t.time = (reach (w.trig + 400) s).time ∧ t.bit Reg.ADC_STAT_DROP (c / 8) = true ∧
          t.rd (Reg.ADC_RESc_CODE c) = s.rd (Reg.ADC_RESc_CODE c)
        else t.time = (reach (start + 39) s).time ∧ t.rd (Reg.ADC_RESc_CODE c) = trunc 16 code ∧
          t.rd (Reg.ADC_RESc_STAMP c) = start % 65536 ∧ t.adcFree (c / 8) = start + 40 ∧
          ((raw.toNat = 0 ∨ raw.toNat = 16383) →
            (if c.val < 32 then t.bit Reg.ADC_CLIP_L c else t.bit Reg.ADC_CLIP_H (c - 32)) = true) ∧
          (w.g < 12 → (∀ x ∈ s.adc.wait.erase w, x.g ≠ w.g) → t.pends (112 + w.g) = true))) ∧
  (∀ (g : Fin 16) (s : State), s.live pdANA = true →
      let st := s.rd (Reg.ADC_Gg_CFG_START g)
      let n := s.rd (Reg.ADC_Gg_CFG_AXC g)
      let trig := s.rd (Reg.ADC_Gg_CFG_TRIG g)
      let last := SMap.get 0 s.adc.trigd g
      let from' := if last ≤ s.ctCeil + 1 then max s.ctCeil last else s.ctCeil
      let valley := s.nextValley n (from' - st) + st
      let peak := s.nextPeak n (from' - st) + st
      let at' := if trig = 1 then s.time.fc.toNat * s.frameTicks + st else if trig = 2 then valley else min valley peak
      let slot := fun k => s.on (Reg.ADC_Gg_Sk_EN g k) && ! s.on (Reg.ADC_Gg_Sk_SD g k) &&
        decide (s.rd (Reg.ADC_Gg_Sk_SRC g k) < 48) && ! s.isShuntCh (s.rd (Reg.ADC_Gg_Sk_SRC g k))
      let ch := fun k => s.rd (Reg.ADC_Gg_Sk_SRC g k)
      let before := fun k => ((List.range k).filter fun j => slot j && ch j / 8 == ch k / 8).length
      let conv : Nat → GConv := fun k => ⟨g, k, ch k, at', at' + 40 * before k, false⟩
      let starts := ((List.range 8).filter slot).map conv
      Completes (.groupTrigger g) s fun t =>
        if trig = 0 ∨ (trig = 1 ∧ at' < from') then t = s
        else t.time = (reach at' s).time ∧ SMap.get 0 t.adc.trigd g = at' + 1 ∧
          t.adc.wait = (s.adc.wait.filter fun w : GConv => w.g ≠ g.val) ++ starts ∧
          ∀ w ∈ s.adc.wait, w.g = g.val → w.ch < 48 →
            t.bit Reg.ADC_STAT_DROP (w.ch / 8) = true ∧ (w.noted = false → tb t.adc.gdefer g = true)) ∧
  (∀ (g : Fin 16) (k : Fin 8) (s : State) (w : GConv), s.live pdANA = true → w.ch < 48 →
    s.adc.wait.find? (fun w : GConv => w.g = g.val && w.k = k.val) = some w →
    Completes (.groupConversionDrop g k) s fun t =>
      if max w.due (s.adcFree (w.ch / 8)) ≤ w.trig + 400 then t = s
      else t.time = (reach (w.trig + 400) s).time ∧ (w.noted = false → tb t.adc.gdefer g = true) ∧
        t.adc.wait = s.adc.wait.erase w ∧ t.bit Reg.ADC_STAT_DROP (w.ch / 8) = true ∧
        (s.bit Reg.ADC_STAT_DROP (w.ch / 8) = false → t.isHeld (Fc.ADC_DROP (w.ch / 8)) = true)) ∧
  (∀ (n : Fin 24) (bits' : BitVec 256) (s : State), s.live pdANA = true → s.sdRuns n = true →
    SMap.get 0 s.adc.sdEnd n ≠ 0 → Completes (.sinc3Result n bits') s fun t =>
      let e := SMap.get 0 s.adc.sdEnd n
      let u := advance (e - 1 - s.time.clk) s
      let kd := 4 + s.rd (Reg.ADC_SDn_DEC n)
      let f : SincSt := SMap.get {} s.adc.sinc n
      let r := (List.range (2 ^ kd)).foldl (fun (r : Nat × Nat × Nat) i =>
        let a := (r.1 + (bits'.getLsbD i).toNat) % 2 ^ 32
        let b := (r.2.1 + a) % 2 ^ 32
        (a, b, (r.2.2 + b) % 2 ^ 32)) (f.i1, f.i2, f.i3)
      let d1 : Nat := (r.2.2 + 2 ^ 32 - f.p1) % 2 ^ 32
      let d2 : Nat := (d1 + 2 ^ 32 - f.p2) % 2 ^ 32
      let raw : Nat := min ((d2 + 2 ^ 32 - f.p3) % 2 ^ 32) ((2 ^ kd) ^ 3)
      let x : Int := 2 * (raw : Int) - (2 ^ kd) ^ 3
      let q : Int := if kd ≤ 5 then x * 2 ^ (15 - 3 * kd) else (x + 2 ^ (3 * kd - 16)) / 2 ^ (3 * kd - 15)
      let g : SincSt := SMap.get {} t.adc.sinc n
      t.time = (advance (e + 3 - u.time.clk) u).time ∧
      (g.i1, g.i2, g.i3) = r ∧ (g.p1, g.p2, g.p3) = (r.2.2, d1, d2) ∧
      SMap.get 0 t.adc.sdEnd n = e + 2 ^ kd * s.sdDiv n ∧
      if SMap.get 0 s.adc.sdCount n < 3 then
        SMap.get 0 t.adc.sdCount n = SMap.get 0 s.adc.sdCount n + 1 ∧
        t.rd (Reg.ADC_SDRESn_CODE n) = s.rd (Reg.ADC_SDRESn_CODE n)
      else t.rd (Reg.ADC_SDRESn_CODE n) = trunc 16 (max (-32768) (min 32767 q)) ∧
        t.rd (Reg.ADC_SDRESn_STAMP n) = u.ctAgo (u.time.clk - (e - 1)) / 2 ^ 32 % 65536 ∧
        SMap.get 0 t.adc.seq (64 + n) = s.adc.seqCtr + 1) ∧
  (∀ (n : Fin 24) (more : BitVec 8) (s : State), s.live pdANA = true → s.sdRuns n = true → s.calm →
    Completes (.sdStuck n more) s fun t =>
      if 16 * s.rd (Reg.ADC_SDn_STOUT n) ≤ (SMap.get {} s.adc.sinc n : SincSt).same + more.toNat then
        OnlyFaults (s.wrBit Reg.ADC_SDSTUCK n true) t ∧ t.isHeld (Fc.SD_STUCK n) = true ∧ t.pends 125 = true
      else t = s) ∧
  (∀ (k : Fin 4) (s : State), s.live pdANA = true → s.on (Reg.ADC_CSA_EN k) = true → Completes (.csaOvr k) s fun t =>
    OnlyFaults (s.put (Reg.ADC_CSA_OVR k) true) t ∧ t.pends 127 = true) ∧
  (∀ (k : Fin 4) (s : State), s.ssupOn k = true → Completes (.ssupFault k) s fun t =>
    t.bit Reg.ADC_SSUP_FAULT k = true ∧ t.bit Reg.ADC_SSUP_PG k = false ∧ t.ssupOn k = false ∧
    t.isHeld (Fc.SSUP_FAULT k) = true ∧ t.pends 126 = true) ∧
  ∀ (c : Fin 48) (raw : BitVec 14) (n : Fin 24) (b : BitVec 256) (m : BitVec 8) (s : State), s.live pdANA = false →
    ∀ cmd ∈ [.adcConversionDone c raw, .sinc3Result n b, .sdStuck n m], Completes cmd s fun t => t = s

/-- With PD_FBK on, the raw samples of a row pass the majority filter of the last NF, which keeps its level on an even
split. A changed quadrature pair counts up or down by the table of R165 (DIRINV swaps the sign), an illegal one
leaves the count, counts ILLCNT, makes source 66 + 4n pending and holds ENC_ILLEGAL above ILL_LIM in the window; a
Hall change counts by the step modulo 6 and an invalid state sets HALL_BAD; a frozen channel does not count; an
index with LINES above 0 makes its position the reference, makes 65 + 4n pending and holds IDX_ERR when its distance
is outside 4 LINES plus or minus TOL; more than OVR_N short intervals freeze the channel, clear VALID and hold
OVERRATE, HALL_ILLEGAL and LINE_LOSS hold their faults and clear VALID. Nothing but the channel, its illegal count,
the time and what faults change is changed where no CAPTURE, REARM or frame tick of the channel falls on the clock;
a quadrature count on the REARM clock is discarded, and one on the CAPTURE clock is in the latched position. (R164,
R165, R166, R167, R168, R169, R175, R176, R179.) -/
def Obligations.FeedbackCounting : Prop :=
  let frame := fun (n : Nat) (u t : State) =>
    OnlyFaults ((u.wr (Reg.FBK_Cn_ILLCNT n) (t.rd (Reg.FBK_Cn_ILLCNT n))).setFb n (t.fbc n)) t
  let counted := fun (n : Nat) (rev : Bool) (f : FbSt) (u t : State) =>
    let d := rev != u.on (Reg.FBK_Cn_CFG_DIRINV n)
    let turned := f.stepped && (f.rev != d)
    let g := t.fbc n
    frame n u t ∧ t.rd (Reg.FBK_Cn_ILLCNT n) = u.rd (Reg.FBK_Cn_ILLCNT n) ∧
    if f.frozen then g = f
    else (g.pos : Int) = (f.pos + (if d then -1 else 1)) % 2 ^ 32 ∧ g.rev = d ∧ g.stepped = true ∧
      g.dirChg = (f.dirChg || turned) ∧ g.stamp = u.ctTicks % 2 ^ 32 ∧ (turned = true → t.pends (64 + 4 * n) = true) ∧
      (u.fbMode n = 1 → 0 < u.rd (Reg.FBK_Cn_IDX_LINES n) → f.idxRef = true → f.missing = false →
        4 * u.rd (Reg.FBK_Cn_IDX_LINES n) + u.rd (Reg.FBK_Cn_IDX_TOL n) < modDist g.pos f.idxPos →
        t.isHeld (Fc.IDX_MISSING n) = true ∧ g.valid = false ∧ g.missing = true)
  let illegal := fun (n : Nat) (f : FbSt) (u t : State) =>
    frame n u t ∧ (t.fbc n).pos = f.pos ∧ t.pends (66 + 4 * n) = true ∧
    t.rd (Reg.FBK_Cn_ILLCNT n) = min (u.rd (Reg.FBK_Cn_ILLCNT n) + 1) (2 ^ (Reg.FBK_Cn_ILLCNT n).w - 1) ∧
    (u.rd (Reg.FBK_Cn_ILL_ILL_LIM n) < 1 + (f.illHist.take (u.rd (Reg.FBK_Cn_ILL_ILL_WIN n) + 1)).sum →
      t.isHeld (Fc.ENC_ILLEGAL n) = true)
  let level := fun (n : Nat) (raw : List (BitVec 3)) (i : Nat) (old : Bool) (s : State) =>
    let nf := s.rd (Reg.FBK_Cn_CFG_NF n) + 1
    let w := (raw.take nf).map fun r : BitVec 3 => r.getLsbD i
    if nf < 2 * w.count true then true else if nf < 2 * w.count false then false else old
  let alone := fun (n : Nat) (u : State) => (u.fbc n).capAt ≠ some u.time.clk ∧ (u.fbc n).rearmAt ≠ some u.time.clk ∧
    (u.fbc n).tickAt ≠ some u.time.clk
  (∀ (n : Fin 8) (clk : Nat) (raw : List (BitVec 3)) (s : State), s.live pdFBK = true → s.fbMode n = 1 →
    let u := advance clk s
    let a := level n raw 2 (s.fbc n).a s
    let b := level n raw 1 (s.fbc n).b s
    let f := { s.fbc n with a := a, b := b }
    let table := [((false, false), (true, false)), ((true, false), (true, true)), ((true, true), (false, true)),
      ((false, true), (false, false))]
    let old := ((s.fbc n).a, (s.fbc n).b)
    (alone n u → Completes (.quadratureTransition n clk raw) s fun t =>
      if old = (a, b) then OnlyFaults (u.setFb n f) t
      else if (old, (a, b)) ∈ table then counted n false f u t
      else if ((a, b), old) ∈ table then counted n true f u t
      else illegal n f u t) ∧
    (old ≠ (a, b) → (s.fbc n).rearmAt = some u.time.clk → Completes (.quadratureTransition n clk raw) s fun t =>
      (t.fbc n).pos = 0 ∧ (t.fbc n).frozen = false) ∧
    (old ≠ (a, b) → (s.fbc n).rearmAt ≠ some u.time.clk → (s.fbc n).capAt = some u.time.clk →
      Completes (.quadratureTransition n clk raw) s fun t => ∀ k < 8, s.axChan k = n →
        SMap.get 0 t.anv.fib (32 * k + 16) = (t.fbc n).pos % 2 ^ 32)) ∧
  (∀ (n : Fin 8) (clk : Nat) (raw : List (BitVec 3)) (s : State), s.live pdFBK = true → s.fbMode n = 2 →
    alone n (advance clk s) → Completes (.hallStateChange n clk raw) s fun t =>
      let u := advance clk s
      let a := level n raw 2 (s.fbc n).a s
      let b := level n raw 1 (s.fbc n).b s
      let c := level n raw 0 (s.fbc n).z s
      let uvw := 4 * a.toNat + 2 * b.toNat + c.toNat
      let f := { s.fbc n with a := a, b := b, z := c, hallAt := u.ctTicks }
      let seq := [4, 6, 2, 3, 1, 5]
      if uvw = (s.fbc n).uvw then OnlyFaults u t
      else if uvw = 0 ∨ uvw = 7 then OnlyFaults (u.setFb n { f with hallBad := true }) t
      else
        let i := seq.findIdx (· = uvw)
        let g := { f with hallIdx := some i }
        match f.hallIdx with
        | none => OnlyFaults (u.setFb n g) t
        | some j => match (i + 6 - j) % 6 with
          | 0 => OnlyFaults (u.setFb n g) t
          | 1 => counted n false g u t
          | 5 => counted n true g u t
          | _ => illegal n g u t) ∧
  (∀ (n : Fin 8) (clk : Nat) (raw : List (BitVec 3)) (s : State), s.live pdFBK = true → s.fbMode n = 1 →
    alone n (advance clk s) → Completes (.indexAccept n clk raw) s fun t =>
    let u := advance clk s
    let a := level n raw 2 (s.fbc n).a s
    let b := level n raw 1 (s.fbc n).b s
    let z := level n raw 0 (s.fbc n).z s
    let before := level n (raw.drop 1) 0 (s.fbc n).z s
    let f := { s.fbc n with z := z }
    let d : Int := modDist f.pos f.idxPos
    let lines : Int := s.rd (Reg.FBK_Cn_IDX_LINES n)
    let tol : Int := s.rd (Reg.FBK_Cn_IDX_TOL n)
    let bad := f.idxRef && ! f.dirSince && (decide (d < 4 * lines - tol) || decide (4 * lines + tol < d))
    if before = true ∨ z = false ∨ lines = 0 ∨ (s.on (Reg.FBK_Cn_CFG_ZGATE n) = true ∧ ¬ (a = true ∧ b = true)) then
      OnlyFaults (u.setFb n f) t
    else OnlyFaults (u.setFb n { f with idxPos := f.pos, idxRef := true, idxSeen := true, missing := false, dirSince := false, valid := f.valid && ! bad }) t ∧
      t.pends (65 + 4 * n) = true ∧ (bad = true → t.isHeld (Fc.IDX_ERR n) = true)) ∧
  (∀ (n : Fin 8) (gaps : List Nat) (s : State), s.live pdFBK = true → s.fbMode n = 1 ∨ s.fbMode n = 2 → s.calm →
    Completes (.overrate n gaps) s fun t =>
      let ts := max 4 ((s.rd (Reg.FBK_Cn_CFG_NF n) + 1) / 2 + 1)
      if s.rd (Reg.FBK_Cn_ILL_OVR_N n) < gaps.countP fun g => decide (g < ts) then
        OnlyFaults (s.setFb n { s.fbc n with frozen := true, valid := false, edges := 0 }) t ∧ t.isHeld (Fc.OVERRATE n) = true
      else t = s) ∧
  (∀ (n : Fin 8) (s : State), s.live pdFBK = true → s.fbMode n = 2 → (s.fbc n).uvw = 0 ∨ (s.fbc n).uvw = 7 →
    Completes (.hallIllegal n) s fun t =>
      OnlyFaults ((reach ((s.fbc n).hallAt + 400 * s.rd (Reg.FBK_Cn_HALL n)) s).setFb n { s.fbc n with valid := false }) t ∧
      t.isHeld (Fc.HALL_ILLEGAL n) = true) ∧
  ∀ (n : Fin 8) (s : State), s.live pdFBK = true → Completes (.lineLoss n) s fun t =>
    if s.on (Reg.FBK_Cn_CFG_LOSEN n) = true then
      OnlyFaults (s.setFb n { s.fbc n with los := true, valid := false }) t ∧ t.isHeld (Fc.SIGNAL_LOST n) = true
    else t = s

/-- With PD_FBK on: an SSI transfer starts at T0, once a frame, with an offset below FRAME_TICKS and the channel
configured by then, or is invalid with a low data line; its result, binary or Gray, becomes the position with the
stamp of T0 unless the check sample, the parity or the jump limit fails, which holds the position, sets SSI_ERR and
at the NBADth failure in a row holds SSI_FAULT; a resolver sample, with PD_ANA on too, takes the next instant not
served, also one that passed while conversions held its converters (a shunt conversion due first makes it wait) and
stores both codes, the magnitude (root of the sum of squares, rounding free) and the angle (exact on the axes and
diagonals), sets AMP_BAD outside its limits, freezes beyond a quarter turn and else moves the position with the
crossed turn; REARM resets the channels whose axes are all DISABLED and denies the others; the SSI and resolver
effects are those where no CAPTURE or REARM of the channel falls on the clock; the axis map is written entry by
entry. (R167, R170, R171, R172, R173, R178, R179, R183, R190.) -/
def Obligations.SerialAndResolverFeedback : Prop :=
  let alone := fun (n : Nat) (u : State) => (u.fbc n).capAt ≠ some u.time.clk ∧ (u.fbc n).rearmAt ≠ some u.time.clk
  (∀ (n : Fin 8) (s : State), s.live pdFBK = true → s.fbMode n = 3 →
    let t0 := s.time.fc.toNat * s.frameTicks + s.rd (Reg.FBK_Cn_SSIOFS n)
    let f := { s.fbc n with ssiAt := some t0 }
    if ((s.fbc n).ssiAt.any fun l => decide (t0 ≤ l ∧ l ≤ s.ctCeil)) = true ∨ s.frameTicks ≤ s.rd (Reg.FBK_Cn_SSIOFS n) ∨
        t0 < (s.fbc n).cfgAt then
      ∀ high : Bool, Completes (.ssiTransferStart n high) s fun t => t = s
    else
      Completes (.ssiTransferStart n true) s (OnlyFaults ((reach t0 s).setFb n { f with ssiT0 := some t0 })) ∧
      (alone n (reach t0 s) → Completes (.ssiTransferStart n false) s fun t => t.time = (reach t0 s).time ∧
        t.fbc n = { f with ssiErr := true, ssiT0 := none, bad := f.bad + 1
                           valid := f.valid && decide (f.bad + 1 ≠ s.rd (Reg.FBK_Cn_SSI_NBAD n)) } ∧
        (f.bad + 1 = s.rd (Reg.FBK_Cn_SSI_NBAD n) → t.isHeld (Fc.SSI_FAULT n) = true))) ∧
  (∀ (n : Fin 8) (data : BitVec 40) (par check : Bool) (s : State), s.live pdFBK = true →
    s.fbMode n ≠ 3 ∨ (s.fbc n).ssiT0 = none → Completes (.ssiResult n data par check) s fun t => t = s) ∧
  (∀ (n : Fin 8) (data : BitVec 40) (par check : Bool) (s : State) (t0 : Nat), s.live pdFBK = true → s.fbMode n = 3 →
    (s.fbc n).ssiT0 = some t0 →
    alone n (reach (t0 + ((2 * (s.rd (Reg.FBK_Cn_SSI_NB n) + 2 + s.rd (Reg.FBK_Cn_CFG_PAR n)) - 1) *
      s.rd (Reg.FBK_Cn_SSI_HALF n) + s.rd (Reg.FBK_Cn_SSI_LDLY n)) + 2) s) →
    Completes (.ssiResult n data par check) s fun t =>
      let nb := s.rd (Reg.FBK_Cn_SSI_NB n)
      let m := nb + 2 + s.rd (Reg.FBK_Cn_CFG_PAR n)
      let u := reach (t0 + ((2 * m - 1) * s.rd (Reg.FBK_Cn_SSI_HALF n) + s.rd (Reg.FBK_Cn_SSI_LDLY n)) + 2) s
      let raw := data.toNat % 2 ^ nb
      let v := if s.on (Reg.FBK_Cn_CFG_GRAY n) then gray nb raw else raw
      let odd := ((List.range nb).countP fun i => data.toNat.testBit i) + par.toNat
      let far := (s.fbc n).ssiLast.any fun l => s.rd (Reg.FBK_Cn_JMAX n) < min ((v + 2 ^ nb - l % 2 ^ nb) % 2 ^ nb)
        (2 ^ nb - (v + 2 ^ nb - l % 2 ^ nb) % 2 ^ nb)
      if check = true ∨ (s.on (Reg.FBK_Cn_CFG_PAR n) = true ∧ odd % 2 = 1) ∨ far = true then
        t.time = u.time ∧ (t.fbc n).ssiErr = true ∧ (t.fbc n).ssiT0 = none ∧ (t.fbc n).pos = (s.fbc n).pos ∧
        (t.fbc n).bad = (s.fbc n).bad + 1 ∧
        ((s.fbc n).bad + 1 = s.rd (Reg.FBK_Cn_SSI_NBAD n) → t.isHeld (Fc.SSI_FAULT n) = true ∧ (t.fbc n).valid = false)
      else OnlyFaults (u.setFb n { s.fbc n with ssiT0 := none, ssiLast := some v, pos := v, bad := 0, stamp := t0 % 2 ^ 32 }) t) ∧
  (∀ (n : Nat) (s : State), s.fbMode n = 4 ∨ s.fbMode n = 5 →
    let per := if s.fbMode n = 4 then s.rd Reg.FBK_EXC else 400
    let ph := if s.fbMode n = 4 then s.rd Reg.FBK_EXCPH + s.rd (Reg.FBK_Cn_ANA_RDLY n) else 0
    let busy := max (s.adcFree 4) (s.adcFree 5)
    0 < per → s.smpNext n % per = ph % per ∧
      (s.ctCeil ≤ s.smpNext n ∨ (s.smpNext n < busy ∧ s.pairHeld.1 ≤ s.smpNext n ∧ (s.fbc n).cfgAt ≤ s.smpNext n)) ∧
      ∀ l, (s.fbc n).smpAt = some l → l ≤ max s.ctCeil busy → l < s.smpNext n) ∧
  (∀ (ch7 : Bool) (sn cs : BitVec 14) (s : State),
    let n := if ch7 then 7 else 6
    let start := max (s.smpNext n) (max (s.adcFree 4) (s.adcFree 5))
    s.live pdFBK = true → s.live pdANA = true → s.fbMode n = 4 ∨ s.fbMode n = 5 →
    if (∃ d ∈ s.shuntDue 4 ++ s.shuntDue 5, d.1 ≤ start) then Completes (.resolverSample ch7 sn cs) s fun t => t = s
    else alone n (reach (start + 39) s) → Completes (.resolverSample ch7 sn cs) s fun t =>
      let y : Int := sn.toNat - 8192
      let x : Int := cs.toNat - 8192
      let f := s.fbc n
      let g := t.fbc n
      t.time = (reach (start + 39) s).time ∧ g.smpAt = some (s.smpNext n) ∧ g.stamp = start % 2 ^ 32 ∧ t.adcFree 4 = start + 40 ∧ t.adcFree 5 = start + 40 ∧
      t.rd (Reg.ADC_RESc_CODE (32 + n)) = trunc 16 y ∧ t.rd (Reg.ADC_RESc_CODE (40 + n)) = trunc 16 x ∧
      (∃ r : Nat, (r : Int) ^ 2 ≤ x ^ 2 + y ^ 2 ∧ x ^ 2 + y ^ 2 < (r + 1) ^ 2 ∧
        (g.mag = r ∨ (g.mag = r + 1 ∧ (r : Int) ^ 2 ≠ x ^ 2 + y ^ 2))) ∧
      if g.mag < 32 * s.rd (Reg.FBK_Cn_ANA_AMIN n) ∨ 32 * s.rd (Reg.FBK_Cn_ANA_AMAX n) < g.mag then
        g.ampBad = true ∧ g.pos = f.pos ∧ g.bad = f.bad + 1 ∧
        (f.bad + 1 = s.rd (Reg.FBK_Cn_SSI_NBAD n) → t.isHeld (Fc.SIGNAL_LOST n) = true ∧ g.valid = false)
      else ∃ ang, g.ang = some ang ∧ ang < 2 ^ 16 ∧ g.bad = 0 ∧
        (y = 0 → 0 < x → ang = 0) ∧ (0 < y → x = y → ang = 0x2000) ∧ (0 < y → x = 0 → ang = 0x4000) ∧
        (0 < y → x = -y → ang = 0x6000) ∧ (y = 0 → x < 0 → ang = 0x8000) ∧ (y < 0 → x = y → ang = 0xA000) ∧
        (y < 0 → x = 0 → ang = 0xC000) ∧ (y < 0 → x = -y → ang = 0xE000) ∧
        let far := f.ang.any fun l => 2 ^ 14 < (sext 16 (ang + 2 ^ 16 - l)).natAbs
        if f.frozen = true ∨ far = true then g.pos = f.pos ∧ g.frozen = true ∧ (f.frozen = false → t.isHeld (Fc.OVERRATE n) = true)
        else
          let turn := match f.ang with
            | none => 0
            | some l => if l / 2 ^ 14 = 3 ∧ ang / 2 ^ 14 = 0 then 1 else if l / 2 ^ 14 = 0 ∧ ang / 2 ^ 14 = 3 then -1 else 0
          (g.pos : Int) = ((f.pos / 2 ^ 16 : Nat) * 2 ^ 16 + turn * 2 ^ 16 + ang) % 2 ^ 32) ∧
  (∀ (mask : BitVec 8) (s : State), s.live pdFBK = true → s.calm → Completes (.rearm mask) s fun t =>
    t.time = s.time ∧ t.mem = s.mem ∧ ∀ n < 8,
      if mask.getLsbD n = false then t.fbc n = s.fbc n
      else if s.chanBusy n = true then t.bit Reg.FBK_WDENY n = true ∧ t.fbc n = s.fbc n
      else (t.fbc n).pos = (if s.fbMode n = 1 ∨ s.fbMode n = 2 then 0 else (s.fbc n).pos) ∧
        (t.fbc n).valid = true ∧ (t.fbc n).bad = 0 ∧ (t.fbc n).frozen = false ∧ (t.fbc n).ssiErr = false ∧
        (t.fbc n).hallBad = false ∧ (t.fbc n).los = false ∧ (t.fbc n).ampBad = false ∧ (t.fbc n).idxRef = false ∧
        (t.fbc n).missing = false ∧ (t.fbc n).illHist = [] ∧ t.rd (Reg.FBK_Cn_ILLCNT n) = 0) ∧
  ∀ (v : BitVec 24) (s : State), s.live pdFBK = true → s.calm → Completes (.fbkAxmapWrite v) s fun t =>
    if s.on Reg.FBK_CTRL_LOCK = true then t = s
    else (∀ k < 8, t.axChan k = if s.ax k = axDISABLED then v.toNat / 8 ^ k % 8 else s.axChan k) ∧
      (∀ c < 8, t.bit Reg.FBK_WDENY c = (s.bit Reg.FBK_WDENY c || (List.range 8).any fun k =>
        s.axChan k == c && s.ax k != axDISABLED && v.toNat / 8 ^ k % 8 != s.axChan k)) ∧
      OnlyFaults ((s.wr Reg.FBK_AXMAP (t.rd Reg.FBK_AXMAP)).wr Reg.FBK_WDENY (t.rd Reg.FBK_WDENY)) t

/-- With PD_OUT on every one of these commands completes. BLOCK_IN_FORCE takes the first pending block at its instant,
and an OFF block turns the legs off unless the safe pattern stands. LEG_TRANSITION of an executing axis takes the
first half-period, of the present one and the two after it, that the block governs and in which the leg has a
transition not yet past (the word of the leg, kept to 0 to 8H and below 8H; to LOWER in a falling half, to UPPER in
a rising one, never to the state it is in), moves the leg at that instant with both switches off, and dates the
incoming switch DT later. INCOMING_TURN_ON turns on at its instant the switch of the leg's state and not the other.
Without such an instant these commands change nothing. TRIP_INPUT of an active filtered input sets LEVEL; when
enabled it sets its latch, holds TRIP_IN, makes source 104 pending and drives the phase switches of every axis of
AXMASK off. TRIP_RELEASE follows the level and leaves latches. TRIP_LATCH_CLEAR clears the written latches whose
input is inactive and no others, and an axis that no latch covers is released only while it is DISABLED. With PD_OUT
off all six change nothing. (R154, R196, R197, R198, R199, R202, R221.) -/
def Obligations.BlocksLegsAndTrips : Prop :=
  let halves := fun (n : Nat) (s : State) => [s.edgeBefore n s.ctTicks, s.edgeBefore n s.ctTicks + s.half n, s.edgeBefore n s.ctTicks + 2 * s.half n]
  let falling := fun (n h : Nat) (s : State) => decide (s.nextPeak n h = h)
  let instant := fun (n x h : Nat) (s : State) =>
    8 * h + clampEdge (8 * s.half n) (((s.o n).block).getD (if falling n h s then 1 + x else 4 + x) 0)
  let target := fun (n h : Nat) (s : State) => if falling n h s then Leg.lower else Leg.upper
  let moves := fun (n x h : Nat) (s : State) => h ∈ halves n s ∧ (s.o n).block ≠ [] ∧ tb ((s.o n).block.headD 0) 0 = false ∧
    (s.o n).since < h ∧ instant n x h s < 8 * h + 8 * s.half n ∧ ((s.o n).leg x).st ≠ target n h s ∧
    ceilDiv s.ct (2 ^ 29) ≤ instant n x h s
  (∀ (n : Fin 8) (x : Fin 3) (t : Fin 8) (b : Bool) (m : BitVec 8) (s : State), s.live pdOUT = false →
    ∀ c ∈ [.blockInForce n, .legTransition n x, .incomingTurnOn n x, .tripInput t, .tripRelease t b, .tripLatchClear m],
      Completes c s fun t => t = s) ∧
  (∀ (n : Fin 8) (s : State) (at' : Nat) (b : List Nat) (rest : List (Nat × List Nat)), s.live pdOUT = true →
    (s.o n).pend = (at', b) :: rest → Completes (.blockInForce n) s fun t =>
      let o := { s.o n with block := b, pend := rest }
      Settled ((reach at' s).setO n (if (b = [] ∨ tb (b.headD 0) 0 = true) ∧ s.safeNow n = false then
        { o with legA := {}, legB := {}, legC := {} } else o)) t) ∧
  (∀ (n : Fin 8) (s : State), (s.o n).pend = [] → Completes (.blockInForce n) s fun t => t = s) ∧
  (∀ (n : Fin 8) (x : Fin 3) (h : Nat) (s : State), s.live pdOUT = true → s.executes n = true → moves n x h s →
    (∀ k, k < h → ¬ moves n x k s) → Completes (.legTransition n x) s fun t =>
      Settled ((reach8 (instant n x h s) s).setO n ((s.o n).setLeg x
        { st := target n h s, up := false, lo := false, onAt := some (instant n x h s + 8 * s.rd (Reg.OUT_An_DT n)) })) t) ∧
  (∀ (n : Fin 8) (x : Fin 3) (s : State), s.executes n = false ∨ (∀ h, ¬ moves n x h s) →
    Completes (.legTransition n x) s fun t => t = s) ∧
  (∀ (n : Fin 8) (x : Fin 3) (at8 : Nat) (s : State), s.live pdOUT = true → s.executes n = true ∨ s.safeNow n = true →
    ((s.o n).leg x).onAt = some at8 → Completes (.incomingTurnOn n x) s fun t =>
      let l := (s.o n).leg x
      Settled ((reach8 at8 s).setO n ((s.o n).setLeg x
        { st := l.st, up := decide (l.st = .upper), lo := decide (l.st = .lower), onAt := none })) t) ∧
  (∀ (n : Fin 8) (x : Fin 3) (s : State), (s.executes n = false ∧ s.safeNow n = false) ∨ ((s.o n).leg x).onAt = none →
    Completes (.incomingTurnOn n x) s fun t => t = s) ∧
  (∀ (i : Fin 8) (s : State), s.live pdOUT = true → s.on (Reg.OUT_TRIPt_EN i) = false → Completes (.tripInput i) s
    (Settled (s.wrBit Reg.OUT_TRIP_STAT_LEVEL i true))) ∧
  (∀ (i : Fin 8) (s : State), s.live pdOUT = true → s.on (Reg.OUT_TRIPt_EN i) = true → Completes (.tripInput i) s fun t =>
    let mask := s.rd (Reg.OUT_TRIPt_AXMASK i)
    t.rd Reg.OUT_TRIP_STAT_LEVEL = (s.wrBit Reg.OUT_TRIP_STAT_LEVEL i true).rd Reg.OUT_TRIP_STAT_LEVEL ∧
    t.bit Reg.OUT_TRIP_STAT_LATCH i = true ∧
    (∀ j < 8, j ≠ i.val → t.bit Reg.OUT_TRIP_STAT_LATCH j = s.bit Reg.OUT_TRIP_STAT_LATCH j) ∧
    (∀ n < 8, (t.o n).tripHeld = ((s.o n).tripHeld || tb mask n) ∧ (t.o n).block = (s.o n).block ∧
      (t.o n).pend = (s.o n).pend) ∧
    (∀ n < 8, tb mask n = true → t.tripped n = true ∧ ∀ x, t.switches n x = (false, false)) ∧
    t.isHeld (Fc.TRIP_IN i) = true ∧ t.pends 104 = true ∧ t.time = s.time ∧ t.com = s.com) ∧
  (∀ (i : Fin 8) (b : Bool) (s : State), s.live pdOUT = true → s.on (Reg.OUT_TRIPt_EN i) = false ∨ b = false →
    Completes (.tripRelease i b) s (Settled (s.wrBit Reg.OUT_TRIP_STAT_LEVEL i b))) ∧
  (∀ (i : Fin 8) (s : State), s.on (Reg.OUT_TRIPt_EN i) = true → Completes (.tripRelease i true) s fun t => t = s) ∧
  ∀ (mask : BitVec 8) (s : State), s.live pdOUT = true → Completes (.tripLatchClear mask) s fun t =>
    (∀ i < 8, t.bit Reg.OUT_TRIP_STAT_LATCH i = (s.bit Reg.OUT_TRIP_STAT_LATCH i &&
      ! (mask.getLsbD i && ! s.bit Reg.OUT_TRIP_STAT_LEVEL i))) ∧
    (∀ n < 8, (t.o n).tripHeld = if s.ax n = axDISABLED ∧ tb t.tripMask n = false then false else (s.o n).tripHeld) ∧
    (∀ f, Fld.ofFaults f = false → f.key ≠ Reg.OUT_TRIP_STAT_LATCH.key → t.rd f = s.rd f) ∧ t.com = s.com ∧ t.time = s.time

/-- With PD_OUT on and GLEN set: a heartbeat word starts on the next character boundary with the claim, MODE (0 under a
trip, ASC or OFF in the safe pattern, RUN while driving) and SEQ, unless a setup word is due; a change of MODE to
OFF or ASC, also from a RUN no heartbeat has carried, does not wait for the word in progress; a setup word follows
the word in progress with CLEAR before an echo request before the cycle of parameters 0 to 2 and their values; on an
UP link of an executing axis the block word of the next half, where a block governs it and its boundary is still to
come, leaves on that boundary with each leg's transition placed by ofs, 0x1FFFFF for none; the running disparity
goes on from the characters sent; a heartbeat sent in full counts SEQ on and a setup word cut short is sent again.
Nothing else changes but what faults change. (R203, R204, R205, R206, R207, R208.) -/
def Obligations.GateLinkDownlink : Prop :=
  let word := fun (n : Nat) (k : GlWord) (chars : List Nat) (more : OutSt → OutSt) (u t : State) =>
    let o := u.o n
    let whole := decide (o.wordEnd ≤ u.time.clk)
    let a := if o.word = .heartbeat ∧ whole = true then { o with hbSeq := (o.hbSeq + 1) % 65536 } else o
    let b := if o.word = .setup ∧ whole = false then
        (if o.chars.getD 2 0 = 3 then { a with echoDue := true, echoWait := false }
         else if o.chars.getD 2 0 = 4 then { a with clearDue := true } else { a with param := o.chars.getD 2 0 })
      else a
    Settled (u.setO n (more { b with word := k, chars := chars, wordEnd := u.time.clk + 16 * chars.length, disp := o.dispAt u.time.clk })) t
  (∀ (n : Fin 8) (s : State), s.live pdOUT = true → Completes (.heartbeat n) s fun t =>
    let o := s.o n
    let mode := if s.tripped n then 0 else if s.safeNow n then (if s.asc n then 2 else 0) else if s.driving n then 1 else 0
    let drop := mode ≠ 1 ∧ (mode ≠ o.mode ∨ o.ran = true)
    if s.glen n = false ∨ (¬ drop ∧ 15 ≤ o.sinceSetup) then t = s
    else
      let u := reachClk (s.boundary n (if drop then s.time.clk else max s.time.clk o.wordEnd)) s
      let seq := if o.word = .heartbeat ∧ o.wordEnd ≤ u.time.clk then (o.hbSeq + 1) % 65536 else o.hbSeq
      word n .heartbeat [if s.chopBit n then 0x3C else 0xBC, s.claim, mode, seq / 256, seq % 256]
        (fun o => { o with mode := mode, ran := false, sinceSetup := o.sinceSetup + 1 }) u t) ∧
  (∀ (n : Fin 8) (s : State), s.live pdOUT = true → Completes (.setupWord n) s fun t =>
    let o := s.o n
    if s.glen n = false then t = s
    else
      let u := reachClk (s.boundary n (max s.time.clk o.wordEnd)) s
      let p := if o.clearDue then 4 else if o.echoDue then 3 else o.param
      let v := if p = 0 then s.rd (Reg.OUT_An_DT n) else if p = 1 then s.rd (Reg.OUT_An_GL_CLAIM_TO n)
        else if p = 2 then s.rd (Reg.COM_An_CFG_SAFE_KIND n) else if p = 3 then o.echoVal else 0
      word n .setup [if s.chopBit n then 0xFD else 0xFB, s.claim, p, v / 256, v % 256]
        (fun o => if p = 4 then { o with clearDue := false, sinceSetup := 0, setups := o.setups + 1 }
          else if p = 3 then { o with echoDue := false, echoWait := true, sinceSetup := 0, setups := o.setups + 1 }
          else { o with param := (p + 1) % 3, sinceSetup := 0, setups := o.setups + 1 }) u t) ∧
  ∀ (n : Fin 8) (s : State) (h k : Nat), s.live pdOUT = true → s.glen n = true → s.glState n = glUP →
    s.executes n = true → h = s.edgeBefore n s.ctTicks + s.half n →
    let prop8 := s.rd (Reg.OUT_An_GLST_PROP8 n)
    s.wordClocks n h prop8 = some k → (s.o n).governs h = true → ((s.o n).blockAt h).toLink = true →
    Completes (.blockWord n) s fun t =>
      let u := advance k s
      let o := (s.o n).blockAt h
      let ofs := ((8 * (h - 168) - prop8) * 2 ^ 29 - u.ct) / 2 ^ 29
      let falling := decide (s.nextPeak n h = h)
      let leg := fun x =>
        let v := max 0 (min (8 * s.half n : Int) (sext 32 (o.block.getD (if falling then 1 + x else 4 + x) 0)))
        if v = 8 * s.half n then 0x1FFFFF else v.toNat + ofs
      let c := s.chopBit n
      let ctl := if o.blockOff then (if c then 0xF7 else 0xDC) else if falling then (if c then 0x5C else 0x1C)
        else (if c then 0x9C else 0x7C)
      let (a, b, d) := if o.blockOff then (ofs, 0x1FFFFF, 0x1FFFFF) else (leg 0, leg 1, leg 2)
      word n .block [ctl, s.claim, a / 2 ^ 13 % 256, a / 2 ^ 5 % 256, a % 32 * 8 + b / 2 ^ 18 % 8,
        (if c then 128 else 0) + b / 2 ^ 11 % 128, b / 8 % 256, b % 8 * 32 + d / 2 ^ 16 % 32, d / 256 % 256, d % 256] id u t

/-- With PD_OUT on and GLEN set: an invalid uplink word counts ERR and raises GL_CODE; a valid status word is stored,
holds GL_DESAT, GL_REMOTE_BLOCK, GL_OVERTEMP and GL_TEMP_WARN and raises CLAIM_TIE as its bits and temperature say;
a matching echo word records half of the round trip less TURN, rounded up, and asks for the next until eight are
taken; TRAIN starts training of a DISABLED axis; TRAINING_DONE with eight results makes the link UP at most at 120
eighths and else FAILED with GL_LAT; 1,024 setup words start a remeasurement; GL_LOSS takes the link DOWN; CLEAR is
queued. (R208, R209, R210, R211, R219, R220, R221.) -/
def Obligations.GateLinkUplink : Prop :=
  (∀ (n : Fin 8) (clk : Nat) (c1 c2 c3 c4 v : BitVec 8) (turn : BitVec 16) (round : Nat) (s : State),
    s.live pdOUT = true → s.glen n = true →
    ∀ c ∈ [.statusWord n clk false c1 c2 c3 c4, .echoWord n clk false v turn round], Completes c s fun t =>
      OnlyFaults (((advance clk s).setO n { s.o n with goodWords := 0 }).add (Reg.OUT_An_ERR n) 1) t ∧
      t.pends 111 = true) ∧
  (∀ (n : Fin 8) (clk : Nat) (c1 c2 c3 c4 : BitVec 8) (s : State), s.live pdOUT = true → s.glen n = true →
    Completes (.statusWord n clk true c1 c2 c3 c4) s fun t =>
      t.time = (advance clk s).time ∧ (t.o n).goodWords = (s.o n).goodWords + 1 ∧
      (t.o n).lastUp = (advance clk s).time.clk ∧
      ((t.o n).echoDue = true ↔ (s.o n).echoDue = true ∨ (s.glState n = glTRAINING ∧ (s.o n).goodWords = 15)) ∧
      t.rd (Reg.OUT_An_UPL_FLT n) = c2.toNat ∧ t.rd (Reg.OUT_An_UPL_TEMP n) = c3.toNat ∧
      t.rd (Reg.OUT_An_UPL_FLAGS n) = c4.toNat ∧ t.rd (Reg.OUT_An_GLST_OBEYED n) = c1.toNat ∧
      t.rd (Reg.OUT_An_GLST_INPUT n) = c4.toNat / 64 ∧
      (c2.toNat % 128 ≠ 0 → t.on (Reg.OUT_An_STAT_DESAT n) = true ∧ t.isHeld (Fc.GL_DESAT n) = true ∧ t.pends 107 = true) ∧
      (c4.getLsbD 1 = true → s.ax n ≠ axDISABLED → t.on (Reg.OUT_An_STAT_REMOTE n) = true ∧
        t.isHeld (Fc.GL_REMOTE_BLOCK n) = true) ∧
      (c4.getLsbD 3 = true → t.on (Reg.OUT_An_STAT_TIE n) = true ∧ t.pends 111 = true) ∧
      (sext 8 (s.rd (Reg.OUT_An_GL_TTRIP n)) ≤ c3.toInt → t.isHeld (Fc.GL_OVERTEMP n) = true ∧ t.pends 108 = true) ∧
      (sext 8 (s.rd (Reg.OUT_An_GL_TWARN n)) ≤ c3.toInt → t.isHeld (Fc.GL_TEMP_WARN n) = true ∧ t.pends 108 = true) ∧
      (∀ m, m ≠ n.val → (t.o m).pend = (s.o m).pend ∧ (t.o m).block = (s.o m).block)) ∧
  (∀ (n : Fin 8) (clk : Nat) (v : BitVec 8) (turn : BitVec 16) (round : Nat) (s : State), s.live pdOUT = true →
    s.glen n = true → (s.o n).echoWait = true → v.toNat = (s.o n).echoVal →
    Completes (.echoWord n clk true v turn round) s fun t =>
      let lat := (s.o n).lat ++ [(round - turn.toNat + 1) / 2]
      (t.o n).echoWait = false ∧ (t.o n).echoVal = (v.toNat + 1) % 256 ∧ (t.o n).echoDue = decide (lat.length < 8) ∧
      if (s.o n).remeasure = true ∧ 8 ≤ lat.length then (t.o n).remeasure = false ∧ (t.o n).lat = [] ∧
        (if s.ax n = axDISABLED then t.rd (Reg.OUT_An_GLST_PROP8 n) = min (lat.foldl max 0) 255
         else t.rd (Reg.OUT_An_GLST_PROP8 n) = s.rd (Reg.OUT_An_GLST_PROP8 n) ∧
          (8 < (((lat.foldl max 0 : Nat) : Int) - s.rd (Reg.OUT_An_GLST_PROP8 n)).natAbs → t.isHeld (Fc.GL_LAT n) = true))
      else (t.o n).lat = lat ∧ t.rd (Reg.OUT_An_GLST_PROP8 n) = s.rd (Reg.OUT_An_GLST_PROP8 n)) ∧
  (∀ (n : Fin 8) (s : State), s.live pdOUT = true → Completes (.glTrain n) s fun t =>
    if s.ax n = axDISABLED ∧ s.glen n = true then t.glState n = glTRAINING ∧ (t.o n).goodWords = 0 ∧ (t.o n).lat = [] ∧
      (t.o n).echoWait = false ∧ (t.o n).pend = (s.o n).pend
    else t = s) ∧
  (∀ (n : Fin 8) (s : State), s.live pdOUT = true → Completes (.trainingDone n) s fun t =>
    if s.glState n = glTRAINING ∧ 8 ≤ (s.o n).lat.length then
      let v := (s.o n).lat.foldl max 0
      (t.o n).lat = [] ∧ t.rd (Reg.OUT_An_GLST_PROP8 n) = min v 255 ∧
      (if v ≤ 120 then t.glState n = glUP ∧ t.pends 106 = true
       else t.glState n = glFAILED ∧ t.pends 105 = true ∧ t.isHeld (Fc.GL_LAT n) = true)
    else t = s) ∧
  (∀ (n : Fin 8) (s : State), s.live pdOUT = true → Completes (.latencyRemeasure n) s fun t =>
    if s.glState n = glUP ∧ 1024 ≤ (s.o n).setups then
      Settled (s.setO n { s.o n with setups := 0, remeasure := true, lat := [], echoDue := true }) t
    else t = s) ∧
  (∀ (n : Fin 8) (s : State), s.live pdOUT = true → Completes (.glLoss n) s fun t =>
    if s.glState n = glDOWN then t = s
    else t.glState n = glDOWN ∧ t.time = (reachClk ((s.o n).lastUp + 160) s).time ∧ t.pends 105 = true ∧
      (s.ax n ≠ axDISABLED → t.isHeld (Fc.GL_LOSS n) = true)) ∧
  ∀ (n : Fin 8) (s : State), s.live pdOUT = true → Completes (.glClear n) s fun t =>
    if s.glen n = true then Settled (s.setO n { s.o n with clearDue := true }) t else t = s

/-- With PD_OUT on and the outputs allowed: a read-back is stored; the first one after a change of command takes place
50 microseconds after it and, against the commands of both switches, sets RB and holds SO_READBACK or sets OPEN and
holds SO_OPEN_LOAD by the table of R217, another one is stored only. An overcurrent latches OC and both switches are
off, also during a test pulse. With TPEN and no fault latched, a test pulse starts TP_INT seconds after the last one
and takes the next switch with the commands standing; TP_W microseconds on it ends, with its readings stored, and
counts TPCNT with source 110 or latches TEST with SO_TEST; one that a change of command has ended changes nothing.
OC, RB and TEST clear only outside ACTIVE and LEE, OPEN always. (R216, R217, R218.) -/
def Obligations.SafeOutputs : Prop :=
  (∀ (m : Fin 4) (midh midl ihs : Bool) (s : State), s.live pdOUT = true → s.soAllowed = true →
    Completes (.soReadbackCheck m midh midl ihs) s fun t =>
      let h := s.soHigh m
      let l := s.soLow m
      let judged := (s.soNow m).check = true
      let rb := judged ∧ (if h = true ∧ l = true then midl = true else if h = true then midl = false else midh = true)
      let open' := judged ∧ h = true ∧ l = true ∧ ihs = false
      t.on (Reg.OUT_SOm_STAT_MIDH m) = midh ∧ t.on (Reg.OUT_SOm_STAT_MIDL m) = midl ∧ t.on (Reg.OUT_SOm_STAT_IHS m) = ihs ∧
      (judged → t.time = (reachClk ((s.soNow m).cmdAt + 20000) s).time ∧ t.sout m = { s.soNow m with check := false }) ∧
      (¬ judged → t.time = s.time ∧ t.so = s.so) ∧
      (rb → t.on (Reg.OUT_SOm_STAT_RB m) = true ∧ t.isHeld (Fc.SO_READBACK m) = true ∧ t.pends 109 = true ∧
        t.soHigh m = false ∧ t.soLow m = false) ∧
      (¬ rb → t.on (Reg.OUT_SOm_STAT_RB m) = s.on (Reg.OUT_SOm_STAT_RB m)) ∧
      (open' → t.on (Reg.OUT_SOm_STAT_OPEN m) = true ∧ t.isHeld (Fc.SO_OPEN_LOAD m) = true) ∧
      (¬ open' → t.on (Reg.OUT_SOm_STAT_OPEN m) = s.on (Reg.OUT_SOm_STAT_OPEN m))) ∧
  (∀ (m : Fin 4) (s : State), s.live pdOUT = true → s.soAllowed = true → Completes (.soOvercurrent m) s fun t =>
    OnlyFaults (s.put (Reg.OUT_SOm_STAT_OC m) true) t ∧ t.isHeld (Fc.SO_OVERCURRENT m) = true ∧ t.pends 109 = true ∧
    t.soHigh m = false ∧ t.soLow m = false ∧ t.soSwitches m = (false, false)) ∧
  (∀ (m : Fin 4) (s : State), s.live pdOUT = true → Completes (.soTestPulse m) s fun t =>
    if s.soAllowed = true ∧ s.on (Reg.OUT_SOm_CFG_TPEN m) = true ∧ (s.soNow m).test = none ∧ s.soLatched m = false then
      let u := reachClk ((s.soNow m).testAt + 400000000 * s.rd (Reg.OUT_SOm_CFG_TP_INT m)) s
      Settled (u.setSo m { u.soNow m with test := some ((s.soNow m).nextLow, s.soHigh m, s.soLow m), testAt := u.time.clk }) t
    else t = s) ∧
  (∀ (m : Fin 4) (midh midl : Bool) (s : State), s.live pdOUT = true → (s.soNow m).test = none →
    Completes (.soTestPulseEnd m midh midl) s fun t => t = s) ∧
  (∀ (m : Fin 4) (midh midl low hs ls : Bool) (s : State), s.live pdOUT = true → (s.soNow m).test = some (low, hs, ls) →
    Completes (.soTestPulseEnd m midh midl) s fun t =>
      let o := s.soNow m
      let pass := if hs = true ∧ ls = true then (if low then midl = true else midh = false)
        else (if low then midl = false else midh = true)
      t.time = (reachClk (o.testAt + 400 * s.rd (Reg.OUT_SOm_CFG_TP_W m)) s).time ∧
      t.sout m = { o with test := none, nextLow := ! low } ∧
      t.on (Reg.OUT_SOm_STAT_MIDH m) = midh ∧ t.on (Reg.OUT_SOm_STAT_MIDL m) = midl ∧
      (pass → t.rd (Reg.OUT_SOm_TPCNT m) = min (s.rd (Reg.OUT_SOm_TPCNT m) + 1) (2 ^ (Reg.OUT_SOm_TPCNT m).w - 1) ∧
        t.pends 110 = true ∧ t.on (Reg.OUT_SOm_STAT_TEST m) = s.on (Reg.OUT_SOm_STAT_TEST m)) ∧
      (¬ pass → t.on (Reg.OUT_SOm_STAT_TEST m) = true ∧ t.isHeld (Fc.SO_TEST m) = true ∧
        t.rd (Reg.OUT_SOm_TPCNT m) = s.rd (Reg.OUT_SOm_TPCNT m))) ∧
  ∀ (m : Fin 4) (mask : BitVec 4) (s : State), s.live pdOUT = true → Completes (.soLatchClear m mask) s fun t =>
    let free := s.dev.state ≠ .active ∧ s.dev.state ≠ .lee
    let left := fun (f : Fld) (b : Nat) (c : Prop) => (mask.getLsbD b = true ∧ c → t.on f = false) ∧
      (¬ (mask.getLsbD b = true ∧ c) → t.on f = s.on f)
    left (Reg.OUT_SOm_STAT_OC m) 0 free ∧ left (Reg.OUT_SOm_STAT_RB m) 1 free ∧ left (Reg.OUT_SOm_STAT_TEST m) 2 free ∧
    left (Reg.OUT_SOm_STAT_OPEN m) 3 True ∧ t.so = s.so ∧ t.time = s.time

/-- Out of REPLAY, whatever else a frame tick does, an axis that was in one of the six states is afterwards in the same
state or in one that R230 allows from it: DISABLED to ARMING, ARMING to RUNNING or DISABLED, RUNNING to STOPPING,
STOPPING to DISABLED or HELD, HELD to RUNNING or DISABLED, any to SAFE, SAFE to DISABLED. The evaluation of one axis
arms only with GO and no failing condition, leaves SAFE for DISABLED only without a request, with a DISABLE seen and
no class-S fault naming the axis, and takes a requested safe state from every other state. (R230, R232, R234, R235.) -/
def Obligations.AxisTransitions : Prop :=
  (∀ (s t : State) (n : Fin 8), s.runs = true → s.dev.state ≠ .replay → s.ax n ≤ 5 → exec .frameTick s = .next t →
    t.ax n = s.ax n ∨ (s.ax n, t.ax n) ∈ [(0, 1), (1, 2), (1, 0), (2, 3), (3, 0), (3, 4), (4, 2), (4, 0), (0, 5), (1, 5),
      (2, 5), (3, 5), (4, 5), (5, 0)]) ∧
  (∀ (n : Fin 8) (b : Bool) (s : State), let t := axisEval n b s
    (s.ax n = axDISABLED → t.ax n = axARMING → s.go n = true ∧ s.refuse n = 0) ∧
    (s.ax n = axARMING → t.ax n = axRUNNING → s.go n = true ∧ s.refuse n = 0 ∧ tb (s.statusWord n) 0 = true ∧
      s.stopCauses n = []) ∧
    (s.ax n = axSTOPPING → t.ax n ≠ axSTOPPING → t.ax n ≠ axSAFE → tb (s.statusWord n) 2 = true) ∧
    (s.ax n = axSAFE → t.ax n ≠ axSAFE → (s.a n).disableSeen = true ∧ s.lreq n = 0 ∧ s.devRuns = true ∧
      s.heldOn n = false ∧ (s.rd (Reg.COM_An_CFG_SAFE_KIND n) = 1 → tb (s.statusWord n) 2 = true)) ∧
    (tb s.fcu.supReq n = true → s.ax n ≠ axSAFE → t.ax n = axSAFE ∧ t.go n = false) ∧
    ∀ m, m < 8 → m ≠ n.val → t.ax m = s.ax m)

/-- An axis beyond ARM_TOUT frames in ARMING loses GO, goes to DISABLED and holds ARM_TIMEOUT; STOP_TOUT cycles in
STOPPING hold STOP_TIMEOUT once and leave the axis stopping; SP_STALE of a setpoint loss that arose at the boundary,
and GUST_LONG beyond GUST_MAX cycles of GUST, hold their fault, clear GO and apply the LOSS stop: ARMING goes to
DISABLED, RUNNING to STOPPING with the kind and end of LOSS, STOPPING takes the stronger kind and HELD if either
ends so, other states stay; without their condition the commands change nothing. (R230, R231, R233, R247.) -/
def Obligations.AxisTimeoutsAndLosses : Prop :=
  (∀ (n : Fin 8) (s : State), Completes (.armTimeout n) s fun t =>
    if s.ax n = axARMING ∧ s.rd (Reg.SYS_AXn_TIME_ARM_TOUT n) < s.rd (Reg.SYS_AXn_FRAMES n) then
      t.ax n = axDISABLED ∧ t.go n = false ∧ t.isHeld (Fc.ARM_TIMEOUT n) = true ∧ (t.a n).first = true ∧
      t.rd (Reg.SYS_AXn_FRAMES n) = 1 ∧ (t.a n).ctl % 8 = axDISABLED ∧ ∀ m < 8, m ≠ n.val → t.ax m = s.ax m
    else t = s) ∧
  (∀ (n : Fin 8) (s : State), Completes (.stopTimeout n) s fun t =>
    if s.ax n = axSTOPPING ∧ s.rd (Reg.SYS_AXn_TIME_STOP_TOUT n) ≤ (s.a n).stopCycles ∧ (s.a n).stopUp = false then
      OnlyFaults (s.setA n { s.a n with stopUp := true }) t ∧ t.isHeld (Fc.STOP_TIMEOUT n) = true
    else t = s) ∧
  let lost := fun (n : Nat) (code : Nat) (s t : State) =>
    let kind := s.rd (Reg.SYS_AXn_CFG_LOSS n) + 1
    let hold := decide (s.rd (Reg.SYS_AXn_CFG_LOSS n) = 2) || s.on (Reg.SYS_AXn_CFG_STOP_END n)
    t.isHeld code = true ∧ t.go n = false ∧ (∀ m < 8, m ≠ n → t.ax m = s.ax m) ∧
    (s.ax n = axARMING → t.ax n = axDISABLED) ∧
    (s.ax n = axRUNNING → t.ax n = axSTOPPING ∧ t.rd (Reg.SYS_AXn_STAT_STOP_KIND n) = kind % 4 ∧
      t.on (Reg.SYS_AXn_STAT_END_HOLD n) = hold) ∧
    (s.ax n = axSTOPPING → t.ax n = axSTOPPING ∧
      t.rd (Reg.SYS_AXn_STAT_STOP_KIND n) = max (s.rd (Reg.SYS_AXn_STAT_STOP_KIND n)) kind % 4 ∧
      t.on (Reg.SYS_AXn_STAT_END_HOLD n) = (s.on (Reg.SYS_AXn_STAT_END_HOLD n) || hold)) ∧
    (s.ax n ∉ [axARMING, axRUNNING, axSTOPPING] → t.ax n = s.ax n)
  (∀ (n : Fin 8) (s : State), Completes (.spStale n) s fun t =>
    if (s.a n).staleDue = true then lost n (Fc.SP_STALE n) s t ∧ (t.a n).staleDue = false ∧ (t.a n).staleUp = true
    else t = s) ∧
  ∀ (n : Fin 8) (s : State), Completes (.gustLong n) s fun t =>
    if s.rd (Reg.SYS_AXn_GUST n) * s.cycleFrames < (s.a n).gustRun ∧ (s.a n).gustUp = false then
      lost n (Fc.GUST_LONG n) s t ∧ (t.a n).gustUp = true
    else t = s

/-- For a pair whose domain is on and that takes part in the coupling: a store of the main core outside private memory
and boot ROM, at an instruction count the core can have reached and while it does not stall, enters the release
buffer and the signature and marks a checkpoint with the 448th entry; a store of the checker only enters its own
signature and forwarding buffer; one to private memory changes nothing. CHKPT marks a checkpoint unless its IC is
that of the checkpoint before. An exchanged input takes the value both reads, with the buffered stores found, agree
on under its rule after at most RETRY re-reads, and else takes the pair out of service with INPUT_DISAGREE, or with
CMP_DISAGREE when the two exchange units in service differ; it waits while a permitted re-read is to come, and what
is not exchanged changes nothing. The comparison of the oldest checkpoint hands its stores to the drain when the
comparators in service agree on the two signatures, returns a rejoining pair to service, and else loses the pair
with PAIR_MISMATCH or CMP_DISAGREE, or with CP_TIMEOUT when the checker came more than CP_TOUT after the mark,
stalled time left out; CP_TIMEOUT loses it too. The stated marks are those of a main core that does not stall at
LAG_MAX. (R253, R254, R256, R257, R258, R259, R261, R262, R263, R264, R271, R272.) -/
def Obligations.CheckedExecution : Prop :=
  let mark := fun (p ic cpid src : Nat) (q : PairSt) (s : State) (now : Nat) =>
    if q.lastMark = some ic then q
    else
      let m : Mark := ⟨ic, cpid, src, q.sig, now, q.buf.length - (q.fifo.map Mark.stores).sum, q.scrubDue && s.on Reg.CHK_CTRL_SCRUB_EN⟩
      let r := { q with lastMark := some ic, sig := 2 ^ 64 - 1, scrubDue := false }
      if 16 ≤ q.fifo.length then { r with stalled := some m } else { r with fifo := q.fifo ++ [m] }
  let lost := fun (p kind : Nat) (s t : State) => t.pairState p = pairLOST ∧ (t.pr p).buf = [] ∧ (t.pr p).fifo = [] ∧
    (t.pr p).drain = [] ∧ t.rd (Reg.CHK_Px_LOSS p) = kind ∧ t.rd (Reg.CHK_Px_LOSSFN p) = s.fn ∧
    t.isHeld (0x2400 + 16 * p + kind) = true ∧
    (s.pairState p = pairREJOINING → t.isHeld (Fc.REJOIN_FAIL p) = true)
  let kept := fun (s t : State) => s.on Reg.HIF_CFG_EVTEN = false → t.mem = s.mem
  let coupled := fun (a : Nat) => 0x20000 ≤ a ∧ ¬ (0x08000000 ≤ a ∧ a < 0x08100000)
  (∀ (p : Fin 2) (ic : BitVec 64) (addr : Word) (mask : BitVec 8) (data : BitVec 64) (s : State), s.live p = true →
    s.pairOn p = true → coupled addr.toNat → s.mainStalled p = false → s.mainCan p ic.toNat = true →
    (s.pr p).lagAt = none → Completes (.coupledStore p false ic addr mask data) s fun t =>
      let q := s.pr p
      let u := reachClk q.resumeAt s
      let r : RelStore := { addr := addr.toNat, mask := mask.toNat, data := data.toNat }
      let n := max q.mainIc ic.toNat
      let q' := { q with mainIc := n, chkIc := (t.pr p).chkIc, lagAt := (t.pr p).lagAt, buf := q.buf ++ [r], wfi := q.wfi && decide (n = q.mainIc), sig := sigRecord q.sig r }
      q.chkIc ≤ (t.pr p).chkIc ∧ (t.pr p).chkIc ≤ max q.chkIc n ∧
      t.pr p = (if q.buf.length + (q.drain.map fun d => d.2.length).sum = 447 then mark p ic.toNat 0xFFFF 2 q' s u.ctTicks else q') ∧
      t.rd (Reg.CHK_Px_LAG_NOW p) = min (n - (t.pr p).chkIc) 65535 ∧ t.time = u.time ∧ kept s t) ∧
  (∀ (p : Fin 2) (ic : BitVec 64) (addr : Word) (mask : BitVec 8) (data : BitVec 64) (s : State), s.live p = true →
    s.pairOn p = true → coupled addr.toNat → s.chkCan p ic.toNat = true →
    Completes (.coupledStore p true ic addr mask data) s fun t =>
      let q := s.pr p
      let r : RelStore := { addr := addr.toNat, mask := mask.toNat, data := data.toNat }
      (t.pr p).chkSig = sigRecord q.chkSig r ∧ (t.pr p).chkBuf = q.chkBuf ++ [r] ∧ (t.pr p).chkIc = max q.chkIc ic.toNat ∧
      (t.pr p).buf = q.buf ∧ (t.pr p).sig = q.sig ∧ t.time = s.time ∧ kept s t) ∧
  (∀ (p : Fin 2) (c : Bool) (ic : BitVec 64) (addr : Word) (mask : BitVec 8) (data : BitVec 64) (s : State), s.live p = true →
    s.calm → ¬ coupled addr.toNat → Completes (.coupledStore p c ic addr mask data) s fun t => t = s) ∧
  (∀ (p : Fin 2) (ic : BitVec 64) (v : Word) (s : State), s.live p = true → s.pairOn p = true → s.mainStalled p = false →
    s.mainCan p ic.toNat = true → (s.pr p).lagAt = none → Completes (.chkpt p ic v) s fun t =>
      let q := s.pr p
      let u := reachClk q.resumeAt s
      t.pr p = mark p ic.toNat (v.toNat % 65536) 1
        { q with mainIc := max q.mainIc ic.toNat, chkIc := (t.pr p).chkIc, lagAt := (t.pr p).lagAt
                 wfi := q.wfi && decide (ic.toNat ≤ q.mainIc) } s u.ctTicks ∧
      t.time = u.time) ∧
  (∀ (p : Fin 2) (ic : BitVec 64) (i : ExInput) (first : BitVec 64 × BitVec 64) (again : List (BitVec 64 × BitVec 64))
    (differ : Bool) (e : Ecc) (s : State), s.live p = true → s.pairOn p = true → s.canMeet p ic.toNat = true →
    match s.exchangeRule i with
    | none => Completes (.inputExchange p ic i first again differ e) s fun t => t = s
    | some (rule, retry, tol) =>
      let seen := fun (v : BitVec 64 × BitVec 64) => match i with
        | .load a => (forwarded ((s.pr p).drain.flatMap (fun d => d.2) ++ (s.pr p).buf) 8 a.toNat v.1.toNat,
            forwarded ((s.pr p).drain.flatMap (fun d => d.2) ++ (s.pr p).chkBuf) 8 a.toNat v.2.toNat)
        | .csr _ => (v.1.toNat, v.2.toNat)
      let reads := ((first :: again).map seen).take (if rule = 0 then retry + 1 else 1)
      let ok := fun (r : Nat × Nat) => if rule = 2 then ((r.2 : Int) - r.1) % 2 ^ 32 ≤ tol else r.1 = r.2
      match reads.find? (fun r => decide (ok r)) with
      | some r => Completes (.inputExchange p ic i first again differ e) s fun t =>
          if differ = true ∧ s.cmpOk p 0 = true ∧ s.cmpOk p 1 = true then lost p 3 s t
          else t.dev.readData = r.1 ∧ (t.pr p).mainIc = max (s.pr p).mainIc ic.toNat ∧ t.pairState p = s.pairState p ∧
            (t.pr p).resumeAt = t.time.clk + 2 ∧ t.rd (Reg.CHK_Px_XCNT p) = min (s.rd (Reg.CHK_Px_XCNT p) + 1) (2 ^ 32 - 1)
      | none => Completes (.inputExchange p ic i first again differ e) s fun t =>
          if rule = 0 ∧ again.length < retry then t = s
          else lost p (if differ = true ∧ s.cmpOk p 0 = true ∧ s.cmpOk p 1 = true then 3 else 1) s t) ∧
  (∀ (p : Fin 2) (ea eb : Ecc) (fa fb : Bool) (s : State) (m : Mark) (rest : List Mark), s.live p = true →
    s.pairOn p = true → (s.pr p).fifo = m :: rest → s.chkCan p m.ic = true →
    Completes (.checkpointCompare p ea eb fa fb) s fun t =>
      let q := s.pr p
      let counted := match q.lagAt with
        | some at' => if s.rd Reg.CHK_CFG_LAG_MAX < q.mainIc - max q.chkIc m.ic then max at' m.at' - m.at'
          else s.ctTicks - (m.at' + (s.ctTicks - max at' m.at'))
        | none => s.ctTicks - m.at'
      let verdict := fun (e : Ecc) (faulty : Bool) => (decide (q.chkSig = m.sig) && decide (e ≠ .uncorrectable)) != faulty
      let useA := s.cmpOk p 0
      let useB := s.cmpOk p 1
      if s.rd Reg.CHK_CFG_CP_TOUT < counted then lost p 2 s t
      else if useA = true ∧ useB = true ∧ verdict ea fa ≠ verdict eb fb then lost p 3 s t
      else if (useA = true ∧ verdict ea fa = true) ∨ (useA = false ∧ useB = true ∧ verdict eb fb = true) then
        (t.pr p).buf = q.buf.drop m.stores ∧ (t.pr p).drain = q.drain ++ [(m.ic, q.buf.take m.stores)] ∧
        (t.pr p).fifo.map Mark.ic = (rest ++ q.stalled.toList).map Mark.ic ∧ (t.pr p).stalled = none ∧
        (t.pr p).chkIc = max q.chkIc m.ic ∧ (t.pr p).chkSig = 2 ^ 64 - 1 ∧ (t.pr p).chkBuf = [] ∧
        t.rd (Reg.CHK_Px_CP_CPID p) = m.cpid % 65536 ∧ t.rd (Reg.CHK_Px_ICL p) = m.ic % 2 ^ 32 ∧
        kept s t ∧ t.pairState p = pairINSERVICE
      else lost p 0 s t) ∧
  ∀ (p : Fin 2) (s : State) (m : Mark) (rest : List Mark), s.live p = true → s.pairOn p = true →
    (s.pr p).fifo = m :: rest → Completes (.cpTimeout p) s fun t =>
      if (s.pr p).lagAt = none then
        lost p 2 (reach (m.at' + s.rd Reg.CHK_CFG_CP_TOUT) s) t ∧
        t.time = (reach (m.at' + s.rd Reg.CHK_CFG_CP_TOUT) s).time
      else t = s

/-- With the pair's domain on: the oldest agreed release drains to shared SRAM in order, one store a clock, its pair's
word ends the hold of the outputs it owns, and a wrong drain signature loses the pair with RELEASE_ERR while the
stores stay; OHOLD_EXPIRY drops held bits to 0; REJOIN makes a LOST pair of a device that is not split REJOINING
with fresh cores; ASSAY of a pair whose cores wait for it, rejoining or OFF in a device that has booted an image,
reports both comparators, keeps a failed one out, releases the cores when one serves, and else leaves the pair LOST
with REJOIN_FAIL from REJOINING; unequal scrub hashes hold LATENT_DIVERGENCE, set RESYNC and lose the pair when a
resync was recent; a resync begins when the main core waits in wfi with nothing buffered, logged or marked and the
checker at its IC, and copies the main core to the checker. (R260, R267, R269, R270, R271, R273, R274, R275, R276.) -/
def Obligations.ReleasesTransfersAndRejoin : Prop :=
  let lost := fun (p kind : Nat) (t : State) => t.pairState p = pairLOST ∧ (t.pr p).buf = [] ∧ (t.pr p).fifo = [] ∧
    (t.pr p).drain = [] ∧ t.rd (Reg.CHK_Px_LOSS p) = kind ∧ t.isHeld (0x2400 + 16 * p + kind) = true
  let due := fun (p : Nat) (s : State) => s.split = false ∧ s.dev.state ≠ .boot ∧ s.sec.image.isSome = true ∧
    (s.pr p).released = false ∧ (s.pairState p = pairREJOINING ∨ s.pairState p = pairOFF)
  (∀ (p : Fin 2) (ok : Bool) (s : State) (ic : Nat) (sts : List RelStore) (rest : List (Nat × List RelStore)),
    s.live p = true → s.pairOn p = true → (∀ o ∈ s.pwr.stalled, o.m ≠ mainCore p) → (s.pr p).drain = (ic, sts) :: rest →
    (∀ st ∈ sts, inSram (st.addr - st.addr % 8) 8 = true) → Completes (.releaseDrain p ok) s fun t =>
      let store := fun (m : List Host.Cell) (st : RelStore) => (BusOp.parts { m := mainCore p, st := st, write := true }).foldl
        (fun m w => putWord m w.1 (mergeWord (getWord m w.1) w.2.1 w.2.2)) m
      t.time.clk = s.time.clk + sts.length ∧ (s.on Reg.HIF_CFG_EVTEN = false → t.mem = sts.foldl store s.mem) ∧
      if ok = true then (t.pr p).drain = rest ∧ (t.pr p).buf = (s.pr p).buf ∧
        (∀ b < 12, tb t.chk.hold b = (tb s.chk.hold b && tb s.eown b != decide (p.val = 1))) ∧ t.pairState p = s.pairState p
      else lost p 4 t) ∧
  (∀ s : State, s.runs = true → Completes .oholdExpiry s fun t =>
    if s.chk.hold ≠ 0 ∧ s.chk.holdLeft = 0 then
      OnlyFaults { s with chk := { s.chk with holdVal := 0 } } t ∧ ∀ b < 12, tb s.chk.hold b = true → t.outBit b = false
    else t = s) ∧
  (∀ (p : Fin 2) (s : State), s.runs = true → s.calm → Completes (.rejoin p) s fun t =>
    if s.pairState p = pairLOST ∧ s.split = false then
      let q := s.pr p
      t.pairState p = pairREJOINING ∧
      t.pr p = { failed := q.failed, main := { mem := q.main.mem }, chk := { mem := q.chk.mem } } ∧
      t.rd (Reg.CHK_Px_LAG_NOW p) = 0 ∧ t.pends (12 + p) = true ∧ t.chk = s.chk
    else t = s) ∧
  (∀ (p : Fin 2) (a b : Option (Fin 66)) (s : State), ¬ due p s → Completes (.assay p a b) s fun t => t = s) ∧
  (∀ (p : Fin 2) (a b : Option (Fin 66)) (s : State), s.live p = true → due p s → Completes (.assay p a b) s fun t =>
      let okA := a.isNone && ! tb (s.pr p).failed 0
      let okB := b.isNone && ! tb (s.pr p).failed 1
      t.cmpOk p 0 = okA ∧ t.cmpOk p 1 = okB ∧ t.bit Reg.CHK_ASSAY_RAN (2 * p) = true ∧
      t.bit Reg.CHK_ASSAY_PASS (2 * p) = a.isNone ∧ t.bit Reg.CHK_ASSAY_PASS (2 * p + 1) = b.isNone ∧ t.pends 15 = true ∧
      (∀ i < 2, tb (t.pr p).failed i = (tb (s.pr p).failed i || ! if i = 0 then okA else okB)) ∧
      (okA ≠ okB → t.isHeld (Fc.CMP_FALLBACK p) = true) ∧
      (if okA = true ∨ okB = true then (t.pr p).released = true ∧
          SMap.get 0 (t.pr p).main.regs 64 = s.resetVector ∧ SMap.get 0 (t.pr p).chk.regs 64 = s.resetVector ∧
          t.pairState p = (if s.pairState p = pairOFF then pairINSERVICE else s.pairState p)
        else t.pairState p = pairLOST ∧ (s.pairState p = pairREJOINING → t.isHeld (Fc.REJOIN_FAIL p) = true) ∧
          (s.pairState p = pairOFF → s.dev.state = .assay → t.dev.state = .safe))) ∧
  (∀ (p : Fin 2) (vm vc : List (DbgTarget × BitVec 64)) (s : State), s.live p = true → s.pairOn p = true →
    (s.pr p).scrubWait = true → Completes (.scrubCompare p vm vc) s fun t =>
      let m := (s.pr p).main.with' vm
      let c := (s.pr p).chk.with' vc
      (t.pr p).scrubWait = false ∧ (t.pr p).main = m ∧ (t.pr p).chk = c ∧
      t.rd (Reg.CHK_Px_SCRUB_DONE p) = min (s.rd (Reg.CHK_Px_SCRUB_DONE p) + 1) (2 ^ (Reg.CHK_Px_SCRUB_DONE p).w - 1) ∧
      (m.hash = c.hash → t.pr p = { s.pr p with scrubWait := false, main := m, chk := c } ∧ t.on (resyncFld p) = s.on (resyncFld p)) ∧
      (m.hash ≠ c.hash → t.isHeld (Fc.LATENT_DIVERGENCE p) = true ∧ t.on (resyncFld p) = true ∧ t.pends 14 = true ∧
        ((s.pr p).resyncFc.any (fun f => s.time.fc.toNat - f ≤ 10 * s.rd Reg.CHK_CFG2_SCRUB_INT) = true → lost p 5 t))) ∧
  (∀ (p : Fin 2) (wfi : Bool) (ic : BitVec 64) (s : State), s.live p = true → Completes (.pairResync p wfi ic) s fun t =>
      let q := s.pr p
      if s.pairOn p = true ∧ s.on (resyncFld p) = true ∧ (wfi = true ∨ q.wfi = true) ∧ q.buf = [] ∧ q.drain = [] ∧ q.fifo = [] ∧ q.log = [] ∧
          ic.toNat = q.mainIc ∧ q.resync = false then
        t.pr p = { q with resync := true, wfi := true, chkIc := q.mainIc, lagAt := none } ∧
        t.mainStalled p = true
      else t = s) ∧
  ∀ (p : Fin 2) (s : State), s.live p = true → (s.pr p).resync = true → Completes (.pairResyncEnd p) s fun t =>
    t.pr p = { s.pr p with resync := false, chk := (s.pr p).main, resyncFc := some s.time.fc.toNat } ∧
    t.on (resyncFld p) = false ∧ t.pends 14 = true

/-- With the pair's domain on: an AMO or SC outside private memory traps both cores with cause 7 and an LR with cause 5;
the checker, once it can have reached the oldest logged delivery, takes it with its mcause at its IC and frees the
entry (it only waits there for a debug request); under FULL debug a halt is taken outside ACTIVE and LEE, with room
in the log, and recorded in it, and refused else; a change reaches the main core, is logged with the IC and reaches
the checker when it stands there (x0 never changes), where a change of minstret moves the counts of both cores to
the value written; a step moves the main core by one, and the checker with it when it stands at the halt; a resume
ends the halt. An access fault changes nothing but the two cores, and the others no register but CHK_Px_LAG and
those faults write. (R255, R265, R266, R278.) -/
def Obligations.PairTrapsAndDebug : Prop :=
  let only := fun (p : Nat) (s t : State) => ∀ f, Fld.ofFaults f = false → f.key ≠ (Reg.CHK_Px_LAG_NOW p).key →
    f.key ≠ (Reg.CHK_Px_LAG_MAX p).key → t.rd f = s.rd f
  let seen := fun (q : PairSt) (ch : Nat × Nat × Nat) => if ch.1 ≤ q.chkIc then q.chk.apply ch else q.chk
  let moved := fun (q : PairSt) (at' n : Nat) =>
    match ((q.dbgLog.filter fun ch : Nat × Nat × Nat => ch.1 ≤ at').reverse.find? fun ch => ch.2.1 = 4096 + 0xB02) with
    | some ch => (n - ch.1 + ch.2.2) % 2 ^ 64
    | none => n
  (∀ (p : Fin 2) (lr : Bool) (s : State), s.live p = true → Completes (.accessFault p lr) s fun t =>
    if s.pairOn p = true then
      let c := some (if lr then 5 else 7)
      Settled (s.setPr p { s.pr p with main := { (s.pr p).main with trap := c }, chk := { (s.pr p).chk with trap := c } }) t
    else t = s) ∧
  (∀ (p : Fin 2) (s : State) (d : Delivery) (rest : List Delivery), s.live p = true → (s.pr p).log = d :: rest →
    Completes (.checkerTrap p) s fun t =>
      if s.pairOn p = true ∧ s.chkCan p d.ic = true then
        let c := max (s.pr p).chkIc d.ic
        only p s t ∧ (t.pr p).log = rest.map (fun x : Delivery => { x with ic := moved (s.pr p) c x.ic }) ∧
        (t.pr p).chkIc = moved (s.pr p) c c ∧ (t.pr p).main = (s.pr p).main ∧ (t.pr p).buf = (s.pr p).buf ∧ (d.debug = false → (t.pr p).chk.trap = some d.mcause)
      else t = s) ∧
  (∀ (p : Fin 2) (ic : BitVec 64) (s : State), s.live p = true → Completes (.debugHalt p ic) s fun t =>
    if s.debugFull = true ∧ s.dev.state ≠ .active ∧ s.dev.state ≠ .lee ∧ (s.pr p).halted = none ∧
        (s.pr p).log.length < 64 ∧ s.mainCan p ic.toNat = true then
      let c := max (s.pr p).mainIc ic.toNat
      only p s t ∧ (t.pr p).mainIc = c ∧ (t.pr p).halted = some c ∧
      (t.pr p).log = (s.pr p).log ++ [{ ic := c, mcause := 0, src := 0, debug := true }] ∧
      (t.pr p).main = (s.pr p).main ∧ t.mainStalled p = true
    else t = s) ∧
  (∀ (p : Fin 2) (x : DbgTarget) (v : BitVec 64) (s : State) (c : Nat), s.live p = true → (s.pr p).halted = some c →
    Completes (.debugWrite p x v) s fun t =>
      if s.debugFull = true ∧ x ≠ .x 0 then
        let ch := (c, dbgIndex x, match x with | .mem _ => v.toNat % 256 | _ => v.toNat)
        (t.pr p).main = (s.pr p).main.apply ch ∧
        ((s.pr p).dbgLog = [] → (t.pr p).chk = seen (s.pr p) ch ∧
          (t.pr p).dbgLog = (if c ≤ (s.pr p).chkIc then [] else [ch]) ∧
          if x = .csr 0xB02 ∧ c ≤ (s.pr p).chkIc then
            (t.pr p).mainIc = ((s.pr p).mainIc - c + v.toNat) % 2 ^ 64 ∧ (t.pr p).halted = some v.toNat
          else (t.pr p).mainIc = (s.pr p).mainIc ∧ (t.pr p).halted = some c) ∧
        (s.calm → t.regs = s.regs)
      else t = s) ∧
  (∀ (p : Fin 2) (s : State) (c : Nat), s.live p = true → (s.pr p).halted = some c → s.debugFull = true →
    Completes (.debugStep p) s fun t =>
      let r := moved (s.pr p) (s.pr p).chkIc
      let n := max (r (s.pr p).mainIc) ((r c + 1) % 2 ^ 64)
      only p s t ∧ (t.pr p).halted = some n ∧ (t.pr p).mainIc = n ∧ (t.pr p).main = (s.pr p).main ∧
      ((s.pr p).chkIc = c → (s.pr p).log = [] → (t.pr p).chkIc = max (r c) n)) ∧
  ∀ (p : Fin 2) (s : State) (c : Nat), s.live p = true → (s.pr p).halted = some c → s.debugFull = true →
    Completes (.debugResume p) s fun t => only p s t ∧ (t.pr p).halted = none ∧ (t.pr p).main = (s.pr p).main ∧
      (t.pr p).dbgLog = ((s.pr p).dbgLog.filter fun ch : Nat × Nat × Nat => (s.pr p).chkIc < ch.1).map
        fun ch => (moved (s.pr p) (s.pr p).chkIc ch.1, ch.2)

/-- At P1 the holder sends RENEW, or HEALTH when its LEFT is 0 or it yields; the heir of an expired lease sends TAKE
with the next term, waiting CTO cycles at term 31; a channel with a bulk request and a holder sends BULK_REQ, any
other HEALTH. At P2 a channel that received the RENEW of the recognised holder and term sends GRANT; one whose LEFT
is 0, that saw no RENEW and a TAKE of its heir and voted for no other in that term sends TGRANT and its vote stands
for that term; holder, OFFLINE and others send HEALTH. The clock stands at the instant, and nothing but the lease's
own state and what time brings changes; a second P1 or P2 in a cycle does nothing. (R291, R292, R293, R295, R296,
R297.) -/
def Obligations.LeaseMessagesSent : Prop :=
  let word := fun (s : State) (k e tgt : Nat) => [k + s.ch * 2 ^ 4 + s.holder * 2 ^ 6 + e % 32 * 2 ^ 8 + tgt * 2 ^ 13, s.cn, s.rd Reg.SEAM_HEALTH]
  (∀ s : State, s.live pdNET = true → Completes .p1 s fun t =>
    let at' := s.cycleStart + 2000
    if s.inLease = true ∧ s.seam.p1Done = false ∧ s.seam.p2Done = false ∧ at' < s.frameEnd then
      let x := s.seam
      let wait := x.term ≠ none ∧ s.epoch = 31 ∧ x.takeWait < s.cto
      let term := if x.term = none then 0 else min (s.epoch + 1) 31
      let msg :=
        if s.iHold = true then (if s.left = 0 ∨ s.yields = true then (5, s.epoch, 0) else (1, s.epoch, 0))
        else if s.left = 0 ∧ s.role = roleSTANDBY ∧ s.dev.state = .standby ∧ s.heir = s.ch then
          (if wait then (5, s.epoch, 0) else (3, term, 0))
        else if x.bulkReq = true ∧ s.holder ≠ 0 then (6, s.epoch, s.holder) else (5, s.epoch, 0)
      t.seam.lastTx = word s msg.1 msg.2.1 msg.2.2 ∧ t.seam.p1Done = true ∧
      t.seam.sentRenew = (x.sentRenew || decide (msg.1 = 1)) ∧
      t.seam.sentTake = (if msg.1 = 3 then some term else x.sentTake) ∧ t.seam.voted = x.voted ∧
      OnlyFaults (setSeam t.seam (reach at' s)) t
    else t = s) ∧
  ∀ s : State, s.live pdNET = true → Completes .p2 s fun t =>
    let at' := s.cycleStart + s.cycleTicks / 2
    if s.inLease = true ∧ s.seam.p2Done = false ∧ at' < s.frameEnd then
      let x := s.seam
      let h := s.holder
      let c := s.heir
      let e := s.p1Epoch c
      let vote := SMap.get 0 x.voted e
      let grant := h ≠ 0 ∧ h ≠ s.ch ∧ s.p1Is h lkRENEW = true ∧ s.p1Epoch h = s.epoch
      let tgrant := s.left = 0 ∧ c ≠ 0 ∧ c ≠ s.ch ∧ s.p1Is c lkTAKE = true ∧ (∀ o ∈ s.others, s.p1Is o lkRENEW = false) ∧
        (vote = 0 ∨ vote = c)
      let msg :=
        if s.iHold = true ∨ s.role = roleOFFLINE then (5, s.epoch, 0)
        else if grant then (2, s.epoch, h) else if tgrant then (4, e, c) else (5, s.epoch, 0)
      t.seam.lastTx = word s msg.1 msg.2.1 msg.2.2 ∧ t.seam.p2Done = true ∧
      t.seam.sentGrant = (x.sentGrant || decide (msg.1 = 2)) ∧
      t.seam.sentTgrant = (if msg.1 = 4 then some (c, e) else x.sentTgrant) ∧
      (msg.1 = 4 → SMap.get 0 t.seam.voted e = c) ∧ (∀ k, SMap.get 0 x.voted k ≠ 0 → SMap.get 0 t.seam.voted k = SMap.get 0 x.voted k) ∧
      OnlyFaults (setSeam t.seam (reach at' s)) t
    else t = s

/-- For each kind of lease message on a live network domain: a frame that fails a guard of R300 counts and is discarded,
a message to a DOWN port or outside the lease changes nothing; a sender outside the set, a foreign CN or a P1
message after P2 is rejected and counted; an equal copy changes nothing; a differing one is counted, marks the
message of the instant bad and, where no other message of the sender stands, takes back the health word and the age,
and a RENEW's holder and term or a BULK_REQ's bulk that nothing newer replaced; the first copy is recorded for its
instant, with the health word and an age of 0. A RENEW is recognised as holder only by a channel that is not ACTIVE,
whose LEFT is 0 and whose highest term is lower; a BULK_REQ addressed to a holder with BULK_EN that sends none
starts a bulk, whose time goes on where it asks again for the one it was sent (log entry 2431); no other kind
touches holder, term or bulk. (R291, R292, R293, R300, R302, R304, R306.) -/
def Obligations.LeaseMessagesReceived : Prop :=
  let got := fun (k : Nat) (c : Instr) (m : LeaseMsg) (path : LeasePath) => ∀ s : State, s.live pdNET = true →
    Completes c s fun t =>
      let from' := m.sender.val
      let words := [k, m.holder.val, m.epoch.val, m.target.val, m.health.toNat]
      let p2 := k = 2 ∨ k = 4 ∨ (k = 5 ∧ s.seam.p2Done = true)
      let x := s.peer from'
      let y := t.peer from'
      let stored := if p2 then x.msg2 else x.msg1
      let accepted :=
        if from' ∉ s.others ∨ m.cn.toNat ≠ s.cn ∨ (¬ p2 ∧ s.seam.p2Done = true) then
          OnlyFaults (s.inc Reg.SEAM_REJ) t ∧ t.pends 159 = true
        else match stored with
          | some w =>
            if w = words then Settled s t
            else if (if p2 then x.bad2 else x.bad1) = true then OnlyFaults (s.inc Reg.SEAM_REJ) t ∧ t.pends 159 = true
            else
              let was := if p2 then x.was2 else x.was1
              let other := if p2 then x.msg1 ≠ none ∧ x.bad1 = false else x.msg2 ≠ none ∧ x.bad2 = false
              t.rd Reg.SEAM_REJ = min (s.rd Reg.SEAM_REJ + 1) (2 ^ Reg.SEAM_REJ.w - 1) ∧ t.pends 159 = true ∧
              y.bad1 = (x.bad1 || decide (¬ p2)) ∧ y.bad2 = (x.bad2 || decide p2) ∧ t.time = s.time ∧ t.left = s.left ∧
              (other → y.now = x.now ∧ t.rd (Reg.SEAM_PHc from') = s.rd (Reg.SEAM_PHc from') ∧ t.age from' = s.age from') ∧
              (¬ other → y.now = was.now ∧ y.lostUp = was.lostUp ∧ t.rd (Reg.SEAM_PHc from') = was.word % 2 ^ 32 ∧
                t.age from' = was.age % 256) ∧
              (if w.headD 0 = 1 ∧ s.holder = from' ∧ s.epoch = w.getD 2 0 ∧ s.seam.term ≠ was.term then
                t.holder = was.holder % 4 ∧ t.epoch = was.epoch % 32 ∧ t.seam.term = was.term
               else t.holder = s.holder ∧ t.epoch = s.epoch ∧ t.seam.term = s.seam.term) ∧
              (if w.headD 0 = 6 ∧ s.seam.bulkFor = from' ∧ s.seam.bulkGen ≠ was.bulkGen then
                t.rd Reg.SEAM_STAT_BULK = was.bulk % 4 ∧ t.seam.bulkGen = was.bulkGen ∧ t.seam.bulkFor = was.bulkFor ∧ t.seam.bulkAt = was.bulkAt
               else t.rd Reg.SEAM_STAT_BULK = s.rd Reg.SEAM_STAT_BULK ∧ t.seam.bulkGen = s.seam.bulkGen)
          | none =>
            y.now = some m.health.toNat ∧ y.lostUp = false ∧ (p2 → y.msg2 = some words ∧ y.msg1 = x.msg1) ∧
            (¬ p2 → y.msg1 = some words ∧ y.msg2 = x.msg2) ∧ t.rd (Reg.SEAM_PHc from') = m.health.toNat ∧ t.age from' = 0 ∧
            (hwRole (s.rd (Reg.SEAM_PHc from')) ≠ hwRole m.health.toNat → t.pends 157 = true) ∧
            (t.role = s.role → if k = 1 ∧ s.left = 0 ∧ s.role ≠ roleACTIVE ∧ (∀ e, s.seam.term = some e → e < m.epoch.val) then
               t.holder = from' ∧ t.epoch = m.epoch.val ∧ t.seam.term = some m.epoch.val
             else t.holder = s.holder ∧ t.epoch = s.epoch ∧ t.seam.term = s.seam.term) ∧
            (t.role = s.role → if k = 6 ∧ m.target.val = s.ch ∧ s.iHold = true ∧ s.on Reg.SEAM_CTRL_BULK_EN = true ∧ s.rd Reg.SEAM_STAT_BULK ≠ 2 then
               t.rd Reg.SEAM_STAT_BULK = 2 ∧ t.rd Reg.SEAM_BULKST = 0 ∧ t.seam.bulkFor = from' ∧
               t.seam.bulkGen = (s.seam.bulkGen + 1) % 2 ^ 32 ∧ t.seam.bulkAt =
                 (if s.seam.bulkGen ≠ 0 ∧ s.seam.bulkFor = from' ∧ s.time.clk < s.seam.bulkAt + 100000000 ∧
                   s.rd Reg.SEAM_STAT_BULK ≠ 3 then s.seam.bulkAt else s.time.clk)
             else t.rd Reg.SEAM_STAT_BULK = s.rd Reg.SEAM_STAT_BULK ∧ t.rd Reg.SEAM_BULKST = s.rd Reg.SEAM_BULKST) ∧
            t.left = s.left ∧ t.time = s.time ∧ (s.on Reg.HIF_CFG_EVTEN = false → t.mem = s.mem)
      match path with
      | .fudorlink => if s.inLease = true then accepted else t = s
      | .seam p h =>
        let payload := [k + from' * 2 ^ 4 + m.holder.val * 2 ^ 6 + m.epoch.val % 32 * 2 ^ 8 + m.target.val * 2 ^ 13, m.cn.toNat,
          m.health.toNat]
        if s.seamLive p = false then t = s
        else if h.codeOk = false ∨ h.ty.toNat ≠ 1 ∨ h.len.toNat ≠ 12 ∨
            crc32 (seamBody 1 h.seq.toNat 12 h.tag.toNat payload) ≠ h.crc.toNat then
          OnlyFaults (s.inc (seamCrcF p)) t ∧ t.pends 159 = true
        else if s.inLease = true then accepted else t = s
  ∀ (m : LeaseMsg) (path : LeasePath), got 1 (.leaseRenew m path) m path ∧ got 2 (.leaseGrant m path) m path ∧
    got 3 (.leaseTake m path) m path ∧ got 4 (.tgrant m path) m path ∧ got 5 (.health m path) m path ∧
    got 6 (.bulkReq m path) m path

/-- At a boundary LEFT becomes L only by the holder's renewal, a grant, a TGRANT or a takeover, and else falls by one;
TAKEOVER makes the channel holder of the requested term in ACTIVE (or LEE). LEFT 0 at the holder raises
LEASE_LAPSED, takes ACTIVE to STANDBY and LEE to SAFE whatever the reaction and drops the holder; L silent cycles
raise PEER_LOST once; a holder alone for a cycle holds LAST_CHANNEL; a worker's cycle without a manager claim holds
NO_MGR_CLAIM; at the boundary after L + 1 listened cycles the channel of a starting set becomes STANDBY, and
OBSERVER at once under a Lee cause. (R286, R290, R293, R294, R295, R296, R302.) -/
def Obligations.LeaseBoundaryAndEvents : Prop :=
  (∀ s : State, let t := leaseRule s
    let renews := s.iHold = true ∧ s.inLease = true ∧ s.seam.sentRenew = true ∧ 0 < s.left ∧ s.gathered = true
    let stays := ∀ e, s.seam.sentTake = some e → s.takes e = false
    (∀ e, s.seam.sentTake = some e → s.takes e = true → t.left = s.leaseL ∧ t.holder = s.ch ∧ t.epoch = e % 32 ∧
      (t.dev.state ≠ .safe → (t.dev.state = .active ∨ t.dev.state = .lee) ∧ t.role = roleACTIVE)) ∧
    (stays → (renews ∨ s.seam.sentGrant = true) → t.left = s.leaseL ∧ t.holder = s.holder ∧
      t.epoch = s.epoch ∧ t.rd Reg.SEAM_RENEW = s.cn) ∧
    (∀ c e, stays → ¬ renews → s.seam.sentGrant = false → s.seam.sentTgrant = some (c, e) →
      t.left = s.leaseL ∧ t.holder = c % 4 ∧ t.epoch = e % 32) ∧
    (stays → ¬ renews → s.seam.sentGrant = false → s.seam.sentTgrant = none →
      t.left = s.left - 1 ∧ t.epoch = s.epoch ∧ t.role = s.role ∧ (t.holder = if s.left = 1 ∧ s.iHold = false then 0 else s.holder))) ∧
  (∀ s : State, s.live pdNET = true → Completes .leaseLapsed s fun t =>
    if s.iHold = true ∧ s.left = 0 then
      t.isHeld Fc.LEASE_LAPSED = true ∧ t.holder = 0 ∧ t.seam.lapsed = some s.ch ∧
      (s.dev.state = .lee → t.dev.state = .safe ∧ t.role = roleOFFLINE ∧ t.claim = 0) ∧
      (s.dev.state = .active → t.dev.state = .standby ∨ t.dev.state = .safe) ∧
      (s.inLease = true → t.role = roleSTANDBY → t.rd Reg.SEAM_CLAIM_CLAIM = 4 + s.ch) ∧
      t.epoch = s.epoch ∧ t.time = s.time ∧ t.axs = s.axs
    else t = s) ∧
  (∀ (c : Fin 3) (s : State), s.live pdNET = true → Completes (.peerLost c) s fun t =>
    let k := c.val + 1
    if s.inLease = true ∧ k ∈ s.others ∧ s.leaseL ≤ s.age k ∧ (s.peer k).lostUp = false then
      OnlyFaults (setPeer k { s.peer k with lostUp := true } s) t ∧ t.isHeld Fc.PEER_LOST = true
    else t = s) ∧
  (∀ s : State, s.live pdNET = true → Completes .lastChannel s fun t =>
    if s.seam.aloneDue = true ∧ s.iHold = true then
      OnlyFaults (setSeam { s.seam with aloneDue := false } s) t ∧ t.isHeld Fc.LAST_CHANNEL = true
    else t = s) ∧
  (∀ s : State, s.live pdNET = true → Completes .noMgrClaim s fun t =>
    if s.seam.noClaimDue = true then
      OnlyFaults (setSeam { s.seam with noClaimDue := false } s) t ∧ t.isHeld Fc.NO_MGR_CLAIM = true
    else t = s) ∧
  ∀ s : State, s.live pdNET = true → Completes .setStart s fun t =>
    match s.seam.listened with
    | none => t = s
    | some n =>
      if s.leaseL + 1 ≤ n ∧ s.seam.setDone = false ∧ s.fidx = 0 ∧ s.inLease = true ∧ s.role = roleOFFLINE ∧
          s.dev.state = .standby then
        t.seam.setDone = true ∧ t.holder = s.holder ∧ t.epoch = s.epoch ∧
        (s.seam.holderSeen = true → t.role = roleOFFLINE) ∧
        (s.seam.holderSeen = false → (t.dev.state = .standby → t.role = roleSTANDBY ∨ t.role = roleOBSERVER) ∧
          (s.leeCause = true → t.role ≠ roleSTANDBY) ∧
          (t.role = roleSTANDBY → t.rd Reg.SEAM_CLAIM_CLAIM = 4 + s.ch ∨ t.rd Reg.SEAM_CLAIM_CLAIM = 8 + s.ch))
      else t = s

/-- On a live network domain: a state segment that passes the guards of R300 is written at its place in the idle half
and continues the copy only in sequence with one TAG; the snapshot counts as sent when every enabled port of the set
is UP; at a boundary a device of the set that is not the holder counts the copy of two cycles before as missed when
it is not complete, once, drops it but no newer one, goes on counting from before a newer one just applied, and with
the fourth in a row holds COPY_STALE and takes STANDBY to OBSERVER; RESYNC by a channel that may serve and has to
rejoin asks for the bulk; a bulk segment is written at its place, clears the request and, while no bulk is received,
dates the bulk; the bulk-end frame ends it on a complete region with matching CRC and else asks again; the sender's
end clears sending once the link has carried it; 250 ms after the first segment raise RESYNC_FAIL at either end;
STANDBY_OK is kept for the boundary. Frames that fail a guard are discarded and counted. (R300, R301, R302, R304,
R306.) -/
def Obligations.StateAndBulkCopies : Prop :=
  let bad := fun (p : Nat) (s t : State) => OnlyFaults (s.inc (seamCrcF p)) t ∧ t.pends 159 = true
  let fails := fun (ty : Nat) (h : SeamHead) (words : List Word) => h.codeOk = false ∨ h.ty.toNat ≠ ty ∨
    h.len.toNat ≠ 4 * words.length ∨ words.length < 3 ∨ 256 < words.length ∨
    crc32 (seamBody ty h.seq.toNat h.len.toNat h.tag.toNat (words.map BitVec.toNat)) ≠ h.crc.toNat
  (∀ (p : Fin 2) (h : SeamHead) (words : List Word) (s : State), s.live pdNET = true →
    Completes (.stateSegment p h words) s fun t =>
      let q := h.seq.toNat
      let tag := h.tag.toNat
      if s.seamLive p = false then t = s
      else if fails 2 h words ∨ s.rd Reg.SEAM_TXSZ ≤ q then bad p s t
      else if s.inSet = false ∨ s.iHold = true then t = s
      else
        let x := s.seam
        let idle := s.rd Reg.SEAM_RX * 1024 + (1 - s.rd Reg.SEAM_RXSTAT_BANK) * (s.rd Reg.SEAM_TXSZ * 1024)
        let good := q = 0 ∨ (x.rxTag = some tag ∧ q = x.rxNext)
        let full := good ∧ q + 1 = s.rd Reg.SEAM_TXSZ
        let u := { s with mem := putWords s.mem (idle + 1024 * q) (words.map BitVec.toNat) }
        Settled (setSeam { x with rxTag := if good then some tag else none, rxNext := if good then q + 1 else 0, rxDone := decide full, rxTags := if full then (tag :: x.rxTags).take 4 else x.rxTags } u) t) ∧
  (∀ s : State, s.live pdNET = true → Completes .stateCopySend s fun t =>
    if s.seam.snapNow ≠ none ∧ s.iHold = true then
      let u := advance (s.seam.txEnd - s.time.clk) s
      t.seam.snapNow = some (s.setPorts.all fun p => s.on (seamUp p)) ∧ OnlyFaults (setSeam t.seam u) t ∧
      (s.rd Reg.SEAM_STAT_BULK ≠ 2 → t.seam = { s.seam with snapNow := t.seam.snapNow })
    else t = s) ∧
  (∀ s : State, s.live pdNET = true → Completes .copyMissed s fun t =>
    let due := (s.cn + 2 ^ 32 - 2) % 2 ^ 32
    if s.inSet = true ∧ s.iHold = false ∧ due ∉ s.seam.rxTags ∧ s.fidx = 0 ∧ s.time.ft = 0 ∧ s.seam.missCn ≠ some s.cn then
      let newer := s.seam.applied = some ((due + 1) % 2 ^ 32)
      let n := (if newer then s.seam.missWas else s.rd Reg.SEAM_RXSTAT_MISS) + 1
      t.rd Reg.SEAM_RXSTAT_MISS = (if newer then s.rd Reg.SEAM_RXSTAT_MISS else min (s.rd Reg.SEAM_RXSTAT_MISS + 1) 255) ∧
      t.pends 155 = true ∧ t.seam.missCn = some s.cn ∧
      t.seam.rxTag = (if s.seam.rxTag = some due then none else s.seam.rxTag) ∧
      t.seam.copyOk = false ∧ t.seam.copiesAfter = (if newer then s.seam.copiesAfter else 0) ∧ (n = 4 → t.isHeld Fc.COPY_STALE = true) ∧
      (4 ≤ n → s.dev.state = .standby → t.dev.state = .standby → t.role ≠ roleSTANDBY) ∧ t.time = s.time ∧ t.holder = s.holder
    else t = s) ∧
  (∀ s : State, s.live pdNET = true → Completes .resync s fun t =>
    if s.inSet = true ∧ s.mayServe = true ∧ s.dev.state = .standby ∧ (s.role = roleOFFLINE ∨ s.role = roleOBSERVER) then
      Settled (setSeam { s.seam with bulkReq := true, resync := true, resynced := false, bulkDone := false, copiesAfter := 0, sliceRound := 0 } (s.put Reg.SEAM_STAT_SLICE_DONE false)) t
    else Settled s t) ∧
  (∀ (p : Fin 2) (h : SeamHead) (words : List Word) (s : State), s.live pdNET = true →
    Completes (.bulkSegment p h words) s fun t =>
      let q := h.seq.toNat
      let gen := h.tag.toNat
      if s.seamLive p = false then t = s
      else if fails 3 h words ∨ s.rd Reg.SEAM_BULKSZ + 1 ≤ q then bad p s t
      else if s.seam.resync = false ∨ s.seam.bulkDone = true then t = s
      else
        let good := q = 0 ∨ (s.seam.bulkGen = gen ∧ q = s.seam.bulkNext)
        let first := s.rd Reg.SEAM_STAT_BULK ≠ 1
        let u := { s with mem := putWords s.mem (s.rd Reg.SEAM_BULK * 1024 + 1024 * q) (words.map BitVec.toNat) }
        let x := { s.seam with bulkReq := false, bulkGen := gen, bulkNext := if good then q + 1 else 0, bulkAt := if first then s.time.clk else s.seam.bulkAt }
        let had := if good then q + 1 else s.rd Reg.SEAM_BULKST
        Settled (setSeam x ((u.wr Reg.SEAM_STAT_BULK 1).wr Reg.SEAM_BULKST had)) t) ∧
  (∀ (p : Fin 2) (h : SeamHead) (words : List Word) (s : State), s.live pdNET = true →
    Completes (.bulkEnd p h words) s fun t =>
      let bytes := wordsBytes (getWords s.mem (s.rd Reg.SEAM_BULK * 1024) ((s.rd Reg.SEAM_BULKSZ + 1) * 256))
      if s.seamLive p = false then t = s
      else if fails 4 h words then bad p s t
      else if s.seam.resync = false ∨ s.seam.bulkDone = true ∨ s.rd Reg.SEAM_STAT_BULK ≠ 1 then t = s
      else if s.seam.bulkGen = h.tag.toNat ∧ s.seam.bulkNext = s.rd Reg.SEAM_BULKSZ + 1 ∧ crc32 bytes = (words.headD 0).toNat then
        OnlyFaults (setSeam { s.seam with bulkDone := true, copiesAfter := 0 } (s.wr Reg.SEAM_STAT_BULK 0)) t ∧ t.pends 156 = true
      else Settled (setSeam { s.seam with bulkReq := true, bulkNext := 0 } s) t) ∧
  (∀ s : State, s.live pdNET = true → Completes .bulkSent s fun t =>
    if s.rd Reg.SEAM_STAT_BULK = 2 ∧ s.inFrame s.bulkSentAt = true then
      let u := advance (s.bulkSentAt - s.time.clk) s
      OnlyFaults ((u.wr Reg.SEAM_STAT_BULK 0).wr Reg.SEAM_BULKST (s.rd Reg.SEAM_BULKSZ + 1)) t ∧ t.pends 156 = true
    else t = s) ∧
  (∀ s : State, s.live pdNET = true → Completes .resyncFail s fun t =>
    let at' := s.seam.bulkAt + 100000000
    if (s.rd Reg.SEAM_STAT_BULK = 1 ∨ s.rd Reg.SEAM_STAT_BULK = 2) ∧ s.inFrame at' = true then
      let x := { s.seam with bulkReq := false, resync := false, bulkNext := 0 }
      OnlyFaults (setSeam x ((advance (at' - s.time.clk) s).wr Reg.SEAM_STAT_BULK 3)) t ∧ t.isHeld Fc.RESYNC_FAIL = true
    else t = s) ∧
  ∀ s : State, s.live pdNET = true → Completes .standbyOk s fun t =>
    Settled (setSeam { s.seam with standbyOk := s.seam.standbyOk || (decide (s.role = roleOBSERVER) && s.seam.resynced) } s) t

/-- On a live network domain 64 valid characters take an enabled DOWN port UP with source 158, and 400 ns without one
take an enabled UP port DOWN and hold SEAM_LINK_DOWN; a slice test that is due, at a frame tick while the Anvil
stands and else after END with 2,400 clocks left, runs with the next slice in ascending order, the 64th of a round
sets SLICE_DONE, and a failing slice holds SLICE_FAIL and shows in the health word's cause; SLICE_HOLD is taken only
in STANDBY and starts the round anew. Otherwise these commands change nothing. (R299, R303, R304, R311.) -/
def Obligations.SeamPortsAndSlices : Prop :=
  (∀ (p : Fin 2) (s : State), s.live pdNET = true → s.on (seamEn p) = true →
    (Completes (.seamPortUp p) s fun t =>
      if s.on (seamUp p) = false then OnlyFaults (s.put (seamUp p) true) t ∧ t.pends 158 = true else t = s) ∧
    (Completes (.seamLinkDown p) s fun t =>
      if s.on (seamUp p) = true then
        OnlyFaults (s.put (seamUp p) false) t ∧ t.pends 158 = true ∧ t.isHeld Fc.SEAM_LINK_DOWN = true
      else t = s)) ∧
  (∀ (p : Fin 2) (s : State), s.live pdNET = true → s.on (seamEn p) = false →
    (Completes (.seamPortUp p) s fun t => t = s) ∧ Completes (.seamLinkDown p) s fun t => t = s) ∧
  (∀ (ok : Bool) (s : State), s.live pdNET = true → Completes (.sliceTest ok) s fun t =>
    let x := s.seam
    if s.devRuns = true ∧ s.on Reg.SEAM_CTRL_SLICE_HOLD = false ∧ s.rd Reg.SEAM_STAT_BULK ≠ 1 ∧
        s.rd Reg.SEAM_CFG_SLICE_INT ≤ x.sliceWait ∧
        (if s.on Reg.ANV_STAT_RUNNING = false then s.time.ft = 0 else (s.anv.endReached = true ∧ s.time.ft + 2400 ≤ s.frameMinClk)) then
      let full := 64 ≤ x.sliceRound + 1
      let u := s.when (decide full) fun r => r.put Reg.SEAM_STAT_SLICE_DONE true
      t.seam.slice = (x.slice + 1) % 64 ∧ t.seam.sliceLast = x.slice ∧ t.seam.sliceWait = 0 ∧
      t.seam.sliceRound = (if full then 0 else x.sliceRound + 1) ∧ t.seam.sliceFail = (x.sliceFail || ! ok) ∧
      OnlyFaults (setSeam t.seam u) t ∧ (ok = false → t.isHeld Fc.SLICE_FAIL = true)
    else t = s) ∧
  ∀ (b : Bool) (s : State), s.live pdNET = true → Completes (.sliceHold b) s fun t =>
    if s.dev.state ≠ .standby then Settled s t
    else
      let u := s.put Reg.SEAM_CTRL_SLICE_HOLD b
      if b = true then
        OnlyFaults (setSeam { s.seam with sliceRound := 0, sliceWait := 0 } (u.put Reg.SEAM_STAT_SLICE_DONE false)) t
      else Settled u t

/-- For STATUS, DATA, PEER and JOIN frames on a live network domain: a port that cannot deliver changes nothing; without
cluster time CN and MODE are not looked at, a bad frame and one that fails its slot's guard count, and a sync frame
writes TIME_CT_SET with the cluster's time and loads CT from it, refused with LOAD_DENIED while the Anvil runs; a
bad frame counts under FRAME_CRC, one faulty only in MODE under MODE_DISC, a guard failure also, once for all copies
of the frame, for its slot; an accepted frame refreshes its node and its claim, raises source 134 for a node newly
heard in its slots, ends COLDSTART when it is a sync frame of an earlier node and, unless null, enters the receive
buffer of its slot for this cycle, the lowest port of several winning, with the slot's interrupt, and a cycle
boundary keeps the buffers of the cycle that ended; a status word gives the claim the worker obeys; a join request
comes from a node that is not admitted and the proposer records it with its result. A worker takes of command
payloads only one whose claim is not below a current one, and refuses two of one claim. (R289, R317, R320, R323,
R324, R336, R338, R339, R343, R344, R345.) -/
def Obligations.FrameReception : Prop :=
  let crc := fun (p : Nat) (s : State) => (s.inc Reg.FDL_DISC_CRC).inc (Reg.FDL_Pp_CNT_CRC p)
  let frame := fun (s t : State) => t.time = s.time ∧ t.axs = s.axs ∧ (s.on Reg.HIF_CFG_EVTEN = false → t.mem = s.mem) ∧
    ∀ g, Fld.ofFaults g = false → g.key / 0x80000 ∉ [0x400A, 0x400B] → t.rd g = s.rd g
  let heard := fun (f : FdlFrame) (s t : State) => (t.nd (idOf f)).heard = true ∧ (t.nd (idOf f)).claim = f.claim.toNat ∧
    (t.nd (idOf f)).left = s.cto ∧ t.bit (lostBit (idOf f)).1 (lostBit (idOf f)).2 = false ∧
    (s.slotKind s.netMode f.slot.val ≠ kJOIN → (t.nd (idOf f)).known = true ∧
      (s.bit (lostBit (idOf f)).1 (lostBit (idOf f)).2 = true ∨ (s.nd (idOf f)).known = false → t.pends 134 = true))
  let stored := fun (f : FdlFrame) (s t : State) =>
    let i := f.slot.val
    let b : RxBuf := { port := f.port.val, cn := s.cn48, words := f.payload.map BitVec.toNat }
    match s.rxNow i with
    | none => SMap.get none t.fdl.rx i = some b ∧ tb t.fdl.rxok i = true ∧
        (s.slotIrqEn s.netMode i = true → t.pends (144 + s.slotIrqSel s.netMode i) = true)
    | some old => SMap.get none t.fdl.rx i = if f.port.val < old.port then some b else some old
  let failed := fun (f : FdlFrame) (s t : State) =>
    let i := f.slot.val
    let n := SMap.get 0 s.fdl.gFail i + 1
    let r := s.grecW s.netMode (s.slotGrec s.netMode i) 0
    t.pends 141 = true ∧ if (i, idOf f) ∈ s.fdl.gSeen then OnlyFaults s t
    else OnlyFaults (setFdl { s.fdl with gFail := SMap.set 0 s.fdl.gFail i n, gSeen := (i, idOf f) :: s.fdl.gSeen } s) t ∧
      (n = bits r 4 4 → t.isHeld (if tb r 8 then Fc.PAYLOAD_GUARD_S else Fc.PAYLOAD_GUARD_M) = true)
  let timed := fun (v : Nat) (s : State) =>
    ((s.wr Reg.TIME_CT_SET_F (v % 2 ^ 32)).wr Reg.TIME_CT_SET_L (v / 2 ^ 32 % 2 ^ 32)).wr Reg.TIME_CT_SET_H (v / 2 ^ 64 % 2 ^ 32)
  let cold := fun (f : FdlFrame) (s t : State) => s.sstate = ssCOLDSTART → s.slotSync s.netMode f.slot.val = true →
    coldRank (idOf f) < coldRank s.nodeId → t.sstate = ssLISTEN
  let recv := fun (k : Nat) (c : Instr) (f : FdlFrame) (good : State → State → Prop) => ∀ s : State, s.live pdNET = true →
    Completes c s fun t =>
      let i := f.slot.val
      let passes := f.null = true ∨ s.payloadOk s.netMode i (wordsOf f) = true
      let named := frameOk f = true ∧ s.slotOk k f = true
      if s.rxLive f.port = false then Settled s t
      else if s.sstate = ssLISTEN ∨ s.sstate = ssLOST then
        if ¬ named then OnlyFaults (crc f.port s) t ∧ t.pends 141 = true
        else if ¬ passes then failed f (crc f.port s) t
        else if s.slotSync s.netMode i = false then Settled s t
        else if s.sstate = ssLOST ∧ s.on Reg.TIME_STAT_ON_RC = true then
          Settled (setFdl { s.fdl with syncHeard := true } s) t
        else if s.on Reg.ANV_STAT_RUNNING = true ∨ s.on Reg.ANV_CTRL_RUN = true then
          Settled ((timed (s.integrateCt f) (setFdl { s.fdl with syncHeard := true } s)).put Reg.TIME_STAT_LOAD_DENIED true) t
        else t.sstate = ssINTEGRATE ∧ t.ct = s.integrateCt f % 2 ^ 96 ∧ t.time.lt = s.time.lt ∧ t.on Reg.TIME_STAT_CT_VALID = true ∧
          t.ctSet = s.integrateCt f % 2 ^ 96
      else if ¬ named ∨ f.cn.toNat ≠ s.cn48 ∨ (f.mode.val ≠ s.netMode ∧ ¬ passes) then
        OnlyFaults (crc f.port s) t ∧ t.pends 141 = true
      else if f.mode.val ≠ s.netMode then OnlyFaults (setFdl t.fdl (s.inc Reg.FDL_DISC_MODE_DISC)) t ∧ t.fdl.rx = s.fdl.rx
      else if ¬ passes then failed f (crc f.port s) t
      else heard f s t ∧ frame s t ∧ good s t ∧ cold f s t
  (∀ (switched : Bool) (s : State), (fdlTick switched s).fdl.rx =
    s.fdl.rx.filter fun e => e.2.any fun b => decide ((b.cn + 1) % 2 ^ 48 = s.cn48)) ∧
  (∀ f : FdlFrame, recv kSTATUS (.statusFrame f) f fun s t => f.null = false →
    stored f s t ∧ (t.nd (idOf f)).acc = some (bits ((wordsOf f).headD 0) 0 8)) ∧
  (∀ f : FdlFrame, recv kDATA (.dataFrame f) f fun s t => (f.null = false → stored f s t) ∧ (f.null = true → t.fdl.rx = s.fdl.rx)) ∧
  (∀ f : FdlFrame, recv kPEER (.peerFrame f) f fun s t => f.null = false → stored f s t ∧
    let w := (wordsOf f).headD 0
    let from' := bits w 4 2
    (s.inLease = true → bits w 0 4 = 5 → from' ∈ s.others → (wordsOf f).getD 1 0 = s.cn → s.seam.p2Done = false →
      (s.peer from').msg1 = none → (t.peer from').now = some ((wordsOf f).getD 2 0))) ∧
  (∀ f : FdlFrame, recv kJOIN (.joinRequest f) f fun s t => s.admitsId s.netMode (idOf f) = false ∧ (f.null = false → stored f s t) ∧
    (f.null = true → t.fdl.rx = s.fdl.rx) ∧ (f.null = false → f.claim.toNat < 0x80 → s.iPropose = true → t.rd Reg.SEAM_CLAIM_CLAIM = s.rd Reg.SEAM_CLAIM_CLAIM →
      t.rd Reg.FDL_JOIN_NODE = f.node.val ∧ t.rd Reg.FDL_JOIN_STAR = f.star.val ∧ t.rd Reg.FDL_JOIN_RESULT = s.joinResult f ∧
      t.on Reg.FDL_JOIN_NEW = true ∧ t.pends (if s.joinResult f = 0 then 133 else 141) = true)) ∧
  let takes := fun (f : FdlFrame) (s : State) => s.rxLive f.port = true ∧ s.sstate ≠ ssLISTEN ∧ s.sstate ≠ ssLOST ∧
    s.frameCheck kCOMMAND f = .accepted ∧ f.null = false ∧ f.claim.toNat ≠ 0
  (∀ (fs : List FdlFrame) (s : State), s.live pdNET = true → s.node = 0 → Completes (.commandFrame fs) s fun t => t = s) ∧
  (∀ (f : FdlFrame) (s : State), s.live pdNET = true → s.node ≠ 0 → takes f s → Completes (.commandFrame [f]) s fun t =>
    heard f s t ∧ frame s t ∧ cold f s t ∧
    if f.claim.toNat < s.topClaim then t.fdl.rx = s.fdl.rx ∧ t.seam.claims = s.seam.claims
    else stored f s t ∧ SMap.get 0 t.seam.claims f.claim.toNat = s.cto ∧ t.seam.accClaim = f.claim.toNat) ∧
  ∀ (f g : FdlFrame) (s : State), s.live pdNET = true → s.node ≠ 0 → takes f s → takes g s → g.slot = f.slot → g.claim = f.claim →
    Completes (.commandFrame [f, g]) s fun t => t.fdl.rx = s.fdl.rx ∧ t.seam.claims = s.seam.claims ∧
      t.rd Reg.SEAM_REJ = min (s.rd Reg.SEAM_REJ + 2) 65535 ∧ t.pends 159 = true

/-- On a live network domain a node that sends slot i, has a port for it and has not yet sent it in this cycle sends
exactly one frame at its instant: NODE, STAR, MODE, CN and its claim in the header, HOPS 1 from a coupler and 0 from
a worker, starting on each port at AP − DLY, from a coupler at AP + HOP − DLY; the payload is the join request in a
JOIN slot, the last lease message in a PEER slot, and otherwise the words of a buffer filled at least 200 ticks
before START, padded to the slot's length, with the two status words in front of a STATUS payload; a buffer sent is
empty afterwards, one filled too late stays full and raises TX_LATE. A node that is not the sender, or is past the
instant, sends nothing, and a manager's COMMAND leaves by star ports only. (R315, R320, R321, R323, R345.) -/
def Obligations.FrameTransmission : Prop :=
  ∀ (i : Fin 64) (s : State), s.live pdNET = true → Completes (.slotTransmit i) s fun t =>
    let m := s.netMode
    let k := s.slotKind m i
    let at' := s.txAt i
    let again := s.fdl.sent.any fun f => decide (f.slot = i.val ∧ f.cn = s.cn48)
    if s.sends i = false ∨ s.txPorts i = [] ∨ s.frameEnd ≤ at' ∨ at' < s.ctTicks ∨ again = true then t = s
    else
      let buf := SMap.get none s.fdl.tx i
      let ready := buf.any fun b => decide (b.at' + 200 ≤ s.cycleStart + s.slotStart m i)
      let words := padTo (s.slotLenw m i) ((buf.map TxBuf.words).getD [])
      let pay := if k = kJOIN then some s.joinWords
        else if k = kPEER then (if s.seam.p1Done = true ∧ s.seam.lastTx ≠ [] then some s.seam.lastTx else none)
        else if ready then some (if k = kSTATUS then s.statusWords ++ words.drop 2 else words) else none
      let own := k ≠ kJOIN ∧ k ≠ kPEER
      (∃ f, t.fdl.sent = some f ∧ f.slot = i.val ∧ f.node = s.node ∧ f.star = s.star ∧ f.mode = m ∧ f.claim = s.claim ∧
        f.cn = s.cn48 ∧ f.payload = pay ∧ f.ports = s.txPorts i ∧
        f.starts = (s.txPorts i).map (fun p => 8 * (s.cycleStart + s.slotStart m i + s.guardT m) + (if s.netRole = 0 then 0 else 1280) - s.rd (Reg.FDL_Pp_STAT_DLY p)) ∧
        f.hops = (if s.netRole = 0 then 0 else 1) ∧ (k = kCOMMAND → s.netRole = 2 → ∀ p ∈ f.ports, s.pclass p = 2) ∧ (k = kJOIN → f.h5 = 0 ∧ f.h7 = 0)) ∧
      SMap.get none t.fdl.tx i = (if own ∧ ready = true then none else buf) ∧
      (own → buf ≠ none → ready = false → t.pends 141 = true) ∧ t.fdl.rx = s.fdl.rx ∧
      t.time = (reach at' s).time ∧ (s.on Reg.HIF_CFG_EVTEN = false → t.mem = s.mem) ∧
      ∀ g, Fld.ofFaults g = false → g.key / 0x80000 ≠ 0x400B → g.key ≠ Reg.TIME_STAT_SLEWING.key → t.rd g = s.rd g

/-- On a live network domain: a coupler relays a frame of a star port only when its slot's sender is reachable there and
its SOF lies in the window around E; a sub-star relays what an uplink brings, of command frames those of one
manager; a COMMAND from a star port is never relayed; in REPLAY nothing is; the relayed frame leaves with HOPS one
higher, at its arrival plus HOP less DLY, by every other star port and from a star port by the uplinks; outside the
window the port babbles; a header that does not fit cuts the frame off under SENDER_MISMATCH; a late or early frame
within GUARD counts EDGE for its sender and EDGE_N of 16 cycles raise SYNC_MARGIN; a window that closes on a frame,
at E + TX + GUARD, truncates it, and what arrives from then on is babbling; BAB_N cycles of babbling isolate the
port; REOPEN needs 16 quiet cycles. A measured link comes UP, 400 ns of silence take it DOWN with LINK_DOWN, a
measurement gives DLY at once on a port that is not UP and, where one runs, at the next boundary otherwise, and
LINK_DELAY beyond 640 eighths or a change of more than 8. (R312, R314, R321, R326, R327, R328, R329, R330.) -/
def Obligations.RelaysAndLinks : Prop :=
  (∀ (p : Fin 6) (i : Fin 64) (hops h0 h1 h3 : BitVec 8) (sof : Nat) (s : State), s.live pdNET = true →
    Completes (.frameRelay p i hops h0 h1 h3 sof) s fun t =>
      let m := s.netMode
      let k := s.slotKind m i
      let g : Int := 8 * s.guardT m
      let ap := 8 * (s.slotStart m i + s.guardT m)
      let e : Int := sof - (ap + 1280 * s.rd (Reg.FDL_Pp_CFG_HOPX p) : Nat)
      let id := h1.toNat
      let sender := if k = kCOMMAND then id % 64 = 0 else if k = kJOIN then s.admitsId m id = false
        else id = s.slotStar m i * 64 + s.slotNode m i
      let fits := h0.toNat = i.val ∧ (h3.toNat = s.slotLenw m i ∨ h3.toNat = 0) ∧ sender
      let up := fun q => s.pstate q = psUP ∨ s.pstate q = psISOLATED
      let leaves := fun q => q ≠ p.val ∧ up q ∧ (s.pclass q = 2 ∨ (s.pclass p = 2 ∧ s.pclass q = 1))
      let outs := ((List.range 6).filter fun q => decide (leaves q)).map fun q =>
        (q, 8 * s.cycleStart + sof + 1280 - s.rd (Reg.FDL_Pp_STAT_DLY q))
      let r : Relayed := { slot := i.val, src := p.val, hops := hops.toNat % 8 + 1, outs := outs }
      let begun := fun (u : State) => setFdl { (setPt p { u.pt p with relay := some i.val } u).fdl with relayed := some r }
        (setPt p { u.pt p with relay := some i.val } u)
      let arrives := fun (u : State) => setPt p { u.pt p with relay := some i.val } u
      let cutOff := fun (u t : State) =>
        OnlyFaults ((setFdl { (arrives u).fdl with relayed := some { r with cut := true } } (arrives u)).inc (Reg.FDL_Pp_CNT_TRUNC p)) t ∧
        t.isHeld Fc.SENDER_MISMATCH = true
      if s.relays = false ∨ ¬ up p.val then t = s
      else if s.pclass p = 1 then
        let u := if k = kCOMMAND then setPt p { s.pt p with star := some (id / 64) } s else s
        if s.netRole ≠ 1 ∨ (k = kCOMMAND ∧ (s.pt p).star ≠ none ∧ (s.pt p).star ≠ some (id / 64)) then t = s
        else if fits then Settled (begun u) t
        else cutOff u t
      else if s.pclass p ≠ 2 then t = s
      else if s.reachable p i = false ∨ e < -g ∨ g + 8 * txTicks (s.slotLenw m i) < e then
        Settled (setPt p { s.pt p with babble := true, quiet := 0 } s) t
      else if s.pstate p = psISOLATED ∨ k = kCOMMAND then Settled (arrives s) t
      else if ¬ fits then cutOff s t
      else if ¬ (g < 2 * (e.natAbs : Int) ∧ (e.natAbs : Int) ≤ g) then Settled (begun s) t
      else
        t.rd (Reg.FDL_Pp_MON_EDGE p) = min (s.rd (Reg.FDL_Pp_MON_EDGE p) + 1) (2 ^ (Reg.FDL_Pp_MON_EDGE p).w - 1) ∧
        (t.pt p).relay = some i.val ∧ t.fdl.relayed = some r ∧ (t.nd id).edge = true ∧ t.time = s.time ∧
        ((s.nd id).edge = false → s.rd Reg.FDL_CFG2_EDGE_N ≤ ({ s.nd id with edge := true } : NodeSt).edgeCount →
          t.isHeld Fc.SYNC_MARGIN = true ∧ t.rd Reg.FDL_MARGIN_NODE = id % 64 ∧ t.rd Reg.FDL_MARGIN_STAR = id / 64)) ∧
  (∀ (p : Fin 6) (s : State), s.live pdNET = true →
    (Completes (.windowClose p) s fun t =>
      match (s.pt p).relay with
      | none => t = s
      | some i =>
        let m := s.netMode
        let closes := s.cycleStart + (8 * (s.slotStart m i + s.guardT m) + 1280 * s.rd (Reg.FDL_Pp_CFG_HOPX p)) / 8 +
          txTicks (s.slotLenw m i) + s.guardT m
        if s.pclass p ≠ 2 ∨ s.frameEnd ≤ closes then t = s
        else
          let u := setPt p { s.pt p with relay := none, babble := true, quiet := 0 } (reach closes s)
          match s.fdl.relayed with
          | none => Settled u t
          | some r => if r.src = p.val ∧ r.slot = i ∧ r.cut = false then
              Settled ((setFdl { u.fdl with relayed := some { r with cut := true } } u).inc (Reg.FDL_Pp_CNT_TRUNC p)) t
            else Settled u t) ∧
    (Completes (.portIsolated p) s fun t =>
      if s.relays = true ∧ s.pclass p = 2 ∧ s.pstate p = psUP ∧ s.rd Reg.FDL_CFG2_BAB_N ≤ (s.pt p).run then
        OnlyFaults (s.wr (Reg.FDL_Pp_STAT_STATE p) psISOLATED) t ∧ t.pends 138 = true ∧ t.isHeld Fc.PORT_ISOLATED = true
      else t = s) ∧
    (Completes (.reopen p) s fun t =>
      if s.pstate p = psISOLATED ∧ (s.pt p).babble = false ∧ 16 ≤ (s.pt p).quiet then
        OnlyFaults (setPt p { s.pt p with run := 0 } (s.wr (Reg.FDL_Pp_STAT_STATE p) psUP)) t ∧ t.pends 138 = true
      else Settled s t) ∧
    (Completes (.fdlLinkUp p) s fun t =>
      if s.pclass p ≠ 0 ∧ (s.pt p).measured = true ∧ (s.pstate p = psDOWN ∨ s.pstate p = psMEASURING) then
        OnlyFaults (s.wr (Reg.FDL_Pp_STAT_STATE p) psUP) t ∧ t.pends 138 = true
      else t = s) ∧
    (Completes (.linkDown p) s fun t =>
      if s.pclass p ≠ 0 ∧ s.pstate p ≠ psDOWN then
        let x := { s.pt p with measured := false, newDly := none, relay := none, star := none }
        OnlyFaults (setPt p x (s.wr (Reg.FDL_Pp_STAT_STATE p) psDOWN)) t ∧ t.pends 138 = true ∧ t.isHeld Fc.LINK_DOWN = true
      else t = s) ∧
    (Completes (.remeasure p) s fun t =>
      if s.pclass p ≠ 0 then Settled (setPt p { s.pt p with measuring := true } s) t else Settled s t)) ∧
  (∀ (p : Fin 6) (turn : BitVec 16) (s : State), s.live pdNET = true → Completes (.linkDelayMeasurement p [] turn) s fun t => t = s) ∧
  ∀ (p : Fin 6) (trip : BitVec 16) (trips : List (BitVec 16)) (turn : BitVec 16) (s : State), s.live pdNET = true →
    Completes (.linkDelayMeasurement p (trip :: trips) turn) s fun t =>
      let best := trips.foldl (fun v x => min v x.toNat) trip.toNat
      let d := min ((best - turn.toNat + 1) / 2) 1023
      let old := s.rd (Reg.FDL_Pp_STAT_DLY p)
      let x := { s.pt p with measuring := false, cycles := 0 }
      let up := s.pstate p = psUP ∨ s.pstate p = psISOLATED
      if s.pclass p = 0 ∨ (up ∧ (s.pt p).measuring = false) then t = s
      else if up then
        OnlyFaults (setPt p { x with newDly := some d } s) t ∧
        (640 < d ∨ old + 8 < d ∨ d + 8 < old → t.isHeld Fc.LINK_DELAY = true)
      else
        OnlyFaults (setPt p { x with measured := decide (d ≤ 640) }
          ((s.wr (Reg.FDL_Pp_STAT_DLY p) d).wr (Reg.FDL_Pp_STAT_STATE p) psMEASURING)) t ∧
        (s.pstate p = psDOWN → t.pends 138 = true) ∧ (640 < d → t.isHeld Fc.LINK_DELAY = true)

/-- Deviations are sorted and of four or more the largest and smallest dropped. On a live network domain the computation
runs once a cycle in COLDSTART, INTEGRATE or SYNC, at the end of the last SYNC slot, and shows the deviation of each
of the first eight sync nodes in slot order, the managers of a SYNC command slot among them: without a deviation it
counts a miss and requests nothing; otherwise the offset request is minus the mean, rounded half up, the rate
request follows the drift and RSH, and misses and good cycles follow LOSS_TH and SYNC_TH. LOSS_CYC misses or the RC
backup in SYNC lead to LOST with SYNC_LOST and a safe-state request for every axis out of DISABLED; four good
cycles, or one cycle of COLDSTART, lead to SYNC, where a node newly admitted ends its departure; COLD_CYC silent
cycles of a sync node lead to COLDSTART; a silent expected node, no longer ready for a proposal, and a starved
guarded slot raise their fault once. (R332, R333, R336, R338, R339, R343, R344.) -/
def Obligations.ClockSynchronisation : Prop :=
  (∀ (s : State) (m : Nat), s.syncEnd m = ((List.range (s.nslot m)).filter fun i => s.slotSync m i).foldl
      (fun v i => max v (s.slotStart m i + 2 * s.guardT m + txTicks (s.slotLenw m i) + s.hmax m * 160)) 0) ∧
  (∀ (s : State) (m id : Nat), id ∈ s.syncNodes m ↔ ∃ i < s.nslot m, s.slotSync m i = true ∧
    if s.slotKind m i ≠ kCOMMAND then id = s.slotStar m i * 64 + s.slotNode m i
    else if s.regionWord m 4 % 8 = 0 then id = 0
    else ∃ c, 0 < c ∧ c < 4 ∧ s.admitsMgr m c = true ∧ id = c * 64) ∧
  (∀ ms : List (Int × Nat), ∃ l, l.Perm ms ∧ l.Pairwise (fun x y => x.1 ≤ y.1) ∧
    keptDevs ms = if 4 ≤ l.length then l.tail.dropLast else l) ∧
  (∀ s : State, s.live pdNET = true → Completes .syncComputation s fun t =>
    if s.sstate ∉ [ssINTEGRATE, ssSYNC, ssCOLDSTART] ∨ s.fdl.computed = true ∨ s.modeValid s.netMode = false ∨
        s.frameEnd ≤ s.cycleStart + s.syncEnd s.netMode then t = s
    else
      let now := (reach (s.cycleStart + s.syncEnd s.netMode) s).time
      let ids := (s.syncNodes s.netMode).take 8
      let kept := (keptDevs (ids.filterMap fun id => (s.devOf id).map fun d => (d, id))).map Prod.fst
      let n : Int := kept.length
      let off := (2 * (kept.sum * 2 ^ 29) + n) / (2 * n)
      let d : Int := s.cycleTicks * 2 ^ (if s.sstate = ssINTEGRATE then 0 else s.rd Reg.FDL_CFG_RSH)
      let adj := (2 * (off + now.rem) + d) / (2 * d)
      t.fdl.computed = true ∧ t.rd Reg.FDL_STAT_NSYNC = kept.length ∧ t.pends 128 = true ∧ t.sstate = s.sstate ∧
      (∀ j < 8, match ids[j]? with
        | none => t.on (Reg.FDL_DEVj_VALID j) = false ∧ t.on (Reg.FDL_DEVj_USED j) = false ∧ t.rd (Reg.FDL_DEVj_NODE j) = 0 ∧
            t.rd (Reg.FDL_DEVj_DEV j) = 0
        | some id => t.on (Reg.FDL_DEVj_VALID j) = (s.devOf id).isSome ∧ t.rd (Reg.FDL_DEVj_NODE j) = id % 64 ∧
            t.rd (Reg.FDL_DEVj_STAR j) = id / 64 % 4 ∧
            ((t.rd (Reg.FDL_DEVj_DEV j) : Nat) : Int) = (s.devOf id).getD 0 % 2 ^ 22) ∧
      if kept = [] then
        t.fdl.misses = s.fdl.misses + 1 ∧ t.fdl.good = 0 ∧ t.time = now ∧
        ∀ f ∈ [Reg.TIME_OFS_REQ_F, Reg.TIME_OFS_REQ_I, Reg.TIME_RATE_REQ], t.rd f = s.rd f
      else
        t.time = { now with ofsArmed := true } ∧
        ((t.rd Reg.TIME_OFS_REQ_I * 2 ^ 32 + t.rd Reg.TIME_OFS_REQ_F : Nat) : Int) = (-off) % 2 ^ 64 ∧
        ((t.rd Reg.TIME_RATE_REQ : Nat) : Int) = (s.rate - adj) % 2 ^ 32 ∧
        t.fdl.misses = (if s.sstate = ssSYNC ∧ s.rd Reg.FDL_CFG_LOSS_TH * 2 ^ 32 < off.natAbs then s.fdl.misses + 1 else 0) ∧
        t.fdl.good = (if off.natAbs ≤ s.rd Reg.FDL_CFG_SYNC_TH * 2 ^ 32 then s.fdl.good + 1 else 0)) ∧
  let synced := fun (s t : State) =>
    let enters := s.admitsId s.netMode s.nodeId && ! s.on Reg.FDL_STAT_ADMITTED
    OnlyFaults (((s.wr Reg.FDL_STAT_SSTATE ssSYNC).put Reg.FDL_STAT_ADMITTED (s.admitsId s.netMode s.nodeId)).when enters fun u =>
      setFdl { u.fdl with leaving := false } (u.put Reg.FDL_STAT_LEAVE false)) t ∧
    t.pends 129 = true ∧ (s.admitsId s.netMode s.nodeId = true → s.on Reg.FDL_STAT_ADMITTED = false → t.pends 134 = true)
  (∀ s : State, s.live pdNET = true →
    (Completes .syncLost s fun t =>
      if s.sstate = ssSYNC ∧ (s.rd Reg.FDL_CFG_LOSS_CYC + 1 ≤ s.fdl.misses ∨ s.on Reg.TIME_STAT_ON_RC = true) then
        OnlyFaults (s.wr Reg.FDL_STAT_SSTATE ssLOST) t ∧ t.isHeld Fc.SYNC_LOST = true ∧ t.pends 129 = true ∧
        ∀ n < 8, s.ax n ≠ axDISABLED → tb t.fcu.supReq n = true
      else t = s) ∧
    (Completes .integrateToSync s fun t => if s.sstate = ssINTEGRATE ∧ 4 ≤ s.fdl.good then synced s t else t = s) ∧
    (Completes .coldstartToSync s fun t => if s.sstate = ssCOLDSTART ∧ 1 ≤ s.fdl.coldCyc then synced s t else t = s) ∧
    (Completes .coldstart s fun t =>
      if s.sstate = ssLISTEN ∧ s.on Reg.FDL_CTRL_COLDSTART = true ∧ s.on Reg.ANV_STAT_RUNNING = false ∧
          s.modeValid s.netMode = true ∧ s.nodeId ∈ s.syncNodes s.netMode ∧ s.rd Reg.FDL_CFG2_COLD_CYC ≤ s.fdl.cold then
        OnlyFaults (setFdl { s.fdl with coldCyc := 0, misses := 0 } (s.wr Reg.FDL_STAT_SSTATE ssCOLDSTART)) t ∧ t.pends 129 = true
      else t = s)) ∧
  (∀ (star : Fin 4) (node : Fin 64) (s : State), s.live pdNET = true → Completes (.nodeLost star node) s fun t =>
    let id := star.val * 64 + node.val
    let b := lostBit id
    if s.sstate = ssSYNC ∧ id ∈ s.expected ∧ s.rd Reg.FDL_CFG_LOSS_CYC + 1 ≤ (s.nd id).silent ∧ s.bit b.1 b.2 = false then
      let u := s.wrBit b.1 b.2 true
      OnlyFaults (setFdl { u.fdl with prop := u.fdl.prop.map fun p => { p with ready := p.ready.filter fun i => i ≠ id } } u) t ∧
      t.isHeld Fc.NODE_LOST = true ∧ t.pends 135 = true
    else t = s) ∧
  ∀ (i : Fin 64) (s : State), s.live pdNET = true → Completes (.payloadGuardTimeout i) s fun t =>
    let m := s.netMode
    let r := s.grecW m (s.slotGrec m i) 0
    if s.modeValid m = true ∧ i.val < s.nslot m ∧ s.slotGen m i = true ∧ bits r 0 4 ≠ 0 ∧ bits r 0 4 ≤ SMap.get 0 s.fdl.gWait i ∧
        SMap.get false s.fdl.gUp i = false then
      OnlyFaults (setFdl { s.fdl with gUp := SMap.set false s.fdl.gUp i true } s) t ∧
      t.isHeld (if tb r 8 then Fc.PAYLOAD_GUARD_S else Fc.PAYLOAD_GUARD_M) = true ∧ t.pends 140 = true
    else t = s

/-- PROP by the proposer for a VALID mode that is not active, with no switch armed and no STANDALONE, makes the
proposal; any other PROP raises MODE_REFUSED and makes none. CANCEL and PROP_TOUT end a proposal only before its
commit, the latter with MODE_REFUSED. At a cycle boundary a proposal goes to its commit cycle exactly when readiness
was gathered, the proposer's mode is VALID and every needed node is ready, a commit cycle ends, and one whose device
is no longer proposer is dropped. A split mode raises MODE_SPLIT and leads to LOST; LEAVE raises LEAVE_REQ, requests
SAFE for every axis out of DISABLED and shows LEAVE once all axes are SAFE or DISABLED. (R336, R340, R341, R346.) -/
def Obligations.ModeAgreementAndLeaving : Prop :=
  (∀ (m : Fin 8) (s : State), s.live pdNET = true → Completes (.fdlProp m) s fun t =>
    let u := s.wr Reg.FDL_MODE_PROP_MODE m
    let armed := s.on Reg.ANV_STAT_ARMED = true ∨ s.fdl.agreed ≠ none ∨ ∃ p ∈ s.fdl.prop, p.commit = true
    (u.iPropose = true → s.on Reg.ANV_CTRL_STANDALONE = false → s.modeValid m = true →
      (s.on Reg.ANV_STAT_RUNNING = true → s.rd Reg.ANV_STAT_MODE ≠ m) → ¬ armed →
      Settled (setFdl { s.fdl with prop := some { mode := m } } ((u.put Reg.FDL_STAT_PEND true).wr Reg.FDL_STAT_PMODE m)) t) ∧
    (u.iPropose = false ∨ s.on Reg.ANV_CTRL_STANDALONE = true ∨ s.modeValid m = false ∨
      (s.on Reg.ANV_STAT_RUNNING = true ∧ s.rd Reg.ANV_STAT_MODE = m) ∨ armed → OnlyFaults u t ∧ t.pends 132 = true)) ∧
  (∀ s : State, s.live pdNET = true →
    (Completes .cancel s fun t =>
      Settled (if s.fdl.prop.any (fun p => ! p.commit) = true then (setFdl { s.fdl with prop := none } s).put Reg.FDL_STAT_PEND false
        else s) t) ∧
    (Completes .proposalTimeout s fun t =>
      if s.fdl.prop.any (fun p => ! p.commit && decide (s.rd Reg.FDL_CFG2_PROP_TOUT ≤ p.cycles)) = true then
        OnlyFaults ((setFdl { s.fdl with prop := none } s).put Reg.FDL_STAT_PEND false) t ∧ t.pends 132 = true
      else t = s) ∧
    (Completes .modeSplit s fun t =>
      if s.fdl.splitDue = true ∧ s.sstate = ssSYNC then
        OnlyFaults (setFdl { s.fdl with splitDue := false } (s.wr Reg.FDL_STAT_SSTATE ssLOST)) t ∧
        t.isHeld Fc.MODE_SPLIT = true ∧ t.isHeld Fc.SYNC_LOST = true ∧ ∀ n < 8, s.ax n ≠ axDISABLED → tb t.fcu.supReq n = true
      else t = s) ∧
    (Completes .leave s fun t =>
      let shows := ! s.on Reg.FDL_STAT_LEAVE && s.allAxes [axDISABLED, axSAFE]
      OnlyFaults (setFdl { s.fdl with leaving := true } (s.when shows fun r => r.put Reg.FDL_STAT_LEAVE true)) t ∧
      t.pends 141 = true ∧ (shows = true → t.pends 136 = true) ∧ ∀ n < 8, s.ax n ≠ axDISABLED → tb t.fcu.supReq n = true)) ∧
  ∀ (s : State) (p : Proposal), s.fdl.prop = some p → let t := proposalTick s
    (p.commit = true → t.fdl.prop = none ∧ t.on Reg.FDL_STAT_PEND = false) ∧
    (p.commit = false → s.iPropose = false → t.fdl.prop = none ∧ t.pends 132 = true) ∧
    (p.commit = false → s.iPropose = true → ∃ q, t.fdl.prop = some q ∧ q.mode = p.mode ∧ q.cycles = p.cycles + 1 ∧
      (q.commit = true ↔ p.gather = true ∧ s.modeValid p.mode = true ∧ ∀ id ∈ s.needed p.mode, id ∈ p.ready) ∧ (q.commit = true → t.pends 130 = true))

/-- On a live host domain: a 32-bit doorbell reaches an enabled ring of its own LOC and moves PI of a command ring or CI
of any other, with ARM, unless INDEX or its step is out of range, which only sets IDXERR and raises RING_ERR; other
BAR2 writes reach the MSI-X table alone; a read of BAR2 gives the table, its pending bits or 0. A ring is enabled
only while CFG_BAD reads 0, with indices at 0 and PHASE 1, and a trace ring of shared SRAM caps the coverage in
force at public at once (the model's choice, log entry 2445); clearing EN ends its queued commands and those that
wait for their status copy. A function-level reset and a lost link end every LOC 0 ring without completions and hold
their fault, and keep every other ring; HOST_SILENT is raised once per silence. (R352, R354, R355, R356, R358,
R376.) -/
def Obligations.RingsAndHostLink : Prop :=
  let bell := fun (r : Nat) (v : Word) (s t : State) =>
    let size := 2 ^ s.rd (Reg.HIF_Rr_CFG_LSIZE r)
    let idx := v.toNat % 4096
    let pi := s.rd (Reg.HIF_Rr_IDX_PI r)
    let ci := s.rd (Reg.HIF_Rr_IDX_CI r)
    let cmd := s.rd (Reg.HIF_Rr_CFG_KIND r) = 0
    let step := if cmd then (idx + size - pi) % size else (idx + size - ci) % size
    let room := if cmd then (ci + size - 1 - pi) % size else (pi + size - ci) % size
    if size ≤ idx ∨ room < step then
      OnlyFaults (s.put (Reg.HIF_Rr_STAT_IDXERR r) true) t ∧ (SMap.get false s.fcu.seen Fc.RING_ERR = false → t.pends 176 = true)
    else if cmd then Settled (s.wr (Reg.HIF_Rr_IDX_PI r) idx) t
    else Settled ((s.wr (Reg.HIF_Rr_IDX_CI r) idx).when (tb v.toNat 31) fun u => u.put (Reg.HIF_Rr_IRQ_ARM r) true) t
  (∀ (r : Fin 16) (v : Word) (s : State), s.live pdHIF = true →
    (Completes (.doorbell (.internal r) true v) s fun t =>
      if s.ringEn r = true ∧ s.loc r = 1 then bell r v s t else t = s) ∧
    (∀ h : 0x80 * r.val < 4096, Completes (.doorbell (.bar2 ⟨0x80 * r.val, h⟩) true v) s fun t =>
      if s.ringEn r = true ∧ s.loc r = 0 then bell r v s t else t = s)) ∧
  (∀ (b : Bell) (v : Word) (s : State), s.live pdHIF = true → Completes (.doorbell b false v) s fun t => t = s) ∧
  (∀ (off : Fin 4096) (v : Word) (s : State), s.live pdHIF = true → Completes (.doorbell (.bar2Read off) true v) s fun t =>
    t.dev.readData = (if 0x800 ≤ off.val ∧ off.val < 0xA00 ∧ off.val % 4 = 0 then SMap.get 0 s.hif.msix ((off.val - 0x800) / 4)
      else if off.val = 0xC00 then s.hif.pba else 0) ∧
    OnlyFaults { s with dev := { s.dev with readData := t.dev.readData } } t) ∧
  (∀ (off : Fin 4096) (v : Word) (s : State), s.live pdHIF = true → ¬ (off.val < 0x800 ∧ off.val % 0x80 = 0) →
    Completes (.doorbell (.bar2 off) true v) s fun t =>
      if 0x800 ≤ off.val ∧ off.val < 0xA00 ∧ off.val % 4 = 0 then
        t.hif.msix = SMap.set 0 s.hif.msix ((off.val - 0x800) / 4) v.toNat ∧ t.hif.queue = s.hif.queue ∧ (s.calm → t.mem = s.mem)
      else Settled s t) ∧
  (∀ (r : Fin 16) (s : State), s.live pdHIF = true →
    (Completes (.ringEnable r) s fun t =>
      if s.ringEn r = true then t = s
      else if s.ringCfgBad r = true then OnlyFaults s t ∧ t.ringEn r = false
      else t.ringEn r = true ∧ t.rd (Reg.HIF_Rr_IDX_CI r) = 0 ∧ t.on (Reg.HIF_Rr_STAT_STOPPED r) = false ∧
        (s.calm → t.rd (Reg.HIF_Rr_IDX_PI r) = 0 ∧ t.on (Reg.HIF_Rr_STAT_PHASE r) = true ∧ t.on (Reg.HIF_Rr_IRQ_ARM r) = false) ∧
        (∀ c m, s.cec.cover = some (c + 1, m) → s.rd (Reg.HIF_Rr_CFG_KIND r) = 4 → s.loc r = 1 →
          t.cec.cover = some (0, m) ∧ t.rd Reg.CEC_TR_RP = s.rd Reg.CEC_TR_WP) ∧
        ∀ q, q < 16 → q ≠ r.val → t.ringEn q = s.ringEn q) ∧
    (Completes (.ringDisable r) s fun t =>
      if s.ringEn r = false then t = s
      else t.ringEn r = false ∧ t.hif.queue = s.hif.queue.filter (fun c => c.ring ≠ r.val) ∧
        t.hif.status = s.hif.status.filter (fun c => c.ring ≠ r.val) ∧
        (∀ c, (s.hif.status ++ s.hif.queue).filter (fun c => c.ring = r.val) = [c] →
          let cr := s.rd (Reg.HIF_Rr_CFG_CRING r)
          s.ringOpen cr rkCOMPLETION = true → s.ringFree cr ≠ 0 → cr ≠ r.val →
          t.rd (Reg.HIF_Rr_IDX_PI cr) = (s.rd (Reg.HIF_Rr_IDX_PI cr) + 1) % s.ringSize cr % 4096) ∧
        ∀ q, q < 16 → q ≠ r.val → t.ringEn q = s.ringEn q)) ∧
  let lost := fun (s t : State) => (∀ r, r < 16 → t.ringEn r = (s.ringEn r && decide (s.loc r = 1))) ∧ t.time = s.time ∧
    (∀ c ∈ s.hif.queue, c ∈ t.hif.queue ↔ ¬ (c.ring < 16 ∧ s.ringEn c.ring = true ∧ s.loc c.ring = 0)) ∧
    (∀ c ∈ s.hif.status, c ∈ t.hif.status ↔ ¬ (c.ring < 16 ∧ s.ringEn c.ring = true ∧ s.loc c.ring = 0)) ∧
    ∀ f, Fld.ofFaults f = false → f.key / 0x80000 ≠ 0x400C → t.rd f = s.rd f
  (∀ s : State, s.live pdHIF = true →
    (Completes .functionLevelReset s fun t =>
      lost s t ∧ t.on Reg.HIF_STAT_FLR = true ∧ t.isHeld Fc.HOST_RESET = true ∧ t.pends 178 = true) ∧
    (Completes .pcieLinkDown s fun t =>
      if s.on Reg.HIF_STAT_LINK_UP = false then t = s
      else lost s t ∧ t.on Reg.HIF_STAT_LINK_UP = false ∧ t.isHeld Fc.PCIE_LINK_DOWN = true ∧ t.pends 177 = true) ∧
    (Completes .hostSilent s fun t =>
      let n := s.rd Reg.HIF_CFG_HOST_TOUT
      if n ≠ 0 ∧ s.hostRing = true ∧ n ≤ s.hif.silent ∧ s.hif.silentUp = false then
        OnlyFaults (setHif { s.hif with silentUp := true } s) t ∧ t.isHeld Fc.HOST_SILENT = true
      else t = s)) ∧
  ∀ (speed width : Fin 4) (bme : Bool) (s : State), s.live pdHIF = true → Completes (.pcieLinkUp speed width bme) s fun t =>
    if speed.val = 0 ∨ width.val = 0 ∨ width.val = 3 then t = s
    else OnlyFaults ((((s.put Reg.HIF_STAT_LINK_UP true).wr Reg.HIF_STAT_SPEED speed).wr Reg.HIF_STAT_WIDTH width).put Reg.HIF_STAT_BME bme) t ∧
      t.pends 177 = true

/-- On a live host domain a command ring that is open, holds a descriptor and finds the apply queue not full is fetched
at the given clock: eight words from the slot at CI. A failed read of the descriptor or of its data, or a LOC 1
buffer outside shared SRAM, stops the ring and holds DMA_ERR; reserved bits, bad operands, a deadline before the
apply frame, an apply frame beyond HORIZON and an AXIS the opcode does not use are refused, CI moves on and nothing
is queued; otherwise the command with its data joins the end of the queue and CI moves on. A fetch that may not
start changes nothing. LOC 1 words come from shared SRAM. (R357, R359, R360, R361, R362, R376.) -/
def Obligations.DescriptorFetched : Prop :=
  ∀ (r : Fin 16) (clk : Nat) (f : FetchData) (s : State), s.live pdHIF = true → Completes (.descriptorFetch r clk f) s fun t =>
    let ci := s.rd (Reg.HIF_Rr_IDX_CI r)
    let size := 2 ^ s.rd (Reg.HIF_Rr_CFG_LSIZE r)
    let read := fun (a n : Nat) (host : List Word) (ok : Bool) =>
      if s.loc r = 1 then (if inSram a (4 * n) = true then some (getWords s.mem a n) else none)
      else if ok = true then some (padTo n (host.map BitVec.toNat)) else none
    if s.ringOpen r rkCOMMAND = false ∨ s.rd (Reg.HIF_Rr_IDX_PI r) = ci ∨ 256 ≤ s.hif.queue.length then t = s
    else
      t.time = (advance (clk - s.time.clk) s).time ∧
      match read (s.ringBase r + 32 * ci) 8 f.desc f.descOk with
      | none => t.on (Reg.HIF_Rr_STAT_STOPPED r) = true ∧ t.isHeld Fc.DMA_ERR = true ∧ t.hif.queue = s.hif.queue ∧
          t.rd (Reg.HIF_Rr_IDX_CI r) = ci
      | some d =>
        let c : Cmd := { ring := r, cidx := ci, desc := d, data := [] }
        let bad := bits (c.w 0) 12 4 ≠ 0 ∨ c.operandsOk = false ∨ (c.op ≠ 1 ∧ c.op ≠ 2 ∧ c.axis ≠ 0) ∨
          dist32 c.apply c.deadline < 0 ∨ (c.now = false ∧ (s.rd Reg.HIF_CFG_HORIZON : Int) < dist32 s.fn c.apply)
        let words := match c.fetches with
          | none => some []
          | some (b, n) => read b n f.data f.dataOk
        if bad then t.hif.queue = s.hif.queue ∧ t.rd (Reg.HIF_Rr_IDX_CI r) = (ci + 1) % size % 4096 ∧
          (SMap.get false s.fcu.seen Fc.BAD_DESC = false → t.pends 176 = true)
        else if s.bufferBad c = true ∨ words = none then
          t.on (Reg.HIF_Rr_STAT_STOPPED r) = true ∧ t.isHeld Fc.DMA_ERR = true ∧ t.hif.queue = s.hif.queue ∧
          t.rd (Reg.HIF_Rr_IDX_CI r) = ci
        else t.hif.queue = s.hif.queue ++ [{ c with data := words.getD [], clk := t.time.clk }] ∧
          t.rd (Reg.HIF_Rr_IDX_CI r) = (ci + 1) % size % 4096

/-- The next due command belongs to the lowest ring with one, was ready before the tick and has reached its apply frame.
It leaves the queue; past its deadline it completes STALE and has no effect. A SET of a departed device completes
AXIS_GONE, one for an axis fed by Fudorlink or not in AXMASK DENIED, both without a write, and any other writes its
words to the pending bank from word FIRST; READ_STATUS waits for END and then copies its words out; LOAD hands its
container to Crucible or is refused with 0x0F when eight wait; FAULT_CLEAR asks for the clear; leaving the cluster
ends every queued SET and READ_STATUS and every waiting status copy. Completions advance PI of an open completion
ring with room, in the layout of R367. Without a due command of its opcode a command changes nothing. (R361, R363,
R364, R365, R366, R367, R427, R448.) -/
def Obligations.CommandsApplied : Prop :=
  let completed := fun (c : Cmd) (st : Nat) (late : Bool) (res : List Nat) (s t : State) =>
    let cr := s.rd (Reg.HIF_Rr_CFG_CRING c.ring)
    s.ringOpen cr rkCOMPLETION = true → s.ringFree cr ≠ 0 →
      t.rd (Reg.HIF_Rr_IDX_PI cr) = (s.rd (Reg.HIF_Rr_IDX_PI cr) + 1) % s.ringSize cr % 4096 ∧
      (s.on Reg.HIF_CFG_EVTEN = false → t.mem = (complete c st late res s).mem ∧
        t.hif.hostMem = (complete c st late res s).hif.hostMem)
  let applied := fun (i : Instr) (op : Nat) (eff : Cmd → State → State → Prop) => ∀ s : State, s.live pdHIF = true →
    Completes i s fun t =>
      match s.nextDue with
      | none => t = s
      | some c =>
        if c.op ≠ op then t = s
        else t.time = s.time ∧ t.hif.queue = s.hif.queue.erase c ∧
          if dist32 s.fn c.deadline < 0 then
            completed c stSTALE false [] s t ∧ t.axs = s.axs ∧ t.sec = s.sec ∧ t.hif.status = s.hif.status
          else eff c s t
  let set := fun (ws : Cmd → List Nat) (c : Cmd) (s t : State) =>
    let n := c.axis
    if s.gone = true then completed c stAXIS_GONE (s.late c) [] s t ∧ t.axs = s.axs
    else if s.spFdl n = true ∨ tb (s.rd (Reg.HIF_Rr_CFG_AXMASK c.ring)) n = false then
      completed c stDENIED (s.late c) [] s t ∧ t.axs = s.axs
    else completed c stOK (s.late c) [] s t ∧ t.axs = (writePending n c.first (ws c) s).axs
  (∀ (s : State) (c : Cmd), s.nextDue = some c → c ∈ s.hif.queue ∧ c.clk < s.time.clk ∧
    (c.now = true ∨ 0 ≤ dist32 c.apply s.fn) ∧ s.time.ft = 0 ∧ ∀ d ∈ s.hif.queue, s.due d = true → c.ring ≤ d.ring) ∧
  applied .hostNop 0x00 (fun c s t => completed c stOK (s.late c) [] s t ∧ t.axs = s.axs ∧ t.sec = s.sec) ∧
  applied .setInline 0x01 (set fun c => padTo c.nw (c.desc.drop 4)) ∧
  applied .setBlock 0x02 (set fun c => padTo c.nw c.data) ∧
  applied .readStatus 0x10 (fun c s t =>
    if s.gone = true then completed c stAXIS_GONE (s.late c) [] s t ∧ t.hif.status = s.hif.status
    else t.hif.status = s.hif.status ++ [{ c with dueFn := s.fn, late := s.late c }]) ∧
  (∀ token : Bool, applied (.hostLoad token) 0x20 (fun c s t =>
    if s.crucibleFull = true then t.rd Reg.SEC_LAST = 0x0F ∧ t.sec.queue = s.sec.queue ∧ t.pends 225 = true ∧
      completed c stREFUSED (s.late c) [0x0F] s t
    else t.sec.queue = s.sec.queue ++ [.ring { c with dueFn := s.fn, late := s.late c, takenAt := s.time.clk }] ∧
      t.on Reg.SEC_STAT_BUSY = true)) ∧
  applied .faultClear 0x30 (fun c s t =>
    if s.clearRefused (s.ringRoles c.ring) (bits (c.w 3) 0 16) = true then
      (s.fidx ≠ 0 ∨ s.dev.state ≠ .lee → OnlyFaults (setHif t.hif { s with mem := t.mem }) t)
    else completed c stOK (s.late c) [0] s t ∧ t.pends 8 = true) ∧
  (∀ s : State, let t := hifLeaving s
    t.hif.gone = s.gone ∧ if s.gone = true ∧ s.hif.gone = false then
      t.hif.status = [] ∧ t.hif.queue = s.hif.queue.filter fun c => c.op ≠ 0x01 ∧ c.op ≠ 0x02 ∧ c.op ≠ 0x10
    else t.hif.status = s.hif.status ∧ t.hif.queue = s.hif.queue) ∧
  (∀ (x : WordEcc) (s : State), s.live pdHIF = true → Completes (.readStatusCopy x) s fun t =>
    match s.hif.status with
    | [] => t = s
    | c :: cs =>
      if s.fn = c.dueFn ∧ s.on Reg.ANV_STAT_RUNNING = true ∧ s.anv.endReached = false then t = s
      else t.hif.status = cs ∧ t.time = s.time ∧ t.hif.queue = s.hif.queue ∧
        (s.loc c.ring = 0 → s.ringOpen (s.rd (Reg.HIF_Rr_CFG_CRING c.ring)) rkCOMPLETION = false →
          s.on Reg.HIF_CFG_EVTEN = false ∨ (x = .ok ∧ s.calm) → t.hif.hostMem = putWords s.hif.hostMem c.addr (getWords s.mem (s.statusBase + 4 * c.soff) c.rsNw))) ∧
  ∀ (r w : Nat) (ws : List Nat) (s : State), ws.length = 7 → (∀ x ∈ w :: ws, x < 2 ^ 32) →
    let u := ringPut r (w :: ws) s
    let pi := s.rd (Reg.HIF_Rr_IDX_PI r)
    let phase := s.rd (Reg.HIF_Rr_STAT_PHASE r)
    let a := s.ringBase r + 32 * pi
    let entry := (w % 2 ^ 31 + phase * 2 ^ 31) :: ws
    (if s.rd (Reg.HIF_Rr_CFG_LOC r) = 1 then if inSram a 32 = true then getWords u.mem a 8 = entry else u.mem = s.mem
      else getWords u.hif.hostMem a 8 = entry) ∧
    u.rd (Reg.HIF_Rr_IDX_PI r) = (pi + 1) % s.ringSize r % 4096 ∧
    u.rd (Reg.HIF_Rr_STAT_PHASE r) = if pi + 1 = s.ringSize r then 1 - phase else phase

/-- On a live host domain: a due CAN_TX joins its controller's queue of 16 or completes BUSY; of the frames queued by
the start of frame that the controller can send (an FD frame only with FDEN, LISTEN only with LOOP) the one with the
lowest identifier leaves the queue with OK; the first frame past its deadline that has not begun leaves with STALE;
a received frame goes to the lowest filter that accepts it, restarts its guard, and is counted as a guard failure
with the guard fault of its class, written to the receive ring, or dropped with its count; without a change of state
only the error counts follow; error passive and bus-off are recorded with counts and faults, bus-off empties the
queue and is left only for error active by the recovery sequence; a starved filter raises its guard fault of its
class once. (R373, R374, R375, R376, R377.) -/
def Obligations.CanControllers : Prop :=
  let completed := fun (c : Cmd) (st : Nat) (late : Bool) (fn ct : Nat) (s t : State) =>
    let cr := s.rd (Reg.HIF_Rr_CFG_CRING c.ring)
    s.ringOpen cr rkCOMPLETION = true → s.ringFree cr ≠ 0 →
      t.rd (Reg.HIF_Rr_IDX_PI cr) = (s.rd (Reg.HIF_Rr_IDX_PI cr) + 1) % s.ringSize cr % 4096 ∧
      (s.on Reg.HIF_CFG_EVTEN = false → t.mem = (completeAt c st fn ct late [] s).mem)
  (∀ s : State, s.live pdHIF = true → Completes .canTx s fun t =>
    match s.nextDue with
    | none => t = s
    | some c =>
      let n := c.canCtl
      let words := if c.canPtr = true then c.data else c.desc.drop 5
      let f : CanFrame := ⟨{ c with late := s.late c }, c.w 3, c.w 4, padTo (ceilDiv c.canLen 4) words, s.ctTicks⟩
      if c.op ≠ 0x40 then t = s
      else t.hif.queue = s.hif.queue.erase c ∧ t.time = s.time ∧
        if dist32 s.fn c.deadline < 0 then t.can = s.can ∧ completed c stSTALE false s.fn (s.tickCt s.fn) s t
        else if 16 ≤ (s.cc n).txq.length then t.can = s.can ∧ completed c stBUSY (s.late c) s.fn (s.tickCt s.fn) s t
        else (t.cc n).txq = (s.cc n).txq ++ [f] ∧ ∀ k, k ≠ n → t.cc k = s.cc k) ∧
  (∀ (c : Fin 2) (sof : BitVec 64) (s : State), s.live pdHIF = true → Completes (.canTxDone c sof) s fun t =>
    match firstFrame ((s.cc c).txq.filter fun f => decide (f.at' ≤ sof.toNat) && (! tb f.w3 30 || s.on (Reg.CAN_Cc_CTRL_FDEN c))) with
    | none => t = s
    | some f =>
      if s.canOn c = false ∨ (s.on (Reg.CAN_Cc_CTRL_LISTEN c) = true ∧ s.on (Reg.CAN_Cc_CTRL_LOOP c) = false) ∨
          s.rd (Reg.CAN_Cc_STAT_STATE c) = canBUSOFF ∨
          s.ctTicks < sof.toNat ∨ dist32 (sof.toNat / s.frameTicks % 2 ^ 32) f.cmd.deadline < 0 then t = s
      else (t.cc c).txq = (s.cc c).txq.erase f ∧ t.pends (181 + 4 * c) = true ∧ t.time = s.time ∧
        (s.on (Reg.CAN_Cc_CTRL_LOOP c) = false → completed f.cmd stOK f.cmd.late s.fn (sof.toNat % 2 ^ 32) s t)) ∧
  (∀ (l : List CanFrame) (f : CanFrame), firstFrame l = some f → f ∈ l ∧ ∀ g ∈ l, bits f.w3 0 29 ≤ bits g.w3 0 29) ∧
  (∀ (c : Fin 2) (onBus : Option (Fin 16)) (s : State), s.live pdHIF = true → Completes (.canTxStale c onBus) s fun t =>
    (∀ k f, (s.cc c).txq[k]? = some f → onBus.map Fin.val ≠ some k → dist32 s.fn f.cmd.deadline < 0 →
      (∀ j g, (s.cc c).txq[j]? = some g → j < k → onBus.map Fin.val = some j ∨ 0 ≤ dist32 s.fn g.cmd.deadline) →
      (t.cc c).txq = (s.cc c).txq.eraseIdx k ∧ t.time = s.time ∧ completed f.cmd stSTALE f.cmd.late s.fn (s.tickCt s.fn) s t) ∧
    ((∀ k f, (s.cc c).txq[k]? = some f → onBus.map Fin.val = some k ∨ 0 ≤ dist32 s.fn f.cmd.deadline) → t = s)) ∧
  (∀ (c : Fin 2) (x : CanRx) (s : State), s.live pdHIF = true → Completes (.canRx c x) s fun t =>
    if s.canOn c = false ∨ s.on (Reg.CAN_Cc_CTRL_LOOP c) = true ∨ s.rd (Reg.CAN_Cc_STAT_STATE c) = canBUSOFF ∨ (x.fdf = true ∧ s.on (Reg.CAN_Cc_CTRL_FDEN c) = false) ∨
        (x.rtr = true ∧ x.fdf = true) then t = s
    else match s.canFilter c x.id.toNat x.ide with
      | none => Settled s t
      | some f =>
        let r := s.rd (Reg.CAN_Cc_CTRL_RXRING c)
        let ds := canDescs c f s.fn x
        let seen := s.setCc c { s.cc c with age := SMap.set 0 (s.cc c).age f 0, timedOut := SMap.set false (s.cc c).timedOut f false }
        t.can = seen.can ∧ t.time = s.time ∧
        if x.len.val < s.rd (Reg.CAN_Cc_Ff_GRD_LENMIN c f) ∨ s.rd (Reg.CAN_Cc_Ff_GRD_LENMAX c f) < x.len.val ∨
            (x.fdf = true ∧ s.on (Reg.CAN_Cc_Ff_GRD_FDOK c f) = false) then
          OnlyFaults (seen.inc (Reg.CAN_Cc_CNT_GUARDFAIL c)) t ∧ t.pends (183 + 4 * c) = true ∧
          t.isHeld (if s.on (Reg.CAN_Cc_Ff_GRD_CLASS c f) = true then Fc.CAN_GUARD_S c else Fc.CAN_GUARD_M c) = true
        else if s.ringOpen r rkEVENT = true ∧ ds.length ≤ s.ringFree r then
          t.pends (180 + 4 * c) = true ∧ (s.on Reg.HIF_CFG_EVTEN = false → t.mem = (ringWrite r ds s).mem)
        else OnlyFaults (seen.inc (Reg.CAN_Cc_CNT_RXDROP c)) t) ∧
  (∀ (c f fn : Nat) (x : CanRx), x.len.val ≤ 12 ∨ x.rtr = true → ∃ w5 w6 w7, canDescs c f fn x =
    [[0x10 + c * 2 ^ 12, fn, x.id.toNat + b2n x.ide * 2 ^ 29 + b2n x.fdf * 2 ^ 30 + b2n x.brs * 2 ^ 31,
      x.len.val + b2n x.esi * 2 ^ 7 + b2n x.rtr * 2 ^ 8 + f * 2 ^ 16, x.sof.toNat, w5, w6, w7]]) ∧
  (∀ (c : Fin 2) (st : Fin 3) (tec : BitVec 8) (rec : BitVec 7) (s : State), s.live pdHIF = true →
    Completes (.canErrorState c st tec rec) s fun t =>
      let old := s.rd (Reg.CAN_Cc_STAT_STATE c)
      if s.canOn c = false ∨ (old = canBUSOFF ∧ st.val ≠ canBUSOFF ∧ ¬ (st.val = canACTIVE ∧ (s.cc c).recovering = true)) then t = s
      else if old = st.val then t = (s.wr (Reg.CAN_Cc_STAT_TEC c) tec.toNat).wr (Reg.CAN_Cc_STAT_REC c) rec.toNat
      else t.rd (Reg.CAN_Cc_STAT_STATE c) = st.val ∧ t.rd (Reg.CAN_Cc_STAT_TEC c) = tec.toNat ∧
        t.rd (Reg.CAN_Cc_STAT_REC c) = rec.toNat ∧ t.pends (182 + 4 * c) = true ∧ t.time = s.time ∧
        (st.val = canPASSIVE → t.isHeld (Fc.CAN_ERR_PASSIVE c) = true) ∧
        (st.val = canBUSOFF → t.isHeld (Fc.CAN_BUS_OFF c) = true ∧ (t.cc c).txq = [] ∧
          (t.cc c).recovering = s.on (Reg.CAN_Cc_CTRL_AUTO_REC c)) ∧
        (st.val ≠ canBUSOFF → (t.cc c).txq = (s.cc c).txq)) ∧
  (∀ (c : Fin 2) (s : State), s.live pdHIF = true → Completes (.recover c) s fun t =>
    if s.canOn c = true ∧ s.rd (Reg.CAN_Cc_STAT_STATE c) = canBUSOFF then Settled (s.setCc c { s.cc c with recovering := true }) t
    else t = s) ∧
  ∀ (c : Fin 2) (f : Fin 32) (s : State), s.live pdHIF = true → Completes (.canGuardTimeout c f) s fun t =>
    let n := s.rd (Reg.CAN_Cc_Ff_GRD_TOUT c f)
    if s.canOn c = true ∧ s.on (Reg.CAN_Cc_Ff_ID_EN c f) = true ∧ n ≠ 0 ∧ n ≤ SMap.get 0 (s.cc c).age f ∧
        SMap.get false (s.cc c).timedOut f = false then
      OnlyFaults (s.setCc c { s.cc c with timedOut := SMap.set false (s.cc c).timedOut f true }) t ∧ t.pends (183 + 4 * c) = true ∧
      t.isHeld (if s.on (Reg.CAN_Cc_Ff_GRD_CLASS c f) = true then Fc.CAN_GUARD_S c else Fc.CAN_GUARD_M c) = true
    else t = s

/-- To an awake idle target with the controller enabled the lowest pending source aimed at it, enabled or within 2
clocks of its EN clear or 4 of its presentation, and not held on another target, is presented, and a presentation
whose source no longer qualifies is withdrawn; acceptance clears the pending bit, ends the wake votes of the source,
records source, LVL and LATE, ends the presentation, traps the core with mcause 11 or 9 and enters the delivery log
of a pair that is not split; a pair that cannot take a trap, or whose main core LAG_MAX stalls before that
instruction, leaves it presented. DONE of the source in service ends it, any other sets DMISM and holds
DONE_MISMATCH; SWSET bits are events on sources 240 to 255; a source write sets EN always and the rest only while
not locked, refuses a TGT the device lacks, holds a re-targeted presented source where it is presented, leaves a
presented source whose EN clears standing until arbitration finds it, and keeps the wake votes that sleeping targets
hold. (R382, R383, R384, R385, R386, R388, R389, R390.) -/
def Obligations.InterruptDelivery : Prop :=
  (∀ (t : Fin 4) (s : State), Completes (.interruptPresent t) s fun r =>
    let p : Nat := t.val % 2
    let awake := s.live p = true ∧ (s.split = true ∨ (t.val < 2 ∧ s.pairState p ≠ pairLOST ∧ s.pairState p ≠ pairOFF))
    let enabled := fun src => s.on (Reg.INTC_SRCs_EN src) = true ∨ s.time.clk < SMap.get 0 s.intc.enOff src
    let kept := fun src => s.on (Reg.INTC_Tt_PRES_VALID t) = true ∧ s.rd (Reg.INTC_Tt_PRES_SRC t) = src ∧
      s.time.clk ≤ SMap.get 0 s.intc.presAt t + 4
    let wants := fun src => s.pends src = true ∧ s.rd (Reg.INTC_SRCs_TGT src) = t.val + 1 ∧ (enabled src ∨ kept src) ∧
      ∀ u < 4, u ≠ t.val → SMap.get none s.intc.held u ≠ some src
    if s.on Reg.INTC_CTRL_EN = false ∨ s.on (Reg.INTC_Tt_INSV_VALID t) = true ∨ ¬ awake ∨ SMap.get none s.intc.held t ≠ none then r = s
    else
      ((∀ src < 256, ¬ wants src) → Settled (s.put (Reg.INTC_Tt_PRES_VALID t) false) r) ∧
      ∀ src < 256, wants src → (∀ q < src, ¬ wants q) →
        r.on (Reg.INTC_Tt_PRES_VALID t) = true ∧ r.rd (Reg.INTC_Tt_PRES_SRC t) = src ∧ r.time = s.time ∧ r.pair = s.pair) ∧
  (∀ (t : Fin 4) (ic : BitVec 64) (clk : Nat) (s : State), Completes (.interruptAccept t ic clk) s fun r =>
    let u := advance (clk - s.time.clk) s
    let p : Nat := t.val % 2
    let q := s.pr p
    let able := s.split = true ∨ (q.log.length < 64 ∧ q.resync = false ∧ q.halted = none ∧ s.mainCan p ic.toNat = true)
    match u.offered t with
    | none => r = u
    | some (src, late) =>
      if ¬ able then r = u
      else
        let lvl := s.rd (Reg.INTC_SRCs_LVL src)
        let mcause := if lvl = 1 then 9 else 11
        r.rd (Reg.INTC_Tt_INSV_SRC t) = src % 256 ∧ r.on (Reg.INTC_Tt_INSV_VALID t) = true ∧ r.rd (Reg.INTC_Tt_INSV_LVL t) = lvl ∧
        r.on (Reg.INTC_Tt_INSV_LATE t) = late ∧ r.on (Reg.INTC_Tt_PRES_VALID t) = false ∧ r.time = u.time ∧ r.pwr.idle = false ∧
        r.rd (Reg.INTC_Tt_CNT t) = min (s.rd (Reg.INTC_Tt_CNT t) + 1) (2 ^ 32 - 1) ∧
        (∀ v ∈ r.intc.votes, v.1 ≠ src) ∧
        (src < 256 → s.calm → s.time.rem = 0 → r.pends src = false) ∧
        (s.split = false → (r.pr p).log = q.log ++ [{ ic := ic.toNat, mcause := mcause, src := src }] ∧
          (r.pr p).mainIc = max q.mainIc ic.toNat ∧ (r.pr p).wfi = false ∧
          (r.pr p).main.trap = some mcause) ∧
        (s.split = true → (r.pr p).log = q.log ∧
          if t.val < 2 then (r.pr p).main.trap = some mcause ∧ (r.pr p).chk = q.chk
          else (r.pr p).chk.trap = some mcause ∧ (r.pr p).main = q.main)) ∧
  (∀ (t : Nat) (s : State) (src : Nat) (late : Bool), s.offered t = some (src, late) →
    s.on (Reg.INTC_Tt_PRES_VALID t) = true ∧ src = s.rd (Reg.INTC_Tt_PRES_SRC t) ∧
    (late = false ↔ s.on (Reg.INTC_SRCs_EN src) = true ∨ s.time.clk < SMap.get 0 s.intc.enOff src) ∧
    (late = true → s.time.clk ≤ SMap.get 0 s.intc.presAt t + 4 ∨ SMap.get none s.intc.held t ≠ none)) ∧
  (∀ (t : Fin 4) (src : BitVec 8) (s : State), s.runs = true → Completes (.intcDone t src) s fun r =>
    if s.on (Reg.INTC_Tt_INSV_VALID t) = true ∧ s.rd (Reg.INTC_Tt_INSV_SRC t) = src.toNat then
      Settled (s.put (Reg.INTC_Tt_INSV_VALID t) false) r
    else OnlyFaults (s.put Reg.INTC_STAT_DMISM true) r ∧ r.isHeld Fc.DONE_MISMATCH = true) ∧
  (∀ (mask : BitVec 16) (s : State), s.runs = true → Completes (.swset mask) s fun r =>
    OnlyFaults s r ∧ ∀ j < 16, mask.getLsbD j = true → r.pends (240 + j) = true) ∧
  ∀ (src : Fin 256) (v : BitVec 6) (s : State), s.runs = true → Completes (.sourceConfigWrite src v) s fun r =>
    let n : Nat := src.val
    let tgt := bits v.toNat 1 3
    let ok := tgt ≤ 2 ∨ (s.split = true ∧ tgt ≤ 4)
    let shown := fun t => s.on (Reg.INTC_Tt_PRES_VALID t) = true ∧ s.rd (Reg.INTC_Tt_PRES_SRC t) = n
    let clears := s.on (Reg.INTC_SRCs_EN n) = true ∧ v.getLsbD 0 = false
    r.on (Reg.INTC_SRCs_EN n) = v.getLsbD 0 ∧ r.time = s.time ∧
    (s.on Reg.INTC_CTRL_LOCK = true → r.rd (Reg.INTC_SRCs_TGT n) = s.rd (Reg.INTC_SRCs_TGT n) ∧
      r.rd (Reg.INTC_SRCs_LVL n) = s.rd (Reg.INTC_SRCs_LVL n)) ∧
    (s.on Reg.INTC_CTRL_LOCK = false → r.on (Reg.INTC_SRCs_LVL n) = v.getLsbD 4 ∧ r.on (Reg.INTC_SRCs_WAKE n) = v.getLsbD 5 ∧
      (if ok then r.rd (Reg.INTC_SRCs_TGT n) = tgt
       else r.rd (Reg.INTC_SRCs_TGT n) = s.rd (Reg.INTC_SRCs_TGT n) ∧ r.on Reg.INTC_STAT_WDENY = true) ∧
      (ok → s.rd (Reg.INTC_SRCs_TGT n) ≠ tgt → ∀ t < 4, shown t → v.getLsbD 0 = true ∨ s.on (Reg.INTC_SRCs_EN n) = true ∨
        s.time.clk ≤ SMap.get 0 s.intc.presAt t + 4 → SMap.get none r.intc.held t = some n)) ∧
    (clears → SMap.get 0 r.intc.enOff n = s.time.clk + 2 ∧
      ∀ t < 4, shown t → r.on (Reg.INTC_Tt_PRES_VALID t) = true ∧ r.rd (Reg.INTC_Tt_PRES_SRC t) = n) ∧
    (∀ x ∈ s.intc.votes, x ∈ r.intc.votes) ∧
    (∀ t < 4, ∀ src < 256, s.asleep t = true → s.pends src = true → s.on (Reg.INTC_SRCs_EN src) = true →
      s.on (Reg.INTC_SRCs_WAKE src) = true → s.rd (Reg.INTC_SRCs_TGT src) = t + 1 → (src, t) ∈ r.intc.votes) ∧
    ∀ k < 8, ∀ j < 32, s.bit (Reg.INTC_PENDk k) j = true → r.bit (Reg.INTC_PENDk k) j = true

/-- In a unit that is on with no decision waiting, each command has the effect of R396 on its task alone and counts in
CMDCNT, or is refused with CMDBAD and TSK_CMD_BAD and no effect; a SET readies a waiting task whose condition holds
with MATCH and AUTOCLR, and PRIO of a spilled task is written to its entry in the spill region, or takes it into the
queue above an entry there. A decision lets a task that still runs go on, else runs the head, or waits when the head
is spilled; SIGNAL entries of the clock set their flags before its command, and readiness is judged after it; it
shows CUR and DSEQ, raises its source and writes one trace record. A decision waiting for a refill is made before
the next command, and a unit that is off, stopped or unpowered ignores commands. (R394, R395, R396, R397, R400,
R401, R402.) -/
def Obligations.TaskCommands : Prop :=
  let fresh := fun (p : Nat) (s : State) => s.tskOn p = true ∧ (s.tu p).wait = none ∧ s.markNow p = none ∧ (s.hwq p).length ≤ 64
  let others := fun (p k : Nat) (s t : State) => (∀ j, j ≠ k → t.tk p j = s.tk p j) ∧ (∀ q, q ≠ p → t.tu q = s.tu q) ∧
    ∀ f, Fld.ofFaults f = false → f.key / 0x80000 ≠ 0x400F → t.rd f = s.rd f
  let ran := fun (p : Nat) (s t : State) => t.rd (Reg.TSK_Px_CMDCNT p) = min (s.rd (Reg.TSK_Px_CMDCNT p) + 1) (2 ^ 32 - 1)
  let refused := fun (p : Nat) (s t : State) => OnlyFaults (s.put (Reg.TSK_Px_STAT_CMDBAD p) true) t ∧ t.pends (195 + 8 * p) = true
  let decided := fun (p op : Nat) (former : Option Nat) (ic : Nat) (u v s t : State) =>
    ran p s t ∧
    if (∃ h, u.head p = some h ∧ (u.tk p h).slot ≠ none) ∧ (op = 7 ∨ u.running p = none) then
      t.tu p = { u.tu p with wait := some ⟨op, former, ic⟩ }
    else
      let now := match v.running p with
        | some r => some r
        | none => v.head p
      t.running p = now ∧ (∀ j, v.running p ≠ none ∨ v.head p ≠ some j → t.tk p j = v.tk p j) ∧
      (∀ j, v.running p = none → v.head p = some j → t.tk p j = { v.tk p j with st := 3 }) ∧
      (∀ j, now = some j → t.rd (Reg.TSK_Px_CUR_TASK p) = j % 128 ∧ t.rd (Reg.TSK_Px_CUR_PRIO p) = (v.tk p j).prio % 16) ∧
      t.on (Reg.TSK_Px_CUR_VALID p) = now.isSome ∧ t.rd (Reg.TSK_Px_CUR_DSEQ p) = (s.rd (Reg.TSK_Px_CUR_DSEQ p) + 1) % 2 ^ 16 ∧
      t.pends (192 + 8 * p) = true ∧
      let size := (s.rd (Reg.TSK_Px_TRSIZE p) + 1) * 4096
      let wp := if s.rd (Reg.TSK_Px_TRWP_WP p) < size then s.rd (Reg.TSK_Px_TRWP_WP p) else 0
      let a := s.rd (Reg.TSK_Px_TRBASE p) * 4096 + wp
      let w2 := op + former.getD 0 * 2 ^ 4 + b2n former.isSome * 2 ^ 11 + now.getD 0 * 2 ^ 12 + b2n now.isSome * 2 ^ 19 +
        ((t.hwq p).length + (t.spilled p).length) * 2 ^ 20
      t.rd (Reg.TSK_Px_TRWP_WP p) = (if wp + 16 = size then 0 else (wp + 16) % 2 ^ 16) ∧
      (s.on Reg.HIF_CFG_EVTEN = false → t.mem = if inSram a 16 = true then
        putWords s.mem a [s.fn, s.ctTicks % 2 ^ 32, w2, if s.split = true then 0 else ic % 2 ^ 32] else s.mem)
  let all := fun (p : Fin 2) (k : Fin 128) (prio : Fin 16) (mode autoclr : Bool) (ic : Word) =>
    [Instr.taskStart p k prio mode autoclr, .taskStop p k ic, .taskSet p k, .taskClear p k, .taskWait p mode autoclr ic,
      .taskYield p ic, .taskSwitch p ic, .taskPrio p k prio]
  ∀ (p : Fin 2) (k : Fin 128) (prio : Fin 16) (mode autoclr : Bool) (ic : Word) (s : State),
    (∀ c ∈ all p k prio mode autoclr ic,
      (s.tskOn p = false → Completes c s (Settled s)) ∧
      (s.tskOn p = true → (s.tu p).wait ≠ none → let u := withPreempt p (refillOne p) (advance 8 s)
        ((u.tu p).wait = none → exec c s = exec c u))) ∧
    (∀ m, s.tskOn p = true → (s.tu p).wait = none → s.markNow p = some m → m.named = [k.val] →
      ((unjudged p s).hwq p).length ≤ 64 → Completes (.taskClear p k) s fun t =>
        let x := (unjudged p s).tk p k
        let flags := andNotW x.flags (s.rd (Reg.TSK_Px_ARG p))
        let hit := andW flags x.mask
        (∀ j, j ≠ k.val → t.tk p j = (unjudged p s).tk p j) ∧
        (¬ (x.st = 1 ∧ (if x.mode = true then hit = x.mask else hit ≠ 0)) → t.tk p k = { x with flags := flags })) ∧
    (fresh p s →
      let x := s.tk p k
      let arg := s.rd (Reg.TSK_Px_ARG p)
      let seq := (s.tu p).seqCtr
      let step := fun (n : Nat) (t : State) => (t.tu p).seqCtr = if n = 0 then seq else (seq + 1) % 2 ^ 32
      (Completes (.taskStart p k prio mode autoclr) s fun t =>
        if x.st ≠ 0 then refused p s t
        else t.tk p k = ⟨2, prio, mode, autoclr, x.flags, arg, x.hit, seq, x.slot⟩ ∧ step 1 t ∧ others p k s t ∧ ran p s t ∧
          t.time = s.time) ∧
      (Completes (.taskSet p k) s fun t =>
        let flags := orW x.flags arg
        let hit := andW flags x.mask
        let met := if x.mode = true then hit = x.mask else hit ≠ 0
        others p k s t ∧ ran p s t ∧ t.time = s.time ∧
        if x.st = 1 ∧ met then
          t.tk p k = ⟨2, x.prio, x.mode, x.autoclr, if x.autoclr = true then andNotW flags hit else flags, x.mask, hit, seq, x.slot⟩ ∧
          step 1 t
        else t.tk p k = { x with flags := flags } ∧ step 0 t) ∧
      (Completes (.taskClear p k) s fun t =>
        t.tk p k = { x with flags := andNotW x.flags arg } ∧ step 0 t ∧ others p k s t ∧ ran p s t ∧ t.time = s.time) ∧
      (Completes (.taskPrio p k prio) s fun t =>
        let up := ∃ w, (setTk p k { x with prio := prio } s).worst p ((setTk p k { x with prio := prio } s).hwq p) = some w ∧
          (setTk p k { x with prio := prio } s).ahead p k w = true
        (x.slot = none ∨ ¬ up → t.tk p k = { x with prio := prio }) ∧
        (x.slot ≠ none → up → t.tk p k = { x with prio := prio, slot := none }) ∧
        step 0 t ∧ others p k s t ∧ ran p s t ∧ t.time = s.time ∧
        (s.on Reg.HIF_CFG_EVTEN = false →
          let a := s.rd (Reg.TSK_Px_SPILL p) * 512 + 8 * x.slot.getD 0
          t.mem = if (x.slot ≠ none ∧ ¬ up) ∧ inSram a 8 = true then putWords s.mem a ({ x with prio := prio : TaskSt }.entry k) else s.mem)) ∧
      (Completes (.taskStop p k ic) s fun t =>
        let v := setTk p k { x with st := 0, slot := none } s
        if x.st = 3 then decided p 2 (some k) ic.toNat v v s t
        else t.tk p k = { x with st := 0, slot := none } ∧ step 0 t ∧ others p k s t ∧ ran p s t) ∧
      (Completes (.taskWait p mode autoclr ic) s fun t =>
        match s.running p with
        | none => refused p s t
        | some r =>
          let v := checkReady p r (setTk p r { s.tk p r with st := 1, mask := arg, mode := mode, autoclr := autoclr } s)
          if arg = 0 then refused p s t else decided p 5 (some r) ic.toNat v v s t) ∧
      (Completes (.taskYield p ic) s fun t =>
        match s.running p with
        | none => refused p s t
        | some r => decided p 6 (some r) ic.toNat (makeReady p r s) (makeReady p r s) s t) ∧
      Completes (.taskSwitch p ic) s fun t =>
        match s.running p with
        | none => decided p 7 none ic.toNat s s s t
        | some r =>
          let lower := (s.head p).any fun h => decide ((s.tk p h).prio < (s.tk p r).prio)
          decided p 7 (some r) ic.toNat s (if lower then setTk p r { s.tk p r with st := 2 } s else s) s t)

/-- The head has the lowest PRIO value of the queue and the spill region. A spill takes 8 clocks and moves the ready
task that must go, while the region is not full, the lowest of more than 64 or one below a spilled task, to a free
entry with its check; a refill takes 8 clocks, needs fewer than 56 entries or a waiting decision, brings back the
best spilled entry with the PRIO and SEQ it holds when its CHECK, its task and its reserved bits are good, and makes
a decision that waited, and else sets SPILLERR and holds TSK_SPILL_ERR; neither happens without its condition. In a
unit without power EN stays 0. Setting EN from 0 leaves every task DORMANT with PRIO 15 and none running; setting it
again changes no task. (R393, R394, R398, R400.) -/
def Obligations.TaskQueueAndEnable : Prop :=
  (∀ (p h : Nat) (s : State), s.head p = some h → h ∈ s.hwq p ++ s.spilled p ∧ ∀ a ∈ s.hwq p ++ s.spilled p, (s.tk p h).prio ≤ (s.tk p a).prio) ∧
  (∀ (p : Fin 2) (s : State), Completes (.taskSpill p) s fun t =>
    match s.toSpill p with
    | none => t = s
    | some k =>
      if s.on (Reg.TSK_Px_STAT_SPILLERR p) = true then t = s
      else
        let u := advance 8 s
        t.time = u.time ∧ ∃ e, t.tk p k = { s.tk p k with slot := some e } ∧ (∀ j, j ≠ k → t.tk p j = s.tk p j) ∧
          (((s.tu p).tasks.filterMap fun x => x.2.slot).length < 64 → e < 64 ∧ ∀ x ∈ (s.tu p).tasks, x.2.slot ≠ some e) ∧
          (s.on Reg.HIF_CFG_EVTEN = false →
            let a := s.rd (Reg.TSK_Px_SPILL p) * 512 + 8 * e
            t.mem = if inSram a 8 = true then putWords s.mem a ((s.tk p k).entry k) else s.mem)) ∧
  (∀ (p : Fin 2) (ecc : WordEcc) (s : State), Completes (.taskRefill p ecc) s fun t =>
    match s.best p (s.spilled p) with
    | none => t = s
    | some k =>
      if s.on (Reg.TSK_Px_STAT_SPILLERR p) = true ∨ ((s.tu p).wait = none ∧ (56 ≤ (s.hwq p).length ∨ s.toSpill p ≠ none)) then t = s
      else
        let u := refillEcc p ecc (advance 8 s)
        let x := s.tk p k
        let a := s.rd (Reg.TSK_Px_SPILL p) * 512 + 8 * x.slot.getD 0
        let w0 := getWord u.mem a
        let w1 := getWord u.mem (a + 4)
        t.time = (advance 8 s).time ∧
        if inSram a 8 = true ∧ bits w0 16 16 = spillCheck (bits w0 0 16) w1 ∧ bits w0 0 7 = k ∧ tb w0 7 = false ∧ bits w0 12 4 = 0 then
          (t.tk p k).slot = none ∧ (t.tu p).wait = none ∧ t.on (Reg.TSK_Px_STAT_SPILLERR p) = false ∧
          ((s.tu p).wait = none → t.tk p k = { x with slot := none, prio := bits w0 8 4, seq := w1 }) ∧ ((s.tu p).wait ≠ none → t.pends (192 + 8 * p) = true)
        else t.on (Reg.TSK_Px_STAT_SPILLERR p) = true ∧ t.isHeld (Fc.TSK_SPILL_ERR p) = true ∧ (t.tu p).wait = none ∧ t.tk p k = x) ∧
  (∀ (k : Nat) (x : TaskSt), k < 128 → x.prio < 16 → ∃ check, x.entry k = [k + x.prio * 2 ^ 8 + check * 2 ^ 16, x.seq] ∧ check < 2 ^ 16) ∧
  ∀ (p : Fin 2) (s : State), Completes (.tskEnable p) s fun t => if s.live p = false then t = s else
    t.on (Reg.TSK_Px_CTRL_EN p) = true ∧ t.time = s.time ∧
    (s.on (Reg.TSK_Px_CTRL_EN p) = true → t.tsk = s.tsk) ∧
    (s.on (Reg.TSK_Px_CTRL_EN p) = false → (∀ k, (t.tk p k).st = 0 ∧ (t.tk p k).prio = 15) ∧ t.running p = none ∧
      t.on (Reg.TSK_Px_CUR_VALID p) = false ∧ t.on (Reg.TSK_Px_STAT_SPILLERR p) = false ∧ ∀ q, q ≠ p.val → t.tu q = s.tu q)

/-- For every fault and every state, unless the source was already raised in its frame and is limited to once: COUNT and
LASTFN follow; class S and M are held with the reaction in force, class I never; class S takes both error pins low;
a free record captures the fault with FN, CT, ADDR, MASTER and ACC, a captured one counts and merges its class, and
where it was captured on this clock it takes the fault that ranks first, by class and then by code; class S and M
are logged; sources 0, 4, 5, 6 and 7 are raised as stated; outside REPLAY, Lee entry takes ACTIVE to LEE and a
device of a set in STANDBY, unless it is split or FULL debug is open in FIELD, to OBSERVER, axis safe state requests
the safe state of the axis set, safe state requests every axis and takes the device to SAFE with role OFFLINE and
claim 0, and reset schedules a device reset 4,000 ticks later on top; in REPLAY no reaction changes the device. No
request and no held fault is lost. (R32, R409, R411, R413, R414, R415, R419, R422, R423, R424, R426.) -/
def Obligations.FaultRaisedAndReaction : Prop :=
  ∀ (f : Raise) (s : State), (oncePerFrame f.code && SMap.get false s.fcu.seen f.code) = false →
    let t := raise1 f s
    let cls := faultClass f.code
    let r := s.reactOf f.code
    OnlyFaults s t ∧
    SMap.get 0 t.fcu.count f.code = min (SMap.get 0 s.fcu.count f.code + 1) 255 ∧ SMap.get 0 t.fcu.lastFn f.code = s.fn % 2 ^ 16 ∧
    (cls ≠ .i → t.heldReact f.code = some r ∧ SMap.get 0 t.fcu.axes f.code = f.axes) ∧
    (cls = .i → t.fcu.held = s.fcu.held) ∧ (∀ c, c ≠ f.code → t.heldReact c = s.heldReact c) ∧
    (cls = .s → t.on Reg.FCU_STAT_FLT_P = false ∧ t.on Reg.FCU_STAT_FLT_N = false ∧ t.fcu.fltOn = false ∧ t.pends 0 = true) ∧
    (cls = .m → t.pends 4 = true) ∧ (r ≠ .none → t.pends 5 = true) ∧
    (cls ≠ .i → s.on Reg.FCU_REC_VALID = false →
      t.on Reg.FCU_REC_VALID = true ∧ t.rd Reg.FCU_REC_CODE = f.code % 2 ^ 16 ∧ t.rd Reg.FCU_REC_CLASS = cls.code ∧
      t.rd Reg.FCU_REC_REACT = r.code ∧ t.rd Reg.FCU_REC_COUNT = 0 ∧ t.rd Reg.FCU_REC2_CLASSES = 2 ^ cls.code ∧
      t.rd Reg.FCU_REC2_MASTER = f.master % 16 ∧ t.rd Reg.FCU_REC2_ACC = f.acc % 4 ∧ t.rd Reg.FCU_REC_ADDR = f.addr % 2 ^ 32 ∧
      t.rd Reg.FCU_REC_FN = s.fn ∧ t.fcu.recAt = some s.time.clk ∧ t.rd Reg.FCU_REC_CTH * 2 ^ 32 + t.rd Reg.FCU_REC_CTL = s.ctTicks ∧ t.pends 6 = true) ∧
    (cls ≠ .i → s.on Reg.FCU_REC_VALID = true →
      let c := s.rd Reg.FCU_REC_CLASS
      let first := s.fcu.recAt = some s.time.clk ∧ (cls.code < c ∨ (cls.code = c ∧ f.code < s.rd Reg.FCU_REC_CODE))
      t.fcu.recAt = s.fcu.recAt ∧ t.rd Reg.FCU_REC_FN = s.rd Reg.FCU_REC_FN ∧
      (if first then
        t.rd Reg.FCU_REC_CODE = f.code % 2 ^ 16 ∧ t.rd Reg.FCU_REC_CLASS = cls.code ∧ t.rd Reg.FCU_REC_REACT = r.code ∧
        t.rd Reg.FCU_REC2_MASTER = f.master % 16 ∧ t.rd Reg.FCU_REC2_ACC = f.acc % 4 ∧ t.rd Reg.FCU_REC_ADDR = f.addr % 2 ^ 32
       else ∀ g ∈ [Reg.FCU_REC_CODE, Reg.FCU_REC_CLASS, Reg.FCU_REC_REACT, Reg.FCU_REC2_MASTER, Reg.FCU_REC2_ACC,
          Reg.FCU_REC_ADDR], t.rd g = s.rd g) ∧
      t.rd Reg.FCU_REC_COUNT = min (s.rd Reg.FCU_REC_COUNT + 1) 255 ∧
      t.rd Reg.FCU_REC2_CLASSES = orW (s.rd Reg.FCU_REC2_CLASSES) (2 ^ cls.code) ∧ t.pends 7 = true) ∧
    (cls ≠ .i ∨ s.reported f.code = true →
      let wp := s.rd Reg.FCU_LOGWP_WP
      t.rd Reg.FCU_LOGWP_WP = (wp + 1) % 256 ∧ (f.code < 2 ^ 16 → t.rd (Reg.FCU_LOGi wp) % 2 ^ 64 =
        f.code + cls.code * 2 ^ 16 + r.code * 2 ^ 18 + s.fn * 2 ^ 32)) ∧
    (cls = .i → s.reported f.code = false → t.rd Reg.FCU_LOGWP_WP = s.rd Reg.FCU_LOGWP_WP) ∧
    (s.dev.state = .replay → t.dev.state = .replay ∧ t.role = s.role ∧ t.fcu.supReq = s.fcu.supReq ∧ t.dev.resetDue = s.dev.resetDue) ∧
    (s.dev.state ≠ .replay →
      (r = .lee → s.dev.state = .active → cls ≠ .i → t.dev.state = .lee) ∧
      (r = .lee → s.dev.state = .standby → cls ≠ .i → s.inSet = true → s.split = false → ¬ (s.rd Reg.SEC_STAT_DBG = 2 ∧ s.rd Reg.SEC_STAT_LC = 2) →
        t.role = roleOBSERVER ∧ t.dev.state = .standby ∧ (s.role ≠ roleOBSERVER → t.rd Reg.SEAM_CLAIM_CLAIM = 0)) ∧
      (r = .axisSafe → t.dev.state = s.dev.state ∧ ∀ n < 8, tb f.axes n = true → tb t.fcu.supReq n = true) ∧
      (r = .safe ∨ r = .reset → t.dev.state = .safe ∧ t.fcu.supSo = true ∧ (∀ n < 8, tb t.fcu.supReq n = true) ∧
        (s.dev.state ≠ .safe → t.role = roleOFFLINE ∧ t.rd Reg.SEAM_CLAIM_CLAIM = 0)) ∧
      (r = .reset → s.dev.resetDue = none → t.dev.resetDue = some (s.ctTicks + 4000, 5)) ∧
      (r = .none ∨ r = .interrupt → t.dev.state = s.dev.state ∧ t.fcu.supReq = s.fcu.supReq))

/-- The Lee warning is given once at its count, and LIMIT reached at a frame tick in LEE holds LEE_EXPIRED and takes the
device to SAFE; at each 50 µs edge the pins are complementary while they may toggle and else low; each edge is
judged once, and a readback mismatch at two consecutive edges holds FLT_READBACK; clearing VALID ends the handling
period, but acts before the faults of its clock; RP moves only within the unread entries or to WP; a reaction is
taken unless R412 or R411 refuses it, REPORT for any source; FCU_LEE takes only values in range while not locked. A
clear is refused for a fault that is not held, clears itself, is still reported, has an axis out of SAFE and
DISABLED, is not the role's to clear, or was held only by a raise of this clock; otherwise the fault alone stops
being held, or is held again where it was raised on this clock. (R411, R412, R417, R418, R419, R421, R423, R426,
R427, R432, R471.) -/
def Obligations.LeeTimerPinsAndClearing : Prop :=
  (∀ s : State, s.runs = true → Completes .leeWarn s fun t =>
    match s.fcu.leeEntry with
    | none => t = s
    | some e =>
      if s.fcu.leeWarned = true ∨ s.rd Reg.FCU_LEE_WARN = 0 then t = s
      else
        let u := reach (e + (s.rd Reg.FCU_LEE_LIMIT * 400000000 - s.rd Reg.FCU_LEE_WARN * 400000000 - s.fcu.leeKept)) s
        Settled (irq 2 (setFcu { u.fcu with leeWarned := true } u)) t ∧ t.pends 2 = true) ∧
  (∀ s : State, s.runs = true → Completes .leeExpired s fun t =>
    if s.dev.state = .lee ∧ s.time.ft = 0 ∧ s.rd Reg.FCU_LEE_LIMIT * 400000000 ≤ s.leeCount then
      t.isHeld Fc.LEE_EXPIRED = true ∧ t.dev.state = .safe ∧ t.role = roleOFFLINE ∧ t.time = s.time ∧
      t.on Reg.FCU_STAT_FLT_P = false ∧ ∀ n < 8, tb t.fcu.supReq n = true
    else t = s) ∧
  (∀ s : State, Completes .fltEdge s fun t => if s.runs = false then t = s else
    let u := reach (s.ctTicks - s.ctTicks % 20000 + 20000) s
    let even := decide (u.ctTicks / 20000 % 2 = 0)
    let ok := (u.dev.state = .standby ∨ u.dev.state = .active ∨ u.dev.state = .lee) ∧ u.holdsClass .s = false ∧ u.runs = true
    if ok then
      let x := setFcu { u.fcu with fltOn := true, fltP := even, fltN := ! even } u
      Settled ((x.put Reg.FCU_STAT_FLT_P even).put Reg.FCU_STAT_FLT_N (! even)) t
    else
      let x := setFcu { u.fcu with fltOn := false, fltP := false, fltN := false } u
      Settled ((x.put Reg.FCU_STAT_FLT_P false).put Reg.FCU_STAT_FLT_N false) t) ∧
  (∀ (p n : Bool) (s : State), Completes (.fltReadbackCheck p n) s fun t => if s.runs = false then t = s else
    let u := reach (s.ctTicks - s.ctTicks % 20000 + 4000) s
    let bad := p ≠ s.fcu.fltP ∨ n ≠ s.fcu.fltN
    let edge := s.ctTicks / 20000
    let again := bad ∧ s.fcu.fltMis = true ∧ ∃ e, s.fcu.fltCheck = some e ∧ e + 1 = edge
    let x := (u.put Reg.FCU_STAT_FLT_P p).put Reg.FCU_STAT_FLT_N n
    t.time = u.time ∧
    (s.fcu.fltCheck = some edge → Settled x t) ∧
    (s.fcu.fltCheck ≠ some edge → again → t.isHeld Fc.FLT_READBACK = true) ∧
    (s.fcu.fltCheck ≠ some edge → ¬ again → Settled (setFcu { u.fcu with fltMis := decide bad, fltCheck := some edge } x) t)) ∧
  (∀ s : State, s.runs = true → Completes .recordClear s fun t =>
    if s.fcu.recAt = some s.time.clk then Settled s t
    else if s.fcu.mergeAt = s.time.clk ∧ s.fcu.merged ≠ [] then
      t.on Reg.FCU_REC_VALID = true ∧ t.pends 6 = true ∧ t.time = s.time ∧
      ∀ f, s.fcu.merged = [f] → s.calm → s.pends 6 = false → t.rd Reg.FCU_REC_CODE = f.code % 2 ^ 16 ∧
        t.rd Reg.FCU_REC_COUNT = 0 ∧ t.rd Reg.FCU_REC_FN = s.fn
    else Settled (setFcu { s.fcu with merged := [] } (s.put Reg.FCU_REC_VALID false)) t) ∧
  (∀ (v : BitVec 8) (s : State), s.runs = true → Completes (.logRpWrite v) s fun t =>
    let un := s.rd Reg.FCU_LOGRP_UNREAD
    let step := (v.toNat + 256 - s.rd Reg.FCU_LOGRP_RP) % 256
    let moved := fun (n : Nat) => (s.wr Reg.FCU_LOGRP_RP v.toNat).wr Reg.FCU_LOGRP_UNREAD n
    if v.toNat = s.rd Reg.FCU_LOGWP_WP then Settled (moved 0) t
    else if step < un then Settled (moved (un - step)) t
    else Settled (s.put Reg.FCU_STAT_WDENY true) t) ∧
  (∀ (v : BitVec 4) (s : State), s.runs = true → Completes (.reactWrite v) s fun t =>
    let code := s.rd Reg.FCU_SEL
    let r := v.toNat % 8
    let locked := s.on Reg.FCU_CTRL = true
    let denied := locked ∨ 5 < r ∨ (faultClass code = .s ∧ (r = 0 ∨ (r = 1 ∧ 1 < (faultDefault code).code)))
    if faultRow code = none then t = s
    else ∃ x, Settled x t ∧ x.fcu.held = s.fcu.held ∧ x.time = s.time ∧
      x.on Reg.FCU_STAT_WDENY = (s.on Reg.FCU_STAT_WDENY || decide denied) ∧
      (∀ c, x.reported c = if c = code ∧ ¬ locked then v.getLsbD 3 else s.reported c) ∧
      ∀ c, some (x.reactOf c) = if c = code ∧ ¬ denied then React.ofCode r else some (s.reactOf c)) ∧
  (∀ (v : Word) (s : State), s.runs = true → Completes (.leeLimitWrite v) s fun t =>
    let limit := bits v.toNat 0 10
    let warn := bits v.toNat 10 10
    if s.on Reg.FCU_CTRL = true then t = s
    else if limit = 0 ∨ 600 < limit ∨ 599 < warn then Settled (s.put Reg.FCU_STAT_WDENY true) t
    else Settled ((s.wr Reg.FCU_LEE_LIMIT limit).wr Reg.FCU_LEE_WARN warn) t) ∧
  ∀ (roles : List Nat) (code : Nat) (s : State),
    let t := (clearFault roles code s).2
    let may := roleMAKER ∈ roles ∨ roleSERVICE ∈ roles ∨ (roleVENDOR ∈ roles ∧ s.rd Reg.SEC_STAT_LC = 0) ∨
      (roleHOST ∈ roles ∧ (faultClass code = .m ∨ (faultClass code = .s ∧ s.heldReact code = some .lee)))
    let axisOut := faultClass code = .s ∧ s.heldReact code = some .axisSafe ∧
      ∃ n ∈ List.range 8, tb (SMap.get 0 s.fcu.axes code) n = true ∧ s.ax n ≠ axSAFE ∧ s.ax n ≠ axDISABLED
    if s.isHeld code = false ∨ faultAuto code = true ∨ s.stillReports code = true ∨ axisOut ∨ ¬ may ∨
        SMap.get none s.fcu.struck code = some (s.time.clk, false) then
      (clearFault roles code s).1 = 1 ∧ OnlyFaults s t
    else (clearFault roles code s).1 = 0 ∧
      (if SMap.get none s.fcu.struck code = some (s.time.clk, true) then t.heldReact code = s.heldReact code
       else t.isHeld code = false) ∧ (∀ c, c ≠ code → t.heldReact c = s.heldReact c) ∧
      t.pends 8 = true ∧ t.dev = s.dev ∧ t.fcu.supReq = s.fcu.supReq

/-- For each of the ten commands that process a container: with Crucible unpowered or serving nothing, with a mailbox
command of the same clock ahead, with nothing queued, with a front container of another kind, with a HALLMARK
descriptor in front or with a schedule being validated nothing changes; in REPLAY the verdict is 0x0D; a container
of host memory whose DMA read failed completes DMA_ERR and stops its ring; one handed over short is malformed, 0x01;
otherwise the first failing check of R444 is the verdict, with SEC_LAST, the completion or the window status, source
225 and LOAD_REFUSED or TOKEN_REFUSED, and without any other effect. The checks all pass exactly when header, path,
class, revision, lifecycle, serial, signer, key hashes, both signatures, anti-rollback and token counter do. (R443,
R444, R445, R446, R447, R448, R459, R476, R487.) -/
def Obligations.ContainersVerified : Prop :=
  (∀ (c : Container) (f u tag r : Bool) (plain : List Word) (s : State),
    ∀ x ∈ [(1, Instr.imageLoad c f), (2, .engineLoad c r), (3, .sealedLoad c u tag r plain), (4, .scheduleLoad c), (17, .lifecycle c),
        (18, .keys c), (19, .debugToken c), (20, .grantToken c), (21, .replayToken c u), (22, .reckey c u)],
      (s.crucUp = false ∨ s.sec.queue = [] ∨ s.sec.queue.head?.map isContainer = some false ∨ s.sec.sched ≠ none ∨
          s.sec.queue.head?.map s.mboxAhead = some true →
        Completes x.2 s fun t => t = s) ∧
      ∀ src, s.crucUp = true → s.sec.queue.head? = some src → isContainer src = true → s.sec.sched = none →
        s.mboxAhead src = false →
        let c := s.contents src c
        let unread := ∃ d, src = .ring d ∧ c.dmaOk = false ∧ s.loc d.ring ≠ 1
        (c.step ≠ x.1 → Completes x.2 s fun t => t = s) ∧
        (c.step = x.1 → unread → Completes x.2 s fun t =>
          t.sec = { s.sec with queue := s.sec.queue.drop 1, sched := none, accepted := none } ∧ t.rd Reg.SEC_LAST = s.rd Reg.SEC_LAST ∧
          t.on Reg.HIF_STAT_DMAERR = true ∧ t.isHeld Fc.DMA_ERR = true ∧ t.time = s.time ∧ t.eng = s.eng ∧
          ∀ d, src = .ring d → t.on (Reg.HIF_Rr_STAT_STOPPED d.ring) = true) ∧
        (c.step = x.1 → ¬ unread → if s.dev.state = .replay then Completes x.2 s (Verdict src c 0x0D 0 s)
        else if s.handed src < 17104 + c.len then Completes x.2 s (Verdict src c 0x01 0 s)
        else s.verify (pathTakes src c) c ≠ 0 → Completes x.2 s (Verdict src c (s.verify (pathTakes src c) c) 0 s))) ∧
  ∀ (s : State) (takes : Bool) (c : Container),
    let k := c.keyslot
    let inForce := tb c.lcmask s.lc = true
    let thisDevice := bits (c.w 4) 0 16 = s.rd Reg.SYS_ID_DEVCLASS ∧ bits (c.w 4) 16 8 ≤ s.rd Reg.SYS_ID_REV ∧
      s.rd Reg.SYS_ID_REV ≤ bits (c.w 4) 24 8
    let signer := s.signerOk c = true ∧ (c.vendor = true ∨ (s.slotProg k = true ∧ s.slotRevoked k = false))
    (s.verify takes c = 0 ↔ c.malformed = false ∧ takes = true ∧ thisDevice ∧ inForce ∧
      s.sec.serial &&& c.sermask = c.serial &&& c.sermask ∧ signer ∧
      c.keyHash = (if c.vendor = true then vendorHash else SMap.get [] s.sec.keys k) ∧
      c.rsaOk = true ∧ c.slhOk = true ∧ (c.arbEn = true → s.arbCtr c.arbIdx ≤ c.arbVal) ∧
      (c.type = ctTOKEN → s.tkcNow ≤ c.tkc)) ∧
    (s.verify takes c = 0x01 ↔ c.malformed = true) ∧
    (s.verify takes c = 0x02 ↔ c.malformed = false ∧ takes = false) ∧
    (s.verify takes c = 0x08 ↔ c.malformed = false ∧ takes = true ∧ ¬ thisDevice) ∧
    (s.verify takes c = 0x09 ↔ c.malformed = false ∧ takes = true ∧ thisDevice ∧ ¬ inForce) ∧
    (c.rsaOk = false ∨ c.slhOk = false → s.verify takes c ∈ [0x01, 0x02, 0x08, 0x09, 0x0A, 0x03, 0x04, 0x05, 0x06])

/-- A verified ENGINE container for an axis that is not DISABLED is refused with 0x0D; one being loaded is accepted for
its target and stays in process; on the report a payload that breaks the layout gives 0x0C with 0x30, a failing
check of R94 gives its number, and a good one makes the engine take up its program filled with END, pages, nodes and
coefficients at a coming tick, with the digest kept. A SEALED container is refused with 0x0E in RETURN, under FULL
debug, in MAKER with debug open, or without the DRS, with 0x26 on a split device, with 0x0D, 0x20 or 0x23; after
acceptance a failed unwrap, tag, entry or check gives 0x24, 0x25, 0x23 or its number and the engine takes up its
former contents; a good one writes its words with SEALED set. (R92, R93, R94, R449, R458, R476, R478, R479.) -/
def Obligations.EngineAndSealedLoads : Prop :=
  let unchanged := fun (n : Nat) (s t : State) => (∀ m, m ≠ n → t.e m = s.e m) ∧
    t.e n = { s.e n with load := (t.e n).load } ∧ t.time = s.time ∧ t.axs = s.axs ∧
    ∀ f, Fld.ofFaults f = false → f.key / 0x80000 ≠ 0x400C → f.key / 0x80000 ≠ 0x4012 → f.key / 0x80000 ≠ 0x4013 → t.rd f = s.rd f
  let loaded := fun (n : Nat) (src : CrucSrc) (c : Container) (code check : Nat)
      (prog : Option (List Nat × List Nat × List Nat × Nat)) (coefs : List (Nat × Nat)) (s t : State) =>
    unchanged n s t ∧ (∃ u : State, u.sec.queue = s.sec.queue ∧ u.sec.sealBar = s.sec.sealBar ∧ (s.calm → u.calm) ∧ u.fcu = s.fcu ∧ Verdict src c code check u t) ∧
    match (s.e n).load with
    | none => (t.e n).load = some { program := prog, coefs := coefs }
    | some l => (t.e n).load = some { l with program := if prog.isSome = true then prog else l.program, coefs := l.coefs ++ coefs }
  let accepted := fun (c : Container) (s t : State) => Settled { s with sec := { s.sec with accepted := some c.target } } t
  (∀ (c : Container) (report : Bool) (src : CrucSrc) (s : State), let b := s.contents src c; s.passes 2 src b →
    Completes (.engineLoad c report) s fun t =>
      let n := b.target
      let e := (s.future n).1
      if s.ax n ≠ axDISABLED then Verdict src b 0x0D 0 s t
      else if report = false then accepted b s t
      else match readEngine b.body with
        | none => Verdict src b 0x0C 0x30 s t
        | some p =>
          let after := { e with coef := p.coefs.foldl (fun m x => SMap.set 0 m x.1 x.2) e.coef }
          let check := loadCheck after p.prog p.pages p.nodes
          if check ≠ 0 then Verdict src b 0x0C check s t
          else loaded n src b 0 0 (some (p.prog ++ List.replicate (2048 - p.prog.length) endWord, p.pages, p.nodes, p.id)) p.coefs s t ∧
            SMap.get [] t.sec.engD n = b.digest ∧ t.sec.seaD = s.sec.seaD) ∧
  ∀ (c : Container) (unwrapOk tagOk report : Bool) (plain : List Word) (src : CrucSrc) (s : State),
    let b := s.contents src c
    s.passes 3 src b →
    Completes (.sealedLoad c unwrapOk tagOk report plain) s fun t =>
      let n := b.target
      let first := b.sealFirst
      let count := b.sealCount
      let failed := fun check => loaded n src b 0x0C check none [] s t
      if s.rd Reg.SEC_STAT_DBG = 2 ∨ (s.lc = lcMAKER ∧ s.rd Reg.SEC_STAT_DBG ≠ 0) ∨ s.lc = lcRETURN ∨ s.sec.drsBad = true then Verdict src b 0x0E 0 s t
      else if s.split = true then Verdict src b 0x0C 0x26 s t
      else if s.ax n ≠ axDISABLED then Verdict src b 0x0D 0 s t
      else if b.len ≠ (416 + 8 * count + 15) / 16 * 16 then Verdict src b 0x0C 0x20 s t
      else if count = 0 ∨ 4096 < first + count then Verdict src b 0x0C 0x23 s t
      else if report = false then accepted b s t
      else if unwrapOk = false then failed 0x24
      else if tagOk = false then failed 0x25
      else match coefEntries count first (padTo (2 * count) (plain.map BitVec.toNat)) with
        | none => failed 0x23
        | some es =>
          let words := es.map fun p => (p.1, p.2 % 2 ^ 39 + 2 ^ 39)
          let (e, pages, isLoaded) := s.future n
          let after := { e with coef := words.foldl (fun m x => SMap.set 0 m x.1 x.2) e.coef }
          let check := if isLoaded = true then loadCheck after (SMap.getMany 0 e.prog 0 2048) pages (SMap.getMany 0 e.nodes 0 64) else 0
          if check ≠ 0 then failed check
          else loaded n src b 0 0 none words s t ∧ SMap.get [] t.sec.seaD n = b.digest ∧ t.sec.engD = s.sec.engD

/-- A verified SCHEDULE that breaks the layout gives 0x0C with 0x31; one whose mode, or a mode it would overlap, is
active or armed gives 0x0D with EDIT_DENIED and source 22; else table entries, mode fields, region, MODE_ID and
signed values are written, the mode and every overlapped one lose VALID (those with code 0xA and the first
overwritten entry), the mode waits for validation and the container stays in process. Validation answers 0x00, or
0x0C with 0x10 + CODE or 0x40 + the region's code, and shows both. A verified IMAGE is refused with 0x0D while the
booted slot is TRIAL, with 0x0C where it breaks R452, and with 0x10 on a flash failure with the other slot EMPTY;
else it stands in the slot not booted, TRIAL, ATT 0xFF, preferred, two generations on. (R51, R52, R325, R450, R451,
R452, R454, R447.) -/
def Obligations.SchedulesAndImages : Prop :=
  (∀ (c : Container) (src : CrucSrc) (s : State), let b := s.contents src c; s.passes 4 src b →
    Completes (.scheduleLoad c) s fun t =>
      let m := b.target
      let w := fun i => b.body.getD i 0
      let span := (w 2, w 3 + 1)
      let hit := s.overlapped m span
      if scheduleOk b.body = false then Verdict src b 0x0C 0x31 s t
      else if s.modeBusy m = true ∨ ∃ p ∈ hit, s.modeBusy p.1 = true then
        t.rd Reg.SEC_LAST = 0x0D + m % 8 * 2 ^ 16 ∧ t.on Reg.ANV_STAT_EDIT_DENIED = true ∧ t.pends 22 = true ∧ t.pends 225 = true ∧
          t.anv = s.anv ∧ t.fdl = s.fdl ∧ t.sec = { s.sec with queue := s.sec.queue.drop 1, sched := none, accepted := none }
      else
        t.anv.table = SMap.setMany 0 s.anv.table (w 2) (entriesOf (w 3 + 1) (b.body.drop 16)) ∧
        t.fdl.region = SMap.setMany 0 s.fdl.region (1024 * m) (b.body.drop (16 + 4 * (w 3 + 1))) ∧
        SMap.get (0, 0) t.fdl.signed m = (w 0, w 1) ∧
        t.rd (Reg.ANV_MODEn_BASE m) = w 2 ∧ t.rd (Reg.ANV_MODEn_LENM1 m) = w 3 ∧
        t.rd (Reg.FDL_Mm_IDL m) = (sha384 (b.body.drop (16 + 4 * (w 3 + 1)))).getD 0 0 ∧
        t.rd (Reg.FDL_Mm_IDH m) = (sha384 (b.body.drop (16 + 4 * (w 3 + 1)))).getD 1 0 ∧
        m ∈ t.anv.validating ∧ m ∈ t.anv.written ∧ t.sec = { s.sec with sched := some m } ∧ t.time = s.time ∧ t.eng = s.eng ∧ t.axs = s.axs ∧
        t.on (Reg.ANV_VALn_VALID m) = false ∧
        ∀ j < 8, t.bit Reg.ANV_STAT_VALID j = (s.bit Reg.ANV_STAT_VALID j && decide (j ≠ m) && ! (hit.map Prod.fst).contains j)) ∧
  (∀ (ecc : Option (Fin 2048)) (s : State), s.live pdCRUC = true → Completes (.validationDone ecc) s fun t =>
    match s.sec.sched, s.sec.queue with
    | some m, src :: rest =>
      let prog := s.progCheck m (ecc.map Fin.val)
      let reg := s.regionCheck m
      let good := prog.1 = 0 ∧ reg.1 = 0
      t.sec = { s.sec with queue := rest, sched := none, accepted := none } ∧ t.pends 225 = true ∧ t.pends 21 = true ∧
      t.time = s.time ∧ t.anv = { s.anv with validating := s.anv.validating.filter (· ≠ m) } ∧
      (m < 8 → t.rd Reg.SEC_LAST = (if good then 0 else if prog.1 ≠ 0 then 0x0C + (0x10 + prog.1) * 2 ^ 8 else 0x0C + (0x40 + reg.1) * 2 ^ 8) + m * 2 ^ 16 ∧
        t.bit Reg.ANV_STAT_VALID m = decide good ∧ t.on (Reg.ANV_VALn_VALID m) = decide good ∧
        t.rd (Reg.ANV_VALn_CODE m) = (if good then 0 else if prog.1 ≠ 0 then prog.1 else 0xF) ∧
        t.rd (Reg.FDL_Mm_VAL_CODE m) = reg.1 % 2 ^ 4 ∧
        ∀ i, prog.1 ≠ 0 → prog.2 = some i → i < 2048 → t.rd (Reg.ANV_VALn_ENTRY m) = i)
    | _, _ => t = s) ∧
  ∀ (c : Container) (flashOk : Bool) (src : CrucSrc) (s : State), let b := s.contents src c; s.passes 1 src b →
    Completes (.imageLoad c flashOk) s fun t =>
      let booted := s.sec.booted.getD 0
      let slot := 1 - booted
      if s.bcbNow.st booted = bsTRIAL then Verdict src b 0x0D 0 s t
      else if b.imageOk = false then Verdict src b 0x0C 0 s t
      else if flashOk = false then
        t.rd Reg.SEC_LAST = 0x10 ∧ t.sec.slotA = s.sec.slotA ∧ t.sec.slotB = s.sec.slotB ∧
          (s.sec.bcb0.gen < 2 ^ 32 → s.sec.bcb1.gen < 2 ^ 32 → t.bcbNow.st slot = bsEMPTY) ∧
          t.sec.queue = s.sec.queue.drop 1
      else
        t.rd Reg.SEC_LAST = 0 ∧ t.sec.queue = s.sec.queue.drop 1 ∧ t.sec.booted = s.sec.booted ∧ t.sec.image = s.sec.image ∧
        (if slot = 0 then t.sec.slotA = some b ∧ t.sec.slotB = s.sec.slotB else t.sec.slotB = some b ∧ t.sec.slotA = s.sec.slotA) ∧
        (s.sec.bcb0.gen < 2 ^ 32 → s.sec.bcb1.gen < 2 ^ 32 →
        t.bcbNow.st slot = bsTRIAL ∧ t.bcbNow.att slot = 255 ∧ t.bcbNow.prefer = slot ∧
        t.bcbNow.st (1 - slot) = s.bcbNow.st (1 - slot) ∧ t.bcbNow.gen = (s.bcbNow.gen + 2) % 2 ^ 32)

/-- A verified token whose content fails gives 0x0C with the first of 0x20, 0x21, 0x22, 0x23, 0x26; LIFECYCLE, FULL
debug and REPLAY give 0x0D outside their device states, BLANK to MAKER without a fused serial 0x0D, it and RECKEY
0x0F without randomness, a revocation against R440 0x03, a failed unwrap, an unreadable DRS or RETURN 0x24.
Otherwise LIFECYCLE blows all three copies of its bit after its effect (BLANK to MAKER generates DRS and DTK) and
schedules a reset 4,000 ticks after that, KEYS programs, revokes or blows SPLIT, DEBUG opens its level (FULL after
the scrub, and in FIELD with role OFFLINE and DEBUG_OPEN held), GRANT waits for the frame tick, REPLAY enters REPLAY
with Almanac SRAM discarded, RECKEY sets the next KR; TKC_ADVANCE moves the device count. At a frame tick an
outdated grant ends or does not begin and a waiting one takes effect or, with class 3, ends the grant; GRANT_EXPIRY
ends one whose frames have elapsed. (R435, R436, R440, R446, R457, R458, R473, R474, R475, R476, R477, R484.) -/
def Obligations.TokensInForce : Prop :=
  let judged := fun (step : Nat) (i : Container → Instr) (eff : CrucSrc → Container → State → State → Prop) =>
    ∀ (c : Container) (src : CrucSrc) (s : State), let b := s.contents src c; s.passes step src b → Completes (i c) s fun t =>
      match s.tokenCheck b with
      | some r => Verdict src b r.1 r.2 s t
      | none => eff src b s t
  let inForce := fun (b : Container) (s t : State) =>
    t.rd Reg.SEC_LAST = 0 ∧ t.pends 225 = true ∧ t.time = s.time ∧ t.anv = s.anv ∧ t.axs = s.axs ∧ t.lc = s.lc ∧
    t.sec.queue = s.sec.queue.drop 1 ∧ t.tkcNow = (if tb b.flags 0 = true then max s.tkcNow b.tkc else s.tkcNow)
  let blown := fun (bit : Option Nat) (s t : State) =>
    ∀ k < 320, SMap.get 0 t.sec.fuses k = if bit = some k then 3 else SMap.get 0 s.sec.fuses k
  let scrubbed := fun (s t : State) => ∀ n < 8, (t.e n).coef = [] ∧ t.bit Reg.CEC_STAT_LOADED n = false ∧
    t.rd (Reg.CEC_En_COEF n) = 0 ∧ (t.e n).prog = (s.e n).prog ∧
    (t.e n).data = (s.e n).data.filter fun p => pageClass ((List.range 4).map fun m => s.rd (Reg.CEC_En_PAGEm n m)) (p.1 / 256) = 0
  let right := fun (b : Container) (ends : Option Nat) =>
    ({ role := b.role, cls := bits (b.pw 1) 0 2, mask := bits (b.pw 1) 8 8, ends := ends, tkc := b.tkc } : Grant)
  (∀ s : State, s.quiet = true ↔ (s.dev.state = .standby ∨ s.dev.state = .safe) ∧ ∀ n < 8, s.ax n = axDISABLED ∨ s.ax n = axSAFE) ∧
  (∀ (s : State) (b : Container),
    (s.tokenCheck b = some (0x0C, 0x20) ↔ b.kind = 0 ∨ 6 < b.kind ∨ b.len ≠ s.tokenLen b) ∧
    (∀ r, s.tokenCheck b = some r → r.1 = 0x0C ∧ r.2 ∈ [0x20, 0x21, 0x22, 0x23, 0x26]) ∧
    (s.tokenCheck b = none → b.sermask = 2 ^ 64 - 1 ∧ b.lcmask = 2 ^ s.lc ∧ s.roleOk b = true ∧
      ((b.kind = tkGRANT ∨ b.kind = tkREPLAY) → bits (b.pw 1) 0 2 ≠ 3 → bits (b.pw 1) 0 2 ≤ roleCeiling b.role))) ∧
  judged 17 .lifecycle (fun src b s t =>
    let first := s.lc = lcBLANK ∧ b.to = lcMAKER
    if s.quiet = false then Verdict src b 0x0D 0 s t
    else if first ∧ s.sec.serialFused = false then Verdict src b 0x0D 0 s t
    else if first ∧ s.sec.trngFail = true then Verdict src b 0x0F 0 s t
    else if s.lc = lcMAKER ∧ b.to = lcFIELD ∧ (s.slotProg 0 = false ∨ s.slotRevoked 0 = true ∨ s.rd Reg.SEC_STAT_DBG ≠ 0) then
      Verdict src b 0x0D 0 s t
    else inForce b s t ∧ blown (some (b.to - 1)) s t ∧ t.pends 226 = true ∧
      (s.dev.resetDue = none → t.dev.resetDue = some (s.ctTicks + 16000, 9)) ∧
      (if first then t.sec.keys = SMap.set [] s.sec.keys 0 (b.body.drop 4) ∧ t.sec.drs.length = 8 ∧
          ∃ iv dtk : List Nat, iv.length = 3 ∧ dtk.length = 96 ∧
            t.sec.dtk = iv ++ gcmText (wrapKey t.sec.drs 0) iv [] dtk ++ gcmTag (wrapKey t.sec.drs 0) iv [] dtk
        else t.sec.drs = s.sec.drs ∧ t.sec.dtk = s.sec.dtk ∧ t.sec.keys = s.sec.keys) ∧
      (if b.to = lcRETURN ∨ b.to = lcDEAD then scrubbed s t else t.eng = s.eng)) ∧
  judged 18 .keys (fun src b s t =>
    let slot := bits (b.pw 1) 0 2
    let act := bits (b.pw 1) 8 2
    if act = 1 ∧ (b.keyslot = slot ∨ ∀ k ∈ List.range 4, k = slot ∨ s.slotProg k = false ∨ s.slotRevoked k = true) then Verdict src b 0x03 0 s t
    else inForce b s t ∧ t.eng = s.eng ∧
      t.sec.keys = (if act = 0 then SMap.set [] s.sec.keys slot (b.body.drop 4) else s.sec.keys) ∧
      blown (if act = 0 then none else if act = 1 then some (4 + slot) else some (6 + act)) s t) ∧
  judged 19 .debugToken (fun src b s t =>
    let level := b.pw 1
    if level = 2 ∧ s.quiet = false then Verdict src b 0x0D 0 s t
    else inForce b s t ∧ t.pends 227 = true ∧ t.sec.dbgRole = some b.role ∧
      t.rd Reg.SEC_STAT_DBG = max (s.rd Reg.SEC_STAT_DBG) level ∧ t.rd Reg.DBG_STAT_LEVEL = max (s.rd Reg.SEC_STAT_DBG) level ∧
      (if level = 2 then scrubbed s t else t.eng = s.eng) ∧ blown none s t ∧
      (level = 2 → s.lc = lcFIELD → t.role = roleOFFLINE ∧ t.isHeld Fc.DEBUG_OPEN = true ∧
        (s.role ≠ roleOFFLINE → t.rd Reg.SEAM_CLAIM_CLAIM = 0))) ∧
  judged 20 .grantToken (fun _ b s t => inForce b s t ∧ t.eng = s.eng ∧ t.cec = s.cec ∧ t.sec.grant = s.sec.grant ∧
    t.sec.grantNext = some (right b (if b.pw 2 = 0 then none else some (b.pw 2)))) ∧
  (∀ unwrapOk : Bool, judged 21 (.replayToken · unwrapOk) fun src b s t =>
    if s.dev.state ≠ .standby ∨ (∃ n ∈ List.range 8, s.ax n ≠ axDISABLED) ∨ s.on Reg.ANV_STAT_RUNNING = true then Verdict src b 0x0D 0 s t
    else if unwrapOk = false ∨ s.sec.drsBad = true ∨ s.lc = lcRETURN then Verdict src b 0x0C 0x24 s t
    else inForce b s t ∧ t.eng = s.eng ∧ t.dev.state = .replay ∧ t.role = roleOFFLINE ∧ t.rd Reg.SEAM_CLAIM_CLAIM = 0 ∧
      t.sec.replay = some (right b none) ∧ t.alm.ring = [] ∧ t.alm.keys = [] ∧ t.alm.sessions = [] ∧
      t.alm.rpKeyId = b.pw 2 + b.pw 3 * 2 ^ 32) ∧
  (∀ unwrapOk : Bool, judged 22 (.reckey · unwrapOk) fun src b s t =>
    if unwrapOk = false ∨ s.sec.drsBad = true ∨ s.lc = lcRETURN then Verdict src b 0x0C 0x24 s t
    else if s.sec.trngFail = true then Verdict src b 0x0F 0 s t
    else inForce b s t ∧ t.eng = s.eng ∧ t.alm.krNext = some (b.pw 2 + b.pw 3 * 2 ^ 32) ∧
      t.alm.krKeyNext = oaepKey s.sec.dtk ((b.body.drop 4).take 96) ∧ t.alm.kr = s.alm.kr) ∧
  (∀ s : State, let t := grantTick s
    t.sec.grantNext = none ∧ t.cec.cover = t.coverDue ∧
    let current := fun g : Grant => decide (s.tkcNow ≤ g.tkc)
    t.sec.grant = (match s.sec.grantNext.filter current with
      | some g => if g.cls = 3 then none else some g
      | none => (s.sec.grant.filter current).map fun g => { g with ends := g.ends.map fun n => n - 1 }) ∧
    t.sec.replay = s.sec.replay.filter current ∧
    (narrows s.cec.cover t.cec.cover = true → t.rd Reg.CEC_TR_RP = s.rd Reg.CEC_TR_WP)) ∧
  ∀ s : State, s.live pdCRUC = true → Completes .grantExpiry s fun t =>
    match s.sec.grant with
    | some g => if g.ends = some 0 then t.sec = { s.sec with grant := none } ∧ t.cec.cover = t.coverDue ∧ t.time = s.time else t = s
    | none => t = s

/-- On a live Crucible in BOOT: a bit with two of three copies is set and completed, the bit whose write a reset cut off
having as many as are found; the lifecycle in force is the highest fused bit; unless that is unreadable or DEAD,
when Crucible serves nothing, debug is open at FULL in BLANK, MAKER and RETURN unless a MAKER image closes it; any
unreadable field holds FUSE_ERROR; an unreadable or DEAD lifecycle takes the device to SAFE with no image; no valid
boot control block holds BCB_ERROR. A slot is not tried while EMPTY or FAILED, becomes FAILED when TRIAL with no
attempt left, loses one attempt when tried as TRIAL under a valid block, and boots only if its container verifies
and keeps R452; a slot refused over the signatures, the counter or R452 leaves the ranges of its segments zero. The
preferred slot boots if it can, else the other with FALLBACK and BOOT_FALLBACK held, with the nested containers
waiting in index order and, on a split device, the cores released; else the device is in SAFE. Outside BOOT nothing
changes. (R29, R433, R434, R437, R438, R451, R452, R453.) -/
def Obligations.BootSelection : Prop :=
  (∀ (slot : Nat) (counted : Bool) (s : State), slot < 2 →
    let content := if slot = 0 then s.sec.slotA else s.sec.slotB
    let st := s.bcbNow.st slot
    let att := s.bcbNow.att slot
    let r := trySlot slot counted s
    if st = bsEMPTY ∨ st = bsFAILED then r = (false, s)
    else if counted = true ∧ st = bsTRIAL ∧ att % 8 = 0 then
      r.1 = false ∧ (s.sec.bcb0.gen < 2 ^ 32 → s.sec.bcb1.gen < 2 ^ 32 → r.2.bcbNow.st slot = bsFAILED)
    else (r.1 = true ↔ ∃ c, content = some c ∧ s.verify (decide (c.type = ctIMAGE)) c = 0 ∧ c.imageOk = true) ∧
      (counted = false ∨ st ≠ bsTRIAL → (r.1 = true → r.2 = s) ∧ r.2.sec = s.sec ∧ r.2.regs = s.regs) ∧
      (∀ c, content = some c → s.verify (decide (c.type = ctIMAGE)) c ∈ [0, 5, 6, 7] → r.1 = false →
        ∀ i < min (c.body.getD 0 0) 16, let g := imageSegment c.body i
          segmentFits c.len g = true → ∀ k < g.2.1,
            if g.2.2.2 = 0 then getByte r.2.mem (g.2.2.1 + k) = 0
            else (g.2.2.2 ≠ 2 → getByte (r.2.pr 0).main.mem (g.2.2.1 - 0x08000000 + k) = 0) ∧
              (g.2.2.2 ≠ 1 → getByte (r.2.pr 1).main.mem (g.2.2.1 - 0x08000000 + k) = 0)) ∧
      (s.bcb.isSome = true → counted = true → st = bsTRIAL → r.2.bcbNow.att slot = putBit att (lowBit 3 att) false)) ∧
  ∀ (bcb0 bcb1 : Option Machine.Bcb) (slotA slotB : Option Container) (lcBad : Bool) (slots : BitVec 4) (drs : Bool) (ctr : BitVec 5)
    (cut : Fin 4) (s : State), s.live pdCRUC = true →
    (s.dev.state ≠ .boot → Completes (.bootSelect bcb0 bcb1 slotA slotB lcBad slots drs ctr cut) s fun t => t = s) ∧
    (s.dev.state = .boot → Completes (.bootSelect bcb0 bcb1 slotA slotB lcBad slots drs ctr cut) s fun t =>
      let x := s.sec
      let flash := { x with bcb0 := bcb0.getD x.bcb0, bcb1 := bcb1.getD x.bcb1,
                            slotA := if slotA.isSome then slotA else x.slotA, slotB := if slotB.isSome then slotB else x.slotB }
      let u := fuseRead lcBad slots.toNat drs ctr.toNat cut { s with sec := flash }
      let found := fun k => if x.torn = some k then cut.val else SMap.get 0 x.fuses k
      let lc := u.lcFuses
      let down := lcBad = true ∨ u.lcBroken = true ∨ lc = lcDEAD
      let openAtReset := ¬ down ∧ (lc = lcBLANK ∨ lc = lcMAKER ∨ lc = lcRETURN)
      let counted := u.bcb.isSome
      let first := u.bcbNow.prefer % 2
      let r := trySlot first counted (u.when (! counted) (raiseDev Fc.BCB_ERROR))
      let r' := trySlot (1 - first) counted r.2
      let boots := fun (slot : Nat) (v : State) => ∃ c, (if slot = 0 then v.sec.slotA else v.sec.slotB) = some c ∧
        t.sec.booted = some slot ∧ t.sec.image = some c ∧ t.rd Reg.SEC_STAT_BOOT_SLOT = slot ∧
        t.sec.queue = (List.range (c.body.getD 1 0)).map CrucSrc.nested ∧ t.on Reg.SEC_STAT_BUSY = decide (0 < c.body.getD 1 0) ∧
        (t.split = true → (t.pr 0).released = true ∧ (t.pr 1).released = true) ∧
        (openAtReset → t.rd Reg.SEC_STAT_DBG = if lc = lcMAKER ∧ tb c.flags 1 = true then 0 else 2) ∧
        (if v.dev.state = .boot then t.dev.state = .assay ∨ t.dev.state = .safe else t.dev.state = .safe)
      (∀ k, SMap.get 0 t.sec.fuses k = if found k = 2 then 3 else found k) ∧ t.sec.torn = none ∧ t.sec.lcDown = decide down ∧
      t.lc = lc ∧ t.time = s.time ∧ t.axs = s.axs ∧ t.eng = s.eng ∧ t.sec.badSlots = slots.toNat ∧ t.sec.drsBad = drs ∧
      t.sec.badCtr = ctr.toNat ∧ (¬ openAtReset → t.rd Reg.SEC_STAT_DBG = 0) ∧ t.on Reg.SEC_STAT_TRNG_OK = ! s.sec.trngFail ∧
      (lcBad = true ∨ u.lcBroken = true ∨ slots ≠ 0 ∨ drs = true ∨ ctr ≠ 0 → t.isHeld Fc.FUSE_ERROR = true) ∧
      if down then
        t.dev.state = .safe ∧ t.sec.booted = s.sec.booted ∧ t.sec.queue = s.sec.queue ∧ ∀ n < 8, tb t.fcu.supReq n = true
      else (counted = false → t.isHeld Fc.BCB_ERROR = true) ∧
        if r.1 = true then boots first r.2 ∧
          (s.calm → lcBad = false → slots = 0 → drs = false → ctr = 0 → counted = true → s.pends 152 = false →
            s.on Reg.HIF_CFG_EVTEN = false → t.dev.state = .assay ∧ t.role = roleOFFLINE)
        else if r'.1 = true then boots (1 - first) r'.2 ∧ t.on Reg.SEC_STAT_FALLBACK = true ∧ t.isHeld Fc.BOOT_FALLBACK = true
        else t.dev.state = .safe ∧ t.sec.booted = s.sec.booted ∧ t.sec.image = s.sec.image)

/-- A mailbox command takes its arguments and sets BUSY, or, written while BUSY, only gives RESULT 0x0F. CONFIRM with
the booted signer not revoked writes the slot GOOD with attempt mask 0xFF in a new generation, advances each counter
to the value the image and its nested containers carry and holds ARB_FULL at 64. NV_READ copies user bytes to SRAM,
NV_WRITE fills erased bytes, NV_ERASE erases sectors; a span outside the user area gives 0x01, a flash failure or
bytes not erased 0x10, and neither changes the flash; each raises source 224. A failed entropy test clears TRNG_OK,
holds TRNG_FAIL and raises 228 once. SUBMIT with LEN outside 17,120 to 32,768 gives 0x01 and a ninth waiting
container 0x0F, and the window empties; else it empties into the queue. HALLMARK, served when nothing waits for
Crucible and else in its turn, writes its 36,688 bytes into a buffer that holds them, or completes REFUSED with
nothing written, with status 0x0F where the entropy source failed. (R441, R448, R451, R455, R459, R462, R464, R466,
R488, R489.) -/
def Obligations.CrucibleServices : Prop :=
  let ended := fun (r : Nat) (s t : State) => t.rd Reg.SEC_MBOX_STAT_RESULT = r ∧ t.pends 224 = true ∧
    t.on Reg.SEC_MBOX_STAT_BUSY = false ∧ t.besideReport = s.besideReport
  let same := fun (s t : State) => t.sec = { s.sec with mbox := none } ∧ t.pends 224 = true ∧ t.on Reg.SEC_MBOX_STAT_BUSY = false
  let outside := fun (m : MboxCmd) (n : Nat) (s : State) => ¬ (1 ≤ n ∧ n ≤ 65536 ∧ m.arg 0 + n ≤ s.sec.flash - 0x1100000)
  (∀ (flashOk : Bool) (s : State), (s.crucUp = false ∨ s.sec.mbox = none →
      ∀ i ∈ [Instr.confirm flashOk, .nvRead flashOk, .nvWrite flashOk, .nvErase flashOk], Completes i s fun t => t = s) ∧
    ∀ m, s.crucUp = true → s.sec.mbox = some m →
    (∀ i ∈ [(1, Instr.confirm flashOk), (2, .nvRead flashOk), (3, .nvWrite flashOk), (4, .nvErase flashOk)],
      m.cmd ≠ i.1 → Completes i.2 s fun t => t = s) ∧
    (m.cmd = 1 → Completes (.confirm flashOk) s fun t =>
      match s.sec.booted, s.sec.image with
      | some slot, some c =>
        if c.vendor = false ∧ s.slotRevoked c.keyslot = true then same s t
        else if flashOk = false then ended 0x10 s t ∧ same s t
        else ended 0 s t ∧ t.sec.user = s.sec.user ∧ t.sec.queue = s.sec.queue ∧ t.sec.mbox = none ∧
          (s.sec.bcb0.gen < 2 ^ 32 → s.sec.bcb1.gen < 2 ^ 32 → t.bcbNow = { (s.bcbNow.setSt slot bsGOOD).setAtt slot 255 with
            gen := (s.bcbNow.gen + 1) % 2 ^ 32 }.seal) ∧
          ∀ k < 4, tb s.sec.badCtr k = false → t.arbCtr k = max (s.arbCtr k) (s.arbCarried k) ∧
            (s.arbCtr k < 64 → s.arbCarried k = 64 → t.isHeld Fc.ARB_FULL = true)
      | _, _ => same s t) ∧
    (m.cmd = 2 → Completes (.nvRead flashOk) s fun t =>
      let n := m.arg 2
      if outside m n s then ended 0x01 s t ∧ same s t
      else if inSram (m.arg 1) n = false then same s t
      else if flashOk = false then ended 0x10 s t ∧ same s t
      else ended 0 s t ∧ same s t ∧ (s.on Reg.HIF_CFG_EVTEN = false →
        t.mem = putBytes s.mem (m.arg 1) ((List.range n).map fun i => SMap.get 0xFF s.sec.user (m.arg 0 + i)))) ∧
    (m.cmd = 3 → Completes (.nvWrite flashOk) s fun t =>
      let n := m.arg 2
      if outside m n s then ended 0x01 s t ∧ same s t
      else if inSram (m.arg 1) n = false then same s t
      else if flashOk = false ∨ (∃ i ∈ List.range n, SMap.get 0xFF s.sec.user (m.arg 0 + i) ≠ 0xFF) then
        ended 0x10 s t ∧ same s t
      else ended 0 s t ∧ (∀ i < n, SMap.get 0xFF t.sec.user (m.arg 0 + i) = getByte s.mem (m.arg 1 + i)) ∧
        ∀ a, a < m.arg 0 ∨ m.arg 0 + n ≤ a → SMap.get 0xFF t.sec.user a = SMap.get 0xFF s.sec.user a) ∧
    (m.cmd = 4 → Completes (.nvErase flashOk) s fun t =>
      let n := 4096 * m.arg 2
      if s.sec.flash - 0x1100000 < m.arg 0 + n then ended 0x01 s t ∧ same s t
      else if m.arg 0 % 4096 ≠ 0 then same s t
      else if flashOk = false then ended 0x10 s t ∧ same s t
      else ended 0 s t ∧ ∀ a, SMap.get 0xFF t.sec.user a =
        if m.arg 0 ≤ a ∧ a < m.arg 0 + n then 0xFF else SMap.get 0xFF s.sec.user a)) ∧
  (∀ (cmd : Nat) (s : State), s.crucUp = true → 1 ≤ cmd → cmd ≤ 4 → let t := mboxWrite cmd s
    (s.sec.mbox ≠ none → t = s.wr Reg.SEC_MBOX_STAT_RESULT 0x0F) ∧
    (s.sec.mbox = none → t.on Reg.SEC_MBOX_STAT_BUSY = true ∧ t.sec = { s.sec with mbox := some ⟨cmd,
      [s.rd (Reg.SEC_MBOX_ARGj 0), s.rd (Reg.SEC_MBOX_ARGj 1), s.rd (Reg.SEC_MBOX_ARGj 2)], s.time.clk⟩ })) ∧
  (∀ s : State, s.live pdCRUC = true → Completes .trngFail s fun t =>
    if s.sec.trngFail = true then t = s
    else t.sec = { s.sec with trngFail := true } ∧ t.on Reg.SEC_STAT_TRNG_OK = false ∧ t.isHeld Fc.TRNG_FAIL = true ∧ t.pends 228 = true) ∧
  (∀ s : State, Completes .submit s fun t =>
    let n := s.rd Reg.DBG_TOKLEN
    if s.crucUp = false ∨ s.lc = lcDEAD ∨ s.on Reg.DBG_STAT_BUSY = true then Settled s t
    else if n < 17120 ∨ 32768 < n ∨ s.crucibleFull = true then
      let code := if n < 17120 ∨ 32768 < n then 0x01 else 0x0F
      t.sec = { s.sec with tokwin := [] } ∧ t.rd Reg.DBG_STAT_CODE = code ∧ t.rd Reg.SEC_LAST = code ∧ t.pends 225 = true ∧ t.on Reg.DBG_STAT_BUSY = false
    else t.sec = { s.sec with tokwin := [], winClk := s.time.clk, queue := s.sec.queue ++ [.window (SMap.getMany 0 s.sec.tokwin 0 (n / 4))] } ∧
      t.on Reg.DBG_STAT_BUSY = true ∧ t.on Reg.SEC_STAT_BUSY = true) ∧
  let record := fun (c : Cmd) (late : Bool) (u t : State) =>
    t.time = u.time ∧ t.sec = u.sec ∧ t.eng = u.eng ∧
    if bits (c.w 3) 0 16 < 36688 then Completed c stREFUSED late [0] u t
    else if u.sec.trngFail = true then Completed c stREFUSED late [0x0F] u t
    else if u.sec.drsBad = true then Completed c stREFUSED late [0] u t
    else
      let body := u.hallmarkBody (c.w 6) (c.w 7)
      body.length = 256 ∧ (dikSign u.dik (sha384 body)).length = 8916 ∧
      Completed c stOK late [36688] (u.dmaWrite (u.loc c.ring) c.addr (body ++ dikSign u.dik (sha384 body))) t
  let due := fun (eff : Cmd → State → State → Prop) (s t : State) =>
    match s.nextDue with
    | none => t = s
    | some c =>
      if c.op ≠ ocHALLMARK then t = s
      else t.hif.queue = s.hif.queue.erase c ∧ t.time = s.time ∧ t.eng = s.eng ∧
        if dist32 s.fn c.deadline < 0 then t.sec = s.sec ∧ Completed c stSTALE false [] s t
        else eff c s t
  ∀ s : State, Completes .hallmark s fun t => if s.crucUp = false then t = s else
    match s.sec.queue with
    | .hallmark c :: q => t.hif.queue = s.hif.queue ∧ record c c.late { s with sec := { s.sec with queue := q } } t
    | [] => due (fun c s t => record c (s.late c) s t) s t
    | q => due (fun c s t => t.sec = { s.sec with queue := q ++ [.hallmark { c with dueFn := s.fn, late := s.late c }] }) s t

/-- With PD_ALM on: EN moves between OFF, NOKEY and ARMED, clearing it discards the ring, and CFG_BAD ends a recording;
a TRIG in ARMED enters POST with frame, source and record, in POST it joins the sources of its clock or counts in
NTRIG, in FROZEN and DUMPING it counts in MISSED and holds ALM_TRIG_MISSED; after POST frames the ring freezes and
AUTODUMP starts a dump; RELEASE in FROZEN discards ring and keyframes; DUMP in FROZEN starts a dump of sessions,
keyframes, trigger and frames, or sets DDENY; each dump record goes out whole and is chained, a damaged one counted
and held; SEAL follows the last record, closes the dump and re-arms where REARM is set. Otherwise nothing happens.
(R497, R500, R501, R502, R503, R504, R505, R369.) -/
def Obligations.AlmanacCommands : Prop :=
  let target := fun (s : State) => if s.on Reg.ALM_CTRL_EN = false ∨ s.almCfgBad = true then almOFF else if s.alm.kr = none then almNOKEY else almARMED
  let only := fun (s t : State) => t.sec = s.sec ∧ t.besideReport = s.besideReport ∧
    ∀ f, Fld.ofFaults f = false → f.key / 0x80000 ≠ 0x4011 → f.key / 0x80000 ≠ 0x400C → t.rd f = s.rd f
  let sent := fun (words : List Nat) (s t : State) =>
    let r := s.rd Reg.ALM_CTRL_SRING
    s.ringSize r ≤ 4096 → t.rd (Reg.HIF_Rr_IDX_PI r) = (s.rd (Reg.HIF_Rr_IDX_PI r) + streamUnits words.length) % s.ringSize r
  let dumping := fun (s t : State) => t.almState = almDUMPING ∧ t.alm.dumpLeft = s.dumpRecords ∧ t.alm.dumpSent = 0 ∧
    t.alm.dumpHash = List.replicate 12 0 ∧ t.on Reg.ALM_STAT_SESSLOST = (s.on Reg.ALM_STAT_SESSLOST || s.sessLost)
  let ready := fun (s : State) => s.ringOpen (s.rd Reg.ALM_CTRL_SRING) rkALMANAC
  ∀ s : State, s.live pdALM = true →
    (∀ b : Bool, Completes (.almEnable b) s fun t => only s t ∧ t.on Reg.ALM_CTRL_EN = b ∧
      if s.on Reg.ALM_CTRL_EN = true ∧ b = false ∧ s.almState ≠ almREPLAY then t.almState = almOFF ∧ t.alm.ring = []
      else if s.almState = almOFF ∨ s.almState = almNOKEY then
        Settled ((s.put Reg.ALM_CTRL_EN b).wr Reg.ALM_STAT_STATE (target (s.put Reg.ALM_CTRL_EN b))) t
      else if (s.almState = almARMED ∨ s.almState = almPOST) ∧ s.almCfgBad = true then
        Settled ((s.put Reg.ALM_CTRL_EN b).wr Reg.ALM_STAT_STATE almOFF) t
      else Settled (s.put Reg.ALM_CTRL_EN b) t) ∧
    (Completes .trig s fun t => only s t ∧ (s.mild [Fc.ALM_TRIGGERED, Fc.ALM_TRIG_MISSED] →
      if s.almState = almARMED then t.almState = almPOST ∧ t.rd Reg.ALM_TRFN = s.fn ∧ t.rd Reg.ALM_TRSRC_SRC = 128 ∧
        t.rd Reg.ALM_TRSRC_CODE = 0 ∧ t.alm.postLeft = s.rd Reg.ALM_CFG2_POST ∧ t.alm.trigger = some t.triggerRec ∧
        SMap.get 0 t.fcu.count Fc.ALM_TRIGGERED = min (SMap.get 0 s.fcu.count Fc.ALM_TRIGGERED + 1) 255
      else if s.almState = almPOST then t.almState = almPOST ∧ t.alm.postLeft = s.alm.postLeft ∧ t.alm.trigger = some t.triggerRec ∧
        if s.alm.trigCt = s.ct then
          tb (t.rd Reg.ALM_TRSRC_SRC) 7 = true ∧ t.rd Reg.ALM_STAT_NTRIG = s.rd Reg.ALM_STAT_NTRIG
        else t.rd Reg.ALM_STAT_NTRIG = min (s.rd Reg.ALM_STAT_NTRIG + 1) (2 ^ 16 - 1) ∧ t.rd Reg.ALM_TRSRC_SRC = s.rd Reg.ALM_TRSRC_SRC
      else if s.almState = almFROZEN ∨ s.almState = almDUMPING then t.almState = s.almState ∧
        t.rd Reg.ALM_STAT_MISSED = min (s.rd Reg.ALM_STAT_MISSED + 1) (2 ^ 8 - 1) ∧ t.isHeld Fc.ALM_TRIG_MISSED = true
      else t = s)) ∧
    (Completes .almFreeze s fun t => only s t ∧
      if s.almState = almPOST ∧ s.alm.trigWritten = true ∧ s.alm.postLeft = 0 then t.alm.ring = s.alm.ring ∧
        if s.on Reg.ALM_CTRL_AUTODUMP = true ∧ ready s = true then dumping s t else t.almState = almFROZEN
      else t = s) ∧
    (Completes .release s fun t => only s t ∧
      if s.almState = almFROZEN then t.alm.ring = [] ∧ t.alm.keys = [] ∧ t.on Reg.ALM_STAT_RESET = false ∧ (s.calm → t.almState = target s)
      else Settled s t) ∧
    (Completes .dump s fun t => only s t ∧ t.alm.ring = s.alm.ring ∧
      if s.almState ≠ almFROZEN then Settled s t
      else if ready s = true then dumping s t
      else t.on Reg.ALM_STAT_DDENY = true ∧ t.almState = almFROZEN) ∧
    (∀ bad : Option (List Word), Completes (.dumpRecord bad) s fun t => only s t ∧
      match s.alm.dumpLeft with
      | [] => t = s
      | r :: rest =>
        let words := match bad with
          | none => r.words
          | some b => padTo r.words.length (b.map BitVec.toNat)
        if s.almState = almDUMPING ∧ ready s = true ∧ streamUnits words.length ≤ s.ringFree (s.rd Reg.ALM_CTRL_SRING) then
          t.alm.dumpLeft = rest ∧ t.alm.dumpSent = s.alm.dumpSent + 1 ∧ t.alm.dumpHash = sha384 (s.alm.dumpHash ++ words) ∧
          t.almState = almDUMPING ∧ sent words s t ∧
          (bad ≠ none → t.rd Reg.ALM_DROP_ECC = min (s.rd Reg.ALM_DROP_ECC + 1) (2 ^ 16 - 1) ∧ t.isHeld Fc.ALM_ECC_UNCORR = true)
        else t = s) ∧
    Completes .seal s fun t => only s t ∧
      let words := s.sealRecord.words
      if s.almState = almDUMPING ∧ s.alm.dumpLeft = [] ∧ ready s = true ∧
          streamUnits words.length ≤ s.ringFree (s.rd Reg.ALM_CTRL_SRING) then
        (s.alm.dumpHash.length = 12 → words.length = 8936) ∧ sent words s t ∧
        (s.calm → SMap.get 0 t.fcu.count Fc.ALM_DUMPED = min (SMap.get 0 s.fcu.count Fc.ALM_DUMPED + 1) 255) ∧
        if s.on Reg.ALM_CTRL_REARM = true then t.alm.ring = [] ∧ (s.calm → t.almState = target s)
        else t.almState = almFROZEN
      else t = s

/-- In REPLAY with PD_ALM on and no check made yet, REPLAY_CHECK refuses an input with the first failing cause: 1 for a
DMA error or an excess length, 2 without whole records, a SESSION or a KEY, 3 for a key that does not unwrap or
another KEYID, 4 to 6 for tags, identity and frame numbers; CAUSE shows it, REPLAY_REFUSED is raised and no frame
runs. A good input sets CT to the keyframe's boundary less 2,000 ticks, RUN with the keyframe's mode, the region
words of the data memories and RUN of ALM_RPSTAT. With PD_ALM on, ALM_RPSTAT.RUN set, and no frame left or in
progress, REPLAY_END clears RUN, shows the cause kept at the start (7 or 8) and raises REPLAY_DONE; a device in
REPLAY stays there. In every other state both leave everything as it was. (R507, R508, R509, R510, R77.) -/
def Obligations.ReplayCheckedAndEnded : Prop :=
  let refused := fun (cause : Nat) (s t : State) => t.rd Reg.ALM_RPSTAT_CAUSE = cause ∧ t.alm.rpOn = true ∧
    t.on Reg.ALM_RPSTAT_RUN = s.on Reg.ALM_RPSTAT_RUN ∧ t.on Reg.ANV_CTRL_RUN = s.on Reg.ANV_CTRL_RUN ∧ t.time = s.time ∧
    t.eng = s.eng ∧ t.dev.state = .replay ∧
    (s.calm → SMap.get 0 t.fcu.count Fc.REPLAY_REFUSED = min (SMap.get 0 s.fcu.count Fc.REPLAY_REFUSED + 1) 255)
  (∀ (x : ReplayInput) (s : State), s.live pdALM = true → s.dev.state = .replay → s.alm.rpOn = false →
    (x.dmaOk = false ∨ replayMax < s.rd Reg.ALM_RPLEN_LEN → Completes (.replayCheck x) s (refused 1 s)) ∧
    (∀ cause, s.replayPlan x = .inl cause → Completes (.replayCheck x) s (refused cause s)) ∧
    ∀ p, s.replayPlan x = .inr p → Completes (.replayCheck x) s fun t =>
        let fc := p.key.getD 2 0 + p.key.getD 3 0 * 2 ^ 32
        t.alm.rpOn = true ∧ t.on Reg.ALM_RPSTAT_RUN = true ∧ t.rd Reg.ALM_RPSTAT_CAUSE = 0 ∧ t.on Reg.ANV_CTRL_RUN = true ∧
        t.rd Reg.ANV_CTRL_START_MODE = bits (p.key.getD 5 0) 16 8 % 8 ∧ t.dev.state = .replay ∧ t.pends 217 = true ∧
        (2000 ≤ fc * s.frameTicks → t.ct = (fc * s.frameTicks - 2000) % 2 ^ 64 * 2 ^ 32) ∧
        t.alm.rpFrames = p.frames.takeWhile (fun r => ! r.load) ∧
        ((p.frames.all fun r => ! r.load) = true → t.alm.rpEnd = 8) ∧ ((p.frames.any fun r => r.load) = true → t.alm.rpEnd = 7) ∧
        (∀ n < 8, (t.e n).prog = (s.e n).prog ∧ (t.e n).coef = (s.e n).coef ∧
          (tb (bits (p.key.getD 5 0) 24 8) n = false → (t.e n).data = (s.e n).data)) ∧
        ∀ n < 8, bits (p.key.getD 5 0) 24 8 = 2 ^ n → ∀ i, i ≤ bits (p.key.getD (88 + n) 0) 16 10 →
          SMap.get 0 (t.e n).data ((bits (p.key.getD (88 + n) 0) 0 14 + i) % 16384) = p.regions.getD i 0) ∧
  (∀ (x : ReplayInput) (s : State), s.live pdALM = false ∨ s.dev.state ≠ .replay ∨ s.alm.rpOn = true →
    Completes (.replayCheck x) s fun t => t = s) ∧
  (∀ (x : ReplayInput) (s : State),
    (s.replayPlan x = .inl 1 ↔ s.replayWords x = none) ∧
    (replayMax < s.rd Reg.ALM_RPLEN_LEN ∨ x.dmaOk = false → s.replayWords x = none) ∧
    (∀ cause, s.replayPlan x = .inl cause → 1 ≤ cause ∧ cause ≤ 6) ∧
    ∀ p, s.replayPlan x = .inr p → x.unwrapOk = true ∧ x.key ≠ none ∧ s.sameIdentity p.key = true ∧ p.frames ≠ [] ∧
      (p.frames.head?.map AlmRec.fn) = some (recFn p.key % 2 ^ 32)) ∧
  ∀ s : State,
    (s.live pdALM = true → s.on Reg.ALM_RPSTAT_RUN = true → s.alm.rpFrames = [] → s.alm.rpNow = none →
      Completes .replayEnd s fun t =>
        t.on Reg.ALM_RPSTAT_RUN = false ∧ t.rd Reg.ALM_RPSTAT_CAUSE = s.alm.rpEnd % 16 ∧ t.time = s.time ∧
        (s.on Reg.ANV_STAT_RUNNING = false ∨ s.allAxes [axDISABLED, axSAFE] = true → t.on Reg.ANV_CTRL_RUN = false) ∧
        (s.dev.state = .replay → t.dev.state = .replay) ∧
        (s.calm → SMap.get 0 t.fcu.count Fc.REPLAY_DONE = min (SMap.get 0 s.fcu.count Fc.REPLAY_DONE + 1) 255)) ∧
    (s.live pdALM = false ∨ s.on Reg.ALM_RPSTAT_RUN = false ∨ s.alm.rpFrames ≠ [] ∨ s.alm.rpNow ≠ none →
      Completes .replayEnd s fun t => t = s)

/-- A reset returns every register to its reset value and every unit to its reset state, in BOOT with role OFFLINE, but
for the strap in CHK_STAT.SPLIT, the cause in PWR_RSTCAUSE, the latches except at POR, and from PIN on the first-
error record and the Almanac's memory with a recording frozen; the retention banks stay only for the wake from Deep
Sleep; fuses, keys, counters and flash stay, a fuse write that had not ended being cut off. RESET_REACTION and
LIFECYCLE_RESET act on the due reset of their kind, PIN_RESET holds the device in reset until RST_N goes high and
SPLIT_N is sampled, DEBUG_RESET needs FULL debug, a brown-out and a POR return to the start-up; SWRST schedules its
reset 4,000 ticks on, or sets WDENY in ACTIVE and LEE. (R411, R436, R503, R517, R535, R537, R539, R554.) -/
def Obligations.ResetsClearAndKeep : Prop :=
  let latches := [Reg.PWR_RSTCAUSE_WAKE_FAIL, Reg.PWR_RSTCAUSE_ATTEMPTS, Reg.PWR_WAKE_CAUSE]
  let restarted := fun (bit : Nat) (own : List Fld) (s t : State) =>
    let o := State.reset
    let frozen := s.almState = almARMED ∨ s.almState = almPOST ∨ s.almState = almFROZEN ∨ s.almState = almDUMPING
    t.dev = o.dev ∧ t.role = roleOFFLINE ∧ t.time = o.time ∧ t.anv = o.anv ∧ t.eng = o.eng ∧ t.cec = o.cec ∧ t.com = o.com ∧ t.fb = o.fb ∧
    t.adc = o.adc ∧ t.out = o.out ∧ t.so = o.so ∧ t.axs = o.axs ∧ t.pair = o.pair ∧ t.chk = o.chk ∧ t.intc = o.intc ∧ t.tsk = o.tsk ∧
    t.can = o.can ∧ t.seam = o.seam ∧ t.fdl = o.fdl ∧ t.fcu = o.fcu ∧ t.mem = o.mem ∧ t.sec = s.sec.kept s.time.clk ∧
    (∀ k c, s.sec.blown = some (k, c) → t.sec.torn = if s.time.clk < c then some k else none) ∧ t.pending = s.pending ∧
    t.hif = { o.hif with hostMem := s.hif.hostMem } ∧ t.rd Reg.PWR_RSTCAUSE_CAUSE = 2 ^ bit % 2 ^ 10 ∧
    t.pwr.banks = (if bit = 3 then s.pwr.banks else []) ∧
    (∀ f ∈ latches, f ∉ own → t.rd f = if bit = 0 then o.rd f else s.rd f) ∧ (∀ f ∈ recordFlds, t.rd f = if 4 ≤ bit then s.rd f else o.rd f) ∧
    (if 4 ≤ bit ∧ frozen then t.alm.ring = s.alm.ring ∧ t.alm.keys = s.alm.keys ∧ t.almState = almFROZEN ∧ t.on Reg.ALM_STAT_RESET = true ∧
        (s.almState = almARMED → t.rd Reg.ALM_TRFN = (s.alm.ring.getLast?.map AlmRec.fn).getD 0 % 2 ^ 32 ∧ t.rd Reg.ALM_TRSRC_SRC = 256)
      else t.alm.ring = [] ∧ t.alm.keys = [] ∧ t.almState = almOFF) ∧
    ∀ f, (∀ g ∈ latches ++ recordFlds ++ [Reg.PWR_RSTCAUSE_CAUSE, Reg.CHK_STAT_SPLIT] ++ (if 4 ≤ bit ∧ frozen then almFlds else []),
      g.key ≠ f.key) → t.rd f = o.rd f
  let strap := fun (splitN : Bool) (s : State) => s.fuse 8 || (! splitN && ! s.fuse 9)
  (∀ s : State,
    (Completes .resetReaction s fun t => match s.dev.resetDue with
      | some (at', bit) => if bit ≠ 9 then restarted bit [] (reach at' s) t ∧ t.pwr.mode = .run ∧ t.pwr.rstLow = false else t = s
      | none => t = s) ∧
    (Completes .lifecycleReset s fun t => match s.dev.resetDue with
      | some (at', bit) => if bit = 9 then restarted 9 [] (reach at' s) t ∧ t.pwr.mode = .run else t = s
      | none => t = s) ∧
    (Completes .pinReset s fun t =>
      if s.pwr.mode = .run ∨ s.pwr.mode = .sleep then restarted 4 [] s t ∧ t.pwr.rstLow = true ∧ t.split = strap s.pwr.splitN s else t = s) ∧
    (Completes .debugReset s fun t =>
      if s.debugFull = true ∧ (s.pwr.mode = .run ∨ s.pwr.mode = .sleep) then restarted 7 [] s t ∧ t.pwr.mode = .run else t = s) ∧
    (Completes .brownout s fun t =>
      if s.pwr.mode = .run ∨ s.pwr.mode = .sleep then
        restarted 1 [Reg.PWR_RSTCAUSE_ATTEMPTS] s t ∧ t.pwr.mode = .starting ∧ t.rd Reg.PWR_RSTCAUSE_ATTEMPTS = 0
      else t = s) ∧
    (∀ wake : Bool, Completes (.powerOnReset wake) s fun t => restarted 0 [Reg.PWR_WAKE_CAUSE] s t ∧
      t.pwr.mode = (if wake = true then .starting else .off) ∧ t.rd Reg.PWR_WAKE_CAUSE = b2n wake) ∧
    (∀ splitN : Bool, Completes (.resetRelease splitN) s fun t =>
      if s.pwr.mode = .run ∧ s.pwr.rstLow = true then
        Settled (({ s with pwr := { s.pwr with rstLow := false, splitN := splitN } }).put Reg.CHK_STAT_SPLIT (strap splitN s)) t
      else t = s) ∧
    Completes .swrst s fun t =>
      if s.runs = false then t = s
      else if s.dev.state = .active ∨ s.dev.state = .lee then Settled (s.put Reg.PWR_STAT_WDENY true) t
      else
        let due := if s.dev.resetDue.isSome = true then s.dev.resetDue else some (s.ctTicks + 4000, 8)
        Settled { s with dev := { s.dev with resetDue := due } } t ∧ t.dev.resetDue = due)

/-- In Run, Idle and Sleep out of reset a supply row shows the measured inputs, sets its SUPSTAT bit, holds its fault
and raises source 212 only where the inputs meet its threshold; overvoltage forces the safe outputs until both
inputs are below 80 V. A vote register takes a write from its own pair, while it is in service or rejoining or the
device is split, or from the host, and is a bus error for others. An unvoted ON domain, a pair's only when its cores
wait with everything drained or it is LOST, goes DOWN; DOWN reaches OFF with its contents lost; a voted OFF domain
that has not FAILED goes UP 4,000 ticks after OFF; one not ready at 40,000 ticks is OFF, FAILED and DOMAIN_FAIL.
Points change, wait as pending and end as R527 to R529 say, with 0b11 denied, at the tick that the steps of VCORE
give or 100 µs after it began to move. In Deep Sleep and Off each pin has the level of that column of R553; in
reset, and while its domain is not ON, that of the Reset column. (R517, R523, R524, R525, R526, R527, R528, R529,
R553.) -/
def Obligations.SupplyDomainsAndPoints : Prop :=
  let measured := fun (a b : BitVec 10) (t : State) => t.rd Reg.PWR_SUP_VSUP_A = a.toNat ∧ t.rd Reg.PWR_SUP_VSUP_B = b.toNat ∧ t.pends 212 = true
  let others := fun (blocks : List Nat) (s t : State) => ∀ f, Fld.ofFaults f = false → f.key / 0x80000 ∉ blocks → t.rd f = s.rd f
  let dom := fun (d : Fin 12) (v : Nat) (t : State) => t.domState d.val = v ∧ t.pends 210 = true
  (∀ (a b : BitVec 10) (s : State),
    (Completes (.supplyALost a b) s fun t => if s.watches = false ∨ 200 ≤ a.toNat then t = s else
      measured a b t ∧ t.on Reg.PWR_SUPSTAT_A_OK = false ∧ t.isHeld Fc.SUPPLY_A_LOST = true ∧ others [0x4001] s t) ∧
    (Completes (.supplyBLost a b) s fun t => if s.watches = false ∨ 200 ≤ b.toNat then t = s else
      measured a b t ∧ t.on Reg.PWR_SUPSTAT_B_OK = false ∧ t.isHeld Fc.SUPPLY_B_LOST = true ∧ others [0x4001] s t) ∧
    (Completes (.supplyUv a b) s fun t => if s.watches = false ∨ 280 ≤ a.toNat ∨ 280 ≤ b.toNat then t = s else
      measured a b t ∧ t.on Reg.PWR_SUPSTAT_UV = true ∧ t.isHeld Fc.SUPPLY_UV = true ∧ others [0x4001] s t) ∧
    (Completes (.supplyOv a b) s fun t => if s.watches = false ∨ (a.toNat ≤ 820 ∧ b.toNat ≤ 820) then t = s else
      measured a b t ∧ t.on Reg.PWR_SUPSTAT_OV = true ∧ t.on Reg.PWR_STAT_OV_FORCE = true ∧ t.isHeld Fc.SUPPLY_OV = true ∧ others [0x4001] s t) ∧
    (Completes (.supplyOvEnd a b) s fun t => if s.watches = false ∨ s.on Reg.PWR_STAT_OV_FORCE = false ∨ 800 ≤ a.toNat ∨ 800 ≤ b.toNat then t = s else
      measured a b t ∧ t.on Reg.PWR_SUPSTAT_OV = false ∧ t.on Reg.PWR_STAT_OV_FORCE = false ∧ others [0x4001] s t) ∧
    Completes (.supplyReturn a b) s fun t => if s.watches = false then t = s else
      t.rd Reg.PWR_SUP_VSUP_A = a.toNat ∧ t.rd Reg.PWR_SUP_VSUP_B = b.toNat ∧ others [0x4001] s t ∧
      t.on Reg.PWR_SUPSTAT_A_OK = (s.on Reg.PWR_SUPSTAT_A_OK || decide (200 ≤ a.toNat)) ∧
      t.on Reg.PWR_SUPSTAT_B_OK = (s.on Reg.PWR_SUPSTAT_B_OK || decide (200 ≤ b.toNat)) ∧
      t.on Reg.PWR_SUPSTAT_UV = (s.on Reg.PWR_SUPSTAT_UV && decide (a.toNat < 280) && decide (b.toNat < 280)) ∧
      (t.on Reg.PWR_SUPSTAT_A_OK ≠ s.on Reg.PWR_SUPSTAT_A_OK ∨ t.on Reg.PWR_SUPSTAT_B_OK ≠ s.on Reg.PWR_SUPSTAT_B_OK ∨
        t.on Reg.PWR_SUPSTAT_UV ≠ s.on Reg.PWR_SUPSTAT_UV → t.pends 212 = true)) ∧
  (∀ (m : Master) (r : Fin 3) (v : Word) (s : State), Completes (.voteWrite m r v) s fun t => if s.runs = false then t = s else
    let reg := if r = 0 then Reg.PWR_VOTE_X else if r = 1 then Reg.PWR_VOTE_Y else Reg.PWR_VOTE_H
    let allowed := if r = 2 then m = .host else if r = 0 then m = .ac0 ∨ (m = .ac1 ∧ s.split = true) else m = .ac2 ∨ (m = .ac3 ∧ s.split = true)
    if allowed ∧ r ≠ 2 ∧ s.split = false ∧ s.pairOn r = false then Settled s t
    else if allowed then Settled (s.wr reg v.toNat) t
    else t.rd reg = s.rd reg ∧ (s.calm → SMap.get 0 t.fcu.count Fc.BUS_ERROR = min (SMap.get 0 s.fcu.count Fc.BUS_ERROR + 1) 255)) ∧
  (∀ (d : Fin 12) (s : State),
    (∀ wfi : Bool, Completes (.domainPowerDown d wfi) s fun t =>
      if s.pwr.mode = .run ∧ s.domState d.val = dmON ∧ s.voted d.val = false ∧
          (1 < d.val ∨ s.pairState d.val = pairLOST ∨ (wfi = true ∧ (s.pr d.val).drained = true ∧
            (s.pairOn d.val = true → (s.pr d.val).chkIc = (s.pr d.val).mainIc))) then dom d dmDOWN t ∧ others [0x4001] s t
      else t = s) ∧
    (Completes (.domainOff d) s fun t =>
      if s.domState d.val = dmDOWN then dom d dmOFF t ∧ SMap.get 0 t.pwr.offAt d.val = s.ctTicks ∧
        ((d.val = 3 → ∀ n < 4, t.e n = ({} : EngSt) ∧ t.bit Reg.CEC_STAT_LOADED n = false) ∧
         (d.val = 4 → ∀ n, 4 ≤ n → n < 8 → t.e n = ({} : EngSt) ∧ t.bit Reg.CEC_STAT_LOADED n = false) ∧
         (d.val = 5 → t.anv = ({} : AnvSt) ∧ t.rd Reg.ANV_STAT_VALID = 0) ∧ (d.val = 6 → t.fb = []) ∧ (d.val = 7 → t.adc = ({} : AdcSt) ∧ ∀ n < 8, (t.fbc n).valid = false) ∧
         (d.val = 8 → t.seam = ({} : SeamSt) ∧ t.fdl = ({} : FdlSt)) ∧ (d.val = 9 → t.can = [] ∧ t.hif.queue = []) ∧ (d.val = 10 → t.com = []) ∧
         (d.val = 11 → t.alm.ring = [] ∧ t.alm.keys = [] ∧ t.alm.kr = s.alm.kr ∧ t.alm.skey = s.alm.skey) ∧ (d.val < 2 → t.pairState d.val = pairOFF ∧ t.on (resyncFld d.val) = false ∧
            t.bit Reg.CHK_STAT_CMP_OK (2 * d.val) = false ∧ t.bit Reg.CHK_STAT_CMP_OK (2 * d.val + 1) = false ∧
            ∀ k ∈ [d.val, d.val + 2], t.on (Reg.INTC_Tt_PRES_VALID k) = false ∧ t.on (Reg.INTC_Tt_INSV_VALID k) = false))
      else t = s) ∧
    (Completes (.domainPowerUp d) s fun t =>
      if s.pwr.mode = .run ∧ s.domState d.val = dmOFF ∧ s.voted d.val = true ∧ s.domFailed d.val = false then
        let u := reach (SMap.get 0 s.pwr.offAt d.val + 4000) s
        dom d dmUP t ∧ t.time = u.time ∧ SMap.get 0 t.pwr.upAt d.val = u.ctTicks
      else t = s) ∧
    Completes (.domainFail d) s fun t =>
      if s.domState d.val = dmUP then
        dom d dmOFF t ∧ t.domFailed d.val = true ∧ t.isHeld Fc.DOMAIN_FAIL = true ∧
          t.time = (reach (SMap.get 0 s.pwr.upAt d.val + 40000) s).time
      else t = s) ∧
  (∀ (v : BitVec 2) (s : State), Completes (.pointChange v) s fun t => if s.runs = false then t = s else
    let x := v.toNat
    if x = 3 then Settled (s.put Reg.PWR_STAT_WDENY true) t
    else t.rd Reg.PWR_DVFS = x ∧ t.rd Reg.PWR_STAT_POINT_NOW = s.rd Reg.PWR_STAT_POINT_NOW ∧
      if s.pwr.dvfs.isSome = true then t.pwr = { s.pwr with dvfsNext := some x } ∧ t.on Reg.PWR_STAT_DVFS_BUSY = s.on Reg.PWR_STAT_DVFS_BUSY
      else if x = s.rd Reg.PWR_STAT_POINT_NOW then t.pwr = s.pwr
      else t.pwr = { s.pwr with dvfs := some x, dvfsNext := none, dvfsAt := s.ctTicks, clkPoint := max s.pwr.clkPoint x } ∧
        t.on Reg.PWR_STAT_DVFS_BUSY = true) ∧
  (∀ (ok : Bool) (s : State), Completes (if ok = true then .dvfsDone else .dvfsFail) s fun t => if s.runs = false then t = s else
    match s.pwr.dvfs with
    | none => t = s
    | some v =>
      let now := if ok = true then v % 4 else s.rd Reg.PWR_STAT_POINT_NOW
      let next := s.pwr.dvfsNext.filter fun x => decide (x ≠ now)
      let clk := if ok = true then v else s.pwr.clkPoint
      let volt := if ok = true then v else s.pwr.vPoint
      let ends := if ok = true then s.pwr.dvfsAt + 80 + 4000 * (max s.pwr.vPoint v - min s.pwr.vPoint v) + 2000
        else s.pwr.dvfsAt + (if v < s.pwr.vPoint then 40 else 80) + 40000
      let begun := if next.isSome = true then t.ctTicks else s.pwr.dvfsAt
      t.rd Reg.PWR_STAT_POINT_NOW = now ∧ t.pends 211 = true ∧ t.time = (reach ends s).time ∧
      t.pwr = { s.pwr with dvfs := next, dvfsNext := none, vPoint := volt, dvfsAt := begun, clkPoint := (next.map (max clk)).getD clk } ∧
      t.on Reg.PWR_STAT_DVFS_BUSY = next.isSome ∧ (ok = false → t.isHeld Fc.DVFS_FAIL = true)) ∧
  ∀ (s : State) (p : Pin),
    ((s.pwr.mode = .off ∨ s.pwr.mode = .deepSleep) → s.pin p = match p with
      | .genA _ | .genB _ | .fltP | .fltN => .low
      | .soH _ | .soL _ | .ssup _ | .fdlTx _ | .seamTx _ | .pcieTx => .off
      | _ => .highZ) ∧
    (s.pwr.mode = .run → (s.pwr.rstLow = true ∨ ∃ d, p.domain = some d ∧ s.domState d ≠ dmON) → p ≠ .ospiRst → s.pin p = match p with
      | .pwm _ _ | .maintN | .exc => .highZ
      | .soH _ | .soL _ | .glDn _ | .ssup _ => .off
      | .fbCk _ | .canTx _ | .ospiCs => .high
      | .fdlTx _ | .seamTx _ | .pcieTx => .idle
      | _ => .low)

/-- An entry is attempted only in Run with TARGET naming the state and the cores waiting; the first failing condition of
R520 goes to REFUSE, TARGET returns to Run and SLEEP_REFUSED is raised; otherwise the state is entered with the
error pins low, Deep Sleep with the six banks saved and Almanac SRAM gone, Off with the banks discarded. The wake
timer acts after its period; an enabled active source wakes Sleep to Run with CT_VALID 0 and WAKE_CAUSE, Deep Sleep
and Off to the start. A rail failure counts and retries, the fourth stays Off with WAKE_FAIL; power good resets,
restores each good bank, marks each bad one lost, and raises a latched WAKE_FAIL; the reference then locks within 10
ms (4,000,000 clocks), or is given up once at their end, unless REFSEL names the RC itself. (R42, R43, R355, R519,
R520, R521, R522, R530, R531, R532, R533, R534.) -/
def Obligations.PowerStatesAndStart : Prop :=
  let attempted := fun (target : Nat) (wfi : BitVec 4) (pins : BitVec 9) (s t : State) (enter : Prop) =>
    if s.pwr.mode = .run ∧ s.pwr.rstLow = false ∧ s.rd Reg.PWR_MODE = target ∧ s.entryDue wfi = true then
      t.rd Reg.PWR_STAT_REFUSE = s.entryRefused target pins ∧ t.time = s.time ∧
      if s.entryRefused target pins ≠ 0 then t.rd Reg.PWR_MODE = 0 ∧ t.pends 209 = true ∧ t.pwr = s.pwr
      else enter ∧ t.on Reg.FCU_STAT_FLT_P = false ∧ t.on Reg.FCU_STAT_FLT_N = false ∧ t.dev.state = s.dev.state
    else t = s
  (∀ (wfi : BitVec 4) (s : State), Completes (.idleEntry wfi) s fun t =>
    if s.pwr.mode = .run ∧ s.pwr.rstLow = false ∧ s.rd Reg.PWR_MODE = 0 ∧ s.coresWait wfi = true then
      t.pwr = { s.pwr with idle := true } ∧ t.regs = s.regs ∧ t.time = s.time ∧ t.mem = s.mem ∧
      ∀ p < 2, t.pr p = if s.pairOn p = true then { s.pr p with wfi := wfi.getLsbD (2 * p) } else s.pr p
    else t = s) ∧
  (∀ (s : State) (target : Nat) (pins : BitVec 9),
    (s.entryRefused target pins = 1 ↔ s.dev.state ≠ .standby ∧ s.dev.state ≠ .safe) ∧
    (s.entryRefused target pins = 0 → (∀ n < 8, s.ax n = axDISABLED) ∧ s.on Reg.ANV_STAT_RUNNING = false ∧ s.on Reg.SEC_STAT_BUSY = false ∧
      s.on Reg.SEC_MBOX_STAT_BUSY = false ∧ s.on Reg.PWR_STAT_DVFS_BUSY = false ∧
      (∀ d < 12, s.domState d = dmON ∨ s.domState d = dmOFF) ∧ andW (s.wakeActive pins) (s.wakeMask target) = 0 ∧
      s.almState ≠ almDUMPING ∧ s.almState ≠ almREPLAY) ∧ s.entryRefused target pins ≤ 6) ∧
  (∀ (wfi : BitVec 4) (pins : BitVec 9) (s : State), s.calm →
    let entered := fun (m : PState) (banks : SMap (List (Nat × Nat))) =>
      ({ s.pwr with mode := m, idle := false, timer := false, banks := banks } : PwrSt)
    Completes (.sleepEntry wfi pins) s (fun t => attempted 1 wfi pins s t (t.pwr = entered .sleep s.pwr.banks ∧ t.alm = s.alm)) ∧
    Completes (.deepSleepEntry wfi pins) s (fun t => attempted 2 wfi pins s t (t.alm.ring = [] ∧ t.alm.keys = [] ∧
      t.pwr = { (entered .deepSleep t.pwr.banks) with rails := t.pwr.rails } ∧ (s.pwr.rails.length ≤ 5 → t.pwr.rails = []) ∧ ∀ b < 6, SMap.get [] t.pwr.banks b = (bankFlds b).map fun f => (f.key, s.rd f))) ∧
    Completes (.offEntry wfi pins) s fun t => attempted 3 wfi pins s t (t.pwr = { (entered .off []) with rails := t.pwr.rails } ∧ (s.pwr.rails.length ≤ 5 → t.pwr.rails = []) ∧ t.alm.ring = [] ∧ t.alm.keys = [])) ∧
  (∀ s : State, Completes .wakeTimer s fun t =>
    t = if (s.pwr.mode = .sleep ∨ s.pwr.mode = .deepSleep) ∧ s.rd Reg.PWR_WTIMER ≠ 0 then { s with pwr := { s.pwr with timer := true } } else s) ∧
  (∀ (pins : BitVec 9) (s : State), Completes (.sleepWake pins) s fun t =>
    if s.pwr.mode = .sleep ∧ andW (s.wakeActive pins) (s.wakeMask 1) ≠ 0 then
      t.pwr = { s.pwr with mode := .run, timer := false } ∧ t.rd Reg.PWR_WAKE_CAUSE = s.wakeActive pins % 2 ^ 11 ∧
      t.on Reg.TIME_STAT_CT_VALID = false ∧ t.pends 208 = true ∧ t.time = s.time ∧
      (s.on Reg.HIF_STAT_LINK_UP = true → t.on Reg.HIF_STAT_LINK_UP = false ∧ t.isHeld Fc.PCIE_LINK_DOWN = true ∧ t.pends 177 = true) ∧
      (s.on Reg.FDL_CTRL_EN = true → t.sstate = ssLISTEN)
    else t = s) ∧
  (∀ (pins : BitVec 9) (again : Bool) (s : State), Completes (.powerUp pins again) s fun t =>
    let deep : Bool := s.pwr.mode = .deepSleep
    let active := pins.toNat + b2n s.pwr.timer * 2 ^ 9
    if (deep = true ∨ s.pwr.mode = .off) ∧ andW active (s.wakeMask (if deep = true then 2 else 3)) ≠ 0 ∧
        (s.pwr.blocked = false ∨ again = true) then
      t.pwr = { s.pwr with mode := .starting, cause := if deep = true then 3 else 2, blocked := false, timer := false } ∧
      t.rd Reg.PWR_WAKE_CAUSE = active % 2 ^ 11 ∧ t.rd Reg.PWR_RSTCAUSE_ATTEMPTS = 0
    else t = s) ∧
  (∀ s : State,
    (Completes .railTimeout s fun t =>
      let n := s.rd Reg.PWR_RSTCAUSE_ATTEMPTS
      if s.pwr.mode ≠ .starting then t = s else (s.pwr.rails.length ≤ 5 → t.pwr.rails = []) ∧
      if n = 3 then t.pwr = { s.pwr with mode := .off, blocked := true, banks := [], rails := t.pwr.rails } ∧ t.on Reg.PWR_RSTCAUSE_WAKE_FAIL = true
      else t.pwr = { s.pwr with mode := .waiting, rails := t.pwr.rails } ∧ t.rd Reg.PWR_RSTCAUSE_ATTEMPTS = n + 1) ∧
    (Completes .railRetry s fun t => t = if s.pwr.mode = .waiting then { s with pwr := { s.pwr with mode := .starting } } else s)) ∧
  (∀ (rstN splitN : Bool) (bad : BitVec 6) (s : State), Completes (.powerGood rstN splitN bad) s fun t =>
    if s.pwr.mode ≠ .starting then t = s
    else
      let bank := fun b => SMap.get [] s.pwr.banks b
      let kept := decide (s.pwr.cause = 3)
      t.pwr.mode = .run ∧ t.pwr.rstLow = (! rstN) ∧ t.pwr.banks = [] ∧ t.pwr.refWait = true ∧
      (s.pwr.rails = [] → t.pwr.rails = [.v5, .vsram, .vcore, .vio18, .vio33]) ∧
      ((∀ b < 6, ∀ c ∈ bank b, c.1 ∈ (bankFlds b).map Fld.key) →
        t.mem = [] ∧ t.dev.state ≠ .active ∧ t.rd Reg.PWR_RSTCAUSE_CAUSE = 2 ^ s.pwr.cause % 2 ^ 10 ∧
        t.split = (s.fuse 8 || (! splitN && ! s.fuse 9)) ∧
        (s.pwr.cause ≠ 0 → s.on Reg.PWR_RSTCAUSE_WAKE_FAIL = true → t.isHeld Fc.WAKE_FAIL = true) ∧
        ∀ b < 6, t.bit Reg.PWR_RET_LOST b = (kept && decide (bank b ≠ []) && tb bad.toNat b) ∧
          t.bit Reg.PWR_RET_RESTORED b = (kept && decide (bank b ≠ []) && ! tb bad.toNat b) ∧
          (t.bit Reg.PWR_RET_LOST b = true → t.isHeld Fc.RET_LOST = true ∧ t.pends 213 = true) ∧
          (∀ x : Fld → Nat, t.bit Reg.PWR_RET_RESTORED b = true → bank b = (bankFlds b).map (fun f => (f.key, x f)) →
            ∀ f ∈ bankFlds b, b ≠ 4 → t.rd f = x f % 2 ^ f.w))) ∧
  ∀ s : State,
    let waits := s.pwr.refWait = true ∧ s.on Reg.TIME_STAT_ON_RC = true ∧ s.rd Reg.TIME_CTRL_REFSEL ≠ 2 ∧ s.pwr.mode = .run
    let due := s.pwr.refAt + 4000000
    (Completes .referenceLock s fun t =>
      if waits ∧ s.time.clk ≤ due then t.on Reg.TIME_STAT_ON_RC = false ∧ t.on Reg.TIME_STAT_REF_OK = true ∧ t.pends 216 = true ∧
        t.pwr = { s.pwr with refWait := false }
      else t = s) ∧
    Completes .oscStart s fun t =>
      if waits ∧ s.inFrame due = true then t.isHeld Fc.OSC_START = true ∧ t.on Reg.TIME_STAT_ON_RC = true ∧
        t.time = { (advance (due - s.time.clk) s).time with fell := true } ∧ t.pwr = { s.pwr with refWait := false }
      else t = s

/-- In ASSAY, once Assay has run on every core or the device is split and no nested container or validation is left,
LOGIC_BIST takes the device to STANDBY when every slice passes, with the role OFFLINE, of a worker STANDBY, and
OBSERVER in a set with a Lee cause standing; a failing slice holds SLICE_FAIL and takes it to SAFE; earlier it
changes nothing. While the watchdog runs, a kick of 0xA5C3 not before MIN after the kick before it restarts the
count; any other value or an early kick, and reaching TIMEOUT within the frame, hold WDT_EXPIRED and schedule a
reset with cause WDT 4,000 ticks on; half of TIMEOUT raises source 214 once, at its clock. While it does not run its
rows change nothing. (R29, R34, R303, R415, R536, R538.) -/
def Obligations.AssayBistAndWatchdog : Prop :=
  (∀ (ok : Bool) (s : State), Completes (.logicBist ok) s fun t =>
    if s.runs = true ∧ s.dev.state = .assay ∧ s.assayed = true ∧ (s.sec.queue.all fun x => ! x.isNested) = true ∧ s.sec.sched = none then
      t.time = s.time ∧ t.sec = s.sec ∧ t.anv = s.anv ∧
      if ok = true then (s.mild [] → t.dev.state = .standby ∧ t.role =
        if s.leeCause = true ∧ s.inSet = true ∧ s.barred = false then roleOBSERVER
        else if s.worker = true ∧ s.barred = false then roleSTANDBY else roleOFFLINE)
      else t.role = roleOFFLINE ∧ t.dev.state = .safe ∧ t.isHeld Fc.SLICE_FAIL = true ∧ ∀ n < 8, tb t.fcu.supReq n = true
    else t = s) ∧
  let at' := fun (n : Nat) (s : State) => s.pwr.wdtAt + n * s.rd Reg.PWR_WDT_TIMEOUT * 400000 / 2
  let expired := fun (s t : State) => t.isHeld Fc.WDT_EXPIRED = true ∧ t.pwr = { s.pwr with wdtOver := true } ∧ t.time = s.time ∧
    (s.dev.resetDue = none → t.dev.resetDue = some (s.ctTicks + 4000, 6))
  (∀ (v : BitVec 16) (s : State), Completes (.wdtKick v) s fun t =>
    if s.wdtOn = false then Settled s t
    else if v ≠ 0xA5C3 ∨ (s.pwr.wdtKicked = true ∧ s.time.clk - s.pwr.wdtAt < s.rd Reg.PWR_WDT_MIN * 400000) then expired s t
    else Settled { s with pwr := { s.pwr with wdtAt := s.time.clk, wdtKicked := true, wdtHalf := false } } t) ∧
  ∀ s : State,
    (Completes .wdtHalf s fun t =>
      if s.wdtOn = true ∧ s.pwr.wdtHalf = false ∧ s.inFrame (at' 1 s) = true then
        t.pends 214 = true ∧ t.pwr = { s.pwr with wdtHalf := true } ∧ t.time = (advance (at' 1 s - s.time.clk) s).time
      else t = s) ∧
    (Completes .wdtExpired s fun t => if s.wdtOn = true ∧ s.inFrame (at' 2 s) = true then
        expired (advance (at' 2 s - s.time.clk) s) t else t = s) ∧
    (s.wdtOn = true ↔ s.on Reg.PWR_WDT_EN = true ∧ s.pwr.mode = .run ∧ s.pwr.rstLow = false ∧ s.pwr.wdtOver = false)

/-- While the bus runs: an access that is not naturally aligned, or is not one aligned word of a block window, raises
BUS_ERROR and performs nothing; one to a domain that is not ON places its access vote and waits, or is a bus error
where the domain FAILED; a write of shared SRAM changes those bytes alone; a write of an engine-block register
changes RW fields, W1C bits and, unless locked, RWL fields, and no RO field; a read answers the register and changes
nothing else (the PCIe host reaches nothing in DEAD); a write of an unlisted register is a bus error; copies of the
Anvil that have ended stand before the access. Of the cores of a device that is not split only those of a serving
pair make accesses: to their own private memory, and outside it stores that enter the release buffer or the
checker's signature and loads that are exchanged. A BAR0 access of another size or alignment, or that the block
would refuse, only sets DENY and reads 0; any other is the host's access to that address. (R15, R67, R253, R256,
R262, R270, R353, R526, R545, R546.) -/
def Obligations.BusAccesses : Prop :=
  let refused := fun (s t : State) => OnlyFaults s t ∧
    (s.calm → SMap.get 0 t.fcu.count Fc.BUS_ERROR = min (SMap.get 0 s.fcu.count Fc.BUS_ERROR + 1) 255)
  let direct := fun (m : Master) (s : State) => isCore m = false ∨ s.split = true
  (∀ (m : Master) (a : Word) (size : Fin 16) (data : Option (BitVec 64)) (ecc : WordEcc) (s : State),
    let n := size.val
    let aligned := (n = 1 ∨ n = 2 ∨ n = 4 ∨ n = 8) ∧ a.toNat % n = 0
    let block := 0x40000000 ≤ a.toNat ∧ a.toNat < 0x40140000
    let cmd := Instr.registerWrite m a size data ecc
    (s.runs = false → Completes cmd s fun t => t = s) ∧
    (s.runs = true → s.coreHalted m = true → Completes cmd s (Settled s)) ∧
    (s.runs = true → s.coreHalted m = false → ¬ aligned → Completes cmd s (refused s)) ∧
    (s.runs = true → direct m s → aligned → block → n ≠ 4 → domainOf a.toNat = none → Completes cmd s (refused (rxDone s))) ∧
    (s.runs = true → direct m s → aligned → ∀ d, domainOf (a.toNat - a.toNat % 8) = some d → s.domState d ≠ dmON →
      Completes cmd s fun t =>
        if s.domFailed d = true then refused s t
        else tb t.pwr.access d = true ∧ t.pwr.stalled.length = s.pwr.stalled.length + 1 ∧ t.time = s.time ∧
          (∀ x ∈ s.pwr.stalled, x ∈ t.pwr.stalled) ∧ t.voted d = true ∧ ∀ f, Fld.ofFaults f = false → t.rd f = s.rd f)) ∧
  (∀ (m : Master) (s : State), s.coreHalted m = true ↔ isCore m = true ∧ s.split = false ∧
    let p := if m = .ac0 ∨ m = .ac1 then 0 else 1
    s.pairState p ≠ pairINSERVICE ∧ ¬ (s.pairState p = pairREJOINING ∧ (s.pr p).released = true)) ∧
  (∀ (m : Master) (a : Word) (v : BitVec 64) (ecc : WordEcc) (s : State), s.runs = true → direct m s → a.toNat % 4 = 0 →
    inSram a.toNat 4 = true → m ≠ .host → m ≠ .debugger → Completes (.registerWrite m a 4 (some v) ecc) s fun t =>
      (s.on Reg.HIF_CFG_EVTEN = false → ∀ i, getByte t.mem i =
        if a.toNat ≤ i ∧ i < a.toNat + 4 then bits v.toNat (8 * (i - a.toNat)) 8 else getByte (rxDone s).mem i) ∧
      ∀ f, Fld.ofFaults f = false → t.rd f = s.rd f) ∧
  (∀ (m : Master) (a : Word) (v : BitVec 64) (ecc : WordEcc) (s : State), s.runs = true → direct m s → a.toNat % 4 = 0 →
    0x40040000 ≤ a.toNat → a.toNat < 0x40040100 → m ≠ .debugger → (m = .host → s.lc ≠ lcDEAD) →
    Completes (.registerWrite m a 4 (some v) ecc) s fun t =>
      if rowsAt a.toNat = [] then refused (rxDone s) t
      else (∀ r ∈ rowsAt a.toNat,
        let f : Fld := ⟨8 * a.toNat + r.lsb, r.w⟩
        t.rd f = match r.acc with
          | .rw => bits v.toNat r.lsb r.w
          | .rwl => if s.on Reg.CEC_CTRL_LOCK = true then s.rd f else bits v.toNat r.lsb r.w
          | .w1c => andNotW (s.rd f) (bits v.toNat r.lsb r.w)
          | .ro | .wo => s.rd f) ∧
        ∀ f, Fld.ofFaults f = false → (∀ r ∈ rowsAt a.toNat, f.key ≠ 8 * a.toNat + r.lsb) → t.rd f = s.rd f) ∧
  (∀ (m : Master) (a : Word) (ecc : WordEcc) (s : State), s.runs = true → direct m s → a.toNat % 4 = 0 → s.calm →
    0x40000000 ≤ a.toNat → a.toNat < 0x40100000 → domainOf a.toNat = none → m ≠ .debugger → (m = .host → s.lc ≠ lcDEAD) → a ≠ 0x40020010 → a ≠ 0x40020020 →
    Completes (.registerWrite m a 4 none ecc) s fun t =>
      match (rxDone s).readReg m a.toNat with
      | some v => t = { rxDone s with dev := { s.dev with readData := v } }
      | none => refused (rxDone s) t) ∧
  (∀ (m : Master) (a : Word) (v : BitVec 64) (ecc : WordEcc) (s : State), s.runs = true → isCore m = true → s.split = false →
    s.coreHalted m = false → a.toNat % 4 = 0 →
    let p := if m = .ac0 ∨ m = .ac1 then 0 else 1
    let chk := m = .ac1 ∨ m = .ac3
    let q := s.pr p
    let st : RelStore := { addr := a.toNat - a.toNat % 8, mask := 15 * 2 ^ (a.toNat % 8), data := v.toNat * 2 ^ (8 * (a.toNat % 8)) }
    let apart := a.toNat < 0x20000 ∨ (0x08000000 ≤ a.toNat ∧ a.toNat < 0x08100000)
    (0x08000000 ≤ a.toNat → a.toNat < 0x08100000 → Completes (.registerWrite m a 4 (some v) ecc) s fun t =>
      let x := (t.pr p).main.mem
      let y := (t.pr p).chk.mem
      let put := fun (old new : List Host.Cell) => ∀ i, getByte new i =
        if a.toNat - 0x08000000 ≤ i ∧ i < a.toNat - 0x08000000 + 4 then bits v.toNat (8 * (i + 0x08000000 - a.toNat)) 8 else getByte old i
      (if chk then x = q.main.mem ∧ put q.chk.mem y else put q.main.mem x ∧ y = q.chk.mem) ∧
      ∀ f, Fld.ofFaults f = false → t.rd f = s.rd f) ∧
    (¬ apart → ¬ chk → s.mainStalled p = false → s.mainCan p (q.mainIc + 1) = true → q.buffered ≠ 447 →
      Completes (.registerWrite m a 4 (some v) ecc) s fun t =>
        (t.pr p).buf = q.buf ++ [st] ∧ (t.pr p).sig = sigRecord q.sig st ∧ (t.pr p).chkBuf = q.chkBuf ∧
        (s.on Reg.HIF_CFG_EVTEN = false → t.mem = s.mem)) ∧
    (¬ apart → chk → s.chkCan p (q.chkIc + 1) = true → Completes (.registerWrite m a 4 (some v) ecc) s fun t =>
      (t.pr p).chkBuf = q.chkBuf ++ [st] ∧ (t.pr p).chkSig = sigRecord q.chkSig st ∧ (t.pr p).buf = q.buf ∧
      (s.on Reg.HIF_CFG_EVTEN = false → t.mem = s.mem)) ∧
    (¬ apart → s.canMeet p (q.mainIc + 1) = true →
      (∀ d, domainOf (a.toNat - a.toNat % 8) = some d → s.domState d = dmON) → Completes (.registerWrite m a 4 none ecc) s fun t =>
      t.rd (Reg.CHK_Px_XCNT p) = min (s.rd (Reg.CHK_Px_XCNT p) + 1) (2 ^ (Reg.CHK_Px_XCNT p).w - 1))) ∧
  ∀ (off : Fin 1048576) (size : Fin 16) (data : Option Word) (s : State),
    let a := 0x40000000 + off.val
    let cmd := Instr.bar0Access off size data
    (s.live pdHIF = false ∨ s.on Reg.HIF_STAT_LINK_UP = false → Completes cmd s fun t => t = s) ∧
    (s.live pdHIF = true → s.on Reg.HIF_STAT_LINK_UP = true →
      let failed := match domainOf a with
        | some d => s.domFailed d
        | none => false
      if size.val ≠ 4 ∨ a % 4 ≠ 0 ∨ failed = true ∨ s.bar0Bad a data.isSome = true then
        Completes cmd s fun t => t.on Reg.HIF_STAT_DENY = true ∧ (data = none → t.dev.readData = 0) ∧
          ∀ f, Fld.ofFaults f = false → f.key ≠ Reg.HIF_STAT_DENY.key → t.rd f = s.rd f
      else exec cmd s = exec (.registerWrite .host (BitVec.ofNat 32 a) 4 (data.map fun v => v.setWidth 64) .ok) s)

/-- With the domain of the engine ON and the master's path open: a bus write of a data word is performed alone while the
engine's axis is DISABLED and BUSY reads 0, else it is a bus error that changes nothing, and a word that a MOVE
writes on the same clock keeps the word of the MOVE; a bus read answers the word where its page is covered for the
master, else 0 with ENG_REDACT raised, and changes no engine memory. A single-bit error met by such a read is
corrected, counted and raises ENG_ECC_CORR. A master whose path is closed gets a bus error. A domain that is UP
becomes ON, raises source 210 and withdraws its access vote, and the accesses that waited for it wait no longer,
those of other domains still do. (R89, R90, R118, R119, R471, R472, R525, R526.) -/
def Obligations.EngineMemoryAndDomainOn : Prop :=
  let count := fun (c : Nat) (s t : State) => s.calm → SMap.get 0 t.fcu.count c = min (SMap.get 0 s.fcu.count c + 1) 255
  (∀ (m : Master) (n : Fin 8) (a : Fin 16384) (v : Word) (s : State),
    s.runs = true → s.domState (if n.val < 4 then pdCEL else pdCEH) = dmON → isCore m = false ∨ s.split = true →
    let addr := 0x42000000 + 0x100000 * n.val + 4 * a.val
    (Completes (.dataMemoryWrite m n a v) s fun t =>
      (∀ k, k ≠ n.val → t.e k = s.e k) ∧ t.time = s.time ∧ (∀ f, Fld.ofFaults f = false → t.rd f = s.rd f) ∧
      if s.pathOpen m true addr = true ∧ s.ax n.val = axDISABLED ∧ s.bit Reg.CEC_STAT_BUSY n.val = false then
        SMap.get 0 (t.e n.val).data a.val % 2 ^ 32 =
          (if (rxDone s).movedNow n.val a.val = true then SMap.get 0 (s.e n.val).data a.val % 2 ^ 32 else v.toNat) ∧ t.e n.val = { s.e n.val with data := (t.e n.val).data } ∧
        ∀ b, b ≠ a.val → SMap.get 0 (t.e n.val).data b = SMap.get 0 (s.e n.val).data b
      else OnlyFaults (rxDone s) t ∧ count Fc.BUS_ERROR s t) ∧
    (Completes (.dataMemoryRead m n a true) s fun t =>
      t.eng = s.eng ∧ t.time = s.time ∧ (s.pathOpen m false addr = true →
        t.rd Reg.CEC_ECC_CORR_CNT = min (s.rd Reg.CEC_ECC_CORR_CNT + 1) (2 ^ Reg.CEC_ECC_CORR_CNT.w - 1) ∧
        count (Fc.ENG_ECC_CORR n.val) s t)) ∧
    Completes (.dataMemoryRead m n a false) s fun t =>
      t.eng = s.eng ∧ t.time = s.time ∧ (∀ f, Fld.ofFaults f = false → t.rd f = s.rd f) ∧
      if s.pathOpen m false addr = false then OnlyFaults (rxDone s) t ∧ count Fc.BUS_ERROR s t
      else if s.pageCovered m (s.pageClass n.val a.val) = true then
        (SMap.get 0 (s.e n.val).data a.val < 2 ^ 32 → t.dev.readData = SMap.get 0 (s.e n.val).data a.val) ∧ (s.calm → t.fcu = s.fcu)
      else t.dev.readData = 0 ∧ count (Fc.ENG_REDACT n.val) s t) ∧
  (∀ (m : Master) (s : State),
    (m ≠ .host → m ≠ .debugger → s.pathOpen m false 0x42000000 = true) ∧ (m = .host → s.pathOpen m false 0x42000000 = false) ∧
    (m = .debugger → s.rd Reg.SEC_STAT_DBG = 0 → s.pathOpen m false 0x42000000 = false) ∧
    (s.mayRead m = true → s.pageCovered m 0 = true) ∧ (m ≠ .debugger → ∀ c, c ≠ 0 → s.pageCovered m c = false)) ∧
  ∀ (d : Fin 12) (s : State), Completes (.domainOn d) s fun t =>
    let mine := s.pwr.stalled.filter fun op => domainOf op.st.addr = some d.val
    let rest := s.pwr.stalled.filter fun op => domainOf op.st.addr ≠ some d.val
    if s.domState d.val = dmUP ∧ s.ctTicks ≤ SMap.get 0 s.pwr.upAt d.val + 40000 then
      (mine = [] → t.domState d.val = dmON ∧ t.pends 210 = true ∧ t.time = s.time ∧
        t.pwr = { s.pwr with access := putBit s.pwr.access d.val false, stalled := rest } ∧
        (∀ k < 12, k ≠ d.val → t.domState k = s.domState k) ∧
        ∀ f, Fld.ofFaults f = false → f.key ≠ Reg.PWR_DOM.key → t.rd f = s.rd f) ∧
      (∀ op, mine = [op] → op.write = false → t.pwr.stalled = rest ∧ tb t.pwr.access d.val = false ∧ t.domState d.val = dmON)
    else t = s

/-- In every state BYPASS, IDCODE and SAMPLE/PRELOAD (0 to 2) come into force, and nothing else changes but what waits
to be raised; EXTEST, INTEST and CLAMP (3 to 5) come into force exactly while FULL debug is open and the lifecycle
is not DEAD, and otherwise nothing changes. (R460.) -/
def Obligations.BoundaryScanAvailable : Prop :=
  ∀ (i : Fin 6) (s : State), Completes (.boundaryScan i) s fun t =>
    if i.val < 3 ∨ (s.rd Reg.SEC_STAT_DBG = 2 ∧ s.lc ≠ lcDEAD) then Settled { s with dev := { s.dev with scan := i.val } } t
    else t = s

/-- Between commands, with the bus running: the write 1 to PWR_CTRL by the PCIe host or by a core of a split device sets
PWR_STAT.WDENY and nothing else in ACTIVE and LEE (the path of the host is BAR0, and the row names it as the
master); in every other state, with no reset due, it makes the reset with cause SW due 4,000 ticks on and changes
nothing else, and RESET_REACTION from there leaves the device in BOOT with the cause SW. A checked core's write acts
so when it is released. By a path without the role HOST it performs no reset. (R539.) -/
def Obligations.SoftwareReset : Prop :=
  ∀ (m : Master) (ecc : WordEcc) (s : State), s.runs = true → s.calm → s.dev.resetDue = none →
    let host := m = .ac0 ∨ m = .ac1 ∨ m = .ac2 ∨ m = .ac3 ∨ m = .host
    (host → isCore m = false ∨ s.split = true → (m = .host → s.lc ≠ lcDEAD) → Completes (.registerWrite m 0x40010000 4 (some 1) ecc) s fun t =>
      (s.on Reg.PWR_CTRL_LOCK = false → s.dev.state = .active ∨ s.dev.state = .lee →
        t.on Reg.PWR_STAT_WDENY = true ∧ t.dev = s.dev ∧ ∀ f, f.key ≠ Reg.PWR_STAT_WDENY.key → t.rd f = s.rd f) ∧
      (s.on Reg.PWR_CTRL_LOCK = true → s.dev.state = .active ∨ s.dev.state = .lee → t = (rxDone s).put Reg.PWR_STAT_WDENY true) ∧
      (s.dev.state ≠ .active → s.dev.state ≠ .lee → t.dev = { s.dev with resetDue := some (s.ctTicks + 4000, 8) } ∧
        (∀ f, t.rd f = s.rd f) ∧ t.time = s.time ∧
        Completes .resetReaction t fun u => u.dev.state = .boot ∧ u.rd Reg.PWR_RSTCAUSE_CAUSE = 2 ^ 8 ∧ u.time = State.reset.time)) ∧
    (¬ host → m ≠ .debugger → Completes (.registerWrite m 0x40010000 4 (some 1) ecc) s fun t => t.dev = s.dev ∧ ∀ f, t.rd f = s.rd f) ∧
    ∀ (p : Fin 2) (ic : Nat), s.live p = true → s.pairOn p = true → (s.pwr.stalled.any fun op => op.m = mainCore p) = false →
      (s.pr p).drain = [(ic, [{ addr := 0x40010000, mask := 15, data := 1 }])] →
      Completes (.releaseDrain p true) s fun t => (t.pr p).drain = [] ∧ t.time = (advance 1 s).time ∧
        (s.dev.state ≠ .active → s.dev.state ≠ .lee → t.dev.resetDue = some ((advance 1 s).ctTicks + 4000, 8)) ∧
        (s.dev.state = .active ∨ s.dev.state = .lee → t.on Reg.PWR_STAT_WDENY = true)

/-- For every command c and state s whose queue is c followed by more, a step of s answers what exec answers for c on s
with the rest of the queue. With no command waiting a step leaves the state as it is. The queue is the model's form
of a block's command source, not the specification's (notes/assumptions/3.md). (R26.) -/
def Obligations.StepRunsFront : Prop :=
  (∀ (c : Instr) (cs : List Instr) (s : State), s.pending = c :: cs → step s = exec c { s with pending := cs }) ∧
  ∀ s : State, s.pending = [] → step s = .next s

/-- In the state after reset the device is in BOOT with role OFFLINE and claim 0, SYS_ID reads 0x96480A01, the frame is
20,000 ticks and the cycle 20 frames, FC, LT and RATE are 0, every axis is DISABLED, the Anvil does not run and no
mode is VALID, no engine is loaded, no fault is held and no interrupt pending, PWR_VOTE_X votes for every domain,
POR is the cause, memory lists nothing, both stores are canonical, no command waits, and every pin has the level of
the Reset column of R553. The power state Run with every domain ON is the model's choice for the instant after power
good (notes/assumptions/4.md). (R3, R31, R35, R524, R537, R548, R553, R569.) -/
def Obligations.StateAfterReset : Prop :=
  let s := State.reset
  s.dev.state = .boot ∧ s.role = roleOFFLINE ∧ s.rd Reg.SEAM_CLAIM_CLAIM = 0 ∧
  s.rd Reg.SYS_ID_REV = 1 ∧ s.rd Reg.SYS_ID_VARIANT = 0x0A ∧ s.rd Reg.SYS_ID_DEVCLASS = 0x9648 ∧
  s.readReg .ac0 0x40000000 = some 0x96480A01 ∧ s.frameTicks = 20000 ∧ s.cycleFrames = 20 ∧
  s.time.fc = 0 ∧ s.time.lt = 0 ∧ s.rd Reg.TIME_RATE = 0 ∧ (∀ n < 8, s.ax n = axDISABLED) ∧
  s.on Reg.ANV_STAT_RUNNING = false ∧ s.rd Reg.ANV_STAT_VALID = 0 ∧ s.rd Reg.CEC_STAT_LOADED = 0 ∧
  s.fcu.held = [] ∧ (∀ k < 8, s.rd (Reg.INTC_PENDk k) = 0) ∧ s.rd Reg.PWR_VOTE_X = 0xFFF ∧ s.rd Reg.PWR_VOTE_Y = 0 ∧
  s.rd Reg.PWR_RSTCAUSE_CAUSE = 1 ∧ s.mem = [] ∧ s.calm ∧ s.storesWf = true ∧ s.pending = [] ∧
  s.pwr.mode = .run ∧ (∀ d < 12, s.domState d = 2) ∧
  ∀ p : Pin, s.pin p = match p with
    | .pwm _ _ | .maintN | .exc => .highZ
    | .genA _ | .genB _ | .fltP | .fltN | .sdCk _ | .ospiRst => .low
    | .soH _ | .soL _ | .glDn _ | .ssup _ => .off
    | .fbCk _ | .canTx _ | .ospiCs => .high
    | .fdlTx _ | .seamTx _ | .pcieTx => .idle

/-- If in a state the register file and the shared memory list their keys strictly rising and no entry equal to what an
unlisted one reads as, and a step answers a next state, then they do so in that state. So after any run from reset
equal register files and equal memories are equal lists, and a register or byte is listed at most once. (R14, R15,
R547, R569.) -/
def Obligations.StoresCanonicalEveryStep : Prop :=
  ∀ s t : State, s.storesWf = true → step s = .next t → t.storesWf = true
end

