-- ==== Sys2Proof/Laws/Store.lean ====
section
/-! SUPPORT. The sparse maps: reading after a write, the canonical form, and the register fields and bits read after
a write. -/
namespace Sys2Proof

theorem SMap.get_erase {α : Type} (d : α) (m : SMap α) (k k' : Nat) :
    SMap.get d (SMap.erase m k) k' = if k = k' then d else SMap.get d m k' := by
  induction m with
  | nil => simp [SMap.erase, SMap.get]
  | cons p m ih =>
    obtain ⟨a, v⟩ := p
    by_cases h : a = k
    · subst h
      simp only [SMap.erase, if_true, ih, SMap.get]
      split <;> simp_all
    · simp only [SMap.erase, if_neg h, SMap.get, ih]
      split
      · rename_i h1; subst h1; simp [Ne.symm h]
      · rfl

theorem SMap.get_insertAt {α : Type} (d : α) (m : SMap α) (k k' : Nat) (v : α)
    (hm : ∀ p ∈ m, p.1 ≠ k) :
    SMap.get d (SMap.insertAt m k v) k' = if k = k' then v else SMap.get d m k' := by
  induction m with
  | nil => simp [SMap.insertAt, SMap.get]
  | cons p m ih =>
    obtain ⟨a, w⟩ := p
    have ha : a ≠ k := hm (a, w) (List.mem_cons_self ..)
    have ih := ih fun q hq => hm q (List.mem_cons_of_mem _ hq)
    simp only [SMap.insertAt]
    split
    · rw [SMap.get]
    · simp only [SMap.get, ih]
      split
      · rename_i h2; subst h2; simp [Ne.symm ha]
      · rfl

theorem SMap.erase_ne {α : Type} (m : SMap α) (k : Nat) : ∀ p ∈ SMap.erase m k, p.1 ≠ k := by
  induction m with
  | nil => simp [SMap.erase]
  | cons q m ih =>
    obtain ⟨a, v⟩ := q
    intro p hp
    by_cases h : a = k
    · rw [SMap.erase, if_pos h] at hp; exact ih p hp
    · rw [SMap.erase, if_neg h] at hp
      rcases List.mem_cons.mp hp with h1 | h1
      · rw [h1]; exact h
      · exact ih p h1

/-- A read after a write. -/
@[simp] theorem SMap.get_set {α : Type} [DecidableEq α] (d : α) (m : SMap α) (k k' : Nat) (v : α) :
    SMap.get d (SMap.set d m k v) k' = if k = k' then v else SMap.get d m k' := by
  unfold SMap.set
  split
  · rename_i h; rw [SMap.get_erase, h]
  · rw [SMap.get_insertAt _ _ _ _ _ (SMap.erase_ne m k), SMap.get_erase]
    split <;> rfl

theorem SMap.wfFrom_mono {α : Type} [DecidableEq α] (d : α) (m : SMap α) (lo lo' : Nat) (h : lo' ≤ lo)
    (hm : SMap.wfFrom d lo m = true) : SMap.wfFrom d lo' m = true := by
  cases m with
  | nil => rfl
  | cons p m =>
    simp only [SMap.wfFrom, Bool.and_eq_true, decide_eq_true_eq] at hm ⊢
    exact ⟨⟨by omega, hm.1.2⟩, hm.2⟩

theorem SMap.wfFrom_erase {α : Type} [DecidableEq α] (d : α) (m : SMap α) (lo k : Nat)
    (hm : SMap.wfFrom d lo m = true) : SMap.wfFrom d lo (SMap.erase m k) = true := by
  induction m generalizing lo with
  | nil => rfl
  | cons p m ih =>
    obtain ⟨a, v⟩ := p
    simp only [SMap.wfFrom, Bool.and_eq_true, decide_eq_true_eq] at hm
    by_cases h : a = k
    · rw [SMap.erase, if_pos h]
      exact SMap.wfFrom_mono d _ (a + 1) lo (by omega) (ih _ hm.2)
    · rw [SMap.erase, if_neg h]
      simp only [SMap.wfFrom, Bool.and_eq_true, decide_eq_true_eq]
      exact ⟨hm.1, ih _ hm.2⟩

theorem SMap.wfFrom_insertAt {α : Type} [DecidableEq α] (d : α) (m : SMap α) (lo k : Nat) (v : α)
    (hm : SMap.wfFrom d lo m = true) (hk : ∀ p ∈ m, p.1 ≠ k) (hv : v ≠ d) (hlo : lo ≤ k) :
    SMap.wfFrom d lo (SMap.insertAt m k v) = true := by
  induction m generalizing lo with
  | nil => simp [SMap.insertAt, SMap.wfFrom, hv, hlo]
  | cons p m ih =>
    obtain ⟨a, w⟩ := p
    have ha : a ≠ k := hk (a, w) (List.mem_cons_self ..)
    simp only [SMap.wfFrom, Bool.and_eq_true, decide_eq_true_eq] at hm
    simp only [SMap.insertAt]
    split
    · simp only [SMap.wfFrom, Bool.and_eq_true, decide_eq_true_eq]
      exact ⟨⟨hlo, hv⟩, ⟨⟨by omega, hm.1.2⟩, hm.2⟩⟩
    · simp only [SMap.wfFrom, Bool.and_eq_true, decide_eq_true_eq]
      exact ⟨hm.1, ih _ hm.2 (fun q hq => hk q (List.mem_cons_of_mem _ hq)) (by omega)⟩

/-- A write keeps the canonical form. -/
theorem SMap.wf_set {α : Type} [DecidableEq α] (d : α) (m : SMap α) (k : Nat) (v : α) (hm : SMap.wf d m = true) :
    SMap.wf d (SMap.set d m k v) = true := by
  unfold SMap.wf SMap.set at *
  split
  · exact SMap.wfFrom_erase d m 0 k hm
  · rename_i h
    exact SMap.wfFrom_insertAt d _ 0 k v (SMap.wfFrom_erase d m 0 k hm) (SMap.erase_ne m k) h (Nat.zero_le _)

/-- A bit after a bit was written. -/
theorem tb_putBit (v n m : Nat) (b : Bool) : tb (putBit v n b) m = if n = m then b else tb v m := by
  have hb : b.toNat % 2 ^ 1 = b.toNat := by cases b <;> rfl
  have hr : v % 2 ^ n < 2 ^ n := Nat.mod_lt _ (Nat.two_pow_pos n)
  unfold tb putBit putBits
  rw [hb]
  rcases Nat.lt_trichotomy n m with h | h | h
  · obtain ⟨j, rfl⟩ := Nat.exists_eq_add_of_lt h
    have e : n + j + 1 = n + 1 + j := by omega
    rw [if_neg (by omega), e, Nat.pow_add 2 (n + 1) j, ← Nat.div_div_eq_div_mul, ← Nat.div_div_eq_div_mul]
    have hs : b.toNat * 2 ^ n + v % 2 ^ n < 2 ^ (n + 1) := by
      rw [Nat.pow_succ]; cases b <;> simp <;> omega
    have e2 : (v / 2 ^ (n + 1) * 2 ^ (n + 1) + b.toNat * 2 ^ n + v % 2 ^ n) / 2 ^ (n + 1) = v / 2 ^ (n + 1) := by
      rw [Nat.add_assoc, Nat.mul_comm, Nat.mul_add_div (Nat.two_pow_pos _), Nat.div_eq_of_lt hs, Nat.add_zero]
    rw [e2]
  · subst h
    rw [if_pos rfl]
    have e : v / 2 ^ (n + 1) * 2 ^ (n + 1) + b.toNat * 2 ^ n + v % 2 ^ n
        = 2 ^ n * (v / 2 ^ (n + 1) * 2 + b.toNat) + v % 2 ^ n := by rw [Nat.pow_succ]; ring
    rw [e, Nat.mul_add_div (Nat.two_pow_pos n), Nat.div_eq_of_lt hr]
    cases b <;> simp <;> omega
  · obtain ⟨j, rfl⟩ := Nat.exists_eq_add_of_lt h
    rw [if_neg (by omega)]
    have e : v / 2 ^ (m + j + 1 + 1) * 2 ^ (m + j + 1 + 1) + b.toNat * 2 ^ (m + j + 1) + v % 2 ^ (m + j + 1)
        = 2 ^ m * (2 * (v / 2 ^ (m + j + 1 + 1) * 2 ^ (j + 1) + b.toNat * 2 ^ j)) + v % 2 ^ (m + j + 1) := by
      have : m + j + 1 + 1 = m + (j + 1) + 1 := by omega
      simp only [Nat.pow_add, Nat.pow_one]; ring
    have e3 : v % 2 ^ (m + j + 1) / 2 ^ m % 2 = v / 2 ^ m % 2 := by
      have := Nat.mod_pow_succ (b := 2) (x := v) (k := m)
      rw [show m + j + 1 = m + (j + 1) by omega, Nat.pow_add, Nat.mod_mul_right_div_self, Nat.pow_succ,
        Nat.mod_mul_left_mod]
    rw [e, Nat.mul_add_div (Nat.two_pow_pos m), Nat.mul_add_mod, e3]

namespace Machine

/-- A field read after a field was written. -/
theorem State.rd_wr (s : State) (f g : Fld) (v : Nat) :
    (s.wr f v).rd g = if f.key = g.key then v % 2 ^ f.w % 2 ^ g.w else s.rd g := by
  simp only [State.rd, State.wr, SMap.get_set]
  split <;> rfl

@[simp] theorem State.rd_wr_self (s : State) (f : Fld) (v : Nat) : (s.wr f v).rd f = v % 2 ^ f.w := by
  simp [State.rd_wr]

theorem State.rd_wr_ne (s : State) (f g : Fld) (v : Nat) (h : f.key ≠ g.key) : (s.wr f v).rd g = s.rd g := by
  simp [State.rd_wr, h]

/-- A field never holds more than its width. -/
theorem State.rd_lt (s : State) (f : Fld) : s.rd f < 2 ^ f.w := Nat.mod_lt _ (Nat.two_pow_pos _)

/-- A bit of a field after a bit of a field was written. -/
theorem State.bit_wrBit (s : State) (f g : Fld) (n m : Nat) (b : Bool) (hf : f = g) (hm : m < g.w) :
    (s.wrBit f n b).bit g m = if n = m then b else s.bit g m := by
  subst hf
  unfold State.bit State.wrBit
  rw [State.rd_wr_self]
  have : ∀ v, tb (v % 2 ^ f.w) m = tb v m := by
    intro v
    unfold tb
    obtain ⟨j, hj⟩ := Nat.exists_eq_add_of_lt hm
    rw [hj, show m + j + 1 = m + (j + 1) by omega, Nat.pow_add, Nat.mod_mul_right_div_self, Nat.pow_succ,
      Nat.mod_mul_left_mod]
  rw [this, tb_putBit]

end Machine
end Sys2Proof
end

