-- ==== Sys2Proof/Laws/Faults.lean ====
section
/-! SUPPORT. What raising faults and interrupt events can change: every operation of Machine/Ops.lean that raises answers a
state that is `OnlyFaults` of the one it was given. -/
namespace Sys2Proof.Machine

theorem OnlyFaults.refl (s : State) : OnlyFaults s s where
  rd _ _ := rfl
  dev := rfl
  replay := Iff.rfl
  state := .inl rfl
  role := .inl rfl
  claim := .inl rfl
  out _ := rfl
  hif := rfl
  evten := rfl
  quiet _ := ⟨rfl, rfl⟩
  held _ h := h
  pend _ _ h _ _ := h
  request _ _ h := h
  time := rfl
  anv := rfl
  eng := rfl
  cec := rfl
  com := rfl
  fb := rfl
  adc := rfl
  so := rfl
  axs := rfl
  pair := rfl
  chk := rfl
  intc := rfl
  tsk := rfl
  can := rfl
  seam := rfl
  fdl := rfl
  sec := rfl
  pwr := rfl
  fresh := rfl
  pending := rfl

theorem OnlyFaults.trans {s t u : State} (h : OnlyFaults s t) (g : OnlyFaults t u) : OnlyFaults s u where
  rd f hf := (g.rd f hf).trans (h.rd f hf)
  dev := by rw [g.dev, h.dev]
  replay := g.replay.trans h.replay
  state := by
    rcases g.state with a | ⟨a, b⟩ | a
    · rcases h.state with c | c | ⟨c, d⟩
      · exact .inl (a.trans c)
      · exact .inr (.inl ⟨a.trans c.1, c.2⟩)
      · exact .inr (.inr ⟨a.trans c, fun n l => g.request n l (d n l)⟩)
    · rcases h.state with c | ⟨c, _⟩ | ⟨c, _⟩
      · exact .inr (.inl ⟨a, c ▸ b⟩)
      · rw [c] at b; cases b
      · rw [c] at b; cases b
    · exact .inr (.inr a)
  role := by
    rcases g.role with a | a | ⟨a, b⟩
    · rcases h.role with c | ⟨c, d⟩ | ⟨c, d⟩
      · exact .inl (a.trans c)
      · refine .inr (.inl ⟨?_, a.trans d⟩)
        rcases g.state with e | ⟨_, e⟩ | ⟨e, _⟩
        · exact e.trans c
        · rw [c] at e; cases e
        · exact e
      · exact .inr (.inr ⟨c, a.trans d⟩)
    · exact .inr (.inl a)
    · refine .inr (.inr ⟨?_, b⟩)
      rcases h.state with c | ⟨c, _⟩ | ⟨c, _⟩
      · exact c ▸ a
      · rw [c] at a; cases a
      · rw [c] at a; cases a
  claim := by
    rcases g.claim with a | a
    · rcases h.claim with c | ⟨c, d⟩
      · exact .inl (a.trans c)
      · refine .inr ⟨a.trans c, ?_⟩
        rcases g.role with e | ⟨_, e⟩ | ⟨_, e⟩
        · rw [e]; exact d
        · exact .inl e
        · exact .inr e
    · exact .inr a
  out n := by rw [g.out n, h.out n]
  hif := by rw [g.hif, h.hif]
  evten := g.evten.trans h.evten
  quiet q :=
    let a := h.quiet q
    let b := g.quiet (h.evten.trans q)
    ⟨b.1.trans a.1, b.2.trans a.2⟩
  held c x := g.held c (h.held c x)
  pend k n x a b := g.pend k n (h.pend k n x a b) a b
  request n l x := g.request n l (h.request n l x)
  time := g.time.trans h.time
  anv := g.anv.trans h.anv
  eng := g.eng.trans h.eng
  cec := g.cec.trans h.cec
  com := g.com.trans h.com
  fb := g.fb.trans h.fb
  adc := g.adc.trans h.adc
  so := g.so.trans h.so
  axs := g.axs.trans h.axs
  pair := g.pair.trans h.pair
  chk := g.chk.trans h.chk
  intc := g.intc.trans h.intc
  tsk := g.tsk.trans h.tsk
  can := g.can.trans h.can
  seam := g.seam.trans h.seam
  fdl := g.fdl.trans h.fdl
  sec := g.sec.trans h.sec
  pwr := g.pwr.trans h.pwr
  fresh := g.fresh.trans h.fresh
  pending := g.pending.trans h.pending

/-- A field that raising writes and that is neither a pending bit nor the enable of device events, the role or the claim. -/
def Fld.plainFault (f : Fld) : Bool :=
  Fld.ofFaults f && (decide (f.key ≠ Reg.HIF_CFG_EVTEN.key) && decide (f.key ≠ Reg.SEAM_STAT_ROLE.key) &&
    decide (f.key ≠ Reg.SEAM_CLAIM_CLAIM.key)) &&
    (List.range 8).all fun k => decide (f.key ≠ (Reg.INTC_PENDk k).key)

/-- A write of a register of `Fld.plainFault`. -/
theorem OnlyFaults.wr (s : State) (f : Fld) (v : Nat) (hf : Fld.plainFault f = true) : OnlyFaults s (s.wr f v) := by
  simp only [Fld.plainFault, Bool.and_eq_true, decide_eq_true_eq, List.all_eq_true, List.mem_range] at hf
  obtain ⟨⟨h1, ⟨h2, h4⟩, h5⟩, h3⟩ := hf
  refine { OnlyFaults.refl s with rd := ?_, evten := ?_, pend := ?_, role := .inl (State.rd_wr_ne _ _ _ _ h4),
                                  claim := .inl (State.rd_wr_ne _ _ _ _ h5) }
  · intro g hg
    refine State.rd_wr_ne s f g v fun e => ?_
    rw [Fld.ofFaults, e] at h1
    rw [Fld.ofFaults, h1] at hg
    cases hg
  · rw [State.on, State.on, State.rd_wr_ne _ _ _ _ h2]
  · intro k n h _ hk
    rw [State.bit, State.rd_wr_ne _ _ _ _ (h3 k hk)]; exact h

theorem OnlyFaults.put (s : State) (f : Fld) (b : Bool) (hf : Fld.plainFault f = true) : OnlyFaults s (s.put f b) :=
  .wr s f _ hf

theorem OnlyFaults.inc (s : State) (f : Fld) (hf : Fld.plainFault f = true) : OnlyFaults s (s.inc f) := .wr s f _ hf

theorem OnlyFaults.when {s t : State} (c : Bool) (f : State → State) (h : OnlyFaults s t) (g : OnlyFaults t (f t)) :
    OnlyFaults s (t.when c f) := by
  unfold State.when; split
  · exact h.trans g
  · exact h

/-- The fault unit changes and keeps what it held. -/
theorem OnlyFaults.fcu (s : State) (x : FcuSt) (h : ∀ c, (SMap.get none s.fcu.held c).isSome = true → (SMap.get none x.held c).isSome = true)
    (r : ∀ n, n < 8 → tb s.fcu.supReq n = true → tb x.supReq n = true) : OnlyFaults s { s with fcu := x } :=
  { OnlyFaults.refl s with held := h, request := r, state := .inl rfl }

theorem OnlyFaults.later (s : State) (f : Raise) : OnlyFaults s (s.later f) := .fcu s _ (fun _ h => h) (fun _ _ h => h)

/-- The Almanac and the device state change. -/
theorem OnlyFaults.alm (s : State) (x : AlmSt) : OnlyFaults s { s with alm := x } := { OnlyFaults.refl s with }

theorem OnlyFaults.devState (s : State) (x : DevState) (h : x = .replay ↔ s.dev.state = .replay)
    (g : x = s.dev.state ∨ (x = .lee ∧ s.dev.state = .active) ∨ (x = .safe ∧ ∀ n, n < 8 → tb s.fcu.supReq n = true)) :
    OnlyFaults s { s with dev := { s.dev with state := x } } :=
  { OnlyFaults.refl s with dev := rfl, replay := h, state := g, role := .inl rfl }

theorem OnlyFaults.resetDue (s : State) (x : Option (Nat × Nat)) :
    OnlyFaults s { s with dev := { s.dev with resetDue := x } } :=
  { OnlyFaults.refl s with dev := rfl }

theorem plain_miss (k : Nat) (hk : k < 8) : Fld.plainFault (Reg.INTC_MISSk k) = true := by
  have : ∀ k : Fin 8, Fld.plainFault (Reg.INTC_MISSk k) = true := by decide
  exact this ⟨k, hk⟩

/-- A pending bit is set. -/
theorem OnlyFaults.pendBit (s : State) (k n : Nat) (hk : k < 8) :
    OnlyFaults s (s.wrBit (Reg.INTC_PENDk k) n true) := by
  have hp : ∀ k : Fin 8, Fld.ofFaults (Reg.INTC_PENDk k) = true ∧ (Reg.INTC_PENDk k).key ≠ Reg.HIF_CFG_EVTEN.key ∧
      (Reg.INTC_PENDk k).key ≠ Reg.SEAM_STAT_ROLE.key ∧ (Reg.INTC_PENDk k).key ≠ Reg.SEAM_CLAIM_CLAIM.key := by
    decide
  obtain ⟨h1, h2, h4, h5⟩ := hp ⟨k, hk⟩
  simp only at h1 h2 h4 h5
  refine { OnlyFaults.refl s with rd := ?_, evten := ?_, pend := ?_, role := .inl (State.rd_wr_ne _ _ _ _ h4),
                                  claim := .inl (State.rd_wr_ne _ _ _ _ h5) }
  · intro g hg
    refine State.rd_wr_ne s _ g _ fun e => ?_
    rw [Fld.ofFaults, e] at h1
    rw [Fld.ofFaults, h1] at hg
    cases hg
  · rw [State.on, State.on, State.wrBit, State.rd_wr_ne _ _ _ _ h2]
  · intro j m h hm hj
    by_cases e : k = j
    · subst e
      rw [State.bit_wrBit s _ _ n m true rfl (by simpa [Reg.INTC_PENDk] using hm)]
      split
      · rfl
      · exact h
    · have : (Reg.INTC_PENDk k).key ≠ (Reg.INTC_PENDk j).key := by simp only [Reg.INTC_PENDk]; omega
      rw [State.bit, State.wrBit, State.rd_wr_ne _ _ _ _ this]; exact h

theorem OnlyFaults.irq (s : State) (src : Nat) (h : src < 256) : OnlyFaults s (irq src s) := by
  have hk : src / 32 < 8 := by omega
  unfold Machine.irq
  split
  · exact (OnlyFaults.wr s _ _ (plain_miss _ hk)).trans (.later _ _)
  · exact .pendBit s _ _ hk

/-- After an event its pending bit is set. -/
theorem irq_pend (s : State) (src : Nat) (h : src < 256) :
    (irq src s).bit (Reg.INTC_PENDk (src / 32)) (src % 32) = true := by
  have hm : src % 32 < (Reg.INTC_PENDk (src / 32)).w := Nat.mod_lt _ (by decide)
  unfold Machine.irq
  split
  · rename_i hb
    have : (Reg.INTC_MISSk (src / 32)).key ≠ (Reg.INTC_PENDk (src / 32)).key := by
      simp only [Reg.INTC_MISSk, Reg.INTC_PENDk]; omega
    show State.bit _ _ _ = true
    simp only [State.later, State.bit, State.wrBit]
    rw [show ∀ x : FcuSt, ∀ u : State, State.rd { u with fcu := x } (Reg.INTC_PENDk (src / 32)) = u.rd (Reg.INTC_PENDk (src / 32))
      from fun _ _ => rfl, State.rd_wr_ne _ _ _ _ this]
    exact hb
  · rw [State.bit_wrBit s _ _ _ _ true rfl hm, if_pos rfl]

theorem blockFaultIrq_lt (code src : Nat) (h : blockFaultIrq code = some src) : src < 256 := by
  unfold blockFaultIrq at h
  repeat' split at h
  all_goals first
    | (injection h with h; omega)
    | (injection h with h; unfold adcFaultIrq at h; split at h <;> omega)
    | (injection h with h; unfold adcFaultIrq at h; (repeat' split at h) <;> omega)
    | (injection h with h; unfold outFaultIrq at h; (repeat' split at h) <;> omega)
    | (unfold seamFaultIrq at h; split at h <;> first | (injection h with h; omega) | cases h)
    | (unfold fdlFaultIrq at h; split at h <;> first | (injection h with h; omega) | cases h)
    | cases h

/-! ### The event ring -/

theorem plain_ring (r : Nat) (hr : r < 16) : Fld.plainFault (Reg.HIF_Rr_IDX_PI r) = true ∧
    Fld.plainFault (Reg.HIF_Rr_STAT_COUNT r) = true ∧ Fld.plainFault (Reg.HIF_Rr_STAT_PHASE r) = true ∧
    Fld.plainFault (Reg.HIF_Rr_IRQ_ARM r) = true := by
  have : ∀ r : Fin 16, Fld.plainFault (Reg.HIF_Rr_IDX_PI r) = true ∧
    Fld.plainFault (Reg.HIF_Rr_STAT_COUNT r) = true ∧ Fld.plainFault (Reg.HIF_Rr_STAT_PHASE r) = true ∧
    Fld.plainFault (Reg.HIF_Rr_IRQ_ARM r) = true := by decide
  exact this ⟨r, hr⟩

/-- While device events are enabled the memories of the event ring may change. -/
theorem OnlyFaults.stores (s : State) (m : List Host.Cell) (h : HifSt)
    (hh : h = { s.hif with hostMem := h.hostMem, lastMsg := h.lastMsg, pba := h.pba })
    (q : s.on Reg.HIF_CFG_EVTEN = true) : OnlyFaults s { s with mem := m, hif := h } :=
  { OnlyFaults.refl s with hif := hh, quiet := fun e => by rw [q] at e; cases e }

theorem OnlyFaults.dmaWrite (s : State) (loc a : Nat) (ws : List Nat) (q : s.on Reg.HIF_CFG_EVTEN = true) :
    OnlyFaults s (s.dmaWrite loc a ws) := by
  unfold State.dmaWrite; (repeat' split)
  · exact .stores s s.mem _ rfl q
  · exact .stores s _ s.hif rfl q
  · exact .later s _

theorem OnlyFaults.ringPutRaw (r : Nat) (hr : r < 16) (ws : List Nat) (s : State)
    (q : s.on Reg.HIF_CFG_EVTEN = true) : OnlyFaults s (ringPutRaw r ws s) := by
  obtain ⟨h1, h2, h3, _⟩ := plain_ring r hr
  have a := OnlyFaults.dmaWrite s (s.rd (Reg.HIF_Rr_CFG_LOC r)) (s.ringBase r + 32 * s.rd (Reg.HIF_Rr_IDX_PI r))
    (padTo 8 ws) q
  unfold Machine.ringPutRaw
  dsimp only
  split
  · exact ((a.trans (.wr _ _ _ h1)).trans (.inc _ _ h2)).trans (.wr _ _ _ h3)
  · exact (a.trans (.wr _ _ _ h1)).trans (.inc _ _ h2)

theorem OnlyFaults.ringPuts (r : Nat) (hr : r < 16) (ds : List (List Nat)) (s : State)
    (q : s.on Reg.HIF_CFG_EVTEN = true) : OnlyFaults s (ringPuts r ds s) := by
  induction ds generalizing s with
  | nil => exact .refl s
  | cons d ds ih =>
    have a := OnlyFaults.ringPutRaw r hr (putBits (d.headD 0) 31 1 (s.rd (Reg.HIF_Rr_STAT_PHASE r)) :: d.tail) s q
    exact a.trans (ih _ (a.evten.trans q))

theorem OnlyFaults.msix (vec : Nat) (s : State) (q : s.on Reg.HIF_CFG_EVTEN = true) : OnlyFaults s (msix vec s) := by
  unfold Machine.msix; dsimp only; split
  · exact .stores s s.mem _ rfl q
  · exact .dmaWrite s _ _ _ q

theorem OnlyFaults.ringNotify (r own : Nat) (hr : r < 16) (s : State) (q : s.on Reg.HIF_CFG_EVTEN = true) :
    OnlyFaults s (ringNotify r own s) := by
  have a := OnlyFaults.dmaWrite s (s.rd (Reg.HIF_Rr_CFG_LOC r)) (s.ringIdxA r) [own, s.fn] q
  unfold Machine.ringNotify
  dsimp only
  split
  · have b := (a.trans (.put _ _ false (plain_ring r hr).2.2.2)).trans (.irq _ (160 + r) (by omega))
    refine OnlyFaults.when _ _ (b.trans (.stores _ (State.mem _) _ rfl (b.evten.trans q))) (.msix _ _ ?_)
    exact (b.trans (.stores _ (State.mem _) _ rfl (b.evten.trans q))).evten.trans q
  · exact a

theorem OnlyFaults.ringWrite (r : Nat) (ds : List (List Nat)) (hr : r < 16) (s : State)
    (q : s.on Reg.HIF_CFG_EVTEN = true) : OnlyFaults s (ringWrite r ds s) :=
  let a := OnlyFaults.ringPuts r hr ds s q
  a.trans (.ringNotify r _ hr _ (a.evten.trans q))

theorem OnlyFaults.postEvent (kind : Nat) (data : List Nat) (s : State) : OnlyFaults s (postEvent kind data s) := by
  unfold Machine.postEvent
  dsimp only
  split
  · rename_i h
    simp only [Bool.and_eq_true] at h
    split
    · exact (OnlyFaults.inc s _ (by decide)).trans (.later _ _)
    · exact .ringWrite _ _ (State.rd_lt s Reg.HIF_CFG_EVTRING) s h.1
  · exact .refl s

/-! ### The Almanac trigger -/

theorem OnlyFaults.putTrigger (s : State) : OnlyFaults s (putTrigger s) := .alm s _

theorem OnlyFaults.almTrigger (b code : Nat) (s : State) : OnlyFaults s (almTrigger b code s) := by
  unfold Machine.almTrigger
  dsimp only
  repeat' split
  · refine OnlyFaults.trans ?_ (.later _ _)
    refine OnlyFaults.trans ?_ (.putTrigger _)
    refine OnlyFaults.trans ?_ (.alm _ _)
    exact (((OnlyFaults.wr s _ _ (by decide)).trans (.wr _ _ _ (by decide))).trans (.wr _ _ _ (by decide))).trans
      (.wr _ _ _ (by decide))
  · exact ((OnlyFaults.when _ _ (.refl s) (.wr _ _ _ (by decide))).trans (.wr _ _ _ (by decide))).trans (.putTrigger _)
  · exact (OnlyFaults.inc s _ (by decide)).trans (.putTrigger _)
  · exact ((OnlyFaults.inc s _ (by decide)).trans (.putTrigger _)).trans (.later _ _)
  · exact .refl s

theorem OnlyFaults.almEvent (b code : Nat) (s : State) : OnlyFaults s (almEvent b code s) :=
  .when _ _ (.refl s) (.almTrigger b code s)

/-! ### Device state, role and requests -/

theorem OnlyFaults.fltStop (s : State) : OnlyFaults s (fltStop s) :=
  ((OnlyFaults.put s _ _ (by decide)).trans (.put _ _ _ (by decide))).trans (.fcu _ _ (fun _ h => h) (fun _ _ h => h))

/-- Device state, role and the claim the role drops change together. -/
theorem OnlyFaults.stateRole (st : DevState) (role : Nat) (s : State) (h : st = .replay ↔ s.dev.state = .replay)
    (g : st = s.dev.state ∨ (st = .lee ∧ s.dev.state = .active) ∨ (st = .safe ∧ ∀ n, n < 8 → tb s.fcu.supReq n = true))
    (hr : role = s.role ∨ (st = .safe ∧ role = roleOFFLINE) ∨ (s.dev.state = .standby ∧ role = roleOBSERVER)) :
    OnlyFaults s (({ s.wr Reg.SEAM_STAT_ROLE role with dev := { s.dev with state := st } } : State).when
      (decide (role = roleOFFLINE) || decide (role = roleOBSERVER)) fun s => s.wr Reg.SEAM_CLAIM_CLAIM 0) := by
  have k1 : Fld.ofFaults Reg.SEAM_STAT_ROLE = true := by decide
  have k2 : Fld.ofFaults Reg.SEAM_CLAIM_CLAIM = true := by decide
  have lt : role % 2 ^ 2 = role := by
    refine Nat.mod_eq_of_lt ?_
    rcases hr with e | ⟨_, e⟩ | ⟨_, e⟩
    · rw [e]; exact State.rd_lt s Reg.SEAM_STAT_ROLE
    · rw [e]; decide
    · rw [e]; decide
  have ne : ∀ (f : Fld) (u : State) (v : Nat) (k : Fld), Fld.ofFaults k = true → Fld.ofFaults f = false → (u.wr k v).rd f = u.rd f := by
    intro f u v k hk hf
    refine State.rd_wr_ne _ _ _ _ fun e => ?_
    rw [Fld.ofFaults, e] at hk; rw [Fld.ofFaults, hk] at hf; cases hf
  have a : ∀ (f : Fld), f.key ≠ Reg.SEAM_STAT_ROLE.key →
      (({ s.wr Reg.SEAM_STAT_ROLE role with dev := { s.dev with state := st } } : State)).rd f = s.rd f :=
    fun f hf => State.rd_wr_ne s _ f role (Ne.symm hf)
  have b : (({ s.wr Reg.SEAM_STAT_ROLE role with dev := { s.dev with state := st } } : State)).role = role :=
    (State.rd_wr_self s Reg.SEAM_STAT_ROLE role).trans lt
  have ev : Reg.HIF_CFG_EVTEN.key ≠ Reg.SEAM_STAT_ROLE.key := by decide
  have pn : ∀ k, k < 8 → (Reg.INTC_PENDk k).key ≠ Reg.SEAM_STAT_ROLE.key := by
    intro k hk; simp only [Reg.INTC_PENDk, Reg.SEAM_STAT_ROLE]; omega
  have first : OnlyFaults s ({ s.wr Reg.SEAM_STAT_ROLE role with dev := { s.dev with state := st } } : State) :=
    { OnlyFaults.refl s with
      rd := fun f hf => ne f s role _ k1 hf
      dev := rfl, replay := h, state := g
      role := by rw [b]; exact hr
      claim := .inl (a _ (by decide))
      evten := by rw [State.on, State.on, a _ ev]
      pend := fun k n x _ hk => by rw [State.bit, a _ (pn k hk)]; exact x }
  unfold State.when
  split
  · rename_i hc
    generalize ({ s.wr Reg.SEAM_STAT_ROLE role with dev := { s.dev with state := st } } : State) = u at b first ⊢
    refine first.trans { OnlyFaults.refl u with
      rd := fun f hf => ne f u 0 _ k2 hf
      role := .inl (State.rd_wr_ne u Reg.SEAM_CLAIM_CLAIM Reg.SEAM_STAT_ROLE 0 (by decide))
      claim := .inr ⟨State.rd_wr_self u Reg.SEAM_CLAIM_CLAIM 0, ?_⟩
      evten := by rw [State.on, State.on, State.rd_wr_ne u Reg.SEAM_CLAIM_CLAIM Reg.HIF_CFG_EVTEN 0 (by decide)]
      pend := fun k n x _ hk => by
        rw [State.bit, State.rd_wr_ne u Reg.SEAM_CLAIM_CLAIM (Reg.INTC_PENDk k) 0 (by
          simp only [Reg.INTC_PENDk, Reg.SEAM_CLAIM_CLAIM]; omega)]; exact x }
    have r : (u.wr Reg.SEAM_CLAIM_CLAIM 0).role = role :=
      (State.rd_wr_ne u Reg.SEAM_CLAIM_CLAIM Reg.SEAM_STAT_ROLE 0 (by decide)).trans b
    rw [r]
    simpa using hc
  · exact first

theorem OnlyFaults.setDevRole (st : DevState) (role : Nat) (s : State) (h : st = .replay ↔ s.dev.state = .replay)
    (g : st = s.dev.state ∨ (st = .lee ∧ s.dev.state = .active) ∨ (st = .safe ∧ ∀ n, n < 8 → tb s.fcu.supReq n = true))
    (hr : role = s.role ∨ (st = .safe ∧ role = roleOFFLINE) ∨ (s.dev.state = .standby ∧ role = roleOBSERVER)) :
    OnlyFaults s (setDevRole st role s) := by
  unfold Machine.setDevRole
  dsimp only
  split
  · exact .refl s
  · exact (OnlyFaults.when _ _ (.when _ _ (.stateRole st role s h g hr) (.fltStop _)) (.irq _ 152 (by decide))).trans
      (.postEvent _ _ _)

theorem OnlyFaults.enterLee (s : State) : OnlyFaults s (enterLee s) := by
  unfold Machine.enterLee
  split
  · rename_i ha
    refine OnlyFaults.trans ?_ (.almEvent 2 0 _)
    refine OnlyFaults.trans ?_ (.irq _ 1 (by decide))
    refine OnlyFaults.trans ?_ (.inc _ _ (by decide))
    refine OnlyFaults.trans ?_ (.setDevRole .lee _ _ (by simp [ha]) (.inr (.inl ⟨rfl, ha⟩)) (.inl rfl))
    exact .fcu s _ (fun _ h => h) (fun _ _ h => h)
  · exact .refl s

theorem OnlyFaults.leaveLee (s : State) : OnlyFaults s (leaveLee s) := by
  unfold Machine.leaveLee
  split
  · refine OnlyFaults.trans ?_ (.irq _ 9 (by decide))
    exact .fcu s _ (fun _ h => h) (fun _ _ h => h)
  · exact .refl s

/-- Only the legs of an output change. -/
theorem OnlyFaults.legs (s : State) (n : Nat) (a b c : LegSt) :
    OnlyFaults s (s.setO n { s.o n with legA := a, legB := b, legC := c }) := by
  refine { OnlyFaults.refl s with out := ?_ }
  intro m
  by_cases h : n = m
  · subst h; simp [State.setO, State.o]
  · simp [State.setO, State.o, h]

theorem OnlyFaults.safeLegs (n : Nat) (s : State) : OnlyFaults s (safeLegs n s) := by
  unfold Machine.safeLegs
  split
  · exact .refl s
  · exact .legs s n _ _ _

theorem OnlyFaults.each (l : List Nat) (f : Nat → State → State) (h : ∀ i s, OnlyFaults s (f i s)) (s : State) :
    OnlyFaults s (s.each l f) := by
  unfold State.each
  induction l generalizing s with
  | nil => exact .refl s
  | cons i l ih => exact (h i s).trans (ih _)

/-- A bit of a disjunction of words. -/
theorem tb_orW (a b n : Nat) : tb (orW a b) n = (tb a n || tb b n) := by
  have h : ∀ v, tb v n = v.testBit n := by
    intro v; rw [Nat.testBit_eq_decide_div_mod_eq]; rfl
  rw [h, h, h, orW, Nat.testBit_or]

theorem OnlyFaults.requestSafe (axes : Nat) (s : State) : OnlyFaults s (requestSafe axes s) := by
  refine (OnlyFaults.each _ Machine.safeLegs (fun i s => .safeLegs i s) s).trans (.fcu _ _ (fun _ h => h) fun n _ h => ?_)
  rw [tb_orW, h]; rfl

theorem OnlyFaults.enterSafe (s : State) : OnlyFaults s (enterSafe s) := by
  unfold Machine.enterSafe
  dsimp only
  have ones : ∀ n, n < 8 → tb 0xFF n = true := by decide
  split
  · exact .refl s
  · rename_i hr
    have a := OnlyFaults.each (List.range 8) Machine.safeLegs (fun i s => .safeLegs i s) s
    generalize s.each (List.range 8) Machine.safeLegs = u at a ⊢
    have a := a.trans (.fcu u { u.fcu with supReq := 0xFF, supSo := true } (fun _ h => h) (fun n h _ => ones n h))
    split
    · refine OnlyFaults.trans ?_ (.almEvent 3 0 _)
      refine OnlyFaults.trans ?_ (.irq _ 3 (by decide))
      generalize hv : ({ u with fcu := { u.fcu with supReq := 0xFF, supSo := true } } : State) = v at a
      have r : ∀ n, n < 8 → tb v.fcu.supReq n = true := by subst hv; exact fun n l => ones n l
      have c := (OnlyFaults.leaveLee v).trans (.fltStop _)
      exact (a.trans c).trans (.setDevRole .safe _ _
        ⟨(fun h => nomatch h), fun h => absurd ((a.trans c).replay.mp h) hr⟩ (.inr (.inr ⟨rfl, fun n l => c.request n l (r n l)⟩))
        (.inr (.inl ⟨rfl, rfl⟩)))
    · exact a

/-! ### Raising a fault -/

theorem OnlyFaults.applyLeeCause (s : State) : OnlyFaults s (applyLeeCause s) := by
  unfold Machine.applyLeeCause
  split
  · exact .refl s
  · split
    · exact .enterLee s
    · unfold State.when
      split
      · rename_i hc
        simp only [Bool.and_eq_true, decide_eq_true_eq] at hc
        exact .setDevRole _ _ _ Iff.rfl (.inl rfl) (.inr (.inr ⟨by assumption, rfl⟩))
      · exact .refl s
    · exact .refl s

theorem OnlyFaults.noteRaise (f : Raise) (s : State) : OnlyFaults s (noteRaise f s) := by
  refine .fcu s _ (fun c h => ?_) (fun _ _ h => h)
  dsimp only
  split
  · exact h
  · rw [SMap.get_set]; split
    · rfl
    · exact h

theorem plain_log (i : Nat) (h : i < 256) : Fld.plainFault (Reg.FCU_LOGi i) = true := by
  have e : (Reg.FCU_LOGi i).key / 0x80000 = 0x4010 := by simp only [Reg.FCU_LOGi]; omega
  have e2 : (Reg.FCU_LOGi i).key ≠ Reg.HIF_CFG_EVTEN.key := by simp only [Reg.FCU_LOGi, Reg.HIF_CFG_EVTEN]; omega
  have e3 : ∀ k < 8, (Reg.FCU_LOGi i).key ≠ (Reg.INTC_PENDk k).key := by
    intro k hk; simp only [Reg.FCU_LOGi, Reg.INTC_PENDk]; omega
  have e4 : (Reg.FCU_LOGi i).key ≠ Reg.SEAM_STAT_ROLE.key := by simp only [Reg.FCU_LOGi, Reg.SEAM_STAT_ROLE]; omega
  have e5 : (Reg.FCU_LOGi i).key ≠ Reg.SEAM_CLAIM_CLAIM.key := by simp only [Reg.FCU_LOGi, Reg.SEAM_CLAIM_CLAIM]; omega
  have e6 : (Reg.FCU_LOGi 0).key ≤ (Reg.FCU_LOGi i).key := by simp only [Reg.FCU_LOGi]; omega
  simp only [Fld.plainFault, Fld.ofFaults, e, Bool.and_eq_true, Bool.or_eq_true, decide_eq_true_eq, List.all_eq_true,
    List.mem_range]
  exact ⟨⟨.inl (.inl (.inr e6)), ⟨e2, e4⟩, e5⟩, e3⟩

theorem OnlyFaults.logFault (f : Raise) (s : State) : OnlyFaults s (logFault f s) := by
  unfold Machine.logFault
  dsimp only
  have a := fun v w => (OnlyFaults.wr s (Reg.FCU_LOGi (s.rd Reg.FCU_LOGWP_WP)) v
    (plain_log _ (State.rd_lt s Reg.FCU_LOGWP_WP))).trans (.wr _ Reg.FCU_LOGWP_WP w (by decide))
  split
  · refine OnlyFaults.trans ?_ (.irq _ 10 (by decide))
    refine OnlyFaults.trans ?_ (.wr _ _ _ (by decide))
    exact .when _ _ (a _ _) (.inc _ _ (by decide))
  · refine OnlyFaults.trans ?_ (.inc _ _ (by decide))
    exact .when _ _ (a _ _) (.inc _ _ (by decide))

theorem OnlyFaults.recordWho (f : Raise) (s : State) : OnlyFaults s (recordWho f s) := by
  unfold Machine.recordWho
  dsimp only
  iterate 5 refine OnlyFaults.trans ?_ (.wr _ _ _ (by decide))
  exact .wr _ _ _ (by decide)

theorem OnlyFaults.recordFault (f : Raise) (s : State) : OnlyFaults s (recordFault f s) := by
  unfold Machine.recordFault
  dsimp only
  split
  · refine OnlyFaults.trans ?_ (.irq _ 7 (by decide))
    refine OnlyFaults.trans ?_ (.fcu _ _ (fun _ h => h) fun _ _ h => h)
    refine OnlyFaults.trans ?_ (.wr _ _ _ (by decide))
    refine OnlyFaults.trans ?_ (.inc _ _ (by decide))
    exact OnlyFaults.when _ _ (.refl s) (.recordWho f s)
  · refine OnlyFaults.trans ?_ (.irq _ 6 (by decide))
    refine OnlyFaults.trans ?_ (.fcu _ _ (fun _ h => h) fun _ _ h => h)
    iterate 5 refine OnlyFaults.trans ?_ (.wr _ _ _ (by decide))
    exact (OnlyFaults.recordWho f s).trans (.put _ _ _ (by decide))

theorem OnlyFaults.takeReaction (f : Raise) (r : React) (s : State) : OnlyFaults s (takeReaction f r s) := by
  unfold Machine.takeReaction
  dsimp only
  split
  · exact .refl s
  · split
    · exact .refl s
    · exact .refl s
    · exact .applyLeeCause s
    · exact .requestSafe _ s
    · exact .enterSafe s
    · exact (OnlyFaults.enterSafe s).trans (.resetDue _ _)

/-- One raise of a fault, with its reaction. -/
theorem OnlyFaults.raise1 (f : Raise) (s : State) : OnlyFaults s (raise1 f s) := by
  unfold Machine.raise1
  dsimp only
  split
  · exact .refl s
  · refine OnlyFaults.trans ?_ (.takeReaction _ _ _)
    refine OnlyFaults.when _ _ ?_ (.almEvent _ _ _)
    refine OnlyFaults.when _ _ ?_ (.almEvent _ _ _)
    refine OnlyFaults.when _ _ ?_ (.fltStop _)
    have tail : ∀ u, OnlyFaults u (match blockFaultIrq f.code with | some src => Machine.irq src u | none => u) := by
      intro u; split
      · rename_i src h; exact .irq u src (blockFaultIrq_lt _ _ h)
      · exact .refl u
    refine OnlyFaults.trans ?_ (tail _)
    refine OnlyFaults.when _ _ ?_ (.irq _ 5 (by decide))
    refine OnlyFaults.when _ _ ?_ (.irq _ 4 (by decide))
    refine OnlyFaults.when _ _ ?_ (.irq _ 0 (by decide))
    refine OnlyFaults.when _ _ ?_ (.postEvent _ _ _)
    refine OnlyFaults.when _ _ ?_ (.recordFault _ _)
    refine OnlyFaults.when _ _ (.noteRaise f s) (.logFault _ _)

theorem OnlyFaults.settle (n : Nat) (s : State) : OnlyFaults s (settle n s) := by
  induction n generalizing s with
  | zero => exact .refl s
  | succ n ih =>
    unfold Machine.settle
    split
    · exact .refl s
    · refine OnlyFaults.trans ?_ (ih _)
      refine OnlyFaults.trans ?_ (.raise1 _ _)
      exact .fcu s _ (fun _ h => h) (fun _ _ h => h)

/-- Raising everything on the list. -/
theorem OnlyFaults.settleAll (s : State) : OnlyFaults s (settleAll s) := .settle _ s

theorem OnlyFaults.raise (f : Raise) (s : State) : OnlyFaults s (raise f s) :=
  (OnlyFaults.raise1 f s).trans (.settleAll _)

theorem OnlyFaults.raiseIrq (src : Nat) (h : src < 256) (s : State) : OnlyFaults s (raiseIrq src s) :=
  (OnlyFaults.irq s src h).trans (.settleAll _)

/-- A state with nothing left to raise is settled. -/
theorem settleAll_calm (s : State) (h : s.fcu.todo = []) : settleAll s = s := by
  unfold Machine.settleAll Machine.settle
  rw [h]

end Sys2Proof.Machine
end

