-- ==== Sys2Proof/Laws/Memory.lean ====
section
/-! SUPPORT. Shared memory: a byte read after a write, and the canonical form that every memory operation keeps. -/
namespace Sys2Proof.Machine

/-- A byte read after a byte was written. -/
theorem getByte_putByte (m : List Host.Cell) (a b v : Nat) :
    getByte (putByte m a v) b = if a = b then v % 2 ^ 8 else getByte m b := by
  unfold getByte putByte
  rw [SMap.get_set]
  split
  · exact BitVec.toNat_ofNat v 8
  · rfl

/-- Bytes outside a write are left alone. -/
theorem getByte_putBytes_ne (vs : List Nat) (m : List Host.Cell) (a b : Nat) (h : b < a ∨ a + vs.length ≤ b) :
    getByte (putBytes m a vs) b = getByte m b := by
  induction vs generalizing m a with
  | nil => rfl
  | cons v vs ih =>
    simp only [List.length_cons] at h
    rw [putBytes, ih _ _ (by omega), getByte_putByte, if_neg (by omega)]

/-- A byte inside a write reads what was written. -/
theorem getByte_putBytes (vs : List Nat) (m : List Host.Cell) (a i : Nat) (h : i < vs.length) :
    getByte (putBytes m a vs) (a + i) = vs.getD i 0 % 2 ^ 8 := by
  induction vs generalizing m a i with
  | nil => simp at h
  | cons v vs ih =>
    rw [putBytes]
    cases i with
    | zero => rw [getByte_putBytes_ne _ _ _ _ (by omega), getByte_putByte]; simp
    | succ i =>
      rw [show a + (i + 1) = a + 1 + i by omega, ih _ _ _ (by simpa using h)]
      simp

theorem putByte_wf (m : List Host.Cell) (a v : Nat) (h : Memory.wf m = true) : Memory.wf (putByte m a v) = true :=
  SMap.wf_set _ _ _ _ h

theorem putBytes_wf (vs : List Nat) (m : List Host.Cell) (a : Nat) (h : Memory.wf m = true) : Memory.wf (putBytes m a vs) = true := by
  induction vs generalizing m a with
  | nil => exact h
  | cons v vs ih => exact ih _ _ (putByte_wf m a v h)

theorem putWord_wf (m : List Host.Cell) (a v : Nat) (h : Memory.wf m = true) : Memory.wf (putWord m a v) = true :=
  putBytes_wf _ _ _ h

theorem putWords_wf (ws : List Nat) (m : List Host.Cell) (a : Nat) (h : Memory.wf m = true) : Memory.wf (putWords m a ws) = true := by
  induction ws generalizing m a with
  | nil => exact h
  | cons w ws ih => exact ih _ _ (putWord_wf m a w h)

/-- A register write keeps both stores canonical. -/
theorem State.storesWf_wr (s : State) (f : Fld) (v : Nat) (h : s.storesWf = true) : (s.wr f v).storesWf = true := by
  simp only [State.storesWf, Bool.and_eq_true] at h ⊢
  exact ⟨SMap.wf_set _ _ _ _ h.1, h.2⟩

theorem State.storesWf_put (s : State) (f : Fld) (b : Bool) (h : s.storesWf = true) : (s.put f b).storesWf = true := s.storesWf_wr f _ h

/-- The memory after reset lists nothing, and so is canonical. -/
theorem reset_memory_wf : Memory.wf State.reset.mem = true := rfl

end Sys2Proof.Machine
end

