-- ==== Sys2Proof/Laws/State.lean ====
section
/-! SUPPORT. What each update of the state leaves, field by field; the unit read after a unit was replaced; what advancing the clock
changes. -/
namespace Sys2Proof.Machine

@[simp] theorem setAnv_regs (x : AnvSt) (s : State) : (setAnv x s).regs = s.regs := rfl
@[simp] theorem setAnv_dev (x : AnvSt) (s : State) : (setAnv x s).dev = s.dev := rfl
@[simp] theorem setAnv_time (x : AnvSt) (s : State) : (setAnv x s).time = s.time := rfl
@[simp] theorem setAnv_anv (x : AnvSt) (s : State) : (setAnv x s).anv = x := rfl
@[simp] theorem setAnv_eng (x : AnvSt) (s : State) : (setAnv x s).eng = s.eng := rfl
@[simp] theorem setAnv_cec (x : AnvSt) (s : State) : (setAnv x s).cec = s.cec := rfl
@[simp] theorem setAnv_com (x : AnvSt) (s : State) : (setAnv x s).com = s.com := rfl
@[simp] theorem setAnv_fb (x : AnvSt) (s : State) : (setAnv x s).fb = s.fb := rfl
@[simp] theorem setAnv_adc (x : AnvSt) (s : State) : (setAnv x s).adc = s.adc := rfl
@[simp] theorem setAnv_out (x : AnvSt) (s : State) : (setAnv x s).out = s.out := rfl
@[simp] theorem setAnv_so (x : AnvSt) (s : State) : (setAnv x s).so = s.so := rfl
@[simp] theorem setAnv_axs (x : AnvSt) (s : State) : (setAnv x s).axs = s.axs := rfl
@[simp] theorem setAnv_pair (x : AnvSt) (s : State) : (setAnv x s).pair = s.pair := rfl
@[simp] theorem setAnv_chk (x : AnvSt) (s : State) : (setAnv x s).chk = s.chk := rfl
@[simp] theorem setAnv_fcu (x : AnvSt) (s : State) : (setAnv x s).fcu = s.fcu := rfl
@[simp] theorem setAnv_intc (x : AnvSt) (s : State) : (setAnv x s).intc = s.intc := rfl
@[simp] theorem setAnv_tsk (x : AnvSt) (s : State) : (setAnv x s).tsk = s.tsk := rfl
@[simp] theorem setAnv_hif (x : AnvSt) (s : State) : (setAnv x s).hif = s.hif := rfl
@[simp] theorem setAnv_can (x : AnvSt) (s : State) : (setAnv x s).can = s.can := rfl
@[simp] theorem setAnv_seam (x : AnvSt) (s : State) : (setAnv x s).seam = s.seam := rfl
@[simp] theorem setAnv_fdl (x : AnvSt) (s : State) : (setAnv x s).fdl = s.fdl := rfl
@[simp] theorem setAnv_alm (x : AnvSt) (s : State) : (setAnv x s).alm = s.alm := rfl
@[simp] theorem setAnv_sec (x : AnvSt) (s : State) : (setAnv x s).sec = s.sec := rfl
@[simp] theorem setAnv_pwr (x : AnvSt) (s : State) : (setAnv x s).pwr = s.pwr := rfl
@[simp] theorem setAnv_mem (x : AnvSt) (s : State) : (setAnv x s).mem = s.mem := rfl
@[simp] theorem setAnv_fresh (x : AnvSt) (s : State) : (setAnv x s).fresh = s.fresh := rfl
@[simp] theorem setAnv_pending (x : AnvSt) (s : State) : (setAnv x s).pending = s.pending := rfl

@[simp] theorem setSeam_regs (x : SeamSt) (s : State) : (setSeam x s).regs = s.regs := rfl
@[simp] theorem setSeam_dev (x : SeamSt) (s : State) : (setSeam x s).dev = s.dev := rfl
@[simp] theorem setSeam_time (x : SeamSt) (s : State) : (setSeam x s).time = s.time := rfl
@[simp] theorem setSeam_anv (x : SeamSt) (s : State) : (setSeam x s).anv = s.anv := rfl
@[simp] theorem setSeam_eng (x : SeamSt) (s : State) : (setSeam x s).eng = s.eng := rfl
@[simp] theorem setSeam_cec (x : SeamSt) (s : State) : (setSeam x s).cec = s.cec := rfl
@[simp] theorem setSeam_com (x : SeamSt) (s : State) : (setSeam x s).com = s.com := rfl
@[simp] theorem setSeam_fb (x : SeamSt) (s : State) : (setSeam x s).fb = s.fb := rfl
@[simp] theorem setSeam_adc (x : SeamSt) (s : State) : (setSeam x s).adc = s.adc := rfl
@[simp] theorem setSeam_out (x : SeamSt) (s : State) : (setSeam x s).out = s.out := rfl
@[simp] theorem setSeam_so (x : SeamSt) (s : State) : (setSeam x s).so = s.so := rfl
@[simp] theorem setSeam_axs (x : SeamSt) (s : State) : (setSeam x s).axs = s.axs := rfl
@[simp] theorem setSeam_pair (x : SeamSt) (s : State) : (setSeam x s).pair = s.pair := rfl
@[simp] theorem setSeam_chk (x : SeamSt) (s : State) : (setSeam x s).chk = s.chk := rfl
@[simp] theorem setSeam_fcu (x : SeamSt) (s : State) : (setSeam x s).fcu = s.fcu := rfl
@[simp] theorem setSeam_intc (x : SeamSt) (s : State) : (setSeam x s).intc = s.intc := rfl
@[simp] theorem setSeam_tsk (x : SeamSt) (s : State) : (setSeam x s).tsk = s.tsk := rfl
@[simp] theorem setSeam_hif (x : SeamSt) (s : State) : (setSeam x s).hif = s.hif := rfl
@[simp] theorem setSeam_can (x : SeamSt) (s : State) : (setSeam x s).can = s.can := rfl
@[simp] theorem setSeam_seam (x : SeamSt) (s : State) : (setSeam x s).seam = x := rfl
@[simp] theorem setSeam_fdl (x : SeamSt) (s : State) : (setSeam x s).fdl = s.fdl := rfl
@[simp] theorem setSeam_alm (x : SeamSt) (s : State) : (setSeam x s).alm = s.alm := rfl
@[simp] theorem setSeam_sec (x : SeamSt) (s : State) : (setSeam x s).sec = s.sec := rfl
@[simp] theorem setSeam_pwr (x : SeamSt) (s : State) : (setSeam x s).pwr = s.pwr := rfl
@[simp] theorem setSeam_mem (x : SeamSt) (s : State) : (setSeam x s).mem = s.mem := rfl
@[simp] theorem setSeam_fresh (x : SeamSt) (s : State) : (setSeam x s).fresh = s.fresh := rfl
@[simp] theorem setSeam_pending (x : SeamSt) (s : State) : (setSeam x s).pending = s.pending := rfl

@[simp] theorem setFdl_regs (x : FdlSt) (s : State) : (setFdl x s).regs = s.regs := rfl
@[simp] theorem setFdl_dev (x : FdlSt) (s : State) : (setFdl x s).dev = s.dev := rfl
@[simp] theorem setFdl_time (x : FdlSt) (s : State) : (setFdl x s).time = s.time := rfl
@[simp] theorem setFdl_anv (x : FdlSt) (s : State) : (setFdl x s).anv = s.anv := rfl
@[simp] theorem setFdl_eng (x : FdlSt) (s : State) : (setFdl x s).eng = s.eng := rfl
@[simp] theorem setFdl_cec (x : FdlSt) (s : State) : (setFdl x s).cec = s.cec := rfl
@[simp] theorem setFdl_com (x : FdlSt) (s : State) : (setFdl x s).com = s.com := rfl
@[simp] theorem setFdl_fb (x : FdlSt) (s : State) : (setFdl x s).fb = s.fb := rfl
@[simp] theorem setFdl_adc (x : FdlSt) (s : State) : (setFdl x s).adc = s.adc := rfl
@[simp] theorem setFdl_out (x : FdlSt) (s : State) : (setFdl x s).out = s.out := rfl
@[simp] theorem setFdl_so (x : FdlSt) (s : State) : (setFdl x s).so = s.so := rfl
@[simp] theorem setFdl_axs (x : FdlSt) (s : State) : (setFdl x s).axs = s.axs := rfl
@[simp] theorem setFdl_pair (x : FdlSt) (s : State) : (setFdl x s).pair = s.pair := rfl
@[simp] theorem setFdl_chk (x : FdlSt) (s : State) : (setFdl x s).chk = s.chk := rfl
@[simp] theorem setFdl_fcu (x : FdlSt) (s : State) : (setFdl x s).fcu = s.fcu := rfl
@[simp] theorem setFdl_intc (x : FdlSt) (s : State) : (setFdl x s).intc = s.intc := rfl
@[simp] theorem setFdl_tsk (x : FdlSt) (s : State) : (setFdl x s).tsk = s.tsk := rfl
@[simp] theorem setFdl_hif (x : FdlSt) (s : State) : (setFdl x s).hif = s.hif := rfl
@[simp] theorem setFdl_can (x : FdlSt) (s : State) : (setFdl x s).can = s.can := rfl
@[simp] theorem setFdl_seam (x : FdlSt) (s : State) : (setFdl x s).seam = s.seam := rfl
@[simp] theorem setFdl_fdl (x : FdlSt) (s : State) : (setFdl x s).fdl = x := rfl
@[simp] theorem setFdl_alm (x : FdlSt) (s : State) : (setFdl x s).alm = s.alm := rfl
@[simp] theorem setFdl_sec (x : FdlSt) (s : State) : (setFdl x s).sec = s.sec := rfl
@[simp] theorem setFdl_pwr (x : FdlSt) (s : State) : (setFdl x s).pwr = s.pwr := rfl
@[simp] theorem setFdl_mem (x : FdlSt) (s : State) : (setFdl x s).mem = s.mem := rfl
@[simp] theorem setFdl_fresh (x : FdlSt) (s : State) : (setFdl x s).fresh = s.fresh := rfl
@[simp] theorem setFdl_pending (x : FdlSt) (s : State) : (setFdl x s).pending = s.pending := rfl

@[simp] theorem setHif_regs (x : HifSt) (s : State) : (setHif x s).regs = s.regs := rfl
@[simp] theorem setHif_dev (x : HifSt) (s : State) : (setHif x s).dev = s.dev := rfl
@[simp] theorem setHif_time (x : HifSt) (s : State) : (setHif x s).time = s.time := rfl
@[simp] theorem setHif_anv (x : HifSt) (s : State) : (setHif x s).anv = s.anv := rfl
@[simp] theorem setHif_eng (x : HifSt) (s : State) : (setHif x s).eng = s.eng := rfl
@[simp] theorem setHif_cec (x : HifSt) (s : State) : (setHif x s).cec = s.cec := rfl
@[simp] theorem setHif_com (x : HifSt) (s : State) : (setHif x s).com = s.com := rfl
@[simp] theorem setHif_fb (x : HifSt) (s : State) : (setHif x s).fb = s.fb := rfl
@[simp] theorem setHif_adc (x : HifSt) (s : State) : (setHif x s).adc = s.adc := rfl
@[simp] theorem setHif_out (x : HifSt) (s : State) : (setHif x s).out = s.out := rfl
@[simp] theorem setHif_so (x : HifSt) (s : State) : (setHif x s).so = s.so := rfl
@[simp] theorem setHif_axs (x : HifSt) (s : State) : (setHif x s).axs = s.axs := rfl
@[simp] theorem setHif_pair (x : HifSt) (s : State) : (setHif x s).pair = s.pair := rfl
@[simp] theorem setHif_chk (x : HifSt) (s : State) : (setHif x s).chk = s.chk := rfl
@[simp] theorem setHif_fcu (x : HifSt) (s : State) : (setHif x s).fcu = s.fcu := rfl
@[simp] theorem setHif_intc (x : HifSt) (s : State) : (setHif x s).intc = s.intc := rfl
@[simp] theorem setHif_tsk (x : HifSt) (s : State) : (setHif x s).tsk = s.tsk := rfl
@[simp] theorem setHif_hif (x : HifSt) (s : State) : (setHif x s).hif = x := rfl
@[simp] theorem setHif_can (x : HifSt) (s : State) : (setHif x s).can = s.can := rfl
@[simp] theorem setHif_seam (x : HifSt) (s : State) : (setHif x s).seam = s.seam := rfl
@[simp] theorem setHif_fdl (x : HifSt) (s : State) : (setHif x s).fdl = s.fdl := rfl
@[simp] theorem setHif_alm (x : HifSt) (s : State) : (setHif x s).alm = s.alm := rfl
@[simp] theorem setHif_sec (x : HifSt) (s : State) : (setHif x s).sec = s.sec := rfl
@[simp] theorem setHif_pwr (x : HifSt) (s : State) : (setHif x s).pwr = s.pwr := rfl
@[simp] theorem setHif_mem (x : HifSt) (s : State) : (setHif x s).mem = s.mem := rfl
@[simp] theorem setHif_fresh (x : HifSt) (s : State) : (setHif x s).fresh = s.fresh := rfl
@[simp] theorem setHif_pending (x : HifSt) (s : State) : (setHif x s).pending = s.pending := rfl

@[simp] theorem setIntc_regs (x : IntcSt) (s : State) : (setIntc x s).regs = s.regs := rfl
@[simp] theorem setIntc_dev (x : IntcSt) (s : State) : (setIntc x s).dev = s.dev := rfl
@[simp] theorem setIntc_time (x : IntcSt) (s : State) : (setIntc x s).time = s.time := rfl
@[simp] theorem setIntc_anv (x : IntcSt) (s : State) : (setIntc x s).anv = s.anv := rfl
@[simp] theorem setIntc_eng (x : IntcSt) (s : State) : (setIntc x s).eng = s.eng := rfl
@[simp] theorem setIntc_cec (x : IntcSt) (s : State) : (setIntc x s).cec = s.cec := rfl
@[simp] theorem setIntc_com (x : IntcSt) (s : State) : (setIntc x s).com = s.com := rfl
@[simp] theorem setIntc_fb (x : IntcSt) (s : State) : (setIntc x s).fb = s.fb := rfl
@[simp] theorem setIntc_adc (x : IntcSt) (s : State) : (setIntc x s).adc = s.adc := rfl
@[simp] theorem setIntc_out (x : IntcSt) (s : State) : (setIntc x s).out = s.out := rfl
@[simp] theorem setIntc_so (x : IntcSt) (s : State) : (setIntc x s).so = s.so := rfl
@[simp] theorem setIntc_axs (x : IntcSt) (s : State) : (setIntc x s).axs = s.axs := rfl
@[simp] theorem setIntc_pair (x : IntcSt) (s : State) : (setIntc x s).pair = s.pair := rfl
@[simp] theorem setIntc_chk (x : IntcSt) (s : State) : (setIntc x s).chk = s.chk := rfl
@[simp] theorem setIntc_fcu (x : IntcSt) (s : State) : (setIntc x s).fcu = s.fcu := rfl
@[simp] theorem setIntc_intc (x : IntcSt) (s : State) : (setIntc x s).intc = x := rfl
@[simp] theorem setIntc_tsk (x : IntcSt) (s : State) : (setIntc x s).tsk = s.tsk := rfl
@[simp] theorem setIntc_hif (x : IntcSt) (s : State) : (setIntc x s).hif = s.hif := rfl
@[simp] theorem setIntc_can (x : IntcSt) (s : State) : (setIntc x s).can = s.can := rfl
@[simp] theorem setIntc_seam (x : IntcSt) (s : State) : (setIntc x s).seam = s.seam := rfl
@[simp] theorem setIntc_fdl (x : IntcSt) (s : State) : (setIntc x s).fdl = s.fdl := rfl
@[simp] theorem setIntc_alm (x : IntcSt) (s : State) : (setIntc x s).alm = s.alm := rfl
@[simp] theorem setIntc_sec (x : IntcSt) (s : State) : (setIntc x s).sec = s.sec := rfl
@[simp] theorem setIntc_pwr (x : IntcSt) (s : State) : (setIntc x s).pwr = s.pwr := rfl
@[simp] theorem setIntc_mem (x : IntcSt) (s : State) : (setIntc x s).mem = s.mem := rfl
@[simp] theorem setIntc_fresh (x : IntcSt) (s : State) : (setIntc x s).fresh = s.fresh := rfl
@[simp] theorem setIntc_pending (x : IntcSt) (s : State) : (setIntc x s).pending = s.pending := rfl

@[simp] theorem setFcu_regs (x : FcuSt) (s : State) : (setFcu x s).regs = s.regs := rfl
@[simp] theorem setFcu_dev (x : FcuSt) (s : State) : (setFcu x s).dev = s.dev := rfl
@[simp] theorem setFcu_time (x : FcuSt) (s : State) : (setFcu x s).time = s.time := rfl
@[simp] theorem setFcu_anv (x : FcuSt) (s : State) : (setFcu x s).anv = s.anv := rfl
@[simp] theorem setFcu_eng (x : FcuSt) (s : State) : (setFcu x s).eng = s.eng := rfl
@[simp] theorem setFcu_cec (x : FcuSt) (s : State) : (setFcu x s).cec = s.cec := rfl
@[simp] theorem setFcu_com (x : FcuSt) (s : State) : (setFcu x s).com = s.com := rfl
@[simp] theorem setFcu_fb (x : FcuSt) (s : State) : (setFcu x s).fb = s.fb := rfl
@[simp] theorem setFcu_adc (x : FcuSt) (s : State) : (setFcu x s).adc = s.adc := rfl
@[simp] theorem setFcu_out (x : FcuSt) (s : State) : (setFcu x s).out = s.out := rfl
@[simp] theorem setFcu_so (x : FcuSt) (s : State) : (setFcu x s).so = s.so := rfl
@[simp] theorem setFcu_axs (x : FcuSt) (s : State) : (setFcu x s).axs = s.axs := rfl
@[simp] theorem setFcu_pair (x : FcuSt) (s : State) : (setFcu x s).pair = s.pair := rfl
@[simp] theorem setFcu_chk (x : FcuSt) (s : State) : (setFcu x s).chk = s.chk := rfl
@[simp] theorem setFcu_fcu (x : FcuSt) (s : State) : (setFcu x s).fcu = x := rfl
@[simp] theorem setFcu_intc (x : FcuSt) (s : State) : (setFcu x s).intc = s.intc := rfl
@[simp] theorem setFcu_tsk (x : FcuSt) (s : State) : (setFcu x s).tsk = s.tsk := rfl
@[simp] theorem setFcu_hif (x : FcuSt) (s : State) : (setFcu x s).hif = s.hif := rfl
@[simp] theorem setFcu_can (x : FcuSt) (s : State) : (setFcu x s).can = s.can := rfl
@[simp] theorem setFcu_seam (x : FcuSt) (s : State) : (setFcu x s).seam = s.seam := rfl
@[simp] theorem setFcu_fdl (x : FcuSt) (s : State) : (setFcu x s).fdl = s.fdl := rfl
@[simp] theorem setFcu_alm (x : FcuSt) (s : State) : (setFcu x s).alm = s.alm := rfl
@[simp] theorem setFcu_sec (x : FcuSt) (s : State) : (setFcu x s).sec = s.sec := rfl
@[simp] theorem setFcu_pwr (x : FcuSt) (s : State) : (setFcu x s).pwr = s.pwr := rfl
@[simp] theorem setFcu_mem (x : FcuSt) (s : State) : (setFcu x s).mem = s.mem := rfl
@[simp] theorem setFcu_fresh (x : FcuSt) (s : State) : (setFcu x s).fresh = s.fresh := rfl
@[simp] theorem setFcu_pending (x : FcuSt) (s : State) : (setFcu x s).pending = s.pending := rfl

@[simp] theorem setAlm_regs (x : AlmSt) (s : State) : (setAlm x s).regs = s.regs := rfl
@[simp] theorem setAlm_dev (x : AlmSt) (s : State) : (setAlm x s).dev = s.dev := rfl
@[simp] theorem setAlm_time (x : AlmSt) (s : State) : (setAlm x s).time = s.time := rfl
@[simp] theorem setAlm_anv (x : AlmSt) (s : State) : (setAlm x s).anv = s.anv := rfl
@[simp] theorem setAlm_eng (x : AlmSt) (s : State) : (setAlm x s).eng = s.eng := rfl
@[simp] theorem setAlm_cec (x : AlmSt) (s : State) : (setAlm x s).cec = s.cec := rfl
@[simp] theorem setAlm_com (x : AlmSt) (s : State) : (setAlm x s).com = s.com := rfl
@[simp] theorem setAlm_fb (x : AlmSt) (s : State) : (setAlm x s).fb = s.fb := rfl
@[simp] theorem setAlm_adc (x : AlmSt) (s : State) : (setAlm x s).adc = s.adc := rfl
@[simp] theorem setAlm_out (x : AlmSt) (s : State) : (setAlm x s).out = s.out := rfl
@[simp] theorem setAlm_so (x : AlmSt) (s : State) : (setAlm x s).so = s.so := rfl
@[simp] theorem setAlm_axs (x : AlmSt) (s : State) : (setAlm x s).axs = s.axs := rfl
@[simp] theorem setAlm_pair (x : AlmSt) (s : State) : (setAlm x s).pair = s.pair := rfl
@[simp] theorem setAlm_chk (x : AlmSt) (s : State) : (setAlm x s).chk = s.chk := rfl
@[simp] theorem setAlm_fcu (x : AlmSt) (s : State) : (setAlm x s).fcu = s.fcu := rfl
@[simp] theorem setAlm_intc (x : AlmSt) (s : State) : (setAlm x s).intc = s.intc := rfl
@[simp] theorem setAlm_tsk (x : AlmSt) (s : State) : (setAlm x s).tsk = s.tsk := rfl
@[simp] theorem setAlm_hif (x : AlmSt) (s : State) : (setAlm x s).hif = s.hif := rfl
@[simp] theorem setAlm_can (x : AlmSt) (s : State) : (setAlm x s).can = s.can := rfl
@[simp] theorem setAlm_seam (x : AlmSt) (s : State) : (setAlm x s).seam = s.seam := rfl
@[simp] theorem setAlm_fdl (x : AlmSt) (s : State) : (setAlm x s).fdl = s.fdl := rfl
@[simp] theorem setAlm_alm (x : AlmSt) (s : State) : (setAlm x s).alm = x := rfl
@[simp] theorem setAlm_sec (x : AlmSt) (s : State) : (setAlm x s).sec = s.sec := rfl
@[simp] theorem setAlm_pwr (x : AlmSt) (s : State) : (setAlm x s).pwr = s.pwr := rfl
@[simp] theorem setAlm_mem (x : AlmSt) (s : State) : (setAlm x s).mem = s.mem := rfl
@[simp] theorem setAlm_fresh (x : AlmSt) (s : State) : (setAlm x s).fresh = s.fresh := rfl
@[simp] theorem setAlm_pending (x : AlmSt) (s : State) : (setAlm x s).pending = s.pending := rfl

@[simp] theorem setSec_regs (x : SecSt) (s : State) : (setSec x s).regs = s.regs := rfl
@[simp] theorem setSec_dev (x : SecSt) (s : State) : (setSec x s).dev = s.dev := rfl
@[simp] theorem setSec_time (x : SecSt) (s : State) : (setSec x s).time = s.time := rfl
@[simp] theorem setSec_anv (x : SecSt) (s : State) : (setSec x s).anv = s.anv := rfl
@[simp] theorem setSec_eng (x : SecSt) (s : State) : (setSec x s).eng = s.eng := rfl
@[simp] theorem setSec_cec (x : SecSt) (s : State) : (setSec x s).cec = s.cec := rfl
@[simp] theorem setSec_com (x : SecSt) (s : State) : (setSec x s).com = s.com := rfl
@[simp] theorem setSec_fb (x : SecSt) (s : State) : (setSec x s).fb = s.fb := rfl
@[simp] theorem setSec_adc (x : SecSt) (s : State) : (setSec x s).adc = s.adc := rfl
@[simp] theorem setSec_out (x : SecSt) (s : State) : (setSec x s).out = s.out := rfl
@[simp] theorem setSec_so (x : SecSt) (s : State) : (setSec x s).so = s.so := rfl
@[simp] theorem setSec_axs (x : SecSt) (s : State) : (setSec x s).axs = s.axs := rfl
@[simp] theorem setSec_pair (x : SecSt) (s : State) : (setSec x s).pair = s.pair := rfl
@[simp] theorem setSec_chk (x : SecSt) (s : State) : (setSec x s).chk = s.chk := rfl
@[simp] theorem setSec_fcu (x : SecSt) (s : State) : (setSec x s).fcu = s.fcu := rfl
@[simp] theorem setSec_intc (x : SecSt) (s : State) : (setSec x s).intc = s.intc := rfl
@[simp] theorem setSec_tsk (x : SecSt) (s : State) : (setSec x s).tsk = s.tsk := rfl
@[simp] theorem setSec_hif (x : SecSt) (s : State) : (setSec x s).hif = s.hif := rfl
@[simp] theorem setSec_can (x : SecSt) (s : State) : (setSec x s).can = s.can := rfl
@[simp] theorem setSec_seam (x : SecSt) (s : State) : (setSec x s).seam = s.seam := rfl
@[simp] theorem setSec_fdl (x : SecSt) (s : State) : (setSec x s).fdl = s.fdl := rfl
@[simp] theorem setSec_alm (x : SecSt) (s : State) : (setSec x s).alm = s.alm := rfl
@[simp] theorem setSec_sec (x : SecSt) (s : State) : (setSec x s).sec = x := rfl
@[simp] theorem setSec_pwr (x : SecSt) (s : State) : (setSec x s).pwr = s.pwr := rfl
@[simp] theorem setSec_mem (x : SecSt) (s : State) : (setSec x s).mem = s.mem := rfl
@[simp] theorem setSec_fresh (x : SecSt) (s : State) : (setSec x s).fresh = s.fresh := rfl
@[simp] theorem setSec_pending (x : SecSt) (s : State) : (setSec x s).pending = s.pending := rfl

@[simp] theorem setPwr_regs (x : PwrSt) (s : State) : (setPwr x s).regs = s.regs := rfl
@[simp] theorem setPwr_dev (x : PwrSt) (s : State) : (setPwr x s).dev = s.dev := rfl
@[simp] theorem setPwr_time (x : PwrSt) (s : State) : (setPwr x s).time = s.time := rfl
@[simp] theorem setPwr_anv (x : PwrSt) (s : State) : (setPwr x s).anv = s.anv := rfl
@[simp] theorem setPwr_eng (x : PwrSt) (s : State) : (setPwr x s).eng = s.eng := rfl
@[simp] theorem setPwr_cec (x : PwrSt) (s : State) : (setPwr x s).cec = s.cec := rfl
@[simp] theorem setPwr_com (x : PwrSt) (s : State) : (setPwr x s).com = s.com := rfl
@[simp] theorem setPwr_fb (x : PwrSt) (s : State) : (setPwr x s).fb = s.fb := rfl
@[simp] theorem setPwr_adc (x : PwrSt) (s : State) : (setPwr x s).adc = s.adc := rfl
@[simp] theorem setPwr_out (x : PwrSt) (s : State) : (setPwr x s).out = s.out := rfl
@[simp] theorem setPwr_so (x : PwrSt) (s : State) : (setPwr x s).so = s.so := rfl
@[simp] theorem setPwr_axs (x : PwrSt) (s : State) : (setPwr x s).axs = s.axs := rfl
@[simp] theorem setPwr_pair (x : PwrSt) (s : State) : (setPwr x s).pair = s.pair := rfl
@[simp] theorem setPwr_chk (x : PwrSt) (s : State) : (setPwr x s).chk = s.chk := rfl
@[simp] theorem setPwr_fcu (x : PwrSt) (s : State) : (setPwr x s).fcu = s.fcu := rfl
@[simp] theorem setPwr_intc (x : PwrSt) (s : State) : (setPwr x s).intc = s.intc := rfl
@[simp] theorem setPwr_tsk (x : PwrSt) (s : State) : (setPwr x s).tsk = s.tsk := rfl
@[simp] theorem setPwr_hif (x : PwrSt) (s : State) : (setPwr x s).hif = s.hif := rfl
@[simp] theorem setPwr_can (x : PwrSt) (s : State) : (setPwr x s).can = s.can := rfl
@[simp] theorem setPwr_seam (x : PwrSt) (s : State) : (setPwr x s).seam = s.seam := rfl
@[simp] theorem setPwr_fdl (x : PwrSt) (s : State) : (setPwr x s).fdl = s.fdl := rfl
@[simp] theorem setPwr_alm (x : PwrSt) (s : State) : (setPwr x s).alm = s.alm := rfl
@[simp] theorem setPwr_sec (x : PwrSt) (s : State) : (setPwr x s).sec = s.sec := rfl
@[simp] theorem setPwr_pwr (x : PwrSt) (s : State) : (setPwr x s).pwr = x := rfl
@[simp] theorem setPwr_mem (x : PwrSt) (s : State) : (setPwr x s).mem = s.mem := rfl
@[simp] theorem setPwr_fresh (x : PwrSt) (s : State) : (setPwr x s).fresh = s.fresh := rfl
@[simp] theorem setPwr_pending (x : PwrSt) (s : State) : (setPwr x s).pending = s.pending := rfl

@[simp] theorem State.setE_regs (s : State) (n : Nat) (x : EngSt) : (s.setE n x).regs = s.regs := rfl
@[simp] theorem State.setE_dev (s : State) (n : Nat) (x : EngSt) : (s.setE n x).dev = s.dev := rfl
@[simp] theorem State.setE_time (s : State) (n : Nat) (x : EngSt) : (s.setE n x).time = s.time := rfl
@[simp] theorem State.setE_anv (s : State) (n : Nat) (x : EngSt) : (s.setE n x).anv = s.anv := rfl
@[simp] theorem State.setE_eng (s : State) (n : Nat) (x : EngSt) : (s.setE n x).eng = SMap.set {} s.eng n x := rfl
@[simp] theorem State.setE_cec (s : State) (n : Nat) (x : EngSt) : (s.setE n x).cec = s.cec := rfl
@[simp] theorem State.setE_com (s : State) (n : Nat) (x : EngSt) : (s.setE n x).com = s.com := rfl
@[simp] theorem State.setE_fb (s : State) (n : Nat) (x : EngSt) : (s.setE n x).fb = s.fb := rfl
@[simp] theorem State.setE_adc (s : State) (n : Nat) (x : EngSt) : (s.setE n x).adc = s.adc := rfl
@[simp] theorem State.setE_out (s : State) (n : Nat) (x : EngSt) : (s.setE n x).out = s.out := rfl
@[simp] theorem State.setE_so (s : State) (n : Nat) (x : EngSt) : (s.setE n x).so = s.so := rfl
@[simp] theorem State.setE_axs (s : State) (n : Nat) (x : EngSt) : (s.setE n x).axs = s.axs := rfl
@[simp] theorem State.setE_pair (s : State) (n : Nat) (x : EngSt) : (s.setE n x).pair = s.pair := rfl
@[simp] theorem State.setE_chk (s : State) (n : Nat) (x : EngSt) : (s.setE n x).chk = s.chk := rfl
@[simp] theorem State.setE_fcu (s : State) (n : Nat) (x : EngSt) : (s.setE n x).fcu = s.fcu := rfl
@[simp] theorem State.setE_intc (s : State) (n : Nat) (x : EngSt) : (s.setE n x).intc = s.intc := rfl
@[simp] theorem State.setE_tsk (s : State) (n : Nat) (x : EngSt) : (s.setE n x).tsk = s.tsk := rfl
@[simp] theorem State.setE_hif (s : State) (n : Nat) (x : EngSt) : (s.setE n x).hif = s.hif := rfl
@[simp] theorem State.setE_can (s : State) (n : Nat) (x : EngSt) : (s.setE n x).can = s.can := rfl
@[simp] theorem State.setE_seam (s : State) (n : Nat) (x : EngSt) : (s.setE n x).seam = s.seam := rfl
@[simp] theorem State.setE_fdl (s : State) (n : Nat) (x : EngSt) : (s.setE n x).fdl = s.fdl := rfl
@[simp] theorem State.setE_alm (s : State) (n : Nat) (x : EngSt) : (s.setE n x).alm = s.alm := rfl
@[simp] theorem State.setE_sec (s : State) (n : Nat) (x : EngSt) : (s.setE n x).sec = s.sec := rfl
@[simp] theorem State.setE_pwr (s : State) (n : Nat) (x : EngSt) : (s.setE n x).pwr = s.pwr := rfl
@[simp] theorem State.setE_mem (s : State) (n : Nat) (x : EngSt) : (s.setE n x).mem = s.mem := rfl
@[simp] theorem State.setE_fresh (s : State) (n : Nat) (x : EngSt) : (s.setE n x).fresh = s.fresh := rfl
@[simp] theorem State.setE_pending (s : State) (n : Nat) (x : EngSt) : (s.setE n x).pending = s.pending := rfl

@[simp] theorem State.setC_regs (s : State) (n : Nat) (x : ComSt) : (s.setC n x).regs = s.regs := rfl
@[simp] theorem State.setC_dev (s : State) (n : Nat) (x : ComSt) : (s.setC n x).dev = s.dev := rfl
@[simp] theorem State.setC_time (s : State) (n : Nat) (x : ComSt) : (s.setC n x).time = s.time := rfl
@[simp] theorem State.setC_anv (s : State) (n : Nat) (x : ComSt) : (s.setC n x).anv = s.anv := rfl
@[simp] theorem State.setC_eng (s : State) (n : Nat) (x : ComSt) : (s.setC n x).eng = s.eng := rfl
@[simp] theorem State.setC_cec (s : State) (n : Nat) (x : ComSt) : (s.setC n x).cec = s.cec := rfl
@[simp] theorem State.setC_com (s : State) (n : Nat) (x : ComSt) : (s.setC n x).com = SMap.set {} s.com n x := rfl
@[simp] theorem State.setC_fb (s : State) (n : Nat) (x : ComSt) : (s.setC n x).fb = s.fb := rfl
@[simp] theorem State.setC_adc (s : State) (n : Nat) (x : ComSt) : (s.setC n x).adc = s.adc := rfl
@[simp] theorem State.setC_out (s : State) (n : Nat) (x : ComSt) : (s.setC n x).out = s.out := rfl
@[simp] theorem State.setC_so (s : State) (n : Nat) (x : ComSt) : (s.setC n x).so = s.so := rfl
@[simp] theorem State.setC_axs (s : State) (n : Nat) (x : ComSt) : (s.setC n x).axs = s.axs := rfl
@[simp] theorem State.setC_pair (s : State) (n : Nat) (x : ComSt) : (s.setC n x).pair = s.pair := rfl
@[simp] theorem State.setC_chk (s : State) (n : Nat) (x : ComSt) : (s.setC n x).chk = s.chk := rfl
@[simp] theorem State.setC_fcu (s : State) (n : Nat) (x : ComSt) : (s.setC n x).fcu = s.fcu := rfl
@[simp] theorem State.setC_intc (s : State) (n : Nat) (x : ComSt) : (s.setC n x).intc = s.intc := rfl
@[simp] theorem State.setC_tsk (s : State) (n : Nat) (x : ComSt) : (s.setC n x).tsk = s.tsk := rfl
@[simp] theorem State.setC_hif (s : State) (n : Nat) (x : ComSt) : (s.setC n x).hif = s.hif := rfl
@[simp] theorem State.setC_can (s : State) (n : Nat) (x : ComSt) : (s.setC n x).can = s.can := rfl
@[simp] theorem State.setC_seam (s : State) (n : Nat) (x : ComSt) : (s.setC n x).seam = s.seam := rfl
@[simp] theorem State.setC_fdl (s : State) (n : Nat) (x : ComSt) : (s.setC n x).fdl = s.fdl := rfl
@[simp] theorem State.setC_alm (s : State) (n : Nat) (x : ComSt) : (s.setC n x).alm = s.alm := rfl
@[simp] theorem State.setC_sec (s : State) (n : Nat) (x : ComSt) : (s.setC n x).sec = s.sec := rfl
@[simp] theorem State.setC_pwr (s : State) (n : Nat) (x : ComSt) : (s.setC n x).pwr = s.pwr := rfl
@[simp] theorem State.setC_mem (s : State) (n : Nat) (x : ComSt) : (s.setC n x).mem = s.mem := rfl
@[simp] theorem State.setC_fresh (s : State) (n : Nat) (x : ComSt) : (s.setC n x).fresh = s.fresh := rfl
@[simp] theorem State.setC_pending (s : State) (n : Nat) (x : ComSt) : (s.setC n x).pending = s.pending := rfl

@[simp] theorem State.setFb_regs (s : State) (n : Nat) (x : FbSt) : (s.setFb n x).regs = s.regs := rfl
@[simp] theorem State.setFb_dev (s : State) (n : Nat) (x : FbSt) : (s.setFb n x).dev = s.dev := rfl
@[simp] theorem State.setFb_time (s : State) (n : Nat) (x : FbSt) : (s.setFb n x).time = s.time := rfl
@[simp] theorem State.setFb_anv (s : State) (n : Nat) (x : FbSt) : (s.setFb n x).anv = s.anv := rfl
@[simp] theorem State.setFb_eng (s : State) (n : Nat) (x : FbSt) : (s.setFb n x).eng = s.eng := rfl
@[simp] theorem State.setFb_cec (s : State) (n : Nat) (x : FbSt) : (s.setFb n x).cec = s.cec := rfl
@[simp] theorem State.setFb_com (s : State) (n : Nat) (x : FbSt) : (s.setFb n x).com = s.com := rfl
@[simp] theorem State.setFb_fb (s : State) (n : Nat) (x : FbSt) : (s.setFb n x).fb = SMap.set {} s.fb n x := rfl
@[simp] theorem State.setFb_adc (s : State) (n : Nat) (x : FbSt) : (s.setFb n x).adc = s.adc := rfl
@[simp] theorem State.setFb_out (s : State) (n : Nat) (x : FbSt) : (s.setFb n x).out = s.out := rfl
@[simp] theorem State.setFb_so (s : State) (n : Nat) (x : FbSt) : (s.setFb n x).so = s.so := rfl
@[simp] theorem State.setFb_axs (s : State) (n : Nat) (x : FbSt) : (s.setFb n x).axs = s.axs := rfl
@[simp] theorem State.setFb_pair (s : State) (n : Nat) (x : FbSt) : (s.setFb n x).pair = s.pair := rfl
@[simp] theorem State.setFb_chk (s : State) (n : Nat) (x : FbSt) : (s.setFb n x).chk = s.chk := rfl
@[simp] theorem State.setFb_fcu (s : State) (n : Nat) (x : FbSt) : (s.setFb n x).fcu = s.fcu := rfl
@[simp] theorem State.setFb_intc (s : State) (n : Nat) (x : FbSt) : (s.setFb n x).intc = s.intc := rfl
@[simp] theorem State.setFb_tsk (s : State) (n : Nat) (x : FbSt) : (s.setFb n x).tsk = s.tsk := rfl
@[simp] theorem State.setFb_hif (s : State) (n : Nat) (x : FbSt) : (s.setFb n x).hif = s.hif := rfl
@[simp] theorem State.setFb_can (s : State) (n : Nat) (x : FbSt) : (s.setFb n x).can = s.can := rfl
@[simp] theorem State.setFb_seam (s : State) (n : Nat) (x : FbSt) : (s.setFb n x).seam = s.seam := rfl
@[simp] theorem State.setFb_fdl (s : State) (n : Nat) (x : FbSt) : (s.setFb n x).fdl = s.fdl := rfl
@[simp] theorem State.setFb_alm (s : State) (n : Nat) (x : FbSt) : (s.setFb n x).alm = s.alm := rfl
@[simp] theorem State.setFb_sec (s : State) (n : Nat) (x : FbSt) : (s.setFb n x).sec = s.sec := rfl
@[simp] theorem State.setFb_pwr (s : State) (n : Nat) (x : FbSt) : (s.setFb n x).pwr = s.pwr := rfl
@[simp] theorem State.setFb_mem (s : State) (n : Nat) (x : FbSt) : (s.setFb n x).mem = s.mem := rfl
@[simp] theorem State.setFb_fresh (s : State) (n : Nat) (x : FbSt) : (s.setFb n x).fresh = s.fresh := rfl
@[simp] theorem State.setFb_pending (s : State) (n : Nat) (x : FbSt) : (s.setFb n x).pending = s.pending := rfl

@[simp] theorem State.setO_regs (s : State) (n : Nat) (x : OutSt) : (s.setO n x).regs = s.regs := rfl
@[simp] theorem State.setO_dev (s : State) (n : Nat) (x : OutSt) : (s.setO n x).dev = s.dev := rfl
@[simp] theorem State.setO_time (s : State) (n : Nat) (x : OutSt) : (s.setO n x).time = s.time := rfl
@[simp] theorem State.setO_anv (s : State) (n : Nat) (x : OutSt) : (s.setO n x).anv = s.anv := rfl
@[simp] theorem State.setO_eng (s : State) (n : Nat) (x : OutSt) : (s.setO n x).eng = s.eng := rfl
@[simp] theorem State.setO_cec (s : State) (n : Nat) (x : OutSt) : (s.setO n x).cec = s.cec := rfl
@[simp] theorem State.setO_com (s : State) (n : Nat) (x : OutSt) : (s.setO n x).com = s.com := rfl
@[simp] theorem State.setO_fb (s : State) (n : Nat) (x : OutSt) : (s.setO n x).fb = s.fb := rfl
@[simp] theorem State.setO_adc (s : State) (n : Nat) (x : OutSt) : (s.setO n x).adc = s.adc := rfl
@[simp] theorem State.setO_out (s : State) (n : Nat) (x : OutSt) : (s.setO n x).out = SMap.set {} s.out n x := rfl
@[simp] theorem State.setO_so (s : State) (n : Nat) (x : OutSt) : (s.setO n x).so = s.so := rfl
@[simp] theorem State.setO_axs (s : State) (n : Nat) (x : OutSt) : (s.setO n x).axs = s.axs := rfl
@[simp] theorem State.setO_pair (s : State) (n : Nat) (x : OutSt) : (s.setO n x).pair = s.pair := rfl
@[simp] theorem State.setO_chk (s : State) (n : Nat) (x : OutSt) : (s.setO n x).chk = s.chk := rfl
@[simp] theorem State.setO_fcu (s : State) (n : Nat) (x : OutSt) : (s.setO n x).fcu = s.fcu := rfl
@[simp] theorem State.setO_intc (s : State) (n : Nat) (x : OutSt) : (s.setO n x).intc = s.intc := rfl
@[simp] theorem State.setO_tsk (s : State) (n : Nat) (x : OutSt) : (s.setO n x).tsk = s.tsk := rfl
@[simp] theorem State.setO_hif (s : State) (n : Nat) (x : OutSt) : (s.setO n x).hif = s.hif := rfl
@[simp] theorem State.setO_can (s : State) (n : Nat) (x : OutSt) : (s.setO n x).can = s.can := rfl
@[simp] theorem State.setO_seam (s : State) (n : Nat) (x : OutSt) : (s.setO n x).seam = s.seam := rfl
@[simp] theorem State.setO_fdl (s : State) (n : Nat) (x : OutSt) : (s.setO n x).fdl = s.fdl := rfl
@[simp] theorem State.setO_alm (s : State) (n : Nat) (x : OutSt) : (s.setO n x).alm = s.alm := rfl
@[simp] theorem State.setO_sec (s : State) (n : Nat) (x : OutSt) : (s.setO n x).sec = s.sec := rfl
@[simp] theorem State.setO_pwr (s : State) (n : Nat) (x : OutSt) : (s.setO n x).pwr = s.pwr := rfl
@[simp] theorem State.setO_mem (s : State) (n : Nat) (x : OutSt) : (s.setO n x).mem = s.mem := rfl
@[simp] theorem State.setO_fresh (s : State) (n : Nat) (x : OutSt) : (s.setO n x).fresh = s.fresh := rfl
@[simp] theorem State.setO_pending (s : State) (n : Nat) (x : OutSt) : (s.setO n x).pending = s.pending := rfl

@[simp] theorem State.setSo_regs (s : State) (n : Nat) (x : SoSt) : (s.setSo n x).regs = s.regs := rfl
@[simp] theorem State.setSo_dev (s : State) (n : Nat) (x : SoSt) : (s.setSo n x).dev = s.dev := rfl
@[simp] theorem State.setSo_time (s : State) (n : Nat) (x : SoSt) : (s.setSo n x).time = s.time := rfl
@[simp] theorem State.setSo_anv (s : State) (n : Nat) (x : SoSt) : (s.setSo n x).anv = s.anv := rfl
@[simp] theorem State.setSo_eng (s : State) (n : Nat) (x : SoSt) : (s.setSo n x).eng = s.eng := rfl
@[simp] theorem State.setSo_cec (s : State) (n : Nat) (x : SoSt) : (s.setSo n x).cec = s.cec := rfl
@[simp] theorem State.setSo_com (s : State) (n : Nat) (x : SoSt) : (s.setSo n x).com = s.com := rfl
@[simp] theorem State.setSo_fb (s : State) (n : Nat) (x : SoSt) : (s.setSo n x).fb = s.fb := rfl
@[simp] theorem State.setSo_adc (s : State) (n : Nat) (x : SoSt) : (s.setSo n x).adc = s.adc := rfl
@[simp] theorem State.setSo_out (s : State) (n : Nat) (x : SoSt) : (s.setSo n x).out = s.out := rfl
@[simp] theorem State.setSo_so (s : State) (n : Nat) (x : SoSt) : (s.setSo n x).so = SMap.set {} s.so n x := rfl
@[simp] theorem State.setSo_axs (s : State) (n : Nat) (x : SoSt) : (s.setSo n x).axs = s.axs := rfl
@[simp] theorem State.setSo_pair (s : State) (n : Nat) (x : SoSt) : (s.setSo n x).pair = s.pair := rfl
@[simp] theorem State.setSo_chk (s : State) (n : Nat) (x : SoSt) : (s.setSo n x).chk = s.chk := rfl
@[simp] theorem State.setSo_fcu (s : State) (n : Nat) (x : SoSt) : (s.setSo n x).fcu = s.fcu := rfl
@[simp] theorem State.setSo_intc (s : State) (n : Nat) (x : SoSt) : (s.setSo n x).intc = s.intc := rfl
@[simp] theorem State.setSo_tsk (s : State) (n : Nat) (x : SoSt) : (s.setSo n x).tsk = s.tsk := rfl
@[simp] theorem State.setSo_hif (s : State) (n : Nat) (x : SoSt) : (s.setSo n x).hif = s.hif := rfl
@[simp] theorem State.setSo_can (s : State) (n : Nat) (x : SoSt) : (s.setSo n x).can = s.can := rfl
@[simp] theorem State.setSo_seam (s : State) (n : Nat) (x : SoSt) : (s.setSo n x).seam = s.seam := rfl
@[simp] theorem State.setSo_fdl (s : State) (n : Nat) (x : SoSt) : (s.setSo n x).fdl = s.fdl := rfl
@[simp] theorem State.setSo_alm (s : State) (n : Nat) (x : SoSt) : (s.setSo n x).alm = s.alm := rfl
@[simp] theorem State.setSo_sec (s : State) (n : Nat) (x : SoSt) : (s.setSo n x).sec = s.sec := rfl
@[simp] theorem State.setSo_pwr (s : State) (n : Nat) (x : SoSt) : (s.setSo n x).pwr = s.pwr := rfl
@[simp] theorem State.setSo_mem (s : State) (n : Nat) (x : SoSt) : (s.setSo n x).mem = s.mem := rfl
@[simp] theorem State.setSo_fresh (s : State) (n : Nat) (x : SoSt) : (s.setSo n x).fresh = s.fresh := rfl
@[simp] theorem State.setSo_pending (s : State) (n : Nat) (x : SoSt) : (s.setSo n x).pending = s.pending := rfl

@[simp] theorem State.setA_regs (s : State) (n : Nat) (x : AxisSt) : (s.setA n x).regs = s.regs := rfl
@[simp] theorem State.setA_dev (s : State) (n : Nat) (x : AxisSt) : (s.setA n x).dev = s.dev := rfl
@[simp] theorem State.setA_time (s : State) (n : Nat) (x : AxisSt) : (s.setA n x).time = s.time := rfl
@[simp] theorem State.setA_anv (s : State) (n : Nat) (x : AxisSt) : (s.setA n x).anv = s.anv := rfl
@[simp] theorem State.setA_eng (s : State) (n : Nat) (x : AxisSt) : (s.setA n x).eng = s.eng := rfl
@[simp] theorem State.setA_cec (s : State) (n : Nat) (x : AxisSt) : (s.setA n x).cec = s.cec := rfl
@[simp] theorem State.setA_com (s : State) (n : Nat) (x : AxisSt) : (s.setA n x).com = s.com := rfl
@[simp] theorem State.setA_fb (s : State) (n : Nat) (x : AxisSt) : (s.setA n x).fb = s.fb := rfl
@[simp] theorem State.setA_adc (s : State) (n : Nat) (x : AxisSt) : (s.setA n x).adc = s.adc := rfl
@[simp] theorem State.setA_out (s : State) (n : Nat) (x : AxisSt) : (s.setA n x).out = s.out := rfl
@[simp] theorem State.setA_so (s : State) (n : Nat) (x : AxisSt) : (s.setA n x).so = s.so := rfl
@[simp] theorem State.setA_axs (s : State) (n : Nat) (x : AxisSt) : (s.setA n x).axs = SMap.set {} s.axs n x := rfl
@[simp] theorem State.setA_pair (s : State) (n : Nat) (x : AxisSt) : (s.setA n x).pair = s.pair := rfl
@[simp] theorem State.setA_chk (s : State) (n : Nat) (x : AxisSt) : (s.setA n x).chk = s.chk := rfl
@[simp] theorem State.setA_fcu (s : State) (n : Nat) (x : AxisSt) : (s.setA n x).fcu = s.fcu := rfl
@[simp] theorem State.setA_intc (s : State) (n : Nat) (x : AxisSt) : (s.setA n x).intc = s.intc := rfl
@[simp] theorem State.setA_tsk (s : State) (n : Nat) (x : AxisSt) : (s.setA n x).tsk = s.tsk := rfl
@[simp] theorem State.setA_hif (s : State) (n : Nat) (x : AxisSt) : (s.setA n x).hif = s.hif := rfl
@[simp] theorem State.setA_can (s : State) (n : Nat) (x : AxisSt) : (s.setA n x).can = s.can := rfl
@[simp] theorem State.setA_seam (s : State) (n : Nat) (x : AxisSt) : (s.setA n x).seam = s.seam := rfl
@[simp] theorem State.setA_fdl (s : State) (n : Nat) (x : AxisSt) : (s.setA n x).fdl = s.fdl := rfl
@[simp] theorem State.setA_alm (s : State) (n : Nat) (x : AxisSt) : (s.setA n x).alm = s.alm := rfl
@[simp] theorem State.setA_sec (s : State) (n : Nat) (x : AxisSt) : (s.setA n x).sec = s.sec := rfl
@[simp] theorem State.setA_pwr (s : State) (n : Nat) (x : AxisSt) : (s.setA n x).pwr = s.pwr := rfl
@[simp] theorem State.setA_mem (s : State) (n : Nat) (x : AxisSt) : (s.setA n x).mem = s.mem := rfl
@[simp] theorem State.setA_fresh (s : State) (n : Nat) (x : AxisSt) : (s.setA n x).fresh = s.fresh := rfl
@[simp] theorem State.setA_pending (s : State) (n : Nat) (x : AxisSt) : (s.setA n x).pending = s.pending := rfl

@[simp] theorem State.setPr_regs (s : State) (n : Nat) (x : PairSt) : (s.setPr n x).regs = s.regs := rfl
@[simp] theorem State.setPr_dev (s : State) (n : Nat) (x : PairSt) : (s.setPr n x).dev = s.dev := rfl
@[simp] theorem State.setPr_time (s : State) (n : Nat) (x : PairSt) : (s.setPr n x).time = s.time := rfl
@[simp] theorem State.setPr_anv (s : State) (n : Nat) (x : PairSt) : (s.setPr n x).anv = s.anv := rfl
@[simp] theorem State.setPr_eng (s : State) (n : Nat) (x : PairSt) : (s.setPr n x).eng = s.eng := rfl
@[simp] theorem State.setPr_cec (s : State) (n : Nat) (x : PairSt) : (s.setPr n x).cec = s.cec := rfl
@[simp] theorem State.setPr_com (s : State) (n : Nat) (x : PairSt) : (s.setPr n x).com = s.com := rfl
@[simp] theorem State.setPr_fb (s : State) (n : Nat) (x : PairSt) : (s.setPr n x).fb = s.fb := rfl
@[simp] theorem State.setPr_adc (s : State) (n : Nat) (x : PairSt) : (s.setPr n x).adc = s.adc := rfl
@[simp] theorem State.setPr_out (s : State) (n : Nat) (x : PairSt) : (s.setPr n x).out = s.out := rfl
@[simp] theorem State.setPr_so (s : State) (n : Nat) (x : PairSt) : (s.setPr n x).so = s.so := rfl
@[simp] theorem State.setPr_axs (s : State) (n : Nat) (x : PairSt) : (s.setPr n x).axs = s.axs := rfl
@[simp] theorem State.setPr_pair (s : State) (n : Nat) (x : PairSt) : (s.setPr n x).pair = SMap.set {} s.pair n x := rfl
@[simp] theorem State.setPr_chk (s : State) (n : Nat) (x : PairSt) : (s.setPr n x).chk = s.chk := rfl
@[simp] theorem State.setPr_fcu (s : State) (n : Nat) (x : PairSt) : (s.setPr n x).fcu = s.fcu := rfl
@[simp] theorem State.setPr_intc (s : State) (n : Nat) (x : PairSt) : (s.setPr n x).intc = s.intc := rfl
@[simp] theorem State.setPr_tsk (s : State) (n : Nat) (x : PairSt) : (s.setPr n x).tsk = s.tsk := rfl
@[simp] theorem State.setPr_hif (s : State) (n : Nat) (x : PairSt) : (s.setPr n x).hif = s.hif := rfl
@[simp] theorem State.setPr_can (s : State) (n : Nat) (x : PairSt) : (s.setPr n x).can = s.can := rfl
@[simp] theorem State.setPr_seam (s : State) (n : Nat) (x : PairSt) : (s.setPr n x).seam = s.seam := rfl
@[simp] theorem State.setPr_fdl (s : State) (n : Nat) (x : PairSt) : (s.setPr n x).fdl = s.fdl := rfl
@[simp] theorem State.setPr_alm (s : State) (n : Nat) (x : PairSt) : (s.setPr n x).alm = s.alm := rfl
@[simp] theorem State.setPr_sec (s : State) (n : Nat) (x : PairSt) : (s.setPr n x).sec = s.sec := rfl
@[simp] theorem State.setPr_pwr (s : State) (n : Nat) (x : PairSt) : (s.setPr n x).pwr = s.pwr := rfl
@[simp] theorem State.setPr_mem (s : State) (n : Nat) (x : PairSt) : (s.setPr n x).mem = s.mem := rfl
@[simp] theorem State.setPr_fresh (s : State) (n : Nat) (x : PairSt) : (s.setPr n x).fresh = s.fresh := rfl
@[simp] theorem State.setPr_pending (s : State) (n : Nat) (x : PairSt) : (s.setPr n x).pending = s.pending := rfl

@[simp] theorem State.setTu_regs (s : State) (n : Nat) (x : TskSt) : (s.setTu n x).regs = s.regs := rfl
@[simp] theorem State.setTu_dev (s : State) (n : Nat) (x : TskSt) : (s.setTu n x).dev = s.dev := rfl
@[simp] theorem State.setTu_time (s : State) (n : Nat) (x : TskSt) : (s.setTu n x).time = s.time := rfl
@[simp] theorem State.setTu_anv (s : State) (n : Nat) (x : TskSt) : (s.setTu n x).anv = s.anv := rfl
@[simp] theorem State.setTu_eng (s : State) (n : Nat) (x : TskSt) : (s.setTu n x).eng = s.eng := rfl
@[simp] theorem State.setTu_cec (s : State) (n : Nat) (x : TskSt) : (s.setTu n x).cec = s.cec := rfl
@[simp] theorem State.setTu_com (s : State) (n : Nat) (x : TskSt) : (s.setTu n x).com = s.com := rfl
@[simp] theorem State.setTu_fb (s : State) (n : Nat) (x : TskSt) : (s.setTu n x).fb = s.fb := rfl
@[simp] theorem State.setTu_adc (s : State) (n : Nat) (x : TskSt) : (s.setTu n x).adc = s.adc := rfl
@[simp] theorem State.setTu_out (s : State) (n : Nat) (x : TskSt) : (s.setTu n x).out = s.out := rfl
@[simp] theorem State.setTu_so (s : State) (n : Nat) (x : TskSt) : (s.setTu n x).so = s.so := rfl
@[simp] theorem State.setTu_axs (s : State) (n : Nat) (x : TskSt) : (s.setTu n x).axs = s.axs := rfl
@[simp] theorem State.setTu_pair (s : State) (n : Nat) (x : TskSt) : (s.setTu n x).pair = s.pair := rfl
@[simp] theorem State.setTu_chk (s : State) (n : Nat) (x : TskSt) : (s.setTu n x).chk = s.chk := rfl
@[simp] theorem State.setTu_fcu (s : State) (n : Nat) (x : TskSt) : (s.setTu n x).fcu = s.fcu := rfl
@[simp] theorem State.setTu_intc (s : State) (n : Nat) (x : TskSt) : (s.setTu n x).intc = s.intc := rfl
@[simp] theorem State.setTu_tsk (s : State) (n : Nat) (x : TskSt) : (s.setTu n x).tsk = SMap.set {} s.tsk n x := rfl
@[simp] theorem State.setTu_hif (s : State) (n : Nat) (x : TskSt) : (s.setTu n x).hif = s.hif := rfl
@[simp] theorem State.setTu_can (s : State) (n : Nat) (x : TskSt) : (s.setTu n x).can = s.can := rfl
@[simp] theorem State.setTu_seam (s : State) (n : Nat) (x : TskSt) : (s.setTu n x).seam = s.seam := rfl
@[simp] theorem State.setTu_fdl (s : State) (n : Nat) (x : TskSt) : (s.setTu n x).fdl = s.fdl := rfl
@[simp] theorem State.setTu_alm (s : State) (n : Nat) (x : TskSt) : (s.setTu n x).alm = s.alm := rfl
@[simp] theorem State.setTu_sec (s : State) (n : Nat) (x : TskSt) : (s.setTu n x).sec = s.sec := rfl
@[simp] theorem State.setTu_pwr (s : State) (n : Nat) (x : TskSt) : (s.setTu n x).pwr = s.pwr := rfl
@[simp] theorem State.setTu_mem (s : State) (n : Nat) (x : TskSt) : (s.setTu n x).mem = s.mem := rfl
@[simp] theorem State.setTu_fresh (s : State) (n : Nat) (x : TskSt) : (s.setTu n x).fresh = s.fresh := rfl
@[simp] theorem State.setTu_pending (s : State) (n : Nat) (x : TskSt) : (s.setTu n x).pending = s.pending := rfl

@[simp] theorem State.setCc_regs (s : State) (n : Nat) (x : CanSt) : (s.setCc n x).regs = s.regs := rfl
@[simp] theorem State.setCc_dev (s : State) (n : Nat) (x : CanSt) : (s.setCc n x).dev = s.dev := rfl
@[simp] theorem State.setCc_time (s : State) (n : Nat) (x : CanSt) : (s.setCc n x).time = s.time := rfl
@[simp] theorem State.setCc_anv (s : State) (n : Nat) (x : CanSt) : (s.setCc n x).anv = s.anv := rfl
@[simp] theorem State.setCc_eng (s : State) (n : Nat) (x : CanSt) : (s.setCc n x).eng = s.eng := rfl
@[simp] theorem State.setCc_cec (s : State) (n : Nat) (x : CanSt) : (s.setCc n x).cec = s.cec := rfl
@[simp] theorem State.setCc_com (s : State) (n : Nat) (x : CanSt) : (s.setCc n x).com = s.com := rfl
@[simp] theorem State.setCc_fb (s : State) (n : Nat) (x : CanSt) : (s.setCc n x).fb = s.fb := rfl
@[simp] theorem State.setCc_adc (s : State) (n : Nat) (x : CanSt) : (s.setCc n x).adc = s.adc := rfl
@[simp] theorem State.setCc_out (s : State) (n : Nat) (x : CanSt) : (s.setCc n x).out = s.out := rfl
@[simp] theorem State.setCc_so (s : State) (n : Nat) (x : CanSt) : (s.setCc n x).so = s.so := rfl
@[simp] theorem State.setCc_axs (s : State) (n : Nat) (x : CanSt) : (s.setCc n x).axs = s.axs := rfl
@[simp] theorem State.setCc_pair (s : State) (n : Nat) (x : CanSt) : (s.setCc n x).pair = s.pair := rfl
@[simp] theorem State.setCc_chk (s : State) (n : Nat) (x : CanSt) : (s.setCc n x).chk = s.chk := rfl
@[simp] theorem State.setCc_fcu (s : State) (n : Nat) (x : CanSt) : (s.setCc n x).fcu = s.fcu := rfl
@[simp] theorem State.setCc_intc (s : State) (n : Nat) (x : CanSt) : (s.setCc n x).intc = s.intc := rfl
@[simp] theorem State.setCc_tsk (s : State) (n : Nat) (x : CanSt) : (s.setCc n x).tsk = s.tsk := rfl
@[simp] theorem State.setCc_hif (s : State) (n : Nat) (x : CanSt) : (s.setCc n x).hif = s.hif := rfl
@[simp] theorem State.setCc_can (s : State) (n : Nat) (x : CanSt) : (s.setCc n x).can = SMap.set {} s.can n x := rfl
@[simp] theorem State.setCc_seam (s : State) (n : Nat) (x : CanSt) : (s.setCc n x).seam = s.seam := rfl
@[simp] theorem State.setCc_fdl (s : State) (n : Nat) (x : CanSt) : (s.setCc n x).fdl = s.fdl := rfl
@[simp] theorem State.setCc_alm (s : State) (n : Nat) (x : CanSt) : (s.setCc n x).alm = s.alm := rfl
@[simp] theorem State.setCc_sec (s : State) (n : Nat) (x : CanSt) : (s.setCc n x).sec = s.sec := rfl
@[simp] theorem State.setCc_pwr (s : State) (n : Nat) (x : CanSt) : (s.setCc n x).pwr = s.pwr := rfl
@[simp] theorem State.setCc_mem (s : State) (n : Nat) (x : CanSt) : (s.setCc n x).mem = s.mem := rfl
@[simp] theorem State.setCc_fresh (s : State) (n : Nat) (x : CanSt) : (s.setCc n x).fresh = s.fresh := rfl
@[simp] theorem State.setCc_pending (s : State) (n : Nat) (x : CanSt) : (s.setCc n x).pending = s.pending := rfl

@[simp] theorem State.wr_regs (s : State) (f : Fld) (v : Nat) : (s.wr f v).regs = SMap.set 0 s.regs f.key (v % 2 ^ f.w) := rfl
@[simp] theorem State.wr_dev (s : State) (f : Fld) (v : Nat) : (s.wr f v).dev = s.dev := rfl
@[simp] theorem State.wr_time (s : State) (f : Fld) (v : Nat) : (s.wr f v).time = s.time := rfl
@[simp] theorem State.wr_anv (s : State) (f : Fld) (v : Nat) : (s.wr f v).anv = s.anv := rfl
@[simp] theorem State.wr_eng (s : State) (f : Fld) (v : Nat) : (s.wr f v).eng = s.eng := rfl
@[simp] theorem State.wr_cec (s : State) (f : Fld) (v : Nat) : (s.wr f v).cec = s.cec := rfl
@[simp] theorem State.wr_com (s : State) (f : Fld) (v : Nat) : (s.wr f v).com = s.com := rfl
@[simp] theorem State.wr_fb (s : State) (f : Fld) (v : Nat) : (s.wr f v).fb = s.fb := rfl
@[simp] theorem State.wr_adc (s : State) (f : Fld) (v : Nat) : (s.wr f v).adc = s.adc := rfl
@[simp] theorem State.wr_out (s : State) (f : Fld) (v : Nat) : (s.wr f v).out = s.out := rfl
@[simp] theorem State.wr_so (s : State) (f : Fld) (v : Nat) : (s.wr f v).so = s.so := rfl
@[simp] theorem State.wr_axs (s : State) (f : Fld) (v : Nat) : (s.wr f v).axs = s.axs := rfl
@[simp] theorem State.wr_pair (s : State) (f : Fld) (v : Nat) : (s.wr f v).pair = s.pair := rfl
@[simp] theorem State.wr_chk (s : State) (f : Fld) (v : Nat) : (s.wr f v).chk = s.chk := rfl
@[simp] theorem State.wr_fcu (s : State) (f : Fld) (v : Nat) : (s.wr f v).fcu = s.fcu := rfl
@[simp] theorem State.wr_intc (s : State) (f : Fld) (v : Nat) : (s.wr f v).intc = s.intc := rfl
@[simp] theorem State.wr_tsk (s : State) (f : Fld) (v : Nat) : (s.wr f v).tsk = s.tsk := rfl
@[simp] theorem State.wr_hif (s : State) (f : Fld) (v : Nat) : (s.wr f v).hif = s.hif := rfl
@[simp] theorem State.wr_can (s : State) (f : Fld) (v : Nat) : (s.wr f v).can = s.can := rfl
@[simp] theorem State.wr_seam (s : State) (f : Fld) (v : Nat) : (s.wr f v).seam = s.seam := rfl
@[simp] theorem State.wr_fdl (s : State) (f : Fld) (v : Nat) : (s.wr f v).fdl = s.fdl := rfl
@[simp] theorem State.wr_alm (s : State) (f : Fld) (v : Nat) : (s.wr f v).alm = s.alm := rfl
@[simp] theorem State.wr_sec (s : State) (f : Fld) (v : Nat) : (s.wr f v).sec = s.sec := rfl
@[simp] theorem State.wr_pwr (s : State) (f : Fld) (v : Nat) : (s.wr f v).pwr = s.pwr := rfl
@[simp] theorem State.wr_mem (s : State) (f : Fld) (v : Nat) : (s.wr f v).mem = s.mem := rfl
@[simp] theorem State.wr_fresh (s : State) (f : Fld) (v : Nat) : (s.wr f v).fresh = s.fresh := rfl
@[simp] theorem State.wr_pending (s : State) (f : Fld) (v : Nat) : (s.wr f v).pending = s.pending := rfl

@[simp] theorem State.later_regs (s : State) (f : Raise) : (s.later f).regs = s.regs := rfl
@[simp] theorem State.later_dev (s : State) (f : Raise) : (s.later f).dev = s.dev := rfl
@[simp] theorem State.later_time (s : State) (f : Raise) : (s.later f).time = s.time := rfl
@[simp] theorem State.later_anv (s : State) (f : Raise) : (s.later f).anv = s.anv := rfl
@[simp] theorem State.later_eng (s : State) (f : Raise) : (s.later f).eng = s.eng := rfl
@[simp] theorem State.later_cec (s : State) (f : Raise) : (s.later f).cec = s.cec := rfl
@[simp] theorem State.later_com (s : State) (f : Raise) : (s.later f).com = s.com := rfl
@[simp] theorem State.later_fb (s : State) (f : Raise) : (s.later f).fb = s.fb := rfl
@[simp] theorem State.later_adc (s : State) (f : Raise) : (s.later f).adc = s.adc := rfl
@[simp] theorem State.later_out (s : State) (f : Raise) : (s.later f).out = s.out := rfl
@[simp] theorem State.later_so (s : State) (f : Raise) : (s.later f).so = s.so := rfl
@[simp] theorem State.later_axs (s : State) (f : Raise) : (s.later f).axs = s.axs := rfl
@[simp] theorem State.later_pair (s : State) (f : Raise) : (s.later f).pair = s.pair := rfl
@[simp] theorem State.later_chk (s : State) (f : Raise) : (s.later f).chk = s.chk := rfl
@[simp] theorem State.later_fcu (s : State) (f : Raise) : (s.later f).fcu = { s.fcu with todo := s.fcu.todo ++ [f] } := rfl
@[simp] theorem State.later_intc (s : State) (f : Raise) : (s.later f).intc = s.intc := rfl
@[simp] theorem State.later_tsk (s : State) (f : Raise) : (s.later f).tsk = s.tsk := rfl
@[simp] theorem State.later_hif (s : State) (f : Raise) : (s.later f).hif = s.hif := rfl
@[simp] theorem State.later_can (s : State) (f : Raise) : (s.later f).can = s.can := rfl
@[simp] theorem State.later_seam (s : State) (f : Raise) : (s.later f).seam = s.seam := rfl
@[simp] theorem State.later_fdl (s : State) (f : Raise) : (s.later f).fdl = s.fdl := rfl
@[simp] theorem State.later_alm (s : State) (f : Raise) : (s.later f).alm = s.alm := rfl
@[simp] theorem State.later_sec (s : State) (f : Raise) : (s.later f).sec = s.sec := rfl
@[simp] theorem State.later_pwr (s : State) (f : Raise) : (s.later f).pwr = s.pwr := rfl
@[simp] theorem State.later_mem (s : State) (f : Raise) : (s.later f).mem = s.mem := rfl
@[simp] theorem State.later_fresh (s : State) (f : Raise) : (s.later f).fresh = s.fresh := rfl
@[simp] theorem State.later_pending (s : State) (f : Raise) : (s.later f).pending = s.pending := rfl

@[simp] theorem State.e_setE (s : State) (n m : Nat) (x : EngSt) : (s.setE n x).e m = if n = m then x else s.e m :=
  SMap.get_set ..
@[simp] theorem State.c_setC (s : State) (n m : Nat) (x : ComSt) : (s.setC n x).c m = if n = m then x else s.c m :=
  SMap.get_set ..
@[simp] theorem State.fbc_setFb (s : State) (n m : Nat) (x : FbSt) : (s.setFb n x).fbc m = if n = m then x else s.fbc m :=
  SMap.get_set ..
@[simp] theorem State.o_setO (s : State) (n m : Nat) (x : OutSt) : (s.setO n x).o m = if n = m then x else s.o m :=
  SMap.get_set ..
@[simp] theorem State.sout_setSo (s : State) (n m : Nat) (x : SoSt) : (s.setSo n x).sout m = if n = m then x else s.sout m :=
  SMap.get_set ..
@[simp] theorem State.a_setA (s : State) (n m : Nat) (x : AxisSt) : (s.setA n x).a m = if n = m then x else s.a m :=
  SMap.get_set ..
@[simp] theorem State.pr_setPr (s : State) (n m : Nat) (x : PairSt) : (s.setPr n x).pr m = if n = m then x else s.pr m :=
  SMap.get_set ..
@[simp] theorem State.tu_setTu (s : State) (n m : Nat) (x : TskSt) : (s.setTu n x).tu m = if n = m then x else s.tu m :=
  SMap.get_set ..
@[simp] theorem State.cc_setCc (s : State) (n m : Nat) (x : CanSt) : (s.setCc n x).cc m = if n = m then x else s.cc m :=
  SMap.get_set ..

/-- A field written leaves every other part of the state. -/
theorem State.wr_frame (s : State) (f : Fld) (v : Nat) : { s.wr f v with regs := s.regs } = s := rfl

/-- Replacing a unit leaves every field and every byte. -/
theorem State.rd_setE (s : State) (n : Nat) (x : EngSt) (f : Fld) : (s.setE n x).rd f = s.rd f := rfl

/-- The clock advanced with no remainder to slew: LT gains the edges, FT and the clock count them, the safe outputs note what they
were commanded, and nothing else changes. -/
theorem advance_plain (n : Nat) (s : State) (h : s.time.rem = 0) :
    advance n s = { s with so := if n = 0 then s.so else s.soNoted, time := { s.time with
      lt := s.time.lt + BitVec.ofInt 96 (s.edge * n), ft := s.time.ft + n, clk := s.time.clk + n } } := by
  have e : slewMoved 0 n = 0 := by unfold slewMoved; simp; positivity
  unfold advance State.when
  simp [h, e]

/-- An interrupt event writes registers and the fault unit's list only. -/
theorem irq_frame (src : Nat) (s : State) : irq src s = { s with regs := (irq src s).regs, fcu := (irq src s).fcu } := by
  unfold irq
  split <;> rfl

/-- The clock advanced writes the clock, registers, the fault unit's list and what the safe outputs note, nothing else. -/
theorem advance_frame (n : Nat) (s : State) :
    advance n s = { s with regs := (advance n s).regs, fcu := (advance n s).fcu, time := (advance n s).time,
                           so := if n = 0 then s.so else s.soNoted } := by
  unfold advance State.when
  dsimp only
  split
  · rw [irq_frame]
    simp only [State.put, State.wr]
  · rfl

/-- The clock counts the edges. -/
theorem advance_clk (n : Nat) (s : State) : (advance n s).time.clk = s.time.clk + n := by
  unfold advance State.when
  dsimp only
  split
  · rw [irq_frame]; rfl
  · rfl

end Sys2Proof.Machine
end

