-- ==== Sys2Proof/Tests/Slice0.lean ====
section
/-! SUPPORT. The model's own tests: ill-formed commands the checks refuse, values worked out from the rules of spec/, and for
every statement with hypotheses states and operands that meet the hypotheses of each of its clauses. -/
namespace Sys2Proof.Machine

set_option Elab.async false

/-- The machine after reset but for its register file, in which every field reads 0 but the domains, all ON, and the frame and
cycle length: small enough to compute with. -/
def small : State :=
  { State.reset with regs := [(Reg.PWR_DOM.key, 0xAAAAAA), (Reg.TIME_FRAME.key, 20000), (Reg.TIME_CYCLE.key, 4)] }

/-- That machine with register fields written. -/
def regsSet (fs : List (Fld × Nat)) : State := fs.foldl (fun s p => s.wr p.1 p.2) small

/-- The Anvil runs mode 0, whose four entries begin with e; FT is 0. -/
def anvOn (e : Nat) : State :=
  setAnv { State.reset.anv with endReached := false, table := [(0, e + 1)].map fun p => (p.1, p.2 - 1) }
    (regsSet [(Reg.ANV_STAT_RUNNING, 1), (Reg.ANV_MODEn_LENM1 0, 3)])

/-- Engine n is busy at program word w. -/
def engOn (n w : Nat) : State :=
  (small.wrBit Reg.CEC_STAT_BUSY n true).setE n { prog := [(0, w)] }

/-- What a command answers, as a test of its next state. -/
def runs' (c : Instr) (s : State) (p : State → Bool) : Bool :=
  match exec c s with
  | .next t => p t
  | _ => false

/-! ### Ill-formed commands -/

/-- A container of zeros with the given numbers of header, signature and payload words. -/
def someContainer (hdr sig payload : Nat) : Container :=
  { hdr := List.replicate hdr 0, payload := List.replicate payload 0, sig := List.replicate sig 0, rsaOk := true, slhOk := true }

theorem test_wf_container_whole : (someContainer 16 4260 4).wf = true := by decide +kernel
theorem test_wf_container_header : (someContainer 15 4260 4).wf = false := by decide +kernel
theorem test_wf_container_signatures : (someContainer 16 4259 4).wf = false := by decide +kernel
theorem test_wf_container_blocks : (someContainer 16 4260 3).wf = false := by decide +kernel
theorem test_wf_load : (Instr.keys (someContainer 16 4260 5)).wf = false := by decide +kernel
theorem test_wf_access_size : sizeWf 4 = true ∧ sizeWf 3 = false := by decide

/-- A Fudorlink frame with n payload words. -/
def someFrame (n : Nat) : FdlFrame :=
  { port := 0, codeOk := true, hops := 0, hops2 := 0, slot := 0, node := 0, star := 0, mode := 0, null := false, claim := 0,
    pv := false, pmode := 0, rv := false, rmode := 0, cv := false, cmode := 0, cn := 0, payload := List.replicate n 0, crc := 0,
    sof := 0 }

theorem test_wf_frame : (Instr.dataFrame (someFrame 64)).wf = true ∧ (Instr.dataFrame (someFrame 65)).wf = false := by decide
theorem test_wf_command_frame : (Instr.commandFrame [someFrame 1, someFrame 65]).wf = false := by decide

/-- A CAN frame of length code n with k data bytes. -/
def someCan (fdf rtr : Bool) (n : Fin 65) (k : Nat) : CanRx :=
  { id := 0, ide := false, fdf := fdf, brs := false, esi := false, rtr := rtr, len := n, data := List.replicate k 0, sof := 0 }

theorem test_wf_can_data : (someCan false false 8 8).wf = true ∧ (someCan false false 8 7).wf = false := by decide
theorem test_wf_can_fd_remote : (someCan true true 0 0).wf = false := by decide
theorem test_wf_can_classic_length : (someCan false false 12 12).wf = false := by decide
/-- The characters of a Seam frame about its payload. -/
def someHead : SeamHead := { codeOk := true, ty := 0, seq := 0, len := 0, tag := 0, crc := 0 }

theorem test_wf_segments : (Instr.stateSegment 0 someHead (List.replicate 257 0)).wf = false ∧
    (Instr.bulkSegment 0 someHead (List.replicate 257 0)).wf = false := by decide +kernel
theorem test_wf_overrate : (Instr.overrate 0 [255, 0]).wf = false ∧ (Instr.overrate 0 [300, 255]).wf = true ∧
    (Instr.overrate 0 [300, 256]).wf = false := by decide +kernel
theorem test_wf_trips : (Instr.linkDelayMeasurement 0 [1] 0).wf = false := by decide
theorem test_wf_again : (Instr.inputExchange 0 0 (.load 0x40020014) (0, 0) [(0, 0), (0, 0), (0, 0), (0, 0)] false .ok).wf = false := by decide
theorem test_wf_descriptor :
    (Instr.descriptorFetch 0 0 { desc := List.replicate 9 0, data := [], descOk := true, dataOk := true }).wf = false := by decide
theorem test_no_word_spells_a_command (nbits w : Nat) : decodeTableWord nbits w = none := rfl

/-! ### Time -/

theorem wit_TimeOffsetAndLoad :
    (let s := { small with time := { small.time with rem := 1 } }; s.runs = true ∧ s.time.rem ≠ 0 ∧
      runs' .slewEnd s (fun t => t.time.rem = 0 ∧ t.time.ofs = 1 ∧ t.pends 218) = true) ∧
    (small.runs = true ∧ small.calm ∧ small.on Reg.FDL_CTRL_EN = false ∧
      runs' (.offsetRequest 5) small (fun t => t.time.ofsArmed ∧ t.rd Reg.TIME_OFS_REQ_I = 5) = true) ∧
    (let s := regsSet [(Reg.FDL_CTRL_EN, 1)]; s.runs = true ∧ s.calm ∧ s.on Reg.FDL_CTRL_EN = true) ∧
    (let s := regsSet [(Reg.TIME_CT_SET_L, 50000)]; s.runs = true ∧ s.on Reg.ANV_CTRL_RUN = false ∧
      s.on Reg.ANV_STAT_RUNNING = false ∧
      runs' .ctLoad s (fun t => t.ct = 50000 * 2 ^ 32 ∧ t.time.fc = 2 ∧ t.pends 217) = true) ∧
    (let s := regsSet [(Reg.ANV_CTRL_RUN, 1)]; s.runs = true ∧ s.calm ∧
      (s.on Reg.ANV_CTRL_RUN || s.on Reg.ANV_STAT_RUNNING) = true) ∧
    (small.runs = true ∧ small.calm ∧ hasShadow .ac0 = true) ∧
    (small.runs = true ∧ small.calm ∧ small.on Reg.TIME_CTRL_LOCK = false ∧
      small.on Reg.ANV_STAT_RUNNING = false ∧
      runs' (.frameCycleWrite false 4000) small (fun t => t.frameTicks = 4000) = true ∧
      runs' (.frameCycleWrite false 1000000) small (fun t => t.frameTicks = 1000000) = true ∧
      runs' (.frameCycleWrite false 3999) small (fun t => t.on Reg.TIME_STAT_WDENY) = true ∧
      runs' (.frameCycleWrite false 1000001) small (fun t => t.on Reg.TIME_STAT_WDENY) = true ∧
      runs' (.frameCycleWrite true 256) small (fun t => t.cycleFrames = 256) = true ∧
      runs' (.frameCycleWrite true 0) small (fun t => t.on Reg.TIME_STAT_WDENY) = true) ∧
    (let s := regsSet [(Reg.ANV_STAT_RUNNING, 1)]; s.runs = true ∧ s.calm ∧ s.on Reg.TIME_CTRL_LOCK = false ∧
      s.on Reg.ANV_STAT_RUNNING = true) ∧
    (let s := regsSet [(Reg.TIME_CTRL_LOCK, 1)]; s.runs = true ∧ s.on Reg.TIME_CTRL_LOCK = true ∧
      runs' (.frameCycleWrite false 4000) s (fun t => t.frameTicks = s.frameTicks) = true) ∧
    (let s := regsSet [(Reg.TIME_STAT_ON_RC, 0), (Reg.FDL_STAT_SSTATE, ssSYNC)]; s.on Reg.TIME_STAT_ON_RC = false ∧ s.live pdNET = true ∧
      s.sstate = ssSYNC ∧ runs' .oscFallback s (fun t => t.sstate = ssLOST ∧ t.isHeld Fc.OSC_FALLBACK) = true) := by
  refine ⟨?_, ?_, ?_, ?_, ?_, ?_, ?_, ?_, ?_, ?_⟩ <;> decide +kernel

theorem wit_FrameTickCountsFrame :
    small.runs = true ∧ runs' .frameTick small (fun t => t.time.fc = 1 ∧ t.time.ft = 0) = true := by decide +kernel

/-! ### Anvil -/

/-- An entry of opcode op with operand bits x from bit 40. -/
def entry (op x : Nat) : Nat := op * 2 ^ 20 + x * 2 ^ 40

theorem wit_AnvilDataEntries :
    (∀ op ∈ [opSAMPLE, opCAPTURE, opRUN, opAWAIT, opRECORD], (anvOn (entry op 0)).atEntry op (entry op 0)) ∧
    (let e := entry opMOVE 0; (anvOn e).atEntry opMOVE e ∧ (anvTo ((anvOn e).issueAt e) (anvOn e)).anv.moveQ.length < 16) ∧
    (let e := entry opMOVE 0;
      let s := setAnv { (anvOn e).anv with moveQ := List.replicate 16 { src := 0, dst := 0, len := 2048, issued := 0 } } (anvOn e);
      s.atEntry opMOVE e ∧ 16 ≤ (anvTo (s.issueAt e) s).anv.moveQ.length) ∧
    (let e := entry opEXCHANGE 0; (anvOn e).atEntry opEXCHANGE e ∧ enNet e = false ∧
      enDir e = false) ∧
    (let e := entry opEXCHANGE 64; (anvOn e).atEntry opEXCHANGE e ∧ enNet e = false ∧ enDir e = true) ∧
    (let e := entry opEXCHANGE 128; (anvOn e).atEntry opEXCHANGE e ∧ enNet e = true) := by
  decide +kernel

theorem wit_AnvilOutputEntries :
    (∀ op ∈ [opCHECK, opPUBLISH, opLAUNCH, opSIGNAL, opMODE, opNOP, opEND], (anvOn (entry op 0)).atEntry op (entry op 0)) ∧
    (let e := entry opPUBLISH 0; (anvTo ((anvOn e).issueAt e) (anvOn e)).anv.moveQ.length < 16) ∧
    (let e := entry opPUBLISH 0;
      let s := setAnv { (anvOn e).anv with moveQ := List.replicate 16 { src := 0, dst := 0, len := 2048, issued := 0 } } (anvOn e);
      s.atEntry opPUBLISH e ∧ 16 ≤ (anvTo (s.issueAt e) s).anv.moveQ.length) ∧
    (let e := entry opLAUNCH 0;
      let s := setAnv { (anvOn e).anv with launchOff := true, ovrNow := true, ovrHist := [true] } (anvOn e);
      s.atEntry opNOP e ∧ s.acts e = true ∧ s.overranBefore = true ∧
      runs' (.anvNop .ok) s (fun t => tb t.fcu.supReq 0) = true) := by
  decide +kernel

/-- An AWAIT of engine 0 with deadline d holds the table. -/
def holding (d : Nat) : State :=
  let s := anvOn (entry opAWAIT 1 + d * 2 ^ 64);
  setAnv { s.anv with hold := true } s

theorem wit_AnvilRunStopAndErrors :
    (small.live pdANV = true ∧ small.calm) ∧
    (let s := regsSet [(Reg.ANV_CTRL_RUN, 1), (Reg.ANV_STAT_VALID, 1), (Reg.TIME_STAT_CT_VALID, 1)];
      s.live pdANV = true ∧ s.startOk = false ∧
      let s := setAnv { s.anv with runSeen := true } { s with dev := { s.dev with state := .standby } };
      s.on Reg.ANV_STAT_RUNNING = false ∧ s.dev.state ≠ .boot ∧ s.dev.state ≠ .assay ∧
      s.modeValid (s.rd Reg.ANV_CTRL_START_MODE) = true ∧ s.anv.runSeen = true ∧
      s.time.ft = 0 ∧ s.fidx = 0 ∧ runs' .anvilStart s (fun t => t.on Reg.ANV_STAT_RUNNING) = true) ∧
    (let s : State := setAnv { small.anv with stopReq := true } (regsSet [(Reg.ANV_STAT_RUNNING, 1)]);
      s.live pdANV = true ∧ s.calm ∧ s.on Reg.ANV_STAT_RUNNING = true ∧ s.anv.stopReq = true ∧ s.anv.endReached = true) ∧
    (let s := regsSet [(Reg.ANV_SCRUB, 1), (Reg.ANV_STAT_VALID, 1)];
      s.live pdANV = true ∧ s.on Reg.ANV_SCRUB = true ∧ s.calm ∧ s.modeValid 0 = true ∧
      s.rd (Reg.ANV_MODEn_BASE 0) ≤ s.anv.scrub ∧
      s.anv.scrub ≤ s.rd (Reg.ANV_MODEn_BASE 0) + s.rd (Reg.ANV_MODEn_LENM1 0) ∧
      s.nextEntry = none ∧ s.inFrame (s.time.clk + (s.scrubAt - s.time.ft)) = true ∧ (anvTo s.scrubAt s).calm ∧
      (let s := { anvOn 0 with regs := (anvOn 0).regs ++ [(Reg.ANV_SCRUB.key, 1)] }
       s.nextEntry = some 0 ∧ ¬ s.scrubAt < s.issueAt 0) ∧
      (let s := s.put Reg.ANV_STAT_RUNNING true;
        runs' (.scrubRead .uncorrectable) s (fun t => t.on Reg.ANV_STAT_OVR && t.isHeld Fc.ECC_UNCORR) = true)) ∧
    (let m : Move := { src := 0x42000000, dst := 0x42000100, len := 1, issued := 0 };
      let s := setAnv { small.anv with moveQ := [m] } small;
      s.live pdANV = true ∧ s.anv.moveQ = m :: [] ∧ engSpan m.dst 4 = some 0 ∧
      runs' (.moveCopyDone .ok) (s.setE 0 { data := [(0, 5)] }) (fun t => SMap.get 0 (t.e 0).data 64 = 5) = true) ∧
    (let m : Move := { src := 0x01000000, dst := 0x20000000, len := 1, issued := 0 };
      let s := setAnv { small.anv with moveQ := [m] } small;
      s.anv.moveQ = m :: [] ∧ engSpan m.dst 4 = none ∧ s.on Reg.HIF_CFG_EVTEN = false) ∧
    (let s := (holding 100).wrBit Reg.CEC_STAT_DONE 0 true;
      ∃ e, s.live pdANV = true ∧ s.holding = some e ∧ (anvTo (max s.time.ft s.anv.freeClk) s).awaitDone e = true ∧
        max s.time.ft s.anv.freeClk ≤ s.failAt e) ∧
    (∃ e, (holding 100).live pdANV = true ∧ (holding 100).holding = some e ∧
      (anvTo ((holding 100).failAt e) (holding 100)).awaitDone e = false) ∧
    ((anvOn 0).live pdANV = true ∧ (anvOn 0).nextEntry = some 0) := by
  refine ⟨by decide +kernel, by decide +kernel, by decide +kernel, by decide +kernel, by decide +kernel, by decide +kernel,
    ⟨entry opAWAIT 1 + 100 * 2 ^ 64, by decide +kernel⟩, ⟨entry opAWAIT 1 + 100 * 2 ^ 64, by decide +kernel⟩, by decide +kernel⟩

/-! ### Control engines -/

/-- An engine program word of opcode op. -/
def ew (op : Nat) : Nat := op * 2 ^ 56

theorem wit_EngineInstructionsRetire :
    (let s := (engOn 7 (ew 0x49)).setE 7 { prog := [(0, ew 0x49)], coef := [(0, 64)] };
      s.atWord 7 0x49 ∧ 1 ≤ (s.e 7).v (ewK (s.e 7).word) ∧ (s.e 7).v (ewK (s.e 7).word) ≤ 64 ∧ ¬ s.atWord 7 0x4A) ∧
    (let s := (engOn 7 (ew 0x4A)).setE 7 { prog := [(0, ew 0x4A)], coef := [(1, 1), (3, 1)] };
      s.atWord 7 0x4A ∧ ∀ i < 4, ([0, 1, 0, 1] : List Int).getD i 0 ≤ (s.e 7).v (ewK (s.e 7).word + i) ∧
        (s.e 7).v (ewK (s.e 7).word + i) ≤ ([2147483647, 65535, 65535, 1048576] : List Int).getD i 0) ∧
    (small.live (engDomain 0) = true ∧ small.live (engDomain 7) = true ∧ small.calm) ∧
    ∀ op ∈ [0x00, 0x01, 0x02, 0x03, 0x04, 0x10, 0x11, 0x12, 0x13, 0x14, 0x15, 0x16, 0x20, 0x21, 0x22, 0x23, 0x24, 0x25, 0x30,
        0x31, 0x32, 0x33, 0x38, 0x39, 0x3A, 0x40, 0x41, 0x42, 0x43, 0x44, 0x45, 0x46, 0x47, 0x48, 0x49, 0x4A],
      let s := engOn 7 (ew op);
      s.atWord 7 op ∧ s.calm := by
  refine ⟨?_, ?_, ?_, ?_⟩ <;> decide +kernel

/-- The lanes and the words a result statement speaks of: an instruction of two lanes that writes words 4 and 5. -/
theorem wit_EngineArithmeticResults :
    let w := ew 0x10 + 2 ^ 54 + 4 * 2 ^ 28;
    ewLanes w = 2 ∧ (0 < ewLanes w) ∧ 6 % 16384 ≠ ewD w % 16384 ∧ (∀ i < ewLanes w, 6 % 16384 ≠ (ewD w + i) % 16384) := by
  decide +kernel

theorem wit_EngineErrorsAndCompletion :
    (let s := engOn 0 (ew 0x10); s.live (engDomain 0) = true ∧ s.engLive 0 = true ∧ validWord (s.e 0).word = true ∧
      ewOp (s.e 0).word = 0x10 ∧ s.on Reg.CEC_ECC_UNC = false) ∧
    (let s := engOn 7 (ew 0xFF); s.live (engDomain 7) = true ∧ s.engLive 7 = true ∧ validWord (s.e 7).word = false) ∧
    (let s := (engOn 3 0).setE 3 { ended := true, fcst := true, sat := true };
      s.live (engDomain 3) = true ∧ s.bit Reg.CEC_STAT_BUSY 3 = true ∧ (s.e 3).ended = true ∧ (s.e 3).fcst = true ∧
      (s.e 3).fcstPrev = false ∧ (s.e 3).sat = true ∧
      runs' (.engineCompletion 3 false) s (fun t => t.isHeld (Fc.FORECAST 3) ∧ t.pends 44 ∧ t.pends 45 ∧ t.pends 46) = true) ∧
    (small.runs = true ∧ small.calm) := by
  decide +kernel

/-! ### Commutation, ADC, feedback -/

/-- A plan of axis 3 whose windows are both requested. -/
def somePlan : ShuntPlan :=
  { peak := 10000, valley := 20000, f := 0, m := 1, l := 2, wa := 500, wb := 500, atA := 11000, atB := 12000, closeA := 11900,
    closeB := 12900, dueA := true, dueB := true }

theorem wit_ShuntSampling :
    (let s := regsSet [(Reg.COM_An_CFG_MEAS 0, 1)]; s.live pdOUT = true ∧ s.rd (Reg.COM_An_CFG_MEAS 0) = 1 ∧
      runs' (.samplingPlan 0) s (fun t => (t.c 0).plan.isSome) = true) ∧
    (let s := small.setC 3 { plan := some somePlan }; s.live pdOUT = true ∧ (s.c 3).plan = some somePlan ∧
      (if true then somePlan.dueB else somePlan.dueA) = true ∧ (if false then somePlan.dueB else somePlan.dueA) = true ∧
      s.shuntTurn 3 false = true ∧ s.shuntTurn 3 true = false ∧
      runs' (.shuntConversion 3 false 9000) s (fun t => (t.c 3).plan.any fun p => p.sa.isSome) = true ∧
      runs' (.shuntSetComplete 3) s (fun t => (t.c 3).fresh) = true) ∧
    (let s := (regsSet [(Reg.COM_An_STAT_PRED_RUN 3, 4), (Reg.COM_An_CFG_NPRED 3, 3), (Reg.SYS_AXn_STAT_STATE 3, axRUNNING)]).setC 3
        { plan := some somePlan };
      runs' (.shuntSetComplete 3) s (fun t => t.rd (Reg.COM_An_STAT_PRED_RUN 3) = 5 ∧ t.on (Reg.COM_An_STAT_STARVED 3)) = true) := by
  refine ⟨?_, ?_, ?_⟩ <;> decide +kernel

theorem wit_DcLinkAndChopper :
    (small.live pdOUT = true ∧ small.calm ∧ (small.c 0).vdcIn = [] ∧ (small.c 0).ichIn = []) ∧
    (let s := regsSet [(Reg.COM_An_VDC2_HI2 0, 500), (Reg.COM_An_VDC2_TRIP 0, 600), (Reg.COM_An_VDC1_HI1 0, 400),
        (Reg.COM_An_VDC1_HYST 0, 10), (Reg.COM_An_CHOP_CH_EN 0, 1), (Reg.COM_An_VDCG_FILT 0, 0), (Reg.OUT_An_CFG_PINEN 0, 1)];
      runs' (.dcLinkResult 0) (s.setC 0 { vdcIn := [(1, 599)] }) (fun t => t.on (Reg.COM_An_STAT_REGEN_CLAMP 0) ∧ t.pends 96 ∧
        t.on (Reg.COM_An_STAT_CHOP_ON 0) ∧ ! t.on (Reg.COM_An_STAT_TRIP 0)) = true ∧
      s.on (Reg.COM_An_STAT_REGEN_CLAMP 0) = false ∧ (s.c 0).above = false ∧ s.dev.state ≠ .replay ∧
      runs' (.dcLinkResult 0) (s.setC 0 { vdcIn := [(1, 600)] }) (fun t => t.on (Reg.COM_An_STAT_TRIP 0) ∧
        t.isHeld (Fc.VDC_TRIP 0) ∧ tb t.fcu.supReq 0) = true) ∧
    (let s := regsSet [(Reg.COM_An_CHOP_CH_EN 0, 1), (Reg.COM_An_STAT_CHOP_ON 0, 1), (Reg.COM_An_CHOP_IMIN 0, 5),
        (Reg.COM_An_CHOP_ISRC 0, 1)];
      runs' (.chopperCurrentResult 0) (s.setC 0 { ichIn := [(8000, 4)] }) (fun t => t.isHeld (Fc.CHOPPER_FAULT 0)) = true ∧
      runs' (.chopperCurrentResult 0) (s.setC 0 { ichIn := [(8000, 5)] }) (fun t => ! t.isHeld (Fc.CHOPPER_FAULT 0)) = true ∧
      (s.c 0).chopChecked = false ∧ runs' (.chopperNoFallCheck 0) s (fun t => t.isHeld (Fc.CHOPPER_FAULT 0)) = true) := by
  refine ⟨?_, ?_, ?_⟩ <;> decide +kernel

theorem wit_AnalogConversions :
    small.live pdANA = true ∧
    (let w : GConv := ⟨0, 0, 8, 0, 0, false⟩;
      let s := { small with adc := { small.adc with wait := [w] } };
      s.nextGroupConv 1 = some (w, 0) ∧ s.nextGroupConv 0 = none ∧ w.ch < 48 ∧
      s.adc.wait.find? (fun w : GConv => w.g = 0 && w.k = 0) = some w ∧ s.bit Reg.ADC_STAT_DROP 1 = false ∧
      runs' (.adcConversionDone 8 1) s (fun t => t.pends 112 ∧ t.adc.wait = []) = true ∧
      let s := { s with adc := { s.adc with free := [(1, 401)] } };
      s.nextGroupConv 1 = some (w, 401) ∧
      runs' (.groupConversionDrop 0 0) s (fun t => t.bit Reg.ADC_STAT_DROP 1 ∧ t.isHeld (Fc.ADC_DROP 1)) = true) ∧
    (let s := regsSet [(Reg.ADC_Gg_CFG_TRIG 15, 1)]; s.rd (Reg.ADC_Gg_CFG_TRIG 15) ≠ 0) ∧
    (let s := { regsSet [(Reg.ADC_SDCKk_EN 0, 1), (Reg.ADC_SDn_EN 23, 1)] with adc := { small.adc with sinc := [(23, { same := 1 })] } };
      s.sdRuns 23 = true ∧ s.calm ∧
      runs' (.sdStuck 23 0) s (fun t => t.isHeld (Fc.SD_STUCK 23) ∧ t.pends 125) = true) ∧
    (let s := { regsSet [(Reg.ADC_SDCKk_EN 0, 1), (Reg.ADC_SDn_EN 23, 1)] with
        adc := { small.adc with sdCount := [(23, 3)], sdEnd := [(23, 1)] } };
      s.sdRuns 23 = true ∧ SMap.get 0 s.adc.sdEnd 23 ≠ 0 ∧
      runs' (.sinc3Result 23 (BitVec.allOnes 256)) s (fun t => (SMap.get {} t.adc.sinc 23 : SincSt).i1 = s.sdD 23) = true) ∧
    (let s := regsSet [(Reg.ADC_CSA_EN 3, 1), (Reg.ADC_SSUP_EN, 8)]; s.on (Reg.ADC_CSA_EN 3) = true ∧ s.ssupOn 3 = true ∧
      runs' (.ssupFault 3) s (fun t => ! t.ssupOn 3 ∧ t.isHeld (Fc.SSUP_FAULT 3)) = true) ∧
    (let s := regsSet [(Reg.PWR_DOM, 0)]; s.live pdANA = false) := by
  refine ⟨?_, ?_, ?_, ?_, ?_, ?_, ?_⟩ <;> decide +kernel

theorem wit_FeedbackCounting :
    (let s := regsSet [(Reg.FBK_Cn_CFG_MODE 0, 1)]; s.live pdFBK = true ∧ s.fbMode 0 = 1 ∧ s.calm ∧
      (s.fbc 0).capAt ≠ some (advance 1 s).time.clk ∧ (s.fbc 0).rearmAt ≠ some (advance 1 s).time.clk ∧
      (s.fbc 0).tickAt ≠ some (advance 1 s).time.clk ∧
      runs' (.quadratureTransition 0 1 [4]) s (fun t => (t.fbc 0).pos = 1) = true ∧
      runs' (.quadratureTransition 0 1 [2]) s (fun t => (t.fbc 0).pos = 2 ^ 32 - 1) = true ∧
      runs' (.quadratureTransition 0 1 [6]) s (fun t => (t.fbc 0).pos = 0 ∧ t.rd (Reg.FBK_Cn_ILLCNT 0) = 1 ∧ t.pends 66) = true ∧
      runs' (.overrate 0 [3]) s (fun t => (t.fbc 0).frozen ∧ t.isHeld (Fc.OVERRATE 0)) = true ∧
      runs' (.quadratureTransition 0 0 [4]) (s.setFb 0 { rearmAt := some 0 }) (fun t => (t.fbc 0).pos = 0) = true ∧
      runs' (.quadratureTransition 0 0 [4]) (s.setFb 0 { capAt := some 0 }) (fun t => SMap.get 0 t.anv.fib 16 = 1) = true) ∧
    (let s := (regsSet [(Reg.FBK_Cn_CFG_MODE 0, 1), (Reg.FBK_Cn_IDX_LINES 0, 1), (Reg.FBK_Cn_IDX_TOL 0, 0)]).setFb 0
        { pos := 4, idxPos := 0, idxRef := true, valid := true };
      0 < s.rd (Reg.FBK_Cn_IDX_LINES 0) ∧ (s.fbc 0).idxRef = true ∧ (s.fbc 0).missing = false ∧ (s.fbc 0).dirSince = false ∧
      runs' (.quadratureTransition 0 1 [4]) s (fun t => t.isHeld (Fc.IDX_MISSING 0) ∧ ! (t.fbc 0).valid) = true ∧
      runs' (.indexAccept 0 1 [1, 0]) s (fun t => ! t.isHeld (Fc.IDX_ERR 0) ∧ t.pends 65) = true ∧
      runs' (.indexAccept 0 1 [1, 0]) (s.setFb 0 { pos := 5, idxRef := true, valid := true }) (fun t => t.isHeld (Fc.IDX_ERR 0)) = true) ∧
    (let s := (regsSet [(Reg.FBK_Cn_CFG_MODE 7, 2)]).setFb 7 { hallIdx := some 0, a := true };
      s.live pdFBK = true ∧ s.fbMode 7 = 2 ∧ (s.fbc 7).capAt ≠ some (advance 1 s).time.clk ∧
      (s.fbc 7).rearmAt ≠ some (advance 1 s).time.clk ∧ (s.fbc 7).tickAt ≠ some (advance 1 s).time.clk ∧
      runs' (.hallStateChange 7 1 [6]) s (fun t => (t.fbc 7).pos = 1) = true ∧
      runs' (.hallStateChange 7 1 [5]) s (fun t => (t.fbc 7).pos = 2 ^ 32 - 1) = true ∧
      runs' (.hallStateChange 7 1 [7]) s (fun t => (t.fbc 7).hallBad) = true) ∧
    (let s := (regsSet [(Reg.FBK_Cn_CFG_MODE 7, 2)]).setFb 7 { a := true, b := true, z := true };
      s.live pdFBK = true ∧ s.fbMode 7 = 2 ∧ ((s.fbc 7).uvw = 0 ∨ (s.fbc 7).uvw = 7) ∧
      runs' (.hallIllegal 7) s (fun t => t.isHeld (Fc.HALL_ILLEGAL 7)) = true) ∧
    (let s := regsSet [(Reg.FBK_Cn_CFG_LOSEN 5, 1)]; s.live pdFBK = true ∧
      runs' (.lineLoss 5) s (fun t => (t.fbc 5).los ∧ t.isHeld (Fc.SIGNAL_LOST 5)) = true) := by
  refine ⟨?_, ?_, ?_, ?_, ?_⟩ <;> decide +kernel

theorem wit_SerialAndResolverFeedback :
    (let s := (regsSet [(Reg.FBK_Cn_CFG_MODE 2, 3), (Reg.FBK_Cn_SSI_NBAD 2, 1)]);
      s.live pdFBK = true ∧ s.fbMode 2 = 3 ∧ (s.fbc 2).bad + 1 = s.rd (Reg.FBK_Cn_SSI_NBAD 2) ∧
      s.rd (Reg.FBK_Cn_SSIOFS 2) < s.frameTicks ∧ (s.fbc 2).ssiAt = none ∧ (s.fbc 2).cfgAt = 0 ∧
      runs' (.ssiTransferStart 2 false) s (fun t => t.isHeld (Fc.SSI_FAULT 2) ∧ (t.fbc 2).ssiErr) = true) ∧
    (let s := (regsSet [(Reg.FBK_Cn_CFG_MODE 2, 3), (Reg.FBK_Cn_SSI_NB 2, 12), (Reg.FBK_Cn_CFG_GRAY 2, 1)]).setFb 2 { ssiT0 := some 5 };
      s.live pdFBK = true ∧ s.fbMode 2 = 3 ∧ (s.fbc 2).ssiT0 = some 5 ∧ (s.fbc 2).capAt = none ∧ (s.fbc 2).rearmAt = none ∧
      runs' (.ssiResult 2 0xC00 false false) s (fun t => (t.fbc 2).pos = 0x800 ∧ (t.fbc 2).stamp = 5) = true ∧
      runs' (.ssiResult 2 0xC00 false true) s (fun t => (t.fbc 2).ssiErr) = true) ∧
    (let s := regsSet [(Reg.FBK_Cn_CFG_MODE 7, 4), (Reg.FBK_Cn_ANA_AMAX 7, 255), (Reg.FBK_EXC, 40000)];
      s.live pdFBK = true ∧ s.live pdANA = true ∧ s.fbMode 7 = 4 ∧ 0 < s.rd Reg.FBK_EXC ∧ s.shuntDue 4 ++ s.shuntDue 5 = [] ∧
      (s.fbc 7).capAt = none ∧ (s.fbc 7).rearmAt = none ∧
      runs' (.resolverSample true 12288 8192) s (fun t => (t.fbc 7).ang = some 0x4000 ∧ (t.fbc 7).mag = 4096) = true ∧
      runs' (.resolverSample true 8192 4096) s (fun t => (t.fbc 7).ang = some 0x8000) = true) ∧
    (small.live pdFBK = true ∧ small.calm ∧ small.on Reg.FBK_CTRL_LOCK = false) ∧
    (let s := regsSet [(Reg.SYS_AXn_STAT_STATE 0, axRUNNING), (Reg.FBK_AXMAP, 0xFAC688)]; s.chanBusy 0 = true ∧ s.chanBusy 1 = false ∧
      runs' (.rearm 3) s (fun t => t.bit Reg.FBK_WDENY 0 ∧ ! t.bit Reg.FBK_WDENY 1) = true) := by
  refine ⟨?_, ?_, ?_, ?_, ?_⟩ <;> decide +kernel

/-! ### Outputs and axes -/

/-- Axis 0 is RUNNING with a carrier of 20,000 ticks and the block b in force. -/
def driving (b : List Nat) : State :=
  (regsSet [(Reg.SYS_AXn_STAT_STATE 0, axRUNNING), (Reg.COM_An_CARR 0, 20000)]).setO 0 { block := b }

/-- The first half-periods in which leg x of axis n may have its next transition. -/
def halves (n : Nat) (s : State) : List Nat :=
  [s.edgeBefore n s.ctTicks, s.edgeBefore n s.ctTicks + s.half n, s.edgeBefore n s.ctTicks + 2 * s.half n]

/-- Leg x has a transition to come in half-period h, a falling one. -/
def mayMove (n x h : Nat) (s : State) : Bool :=
  let i := 8 * h + clampEdge (8 * s.half n) ((s.o n).block.getD (if s.nextPeak n h = h then 1 + x else 4 + x) 0)
  ! tb ((s.o n).block.headD 0) 0 && decide ((s.o n).since < h ∧ i < 8 * h + 8 * s.half n ∧
    ((s.o n).leg x).st ≠ (if s.nextPeak n h = h then Leg.lower else Leg.upper) ∧ ceilDiv s.ct (2 ^ 29) ≤ i)

theorem wit_BlocksLegsAndTrips :
    (let s := small.setO 7 { pend := [(500, [])] }; s.live pdOUT = true ∧ (s.o 7).pend = (500, []) :: [] ∧
      s.safeNow 7 = false ∧ runs' (.blockInForce 7) s (fun t => (t.o 7).pend = []) = true) ∧
    (small.o 7).pend = [] ∧
    (let s := driving [0, 0, 0, 0, 40000, 40000, 40000]; s.live pdOUT = true ∧ s.executes 0 = true ∧ (s.nextLeg 0 2).isSome = true ∧ (∃ h ∈ halves 0 s, mayMove 0 2 h s = true ∧
        ∀ k ∈ halves 0 s, k < h → mayMove 0 2 k s = false) ∧
      runs' (.legTransition 0 2) s (fun t => (t.o 0).legC.onAt.isSome && ! (t.o 0).legC.up && ! (t.o 0).legC.lo) = true) ∧
    (small.live pdOUT = true ∧ small.executes 0 = false ∧ ((small.o 0).leg 0).onAt = none) ∧ (regsSet [(Reg.PWR_DOM, 0)]).live pdOUT = false ∧
    small.on (Reg.OUT_TRIPt_EN 7) = false ∧
    (let s := (driving []).setO 0 { legB := { st := .lower, onAt := some 900 } }; s.executes 0 = true ∧
      runs' (.incomingTurnOn 0 1) s (fun t => (t.o 0).legB.lo && ! (t.o 0).legB.up) = true) ∧
    (let s := regsSet [(Reg.OUT_TRIPt_EN 7, 1), (Reg.OUT_TRIPt_AXMASK 7, 0x81)]; s.live pdOUT = true ∧
      runs' (.tripInput 7) s (fun t => t.isHeld (Fc.TRIP_IN 7) ∧ t.pends 104 ∧ t.tripped 7 ∧ t.tripped 0 ∧ ! t.tripped 1) = true) ∧
    (let s := (regsSet [(Reg.OUT_TRIP_STAT_LATCH, 1)]).setO 0 { tripHeld := true }; s.ax 0 = axDISABLED ∧
      runs' (.tripLatchClear 1) s (fun t => ! (t.o 0).tripHeld ∧ t.rd Reg.OUT_TRIP_STAT_LATCH = 0) = true) := by
  refine ⟨?_, ?_, ?_, ?_, ?_, ?_, ?_, ?_, ?_⟩ <;> decide +kernel

theorem wit_GateLinkDownlink :
    (let s := regsSet [(Reg.OUT_An_CFG_GLEN 0, 1)]; s.live pdOUT = true ∧ s.glen 0 = true ∧
      runs' (.heartbeat 0) s (fun t => (t.o 0).chars = [0xBC, 0, 0, 0, 0] ∧ (t.o 0).wordEnd = 80) = true ∧
      runs' (.setupWord 0) s (fun t => (t.o 0).chars.take 3 = [0xFB, 0, 0]) = true) ∧
    (let s := (regsSet [(Reg.OUT_An_CFG_GLEN 0, 1), (Reg.OUT_An_GLST_STATE 0, glUP), (Reg.SYS_AXn_STAT_STATE 0, axRUNNING),
        (Reg.COM_An_CARR 0, 20000)]).setO 0 { block := [0, 0, 0, 0, 100, 200, 80000, 2] };
      let h := s.edgeBefore 0 s.ctTicks + s.half 0;
      s.live pdOUT = true ∧ s.glen 0 = true ∧ s.glState 0 = glUP ∧ s.executes 0 = true ∧
      (s.wordClocks 0 h (s.rd (Reg.OUT_An_GLST_PROP8 0))).isSome = true ∧ (s.o 0).governs h = true ∧
      ((s.o 0).blockAt h).toLink = true ∧
      runs' (.blockWord 0) s (fun t => (t.o 0).word = .block ∧ (t.o 0).chars.length = 10) = true) := by
  refine ⟨?_, ?_⟩ <;> decide +kernel

theorem wit_GateLinkUplink :
    (let s := (regsSet [(Reg.OUT_An_CFG_GLEN 7, 1), (Reg.OUT_An_GLST_STATE 7, glTRAINING)]).setO 7
        { goodWords := 15, echoWait := true, echoVal := 9, lat := [100, 100, 100, 100, 100, 100, 100] };
      s.live pdOUT = true ∧ s.glen 7 = true ∧ (s.o 7).echoWait = true ∧ (9 : BitVec 8).toNat = (s.o 7).echoVal ∧
      runs' (.statusWord 7 1 true 0 0 0 0) s (fun t => (t.o 7).echoDue ∧ (t.o 7).goodWords = 16) = true ∧
      runs' (.echoWord 7 1 true 9 4 243) s (fun t => (t.o 7).lat.getLast? = some 120 ∧ ! (t.o 7).echoDue) = true ∧
      runs' (.statusWord 7 1 false 0 0 0 0) s (fun t => (t.o 7).goodWords = 0 ∧ t.pends 111) = true) ∧
    (let s := regsSet [(Reg.OUT_An_CFG_GLEN 7, 1), (Reg.SYS_AXn_STAT_STATE 7, axRUNNING), (Reg.OUT_An_GLST_STATE 7, glUP)];
      s.ax 7 ≠ axDISABLED ∧ s.glState 7 ≠ glDOWN ∧
      sext 8 (s.rd (Reg.OUT_An_GL_TTRIP 7)) ≤ (127 : BitVec 8).toInt ∧ sext 8 (s.rd (Reg.OUT_An_GL_TWARN 7)) ≤ (127 : BitVec 8).toInt ∧
      runs' (.statusWord 7 1 true 0 1 127 10) s (fun t => t.isHeld (Fc.GL_DESAT 7) ∧ t.isHeld (Fc.GL_REMOTE_BLOCK 7) ∧
        t.isHeld (Fc.GL_OVERTEMP 7) ∧ t.isHeld (Fc.GL_TEMP_WARN 7) ∧ t.on (Reg.OUT_An_STAT_TIE 7)) = true ∧
      runs' (.glLoss 7) s (fun t => t.glState 7 = glDOWN ∧ t.isHeld (Fc.GL_LOSS 7)) = true) ∧
    (let s := (regsSet [(Reg.OUT_An_CFG_GLEN 7, 1), (Reg.OUT_An_GLST_STATE 7, glTRAINING)]).setO 7
        { lat := [100, 100, 100, 100, 100, 100, 100, 121] };
      runs' (.trainingDone 7) s (fun t => t.glState 7 = glFAILED ∧ t.isHeld (Fc.GL_LAT 7)) = true) ∧
    (let s := (regsSet [(Reg.OUT_An_CFG_GLEN 7, 1), (Reg.OUT_An_GLST_STATE 7, glTRAINING)]).setO 7
        { lat := [100, 100, 100, 100, 100, 100, 100, 120] };
      runs' (.trainingDone 7) s (fun t => t.glState 7 = glUP ∧ t.rd (Reg.OUT_An_GLST_PROP8 7) = 120) = true) := by
  refine ⟨?_, ?_, ?_, ?_⟩ <;> decide +kernel

theorem wit_SafeOutputs :
    (small.live pdOUT = true ∧ small.soAllowed = true) ∧
    (small.soNow 3).test = none ∧
    (let s := regsSet [(Reg.OUT_SOm_CFG_TPEN 3, 1)]; s.on (Reg.OUT_SOm_CFG_TPEN 3) = true ∧ s.soLatched 3 = false ∧
      runs' (.soTestPulse 3) s (fun t => (t.sout 3).test.isSome) = true) ∧
    (let s := small.setSo 3 { test := some (false, false, false) }; s.live pdOUT = true ∧
      (s.soNow 3).test = some (false, false, false) ∧
      runs' (.soTestPulseEnd 3 true true) s (fun t => t.pends 110 ∧ t.rd (Reg.OUT_SOm_TPCNT 3) = 1) = true ∧
      runs' (.soTestPulseEnd 3 false true) s (fun t => t.on (Reg.OUT_SOm_STAT_TEST 3) ∧ t.isHeld (Fc.SO_TEST 3)) = true) ∧
    (let s := small.setSo 3 { check := true }; (s.soNow 3).check = true ∧ (small.soNow 3).check = false ∧
      runs' (.soReadbackCheck 3 true false false) s (fun t => t.on (Reg.OUT_SOm_STAT_RB 3) ∧ t.isHeld (Fc.SO_READBACK 3)) = true) ∧
    (let s := regsSet [(Reg.OUT_SOm_STAT_OC 3, 1)]; s.dev.state ≠ .active ∧
      runs' (.soLatchClear 3 1) s (fun t => ! t.on (Reg.OUT_SOm_STAT_OC 3)) = true) := by
  refine ⟨?_, ?_, ?_, ?_, ?_, ?_⟩ <;> decide +kernel

/-- Axis 0 meets every arming condition in the state st, with the axis status word w in the frame that has just ended. -/
def armable (st w : Nat) : State :=
  let s := regsSet [(Reg.SYS_AXn_STAT_STATE 0, st), (Reg.SYS_AXn_STAT_GO 0, 1), (Reg.SEAM_STAT_ROLE, roleACTIVE), (Reg.ANV_STAT_RUNNING, 1),
    (Reg.CEC_STAT_LOADED, 1), (Reg.SYS_AXn_CFG_PROFILE 0, 1), (Reg.COM_An_CFG_MEAS 0, 2), (Reg.COM_An_CARR 0, 20000),
    (Reg.COM_An_VDC1_HI1 0, 400), (Reg.COM_An_VDC1_HYST 0, 10), (Reg.COM_An_VDC2_HI2 0, 500), (Reg.COM_An_VDC2_TRIP 0, 600),
    (Reg.COM_An_VDCG_TOUT 0, 100), (Reg.SYS_AXn_CFG_FBREQ 0, 0), (Reg.OUT_An_CFG_PINEN 0, 1), (Reg.CHK_Px_OUT_AXEN 0, 1),
    (Reg.SYS_AXn_CFG_SWOFF 0, 1)]
  { s with dev := { s.dev with state := .active }, time := { s.time with fc := 1 },
           mem := putWords s.mem (s.rd Reg.ANV_STAT_BASE * 2 ^ 14 + 4) [w] }

theorem wit_AxisTransitions :
    (small.runs = true ∧ small.dev.state ≠ .replay ∧ small.ax 7 ≤ 5 ∧
      runs' .frameTick small (fun t => t.ax 7 = axDISABLED) = true) ∧
    (let s := armable axDISABLED 0; s.ax 0 = axDISABLED ∧ (axisEval 0 true s).ax 0 = axARMING) ∧
    (let s := armable axARMING 1; s.ax 0 = axARMING ∧ (axisEval 0 true s).ax 0 = axRUNNING) ∧
    (let s := armable axSTOPPING 4; s.ax 0 = axSTOPPING ∧ (axisEval 0 true s).ax 0 ≠ axSTOPPING ∧ (axisEval 0 true s).ax 0 ≠ axSAFE) ∧
    (let s := (armable axSAFE 0).setA 0 { disableSeen := true }; s.ax 0 = axSAFE ∧ (axisEval 0 true s).ax 0 = axDISABLED) ∧
    (let s := armable axRUNNING 0;
      let s := { s with fcu := { s.fcu with supReq := 1 } };
      tb s.fcu.supReq 0 = true ∧ s.ax 0 ≠ axSAFE) := by
  refine ⟨?_, ?_, ?_, ?_, ?_, ?_⟩ <;> decide +kernel

theorem wit_AxisTimeoutsAndLosses :
    (let s := regsSet [(Reg.SYS_AXn_STAT_STATE 7, axARMING), (Reg.SYS_AXn_TIME_ARM_TOUT 7, 3), (Reg.SYS_AXn_FRAMES 7, 4)];
      runs' (.armTimeout 7) s (fun t => t.ax 7 = axDISABLED ∧ t.isHeld (Fc.ARM_TIMEOUT 7)) = true) ∧
    (let s := (regsSet [(Reg.SYS_AXn_STAT_STATE 7, axSTOPPING), (Reg.SYS_AXn_TIME_STOP_TOUT 7, 3)]).setA 7 { stopCycles := 3 };
      runs' (.stopTimeout 7) s (fun t => t.ax 7 = axSTOPPING ∧ t.isHeld (Fc.STOP_TIMEOUT 7)) = true) ∧
    (∀ st ∈ [axARMING, axRUNNING, axSTOPPING, axHELD],
      let s := (regsSet [(Reg.SYS_AXn_STAT_STATE 7, st), (Reg.SYS_AXn_CFG_LOSS 7, 2)]).setA 7 { staleDue := true };
      s.ax 7 = st ∧ (s.a 7).staleDue = true ∧ runs' (.spStale 7) s (fun t => t.isHeld (Fc.SP_STALE 7) ∧
        t.ax 7 = if st = axARMING then axDISABLED else if st = axRUNNING then axSTOPPING else st) = true) ∧
    (let s := (regsSet [(Reg.SYS_AXn_GUST 7, 1), (Reg.TIME_CYCLE, 4)]).setA 7 { gustRun := 5 };
      runs' (.gustLong 7) s (fun t => t.isHeld (Fc.GUST_LONG 7)) = true) := by
  refine ⟨?_, ?_, ?_, ?_⟩ <;> decide +kernel

/-! ### Checked pairs -/

/-- Pair p in service, with both comparators, and its state q. -/
def pairOn (p : Nat) (st : Nat) (q : PairSt) : State :=
  (regsSet [(pairFld p, st), (Reg.CHK_STAT_CMP_OK, 15), (Reg.CHK_CFG_CP_TOUT, 4000),
    (Reg.CHK_CFG_LAG_MAX, 1000), (Reg.CHK_CFG2_SCRUB_INT, 1000)]).setPr p q

/-- That state once an image has booted. -/
def booted (s : State) : State := { s with sec := { s.sec with image := some (someContainer 0 0 0) } }

/-- A mark at IC 7 that covers one store. -/
def someMark : Mark := ⟨7, 3, 1, 99, 0, 1, false⟩

/-- A store to the first double word of shared SRAM. -/
def someStore : RelStore := { addr := 0x01000000, mask := 0xFF, data := 0x1122334455667788 }

theorem wit_CheckedExecution :
    (let s := pairOn 0 pairINSERVICE { buf := List.replicate 447 someStore }; s.live 0 = true ∧ s.pairOn 0 = true ∧
      s.mainStalled 0 = false ∧ s.mainCan 0 5 = true ∧ (s.pr 0).lagAt = none ∧
      runs' (.coupledStore 0 false 5 0x01000008 0xFF 1) s (fun t => (t.pr 0).buf.length = 448 ∧ (t.pr 0).fifo.length = 1) = true ∧
      runs' (.chkpt 0 5 0x12345) s (fun t => (t.pr 0).fifo.map (·.cpid) = [0x2345]) = true) ∧
    (let s := pairOn 0 pairINSERVICE { mainIc := 5 }; s.live 0 = true ∧ s.pairOn 0 = true ∧ s.chkCan 0 5 = true ∧ s.calm ∧
      runs' (.coupledStore 0 true 5 0x01000008 0xFF 1) s (fun t => (t.pr 0).chkBuf.length = 1 ∧ (t.pr 0).buf = []) = true) ∧
    (let s := pairOn 1 pairREJOINING { released := true }; s.live 1 = true ∧ s.pairOn 1 = true ∧ s.pairState 1 = pairREJOINING ∧
      s.canMeet 1 0 = true ∧ s.exchangeRule (.csr 0x341) = none ∧ (s.exchangeRule (.csr 0xC01)).map (·.1) = some 2 ∧
      (s.exchangeRule (.csr 0x344)).map (·.1) = some 0 ∧ s.cmpOk 1 0 = true ∧ s.cmpOk 1 1 = true ∧
      runs' (.inputExchange 1 0 (.csr 0x344) (1, 2) [(3, 4), (5, 5)] false .ok) s (fun t => t.dev.readData = 5) = true ∧
      runs' (.inputExchange 1 0 (.csr 0x344) (1, 2) [(3, 4), (5, 6)] false .ok) s (fun t => t.pairState 1 = pairLOST ∧
        t.isHeld (Fc.REJOIN_FAIL 1)) = true ∧
      runs' (.inputExchange 1 0 (.csr 0x344) (1, 1) [] true .ok) s (fun t => t.rd (Reg.CHK_Px_LOSS 1) = 3) = true ∧
      runs' (.inputExchange 1 0 (.csr 0xC01) (1, 4001) [] false .ok) s (fun t => t.dev.readData = 1) = true ∧
      runs' (.inputExchange 1 0 (.csr 0xC01) (1, 4002) [] false .ok) s (fun t => t.pairState 1 = pairLOST) = true) ∧
    (let s := pairOn 0 pairINSERVICE { mainIc := 7, fifo := [someMark], buf := [someStore], chkSig := 99 }; s.live 0 = true ∧
      s.pairOn 0 = true ∧ (s.pr 0).fifo = someMark :: [] ∧ s.chkCan 0 7 = true ∧ (s.pr 0).lagAt = none ∧
      runs' (.checkpointCompare 0 .ok .ok false false) s (fun t => (t.pr 0).drain = [(7, [someStore])]) = true ∧
      runs' (.checkpointCompare 0 .ok .ok true true) s (fun t => t.pairState 0 = pairLOST ∧ t.rd (Reg.CHK_Px_LOSS 0) = 0) = true ∧
      runs' (.checkpointCompare 0 .ok .ok false true) s (fun t => t.pairState 0 = pairLOST ∧ t.rd (Reg.CHK_Px_LOSS 0) = 3) = true ∧
      runs' (.cpTimeout 0) s (fun t => t.rd (Reg.CHK_Px_LOSS 0) = 2 ∧ t.ctTicks = 4000) = true) := by
  refine ⟨?_, ?_, ?_, ?_⟩ <;> decide +kernel

theorem wit_ReleasesTransfersAndRejoin :
    (let s := pairOn 0 pairINSERVICE { drain := [(7, [someStore])] }; s.live 0 = true ∧ s.pairOn 0 = true ∧
      (∀ o ∈ s.pwr.stalled, o.m ≠ mainCore 0) ∧ (s.pr 0).drain = (7, [someStore]) :: [] ∧
      (∀ st ∈ [someStore], inSram (st.addr - st.addr % 8) 8 = true) ∧
      runs' (.releaseDrain 0 true) s (fun t => getWord t.mem 0x01000004 = 0x11223344 ∧ t.time.clk = 1) = true ∧
      runs' (.releaseDrain 0 false) s (fun t => getWord t.mem 0x01000004 = 0x11223344 ∧ t.pairState 0 = pairLOST) = true) ∧
    (let s := { small with chk := { small.chk with hold := 1, holdVal := 1 } }; s.runs = true ∧ s.chk.hold ≠ 0 ∧ s.chk.holdLeft = 0 ∧
      tb s.chk.hold 0 = true ∧ s.outBit 0 = true ∧ runs' .oholdExpiry s (fun t => ! t.outBit 0) = true) ∧
    (let s := pairOn 1 pairLOST {}; s.runs = true ∧ s.calm ∧ s.pairState 1 = pairLOST ∧ s.split = false ∧
      runs' (.rejoin 1) s (fun t => t.pairState 1 = pairREJOINING ∧ t.pends 13) = true) ∧
    (let s := pairOn 1 pairREJOINING {}; let s := booted { s with dev := { s.dev with state := .active } }
      s.live 1 = true ∧ s.split = false ∧ s.dev.state ≠ .boot ∧ s.sec.image.isSome = true ∧ (s.pr 1).released = false ∧ s.pairState 1 = pairREJOINING ∧
      runs' (.assay 1 (some 65) (some 0)) s (fun t => t.pairState 1 = pairLOST ∧ t.isHeld (Fc.REJOIN_FAIL 1)) = true ∧
      runs' (.assay 1 none (some 0)) s (fun t => (t.pr 1).released ∧ t.isHeld (Fc.CMP_FALLBACK 1) ∧ t.cmpOk 1 0 ∧ ! t.cmpOk 1 1) = true) ∧
    (let s := booted { pairOn 0 pairOFF {} with dev := { small.dev with state := .assay } };
      s.live 0 = true ∧ s.sec.image.isSome = true ∧ s.split = false ∧ s.dev.state ≠ .boot ∧ s.pairState 0 = pairOFF ∧ (s.pr 0).released = false ∧
      runs' (.assay 0 (some 65) (some 65)) s (fun t => t.dev.state = .safe) = true) ∧
    (let s := pairOn 0 pairINSERVICE { scrubWait := true, resyncFc := some 0 }; s.live 0 = true ∧ s.pairOn 0 = true ∧
      (s.pr 0).scrubWait = true ∧ (s.pr 0).resyncFc.any (fun f => s.time.fc.toNat - f ≤ 10 * s.rd Reg.CHK_CFG2_SCRUB_INT) = true ∧
      ((s.pr 0).main.with' [(.x 1, 5)]).hash = ((s.pr 0).chk.with' [(.x 1, 5)]).hash ∧
      ((s.pr 0).main.with' [(.x 1, 5)]).hash ≠ ((s.pr 0).chk.with' [(.x 1, 4)]).hash ∧
      runs' (.scrubCompare 0 [(.x 1, 5)] [(.x 1, 4)]) s (fun t => t.isHeld (Fc.LATENT_DIVERGENCE 0) ∧ t.rd (Reg.CHK_Px_LOSS 0) = 5) = true) ∧
    (let s := (pairOn 0 pairINSERVICE {}).put (resyncFld 0) true; s.live 0 = true ∧ s.pairOn 0 = true ∧ s.on (resyncFld 0) = true ∧
      (s.pr 0).buf = [] ∧ (s.pr 0).drain = [] ∧ (s.pr 0).fifo = [] ∧ (s.pr 0).log = [] ∧ (s.pr 0).mainIc = 0 ∧ (s.pr 0).resync = false) ∧
    (let s := pairOn 0 pairINSERVICE { resync := true }; s.live 0 = true ∧ (s.pr 0).resync = true) := by
  refine ⟨?_, ?_, ?_, ?_, ?_, ?_, ?_, ?_⟩ <;> decide +kernel

theorem wit_PairTrapsAndDebug :
    (let s := pairOn 0 pairINSERVICE { mainIc := 9, log := [⟨9, 11, 2, false⟩] }; s.live 0 = true ∧ (s.pr 0).log = ⟨9, 11, 2, false⟩ :: [] ∧
      s.pairOn 0 = true ∧ s.chkCan 0 9 = true ∧
      runs' (.accessFault 0 true) s (fun t => (t.pr 0).main.trap = some 5 ∧ (t.pr 0).chk.trap = some 5) = true ∧
      runs' (.checkerTrap 0) s (fun t => (t.pr 0).chk.trap = some 11 ∧ (t.pr 0).chkIc = 9) = true) ∧
    (let s := (pairOn 0 pairINSERVICE {}).wr Reg.SEC_STAT_DBG 2; s.live 0 = true ∧ s.debugFull = true ∧ s.dev.state ≠ .active ∧
      s.dev.state ≠ .lee ∧ (s.pr 0).halted = none ∧ s.mainCan 0 4 = true ∧
      runs' (.debugHalt 0 4) s (fun t => (t.pr 0).halted = some 4 ∧ (t.pr 0).log.length = 1) = true) ∧
    (let s := (pairOn 0 pairINSERVICE { mainIc := 4, chkIc := 4, halted := some 4 }).wr Reg.SEC_STAT_DBG 2; s.live 0 = true ∧
      (s.pr 0).halted = some 4 ∧ s.debugFull = true ∧ (DbgTarget.pc ≠ .x 0) ∧ (s.pr 0).dbgLog = [] ∧ (s.pr 0).log = [] ∧ s.calm ∧
      runs' (.debugWrite 0 (.x 31) (2 ^ 63)) s (fun t => SMap.get 0 (t.pr 0).main.regs 31 = 2 ^ 63 ∧ SMap.get 0 (t.pr 0).chk.regs 31 = 2 ^ 63 ∧
        (t.pr 0).dbgLog = []) = true ∧
      runs' (.debugWrite 0 (.x 0) 77) s (fun t => t.pair = s.pair) = true ∧
      runs' (.debugStep 0) s (fun t => (t.pr 0).halted = some 5 ∧ (t.pr 0).chkIc = 5) = true ∧
      runs' (.debugResume 0) s (fun t => (t.pr 0).halted = none) = true) := by
  refine ⟨?_, ?_, ?_⟩ <;> decide +kernel

/-! ### Seam and lease -/

/-- Channel 1 of a duplex set in the given role and device state, with holder h and LEFT l. -/
def duplex (role h l : Nat) (d : DevState) : State :=
  let s := regsSet [(Reg.SEAM_CFG_SET, 1), (Reg.SEAM_CFG_CH, 1), (Reg.SEAM_CFG_LEASE, 4), (Reg.SEAM_CFG_CLAIM_TO, 4),
    (Reg.SEAM_PORT_S0_EN, 1), (Reg.SEAM_PORT_S0_PEER, 2), (Reg.SEAM_STAT_S0_UP, 1), (Reg.SEAM_STAT_ROLE, role),
    (Reg.SEAM_STAT_HOLDER, h), (Reg.SEAM_STAT_LEFT, l), (Reg.SEAM_TXSZ, 16), (Reg.SEAM_CTRL_BULK_EN, 1)]
  { s with dev := { s.dev with state := d } }

/-- The state in frame n. -/
def inFrame (n : Nat) (s : State) : State := { s with time := { s.time with fc := BitVec.ofNat 64 n } }

/-- A lease message from channel 2 in cycle 0. -/
def msg (holder : Fin 4) (epoch : Fin 32) (target : Fin 4) (health : Word) : LeaseMsg :=
  { sender := 2, holder := holder, epoch := epoch, target := target, cn := 0, health := health }

theorem wit_LeaseMessagesSent :
    (let s := duplex roleACTIVE 1 5 .active; s.live pdNET = true ∧ s.inLease = true ∧ s.seam.p1Done = false ∧
      s.seam.p2Done = false ∧ s.cycleStart + 2000 < s.frameEnd ∧
      runs' .p1 s (fun t => t.seam.lastTx.head?.map (· % 16) = some 1 ∧ t.seam.sentRenew) = true ∧
      runs' .p2 (inFrame 2 s) (fun t => t.seam.lastTx.head?.map (· % 16) = some 5) = true) ∧
    (let s := duplex roleSTANDBY 2 0 .standby; s.heir = 1 ∧ runs' .p1 s (fun t => t.seam.sentTake = some 0) = true) ∧
    (let s := setSeam { small.seam with term := some 31, takeWait := 4 } ((duplex roleSTANDBY 2 0 .standby).wr Reg.SEAM_STAT_EPOCH 31);
      s.seam.takeWait < s.cto ∧ runs' .p1 s (fun t => t.seam.sentTake = none) = true) ∧
    (let s := setSeam { small.seam with term := some 31, takeWait := 5 } ((duplex roleSTANDBY 2 0 .standby).wr Reg.SEAM_STAT_EPOCH 31);
      runs' .p1 s (fun t => t.seam.sentTake = some 31) = true) ∧
    (let s := setPeer 2 { msg1 := some [1, 2, 0, 0, 0] } (duplex roleSTANDBY 2 3 .standby);
      runs' .p2 (inFrame 2 s) (fun t => t.seam.sentGrant) = true) ∧
    (let s := setPeer 2 { msg1 := some [3, 0, 4, 0, 0], prev := some (2 ^ 31 + roleSTANDBY * 8 + 2 ^ 5) } (duplex roleOBSERVER 1 0 .standby);
      s.heir = 2 → runs' .p2 (inFrame 2 s) (fun t => t.seam.sentTgrant = some (2, 4) ∧ SMap.get 0 t.seam.voted 4 = 2) = true) := by
  refine ⟨?_, ?_, ?_, ?_, ?_, ?_⟩ <;> decide +kernel

/-- The header of a Seam frame with these contents and their CRC. -/
def goodHead (ty seq tag : Nat) (ws : List Word) : SeamHead :=
  { codeOk := true, ty := BitVec.ofNat 8 ty, seq := BitVec.ofNat 16 seq, len := BitVec.ofNat 16 (4 * ws.length), tag := BitVec.ofNat 32 tag
    crc := BitVec.ofNat 32 (crc32 (seamBody ty seq (4 * ws.length) tag (ws.map BitVec.toNat))) }

/-- The header of the frame of RENEW (msg 2 3 0 0x18). -/
def renewHead : SeamHead := goodHead 1 0 0 [BitVec.ofNat 32 (1 + 2 * 16 + 2 * 64 + 3 * 256), 0, 0x18]

theorem wit_LeaseMessagesReceived :
    (let s := duplex roleSTANDBY 0 0 .standby; s.live pdNET = true ∧ s.inLease = true ∧ s.seamLive 0 = true ∧ s.seamLive 1 = false ∧
      s.left = 0 ∧ s.role ≠ roleACTIVE ∧ (s.peer 2).msg1 = none ∧
      runs' (.leaseRenew (msg 2 3 0 0x18) (.seam 0 renewHead)) s (fun t => t.holder = 2 ∧ t.epoch = 3 ∧ t.seam.term = some 3 ∧ t.age 2 = 0) = true ∧
      runs' (.leaseRenew (msg 2 3 0 0x18) (.seam 1 renewHead)) s (fun t => t.holder = 0) = true ∧
      runs' (.leaseRenew (msg 2 3 0 0x19) (.seam 0 renewHead)) s (fun t => t.holder = 0 ∧ t.pends 159) = true ∧
      runs' (.leaseRenew { msg 2 3 0 0x18 with cn := 1 } .fudorlink) s (fun t => t.rd Reg.SEAM_REJ = 1) = true) ∧
    (let s := setPeer 2 { msg1 := some [5, 0, 0, 0, 0] } (duplex roleSTANDBY 0 0 .standby); (s.peer 2).bad1 = false ∧
      runs' (.health (msg 0 0 0 0) .fudorlink) s (fun t => t.rd Reg.SEAM_REJ = 0) = true ∧
      runs' (.health (msg 0 0 0 1) .fudorlink) s (fun t => t.rd Reg.SEAM_REJ = 1 ∧ (t.peer 2).bad1) = true) ∧
    (let s := setPeer 2 { msg1 := some [1, 2, 3, 0, 0], was1 := { term := some 2, holder := 1, epoch := 2 } }
        (setSeam { small.seam with term := some 3 } ((duplex roleSTANDBY 2 0 .standby).wr Reg.SEAM_STAT_EPOCH 3));
      (s.peer 2).bad1 = false ∧ s.holder = 2 ∧ s.epoch = 3 ∧
      runs' (.leaseRenew (msg 2 3 0 1) .fudorlink) s (fun t => t.holder = 1 ∧ t.epoch = 2 ∧ t.seam.term = some 2) = true) ∧
    (let s := duplex roleACTIVE 1 5 .active; s.iHold = true ∧ s.on Reg.SEAM_CTRL_BULK_EN = true ∧ s.rd Reg.SEAM_STAT_BULK ≠ 2 ∧
      runs' (.bulkReq (msg 1 0 1 0) .fudorlink) s (fun t => t.rd Reg.SEAM_STAT_BULK = 2) = true) := by
  refine ⟨?_, ?_, ?_, ?_⟩ <;> decide +kernel

theorem wit_LeaseBoundaryAndEvents :
    (let s := setPeer 2 { msg2 := some [4, 0, 9, 1, 0] } (setSeam { small.seam with sentTake := some 9 } (duplex roleSTANDBY 2 0 .standby));
      s.seam.sentTake = some 9 ∧ (leaseRule s).dev.state ≠ .safe ∧ (s.takes 9 = true → (leaseRule s).holder = 1)) ∧
    (let s := setPeer 2 { msg2 := some [4, 0, 9, 1, 0] } (setSeam { small.seam with sentTake := some 9 } (duplex roleSTANDBY 2 0 .standby));
      s.takes 9 = true) ∧
    (let s := setPeer 2 { msg2 := some [2, 1, 0, 1, 0] } (setSeam { small.seam with sentRenew := true } (duplex roleACTIVE 1 3 .active));
      s.seam.sentTake = none ∧ s.iHold = true ∧ s.inLease = true ∧ s.seam.sentRenew = true ∧ 0 < s.left ∧ s.gathered = true ∧
      (leaseRule s).left = 5) ∧
    (let s := setSeam { small.seam with sentTgrant := some (2, 7) } (duplex roleOBSERVER 1 0 .standby); s.seam.sentTake = none ∧
      s.seam.sentRenew = false ∧ s.seam.sentGrant = false ∧ s.seam.sentTgrant = some (2, 7)) ∧
    (let s := duplex roleSTANDBY 2 1 .standby; s.seam.sentTake = none ∧ s.seam.sentRenew = false ∧ s.seam.sentGrant = false ∧
      s.seam.sentTgrant = none ∧ (leaseRule s).left = 0 ∧ (leaseRule s).holder = 0) ∧
    (let s := setSeam { small.seam with sentTake := some 9 } (duplex roleSTANDBY 2 0 .standby); s.seam.sentTake = some 9 ∧ s.takes 9 = false) ∧
    (let s := duplex roleACTIVE 1 0 .active; s.live pdNET = true ∧ s.iHold = true ∧ s.left = 0 ∧ s.dev.state = .active ∧
      runs' .leaseLapsed s (fun t => t.holder = 0 ∧ t.isHeld Fc.LEASE_LAPSED) = true) ∧
    (let s := duplex roleACTIVE 1 0 .lee; s.dev.state = .lee ∧ runs' .leaseLapsed s (fun t => t.dev.state = .safe) = true) ∧
    (let s := (duplex roleSTANDBY 1 0 .standby).wr Reg.SEAM_PAGE (5 * 2 ^ 8); 2 ∈ s.others ∧ s.leaseL ≤ s.age 2 ∧ (s.peer 2).lostUp = false ∧
      runs' (.peerLost 1) s (fun t => t.isHeld Fc.PEER_LOST) = true) ∧
    (let s := setSeam { small.seam with aloneDue := true, noClaimDue := true } (duplex roleACTIVE 1 5 .active); s.seam.aloneDue = true ∧
      s.seam.noClaimDue = true ∧ runs' .lastChannel s (fun t => t.isHeld Fc.LAST_CHANNEL) = true ∧
      runs' .noMgrClaim s (fun t => t.isHeld Fc.NO_MGR_CLAIM) = true) ∧
    (let s := setSeam { small.seam with listened := some 6 } (duplex roleOFFLINE 0 0 .standby); s.seam.listened = some 6 ∧
      s.leaseL + 1 ≤ 6 ∧ s.seam.setDone = false ∧ s.fidx = 0 ∧ s.inLease = true ∧ s.role = roleOFFLINE ∧ s.dev.state = .standby ∧
      s.seam.holderSeen = false ∧ runs' .setStart s (fun t => t.role ≠ roleOFFLINE) = true) := by
  refine ⟨?_, ?_, ?_, ?_, ?_, ?_, ?_, ?_, ?_, ?_, ?_⟩ <;> decide +kernel

/-- Three words of a segment. -/
def seg : List Word := [1, 2, 3]

theorem wit_StateAndBulkCopies :
    (let s := duplex roleSTANDBY 2 3 .standby; s.live pdNET = true ∧ s.seamLive 0 = true ∧ s.inSet = true ∧ s.iHold = false ∧
      runs' (.stateSegment 0 (goodHead 2 0 0 seg) seg) s (fun t => t.seam.rxNext = 1 ∧ t.seam.rxTag = some 0) = true ∧
      runs' (.stateSegment 0 (goodHead 3 0 0 seg) seg) s (fun t => t.seam.rxNext = 0 ∧ t.pends 159) = true ∧
      runs' (.stateSegment 0 (goodHead 2 16 0 seg) seg) s (fun t => t.seam.rxNext = 0 ∧ t.pends 159) = true) ∧
    (let s := setSeam { small.seam with snapNow := some false, txEnd := 5 } (duplex roleACTIVE 1 5 .active); s.seam.snapNow ≠ none ∧
      s.iHold = true ∧ s.rd Reg.SEAM_STAT_BULK ≠ 2 ∧
      runs' .stateCopySend s (fun t => t.seam.snapNow = some true ∧ t.time.clk = 5) = true) ∧
    (let s := (duplex roleSTANDBY 2 3 .standby).wr Reg.SEAM_RXSTAT_MISS 3; s.fidx = 0 ∧ s.time.ft = 0 ∧ s.seam.missCn ≠ some s.cn ∧
      (s.cn + 2 ^ 32 - 2) % 2 ^ 32 ∉ s.seam.rxTags ∧
      runs' .copyMissed s (fun t => t.rd Reg.SEAM_RXSTAT_MISS = 4 ∧ t.isHeld Fc.COPY_STALE ∧ t.role = roleOBSERVER) = true) ∧
    (let s := duplex roleOFFLINE 2 3 .standby; s.mayServe = true ∧
      runs' .resync s (fun t => t.seam.resync ∧ t.seam.bulkReq) = true) ∧
    (let s := setSeam { small.seam with resync := true, bulkReq := true } (duplex roleOFFLINE 2 3 .standby);
      runs' (.bulkSegment 0 (goodHead 3 0 9 seg) seg) s (fun t => t.seam.bulkNext = 1 ∧ ! t.seam.bulkReq ∧ t.rd Reg.SEAM_STAT_BULK = 1) = true ∧
      runs' (.bulkSegment 0 (goodHead 3 1 9 seg) seg) s (fun t => t.pends 159) = true) ∧
    (let s := setSeam { small.seam with resync := true, bulkGen := 9, bulkNext := 0 } ((duplex roleOFFLINE 2 3 .standby).wr Reg.SEAM_STAT_BULK 1);
      runs' (.bulkEnd 0 (goodHead 4 0 9 seg) seg) s (fun t => t.seam.bulkReq) = true ∧
      let s := { s with time := { s.time with clk := 99999995 } };
      s.inFrame (s.seam.bulkAt + 100000000) = true ∧
      runs' .resyncFail s (fun t => t.rd Reg.SEAM_STAT_BULK = 3 ∧ t.isHeld Fc.RESYNC_FAIL) = true) ∧
    (let s := setSeam { small.seam with bulkCount := 1 } ((duplex roleACTIVE 1 5 .active).wr Reg.SEAM_STAT_BULK 2);
      s.inFrame s.bulkSentAt = true ∧
      runs' .bulkSent s (fun t => t.rd Reg.SEAM_STAT_BULK = 0 ∧ t.rd Reg.SEAM_BULKST = 1) = true) := by
  refine ⟨?_, ?_, ?_, ?_, ?_, ?_, ?_⟩ <;> decide +kernel

theorem wit_SeamPortsAndSlices :
    (let s := duplex roleSTANDBY 2 3 .standby; s.live pdNET = true ∧ s.on (seamEn 0) = true ∧ s.on (seamUp 0) = true ∧
      s.on (seamEn 1) = false ∧ runs' (.seamLinkDown 0) s (fun t => t.isHeld Fc.SEAM_LINK_DOWN ∧ t.pends 158) = true) ∧
    (let s := setSeam { small.seam with sliceWait := 16, sliceRound := 63, slice := 63 } ((duplex roleSTANDBY 2 3 .standby).wr Reg.SEAM_CFG_SLICE_INT 16);
      s.devRuns = true ∧ s.on Reg.SEAM_CTRL_SLICE_HOLD = false ∧ s.rd Reg.SEAM_STAT_BULK ≠ 1 ∧ s.rd Reg.SEAM_CFG_SLICE_INT ≤ s.seam.sliceWait ∧
      runs' (.sliceTest false) s (fun t => t.on Reg.SEAM_STAT_SLICE_DONE ∧ t.isHeld Fc.SLICE_FAIL ∧ t.seam.slice = 0 ∧ t.seam.sliceLast = 63) = true ∧
      runs' (.sliceHold true) s (fun t => t.seam.sliceRound = 0 ∧ t.on Reg.SEAM_CTRL_SLICE_HOLD) = true) := by
  refine ⟨?_, ?_⟩ <;> decide +kernel

/-! ### Fudorlink -/

/-- Node n of a cluster whose mode 0 has four slots of three words, in the sync state ss: a command slot of the manager, also
the sync frame, a status slot of node 5, a data slot of node 6, a join slot. Port 0 is UP in class c. -/
def cluster (n ss c : Nat) : State :=
  let s := regsSet [(Reg.FDL_CTRL_EN, 1), (Reg.FDL_CFG_NODE, n), (Reg.FDL_STAT_SSTATE, ss), (Reg.ANV_STAT_VALID, 1),
    (Reg.FDL_Pp_CFG_CLASS 0, c), (Reg.FDL_Pp_STAT_STATE 0, psUP), (Reg.SEAM_CFG_CLAIM_TO, 4), (Reg.FDL_CFG_LOSS_CYC, 2),
    (Reg.FDL_CFG_SYNC_TH, 2), (Reg.FDL_CFG_LOSS_TH, 8), (Reg.FDL_CFG_RSH, 4)];
  setFdl { s.fdl with region := [(0, 40 + 3 * 2 ^ 12), (2, 1 + 2 ^ 5 + 2 ^ 6), (64, 2000), (65, kCOMMAND * 2 ^ 8 + 2 ^ 11 + 3 * 2 ^ 12),
    (68, 4000), (69, 5 + kSTATUS * 2 ^ 8 + 3 * 2 ^ 12), (72, 6000), (73, 6 + kDATA * 2 ^ 8 + 3 * 2 ^ 12 + 2 ^ 25),
    (76, 8000), (77, kJOIN * 2 ^ 8 + 8 * 2 ^ 12)] } s

/-- Node n has been heard in its slots before. -/
def nodeKnown (n : Nat) (s : State) : State := setFdl { s.fdl with nodes := [(n, { known := true })] } s

/-- A frame with the CRC of its contents. -/
def sealed (f : FdlFrame) : FdlFrame := { f with crc := BitVec.ofNat 32 (crc32 (bodyOf f)) }

/-- A frame of slot i from node n with claim c in cycle 0. -/
def frameOf (i n : Fin 64) (c : BitVec 8) : FdlFrame := sealed { someFrame 3 with slot := i, node := n, claim := c }

theorem wit_FrameReception :
    (let s := cluster 5 ssSYNC 1; s.live pdNET = true ∧ s.rxLive 0 = true ∧ s.node ≠ 0 ∧
      (SMap.get none s.fdl.rx 2 = none) ∧ s.slotIrqEn s.netMode 2 = true ∧
      runs' (.dataFrame (frameOf 2 6 9)) s (fun t => SMap.get none t.fdl.rx 2 = some ⟨0, 0, [0, 0, 0]⟩ ∧ t.pends 144 ∧ (t.nd 6).left = 5) = true ∧
      ((nodeKnown 6 s).nd 6).known = true ∧ runs' (.dataFrame (frameOf 2 6 9)) s (fun t => t.pends 134 ∧ (t.nd 6).known) = true ∧
      runs' (.dataFrame (frameOf 2 6 9)) (nodeKnown 6 s) (fun t => ! t.pends 134) = true ∧
      runs' (.dataFrame { frameOf 2 6 9 with crc := 0 }) s (fun t => t.rd Reg.FDL_DISC_CRC = 1 ∧ t.fdl.rx = []) = true ∧
      runs' (.dataFrame (sealed { frameOf 2 6 9 with mode := 1 })) s (fun t => t.rd Reg.FDL_DISC_MODE_DISC = 1 ∧ t.fdl.rx = []) = true ∧
      runs' (.dataFrame { frameOf 2 6 9 with port := 5 }) s (fun t => t.fdl.rx = []) = true) ∧
    (let s := cluster 0 ssSYNC 2; runs' (.statusFrame (sealed { frameOf 1 5 0x40 with payload := [0x83, 0, 0] })) s
        (fun t => (t.nd 5).acc = some 0x83 ∧ (SMap.get none t.fdl.rx 1).isSome) = true ∧ s.iPropose = true ∧
      s.admitsId s.netMode 9 = false ∧
      runs' (.joinRequest (sealed { frameOf 3 9 0x40 with payload := [20000, 4, 0, 0, 0, 0, 0, 0] })) s
        (fun t => t.rd Reg.FDL_JOIN_NODE = 9 ∧ t.rd Reg.FDL_JOIN_RESULT = 4 ∧ (SMap.get none t.fdl.rx 3).isSome) = true ∧ s.node = 0) ∧
    (let s := cluster 5 ssLISTEN 1; let s := setFdl { s.fdl with region := SMap.set 0 s.fdl.region 73 (6 + kDATA * 2 ^ 8 + 2 ^ 11 + 3 * 2 ^ 12) } s;
      s.slotSync s.netMode 2 = true ∧ s.on Reg.ANV_STAT_RUNNING = false ∧ s.on Reg.ANV_CTRL_RUN = false ∧
      frameOk (frameOf 2 6 9) = true ∧ s.slotOk kDATA (frameOf 2 6 9) = true ∧ s.payloadOk s.netMode 2 [0, 0, 0] = true ∧
      runs' (.dataFrame (frameOf 2 6 9)) s (fun t => t.sstate = ssINTEGRATE) = true ∧
      runs' (.dataFrame (frameOf 2 6 9)) (s.put Reg.ANV_CTRL_RUN true) (fun t => t.on Reg.TIME_STAT_LOAD_DENIED) = true ∧
      runs' (.dataFrame (frameOf 2 6 9)) ((s.wr Reg.FDL_STAT_SSTATE ssLOST).put Reg.TIME_STAT_ON_RC true) (fun t => t.sstate = ssLOST) = true ∧
      runs' (.dataFrame (frameOf 2 6 9)) ((s.wr Reg.FDL_STAT_SSTATE ssCOLDSTART).wr Reg.FDL_CFG_NODE 7) (fun t => t.sstate = ssLISTEN) = true) ∧
    (let s := cluster 5 ssSYNC 1; let f := frameOf 0 0 9; let g := sealed { frameOf 0 0 9 with payload := [1, 0, 0] }; g.slot = f.slot ∧ g.claim = f.claim ∧
      (∀ h ∈ [f, g], s.rxLive h.port = true ∧ s.sstate ≠ ssLISTEN ∧ s.sstate ≠ ssLOST ∧
        s.frameCheck kCOMMAND h = .accepted ∧ h.null = false ∧ h.claim.toNat ≠ 0) ∧
      runs' (.commandFrame [f]) s (fun t => SMap.get 0 t.seam.claims 9 = 5 ∧ t.seam.accClaim = 9) = true ∧
      runs' (.commandFrame [f, g]) s (fun t => t.rd Reg.SEAM_REJ = 2 ∧ t.fdl.rx = []) = true) := by
  refine ⟨?_, ?_, ?_, ?_⟩ <;> decide +kernel

theorem wit_FrameTransmission :
    (let s := setFdl { (cluster 5 ssSYNC 1).fdl with tx := [(1, some ⟨[7, 8, 9], 0⟩)] } (cluster 5 ssSYNC 1); s.live pdNET = true ∧
      s.sends 1 = true ∧ s.txPorts 1 = [0] ∧ s.fdl.sent = none ∧ s.txAt 1 < s.frameEnd ∧
      runs' (.slotTransmit 1) s (fun t => t.ctTicks = 4040 ∧ (t.fdl.sent.bind (·.payload)).map (·.drop 2) = some [9] ∧
        t.fdl.sent.map (·.hops) = some 0 ∧ t.fdl.sent.map (·.starts) = some [32320]) = true ∧
      runs' (.slotTransmit 2) s (fun t => t.fdl.sent = none) = true) ∧
    (let s := cluster 0 ssSYNC 2; s.sends 0 = true ∧
      runs' (.slotTransmit 0) s (fun t => t.fdl.sent.map (·.hops) = some 1 ∧ t.fdl.sent.map (·.starts) = some [17600]) = true) := by
  refine ⟨?_, ?_⟩ <;> decide +kernel

theorem wit_RelaysAndLinks :
    (let s := cluster 0 ssSYNC 2; let s := s.wr (Reg.FDL_Pp_MASK_L 0) (2 ^ 5); s.live pdNET = true ∧ s.relays = true ∧ s.reachable 0 1 = true ∧
      s.pclass 0 = 2 ∧ s.pstate 0 = psUP ∧
      runs' (.frameRelay 0 1 0 1 5 3 32320) s (fun t => (t.pt 0).relay = some 1) = true ∧
      runs' (.frameRelay 0 1 0 1 5 3 32640) s (fun t => t.rd (Reg.FDL_Pp_MON_EDGE 0) = 1) = true ∧
      runs' (.frameRelay 0 1 0 1 4 3 32320) s (fun t => t.isHeld Fc.SENDER_MISMATCH) = true ∧
      runs' (.frameRelay 0 2 0 2 6 3 48320) s (fun t => (t.pt 0).babble) = true) ∧
    (let s := ((cluster 5 ssSYNC 1).wr (Reg.FDL_Pp_CFG_CLASS 1) 2).wr (Reg.FDL_Pp_STAT_STATE 1) psUP;
      let s := setFdl { s.fdl with region := SMap.set 0 s.fdl.region 8 (2 ^ 10) } s; s.relays = true ∧ s.netRole = 1 ∧
      runs' (.frameRelay 0 0 1 0 64 3 0) s (fun t => (t.pt 0).star = some 1 ∧ t.fdl.relayed.map (·.hops) = some 2 ∧
        t.fdl.relayed.map (·.outs) = some [(1, 1280)]) = true ∧
      runs' (.frameRelay 0 0 1 0 128 3 0) (setPt 0 { star := some 1 } s) (fun t => t.fdl.relayed = none) = true ∧
      runs' (.frameRelay 0 2 1 2 7 3 0) s (fun t => t.isHeld Fc.SENDER_MISMATCH ∧ t.rd (Reg.FDL_Pp_CNT_TRUNC 0) = 1) = true) ∧
    (let s := setPt 0 { run := 3, relay := some 1, measured := true } ((cluster 0 ssSYNC 2).wr Reg.FDL_CFG2_BAB_N 3);
      s.relays = true ∧ s.pclass 0 = 2 ∧ (s.pt 0).relay = some 1 ∧
      runs' (.windowClose 0) s (fun t => (t.pt 0).relay = none ∧ (t.pt 0).babble) = true ∧
      runs' (.windowClose 0) (setFdl { s.fdl with relayed := some { slot := 1, src := 0, hops := 1, outs := [(1, 0)] } } s)
        (fun t => (t.fdl.relayed.map (·.cut)) = some true ∧ t.rd (Reg.FDL_Pp_CNT_TRUNC 0) = 1) = true ∧
      runs' (.portIsolated 0) s (fun t => t.pstate 0 = psISOLATED ∧ t.isHeld Fc.PORT_ISOLATED) = true ∧
      runs' (.linkDown 0) s (fun t => t.pstate 0 = psDOWN ∧ t.isHeld Fc.LINK_DOWN) = true ∧
      runs' (.fdlLinkUp 0) (s.wr (Reg.FDL_Pp_STAT_STATE 0) psMEASURING) (fun t => t.pstate 0 = psUP) = true ∧
      runs' (.reopen 0) (setPt 0 { quiet := 16 } (s.wr (Reg.FDL_Pp_STAT_STATE 0) psISOLATED)) (fun t => t.pstate 0 = psUP) = true) ∧
    (let s := (cluster 0 ssSYNC 2).wr (Reg.FDL_Pp_STAT_STATE 0) psDOWN;
      runs' (.linkDelayMeasurement 0 [1400, 1380, 1381] 100) s (fun t => t.rd (Reg.FDL_Pp_STAT_DLY 0) = 640 ∧ (t.pt 0).measured) = true ∧
      runs' (.linkDelayMeasurement 0 [1400, 1382, 1381] 100) s (fun t => t.isHeld Fc.LINK_DELAY ∧ ! (t.pt 0).measured) = true ∧
      let s := cluster 0 ssSYNC 2;
      runs' (.linkDelayMeasurement 0 [108] 100) s (fun t => (t.pt 0).newDly = none) = true ∧
      runs' (.linkDelayMeasurement 0 [108] 100) (setPt 0 { measuring := true } s) (fun t => (t.pt 0).newDly = some 4 ∧ ! t.isHeld Fc.LINK_DELAY) = true ∧
      runs' (.linkDelayMeasurement 0 [118] 100) (setPt 0 { measuring := true } s) (fun t => t.isHeld Fc.LINK_DELAY) = true) := by
  refine ⟨?_, ?_, ?_, ?_⟩ <;> decide +kernel

/-- One sync node, the manager, was heard with the deviation d in eighths of a tick. -/
def deviating (d : Int) : State := setFdl { (cluster 5 ssSYNC 1).fdl with devs := [(0, some d)] } (cluster 5 ssSYNC 1)

theorem wit_ClockSynchronisation :
    (let s := deviating 8; s.live pdNET = true ∧ s.sstate ∈ [ssINTEGRATE, ssSYNC, ssCOLDSTART] ∧ s.fdl.computed = false ∧
      s.modeValid s.netMode = true ∧ s.cycleStart + s.syncEnd s.netMode < s.frameEnd ∧
      runs' .syncComputation s (fun t => t.rd Reg.TIME_OFS_REQ_I = 2 ^ 32 - 1 ∧ t.rd Reg.TIME_OFS_REQ_F = 0 ∧ t.fdl.good = 1 ∧ t.time.ofsArmed) = true) ∧
    (let s := cluster 5 ssSYNC 1; runs' .syncComputation s (fun t => t.fdl.misses = 1 ∧ ! t.time.ofsArmed) = true ∧
      runs' .syncLost (setFdl { s.fdl with misses := 3 } s) (fun t => t.sstate = ssLOST ∧ t.isHeld Fc.SYNC_LOST) = true ∧
      runs' .syncLost (setFdl { s.fdl with misses := 2 } s) (fun t => t.sstate = ssSYNC) = true ∧
      6 ∈ s.expected ∧ runs' (.nodeLost 0 6) (setFdl { s.fdl with nodes := [(6, { silent := 3 })] } s) (fun t => t.isHeld Fc.NODE_LOST) = true) ∧
    (let s := cluster 5 ssINTEGRATE 1;
      runs' .integrateToSync (setFdl { s.fdl with good := 4 } s) (fun t => t.sstate = ssSYNC ∧ t.on Reg.FDL_STAT_ADMITTED) = true) ∧
    (let s := (cluster 0 ssLISTEN 2).put Reg.FDL_CTRL_COLDSTART true; runs' .coldstart s (fun t => t.sstate = ssCOLDSTART) = true ∧
      runs' .coldstartToSync (setFdl { s.fdl with coldCyc := 1 } (s.wr Reg.FDL_STAT_SSTATE ssCOLDSTART)) (fun t => t.sstate = ssSYNC) = true) := by
  refine ⟨?_, ?_, ?_, ?_⟩ <;> decide +kernel

theorem wit_ModeAgreementAndLeaving :
    (let s := (cluster 0 ssSYNC 2).wr Reg.ANV_STAT_VALID 3; s.live pdNET = true ∧ (s.wr Reg.FDL_MODE_PROP_MODE 1).iPropose = true ∧
      s.on Reg.ANV_CTRL_STANDALONE = false ∧ s.modeValid 1 = true ∧ s.on Reg.ANV_STAT_ARMED = false ∧ s.fdl.agreed = none ∧ s.fdl.prop = none ∧
      runs' (.fdlProp 1) s (fun t => t.fdl.prop = some { mode := 1 } ∧ t.on Reg.FDL_STAT_PEND) = true ∧
      runs' (.fdlProp 2) s (fun t => t.fdl.prop = none ∧ t.pends 132) = true) ∧
    (let s := setFdl { (cluster 0 ssSYNC 2).fdl with prop := some { mode := 0, cycles := 9 } } ((cluster 0 ssSYNC 2).wr Reg.FDL_CFG2_PROP_TOUT 9);
      s.fdl.prop = some { mode := 0, cycles := 9 } ∧ s.iPropose = true ∧
      runs' .cancel s (fun t => t.fdl.prop = none) = true ∧ runs' .proposalTimeout s (fun t => t.fdl.prop = none ∧ t.pends 132) = true) ∧
    (let s := setFdl { (cluster 5 ssSYNC 1).fdl with prop := some { mode := 0, commit := true }, splitDue := true } (cluster 5 ssSYNC 1);
      s.iPropose = false ∧ s.fdl.prop = some { mode := 0, commit := true } ∧
      runs' .modeSplit s (fun t => t.sstate = ssLOST ∧ t.isHeld Fc.MODE_SPLIT) = true ∧
      runs' .leave s (fun t => t.on Reg.FDL_STAT_LEAVE ∧ t.pends 136) = true) := by
  refine ⟨?_, ?_, ?_⟩ <;> decide +kernel

/-! ### Rings and CAN -/

/-- Command ring 0 and completion ring 1 of sixteen descriptors each in shared SRAM, both enabled, the command ring posted up to
index p; ring 0 serves every axis. -/
def rings (loc p : Nat) : State :=
  regsSet [(Reg.HIF_CTRL_EN, 1), (Reg.HIF_Rr_CFG_KIND 0, rkCOMMAND), (Reg.HIF_Rr_CFG_KIND 1, rkCOMPLETION), (Reg.HIF_Rr_CFG_LSIZE 0, 4),
    (Reg.HIF_Rr_CFG_LSIZE 1, 4), (Reg.HIF_Rr_CFG_LOC 0, loc), (Reg.HIF_Rr_CFG_LOC 1, loc), (Reg.HIF_Rr_CFG_CRING 0, 1),
    (Reg.HIF_Rr_CFG_AXMASK 0, 255), (Reg.HIF_Rr_BASE_L 0, 0x01000000 / 64), (Reg.HIF_Rr_BASE_L 1, 0x01001000 / 64), (Reg.HIF_Rr_CTL 0, 1),
    (Reg.HIF_Rr_CTL 1, 1), (Reg.HIF_Rr_STAT_PHASE 1, 1), (Reg.HIF_CFG_HORIZON, 100), (Reg.HIF_Rr_IDX_PI 0, p)]

/-- The command of opcode op due in frame 0 and its state on a tick, ready one clock before. -/
def dueCmd (op w3 : Nat) : Cmd := { ring := 0, cidx := 0, desc := [op + 2 ^ 16, 0, 0, w3, 5, 6, 7, 8], data := [] }
def dueOn (c : Cmd) (s : State) : State :=
  setHif { s.hif with queue := [c] } { s with time := { s.time with clk := 1 } }

theorem wit_RingsAndHostLink :
    (let s := rings 1 0; s.live pdHIF = true ∧ s.ringEn 0 = true ∧ s.loc 0 = 1 ∧
      runs' (.doorbell (.internal 0) true 15) s (fun t => t.rd (Reg.HIF_Rr_IDX_PI 0) = 15) = true ∧
      runs' (.doorbell (.internal 0) true 16) s (fun t => t.on (Reg.HIF_Rr_STAT_IDXERR 0) ∧ t.pends 176) = true ∧
      SMap.get false s.fcu.seen Fc.RING_ERR = false ∧
      runs' (.doorbell (.internal 1) true (2 ^ 31)) s (fun t => t.on (Reg.HIF_Rr_IRQ_ARM 1)) = true ∧
      runs' (.doorbell (.bar2 0) true 15) s (fun t => t.rd (Reg.HIF_Rr_IDX_PI 0) = 0) = true) ∧
    (let s := rings 0 0; s.loc 0 = 0 ∧ (0x80 * 0 < 4096) ∧ ¬ (4 < 0x800 ∧ 4 % 0x80 = 0) ∧ ¬ (0x800 < 0x800 ∧ 0x800 % 0x80 = 0) ∧
      runs' (.doorbell (.bar2 0) true 15) s (fun t => t.rd (Reg.HIF_Rr_IDX_PI 0) = 15) = true ∧
      runs' (.doorbell (.bar2 0x9FC) true 15) s (fun t => SMap.get 0 t.hif.msix 127 = 15) = true ∧
      runs' (.doorbell (.bar2Read 0x9FC) true 0) (setHif { s.hif with msix := [(127, 15)] } s) (fun t => t.dev.readData = 15) = true ∧
      runs' (.doorbell (.bar2Read 0xC00) true 0) (setHif { s.hif with pba := 6 } s) (fun t => t.dev.readData = 6) = true ∧
      runs' (.doorbell (.config 0) true 0) s (fun t => t.dev.readData = 0x96481F96) = true ∧
      runs' .functionLevelReset s (fun t => ! t.ringEn 0 ∧ t.isHeld Fc.HOST_RESET ∧ t.pends 178) = true ∧
      runs' .pcieLinkDown (s.put Reg.HIF_STAT_LINK_UP true) (fun t => ! t.ringEn 0 ∧ t.isHeld Fc.PCIE_LINK_DOWN) = true ∧
      runs' .hostSilent (setHif { s.hif with silent := 3 } (s.wr Reg.HIF_CFG_HOST_TOUT 3)) (fun t => t.isHeld Fc.HOST_SILENT) = true) ∧
    (let s := (rings 1 0).wr (Reg.HIF_Rr_CTL 0) 0; s.ringEn 0 = false ∧ s.ringCfgBad 0 = false ∧
      runs' (.ringEnable 0) s (fun t => t.ringEn 0 ∧ t.on (Reg.HIF_Rr_STAT_PHASE 0)) = true) ∧
    (let s := (rings 1 0).wr (Reg.HIF_Rr_CFG_KIND 2) 4;
      let s := { ((s.wr (Reg.HIF_Rr_CFG_LOC 2) 1).wr (Reg.HIF_Rr_CFG_LSIZE 2) 4).wr (Reg.HIF_Rr_BASE_L 2) (0x01002000 / 64) with cec := { s.cec with cover := some (2, 0) } };
      s.ringEn 2 = false ∧ s.ringCfgBad 2 = false ∧ s.cec.cover = some (1 + 1, 0) ∧ s.rd (Reg.HIF_Rr_CFG_KIND 2) = 4 ∧ s.loc 2 = 1) ∧
    (let c := dueCmd 0 0; let s := dueOn c (rings 1 0); s.ringEn 0 = true ∧ s.hif.queue.filter (fun c => c.ring = 0) = [c] ∧
      s.ringOpen 1 rkCOMPLETION = true ∧ s.ringFree 1 ≠ 0 ∧ 1 ≠ 0 ∧
      s.hif.status = [] ∧ runs' (.ringDisable 0) s (fun t => t.hif.queue = [] ∧ t.rd (Reg.HIF_Rr_IDX_PI 1) = 1) = true ∧
      let s := setHif { s.hif with queue := [], status := [c] } s;
      (s.hif.status ++ s.hif.queue).filter (fun c => c.ring = 0) = [c] ∧
      runs' (.ringDisable 0) s (fun t => t.hif.status = [] ∧ t.rd (Reg.HIF_Rr_IDX_PI 1) = 1) = true) := by
  refine ⟨?_, ?_, ?_, ?_, ?_⟩ <;> decide +kernel

theorem wit_DescriptorFetched :
    (let s := rings 1 1; s.live pdHIF = true ∧ s.ringOpen 0 rkCOMMAND = true ∧ s.rd (Reg.HIF_Rr_IDX_PI 0) ≠ s.rd (Reg.HIF_Rr_IDX_CI 0) ∧
      runs' (.descriptorFetch 0 9 { desc := [], data := [], descOk := true, dataOk := true }) s
        (fun t => t.hif.queue.length = 1 ∧ t.rd (Reg.HIF_Rr_IDX_CI 0) = 1 ∧ t.time.clk = 9) = true) ∧
    (let s := rings 0 1;
      runs' (.descriptorFetch 0 9 { desc := [0x00010000, 0, 0, 0], data := [], descOk := false, dataOk := true }) s
        (fun t => t.on (Reg.HIF_Rr_STAT_STOPPED 0) ∧ t.isHeld Fc.DMA_ERR) = true ∧
      runs' (.descriptorFetch 0 9 { desc := [0x00011000, 0, 0, 0], data := [], descOk := true, dataOk := true }) s
        (fun t => t.hif.queue = [] ∧ t.rd (Reg.HIF_Rr_IDX_CI 0) = 1) = true ∧
      runs' (.descriptorFetch 0 9 { desc := [0, 100, 100, 0], data := [], descOk := true, dataOk := true }) s (fun t => t.hif.queue.length = 1) = true ∧
      runs' (.descriptorFetch 0 9 { desc := [0, 101, 101, 0], data := [], descOk := true, dataOk := true }) s (fun t => t.hif.queue = []) = true) := by
  refine ⟨?_, ?_⟩ <;> decide +kernel

theorem wit_CommandsApplied :
    (let c := dueCmd 0x00 0; let s := dueOn c (rings 1 0); s.live pdHIF = true ∧ s.nextDue = some c ∧
      runs' .hostNop s (fun t => t.hif.queue = [] ∧ t.rd (Reg.HIF_Rr_IDX_PI 1) = 1) = true) ∧
    (let s := dueOn (dueCmd 0x01 0x10200) (rings 1 0); s.gone = false ∧ s.spFdl 0 = false ∧
      runs' .setInline s (fun t => t.hif.queue = [] ∧ (t.a 0).act = 0 ∧ (t.a 0).bank = [(64, 5), (65, 6), (66, 7)]) = true) ∧
    (let s := { dueOn (dueCmd 0x00 0) (rings 1 0) with time := { small.time with clk := 1, fc := 1 } };
      runs' .hostNop s (fun t => getWord t.mem 0x01001000 % 256 = stSTALE ∧ t.hif.queue = []) = true) ∧
    (let s := dueOn (dueCmd 0x20 0) (rings 1 0); runs' (.hostLoad false) s (fun t => t.sec.queue.length = 1 ∧ t.on Reg.SEC_STAT_BUSY) = true) ∧
    (let s := dueOn (dueCmd 0x10 0) (rings 1 0);
      let s := { s with fdl := { s.fdl with leaving := true }, regs := ((s.put Reg.FDL_CTRL_EN true).put Reg.FDL_STAT_LEAVE true).regs };
      s.gone = true ∧ s.hif.gone = false ∧ (hifLeaving s).hif.queue = []) ∧
    (let s := dueOn (dueCmd 0x10 0) (rings 1 0); runs' .readStatus s (fun t => t.hif.status.length = 1) = true) ∧
    (let c := dueCmd 0x10 0;
      let s := setHif { small.hif with status := [c] } (rings 0 0);
      let s := s.wr (Reg.HIF_Rr_CTL 1) 0;
      s.hif.status = c :: [] ∧ s.on Reg.ANV_STAT_RUNNING = false ∧ s.loc c.ring = 0 ∧
      s.ringOpen (s.rd (Reg.HIF_Rr_CFG_CRING c.ring)) rkCOMPLETION = false ∧ s.calm ∧
      runs' (.readStatusCopy .ok) s (fun t => t.hif.status = []) = true) ∧
    ([0, 0, 0, 0, 0, 0, 2 ^ 32 - 1].length = 7 ∧ ∀ x ∈ (0 :: [0, 0, 0, 0, 0, 0, 2 ^ 32 - 1]), x < 2 ^ 32 ) := by
  refine ⟨?_, ?_, ?_, ?_, ?_, ?_, ?_, ?_⟩ <;> decide +kernel

theorem wit_CanControllers :
    (let s := dueOn (dueCmd 0x40 0x123) (rings 1 0); s.live pdHIF = true ∧ s.nextDue.isSome = true ∧
      runs' .canTx s (fun t => t.hif.queue = [] ∧ (t.cc (dueCmd 0x40 0x123).canCtl).txq.length = 1) = true) ∧
    (let f : CanFrame := ⟨dueCmd 0x40 0, 7, 0, [], 0⟩; let g : CanFrame := ⟨dueCmd 0x40 0, 5, 0, [], 0⟩
      let s := (rings 1 0).setCc 1 { txq := [f, g] };
      let s := s.wr (Reg.CAN_Cc_CTRL_EN 1) 1;
      firstFrame [f, g] = some g ∧ s.canOn 1 = true ∧
      runs' (.canTxDone 1 0) s (fun t => (t.cc 1).txq = [f] ∧ t.pends 185) = true) ∧
    (let f : CanFrame := ⟨dueCmd 0x40 0, 7, 0, [], 0⟩;
      let s := (rings 1 0).setCc 1 { txq := [f] };
      runs' (.canTxStale 1 none) { s with time := { s.time with fc := 1 } } (fun t => (t.cc 1).txq = []) = true ∧
      runs' (.canTxStale 1 (some 0)) { s with time := { s.time with fc := 1 } } (fun t => (t.cc 1).txq = [f]) = true) ∧
    (let s := regsSet [(Reg.CAN_Cc_CTRL_EN 0, 1), (Reg.CAN_Cc_Ff_ID_EN 0 31, 1), (Reg.CAN_Cc_Ff_GRD_LENMAX 0 31, 8), (Reg.CAN_Cc_Ff_GRD_TOUT 0 31, 4)];
      s.canOn 0 = true ∧ s.canFilter 0 5 false = some 31 ∧ ((someCan false false 8 8).len.val ≤ 12) ∧
      runs' (.canRx 0 (someCan false false 8 8)) s (fun t => t.rd (Reg.CAN_Cc_CNT_RXDROP 0) = 1) = true ∧
      runs' (.canRx 0 (someCan false false 9 9)) s (fun t => t.rd (Reg.CAN_Cc_CNT_GUARDFAIL 0) = 1) = true ∧
      s.rd (Reg.CAN_Cc_STAT_STATE 0) = 0 ∧ runs' (.canErrorState 0 0 9 8) s (fun t => t.rd (Reg.CAN_Cc_STAT_TEC 0) = 9 ∧ t.rd (Reg.CAN_Cc_STAT_REC 0) = 8) = true ∧
      runs' (.canRx 0 (someCan false false 8 8)) (s.put (Reg.CAN_Cc_CTRL_LOOP 0) true) (fun t => t.rd (Reg.CAN_Cc_CNT_RXDROP 0) = 0) = true ∧
      runs' (.canRx 0 (someCan false false 9 9)) (s.put (Reg.CAN_Cc_Ff_GRD_CLASS 0 31) true) (fun t => t.isHeld (Fc.CAN_GUARD_S 0)) = true ∧
      runs' (.canErrorState 0 2 255 127) s (fun t => t.isHeld (Fc.CAN_BUS_OFF 0) ∧ t.rd (Reg.CAN_Cc_STAT_STATE 0) = canBUSOFF) = true ∧
      runs' (.recover 0) (s.wr (Reg.CAN_Cc_STAT_STATE 0) canBUSOFF) (fun t => (t.cc 0).recovering) = true ∧
      runs' (.canGuardTimeout 0 31) (s.setCc 0 { age := [(31, 4)] }) (fun t => t.isHeld (Fc.CAN_GUARD_M 0)) = true) := by
  refine ⟨?_, ?_, ?_, ?_⟩ <;> decide +kernel

/-! ### Interrupts, tasks and faults -/

/-- Source src is enabled for target 1 (core A of pair 0) and pending. -/
def intOn (src : Nat) : State :=
  irq src (regsSet [(Reg.INTC_CTRL_EN, 1), (pairFld 0, pairINSERVICE), (Reg.INTC_SRCs_EN src, 1), (Reg.INTC_SRCs_TGT src, 1)])

/-- It is presented to target t. -/
def intShown (t src : Nat) : State := ((intOn src).wr (Reg.INTC_Tt_PRES_VALID t) 1).wr (Reg.INTC_Tt_PRES_SRC t) src

/-- It is in service at target t. -/
def intServed (t src : Nat) : State := ((intOn src).wr (Reg.INTC_Tt_INSV_VALID t) 1).wr (Reg.INTC_Tt_INSV_SRC t) src

theorem wit_InterruptDelivery :
    (let s := irq 3 ((intOn 7).wr (Reg.INTC_SRCs_TGT 3) 2);
      s.live 0 = true ∧ s.pends 7 = true ∧ s.on (Reg.INTC_SRCs_EN 7) = true ∧ s.rd (Reg.INTC_SRCs_TGT 7) = 0 + 1 ∧ s.pends 3 = true ∧
      runs' (.interruptPresent 0) s (fun t => t.on (Reg.INTC_Tt_PRES_VALID 0) ∧ t.rd (Reg.INTC_Tt_PRES_SRC 0) = 7) = true ∧
      runs' (.interruptPresent 0) (s.put (Reg.INTC_SRCs_EN 7) false) (fun t => ! t.on (Reg.INTC_Tt_PRES_VALID 0)) = true ∧
      runs' (.interruptPresent 0) (s.put (Reg.INTC_CTRL_EN) false) (fun t => ! t.on (Reg.INTC_Tt_PRES_VALID 0)) = true) ∧
    (let s := intShown 0 7; s.offered 0 = some (7, false) ∧ s.calm ∧ s.time.rem = 0 ∧ s.split = false ∧ (s.pr 0).log.length < 64 ∧
      (s.pr 0).resync = false ∧ (s.pr 0).halted = none ∧ s.mainCan 0 12 = true ∧
      runs' (.interruptAccept 0 12 9) s (fun t => t.on (Reg.INTC_Tt_INSV_VALID 0) ∧ t.rd (Reg.INTC_Tt_INSV_SRC 0) = 7 ∧ ! t.pends 7 ∧
        (t.pr 0).log = [⟨12, 11, 7, false⟩] ∧ (t.pr 0).main.trap = some 11 ∧ t.rd (Reg.INTC_Tt_CNT 0) = 1) = true ∧
      runs' (.interruptAccept 0 12 9) (s.put (Reg.INTC_SRCs_LVL 7) true) (fun t => (t.pr 0).main.trap = some 9) = true ∧
      runs' (.interruptAccept 2 12 9) ((intShown 2 7).put Reg.CHK_STAT_SPLIT true)
        (fun t => (t.pr 0).chk.trap = some 11 ∧ (t.pr 0).log = []) = true) ∧
    (let s := (setIntc { (intOn 7).intc with enOff := [(7, 6)], presAt := [(0, 5)] } (intShown 0 7)).put (Reg.INTC_SRCs_EN 7) false;
      let s := { s with time := { s.time with clk := 9 } }; s.offered 0 = some (7, true) ∧ s.time.clk ≤ SMap.get 0 s.intc.presAt 0 + 4 ∧
      ({ s with time := { s.time with clk := 10 } } : State).offered 0 = none ∧
      ({ s with time := { s.time with clk := 5 } } : State).offered 0 = some (7, false) ∧
      runs' (.interruptPresent 0) { s with time := { s.time with clk := 9 } } (fun t => t.on (Reg.INTC_Tt_PRES_VALID 0)) = true ∧
      runs' (.interruptPresent 0) { s with time := { s.time with clk := 10 } } (fun t => ! t.on (Reg.INTC_Tt_PRES_VALID 0)) = true ∧
      runs' (.interruptAccept 0 12 9) s (fun t => t.on (Reg.INTC_Tt_INSV_LATE 0)) = true) ∧
    (let s := intServed 0 7; s.runs = true ∧
      runs' (.intcDone 0 7) s (fun t => ! t.on (Reg.INTC_Tt_INSV_VALID 0)) = true ∧
      runs' (.intcDone 0 8) s (fun t => t.on (Reg.INTC_Tt_INSV_VALID 0) ∧ t.on Reg.INTC_STAT_DMISM ∧ t.isHeld Fc.DONE_MISMATCH) = true ∧
      runs' (.swset 0x8001) s (fun t => t.pends 240 ∧ t.pends 255 ∧ ! t.pends 241) = true) ∧
    (let s := intShown 0 7; s.runs = true ∧ s.on Reg.INTC_CTRL_LOCK = false ∧ s.on (Reg.INTC_Tt_PRES_VALID 0) = true ∧
      s.rd (Reg.INTC_Tt_PRES_SRC 0) = 7 ∧ (2 : Nat) ≤ 2 ∧ s.rd (Reg.INTC_SRCs_TGT 7) ≠ 2 ∧
      runs' (.sourceConfigWrite 7 0b110101) s (fun t => t.rd (Reg.INTC_SRCs_TGT 7) = 2 ∧ SMap.get none t.intc.held 0 = some 7 ∧
        t.on (Reg.INTC_SRCs_LVL 7) ∧ t.on (Reg.INTC_SRCs_WAKE 7)) = true ∧
      runs' (.sourceConfigWrite 7 0b000111) s (fun t => t.rd (Reg.INTC_SRCs_TGT 7) = 1 ∧ t.on Reg.INTC_STAT_WDENY) = true ∧
      runs' (.sourceConfigWrite 7 0b000010) s (fun t => t.on (Reg.INTC_Tt_PRES_VALID 0) ∧ SMap.get 0 t.intc.enOff 7 = 2) = true ∧
      runs' (.sourceConfigWrite 7 0b110101) (s.put Reg.INTC_CTRL_LOCK true)
        (fun t => t.rd (Reg.INTC_SRCs_TGT 7) = 1 ∧ ! t.on (Reg.INTC_SRCs_LVL 7)) = true) := by
  refine ⟨?_, ?_, ?_, ?_, ?_⟩ <;> decide +kernel

/-- The target sleeps: its power domain is off. -/
theorem wit_WakeVotes :
    let s := (((intOn 7).put (Reg.INTC_SRCs_WAKE 7) true).wr Reg.PWR_DOM 0);
    s.asleep 0 = true ∧ s.pends 7 = true ∧ s.on (Reg.INTC_SRCs_EN 7) = true ∧ s.on (Reg.INTC_SRCs_WAKE 7) = true ∧
    s.rd (Reg.INTC_SRCs_TGT 7) = 0 + 1 ∧ s.runs = true ∧
    runs' (.sourceConfigWrite 7 0b000010) s (fun t => (7, 0) ∈ t.intc.votes ∧ t.wakeReq 0) = true := by
  decide +kernel

/-- The task unit of pair 0 is on with these tasks; ARG is a; its trace goes to 0x01000000 and its spills to 0x01004000. -/
def tasks (a : Nat) (l : List (Nat × TaskSt)) : State :=
  let s := regsSet [(Reg.TSK_Px_CTRL_EN 0, 1), (Reg.TSK_Px_ARG 0, a), (Reg.TSK_Px_TRBASE 0, 0x1000), (Reg.TSK_Px_SPILL 0, 0x8020)];
  s.setTu 0 { tasks := l, seqCtr := 9 }

theorem wit_TaskCommands :
    (let s := (tasks 5 []).put (Reg.TSK_Px_CTRL_EN 0) false; s.tskOn 0 = false ∧ runs' (.taskYield 0 0) s (fun t => t.rd (Reg.TSK_Px_CMDCNT 0) = 0) = true) ∧
    (let s := tasks 5 [(3, { st := 1, mask := 7, flags := 2, autoclr := true }), (4, { st := 3, prio := 6 }), (5, { st := 2, prio := 2 })];
      s.tskOn 0 = true ∧ (s.tu 0).wait = none ∧ s.markNow 0 = none ∧ (s.hwq 0).length ≤ 64 ∧ (s.tk 0 9).st = 0 ∧ (s.tk 0 3).st = 1 ∧ s.running 0 = some 4 ∧ s.head 0 = some 5 ∧
      runs' (.taskStart 0 9 1 true false) s (fun t => t.tk 0 9 = ⟨2, 1, true, false, 0, 5, 0, 9, none⟩ ∧ (t.tu 0).seqCtr = 10) = true ∧
      runs' (.taskStart 0 5 1 true false) s (fun t => t.on (Reg.TSK_Px_STAT_CMDBAD 0) ∧ t.pends 195 ∧ t.rd (Reg.TSK_Px_CMDCNT 0) = 0) = true ∧
      runs' (.taskSet 0 3) s (fun t => t.tk 0 3 = { st := 2, mask := 7, flags := 0, autoclr := true, hit := 7, seq := 9 }) = true ∧
      runs' (.taskClear 0 3) s (fun t => (t.tk 0 3).flags = 2) = true ∧
      runs' (.taskPrio 0 3 4) s (fun t => (t.tk 0 3).prio = 4) = true ∧
      runs' (.taskStop 0 4 77) s (fun t => (t.tk 0 4).st = 0 ∧ t.running 0 = some 5 ∧ t.rd (Reg.TSK_Px_CUR_DSEQ 0) = 1 ∧
        t.rd (Reg.TSK_Px_TRWP_WP 0) = 16 ∧ getWord t.mem 0x0100000C = 77) = true ∧
      runs' (.taskStop 0 5 77) s (fun t => (t.tk 0 5).st = 0 ∧ t.running 0 = some 4) = true ∧
      runs' (.taskWait 0 true true 77) s (fun t => (t.tk 0 4).st = 1 ∧ (t.tk 0 4).mask = 5 ∧ t.running 0 = some 5) = true ∧
      runs' (.taskWait 0 true true 77) (s.wr (Reg.TSK_Px_ARG 0) 0) (fun t => t.on (Reg.TSK_Px_STAT_CMDBAD 0)) = true ∧
      runs' (.taskYield 0 77) s (fun t => (t.tk 0 4).seq = 9 ∧ t.running 0 = some 5 ∧ t.pends 192) = true ∧
      runs' (.taskSwitch 0 77) s (fun t => (t.tk 0 4).st = 2 ∧ t.running 0 = some 5) = true ∧
      s.on Reg.HIF_CFG_EVTEN = false ∧ inSram (s.rd (Reg.TSK_Px_TRBASE 0) * 4096 + s.rd (Reg.TSK_Px_TRWP_WP 0)) 16 = true) ∧
    (let s := tasks 5 [(3, { st := 1 })]; s.running 0 = none ∧
      runs' (.taskYield 0 77) s (fun t => t.on (Reg.TSK_Px_STAT_CMDBAD 0)) = true ∧
      runs' (.taskWait 0 true true 77) s (fun t => t.on (Reg.TSK_Px_STAT_CMDBAD 0)) = true ∧
      runs' (.taskSwitch 0 77) s (fun t => t.running 0 = none ∧ ! t.on (Reg.TSK_Px_CUR_VALID 0) ∧ t.pends 192) = true) ∧
    (let s := tasks 5 [(4, { st := 3 }), (5, { st := 2, slot := some 0 })];
      s.hwq 0 = [] ∧ s.spilled 0 ≠ [] ∧ (s.tk 0 5).slot = some 0 ∧ s.on Reg.HIF_CFG_EVTEN = false ∧
      runs' (.taskPrio 0 5 4) s (fun t => (t.tk 0 5).prio = 4 ∧ getWord t.mem 0x01004000 % 2 ^ 16 = 5 + 4 * 2 ^ 8) = true ∧
      runs' (.taskYield 0 77) (tasks 5 [(5, { st := 2, slot := some 0 })]) (fun t => t.on (Reg.TSK_Px_STAT_CMDBAD 0)) = true ∧
      runs' (.taskStop 0 4 77) s (fun t => (t.tu 0).wait = some ⟨2, some 4, 77⟩) = true) ∧
    (let s := tasks 5 [(5, { st := 2, slot := some 0 })];
      let s := { s with mem := putWords s.mem 0x01004000 (({ st := 2, slot := some 0 } : TaskSt).entry 5) };
      let s := s.setTu 0 { s.tu 0 with wait := some ⟨2, some 4, 77⟩ };
      let u := withPreempt 0 (refillOne 0) (advance 8 s);
      s.tskOn 0 = true ∧ (s.tu 0).wait ≠ none ∧ (u.tu 0).wait = none ∧
      runs' (.taskPrio 0 9 4) s (fun t => t.running 0 = some 5 ∧ (t.tk 0 9).prio = 4) = true) ∧
    (let x : TaskSt := { st := 1, mask := 5, flags := 4 };
      let s := tasks 5 [(3, { x with st := 2, seq := 9 })];
      let s := s.setTu 0 { s.tu 0 with seqCtr := 10, mark := some ⟨0, [3], [(3, x)], 9, false⟩ };
      s.tskOn 0 = true ∧ (s.tu 0).wait = none ∧ (s.markNow 0).map (·.named) = some [3] ∧ ((unjudged 0 s).hwq 0).length ≤ 64 ∧
      ((unjudged 0 s).tk 0 3).st = 1 ∧ runs' (.taskClear 0 3) s (fun t => t.tk 0 3 = { x with flags := 0 } ∧ (t.tu 0).seqCtr = 9) = true) ∧
    (let s := tasks 5 [(4, { st := 2, prio := 6 }), (5, { st := 2, prio := 9, slot := some 0 })];
      (s.tk 0 5).slot ≠ none ∧ (setTk 0 5 { s.tk 0 5 with prio := 1 } s).worst 0 ((setTk 0 5 { s.tk 0 5 with prio := 1 } s).hwq 0) = some 4 ∧
      runs' (.taskPrio 0 5 1) s (fun t => (t.tk 0 5).slot = none ∧ (t.tk 0 5).prio = 1) = true) := by
  refine ⟨?_, ?_, ?_, ?_, ?_, ?_, ?_⟩ <;> decide +kernel

theorem wit_TaskQueueAndEnable :
    (let s := tasks 5 [(4, { st := 2, prio := 6 }), (5, { st := 2, prio := 2 })]; s.head 0 = some 5) ∧
    (let s := tasks 5 [(4, { st := 2, prio := 6 }), (5, { st := 2, prio := 2, slot := some 0 })]; s.toSpill 0 = some 4 ∧
      s.on (Reg.TSK_Px_STAT_SPILLERR 0) = false ∧ ((s.tu 0).tasks.filterMap fun x => x.2.slot).length < 64 ∧ s.on Reg.HIF_CFG_EVTEN = false ∧
      inSram (s.rd (Reg.TSK_Px_SPILL 0) * 512 + 8) 8 = true ∧
      runs' (.taskSpill 0) s (fun t => (t.tk 0 4).slot = some 1 ∧ getWord t.mem 0x01004008 % 2 ^ 16 = 4 + 6 * 2 ^ 8) = true ∧
      runs' (.taskSpill 0) (tasks 5 [(4, { st := 2 })]) (fun t => (t.tk 0 4).slot = none) = true) ∧
    (let x : TaskSt := { st := 2, prio := 2, seq := 3, slot := some 0 };
      let s := tasks 5 [(5, x)];
      let r := { s with mem := putWords s.mem 0x01004000 (x.entry 5) };
      s.best 0 (s.spilled 0) = some 5 ∧ s.toSpill 0 = none ∧ (s.hwq 0).length < 56 ∧ (s.tu 0).wait = none ∧
      runs' (.taskRefill 0 .ok) r (fun t => (t.tk 0 5).slot = none ∧ (t.tk 0 5).st = 2) = true ∧
      runs' (.taskRefill 0 .ok) (r.setTu 0 { r.tu 0 with wait := some ⟨2, none, 0⟩ }) (fun t => t.running 0 = some 5 ∧ t.pends 192) = true ∧
      runs' (.taskRefill 0 .ok) s (fun t => t.on (Reg.TSK_Px_STAT_SPILLERR 0) ∧ t.isHeld (Fc.TSK_SPILL_ERR 0)) = true ∧ x.prio < 16) ∧
    (let s := tasks 5 [(5, { st := 3, prio := 2 })];
      runs' (.tskEnable 0) s (fun t => t.running 0 = some 5) = true ∧ s.on (Reg.TSK_Px_CTRL_EN 0) = true ∧
      runs' (.tskEnable 0) (s.put (Reg.TSK_Px_CTRL_EN 0) false) (fun t => t.running 0 = none ∧ (t.tk 0 5).prio = 15) = true) := by
  refine ⟨?_, ?_, ?_, ?_⟩ <;> decide +kernel

/-- A device state beside small. -/
def inState (d : DevState) : State := { small with dev := { small.dev with state := d } }

/-- One raise, as a test of the state it leaves. -/
def raises (code : Nat) (s : State) (p : State → Bool) : Bool := p (raise1 { code := code, axes := 4 } s)

theorem wit_FaultRaisedAndReaction :
    (let c := Fc.LEE_EXPIRED; let s := inState .active; oncePerFrame c = false ∧ faultClass c = .s ∧ s.reactOf c = .safe ∧
      s.on Reg.FCU_REC_VALID = false ∧ s.dev.state ≠ .replay ∧ s.dev.state ≠ .safe ∧
      raises c s (fun t => t.dev.state = .safe ∧ t.isHeld c ∧ t.pends 0 ∧ t.pends 5 ∧ t.pends 6 ∧ t.fcu.supReq = 255 ∧ t.role = roleOFFLINE ∧
        t.rd Reg.FCU_REC_CODE = c ∧ t.rd Reg.FCU_LOGWP_WP = 1) = true ∧
      raises c (s.put Reg.FCU_REC_VALID true) (fun t => t.pends 7 ∧ t.rd Reg.FCU_REC_COUNT = 1 ∧ t.rd Reg.FCU_REC_CODE = 0) = true ∧
      (let s := setFcu { s.fcu with recAt := some 0 } ((s.put Reg.FCU_REC_VALID true).wr Reg.FCU_REC_CLASS 1);
        s.fcu.recAt = some s.time.clk ∧ raises c s (fun t => t.rd Reg.FCU_REC_CODE = c ∧ t.rd Reg.FCU_REC_COUNT = 1) = true) ∧
      raises c (inState .replay) (fun t => t.dev.state = .replay ∧ t.isHeld c) = true) ∧
    (let c := Fc.HOST_SILENT; let s := inState .active; faultClass c = .m ∧ s.reactOf c ≠ .none ∧ raises c s (fun t => t.pends 4 ∧ t.isHeld c) = true) ∧
    (let c := Fc.RING_ERR; let s := inState .active; faultClass c = .i ∧ s.reported c = false ∧ s.reactOf c = .none ∧
      raises c s (fun t => ! t.isHeld c ∧ SMap.get 0 t.fcu.count c = 1 ∧ t.rd Reg.FCU_LOGWP_WP = 0) = true) ∧
    (let c := Fc.LEE_EXPIRED; let s := inState .active;
      let l := setFcu { s.fcu with react := [(c, some .lee)] } s; l.reactOf c = .lee ∧ raises c l (fun t => t.dev.state = .lee) = true ∧
      (let l := { duplex roleSTANDBY 2 3 .standby with fcu := l.fcu };
        l.reactOf c = .lee ∧ l.dev.state = .standby ∧ l.inSet = true ∧ l.split = false ∧ raises c l (fun t => t.role = roleOBSERVER) = true) ∧
      (let l := setFcu { s.fcu with react := [(c, some .axisSafe)] } s;
        l.reactOf c = .axisSafe ∧ raises c l (fun t => t.dev.state = .active ∧ t.fcu.supReq = 4) = true) ∧
      (let l := setFcu { s.fcu with react := [(c, some .reset)] } s; l.reactOf c = .reset ∧ s.dev.resetDue = none ∧
        raises c l (fun t => t.dev.resetDue = some (4000, 5)) = true)) := by
  refine ⟨?_, ?_, ?_, ?_⟩ <;> decide +kernel

/-- The device is in LEE since tick 0, with LIMIT 1 s and WARN of that reached w ticks before. -/
def leeSince (ct : Nat) : State :=
  let s := (inState .lee).wr Reg.FCU_LEE_LIMIT 2;
  let s := s.wr Reg.FCU_LEE_WARN 1;
  setFcu { s.fcu with leeEntry := some 0 } { s with time := { s.time with lt := BitVec.ofNat 96 (ct * 2 ^ 32) } }

theorem wit_LeeTimerPinsAndClearing :
    (let s := leeSince 0; s.runs = true ∧ s.fcu.leeEntry = some 0 ∧ s.fcu.leeWarned = false ∧ s.rd Reg.FCU_LEE_WARN ≠ 0 ∧
      runs' .leeWarn s (fun t => t.pends 2 ∧ t.ctTicks = 400000000) = true ∧
      runs' .leeExpired (leeSince 800000000) (fun t => t.isHeld Fc.LEE_EXPIRED ∧ t.dev.state = .safe) = true ∧
      runs' .leeExpired (leeSince 799999999) (fun t => t.dev.state = .lee) = true) ∧
    (let s := inState .standby; s.holdsClass .s = false ∧
      runs' .fltEdge s (fun t => ! t.on Reg.FCU_STAT_FLT_P ∧ t.on Reg.FCU_STAT_FLT_N ∧ t.ctTicks = 20000) = true ∧
      runs' .fltEdge (inState .safe) (fun t => ! t.on Reg.FCU_STAT_FLT_P ∧ ! t.on Reg.FCU_STAT_FLT_N) = true ∧
      s.fcu.fltP = false ∧ s.fcu.fltMis = false ∧
      runs' (.fltReadbackCheck true false) s (fun t => t.fcu.fltMis ∧ ! t.isHeld Fc.FLT_READBACK) = true ∧
      (let s := setFcu { s.fcu with fltMis := true, fltCheck := some 0 } { s with time := { s.time with lt := BitVec.ofNat 96 (20000 * 2 ^ 32) } };
        s.fcu.fltCheck ≠ some (s.ctTicks / 20000) ∧ 0 + 1 = s.ctTicks / 20000 ∧
        runs' (.fltReadbackCheck true false) s (fun t => t.isHeld Fc.FLT_READBACK) = true ∧
        runs' (.fltReadbackCheck true false) (setFcu { s.fcu with fltCheck := some 1 } s) (fun t => ! t.isHeld Fc.FLT_READBACK) = true)) ∧
    (let s := (small.wr Reg.FCU_LOGWP_WP 5).wr Reg.FCU_LOGRP_UNREAD 3; let s := s.wr Reg.FCU_LOGRP_RP 2;
      runs' .recordClear (s.put Reg.FCU_REC_VALID true) (fun t => ! t.on Reg.FCU_REC_VALID) = true ∧
      (let s := setFcu { s.fcu with recAt := some 9 } (s.put Reg.FCU_REC_VALID true);
        let m := raise1 { code := Fc.HOST_SILENT } s;
        m.fcu.mergeAt = m.time.clk ∧ m.fcu.merged.map (·.code) = [Fc.HOST_SILENT] ∧ m.fcu.recAt ≠ some m.time.clk ∧
        runs' .recordClear m (fun t => t.on Reg.FCU_REC_VALID ∧ t.rd Reg.FCU_REC_CODE = Fc.HOST_SILENT ∧ t.rd Reg.FCU_REC_COUNT = 0) = true) ∧
      runs' (.logRpWrite 5) s (fun t => t.rd Reg.FCU_LOGRP_UNREAD = 0 ∧ t.rd Reg.FCU_LOGRP_RP = 5) = true ∧
      runs' (.logRpWrite 4) s (fun t => t.rd Reg.FCU_LOGRP_UNREAD = 1 ∧ t.rd Reg.FCU_LOGRP_RP = 4) = true ∧
      runs' (.logRpWrite 6) s (fun t => t.on Reg.FCU_STAT_WDENY ∧ t.rd Reg.FCU_LOGRP_RP = 2) = true) ∧
    (let s := small.wr Reg.FCU_SEL Fc.LEE_EXPIRED; faultRow Fc.LEE_EXPIRED ≠ none ∧ s.on Reg.FCU_CTRL = false ∧
      runs' (.reactWrite 5) s (fun t => t.reactOf Fc.LEE_EXPIRED = .reset ∧ ! t.on Reg.FCU_STAT_WDENY) = true ∧
      runs' (.reactWrite 0) s (fun t => t.on Reg.FCU_STAT_WDENY ∧ t.reactOf Fc.LEE_EXPIRED = .safe) = true ∧
      runs' (.reactWrite 8) (small.wr Reg.FCU_SEL Fc.RING_ERR) (fun t => t.reported Fc.RING_ERR) = true ∧
      runs' (.reactWrite 5) (s.put Reg.FCU_CTRL true) (fun t => t.reactOf Fc.LEE_EXPIRED = .safe ∧ t.on Reg.FCU_STAT_WDENY) = true ∧
      runs' (.leeLimitWrite (600 + 599 * 2 ^ 10)) s (fun t => t.rd Reg.FCU_LEE_LIMIT = 600 ∧ t.rd Reg.FCU_LEE_WARN = 599) = true ∧
      runs' (.leeLimitWrite 601) s (fun t => t.on Reg.FCU_STAT_WDENY ∧ t.rd Reg.FCU_LEE_LIMIT = 0) = true ∧
      runs' (.leeLimitWrite 600) (s.put Reg.FCU_CTRL true) (fun t => t.rd Reg.FCU_LEE_LIMIT = 0) = true) ∧
    (let c := Fc.HOST_SILENT; let s := setFcu { small.fcu with held := [(c, some .interrupt)] } small;
      s.isHeld c = true ∧ faultAuto c = false ∧ s.stillReports c = false ∧ faultClass c = .m ∧
      (clearFault [roleHOST] c s).1 = 0 ∧ (clearFault [roleHOST] c s).2.isHeld c = false ∧ (clearFault [roleHOST] c s).2.pends 8 = true ∧
      (let m := raise1 { code := c } small; SMap.get none m.fcu.struck c = some (m.time.clk, false) ∧ (clearFault [roleHOST] c m).1 = 1 ∧
        (clearFault [roleHOST] c m).2.isHeld c = true) ∧
      (let m := raise1 { code := c } s; SMap.get none m.fcu.struck c = some (m.time.clk, true) ∧ (clearFault [roleHOST] c m).1 = 0 ∧
        (clearFault [roleHOST] c m).2.isHeld c = true) ∧
      (clearFault [roleVENDOR] c (s.wr Reg.SEC_STAT_LC 3)).1 = 1 ∧ (clearFault [roleMAKER] c small).1 = 1) := by
  refine ⟨?_, ?_, ?_, ?_, ?_⟩ <;> decide +kernel

/-! ### Crucible -/

/-- A container signed by a maker key of slot 0, with words of its header: TYPE and FLAGS, LENGTH, LCMASK with KEYSLOT and
TARGET, the serial mask of a token, TKC. Both signatures are good. -/
def box (w1 len w5 mask : Word) (payload : List Word) : Container :=
  { hdr := [0x4C554C42, 1 + w1 * 65536, len, 0, 0xFF000000, w5, 0, 0, mask, mask, 0, 0, 0, 0, 0, 0], payload := payload,
    sig := List.replicate 4260 0, rsaOk := true, slhOk := true }

/-- H_R and H_S of the keys that signed it. -/
def boxKey : List Nat :=
  [0xFEF51507, 0x9AFCDB16, 0x8DAC3AA8, 0x4B8067D5, 0x1FD2057C, 0xADF7A44B, 0x65F5B499, 0xAA4025CD, 0x45968110, 0x5A5DB568, 0xE3330DC7,
    0xB4F0ADC2, 0x5C140D8F, 0x6BAD6803, 0xE422BE70, 0xEA0E401C, 0xD971B991, 0xFE20A26B, 0x5AE2FAC9, 0xAAFDDF58, 0x8FBE2DF7, 0x51D58367,
    0x4EDFC928, 0xA7F8F6FA]

/-- The SHA-384 of 384 and of 48 bytes of 0, as an independent implementation of FIPS 180-4 gives them. -/
theorem test_sha384_of_zeros : (box 0 0 0 0 []).keyHash = boxKey := by decide +kernel

/-- The LOAD of ring 0 that hands it over out of host memory. -/
def loadCmd : Cmd := dueCmd 0x20 0

/-- A device of lifecycle l with the maker keys of slots 0 and 1 programmed and that load in process. -/
def trusted (l : Nat) : State :=
  let s := regsSet [(Reg.SEC_STAT_LC, l), (Reg.SEC_STAT_BUSY, 1)];
  { s with dev := { s.dev with state := .standby },
           sec := { s.sec with keys := [(0, boxKey), (1, boxKey)], queue := [.ring loadCmd] } }

/-- State.passes, of a container read without an error. -/
def passing (s : State) (step : Nat) (src : CrucSrc) (c : Container) : Bool :=
  s.crucUp && s.dev.state ≠ .replay && s.sec.queue.head? = some src && isContainer src && s.sec.sched.isNone && ! s.mboxAhead src &&
    c.dmaOk && c.step = step && decide (17104 + c.len ≤ s.handed src) && s.verify (pathTakes src c) c = 0

theorem passing_passes {s : State} {step : Nat} {src : CrucSrc} {c : Container} (h : passing s step src c = true) : s.passes step src c := by
  simp only [passing, Bool.and_eq_true, decide_eq_true_eq, Bool.not_eq_true', Option.isNone_iff_eq_none] at h
  obtain ⟨⟨⟨⟨⟨⟨⟨⟨⟨h1, h2⟩, h3⟩, h4⟩, h5⟩, h6⟩, h7⟩, h8⟩, h9⟩, h10⟩ := h
  exact ⟨h1, h2, h3, h4, h5, h6, fun _ _ => .inl h7, h8, h9, h10⟩

/-- An ENGINE container for engine 3: the program END, no coefficients. -/
def engineBox : Container := box 2 336 (2 + 3 * 65536) 0 (List.replicate 81 0 ++ [0x01000000, 0, 0])

/-- A SEALED container for engine 3: one entry at 5. -/
def sealedBox : Container := box 3 432 (2 + 3 * 65536) 0 (List.replicate 99 0 ++ [5 + 65536])

/-- A SCHEDULE container for mode 3: one entry at table entry 40. -/
def scheduleBox : Container := box 4 4176 (2 + 3 * 65536) 0 [0, 0, 40]

/-- An IMAGE of one empty segment in shared SRAM and no nested container. -/
def imageBox (t n : Word) : Container := box 1 64 2 0 [1, n, 0, 0, 0, 0, 0x01000000, t]

/-- A token of kind k, in lifecycle l. -/
def tokenBox (k l w0 w1 w2 w3 : Word) (len : Word) : Container :=
  box 5 len (2 ^ l.toNat) 0xFFFFFFFF [k + w0 * 256, w1, w2, w3]

/-- A HALLMARK descriptor with a buffer of n bytes. -/
def hmCmd (n : Nat) : Cmd := dueCmd 0x21 n

theorem wit_ContainersVerified :
    (setSec { (trusted 1).sec with queue := [.hallmark (hmCmd 0)] } (trusted 1)).sec.queue.head?.map isContainer = some false ∧
    (let s := trusted 1; let src := CrucSrc.ring loadCmd; s.live pdCRUC = true ∧ s.sec.queue.head? = some src ∧ s.sec.sched = none ∧
      s.crucUp = true ∧ s.mboxAhead src = false ∧ (s.contents src engineBox).step = 2 ∧ s.handed src = 2 ^ 24 ∧ s.dev.state ≠ .replay ∧ pathTakes src engineBox = true ∧
      s.verify true engineBox = 0 ∧ s.verify true { engineBox with hdr := engineBox.hdr.set 0 0 } = 1 ∧
      s.verify false engineBox = 2 ∧
      s.verify true { engineBox with hdr := engineBox.hdr.set 4 0xFF000001 } = 8 ∧
      s.verify true (box 2 336 (4 + 3 * 65536) 0 []) = 9 ∧ s.verify true { engineBox with rsaOk := false } = 5 ∧ s.verify true (box 2 336 (2 + 2 * 256) 0 []) = 3 ∧
      runs' (.keys engineBox) s (fun t => t.sec.queue = [src]) = true ∧
      (setSec { s.sec with mbox := some ⟨2, [], 0⟩ } s).mboxAhead src = true ∧
      (let c := { engineBox with dmaOk := false }; (s.contents src c).dmaOk = false ∧ s.loc loadCmd.ring ≠ 1 ∧
        runs' (.engineLoad c true) s (fun t => t.on Reg.HIF_STAT_DMAERR ∧ t.isHeld Fc.DMA_ERR) = true) ∧
      runs' (.engineLoad engineBox true) { s with dev := { s.dev with state := .replay } } (fun t => t.rd Reg.SEC_LAST = 0x0D + 3 * 65536) = true) ∧
    (let c := tokenBox 3 1 1 1 0 0 16; let s := trusted 1;
      let s := { s with sec := { s.sec with queue := [.window ((c.hdr ++ c.payload).map BitVec.toNat)] } };
      runs' (.debugToken c) s (fun t => t.rd Reg.SEC_LAST = 1 ∧ t.rd Reg.DBG_STAT_CODE = 1 ∧ t.pends 225) = true) ∧
    ((trusted 1).sec.queue ≠ [] ∧ (setSec { (trusted 1).sec with queue := [] } (trusted 1)).sec.queue = []) := by
  refine ⟨?_, ?_, ?_, ?_⟩ <;> decide +kernel

theorem wit_EngineAndSealedLoads :
    (let s := trusted 1; let src := CrucSrc.ring loadCmd; passing s 2 src (s.contents src engineBox) = true ∧ s.ax 3 = axDISABLED ∧
      runs' (.engineLoad engineBox false) s (fun t => t.sec.accepted = some 3 ∧ t.sec.queue = [src]) = true ∧
      runs' (.engineLoad engineBox true) s (fun t => t.rd Reg.SEC_LAST = 3 * 65536 ∧ (t.e 3).load.isSome ∧ t.sec.queue = []) = true ∧
      (let c := box 2 320 (2 + 3 * 65536) 0 []; runs' (.engineLoad c true) s (fun t => t.rd Reg.SEC_LAST = 0x300C + 3 * 65536) = true) ∧
      (let c := box 2 336 (2 + 3 * 65536) 0 (List.replicate 81 0 ++ [0xFF000000, 0, 0]); runs' (.engineLoad c true) s (fun t => t.rd Reg.SEC_LAST = 0x10C + 3 * 65536 ∧ (t.e 3).load = none) = true)) ∧
    (let s := trusted 1; let src := CrucSrc.ring loadCmd; passing s 3 src (s.contents src sealedBox) = true ∧
      runs' (.sealedLoad sealedBox true true true [7, 0]) s
        (fun t => t.rd Reg.SEC_LAST = 3 * 65536 ∧ ((t.e 3).load.map (·.coefs)) = some [(5, 2 ^ 39 + 7)]) = true ∧
      runs' (.sealedLoad sealedBox true false true [7, 0]) s (fun t => t.rd Reg.SEC_LAST = 0x250C + 3 * 65536) = true ∧
      runs' (.sealedLoad sealedBox true true true [7, 0]) (s.wr Reg.SEC_STAT_DBG 2) (fun t => t.rd Reg.SEC_LAST = 0x0E + 3 * 65536) = true ∧
      runs' (.sealedLoad sealedBox true true true [7, 0]) (s.put Reg.CHK_STAT_SPLIT true) (fun t => t.rd Reg.SEC_LAST = 0x260C + 3 * 65536) = true ∧
      (let c := box 3 416 (2 + 3 * 65536) 0 (List.replicate 99 0 ++ [5 + 65536]); runs' (.sealedLoad c true true true []) s (fun t => t.rd Reg.SEC_LAST = 0x200C + 3 * 65536) = true)) := by
  refine ⟨?_, ?_⟩ <;> decide +kernel

set_option maxRecDepth 100000 in
theorem wit_SchedulesAndImages :
    (let s := trusted 1; let src := CrucSrc.ring loadCmd; passing s 4 src (s.contents src scheduleBox) = true ∧ scheduleOk scheduleBox.body = true ∧
      s.modeBusy 3 = false ∧ s.overlapped 3 (40, 1) = [] ∧
      (setAnv { s.anv with written := [2] } ((s.wr (Reg.ANV_MODEn_BASE 2) 39).wr (Reg.ANV_MODEn_LENM1 2) 1)).overlapped 3 (40, 1) = [(2, 1)] ∧
      runs' (.scheduleLoad scheduleBox) ((s.put Reg.ANV_STAT_ARMED true).wr Reg.ANV_STAT_ARMED_MODE 3)
        (fun t => t.rd Reg.SEC_LAST = 0x0D + 3 * 65536 ∧ t.on Reg.ANV_STAT_EDIT_DENIED ∧ t.pends 22) = true) ∧
    (let s := setAnv { small.anv with table := [(0, 2 ^ 128 - 1)] } (setSec { (trusted 1).sec with sched := some 3 } (trusted 1)); s.live pdCRUC = true ∧ s.sec.queue ≠ [] ∧
      runs' (.validationDone none) s (fun t => t.sec.queue = [] ∧ t.pends 21 ∧ t.pends 225 ∧ ! t.on (Reg.ANV_VALn_VALID 3)) = true ∧
      runs' (.validationDone none) (trusted 1) (fun t => t.sec.queue ≠ []) = true) ∧
    (let s := trusted 1; let src := CrucSrc.ring loadCmd; let s := setSec { s.sec with booted := some 1, bcb0 := (Bcb.seal { stB := bsGOOD }) } s;
      passing s 1 src (s.contents src (imageBox 0 0)) = true ∧ (imageBox 0 0).imageOk = true ∧ s.bcbNow.st 1 ≠ bsTRIAL ∧
      s.sec.bcb0.gen < 2 ^ 32 ∧ s.sec.bcb1.gen < 2 ^ 32 ∧
      runs' (.imageLoad (imageBox 0 0) true) s
        (fun t => t.rd Reg.SEC_LAST = 0 ∧ t.sec.slotA = some (imageBox 0 0) ∧ t.bcbNow.st 0 = bsTRIAL ∧ t.bcbNow.gen = 2) = true ∧
      runs' (.imageLoad (imageBox 0 0) false) s (fun t => t.rd Reg.SEC_LAST = 0x10 ∧ t.sec.slotA = none ∧ t.bcbNow.st 0 = bsEMPTY) = true) := by
  refine ⟨?_, ?_, ?_⟩ <;> decide +kernel

theorem wit_TokensInForce :
    (let s := trusted 1; let src := CrucSrc.ring loadCmd; s.quiet = true ∧
      (let c := tokenBox 1 1 1 2 0 0 16; passing s 17 src (s.contents src c) = true ∧ s.tokenCheck c = none ∧
        runs' (.lifecycle c) s (fun t => t.rd Reg.SEC_LAST = 0 ∧ t.dev.resetDue = some (16000, 9) ∧ t.pends 226) = true) ∧
      (let c := tokenBox 1 1 1 3 0 0 16; s.tokenCheck c = some (0x0C, 0x23)) ∧
      (let c := tokenBox 2 1 1 0x101 0 0 16; passing s 18 src (s.contents src c) = true ∧ s.tokenCheck c = none ∧
        runs' (.keys c) s (fun t => t.slotRevoked 1) = true) ∧
      (let c := tokenBox 3 1 1 2 0 0 16; passing s 19 src (s.contents src c) = true ∧ s.tokenCheck c = none ∧
        runs' (.debugToken c) s (fun t => t.rd Reg.SEC_STAT_DBG = 2 ∧ t.sec.dbgRole = some roleMAKER ∧ t.pends 227) = true)) ∧
    (let s := trusted 1; let src := CrucSrc.ring loadCmd;
      (let c := tokenBox 4 1 1 1 50 0 16; passing s 20 src (s.contents src c) = true ∧ s.tokenCheck c = none ∧
        runs' (.grantToken c) s (fun t => t.sec.grantNext = some { role := 1, cls := 1, mask := 0, ends := some 50, tkc := 0 }) = true) ∧
      (let c := tokenBox 5 1 1 1 7 8 400; passing s 21 src (s.contents src c) = true ∧ s.tokenCheck c = none ∧
        runs' (.replayToken c true) s (fun t => t.dev.state = .replay ∧ t.alm.rpKeyId = 7 + 8 * 2 ^ 32) = true) ∧
      (let c := tokenBox 6 1 1 0 7 8 400; passing s 22 src (s.contents src c) = true ∧ s.tokenCheck c = none ∧
        runs' (.reckey c true) s (fun t => t.alm.krNext = some (7 + 8 * 2 ^ 32)) = true)) ∧
    (let s := trusted 2; let src := CrucSrc.ring loadCmd; let c := tokenBox 3 2 1 2 0 0 16; passing s 19 src (s.contents src c) = true ∧ s.tokenCheck c = none ∧
      runs' (.debugToken c) s (fun t => t.isHeld Fc.DEBUG_OPEN ∧ t.role = roleOFFLINE) = true) ∧
    (let g : Grant := { role := 2, cls := 1, mask := 3, ends := some 0, tkc := 0 };
      let s := setSec { small.sec with grant := some g } small;
      s.live pdCRUC = true ∧ runs' .grantExpiry s (fun t => t.sec.grant = none) = true ∧
      runs' .grantExpiry (setSec { s.sec with grant := some { g with ends := some 1 } } s) (fun t => t.sec.grant = some { g with ends := some 1 }) = true ∧
      (grantTick (setSec { s.sec with grant := some { g with ends := some (2 ^ 31 + 1) } } s)).sec.grant = some { g with ends := some (2 ^ 31) } ∧
      narrows (some (1, 3)) (grantTick s).cec.cover = narrows (some (1, 3)) (some (1, 3)) ∧
      (grantTick (setSec { s.sec with grantNext := some { g with cls := 3 } } s)).sec.grant = none ∧
      (grantTick (setSec { s.sec with grantNext := some { g with ends := some 5 } } s)).sec.grant = some { g with ends := some 5 } ∧
      s.tkcNow ≤ g.tkc) := by
  refine ⟨?_, ?_, ?_, ?_⟩ <;> decide +kernel

/-- Its boot: the device in BOOT with MAKER fused and an image of maker slot 0 in slot A. -/
def bootable (b : Machine.Bcb) : State :=
  { small with sec := { small.sec with fuses := [(fzLC 0, 3)], keys := [(0, boxKey)], bcb0 := b, slotA := some (imageBox 0 0) } }

theorem wit_BootSelection :
    (let s := bootable (Bcb.seal { stA := bsTRIAL, attA := 3 }); s.live pdCRUC = true ∧ s.dev.state = .boot ∧ s.bcb.isSome = true ∧
      s.bcbNow.st 0 = bsTRIAL ∧ s.sec.bcb0.gen < 2 ^ 32 ∧ s.calm ∧ s.pends 152 = false ∧ s.on Reg.HIF_CFG_EVTEN = false ∧
      runs' (.bootSelect none none none none false 0 false 0 0) s
        (fun t => t.dev.state = .assay ∧ t.lc = lcMAKER ∧ t.rd Reg.SEC_STAT_DBG = 2 ∧ t.sec.booted = some 0 ∧ t.bcbNow.att 0 = 2) = true ∧
      (trySlot 0 true (bootable (Bcb.seal { stA := bsTRIAL, attA := 0 }))).2.bcbNow.st 0 = bsFAILED ∧
      (trySlot 0 true (bootable (Bcb.seal { stA := bsEMPTY }))).1 = false ∧
      runs' (.bootSelect none none none none true 0 false 0 0) s (fun t => t.dev.state = .safe ∧ t.isHeld Fc.FUSE_ERROR) = true ∧
      runs' (.bootSelect none none none none false 0 false 0 0) (bootable (Bcb.seal { stA := bsFAILED })) (fun t => t.dev.state = .safe) = true ∧
      runs' (.bootSelect (some (Bcb.seal { prefer := 1, stA := bsGOOD })) none none none false 0 false 0 0) s
        (fun t => t.sec.booted = some 0 ∧ t.isHeld Fc.BOOT_FALLBACK) = true ∧
      runs' (.bootSelect none none none none false 0 false 0 0) (bootable {}) (fun t => t.isHeld Fc.BCB_ERROR ∧ t.sec.booted = some 0) = true ∧
      runs' (.bootSelect none none none none false 0 false 0 0) (trusted 1) (fun t => t.dev.state = .standby) = true) ∧
    (let s := (bootable (Bcb.seal { stA := bsGOOD })).put Reg.CHK_STAT_SPLIT true;
      runs' (.bootSelect none none none none false 0 false 0 0) s (fun t => t.split ∧ (t.pr 0).released ∧ (t.pr 1).released) = true) ∧
    (let c := { (imageBox 0 0) with payload := [1, 0, 0, 0, 0, 4, 0x01000000, 0], rsaOk := false };
      let s := setSec { (bootable (Bcb.seal { stA := bsGOOD })).sec with slotA := some c } (bootable (Bcb.seal { stA := bsGOOD }));
      let s := { s.wr Reg.SEC_STAT_LC 1 with mem := putBytes s.mem 0x01000000 [1, 2, 3, 4] };
      s.verify true c = 5 ∧ (trySlot 0 true s).1 = false ∧ segmentFits c.len (imageSegment c.body 0) = true ∧
      (trySlot 0 true s).2.mem = []) := by
  refine ⟨?_, ?_, ?_⟩ <;> decide +kernel

/-- A mailbox command with its arguments, in progress. -/
def mail (cmd a0 a1 a2 : Nat) (s : State) : State := setSec { s.sec with mbox := some ⟨cmd, [a0, a1, a2], 0⟩ } s

theorem wit_CrucibleServices :
    (let s := setSec { small.sec with booted := some 0, image := some (imageBox 0 0), bcb0 := (Bcb.seal {}) } small;
      let m := mail 1 0 0 0 s;
      m.crucUp = true ∧ m.sec.mbox = some ⟨1, [0, 0, 0], 0⟩ ∧
      s.slotRevoked 0 = false ∧ s.sec.bcb0.gen < 2 ^ 32 ∧ s.sec.bcb1.gen < 2 ^ 32 ∧ tb s.sec.badCtr 3 = false ∧
      runs' (.confirm true) m (fun t => t.bcbNow.st 0 = bsGOOD ∧ t.bcbNow.att 0 = 255 ∧ t.pends 224 ∧ t.sec.mbox = none) = true ∧
      runs' (.confirm false) m (fun t => t.rd Reg.SEC_MBOX_STAT_RESULT = 0x10 ∧ t.bcbNow.st 0 ≠ bsGOOD) = true ∧
      runs' (.confirm true) s (fun t => t.bcbNow.st 0 ≠ bsGOOD) = true ∧ small.sec.booted = none ∧ s.crucUp = true ∧ s.sec.mbox = none ∧
      (mboxWrite 1 s).sec.mbox = m.sec.mbox ∧ (mboxWrite 4 m).sec.mbox = m.sec.mbox ∧ (mboxWrite 4 m).rd Reg.SEC_MBOX_STAT_RESULT = 0x0F) ∧
    (let u := small.userSize;
      let s := { setSec { small.sec with user := [(u - 1, 9)] } small with mem := putBytes small.mem 0x01000000 [1, 2, 3, 4] };
      let m := fun c n => mail c (u - 4) 0x01000000 n s;
      inSram 0x01000000 4 = true ∧
      runs' (.nvRead true) (m 2 4) (fun t => getWord t.mem 0x01000000 = 0x09FFFFFF ∧ t.pends 224) = true ∧
      runs' (.nvRead false) (m 2 4) (fun t => t.rd Reg.SEC_MBOX_STAT_RESULT = 0x10) = true ∧
      runs' (.nvRead true) (m 2 5) (fun t => t.rd Reg.SEC_MBOX_STAT_RESULT = 1) = true ∧
      runs' (.nvWrite true) (m 3 4) (fun t => t.rd Reg.SEC_MBOX_STAT_RESULT = 0x10) = true ∧
      runs' (.nvWrite true) (m 3 3) (fun t => SMap.get 0xFF t.sec.user (u - 2) = 3) = true ∧
      runs' (.nvErase true) (mail 4 (u - 4096) 0 1 s) (fun t => t.sec.user = []) = true ∧
      runs' (.nvErase true) (mail 4 (u - 4096) 0 2 s) (fun t => t.rd Reg.SEC_MBOX_STAT_RESULT = 1) = true) ∧
    (runs' .trngFail small (fun t => t.isHeld Fc.TRNG_FAIL ∧ t.pends 228) = true) ∧
    (let s := setSec { small.sec with tokwin := [(0, 5)] } (small.wr Reg.DBG_TOKLEN 17120); s.crucUp = true ∧ s.lc ≠ lcDEAD ∧ s.on Reg.DBG_STAT_BUSY = false ∧
      runs' .submit s (fun t => t.sec.queue.length = 1 ∧ t.on Reg.DBG_STAT_BUSY ∧ t.sec.tokwin = []) = true ∧
      runs' .submit (setSec { s.sec with queue := List.replicate 9 (.ring loadCmd) } s) (fun t => t.rd Reg.DBG_STAT_CODE = 0x0F) = true ∧
      runs' .submit (s.wr Reg.DBG_TOKLEN 17116) (fun t => t.rd Reg.DBG_STAT_CODE = 1 ∧ t.sec.queue = []) = true) ∧
    (let s := dueOn (dueCmd 0x21 36687) (rings 1 0); (s.nextDue.map (·.op)) = some ocHALLMARK ∧ 0 ≤ dist32 s.fn (dueCmd 0x21 36687).deadline ∧
      runs' .hallmark s (fun t => t.hif.queue = [] ∧ t.sec.queue = []) = true ∧
      runs' .hallmark (setSec { s.sec with queue := [.ring loadCmd] } s) (fun t => t.hif.queue = [] ∧ t.sec.queue.length = 2) = true ∧
      runs' .hallmark (setSec { s.sec with queue := [.hallmark (hmCmd 0)] } s) (fun t => t.hif.queue.length = 1 ∧ t.sec.queue = []) = true) := by
  refine ⟨?_, ?_, ?_, ?_, ?_⟩ <;> decide +kernel

/-! ### Almanac -/

/-- The Almanac is enabled, in state st, with 16 snapshot words, four records after a trigger, dumps to ring 3, open with 16
units. -/
def almanac (st : Nat) : State :=
  regsSet [(Reg.ALM_CTRL_EN, 1), (Reg.ALM_STAT_STATE, st), (Reg.ALM_CFG_SNAPW, 15), (Reg.ALM_CFG2_POST, 4), (Reg.ALM_CTRL_SRING, 3),
    (Reg.HIF_CTRL_EN, 1), (Reg.HIF_Rr_CFG_KIND 3, rkALMANAC), (Reg.HIF_Rr_CFG_LSIZE 3, 4), (Reg.HIF_Rr_CFG_LOC 3, 1), (Reg.HIF_Rr_CTL 3, 1),
    (Reg.HIF_Rr_BASE_L 3, 0x01002000 / 64)]

/-- A frame record of five words. -/
def someRec : AlmRec := { kind := 1, fn := 7, words := [1, 2, 3, 4, 5] }

theorem wit_AlmanacCommands :
    (let s := almanac almARMED; s.live pdALM = true ∧ s.almCfgBad = false ∧ s.alm.kr = none ∧ s.calm ∧
      (∀ c ∈ [Fc.IRQ_MISSED, Fc.EVENT_DROP, Fc.ALM_TRIGGERED, Fc.ALM_TRIG_MISSED], s.reactOf c = .none ∨ s.reactOf c = .interrupt) ∧
      runs' (.almEnable false) s (fun t => t.almState = almOFF ∧ ! t.on Reg.ALM_CTRL_EN) = true ∧
      (let s := s.wr Reg.ALM_CFG_SNAPW 0; s.almCfgBad = true ∧ runs' (.almEnable true) s (fun t => t.almState = almOFF) = true) ∧
      runs' (.almEnable true) (almanac almOFF) (fun t => t.almState = almNOKEY) = true ∧
      runs' (.almEnable true) (setAlm { s.alm with kr := some 0 } (almanac almOFF)) (fun t => t.almState = almARMED) = true ∧
      runs' .trig s (fun t => t.almState = almPOST ∧ t.rd Reg.ALM_TRSRC_SRC = 128 ∧ t.alm.postLeft = 4 ∧ t.alm.trigger.isSome) = true) ∧
    (let s := almanac almPOST; s.alm.trigCt = s.ct ∧ s.alm.trigWritten = false ∧
      runs' .trig s (fun t => tb (t.rd Reg.ALM_TRSRC_SRC) 7 ∧ t.rd Reg.ALM_STAT_NTRIG = 0) = true ∧
      runs' .trig (setAlm { s.alm with trigCt := 9 } s) (fun t => t.rd Reg.ALM_STAT_NTRIG = 1) = true ∧
      runs' .trig (almanac almFROZEN) (fun t => t.rd Reg.ALM_STAT_MISSED = 1 ∧ t.isHeld Fc.ALM_TRIG_MISSED) = true ∧
      runs' .trig (almanac almOFF) (fun t => t.almState = almOFF) = true ∧
      runs' .almFreeze (setAlm { s.alm with trigWritten := true } s) (fun t => t.almState = almFROZEN) = true ∧
      runs' .almFreeze (setAlm { s.alm with trigWritten := true, postLeft := 1 } s) (fun t => t.almState = almPOST) = true ∧
      runs' .almFreeze ((setAlm { s.alm with trigWritten := true } s).put Reg.ALM_CTRL_AUTODUMP true) (fun t => t.almState = almDUMPING) = true) ∧
    (let s := setAlm { small.alm with ring := [someRec] } (almanac almFROZEN);
      s.ringOpen (s.rd Reg.ALM_CTRL_SRING) rkALMANAC = true ∧
      runs' .release s (fun t => t.alm.ring = [] ∧ t.almState = almNOKEY) = true ∧
      runs' .dump s (fun t => t.almState = almDUMPING ∧ t.on Reg.ALM_STAT_SESSLOST) = true ∧
      runs' .dump (s.put (Reg.HIF_Rr_CTL 3) false) (fun t => t.on Reg.ALM_STAT_DDENY ∧ t.almState = almFROZEN) = true ∧
      runs' .dump (almanac almARMED) (fun t => t.almState = almARMED) = true) ∧
    (let s := setAlm { small.alm with dumpLeft := [someRec], dumpHash := List.replicate 12 0 } (almanac almDUMPING);
      streamUnits 5 ≤ s.ringFree (s.rd Reg.ALM_CTRL_SRING) ∧ s.ringSize 3 ≤ 4096 ∧
      runs' (.dumpRecord none) s (fun t => t.alm.dumpLeft = [] ∧ t.alm.dumpSent = 1 ∧ t.rd (Reg.HIF_Rr_IDX_PI 3) = 1) = true ∧
      runs' (.dumpRecord none) (s.wr (Reg.HIF_Rr_IDX_PI 3) 15) (fun t => t.alm.dumpSent = 0) = true) ∧
    (let s := setAlm { small.alm with dumpHash := List.replicate 12 0 } ((almanac almDUMPING).wr (Reg.HIF_Rr_CFG_LSIZE 3) 12);
      s.alm.dumpLeft = [] ∧ s.alm.dumpHash.length = 12 ∧ streamUnits 8936 ≤ s.ringFree (s.rd Reg.ALM_CTRL_SRING)) := by
  refine ⟨?_, ?_, ?_, ?_, ?_⟩ <;> decide +kernel

/-- A replay input of one session, one keyframe of frame n without regions, and one frame record of frame m. -/
def replayInput (n m : Word) : ReplayInput :=
  { raw := [2 + 72 * 65536] ++ List.replicate 17 0 ++
      ([3 + 400 * 65536, n, 20, 0, 20000, 4 + 3 * 65536, 15] ++ List.replicate 93 0) ++ ([1 + 96 * 65536, m] ++ List.replicate 22 0),
    dmaOk := true, unwrapOk := true, key := some [], frames := [some []] }

/-- The device in REPLAY with the length of that input. -/
def replaying (len : Nat) : State :=
  { (almanac almREPLAY).wr Reg.ALM_RPLEN_LEN len with dev := { small.dev with state := .replay } }

theorem wit_ReplayCheckedAndEnded :
    (let s := replaying 568; s.live pdALM = true ∧ s.dev.state = .replay ∧ s.alm.rpOn = false ∧ s.calm ∧ 2000 ≤ 20 * s.frameTicks ∧
      (s.replayPlan (replayInput 20 20)).isRight = true ∧
      runs' (.replayCheck (replayInput 20 20)) s (fun t => t.alm.rpOn ∧ t.on Reg.ALM_RPSTAT_RUN ∧ t.rd Reg.ANV_CTRL_START_MODE = 3 ∧
        t.ctTicks = 398000 ∧ t.alm.rpEnd = 8 ∧ t.pends 217) = true ∧
      runs' (.replayCheck { replayInput 20 20 with dmaOk := false }) s (fun t => t.rd Reg.ALM_RPSTAT_CAUSE = 1 ∧ ! t.on Reg.ALM_RPSTAT_RUN) = true ∧
      runs' (.replayCheck (replayInput 20 20)) (replaying (replayMax + 4)) (fun t => t.rd Reg.ALM_RPSTAT_CAUSE = 1) = true ∧
      runs' (.replayCheck (replayInput 20 20)) (replaying 472) (fun t => t.rd Reg.ALM_RPSTAT_CAUSE = 6) = true ∧
      runs' (.replayCheck (replayInput 20 20)) (replaying 72) (fun t => t.rd Reg.ALM_RPSTAT_CAUSE = 2) = true ∧
      runs' (.replayCheck { replayInput 20 20 with unwrapOk := false }) s (fun t => t.rd Reg.ALM_RPSTAT_CAUSE = 3) = true ∧
      runs' (.replayCheck { replayInput 20 20 with key := none }) s (fun t => t.rd Reg.ALM_RPSTAT_CAUSE = 4) = true ∧
      runs' (.replayCheck (replayInput 20 20)) (s.wr Reg.TIME_FRAME 19999) (fun t => t.rd Reg.ALM_RPSTAT_CAUSE = 5) = true ∧
      runs' (.replayCheck (replayInput 20 21)) s (fun t => t.rd Reg.ALM_RPSTAT_CAUSE = 6) = true) ∧
    (let s := setAlm { small.alm with rpOn := true, rpEnd := 7 } ((replaying 568).put Reg.ALM_RPSTAT_RUN true);
      s.alm.rpFrames = [] ∧ s.alm.rpNow = none ∧
      runs' .replayEnd s (fun t => ! t.on Reg.ALM_RPSTAT_RUN ∧ t.rd Reg.ALM_RPSTAT_CAUSE = 7 ∧ t.dev.state = .replay) = true ∧
      runs' .replayEnd (setAlm { s.alm with rpFrames := [someRec] } s) (fun t => t.on Reg.ALM_RPSTAT_RUN) = true) := by
  refine ⟨?_, ?_⟩ <;> decide +kernel

/-! ### Power and reset -/

theorem wit_ResetsClearAndKeep :
    (let s := { inState .active with dev := { small.dev with state := .active, resetDue := some (9, 5) } };
      runs' .resetReaction s (fun t => t.dev.state = .boot ∧ t.pwr.mode = .run) = true ∧
      runs' .lifecycleReset s (fun t => t.dev.state = .active) = true ∧
      runs' .lifecycleReset { s with dev := { s.dev with resetDue := some (9, 9) } } (fun t => t.dev.state = .boot) = true ∧
      runs' .pinReset s (fun t => t.pwr.rstLow ∧ t.dev.state = .boot) = true ∧
      s.debugFull = false ∧ runs' .debugReset s (fun t => t.dev.state = .active) = true ∧
      runs' .debugReset (s.wr Reg.SEC_STAT_DBG 2) (fun t => t.dev.state = .boot) = true ∧
      runs' .brownout s (fun t => t.pwr.mode = .starting) = true ∧
      runs' (.powerOnReset false) s (fun t => t.pwr.mode = .off) = true) ∧
    (let s := { small with pwr := { small.pwr with rstLow := true } };
      runs' (.resetRelease false) s (fun t => ! t.pwr.rstLow ∧ t.split) = true ∧
      runs' (.resetRelease true) s (fun t => ! t.pwr.rstLow ∧ ! t.split) = true) ∧
    (runs' .swrst (inState .lee) (fun t => t.on Reg.PWR_STAT_WDENY ∧ t.dev.resetDue = none) = true ∧
      runs' .swrst (inState .standby) (fun t => t.dev.resetDue = some (4000, 8)) = true) ∧
    ((almanac almARMED).almState = almARMED ∧
      runs' .pinReset (setAlm { small.alm with ring := [someRec] } (almanac almARMED)) (fun t => t.alm.ring = [someRec]) = true ∧
      runs' .brownout (setAlm { small.alm with ring := [someRec] } (almanac almARMED)) (fun t => t.alm.ring = []) = true) := by
  refine ⟨?_, ?_, ?_, ?_⟩ <;> decide +kernel

/-- Domain d is in domain state v. -/
def domAt (d v : Nat) : State := small.wr Reg.PWR_DOM (0xAAAAAA - 2 * 4 ^ d + v * 4 ^ d)

theorem wit_SupplyDomainsAndPoints :
    (runs' (.supplyALost 199 480) small (fun t => t.isHeld Fc.SUPPLY_A_LOST ∧ t.pends 212) = true ∧
      runs' (.supplyALost 200 480) small (fun t => ! t.isHeld Fc.SUPPLY_A_LOST) = true ∧
      runs' (.supplyBLost 480 199) small (fun t => t.isHeld Fc.SUPPLY_B_LOST) = true ∧
      runs' (.supplyUv 279 279) small (fun t => t.isHeld Fc.SUPPLY_UV) = true ∧
      runs' (.supplyUv 280 279) small (fun t => ! t.isHeld Fc.SUPPLY_UV) = true ∧
      runs' (.supplyOv 821 480) small (fun t => t.on Reg.PWR_STAT_OV_FORCE) = true ∧
      runs' (.supplyOv 820 820) small (fun t => ! t.on Reg.PWR_STAT_OV_FORCE) = true ∧
      runs' (.supplyOvEnd 799 799) (small.put Reg.PWR_STAT_OV_FORCE true) (fun t => ! t.on Reg.PWR_STAT_OV_FORCE) = true ∧
      runs' (.supplyOvEnd 800 799) (small.put Reg.PWR_STAT_OV_FORCE true) (fun t => t.on Reg.PWR_STAT_OV_FORCE) = true ∧
      runs' (.supplyReturn 200 199) small (fun t => t.on Reg.PWR_SUPSTAT_A_OK ∧ ! t.on Reg.PWR_SUPSTAT_B_OK ∧ t.pends 212) = true) ∧
    (runs' (.voteWrite .ac0 0 5) (small.wr (pairFld 0) pairLOST) (fun t => t.rd Reg.PWR_VOTE_X = 0) = true ∧
      runs' (.voteWrite .ac0 0 5) (small.wr (pairFld 0) pairINSERVICE) (fun t => t.rd Reg.PWR_VOTE_X = 5) = true ∧
      runs' (.voteWrite .host 2 5) small (fun t => t.rd Reg.PWR_VOTE_H = 5) = true ∧
      runs' (.voteWrite .ac1 0 5) small (fun t => t.rd Reg.PWR_VOTE_X = 0 ∧ SMap.get 0 t.fcu.count Fc.BUS_ERROR = 1) = true ∧
      runs' (.voteWrite .ac1 0 5) (small.put Reg.CHK_STAT_SPLIT true) (fun t => t.rd Reg.PWR_VOTE_X = 5) = true) ∧
    (runs' (.domainPowerDown 6 false) small (fun t => t.domState 6 = dmDOWN ∧ t.pends 210) = true ∧
      runs' (.domainPowerDown 2 false) small (fun t => t.domState 2 = dmON) = true ∧
      runs' (.domainPowerDown 0 false) (small.wr (pairFld 0) pairINSERVICE) (fun t => t.domState 0 = dmON) = true ∧
      runs' (.domainPowerDown 0 true) (small.wr (pairFld 0) pairINSERVICE) (fun t => t.domState 0 = dmDOWN) = true ∧
      runs' (.domainOff 3) (domAt 3 dmDOWN) (fun t => t.domState 3 = dmOFF ∧ t.eng = []) = true ∧
      runs' (.domainPowerUp 3) ((domAt 3 dmOFF).wr Reg.PWR_VOTE_X 8) (fun t => t.domState 3 = dmUP ∧ t.ctTicks = 4000) = true ∧
      runs' (.domainPowerUp 3) (domAt 3 dmOFF) (fun t => t.domState 3 = dmOFF) = true ∧
      runs' (.domainFail 3) (domAt 3 dmUP) (fun t => t.domState 3 = dmOFF ∧ t.domFailed 3 ∧ t.isHeld Fc.DOMAIN_FAIL) = true) ∧
    (runs' (.pointChange 3) small (fun t => t.on Reg.PWR_STAT_WDENY) = true ∧
      runs' (.pointChange 2) small (fun t => t.pwr.dvfs = some 2 ∧ t.on Reg.PWR_STAT_DVFS_BUSY) = true ∧
      (let s := { small with pwr := { small.pwr with dvfs := some 2 } };
        runs' (.pointChange 1) s (fun t => t.pwr.dvfsNext = some 1) = true ∧
        runs' .dvfsDone s (fun t => t.rd Reg.PWR_STAT_POINT_NOW = 2 ∧ t.pends 211 ∧ t.ctTicks = 10080) = true ∧
        runs' .dvfsFail s (fun t => t.rd Reg.PWR_STAT_POINT_NOW = 0 ∧ t.isHeld Fc.DVFS_FAIL) = true)) := by
  refine ⟨?_, ?_, ?_, ?_⟩ <;> decide +kernel

/-- R553: pins in Off, and with their domain OFF; an enabled direct pin has a level. -/
theorem wit_pins :
    ({ small with pwr := { small.pwr with mode := .off } } : State).pin (.canTx 0) = .highZ ∧
    (domAt 10 dmOFF).pin (.pwm 0 0) = .highZ ∧ (small.put (Reg.OUT_An_CFG_PINEN 0) true).pin (.pwm 0 0) = .low ∧
    (domAt 6 dmUP).pin (.fbCk 0) = .high ∧ (domAt 8 dmDOWN).pin (.fdlTx 0) = .idle ∧ (Pin.fdlTx 0).domain = some 8 := by decide +kernel

/-- In the power state m with TARGET t, in STANDBY. -/
def powered (m : PState) (t : Nat) : State :=
  { (inState .standby).wr Reg.PWR_MODE t with pwr := { small.pwr with mode := m } }

theorem wit_PowerStatesAndStart :
    (let s := powered .run 1; s.calm ∧ s.pwr.rstLow = false ∧ s.rd Reg.PWR_MODE = 1 ∧ s.entryDue 15 = true ∧ s.entryRefused 1 0 = 0 ∧
      runs' (.idleEntry 15) (powered .run 0) (fun t => t.pwr.idle) = true ∧
      runs' (.sleepEntry 15 0) s (fun t => t.pwr.mode = .sleep) = true ∧
      runs' (.sleepEntry 15 0) { s with dev := { s.dev with state := .active } } (fun t => t.rd Reg.PWR_STAT_REFUSE = 1 ∧ t.rd Reg.PWR_MODE = 0 ∧ t.pends 209) = true ∧
      runs' (.deepSleepEntry 15 0) (powered .run 2) (fun t => t.pwr.mode = .deepSleep) = true ∧
      runs' (.offEntry 15 0) (powered .run 3) (fun t => t.pwr.mode = .off ∧ t.pwr.banks = []) = true) ∧
    (runs' .wakeTimer ((powered .sleep 0).wr Reg.PWR_WTIMER 1) (fun t => t.pwr.timer) = true ∧
      runs' (.sleepWake 1) ((powered .sleep 0).wr Reg.PWR_WAKE_EN 1) (fun t => t.pwr.mode = .run ∧ t.rd Reg.PWR_WAKE_CAUSE = 1 ∧ t.pends 208) = true ∧
      runs' (.sleepWake 2) ((powered .sleep 0).wr Reg.PWR_WAKE_EN 1) (fun t => t.pwr.mode = .sleep) = true ∧
      runs' (.powerUp 1 false) ((powered .deepSleep 0).wr Reg.PWR_WAKE_EN 1) (fun t => t.pwr.mode = .starting ∧ t.pwr.cause = 3) = true ∧
      runs' (.powerUp 1 false) (powered .off 0) (fun t => t.pwr.mode = .starting ∧ t.pwr.cause = 2) = true ∧
      runs' (.powerUp 1 false) { powered .off 0 with pwr := { small.pwr with mode := .off, blocked := true } } (fun t => t.pwr.mode = .off) = true) ∧
    (runs' .railTimeout (powered .starting 0) (fun t => t.pwr.mode = .waiting ∧ t.rd Reg.PWR_RSTCAUSE_ATTEMPTS = 1) = true ∧
      runs' .railTimeout ((powered .starting 0).wr Reg.PWR_RSTCAUSE_ATTEMPTS 3) (fun t => t.pwr.mode = .off ∧ t.on Reg.PWR_RSTCAUSE_WAKE_FAIL) = true ∧
      runs' .railRetry (powered .waiting 0) (fun t => t.pwr.mode = .starting) = true) ∧
    (let b := [(1, (bankFlds 1).map fun f => (f.key, 1)), (2, (bankFlds 2).map fun f => (f.key, 1))];
      let s := { powered .starting 0 with pwr := { small.pwr with mode := .starting, cause := 3, banks := b } };
      (∀ b < 6, ∀ c ∈ SMap.get [] s.pwr.banks b, c.1 ∈ (bankFlds b).map Fld.key) ∧ s.pwr.cause ≠ 0 ∧
      runs' (.powerGood true true 4) s (fun t => t.pwr.mode = .run ∧ t.dev.state = .boot ∧ t.rd Reg.TIME_FRAME = 1 ∧
        t.bit Reg.PWR_RET_RESTORED 1 ∧ t.bit Reg.PWR_RET_LOST 2 ∧ t.isHeld Fc.RET_LOST) = true ∧
      runs' (.powerGood true true 4) (s.put Reg.PWR_RSTCAUSE_WAKE_FAIL true) (fun t => t.isHeld Fc.WAKE_FAIL) = true) ∧
    (let s := small.put Reg.TIME_STAT_ON_RC true; s.pwr.refWait = true ∧ s.pwr.mode = .run ∧ s.rd Reg.TIME_CTRL_REFSEL ≠ 2 ∧
      runs' .referenceLock (s.wr Reg.TIME_CTRL_REFSEL 2) (fun t => t.on Reg.TIME_STAT_ON_RC) = true ∧
      runs' .referenceLock s (fun t => ! t.on Reg.TIME_STAT_ON_RC ∧ t.pends 216) = true ∧
      s.inFrame (s.pwr.refAt + 4000000) = false ∧ runs' .oscStart s (fun t => t.isHeld Fc.OSC_START) = false ∧
      (let s := { s with time := { s.time with clk := 4000000 } }; s.inFrame (s.pwr.refAt + 4000000) = true ∧
        runs' .oscStart s (fun t => t.isHeld Fc.OSC_START) = true)) := by
  refine ⟨?_, ?_, ?_, ?_, ?_⟩ <;> decide +kernel

theorem wit_AssayBistAndWatchdog :
    (let s := (inState .assay).wr Reg.CHK_ASSAY_RAN 15; s.dev.state = .assay ∧ s.assayed = true ∧ (s.sec.queue.all fun x => ! x.isNested) = true ∧
      s.sec.sched = none ∧ s.calm ∧ (∀ c ∈ [Fc.IRQ_MISSED, Fc.EVENT_DROP], s.reactOf c = .none ∨ s.reactOf c = .interrupt) ∧
      runs' (.logicBist true) s (fun t => t.dev.state = .standby) = true ∧
      (let w := s.wr Reg.FDL_CFG_NODE 5; w.worker = true ∧ w.barred = false ∧ runs' (.logicBist true) w (fun t => t.role = roleSTANDBY) = true) ∧
      (let w := setFcu { s.fcu with held := [(Fc.HOST_SILENT, some .lee)] } (s.wr Reg.SEAM_CFG_SET 1);
        w.leeCause = true ∧ w.inSet = true ∧ runs' (.logicBist true) w (fun t => t.role = roleOBSERVER) = true) ∧
      runs' (.logicBist false) s (fun t => t.dev.state = .safe ∧ t.isHeld Fc.SLICE_FAIL) = true ∧
      runs' (.logicBist true) (s.wr Reg.CHK_ASSAY_RAN 7) (fun t => t.dev.state = .assay) = true) ∧
    (let s := (small.put Reg.PWR_WDT_EN true).wr Reg.PWR_WDT_MIN 1; s.wdtOn = true ∧
      runs' (.wdtKick 0xA5C3) s (fun t => t.pwr.wdtKicked ∧ ! t.isHeld Fc.WDT_EXPIRED) = true ∧
      runs' (.wdtKick 0xA5C3) { s with pwr := { s.pwr with wdtKicked := true } } (fun t => t.isHeld Fc.WDT_EXPIRED) = true ∧
      runs' (.wdtKick 0) s (fun t => t.isHeld Fc.WDT_EXPIRED ∧ t.dev.resetDue = some (4000, 6)) = true ∧
      runs' (.wdtKick 0) small (fun t => ! t.isHeld Fc.WDT_EXPIRED) = true ∧
      s.inFrame (s.pwr.wdtAt + 2 * s.rd Reg.PWR_WDT_TIMEOUT * 400000 / 2) = true ∧
      runs' .wdtHalf s (fun t => t.pends 214 ∧ t.pwr.wdtHalf) = true ∧
      runs' .wdtExpired s (fun t => t.isHeld Fc.WDT_EXPIRED) = true) := by
  refine ⟨?_, ?_⟩ <;> decide +kernel

/-! ### The bus -/

/-- A device whose cores are independent. -/
def forked : State := small.put Reg.CHK_STAT_SPLIT true

theorem wit_BusAccesses :
    (let s := forked; s.runs = true ∧ s.calm ∧
      runs' (.registerWrite .ac0 0x40010001 4 none .ok) s (fun t => SMap.get 0 t.fcu.count Fc.BUS_ERROR = 1) = true ∧
      domainOf 0x40010000 = none ∧
      runs' (.registerWrite .ac0 0x40010000 8 none .ok) s (fun t => SMap.get 0 t.fcu.count Fc.BUS_ERROR = 1) = true ∧
      domainOf 0x40030000 = some 5 ∧
      runs' (.registerWrite .ac0 0x40030000 4 none .ok) ((domAt 5 dmOFF).put Reg.CHK_STAT_SPLIT true) (fun t => t.pwr.stalled.length = 1 ∧ tb t.pwr.access 5) = true ∧
      inSram 0x01000000 4 = true ∧
      runs' (.registerWrite .ac0 0x01000000 4 (some 0x12345678) .ok) s (fun t => getWord t.mem 0x01000000 = 0x12345678) = true) ∧
    (let s := forked; rowsAt 0x40040000 ≠ [] ∧ rowsAt 0x400400FC = [] ∧
      runs' (.registerWrite .ac0 0x400400FC 4 (some 0) .ok) s (fun t => SMap.get 0 t.fcu.count Fc.BUS_ERROR = 1) = true ∧
      runs' (.registerWrite .ac0 0x40040000 4 (some 0x80000000) .ok) s (fun t => t.on Reg.CEC_CTRL_LOCK) = true ∧
      runs' (.registerWrite .ac0 0x40000000 4 none .ok) s (fun t => t.dev.readData = 0) = true ∧ (s.readReg .ac0 0x40000000).isSome = true ∧
      s.readReg .ac0 0x400000FC = none ∧
      runs' (.registerWrite .ac0 0x400000FC 4 none .ok) s (fun t => SMap.get 0 t.fcu.count Fc.BUS_ERROR = 1) = true) ∧
    (let s := small.put Reg.HIF_STAT_LINK_UP true; s.live pdHIF = true ∧
      runs' (.bar0Access 2 4 none) s (fun t => t.on Reg.HIF_STAT_DENY) = true ∧
      runs' (.bar0Access 0 4 none) s (fun t => ! t.on Reg.HIF_STAT_DENY) = true ∧
      runs' (.bar0Access 2 4 none) small (fun t => ! t.on Reg.HIF_STAT_DENY) = true) ∧
    (small.coreHalted .ac0 = true ∧ forked.coreHalted .ac0 = false ∧ small.coreHalted .host = false) ∧
    (let s := pairOn 0 pairINSERVICE {}; s.runs = true ∧ s.split = false ∧ s.coreHalted .ac0 = false ∧ s.mainStalled 0 = false ∧
      s.mainCan 0 1 = true ∧ (s.pr 0).buffered ≠ 447 ∧ s.canMeet 0 1 = true ∧ s.on Reg.HIF_CFG_EVTEN = false ∧
      runs' (.registerWrite .ac0 0x08000004 4 (some 0x12345678) .ok) s (fun t => getWord (t.pr 0).main.mem 4 = 0x12345678) = true ∧
      runs' (.registerWrite .ac1 0x08000004 4 (some 0x12345678) .ok) s (fun t => getWord (t.pr 0).chk.mem 4 = 0x12345678) = true ∧
      runs' (.registerWrite .ac0 0x01000004 4 (some 0x12345678) .ok) s
        (fun t => (t.pr 0).buf = [⟨0x01000000, 0xF0, 0x12345678 * 2 ^ 32⟩] ∧ t.mem = []) = true ∧
      runs' (.registerWrite .ac0 0x01000004 4 none .ok) s (fun t => t.rd (Reg.CHK_Px_XCNT 0) = 1) = true) ∧
    (let s := pairOn 0 pairINSERVICE { mainIc := 1 }; s.chkCan 0 1 = true ∧
      runs' (.registerWrite .ac1 0x01000004 4 (some 0x12345678) .ok) s
        (fun t => (t.pr 0).chkBuf = [⟨0x01000000, 0xF0, 0x12345678 * 2 ^ 32⟩] ∧ (t.pr 0).buf = []) = true) := by
  refine ⟨?_, ?_, ?_, ?_, ?_, ?_⟩ <;> decide +kernel

theorem wit_EngineMemoryAndDomainOn :
    (let s := forked.wr Reg.SEC_STAT_LC lcFIELD; s.runs = true ∧ s.domState pdCEL = dmON ∧ s.domState pdCEH = dmON ∧ s.calm ∧
      s.pathOpen .ac0 true 0x42000000 = true ∧ s.ax 0 = axDISABLED ∧ s.bit Reg.CEC_STAT_BUSY 0 = false ∧
      runs' (.dataMemoryWrite .ac0 0 16383 9) s (fun t => SMap.get 0 (t.e 0).data 16383 = 9) = true ∧
      runs' (.dataMemoryWrite .ac0 0 16383 9) (s.put Reg.CEC_STAT_BUSY true) (fun t => t.e 0 = {} ∧ SMap.get 0 t.fcu.count Fc.BUS_ERROR = 1) = true ∧
      runs' (.dataMemoryWrite .host 0 0 9) s (fun t => t.e 0 = {}) = true ∧ s.pageCovered .ac0 0 = true ∧ s.pageCovered .ac0 1 = false ∧
      runs' (.dataMemoryWrite .ac0 0 3 9) (setAnv { s.anv with moveFree := 0, moveDst := 0x42000000, moveLen := 4 } (s.setE 0 { data := [(3, 8)] }))
        (fun t => SMap.get 0 (t.e 0).data 3 = 8) = true ∧
      runs' (.dataMemoryRead .ac0 0 3 false) (s.setE 0 { data := [(3, 8)] }) (fun t => t.dev.readData = 8) = true ∧
      runs' (.dataMemoryRead .ac0 0 3 true) s (fun t => t.rd Reg.CEC_ECC_CORR_CNT = 1) = true ∧
      s.mayRead .ac0 = true) ∧
    (runs' (.domainOn 5) (domAt 5 dmUP) (fun t => t.domState 5 = dmON ∧ t.pends 210) = true ∧
      runs' (.domainOn 5) (reach 40001 (domAt 5 dmUP)) (fun t => t.domState 5 = dmUP) = true ∧
      runs' (.domainOn 5) (domAt 5 dmDOWN) (fun t => t.domState 5 = dmDOWN) = true) := by
  refine ⟨?_, ?_⟩ <;> decide +kernel

theorem wit_BoundaryScanAvailable :
    runs' (.boundaryScan 2) small (fun t => t.dev.scan = 2) = true ∧ runs' (.boundaryScan 3) small (fun t => t.dev.scan = 0) = true ∧
      runs' (.boundaryScan 3) (small.wr Reg.SEC_STAT_DBG 2) (fun t => t.dev.scan = 3) = true ∧
      runs' (.boundaryScan 3) ((small.wr Reg.SEC_STAT_DBG 2).wr Reg.SEC_STAT_LC lcDEAD) (fun t => t.dev.scan = 0) = true := by
  decide +kernel

theorem wit_SoftwareReset :
    let s := (inState .standby).put Reg.CHK_STAT_SPLIT true; s.runs = true ∧ s.split = true ∧ s.calm ∧ s.dev.resetDue = none ∧
      runs' (.registerWrite .ac0 0x40010000 4 (some 1) .ok) s (fun t => t.dev.resetDue = some (4000, 8)) = true ∧
      runs' (.registerWrite .sec 0x40010000 4 (some 1) .ok) s (fun t => t.dev.resetDue = none) = true ∧
      runs' (.registerWrite .ac0 0x40010000 4 (some 1) .ok) ((inState .active).put Reg.CHK_STAT_SPLIT true)
        (fun t => t.dev.resetDue = none ∧ t.on Reg.PWR_STAT_WDENY) = true ∧
      (let s := pairOn 0 pairINSERVICE { drain := [(3, [{ addr := 0x40010000, mask := 15, data := 1 }])] };
        s.live 0 = true ∧ s.pairOn 0 = true ∧ (s.pwr.stalled.any fun op => op.m = mainCore 0) = false ∧
        runs' (.releaseDrain 0 true) { s with dev := { s.dev with state := .standby } } (fun t => t.dev.resetDue = some (4001, 8)) = true) := by
  decide +kernel

theorem wit_StepRunsFront :
    ({ small with pending := [.trngFail, .dvfsDone] } : State).pending = .trngFail :: [.dvfsDone] ∧ small.pending = [] := by decide +kernel

theorem wit_StoresCanonicalEveryStep :
    State.reset.storesWf = true ∧ small.storesWf = true ∧
      (match step { small with pending := [.trngFail] } with | .next t => t.storesWf | _ => false) = true := by
  decide +kernel

/-! ### Worked examples of spec/ -/

/-- R333, the example of Worker V3: the deviations 0, +3.5, +2.0, -1.5 and +21.25 ticks give off = 7,874,106,709. -/
theorem test_example_offset :
    syncOff ((keptDevs [(0, 13), (28, 0), (16, 1), (-12, 11), (170, 12)]).map Prod.fst) = 7874106709 := by decide +kernel

/-- R333: the requests written for that offset, and adj with CL = 400,000 and RSH 1. -/
theorem test_example_requests :
    trunc 64 (-7874106709) = 0xFFFFFFFE * 2 ^ 32 + 0x2AAAAAAB ∧ syncAdj 7874106709 0 400000 1 = 9843 ∧ (42950 - 9843 : Int) = 33107 := by
  decide +kernel

/-- R96, R98: the product of the traction program and the cases of the table. -/
theorem test_example_scale :
    scale (1000000 * 1518500250) 31 = (707107, false) ∧ scale 5 1 = (3, false) ∧ scale (-5) 1 = (-2, false) ∧ scale (-7) 2 = (-2, false) ∧
      scale (2 ^ 62) 31 = (2 ^ 31 - 1, true) ∧ scale 100000000 (-4) = (1600000000, false) ∧ scale 200000000 (-4) = (2 ^ 31 - 1, true) := by
  decide +kernel

/-- R99: MULC with K 0x010, D 0x200 and A 0x100, its fields read from the word the specification writes. -/
theorem test_example_word :
    ewOp 0x1500402000400000 = 0x15 ∧ ewK 0x1500402000400000 = 0x010 ∧ ewD 0x1500402000400000 = 0x200 ∧ ewA 0x1500402000400000 = 0x100 ∧
      ewB 0x1500402000400000 = 0 := by
  decide +kernel

end Sys2Proof.Machine
end

section
/-! Every function of the model keeps the register file and the shared memory canonical (O60): one lemma per function, in the
order of the model, each following the function's own body. A function that branches on the offset of an address in its block has
that offset named first: the kernel would otherwise count the subtraction of the block's base down. -/
namespace Sys2Proof.Machine

/-- Both stores list their keys strictly rising and no entry equal to what an unlisted one reads as (R14, R569). -/
structure State.Canonical (s : State) : Prop where
  regs : Regs.wf s.regs = true
  mem : Memory.wf s.mem = true

/-- The state a command answers is canonical. -/
def Out.Canonical (o : Out) : Prop := ∀ t, o = .next t → t.Canonical

theorem State.storesWf_iff (s : State) : s.storesWf = true ↔ s.Canonical := by
  rw [State.storesWf, Bool.and_eq_true]
  exact ⟨fun h => ⟨h.1, h.2⟩, fun h => ⟨h.regs, h.mem⟩⟩

theorem State.Canonical.reset : State.reset.Canonical := (State.storesWf_iff _).mp (by decide +kernel)

theorem SMap.wfFrom_filter {α : Type} [DecidableEq α] {d : α} (p : Nat × α → Bool) (m : SMap α) (lo : Nat)
    (h : SMap.wfFrom d lo m = true) : SMap.wfFrom d lo (m.filter p) = true := by
  induction m generalizing lo with
  | nil => rfl
  | cons a m ih =>
    simp only [SMap.wfFrom, Bool.and_eq_true, decide_eq_true_eq] at h
    obtain ⟨ha, hm⟩ := h
    rw [List.filter_cons]
    split
    · simpa only [SMap.wfFrom, Bool.and_eq_true, decide_eq_true_eq] using ⟨ha, ih _ hm⟩
    · exact SMap.wfFrom_mono d _ _ _ (Nat.le_succ_of_le ha.1) (ih _ hm)

theorem SMap.wf_filter {α : Type} [DecidableEq α] {d : α} (p : Nat × α → Bool) (m : SMap α) (h : SMap.wf d m = true) :
    SMap.wf d (m.filter p) = true := SMap.wfFrom_filter p m 0 h

theorem SMap.wf_foldl_set {α : Type} [DecidableEq α] {d : α} (l m : SMap α) (h : SMap.wf d m = true) :
    SMap.wf d (l.foldl (fun m p => SMap.set d m p.1 p.2) m) = true := by
  refine List.foldlRecOn (motive := fun m => SMap.wf d m = true) l _ h fun m hm p _ => ?_
  exact SMap.wf_set d m p.1 p.2 hm

section
variable {s t : State}

/-! ### What is built from canonical states -/

theorem State.Canonical.ite {c : Prop} {_ : Decidable c} (h : s.Canonical) (h' : t.Canonical) :
    (if c then s else t).Canonical := by
  split
  · exact h
  · exact h'

theorem State.Canonical.iteFst {α : Type} {p q : State × α} {c : Prop} {_ : Decidable c} (h : p.1.Canonical)
    (h' : q.1.Canonical) : (if c then p else q).1.Canonical := by
  split
  · exact h
  · exact h'

theorem State.Canonical.iteSnd {α : Type} {p q : α × State} {c : Prop} {_ : Decidable c} (h : p.2.Canonical)
    (h' : q.2.Canonical) : (if c then p else q).2.Canonical := by
  split
  · exact h
  · exact h'

theorem State.Canonical.ofSome (h : s.Canonical) (e : some s = some t) : t.Canonical := Option.some.inj e ▸ h

theorem State.Canonical.ofInr {α : Type} (h : s.Canonical) (e : (Sum.inr s : α ⊕ State) = .inr t) : t.Canonical :=
  Sum.inr.inj e ▸ h

theorem State.Canonical.ofPair {α : Type} {r : α × State} {a : α} (h : r.2.Canonical) (e : r = (a, t)) : t.Canonical := by
  subst e
  exact h

theorem State.Canonical.ofFst {α : Type} {r : State × α} {a : α} (h : r.1.Canonical) (e : r = (t, a)) : t.Canonical := by
  subst e
  exact h

theorem eq_inr_of_ite_inl {α β : Type} {c : Prop} {_ : Decidable c} {a : α} {b : β} {r : α ⊕ β}
    (e : (if c then .inl a else r) = .inr b) : r = .inr b := by
  split at e
  · cases e
  · exact e

theorem State.Canonical.next (h : s.Canonical) : Out.Canonical (.next s) := fun _ e => by
  cases e
  exact h

theorem Out.Canonical.ite {o o' : Out} {c : Prop} {_ : Decidable c} (h : Out.Canonical o) (h' : Out.Canonical o') :
    Out.Canonical (if c then o else o') := by
  split
  · exact h
  · exact h'

theorem State.Canonical.keep {o : Out} (h : s.Canonical) (ho : Out.Canonical o) : (keep s o).Canonical := by
  unfold Machine.keep
  split
  · exact ho _ rfl
  · exact h

theorem State.Canonical.foldl {α : Type} {l : List α} {f : State → α → State} (h : s.Canonical)
    (hf : ∀ {a : α} {t : State}, t.Canonical → (f t a).Canonical) : (l.foldl f s).Canonical :=
  List.foldlRecOn (motive := State.Canonical) l f h fun _ h _ _ => hf h

theorem State.Canonical.when {c f} (h : s.Canonical) (hf : ∀ {t : State}, t.Canonical → (f t).Canonical) :
    (s.when c f).Canonical :=
  (hf h).ite h

theorem State.Canonical.each {l f} (h : s.Canonical) (hf : ∀ {n} {t : State}, t.Canonical → (f n t).Canonical) :
    (s.each l f).Canonical :=
  h.foldl hf

/-! ### The stores -/

/-- Every part but the two stores may change. -/
theorem State.Canonical.upd {dev time anv eng cec com fb adc out so axs pair chk fcu intc tsk hif can seam fdl alm sec pwr
    fresh pending} (h : s.Canonical) :
    State.Canonical { regs := s.regs, dev, time, anv, eng, cec, com, fb, adc, out, so, axs, pair, chk, fcu, intc, tsk, hif,
                      can, seam, fdl, alm, sec, pwr, mem := s.mem, fresh, pending } :=
  ⟨h.regs, h.mem⟩

theorem State.Canonical.wr {f v} (h : s.Canonical) : (s.wr f v).Canonical := ⟨SMap.wf_set _ _ _ _ h.regs, h.mem⟩

theorem State.Canonical.putBytes {a bs} (h : s.Canonical) : State.Canonical { s with mem := putBytes s.mem a bs } :=
  ⟨h.regs, putBytes_wf _ _ _ h.mem⟩

theorem State.Canonical.putWord {a v} (h : s.Canonical) : State.Canonical { s with mem := putWord s.mem a v } :=
  ⟨h.regs, putWord_wf _ _ _ h.mem⟩

theorem State.Canonical.putWords {a ws} (h : s.Canonical) : State.Canonical { s with mem := putWords s.mem a ws } :=
  ⟨h.regs, putWords_wf _ _ _ h.mem⟩

/-! ### The functions of Ops -/

theorem State.Canonical.put {f b} (h : s.Canonical) : (s.put f b).Canonical := h.wr

theorem State.Canonical.wrBit {f n b} (h : s.Canonical) : (s.wrBit f n b).Canonical := h.wr

theorem State.Canonical.add {f n} (h : s.Canonical) : (s.add f n).Canonical := h.wr

theorem State.Canonical.inc {f} (h : s.Canonical) : (s.inc f).Canonical := h.add

theorem State.Canonical.maxi {f v} (h : s.Canonical) : (s.maxi f v).Canonical := h.wr

theorem State.Canonical.free (h : s.Canonical) : (s.free).2.Canonical := h.upd

theorem State.Canonical.later {f} (h : s.Canonical) : (s.later f).Canonical := h.upd

theorem State.Canonical.irq {src} (h : s.Canonical) : (irq src s).Canonical := h.wrBit.later.ite h.wrBit

theorem State.Canonical.dmaWrite {loc a ws} (h : s.Canonical) : (s.dmaWrite loc a ws).Canonical :=
  h.upd.ite <| h.putWords.ite h.later

theorem State.Canonical.ringPutRaw {r words} (h : s.Canonical) : (ringPutRaw r words s).Canonical :=
  have h := h.dmaWrite.wr.inc
  h.wr.ite h

theorem State.Canonical.ringPut {r words} (h : s.Canonical) : (ringPut r words s).Canonical := h.ringPutRaw

theorem State.Canonical.ringPuts {r ds} (h : s.Canonical) : (ringPuts r ds s).Canonical := h.foldl .ringPut

theorem State.Canonical.msix {vec} (h : s.Canonical) : (msix vec s).Canonical := h.upd.ite h.dmaWrite

theorem State.Canonical.ringNotify {r own} (h : s.Canonical) : (ringNotify r own s).Canonical :=
  (h.dmaWrite.put.irq.upd.when .msix).ite h.dmaWrite

theorem State.Canonical.ringWrite {r ds} (h : s.Canonical) : (ringWrite r ds s).Canonical := h.ringPuts.ringNotify

theorem State.Canonical.noteClaim {c} (h : s.Canonical) : (noteClaim c s).Canonical := h.upd.ite h

theorem State.Canonical.postEvent {kind data} (h : s.Canonical) : (postEvent kind data s).Canonical :=
  (h.inc.later.ite h.ringWrite).ite h

theorem State.Canonical.streamRecord {r kind fn data} (h : s.Canonical) : (streamRecord r kind fn data s).Canonical :=
  (h.ringPut.foldl .ringPutRaw).ringNotify.ite h.inc.later

theorem State.Canonical.putTrigger (h : s.Canonical) : (putTrigger s).Canonical := h.upd

theorem State.Canonical.almTrigger {b code} (h : s.Canonical) : (almTrigger b code s).Canonical :=
  h.wr.wr.wr.wr.upd.putTrigger.later.ite <| (h.when .wr).wr.putTrigger.ite <| h.inc.putTrigger.ite <|
    h.inc.putTrigger.later.ite h

theorem State.Canonical.almEvent {b code} (h : s.Canonical) : (almEvent b code s).Canonical := h.when .almTrigger

theorem State.Canonical.fltStop (h : s.Canonical) : (fltStop s).Canonical := h.put.put.upd

theorem State.Canonical.setDevRole {st role} (h : s.Canonical) : (setDevRole st role s).Canonical :=
  h.ite <| (((h.wr.upd.when .wr).when .fltStop).when .irq).postEvent

theorem State.Canonical.setRole {role} (h : s.Canonical) : (setRole role s).Canonical := h.setDevRole

theorem State.Canonical.enterLee (h : s.Canonical) : (enterLee s).Canonical := h.upd.setDevRole.inc.irq.almEvent.ite h

theorem State.Canonical.leaveLee (h : s.Canonical) : (leaveLee s).Canonical := h.upd.irq.ite h

theorem State.Canonical.setO {n o} (h : s.Canonical) : (s.setO n o).Canonical := h.upd

theorem State.Canonical.safeLegs {n} (h : s.Canonical) : (safeLegs n s).Canonical := h.ite h.setO

theorem State.Canonical.enterSafe (h : s.Canonical) : (enterSafe s).Canonical :=
  h.ite <| have h := h.each .safeLegs
  h.upd.leaveLee.fltStop.setDevRole.irq.almEvent.ite h.upd

theorem State.Canonical.applyLeeCause (h : s.Canonical) : (applyLeeCause s).Canonical :=
  h.ite <| by
    split
    · exact h.enterLee
    · exact h.when .setRole
    · exact h

theorem State.Canonical.enterActive (h : s.Canonical) : (enterActive s).Canonical := h.setDevRole.applyLeeCause

theorem State.Canonical.requestSafe {axes} (h : s.Canonical) : (requestSafe axes s).Canonical :=
  (h.each .safeLegs).upd

theorem State.Canonical.noteRaise {f} (h : s.Canonical) : (noteRaise f s).Canonical := h.upd

theorem State.Canonical.logFault {f} (h : s.Canonical) : (logFault f s).Canonical :=
  have h := h.wr.wr.when .inc
  h.wr.irq.ite h.inc

theorem State.Canonical.recordWho {f} (h : s.Canonical) : (recordWho f s).Canonical := h.wr.wr.wr.wr.wr.wr

theorem State.Canonical.recordFault {f} (h : s.Canonical) : (recordFault f s).Canonical :=
  (h.when .recordWho).inc.wr.upd.irq.ite h.recordWho.put.wr.wr.wr.wr.wr.upd.irq

theorem State.Canonical.unhold {code} (h : s.Canonical) : (unhold code s).Canonical := h.upd.irq.ite h

theorem State.Canonical.takeReaction {f r} (h : s.Canonical) : (takeReaction f r s).Canonical :=
  h.ite <| by
    split
    · exact h
    · exact h
    · exact h.applyLeeCause
    · exact h.requestSafe
    · exact h.enterSafe
    · exact h.enterSafe.upd

theorem State.Canonical.raise1 {f} (h : s.Canonical) : (raise1 f s).Canonical :=
  h.ite <| have h := (((((h.noteRaise.when .logFault).when .recordFault).when .postEvent).when .irq).when .irq).when .irq
  .takeReaction <| .when (.when (.when (by
    split
    · exact h.irq
    · exact h) .fltStop) .almEvent) .almEvent

theorem State.Canonical.settle {n} (h : s.Canonical) : (settle n s).Canonical := by
  induction n generalizing s with
  | zero => exact h
  | succ n ih =>
    unfold Machine.settle
    split
    · exact h
    · exact ih h.upd.raise1

theorem State.Canonical.settleAll (h : s.Canonical) : (settleAll s).Canonical := h.settle

theorem State.Canonical.done (h : s.Canonical) : Out.Canonical (done s) := h.settleAll.next

theorem State.Canonical.raise {f} (h : s.Canonical) : (raise f s).Canonical := h.raise1.settleAll

theorem State.Canonical.raiseIrq {src} (h : s.Canonical) : (raiseIrq src s).Canonical := h.irq.settleAll

theorem State.Canonical.raiseAx {code n} (h : s.Canonical) : (raiseAx code n s).Canonical := h.raise

theorem State.Canonical.raiseAxes {code axes} (h : s.Canonical) : (raiseAxes code axes s).Canonical := h.raise

theorem State.Canonical.raiseDev {code} (h : s.Canonical) : (raiseDev code s).Canonical := h.raise

theorem State.Canonical.busError {m acc addr} (h : s.Canonical) : (busError m acc addr s).Canonical := h.raise

theorem State.Canonical.sramEcc {m acc e a} (h : s.Canonical) : (sramEcc m acc e a s).Canonical := by
  unfold Machine.sramEcc
  split
  · exact h
  · exact h.raise
  · exact h.raise

theorem State.Canonical.sramEccs {m e a n} (h : s.Canonical) : (sramEccs m e a n s).Canonical :=
  h.each fun h => h.when .sramEcc

/-! ### The functions of Owner -/

theorem State.Canonical.setPr {p x} (h : s.Canonical) : (s.setPr p x).Canonical := h.upd

theorem State.Canonical.releaseCores {p} (h : s.Canonical) : (releaseCores p s).Canonical := h.setPr

theorem State.Canonical.setSo {m o} (h : s.Canonical) : (s.setSo m o).Canonical := h.upd

/-! ### The functions of Time -/

theorem State.Canonical.advance {n} (h : s.Canonical) : (advance n s).Canonical := h.upd.when fun h => h.put.irq

theorem State.Canonical.advanceTo {t} (h : s.Canonical) : (advanceTo t s).Canonical := h.advance

theorem State.Canonical.reach {t} (h : s.Canonical) : (reach t s).Canonical := h.advance

theorem State.Canonical.execSlewEnd (h : s.Canonical) : Out.Canonical (execSlewEnd s) :=
  h.next.ite <| h.next.ite h.advance.done

theorem State.Canonical.loadCt {v} (h : s.Canonical) : (loadCt v s).Canonical := h.upd.put.put.irq

theorem State.Canonical.execOffsetRequest {v} (h : s.Canonical) : Out.Canonical (execOffsetRequest v s) :=
  h.next.ite <| h.put.done.ite h.wr.upd.done

theorem State.Canonical.execTimeReadLatch {m r} (h : s.Canonical) : Out.Canonical (execTimeReadLatch m r s) :=
  h.next.ite <| .ite (by
    split
    · exact h.upd.upd.done
    · exact h.upd.upd.done) h.upd.done

theorem State.Canonical.execFrameCycleWrite {cycle v} (h : s.Canonical) : Out.Canonical (execFrameCycleWrite cycle v s) :=
  h.next.ite <| h.next.ite <| h.put.done.ite h.wr.done

/-! ### The functions of Adc -/

theorem State.Canonical.setC {n c} (h : s.Canonical) : (s.setC n c).Canonical := h.upd

theorem State.Canonical.feedCom {key code} (h : s.Canonical) : (feedCom key code s).Canonical :=
  h.ite <| h.each fun h => (h.when .setC).when .setC

theorem State.Canonical.stampSeq {key} (h : s.Canonical) : (stampSeq key s).Canonical := h.upd

theorem State.Canonical.adcComplete {c raw start bipolar} (h : s.Canonical) :
    (adcComplete c raw start bipolar s).Canonical :=
  (h.wr.wr.when fun h => h.wrBit.ite h.wrBit).stampSeq.feedCom

theorem State.Canonical.adcTake {a t} (h : s.Canonical) : (adcTake a t s).Canonical := h.upd

theorem State.Canonical.adcDrop {a} (h : s.Canonical) : (adcDrop a s).Canonical := h.ite h.wrBit.raiseDev

theorem State.Canonical.groupDone {g} (h : s.Canonical) : (groupDone g s).Canonical := h.when .irq

theorem State.Canonical.setDefer {g} (h : s.Canonical) : (setDefer g s).Canonical := h.upd

theorem State.Canonical.setFib {i v} (h : s.Canonical) : (setFib i v s).Canonical := h.upd

theorem State.Canonical.setFibs {i vs} (h : s.Canonical) : (setFibs i vs s).Canonical := h.upd

theorem State.Canonical.comSampleFixed (h : s.Canonical) : (comSampleFixed s).Canonical :=
  h.each fun h => by
    split
    · exact h
    · exact h.setFibs
    · exact h.setFibs

theorem State.Canonical.comLatchShunt {n} (h : s.Canonical) : (comLatchShunt n s).Canonical := h.setFibs.setC

theorem State.Canonical.latchSlot {g k} (h : s.Canonical) : (latchSlot g k s).Canonical := h.setFib.when .setFib

theorem State.Canonical.noteWaits (h : s.Canonical) : (noteWaits s).Canonical := (h.foldl .setDefer).upd

theorem State.Canonical.latchGroup {g kind last deferred shunts} (h : s.Canonical) :
    (latchGroup g kind last deferred shunts s).Canonical :=
  ((h.each .latchSlot).each .comLatchShunt).comSampleFixed.setFib.upd

theorem State.Canonical.sample {g kind} (h : s.Canonical) : (sample g kind s).Canonical := h.noteWaits.latchGroup.upd

theorem State.Canonical.reSample (h : s.Canonical) : (reSample s).Canonical := h.foldl .latchGroup

theorem State.Canonical.execAdcConversionDone {c raw} (h : s.Canonical) : Out.Canonical (execAdcConversionDone c raw s) :=
  h.next.ite <| by
    dsimp only
    split
    · exact h.next
    · exact h.next.ite <| have h := h.upd.when .setDefer
      h.reach.adcDrop.done.ite h.adcTake.reach.adcComplete.groupDone.reSample.done

theorem State.Canonical.execGroupTrigger {g} (h : s.Canonical) : Out.Canonical (execGroupTrigger g s) :=
  h.next.ite <| by
    split
    · exact h.next
    · exact ((h.reach.upd.when .setDefer).each .adcDrop).done

theorem State.Canonical.execGroupConversionDrop {g k} (h : s.Canonical) : Out.Canonical (execGroupConversionDrop g k s) :=
  h.next.ite <| by
    split
    · exact h.next
    · exact h.next.ite <| (h.reach.when .setDefer).upd.adcDrop.done

theorem State.Canonical.execSinc3Result {n stream} (h : s.Canonical) : Out.Canonical (execSinc3Result n stream s) :=
  h.next.ite <| h.next.ite <| h.advance.advance.upd.done.ite h.advance.advance.upd.wr.wr.stampSeq.feedCom.reSample.done

theorem State.Canonical.sdSync {n old} (h : s.Canonical) : (sdSync n old s).Canonical := h.ite <| h.upd.when .upd

theorem State.Canonical.execSdStuck {n more} (h : s.Canonical) : Out.Canonical (execSdStuck n more s) :=
  h.next.ite <| h.wrBit.raiseAxes.done.ite h.next

theorem State.Canonical.execCsaOvr {k} (h : s.Canonical) : Out.Canonical (execCsaOvr k s) :=
  h.next.ite <| h.put.raiseDev.done.ite h.next

theorem State.Canonical.execSsupFault {k} (h : s.Canonical) : Out.Canonical (execSsupFault k s) :=
  h.wrBit.wrBit.upd.raiseDev.done.ite h.next

/-! ### The functions of Fbk -/

theorem State.Canonical.setFb {n f} (h : s.Canonical) : (s.setFb n f).Canonical := h.upd

theorem State.Canonical.fbFault {code n} (h : s.Canonical) : (fbFault code n s).Canonical := h.raise

theorem State.Canonical.fbInvalid {n} (h : s.Canonical) : (fbInvalid n s).Canonical := h.setFb

theorem State.Canonical.fbCapture {n} (h : s.Canonical) : (fbCapture n s).Canonical := (h.each .setFibs).setFb

theorem State.Canonical.rearmNow {n} (h : s.Canonical) : (rearmNow n s).Canonical := h.setFb.wr

theorem State.Canonical.unRearm {n} (h : s.Canonical) : (unRearm n s).Canonical := h.setFb.wr

theorem State.Canonical.beforeRearm {n f} (h : s.Canonical) (hf : ∀ {t : State}, t.Canonical → (f t).Canonical) :
    (beforeRearm n f s).Canonical :=
  (hf h.unRearm).rearmNow.ite <| hf h

theorem State.Canonical.fbEvent {n e} (h : s.Canonical) (he : ∀ {t : State}, t.Canonical → (e t).Canonical) :
    (fbEvent n e s).Canonical :=
  h.beforeRearm fun h => (he h).when fun h => h.setFb.fbCapture

theorem State.Canonical.fbEdges {n} (h : s.Canonical) : (fbEdges n s).Canonical := h.setFb

theorem State.Canonical.fbTick {n} (h : s.Canonical) : (fbTick n s).Canonical := h.setFb.fbEdges

theorem State.Canonical.tickAgain {n} (h : s.Canonical) : (tickAgain n s).Canonical := h.setFb.fbEdges.ite h

theorem State.Canonical.illegalEdge {n} (h : s.Canonical) : (illegalEdge n s).Canonical :=
  h.setFb.inc.raiseIrq.fbFault.when .fbFault

theorem State.Canonical.indexOnCount {n} (h : s.Canonical) : (indexOnCount n s).Canonical := h.setFb.fbFault.ite h

theorem State.Canonical.countStep {n rev} (h : s.Canonical) : (countStep n rev s).Canonical :=
  h.ite <| (h.setFb.tickAgain.when .raiseIrq).when .indexOnCount

theorem State.Canonical.execQuadratureTransition {n clk raw} (h : s.Canonical) :
    Out.Canonical (execQuadratureTransition n clk raw s) := by
  unfold Machine.execQuadratureTransition
  refine h.next.ite <| h.next.ite ?_
  have h := h.advance (n := clk)
  refine h.setFb.done.ite ?_
  split
  · exact h.setFb.done
  · exact (h.setFb.fbEvent .countStep).done
  · exact (h.setFb.fbEvent .countStep).done
  · exact (h.setFb.fbEvent .illegalEdge).done

theorem State.Canonical.indexAccepted {n} (h : s.Canonical) : (indexAccepted n s).Canonical :=
  (h.setFb.when .fbFault).raiseIrq

theorem State.Canonical.execIndexAccept {n clk raw} (h : s.Canonical) : Out.Canonical (execIndexAccept n clk raw s) :=
  h.next.ite <| h.next.ite <| (h.advance.setFb.when fun h => h.fbEvent .indexAccepted).done

theorem State.Canonical.overrate {n} (h : s.Canonical) : (overrate n s).Canonical := h.setFb.fbFault

theorem State.Canonical.execOverrate {n gaps} (h : s.Canonical) : Out.Canonical (execOverrate n gaps s) :=
  h.next.ite <| h.overrate.done.ite h.next

theorem State.Canonical.execHallStateChange {n clk raw} (h : s.Canonical) :
    Out.Canonical (execHallStateChange n clk raw s) := by
  unfold Machine.execHallStateChange
  refine h.next.ite <| h.next.ite ?_
  have h := h.advance (n := clk)
  refine h.setFb.done.ite <| h.done.ite ?_
  dsimp only
  split
  · exact (h.setFb.fbEvent .setFb).done
  · split
    · exact h.setFb.done
    · split
      · exact h.setFb.done
      · exact (h.setFb.fbEvent .countStep).done
      · exact (h.setFb.fbEvent .countStep).done
      · exact (h.setFb.fbEvent .illegalEdge).done

theorem State.Canonical.execHallIllegal {n} (h : s.Canonical) : Out.Canonical (execHallIllegal n s) :=
  h.next.ite <| h.reach.fbInvalid.fbFault.done.ite h.next

theorem State.Canonical.badSample {code n} (h : s.Canonical) : (badSample code n s).Canonical :=
  h.setFb.when fun h => h.fbInvalid.fbFault

theorem State.Canonical.ssiInvalid {n} (h : s.Canonical) : (ssiInvalid n s).Canonical := h.setFb.fbFault.badSample

theorem State.Canonical.execSsiTransferStart {n high} (h : s.Canonical) : Out.Canonical (execSsiTransferStart n high s) :=
  h.next.ite <| h.next.ite <| h.next.ite <| h.reach.setFb.setFb.done.ite <| (h.reach.setFb.fbEvent .ssiInvalid).done

theorem State.Canonical.execSsiResult {n data par check} (h : s.Canonical) :
    Out.Canonical (execSsiResult n data par check s) :=
  h.next.ite <| by
    dsimp only
    split
    · exact h.next
    · exact (h.reach.fbEvent .ssiInvalid).done.ite <| (h.reach.fbEvent .setFb).done

theorem State.Canonical.fbSample {n ang bad} (h : s.Canonical) : (fbSample n ang bad s).Canonical :=
  h.setFb.badSample.ite <| h.setFb.ite <| h.setFb.overrate.ite h.setFb

theorem State.Canonical.execResolverSample {ch7 sn cs} (h : s.Canonical) : Out.Canonical (execResolverSample ch7 sn cs s) :=
  h.next.ite <| h.next.ite <| h.next.ite <|
    (h.setFb.reach.adcTake.adcTake.adcComplete.adcComplete.reSample.fbEvent fun h => h.setFb.fbSample).done

theorem State.Canonical.execLineLoss {n} (h : s.Canonical) : Out.Canonical (execLineLoss n s) :=
  h.next.ite <| h.setFb.fbFault.done.ite h.next

theorem State.Canonical.rearm {n} (h : s.Canonical) : (rearm n s).Canonical := h.wrBit.ite h.rearmNow

theorem State.Canonical.execRearm {mask} (h : s.Canonical) : Out.Canonical (execRearm mask s) :=
  h.next.ite <| (h.each .rearm).done

theorem State.Canonical.execFbkAxmapWrite {v} (h : s.Canonical) : Out.Canonical (execFbkAxmapWrite v s) :=
  h.next.ite <| h.next.ite <| (h.each fun h => h.wr.ite <| h.when .wrBit).done

/-! ### The functions of Com -/

theorem State.Canonical.skips {n k} (h : s.Canonical) : (skips n k s).Canonical := h.add

theorem State.Canonical.execSamplingPlan {n} (h : s.Canonical) : Out.Canonical (execSamplingPlan n s) :=
  h.next.ite <| h.next.ite h.reach.skips.setC.done

theorem State.Canonical.execShuntConversion {n winB raw} (h : s.Canonical) :
    Out.Canonical (execShuntConversion n winB raw s) :=
  h.next.ite <| by
    split
    · exact h.next
    · exact h.next.ite <| h.setC.skips.done.ite <| have h := h.reach.adcTake.adcComplete.reSample
      h.setC.skips.done.ite h.setC.done

theorem State.Canonical.execShuntSetComplete {n} (h : s.Canonical) : Out.Canonical (execShuntSetComplete n s) :=
  h.next.ite <| by
    split
    · exact h.next
    · exact (h.reach.skips.wr.put.setC.reSample.when .raiseAx).done

theorem State.Canonical.wordChop {n on} (h : s.Canonical) : (wordChop n on s).Canonical := h.setO.ite h

theorem State.Canonical.chopper {n on code} (h : s.Canonical) : (chopper n on code s).Canonical :=
  h.ite h.put.wordChop.setC

theorem State.Canonical.vdcTrip {n} (h : s.Canonical) : (vdcTrip n s).Canonical := (h.put.when .requestSafe).raiseAx

theorem State.Canonical.vdcCompare {n t v} (h : s.Canonical) : (vdcCompare n t v s).Canonical :=
  ((h.wr.setC.put.put.when .chopper).when .raiseAx).when .vdcTrip

theorem State.Canonical.execDcLinkResult {n} (h : s.Canonical) : Out.Canonical (execDcLinkResult n s) :=
  h.next.ite <| by
    split
    · exact h.next
    · exact h.setC.vdcCompare.done

theorem State.Canonical.execVdcLost {n} (h : s.Canonical) : Out.Canonical (execVdcLost n s) :=
  h.next.ite <| h.next.ite h.reach.put.raiseAx.done

theorem State.Canonical.chopFault {n} (h : s.Canonical) : (chopFault n s).Canonical := h.ite h.put.setC.raiseAx

theorem State.Canonical.chopStuck {n} (h : s.Canonical) : (chopStuck n s).Canonical := h.ite h.put.raiseAx

theorem State.Canonical.execChopperCurrentResult {n} (h : s.Canonical) : Out.Canonical (execChopperCurrentResult n s) :=
  h.next.ite <| by
    split
    · exact h.next
    · exact have h := h.setC.wr
        h.done.ite <| (h.when .chopFault).done.ite <| (h.when .chopStuck).done

theorem State.Canonical.execChopperNoFallCheck {n} (h : s.Canonical) : Out.Canonical (execChopperNoFallCheck n s) :=
  h.next.ite <| (h.reach.setC.when .chopFault).done.ite h.next

theorem State.Canonical.comLeftDisabled {n} (h : s.Canonical) : (comLeftDisabled n s).Canonical := h.setC

theorem State.Canonical.comDisabled {n} (h : s.Canonical) : (comDisabled n s).Canonical := h.put.put

theorem State.Canonical.comNotRunning {n} (h : s.Canonical) : (comNotRunning n s).Canonical := h.wr.put

theorem State.Canonical.comCapture (h : s.Canonical) : (comCapture s).Canonical := h.each .setFibs

/-! ### The functions of Out -/

theorem State.Canonical.reach8 {t} (h : s.Canonical) : (reach8 t s).Canonical := h.advance

theorem State.Canonical.reachClk {c} (h : s.Canonical) : (reachClk c s).Canonical := h.advance

theorem State.Canonical.outCommit {n t tgt b} (h : s.Canonical) : (outCommit n t tgt b s).Canonical :=
  h.setO.put.raiseAx.ite <| h.setO.when .wrBit

theorem State.Canonical.execBlockInForce {n} (h : s.Canonical) : Out.Canonical (execBlockInForce n s) :=
  h.next.ite <| by
    split
    · exact h.next
    · exact h.reach.setO.done

theorem State.Canonical.execLegTransition {n x} (h : s.Canonical) : Out.Canonical (execLegTransition n x s) :=
  h.next.ite <| h.next.ite <| by
    split
    · exact h.next
    · exact h.reach8.setO.done

theorem State.Canonical.execIncomingTurnOn {n x} (h : s.Canonical) : Out.Canonical (execIncomingTurnOn n x s) :=
  h.next.ite <| by
    split
    · exact h.next
    · exact h.next.ite h.reach8.setO.done

theorem State.Canonical.outDisabled {n} (h : s.Canonical) : (outDisabled n s).Canonical := h.setO

theorem State.Canonical.execTripInput {t} (h : s.Canonical) : Out.Canonical (execTripInput t s) :=
  h.next.ite <| h.wrBit.done.ite <| (h.wrBit.wrBit.each .setO).raiseAxes.almEvent.done

theorem State.Canonical.execTripRelease {t active} (h : s.Canonical) : Out.Canonical (execTripRelease t active s) :=
  h.next.ite <| h.next.ite h.wrBit.done

theorem State.Canonical.execTripLatchClear {mask} (h : s.Canonical) : Out.Canonical (execTripLatchClear mask s) :=
  h.next.ite <| (h.wr.each fun h => h.when .setO).done

theorem State.Canonical.startWord {n k chars} (h : s.Canonical) : (startWord n k chars s).Canonical := h.setO

theorem State.Canonical.execHeartbeat {n} (h : s.Canonical) : Out.Canonical (execHeartbeat n s) :=
  h.next.ite <| h.next.ite h.reachClk.startWord.setO.done

theorem State.Canonical.execSetupWord {n} (h : s.Canonical) : Out.Canonical (execSetupWord n s) :=
  h.next.ite <| h.next.ite h.reachClk.startWord.setO.done

theorem State.Canonical.execBlockWord {n} (h : s.Canonical) : Out.Canonical (execBlockWord n s) :=
  h.next.ite <| .ite (by
    dsimp only
    split
    · exact h.next
    · exact h.advance.startWord.done) h.next

theorem State.Canonical.setLink {n st} (h : s.Canonical) : (setLink n st s).Canonical :=
  h.wr.ite <| h.wr.raiseIrq.ite <| h.wr.ite h.wr.raiseIrq

theorem State.Canonical.goodUplink {n} (h : s.Canonical) : (goodUplink n s).Canonical := h.setO

theorem State.Canonical.badUplink {n} (h : s.Canonical) : (badUplink n s).Canonical := h.setO.inc.raiseAx

theorem State.Canonical.execStatusWord {n clk valid c1 c2 c3 c4} (h : s.Canonical) :
    Out.Canonical (execStatusWord n clk valid c1 c2 c3 c4 s) :=
  h.next.ite <| h.next.ite <| h.advance.badUplink.done.ite <|
    have h := h.advance.goodUplink.noteClaim.setO.wr.wr.wr.wr.wr
    have h := ((h.when fun h => h.put.raiseAx).when fun h => h.put.raiseAx).when fun h => h.put.raiseAx
    ((h.when .raiseAx).when .raiseAx).done

theorem State.Canonical.remeasured {n v} (h : s.Canonical) : (remeasured n v s).Canonical :=
  h.setO.wr.ite <| h.setO.when .raiseAx

theorem State.Canonical.execEchoWord {n clk valid value turn round} (h : s.Canonical) :
    Out.Canonical (execEchoWord n clk valid value turn round s) :=
  h.next.ite <| h.next.ite <| h.advance.badUplink.done.ite <| h.advance.goodUplink.done.ite <|
    (h.advance.goodUplink.setO.when .remeasured).done

theorem State.Canonical.execTrain {n} (h : s.Canonical) : Out.Canonical (execTrain n s) :=
  h.next.ite <| h.setO.setLink.done.ite h.next

theorem State.Canonical.execTrainingDone {n} (h : s.Canonical) : Out.Canonical (execTrainingDone n s) :=
  h.next.ite <| (have h := h.setO.wr
  h.setLink.done.ite h.setLink.raiseAx.done).ite h.next

theorem State.Canonical.execLatencyRemeasure {n} (h : s.Canonical) : Out.Canonical (execLatencyRemeasure n s) :=
  h.next.ite <| h.setO.done.ite h.next

theorem State.Canonical.linkDown {n} (h : s.Canonical) : (linkDown n s).Canonical :=
  h.ite <| h.setO.setLink.when .raiseAx

theorem State.Canonical.execGlLoss {n} (h : s.Canonical) : Out.Canonical (execGlLoss n s) :=
  h.next.ite <| h.next.ite h.reachClk.linkDown.done

theorem State.Canonical.execGlClear {n} (h : s.Canonical) : Out.Canonical (execGlClear n s) :=
  h.next.ite <| h.setO.done.ite h.next

theorem State.Canonical.soReadings {m midh midl} (h : s.Canonical) : (soReadings m midh midl s).Canonical := h.put.put

theorem State.Canonical.execSoReadbackCheck {m midh midl ihs} (h : s.Canonical) :
    Out.Canonical (execSoReadbackCheck m midh midl ihs s) :=
  h.next.ite <| h.next.ite <|
    (((h.when fun h => h.setSo.reachClk).soReadings.put.when fun h => h.put.raiseDev).when fun h => h.put.raiseDev).done

theorem State.Canonical.execSoOvercurrent {m} (h : s.Canonical) : Out.Canonical (execSoOvercurrent m s) :=
  h.next.ite <| h.next.ite h.put.raiseDev.done

theorem State.Canonical.execSoTestPulse {m} (h : s.Canonical) : Out.Canonical (execSoTestPulse m s) :=
  h.next.ite <| h.reachClk.setSo.done.ite h.next

theorem State.Canonical.execSoTestPulseEnd {m midh midl} (h : s.Canonical) :
    Out.Canonical (execSoTestPulseEnd m midh midl s) :=
  h.next.ite <| by
    dsimp only
    split
    · exact h.next
    · exact have h := h.setSo.reachClk
        h.soReadings.inc.raiseIrq.done.ite h.soReadings.put.raiseDev.done

theorem State.Canonical.execSoLatchClear {m mask} (h : s.Canonical) : Out.Canonical (execSoLatchClear m mask s) :=
  h.next.ite <| ((((h.when .put).when .put).when .put).when .put).done

/-! ### The functions of Axis -/

theorem State.Canonical.setA {n a} (h : s.Canonical) : (s.setA n a).Canonical := h.upd

theorem State.Canonical.setGo {n b} (h : s.Canonical) : (setGo n b s).Canonical := h.put

theorem State.Canonical.writePending {n i ws} (h : s.Canonical) : (writePending n i ws s).Canonical := h.setA

theorem State.Canonical.axisFresh {n} (h : s.Canonical) : (axisFresh n s).Canonical :=
  (h.setA.wr.when fun h => h.wr.setGo).when .setGo

theorem State.Canonical.axisSwap {n} (h : s.Canonical) : (axisSwap n s).Canonical :=
  (h.setA.put.wr.when .axisFresh).setA

theorem State.Canonical.setStop {n kind hold} (h : s.Canonical) : (setStop n kind hold s).Canonical := h.wr.put

theorem State.Canonical.enterAxis {n old new} (h : s.Canonical) : (enterAxis n old new s).Canonical :=
  have h := (h.when fun h => h.comDisabled.outDisabled).when .upd
  have h := ((h.when .comLeftDisabled).when .comNotRunning).when .setO
  (h.when fun h => h.setA.setGo.almEvent).when .setStop

theorem State.Canonical.setAxis {n new} (h : s.Canonical) : (setAxis n new s).Canonical :=
  h.ite <| (h.when .safeLegs).wr.enterAxis.setA.wr.postEvent

theorem State.Canonical.buildCtl {n} (h : s.Canonical) : (buildCtl n s).Canonical := h.setA

theorem State.Canonical.workerRole (h : s.Canonical) : (workerRole s).Canonical :=
  h.ite <| h.enterActive.ite <| h.leaveLee.setDevRole.ite h

theorem State.Canonical.applyStops {n l} (h : s.Canonical) : (applyStops n l s).Canonical :=
  h.ite <| h.setAxis.ite <| h.setA.setStop.setAxis.ite <| h.setStop.ite h

theorem State.Canonical.gustTick {n seen} (h : s.Canonical) : (gustTick n seen s).Canonical := h.setA

theorem State.Canonical.evalDisabled {n} (h : s.Canonical) : (evalDisabled n s).Canonical :=
  h.ite <| h.setAxis.ite <| h.ite h.setA.raiseAx

theorem State.Canonical.fsFail {n} (h : s.Canonical) : (fsFail n s).Canonical :=
  (h.setA.wr.when fun h => h.wr.setGo).setAxis

theorem State.Canonical.evalArming {n st} (h : s.Canonical) : (evalArming n st s).Canonical :=
  (h.when .setGo).setAxis.ite <| h.ite <| h.setAxis.ite <| h.fsFail.ite <| h.setAxis.ite h

theorem State.Canonical.evalStopping {n st boundary} (h : s.Canonical) : (evalStopping n st boundary s).Canonical :=
  have h := h.applyStops.when .setA
  h.setAxis.ite h

theorem State.Canonical.evalHeld {n} (h : s.Canonical) : (evalHeld n s).Canonical :=
  (h.when .setGo).setAxis.ite <| h.setAxis.ite h

theorem State.Canonical.evalSafe {n st} (h : s.Canonical) : (evalSafe n st s).Canonical := h.setAxis.ite h

theorem State.Canonical.axisStep {n boundary} (h : s.Canonical) : (axisStep n boundary s).Canonical :=
  have h := h.gustTick.when .raiseAx
  h.setAxis.ite <| (h.when .setGo).evalDisabled.ite <| h.evalArming.ite <| (h.when .setGo).applyStops.ite <|
    (h.when .setGo).evalStopping.ite <| h.evalHeld.ite h.evalSafe

theorem State.Canonical.axisEval {n boundary} (h : s.Canonical) : (axisEval n boundary s).Canonical :=
  (h.wr.axisStep.when fun h => h.setA.inc).setA.buildCtl

theorem State.Canonical.axisTick {boundary} (h : s.Canonical) : (axisTick boundary s).Canonical :=
  (h.each .axisEval).workerRole.each .buildCtl

theorem State.Canonical.axisAfter {n} (h : s.Canonical) : (axisAfter n s).Canonical := h.workerRole.buildCtl

theorem State.Canonical.execArmTimeout {n} (h : s.Canonical) : Out.Canonical (execArmTimeout n s) :=
  h.setGo.raiseAx.setAxis.axisAfter.done.ite h.next

theorem State.Canonical.execStopTimeout {n} (h : s.Canonical) : Out.Canonical (execStopTimeout n s) :=
  h.setA.raiseAx.done.ite h.next

theorem State.Canonical.execSpStale {n} (h : s.Canonical) : Out.Canonical (execSpStale n s) :=
  h.setA.raiseAx.setGo.applyStops.axisAfter.done.ite h.next

theorem State.Canonical.execGustLong {n} (h : s.Canonical) : Out.Canonical (execGustLong n s) :=
  h.setA.raiseAx.setGo.applyStops.axisAfter.done.ite h.next

theorem State.Canonical.enablesFrom {old} (h : s.Canonical) : (enablesFrom old s).Canonical :=
  h.each fun h => h.when fun h => (h.when .requestSafe).raiseAx

/-! ### The functions of Crypto -/

theorem State.Canonical.draw {n} (h : s.Canonical) : (State.draw n s).2.Canonical := by
  induction n generalizing s with
  | zero => exact h
  | succ n ih => exact ih h.free

/-! ### The functions of Engine -/

theorem State.Canonical.setE {n e} (h : s.Canonical) : (s.setE n e).Canonical := h.upd

theorem State.Canonical.engStart {n entry} (h : s.Canonical) : (engStart n entry s).Canonical :=
  h.wrBit.wrBit.put.ite h.setE.wrBit.put

theorem State.Canonical.engLast {n cycles} (h : s.Canonical) : (engLast n cycles s).Canonical := h.wr.wr

theorem State.Canonical.engFlags {n sat fcst ovr} (h : s.Canonical) : (engFlags n sat fcst ovr s).Canonical :=
  h.put.put.put

theorem State.Canonical.engStopped {n} (h : s.Canonical) : (engStopped n s).Canonical :=
  h.setE.wrBit.engFlags.raiseAx.irq

theorem State.Canonical.engAbort {n} (h : s.Canonical) : (engAbort n s).Canonical :=
  h.setE.wrBit.engLast.engStopped.ite h

theorem State.Canonical.eccRecord {n mem index} (h : s.Canonical) : (eccRecord n mem index s).Canonical :=
  h.ite h.wr.wr.put.wr

theorem State.Canonical.engHalt {n mem index code} (h : s.Canonical) : (engHalt n mem index code s).Canonical :=
  h.setE.engLast.eccRecord.raiseAx.irq

theorem State.Canonical.eccCorr {n} (h : s.Canonical) : (eccCorr n s).Canonical := h.inc.raiseAx

theorem State.Canonical.engUseEcc {n mem i e} (h : s.Canonical) : (engUseEcc n mem i e s).Canonical := by
  unfold Machine.engUseEcc
  split
  · exact h
  · exact h.eccCorr
  · exact h.eccRecord.raiseAx

theorem State.Canonical.engExec {op f n ecc} (h : s.Canonical) : (engExec op f n ecc s).Canonical :=
  .ite (by
    split
    · exact h.setE
    · exact h.setE.eccCorr
    · exact h.engHalt) h

theorem State.Canonical.execEngNop {n ecc} (h : s.Canonical) : Out.Canonical (execEngNop n ecc s) :=
  h.next.ite h.engExec.done

theorem State.Canonical.execEngEnd {n ecc} (h : s.Canonical) : Out.Canonical (execEngEnd n ecc s) :=
  h.next.ite h.engExec.done

theorem State.Canonical.execMov {n ecc} (h : s.Canonical) : Out.Canonical (execMov n ecc s) :=
  h.next.ite h.engExec.done

theorem State.Canonical.execLdk {n ecc} (h : s.Canonical) : Out.Canonical (execLdk n ecc s) :=
  h.next.ite h.engExec.done

theorem State.Canonical.execAsh {n ecc} (h : s.Canonical) : Out.Canonical (execAsh n ecc s) :=
  h.next.ite h.engExec.done

theorem State.Canonical.execAdd {n ecc} (h : s.Canonical) : Out.Canonical (execAdd n ecc s) :=
  h.next.ite h.engExec.done

theorem State.Canonical.execSub {n ecc} (h : s.Canonical) : Out.Canonical (execSub n ecc s) :=
  h.next.ite h.engExec.done

theorem State.Canonical.execNeg {n ecc} (h : s.Canonical) : Out.Canonical (execNeg n ecc s) :=
  h.next.ite h.engExec.done

theorem State.Canonical.execAbs {n ecc} (h : s.Canonical) : Out.Canonical (execAbs n ecc s) :=
  h.next.ite h.engExec.done

theorem State.Canonical.execMuld {n ecc} (h : s.Canonical) : Out.Canonical (execMuld n ecc s) :=
  h.next.ite h.engExec.done

theorem State.Canonical.execMulc {n ecc} (h : s.Canonical) : Out.Canonical (execMulc n ecc s) :=
  h.next.ite h.engExec.done

theorem State.Canonical.execAxpy {n ecc} (h : s.Canonical) : Out.Canonical (execAxpy n ecc s) :=
  h.next.ite h.engExec.done

theorem State.Canonical.execAclr {n ecc} (h : s.Canonical) : Out.Canonical (execAclr n ecc s) :=
  h.next.ite h.engExec.done

theorem State.Canonical.execMacc {n ecc} (h : s.Canonical) : Out.Canonical (execMacc n ecc s) :=
  h.next.ite h.engExec.done

theorem State.Canonical.execMacd {n ecc} (h : s.Canonical) : Out.Canonical (execMacd n ecc s) :=
  h.next.ite h.engExec.done

theorem State.Canonical.execMsud {n ecc} (h : s.Canonical) : Out.Canonical (execMsud n ecc s) :=
  h.next.ite h.engExec.done

theorem State.Canonical.execAcst {n ecc} (h : s.Canonical) : Out.Canonical (execAcst n ecc s) :=
  h.next.ite h.engExec.done

theorem State.Canonical.execAcsm {n ecc} (h : s.Canonical) : Out.Canonical (execAcsm n ecc s) :=
  h.next.ite h.engExec.done

theorem State.Canonical.execMin {n ecc} (h : s.Canonical) : Out.Canonical (execMin n ecc s) :=
  h.next.ite h.engExec.done

theorem State.Canonical.execMax {n ecc} (h : s.Canonical) : Out.Canonical (execMax n ecc s) :=
  h.next.ite h.engExec.done

theorem State.Canonical.execClmp {n ecc} (h : s.Canonical) : Out.Canonical (execClmp n ecc s) :=
  h.next.ite h.engExec.done

theorem State.Canonical.execSel {n ecc} (h : s.Canonical) : Out.Canonical (execSel n ecc s) :=
  h.next.ite h.engExec.done

theorem State.Canonical.execAnd {n ecc} (h : s.Canonical) : Out.Canonical (execAnd n ecc s) :=
  h.next.ite h.engExec.done

theorem State.Canonical.execOr {n ecc} (h : s.Canonical) : Out.Canonical (execOr n ecc s) := h.next.ite h.engExec.done

theorem State.Canonical.execXor {n ecc} (h : s.Canonical) : Out.Canonical (execXor n ecc s) :=
  h.next.ite h.engExec.done

theorem State.Canonical.execClarke {n ecc} (h : s.Canonical) : Out.Canonical (execClarke n ecc s) :=
  h.next.ite h.engExec.done

theorem State.Canonical.execPark {n ecc} (h : s.Canonical) : Out.Canonical (execPark n ecc s) :=
  h.next.ite h.engExec.done

theorem State.Canonical.execIpark {n ecc} (h : s.Canonical) : Out.Canonical (execIpark n ecc s) :=
  h.next.ite h.engExec.done

theorem State.Canonical.execSincos {n ecc} (h : s.Canonical) : Out.Canonical (execSincos n ecc s) :=
  h.next.ite h.engExec.done

theorem State.Canonical.execLut1 {n ecc} (h : s.Canonical) : Out.Canonical (execLut1 n ecc s) :=
  h.next.ite h.engExec.done

theorem State.Canonical.execLut2 {n ecc} (h : s.Canonical) : Out.Canonical (execLut2 n ecc s) :=
  h.next.ite h.engExec.done

theorem State.Canonical.execIntg {n ecc} (h : s.Canonical) : Out.Canonical (execIntg n ecc s) :=
  h.next.ite h.engExec.done

theorem State.Canonical.execRlim {n ecc} (h : s.Canonical) : Out.Canonical (execRlim n ecc s) :=
  h.next.ite h.engExec.done

theorem State.Canonical.execBiq {n ecc} (h : s.Canonical) : Out.Canonical (execBiq n ecc s) :=
  h.next.ite h.engExec.done

theorem State.Canonical.execFir {n ecc} (h : s.Canonical) : Out.Canonical (execFir n ecc s) :=
  h.next.ite h.engExec.done

theorem State.Canonical.execFcst {n ecc} (h : s.Canonical) : Out.Canonical (execFcst n ecc s) :=
  h.next.ite h.engExec.done

theorem State.Canonical.execEngIllegal {n} (h : s.Canonical) : Out.Canonical (execEngIllegal n s) :=
  h.next.ite <| h.engHalt.done.ite h.next

theorem State.Canonical.traceWords {ws} (h : s.Canonical) : (traceWords ws s).Canonical := by
  induction ws generalizing s with
  | nil => exact h
  | cons w ws ih => exact ih h.upd.wr

theorem State.Canonical.tracePut {rec} (h : s.Canonical) : (tracePut rec s).Canonical := h.traceWords.ite h.inc

theorem State.Canonical.traceDrain {k r} (h : s.Canonical) : (traceDrain k r s).Canonical := by
  induction k generalizing s with
  | zero => exact h
  | succ k ih => exact h.ite <| ih h.wr.streamRecord

theorem State.Canonical.engTrace {n} (h : s.Canonical) : (engTrace n s).Canonical :=
  .ite (by
    dsimp only
    split
    · exact h.tracePut
    · exact h.tracePut.traceDrain) h

theorem State.Canonical.engForecast {n flag prev} (h : s.Canonical) : (engForecast n flag prev s).Canonical :=
  (h.wrBit.irq.when .raiseAx).ite h

theorem State.Canonical.engSatAt {n sat} (h : s.Canonical) : (engSatAt n sat s).Canonical :=
  (h.wrBit.irq.when .raiseAx).ite h

theorem State.Canonical.engComplete {n} (h : s.Canonical) : (engComplete n s).Canonical :=
  h.advanceTo.setE.wrBit.wrBit.engLast.engFlags.engForecast.engSatAt.engTrace.irq

theorem State.Canonical.execEngineCompletion {n corr} (h : s.Canonical) : Out.Canonical (execEngineCompletion n corr s) :=
  h.next.ite <| (h.engComplete.when .eccCorr).done.ite h.next

theorem State.Canonical.execTraceRpWrite {v} (h : s.Canonical) : Out.Canonical (execTraceRpWrite v s) :=
  h.next.ite h.wr.done

theorem State.Canonical.engCyc {n} (h : s.Canonical) : (engCyc n s).Canonical := h.when .wr

theorem State.Canonical.engTakeUp {n} (h : s.Canonical) : (engTakeUp n s).Canonical := by
  unfold Machine.engTakeUp
  dsimp only
  split
  · exact h.wrBit
  · exact .engCyc <| .wr <| by
      split
      · exact h.wrBit.upd.setE
      · exact (h.wrBit.upd.setE.each .wr).wr.wr.wr.wrBit

/-! ### The functions of Fuse -/

theorem State.Canonical.setSec {x} (h : s.Canonical) : (setSec x s).Canonical := h.upd

theorem State.Canonical.blow {k} (h : s.Canonical) : (blow k s).Canonical := h.setSec

theorem State.Canonical.blowSteps {ks n} (h : s.Canonical) : (blowSteps ks n s).Canonical := by
  induction ks generalizing n s with
  | nil => exact h
  | cons k ks ih => exact h.ite <| (ih h).ite <| ih h.blow

theorem State.Canonical.advanceArb {k goal} (h : s.Canonical) : (advanceArb k goal s).Canonical := h.blowSteps

theorem State.Canonical.advanceTkcTo {goal} (h : s.Canonical) : (advanceTkcTo goal s).Canonical := h.blowSteps

/-! ### The functions of Chk -/

theorem State.Canonical.intcClear {t} (h : s.Canonical) : (intcClear t s).Canonical := h.put.put.upd

theorem State.Canonical.setPair {p st} (h : s.Canonical) : (setPair p st s).Canonical :=
  h.ite <| (h.wr.raiseIrq.when .intcClear).when fun h => h.each .unhold

theorem State.Canonical.transfer {p} (h : s.Canonical) : (transfer p s).Canonical := h.upd

theorem State.Canonical.losePair {p kind} (h : s.Canonical) : (losePair p kind s).Canonical :=
  ((h.setPr.wr.wr.setPair.when .transfer).when .enterSafe).applyLeeCause.enablesFrom

theorem State.Canonical.pairFault {p kind} (h : s.Canonical) : (pairFault p kind s).Canonical :=
  h.raiseDev.losePair.when .raiseDev

theorem State.Canonical.markCp {p ic cpid src} (h : s.Canonical) : (markCp p ic cpid src s).Canonical :=
  h.ite <| h.setPr.ite h.setPr

theorem State.Canonical.lagSync {p} (h : s.Canonical) : (lagSync p s).Canonical := h.setPr.wr.maxi

theorem State.Canonical.setMainIc {p ic} (h : s.Canonical) : (setMainIc p ic s).Canonical := h.upd.setPr.lagSync

theorem State.Canonical.setChkIc {p ic} (h : s.Canonical) : (setChkIc p ic s).Canonical := h.setPr.lagSync

theorem State.Canonical.pairStore {p chk ic r} (h : s.Canonical) : (pairStore p chk ic r s).Canonical :=
  h.ite <| (h.ite h.setChkIc.setPr).ite <| h.ite <| h.reachClk.setMainIc.setPr.when .markCp

theorem State.Canonical.execCoupledStore {p chk ic addr mask data} (h : s.Canonical) :
    Out.Canonical (execCoupledStore p chk ic addr mask data s) :=
  h.next.ite h.pairStore.done

theorem State.Canonical.execChkpt {p ic v} (h : s.Canonical) : Out.Canonical (execChkpt p ic v s) :=
  h.next.ite <| h.next.ite h.reachClk.setMainIc.markCp.done

theorem State.Canonical.anvilCheck {p ic cpid} (h : s.Canonical) : (anvilCheck p ic cpid s).Canonical :=
  h.ite <| (h.when .setMainIc).markCp

theorem State.Canonical.meet {p ic} (h : s.Canonical) : (meet p ic s).Canonical :=
  h.reachClk.setMainIc.setChkIc.setPr.inc

theorem State.Canonical.inputRetry {p} (h : s.Canonical) : (inputRetry p s).Canonical := h.inc.raiseDev

theorem State.Canonical.execInputExchange {p ic i first again unitsDiffer ecc} (h : s.Canonical) :
    Out.Canonical (execInputExchange p ic i first again unitsDiffer ecc s) := by
  unfold Machine.execInputExchange
  refine h.next.ite <| h.next.ite ?_
  split
  · exact h.next
  · extract_lets -underBinder seen
    split
    · exact h.next
    · extract_lets -underBinder s₁ s₂ s₃
      have h₂ : s₂.Canonical := by
        unfold s₂
        split
        · exact h.meet.when .sramEcc
        · exact h.meet
      have h₃ : s₃.Canonical := h₂.each .inputRetry
      refine h₃.pairFault.done.ite ?_
      split
      · exact h₃.pairFault.done
      · exact h₃.upd.done

theorem State.Canonical.agreeCp {p m rest} (h : s.Canonical) : (agreeCp p m rest s).Canonical :=
  h.setPr.wr.wr.wr.wr.inc.when .setPair

theorem State.Canonical.execCheckpointCompare {p eccA eccB faultyA faultyB} (h : s.Canonical) :
    Out.Canonical (execCheckpointCompare p eccA eccB faultyA faultyB s) :=
  h.next.ite <| by
    split
    · exact h.next
    · exact h.next.ite <| h.setChkIc.pairFault.done.ite <|
      have h := (h.setChkIc.when fun h => h.inc.raiseDev).when fun h => h.inc.raiseDev
      h.pairFault.done.ite <| h.agreeCp.done.ite h.pairFault.done

theorem State.Canonical.execCpTimeout {p} (h : s.Canonical) : Out.Canonical (execCpTimeout p s) :=
  h.next.ite <| by
    split
    · exact h.next
    · exact h.reach.pairFault.done.ite h.next

theorem State.Canonical.applyDebug {p} (h : s.Canonical) : (applyDebug p s).Canonical := by
  unfold Machine.applyDebug
  dsimp only
  split
  · exact h.setPr
  · exact h.setPr

theorem State.Canonical.trapCore {p main chk} (h : s.Canonical) : (trapCore p main chk s).Canonical := h.setPr

theorem State.Canonical.execAccessFault {p lr} (h : s.Canonical) : Out.Canonical (execAccessFault p lr s) :=
  h.next.ite <| h.trapCore.done.ite h.next

theorem State.Canonical.execCheckerTrap {p} (h : s.Canonical) : Out.Canonical (execCheckerTrap p s) :=
  h.next.ite <| by
    split
    · exact h.next
    · exact (have h := h.setChkIc.setPr.applyDebug
      (h.ite h.trapCore).done).ite h.next

theorem State.Canonical.execOholdExpiry (h : s.Canonical) : Out.Canonical (execOholdExpiry s) :=
  h.next.ite <| h.upd.enablesFrom.done.ite h.next

theorem State.Canonical.rejoin {p} (h : s.Canonical) : (rejoin p s).Canonical := h.setPr.wr.setPair.ite h

theorem State.Canonical.execRejoin {p} (h : s.Canonical) : Out.Canonical (execRejoin p s) := h.next.ite h.rejoin.done

theorem State.Canonical.execAssay {p a b} (h : s.Canonical) : Out.Canonical (execAssay p a b s) :=
  h.next.ite <| h.next.ite <| have h := h.setPr.wr.wr.wr.wr.raiseIrq.when .raiseDev
  (h.releaseCores.when .setPair).done.ite <| h.setPair.raiseDev.done.ite <|
    h.setPair.enterSafe.done.ite h.setPair.applyLeeCause.done

theorem State.Canonical.execScrubCompare {p main chk} (h : s.Canonical) : Out.Canonical (execScrubCompare p main chk s) :=
  h.next.ite <| h.next.ite <| have h := h.setPr.inc
  h.done.ite <| (h.inc.raiseDev.raiseIrq.put.when .pairFault).done

theorem State.Canonical.execPairResync {p wfi chkIc} (h : s.Canonical) : Out.Canonical (execPairResync p wfi chkIc s) :=
  h.next.ite <| h.setPr.done.ite h.next

theorem State.Canonical.execPairResyncEnd {p} (h : s.Canonical) : Out.Canonical (execPairResyncEnd p s) :=
  h.next.ite <| h.setPr.put.raiseIrq.done.ite h.next

theorem State.Canonical.execDebugHalt {p ic} (h : s.Canonical) : Out.Canonical (execDebugHalt p ic s) :=
  h.next.ite <| h.setMainIc.upd.setPr.done.ite h.next

theorem State.Canonical.execDebugWrite {p t v} (h : s.Canonical) : Out.Canonical (execDebugWrite p t v s) :=
  h.next.ite <| by
    split
    · exact h.next
    · exact h.next.ite h.setPr.applyDebug.done

theorem State.Canonical.execDebugStep {p} (h : s.Canonical) : Out.Canonical (execDebugStep p s) :=
  h.next.ite <| by
    split
    · exact h.next
    · exact h.next.ite <| (h.applyDebug.setMainIc.setPr.when .setChkIc).done

theorem State.Canonical.execDebugResume {p} (h : s.Canonical) : Out.Canonical (execDebugResume p s) :=
  h.next.ite <| h.applyDebug.setPr.done.ite h.next

theorem State.Canonical.chkTick (h : s.Canonical) : (chkTick s).Canonical := h.upd.each fun h => h.setPr.ite h.setPr

/-! ### The functions of Net -/

theorem State.Canonical.setSeam {x} (h : s.Canonical) : (setSeam x s).Canonical := h.upd

theorem State.Canonical.setFdl {x} (h : s.Canonical) : (setFdl x s).Canonical := h.upd

/-! ### The functions of Seam -/

theorem State.Canonical.setPeer {c x} (h : s.Canonical) : (setPeer c x s).Canonical := h.upd

theorem State.Canonical.claimTick (h : s.Canonical) : (claimTick s).Canonical := h.wr.wr

theorem State.Canonical.takeLink {chars} (h : s.Canonical) : (takeLink chars s).Canonical := h.setSeam.ite h

theorem State.Canonical.sendLease {kind epoch target} (h : s.Canonical) : (sendLease kind epoch target s).Canonical :=
  h.setSeam.takeLink

theorem State.Canonical.takeLease (h : s.Canonical) : (takeLease s).Canonical := by
  unfold Machine.takeLease
  split
  · exact h.setSeam.sendLease
  · exact h.setSeam.sendLease.ite h.setSeam.sendLease

theorem State.Canonical.p1Message (h : s.Canonical) : (p1Message s).Canonical :=
  (h.sendLease.ite h.setSeam.sendLease).ite <| h.takeLease.ite <| h.sendLease.ite h.sendLease

theorem State.Canonical.execP1 (h : s.Canonical) : Out.Canonical (execP1 s) :=
  h.next.ite <| h.next.ite h.reach.setSeam.p1Message.done

theorem State.Canonical.p2Message (h : s.Canonical) : (p2Message s).Canonical :=
  h.sendLease.ite <| h.setSeam.sendLease.ite <| h.setSeam.sendLease.ite h.sendLease

theorem State.Canonical.execP2 (h : s.Canonical) : Out.Canonical (execP2 s) :=
  h.next.ite <| h.next.ite h.reach.setSeam.p2Message.done

theorem State.Canonical.seamDiscard {p} (h : s.Canonical) : (seamDiscard p s).Canonical := h.inc.raiseDev

theorem State.Canonical.msgReject (h : s.Canonical) : (msgReject s).Canonical := h.inc.raiseDev

theorem State.Canonical.hearPeer {c health holder renew} (h : s.Canonical) : (hearPeer c health holder renew s).Canonical :=
  (h.setPeer.wr.wr.when .raiseIrq).when .setSeam

theorem State.Canonical.recognise {c epoch} (h : s.Canonical) : (recognise c epoch s).Canonical :=
  h.wr.wr.setSeam.ite h

theorem State.Canonical.serveBulk {c} (h : s.Canonical) : (serveBulk c s).Canonical := h.setSeam.wr.wr.ite h

theorem State.Canonical.leaseEffect {kind c epoch target} (h : s.Canonical) :
    (leaseEffect kind c epoch target s).Canonical :=
  h.recognise.ite <| h.serveBulk.ite h

theorem State.Canonical.unhear {c words w other} (h : s.Canonical) : (unhear c words w other s).Canonical :=
  (((h.ite h.setPeer.wr.wr).when fun h => h.wr.wr.setSeam).when fun h => h.wr.wr.setSeam).setSeam

theorem State.Canonical.leaseMessage {kind m} (h : s.Canonical) : (leaseMessage kind m s).Canonical :=
  h.msgReject.ite <| by
    split
    · exact h.ite <| h.msgReject.ite h.setPeer.unhear.msgReject
    · exact h.setPeer.hearPeer.leaseEffect

theorem State.Canonical.leaseBy {kind m path} (h : s.Canonical) : Out.Canonical (leaseBy kind m path s) := by
  unfold Machine.leaseBy
  split
  · exact h.leaseMessage.done.ite h.next
  · exact h.next.ite <| h.seamDiscard.done.ite <| h.leaseMessage.done.ite h.next

theorem State.Canonical.execRenew {m path} (h : s.Canonical) : Out.Canonical (execRenew m path s) :=
  h.next.ite h.leaseBy

theorem State.Canonical.execGrant {m path} (h : s.Canonical) : Out.Canonical (execGrant m path s) :=
  h.next.ite h.leaseBy

theorem State.Canonical.execTake {m path} (h : s.Canonical) : Out.Canonical (execTake m path s) :=
  h.next.ite h.leaseBy

theorem State.Canonical.execTgrant {m path} (h : s.Canonical) : Out.Canonical (execTgrant m path s) :=
  h.next.ite h.leaseBy

theorem State.Canonical.execHealth {m path} (h : s.Canonical) : Out.Canonical (execHealth m path s) :=
  h.next.ite h.leaseBy

theorem State.Canonical.execBulkReq {m path} (h : s.Canonical) : Out.Canonical (execBulkReq m path s) :=
  h.next.ite h.leaseBy

theorem State.Canonical.execPeerLost {c} (h : s.Canonical) : Out.Canonical (execPeerLost c s) :=
  h.next.ite <| h.setPeer.raiseDev.done.ite h.next

theorem State.Canonical.execLeaseLapsed (h : s.Canonical) : Out.Canonical (execLeaseLapsed s) :=
  h.next.ite <| .ite (have h := h.wr.setSeam
  .done <| .almEvent <| .claimTick <| .raiseDev <| by
    split
    · exact h.setDevRole
    · exact h.enterSafe
    · exact h) h.next

theorem State.Canonical.execLastChannel (h : s.Canonical) : Out.Canonical (execLastChannel s) :=
  h.next.ite <| (h.setSeam.when .raiseDev).done.ite h.next

theorem State.Canonical.execNoMgrClaim (h : s.Canonical) : Out.Canonical (execNoMgrClaim s) :=
  h.next.ite <| h.setSeam.raiseDev.done.ite h.next

theorem State.Canonical.execSetStart (h : s.Canonical) : Out.Canonical (execSetStart s) :=
  h.next.ite <| by
    split
    · exact h.next
    · exact h.next.ite <| h.setSeam.done.ite h.setSeam.setRole.applyLeeCause.claimTick.done

theorem State.Canonical.seamSnapshot (h : s.Canonical) : (seamSnapshot s).Canonical := h.setSeam.ite h

theorem State.Canonical.execStateCopySend (h : s.Canonical) : Out.Canonical (execStateCopySend s) :=
  h.next.ite <| by
    split
    · exact h.next
    · exact h.next.ite h.advance.takeLink.setSeam.done

theorem State.Canonical.execStateSegment {p hd words} (h : s.Canonical) : Out.Canonical (execStateSegment p hd words s) :=
  h.next.ite <| h.next.ite <| h.seamDiscard.done.ite <| h.next.ite h.putWords.setSeam.done

theorem State.Canonical.execCopyMissed (h : s.Canonical) : Out.Canonical (execCopyMissed s) :=
  h.next.ite <| h.next.ite <| (((h.setSeam.when .inc).raiseDev.when .raiseDev).when .setRole).claimTick.done

theorem State.Canonical.resyncReq (h : s.Canonical) : (resyncReq s).Canonical := h.put.setSeam.ite h

theorem State.Canonical.execResync (h : s.Canonical) : Out.Canonical (execResync s) := h.next.ite h.resyncReq.done

theorem State.Canonical.execBulkSegment {p hd words} (h : s.Canonical) : Out.Canonical (execBulkSegment p hd words s) :=
  h.next.ite <| h.next.ite <| h.seamDiscard.done.ite <| h.next.ite h.putWords.wr.wr.setSeam.done

theorem State.Canonical.execBulkEnd {p hd words} (h : s.Canonical) : Out.Canonical (execBulkEnd p hd words s) :=
  h.next.ite <| h.next.ite <| h.seamDiscard.done.ite <| h.next.ite <| h.wr.setSeam.raiseIrq.done.ite h.setSeam.done

theorem State.Canonical.execBulkSent (h : s.Canonical) : Out.Canonical (execBulkSent s) :=
  h.next.ite <| h.advance.wr.wr.raiseIrq.done.ite h.next

theorem State.Canonical.execResyncFail (h : s.Canonical) : Out.Canonical (execResyncFail s) :=
  h.next.ite <| h.advance.wr.setSeam.raiseDev.done.ite h.next

theorem State.Canonical.standbyOkReq (h : s.Canonical) : (standbyOkReq s).Canonical := h.setSeam.ite h

theorem State.Canonical.execStandbyOk (h : s.Canonical) : Out.Canonical (execStandbyOk s) :=
  h.next.ite h.standbyOkReq.done

theorem State.Canonical.execSeamPortUp {p} (h : s.Canonical) : Out.Canonical (execSeamPortUp p s) :=
  h.next.ite <| h.put.raiseIrq.done.ite h.next

theorem State.Canonical.execSeamLinkDown {p} (h : s.Canonical) : Out.Canonical (execSeamLinkDown p s) :=
  h.next.ite <| h.put.raiseIrq.raiseDev.done.ite h.next

theorem State.Canonical.seamDisable {p} (h : s.Canonical) : (seamDisable p s).Canonical := h.put.raiseIrq.ite h

theorem State.Canonical.sliceTested {ok} (h : s.Canonical) : (sliceTested ok s).Canonical :=
  (h.setSeam.when .put).when .raiseDev

theorem State.Canonical.execSliceTest {ok} (h : s.Canonical) : Out.Canonical (execSliceTest ok s) :=
  h.next.ite <| h.sliceTested.done.ite h.next

theorem State.Canonical.sliceHold {b} (h : s.Canonical) : (sliceHold b s).Canonical :=
  h.ite <| h.put.when fun h => h.put.setSeam

theorem State.Canonical.execSliceHold {b} (h : s.Canonical) : Out.Canonical (execSliceHold b s) :=
  h.next.ite h.sliceHold.done

/-! ### The functions of Fdl -/

theorem State.Canonical.setNd {id x} (h : s.Canonical) : (setNd id x s).Canonical := h.setFdl

theorem State.Canonical.setPt {p x} (h : s.Canonical) : (setPt p x s).Canonical := h.setFdl

theorem State.Canonical.setSs {x} (h : s.Canonical) : (setSs x s).Canonical := h.ite h.wr.raiseIrq

theorem State.Canonical.setAdmitted {b} (h : s.Canonical) : (setAdmitted b s).Canonical :=
  h.put.when fun h => h.put.setFdl.raiseIrq

theorem State.Canonical.fdlRefresh (h : s.Canonical) : (fdlRefresh s).Canonical :=
  (h.wr.setFdl.setSs.ite h.wr).ite h.wr.setSs

theorem State.Canonical.fdlSafe (h : s.Canonical) : (fdlSafe s).Canonical := h.requestSafe

theorem State.Canonical.guardFault {m i} (h : s.Canonical) : (guardFault m i s).Canonical := h.raiseAxes

theorem State.Canonical.guardFail {m i id} (h : s.Canonical) : (guardFail m i id s).Canonical :=
  h.ite <| h.setFdl.when .guardFault

theorem State.Canonical.guardPass {i} (h : s.Canonical) : (guardPass i s).Canonical := h.setFdl

theorem State.Canonical.frameCrc {p} (h : s.Canonical) : (frameCrc p s).Canonical := h.inc.inc.raiseDev

theorem State.Canonical.hearNode {f} (h : s.Canonical) : (hearNode f s).Canonical :=
  (h.setNd.wrBit.when .raiseIrq).when .setSeam

theorem State.Canonical.measure {f} (h : s.Canonical) : (measure f s).Canonical :=
  have h := h.when fun h => h.wrBit.ite h.wrBit
  (h.setFdl.ite <| h.setFdl.setFdl.ite h.setFdl.setFdl).ite h

theorem State.Canonical.agree {m} (h : s.Canonical) : (agree m s).Canonical := h.ite h.setFdl.put.wr.raiseIrq

theorem State.Canonical.headerFields {f} (h : s.Canonical) : (headerFields f s).Canonical := by
  unfold Machine.headerFields
  extract_lets -underBinder fromProp s₁ s₂ s₃
  have h₁ : s₁.Canonical := h.when fun h => h.setFdl.when .wr
  have h₂ : s₂.Canonical := by
    unfold s₂
    split
    · exact h₁
    · exact h₁.ite h₁.setFdl
  exact (h₂.setFdl.when .agree).ite h₂

theorem State.Canonical.noteProposer {f own} (h : s.Canonical) : (noteProposer f own s).Canonical := h.setFdl.ite h

theorem State.Canonical.acceptHeader {f} (h : s.Canonical) : (acceptHeader f s).Canonical :=
  h.hearNode.measure.noteProposer.headerFields

theorem State.Canonical.acceptPayload {f} (h : s.Canonical) : (acceptPayload f s).Canonical := by
  unfold Machine.acceptPayload
  dsimp only
  split
  · exact h.setFdl.ite h
  · exact h.setFdl.guardPass.when .raiseIrq

theorem State.Canonical.integrate {f} (h : s.Canonical) : (integrate f s).Canonical :=
  h.setFdl.ite <| have h := h.setFdl.wr.wr
  h.wr.put.ite h.wr.upd.loadCt.setFdl.setSs

theorem State.Canonical.listenFrame {kind f} (h : s.Canonical) : (listenFrame kind f s).Canonical :=
  h.frameCrc.ite <| h.frameCrc.guardFail.ite <| h.ite h.integrate

theorem State.Canonical.coldFrame {f} (h : s.Canonical) : (coldFrame f s).Canonical := h.setFdl.setSs.ite h

theorem State.Canonical.recvFrame {kind f k} (h : s.Canonical) (hk : ∀ {t : State}, t.Canonical → (k t).Canonical) :
    (recvFrame kind f k s).Canonical :=
  h.ite <| h.listenFrame.ite <| by
    split
    · exact hk h.acceptHeader
    · exact h.inc.noteProposer
    · exact h.frameCrc.guardFail
    · exact h.frameCrc

theorem State.Canonical.receive {kind f k} (h : s.Canonical) (hk : ∀ {t : State}, t.Canonical → (k t).Canonical) :
    (receive kind f k s).Canonical :=
  h.recvFrame fun h => (hk h).coldFrame

theorem State.Canonical.payload1 {f} (h : s.Canonical) : (payload1 f s).Canonical := h.ite h.acceptPayload

theorem State.Canonical.execStatusFrame {f} (h : s.Canonical) : Out.Canonical (execStatusFrame f s) :=
  h.next.ite <| (h.receive fun h => h.ite h.acceptPayload.setNd.noteClaim).done

theorem State.Canonical.execDataFrame {f} (h : s.Canonical) : Out.Canonical (execDataFrame f s) :=
  h.next.ite <| (h.receive .payload1).done

theorem State.Canonical.peerMessage {words} (h : s.Canonical) : (peerMessage words s).Canonical :=
  h.leaseMessage.ite h

theorem State.Canonical.execPeerFrame {f} (h : s.Canonical) : Out.Canonical (execPeerFrame f s) :=
  h.next.ite <| (h.receive fun h => h.ite h.acceptPayload.peerMessage).done

theorem State.Canonical.arbitrate {fs} (h : s.Canonical) : (arbitrate fs s).Canonical := by
  unfold Machine.arbitrate
  dsimp only
  split
  · exact h.add.when .raiseDev
  · exact (h.add.when .raiseDev).ite <| (h.add.when .raiseDev).acceptPayload.setSeam

theorem State.Canonical.execCommandFrame {fs} (h : s.Canonical) : Out.Canonical (execCommandFrame fs s) :=
  h.next.ite <| h.next.ite <| ((h.foldl fun h => h.recvFrame fun h => h).arbitrate.foldl .coldFrame).done

theorem State.Canonical.execJoinRequest {f} (h : s.Canonical) : Out.Canonical (execJoinRequest f s) :=
  h.next.ite <| (h.receive fun h => h.payload1.ite <| have h := h.payload1.wr.wr.wr.wr
    h.put.raiseIrq.ite h.put.raiseDev).done

theorem State.Canonical.sentFields (h : s.Canonical) : (sentFields s).Canonical := by
  unfold Machine.sentFields
  split
  · exact h
  · exact h.ite <| h.setFdl.when .agree

theorem State.Canonical.execSlotTransmit {i} (h : s.Canonical) : Out.Canonical (execSlotTransmit i s) :=
  h.next.ite <| h.next.ite <| (((h.reach.setFdl.when .setFdl).when .sentFields).when .raiseDev).done

theorem State.Canonical.fillSlot {i at' ws} (h : s.Canonical) : (fillSlot i at' ws s).Canonical := h.setFdl

theorem State.Canonical.edgeAt {p id} (h : s.Canonical) : (edgeAt p id s).Canonical :=
  h.inc.ite <| h.inc.setNd.ite h.inc.setNd.wr.wr.raiseDev

theorem State.Canonical.babble {p} (h : s.Canonical) : (babble p s).Canonical := h.setPt

theorem State.Canonical.arrive {p i} (h : s.Canonical) : (arrive p i s).Canonical := h.setPt

theorem State.Canonical.startRelay {p i hops h0 h1 h3 sof} (h : s.Canonical) :
    (startRelay p i hops h0 h1 h3 sof s).Canonical :=
  h.arrive.setFdl.ite h.arrive.setFdl.inc.raiseDev

theorem State.Canonical.execFrameRelay {p i hops h0 h1 h3 sof} (h : s.Canonical) :
    Out.Canonical (execFrameRelay p i hops h0 h1 h3 sof s) :=
  h.next.ite <| h.next.ite <| (h.next.ite <| h.startRelay.done.ite <| h.next.ite h.setPt.startRelay.done).ite <|
    h.next.ite <| h.babble.done.ite <| h.arrive.done.ite <| (h.startRelay.when .edgeAt).done

theorem State.Canonical.execWindowClose {p} (h : s.Canonical) : Out.Canonical (execWindowClose p s) :=
  h.next.ite <| by
    dsimp only
    split
    · exact h.next
    · refine h.next.ite ?_
      split
      · exact h.reach.setPt.babble.done
      · exact h.reach.setPt.babble.done.ite h.reach.setPt.babble.setFdl.inc.done

theorem State.Canonical.execPortIsolated {p} (h : s.Canonical) : Out.Canonical (execPortIsolated p s) :=
  h.next.ite <| h.wr.raiseIrq.raiseDev.done.ite h.next

theorem State.Canonical.reopen {p} (h : s.Canonical) : (reopen p s).Canonical := h.setPt.wr.raiseIrq.ite h

theorem State.Canonical.execReopen {p} (h : s.Canonical) : Out.Canonical (execReopen p s) := h.next.ite h.reopen.done

theorem State.Canonical.execFdlLinkUp {p} (h : s.Canonical) : Out.Canonical (execFdlLinkUp p s) :=
  h.next.ite <| h.wr.raiseIrq.done.ite h.next

theorem State.Canonical.execLinkDown {p} (h : s.Canonical) : Out.Canonical (execLinkDown p s) :=
  h.next.ite <| h.next.ite h.wr.setPt.raiseIrq.raiseDev.done

theorem State.Canonical.execLinkDelayMeasurement {p trips turn} (h : s.Canonical) :
    Out.Canonical (execLinkDelayMeasurement p trips turn s) :=
  h.next.ite <| h.next.ite <| (h.setPt.when .raiseDev).done.ite <| ((h.setPt.wr.wr.when .raiseIrq).when .raiseDev).done

theorem State.Canonical.remeasure {p} (h : s.Canonical) : (remeasure p s).Canonical := h.ite h.setPt

theorem State.Canonical.execRemeasure {p} (h : s.Canonical) : Out.Canonical (execRemeasure p s) :=
  h.next.ite h.remeasure.done

/-! ### The functions of FdlSync -/

theorem State.Canonical.showDev {kept j id} (h : s.Canonical) : (showDev kept j id s).Canonical := h.wr.wr.wr.put.put

theorem State.Canonical.clearDev {j} (h : s.Canonical) : (clearDev j s).Canonical := h.wr.wr.wr.put.put

theorem State.Canonical.execSyncComputation (h : s.Canonical) : Out.Canonical (execSyncComputation s) :=
  h.next.ite <| h.next.ite <| have h := h.reach.setFdl.foldl fun h => h.showDev.ite h.clearDev
  h.setFdl.wr.raiseIrq.done.ite h.wr.wr.wr.wr.wr.upd.wr.setFdl.raiseIrq.done

theorem State.Canonical.enterLost (h : s.Canonical) : (enterLost s).Canonical := h.setSs.raiseDev.fdlSafe

theorem State.Canonical.execSyncLost (h : s.Canonical) : Out.Canonical (execSyncLost s) :=
  h.next.ite <| h.enterLost.done.ite h.next

theorem State.Canonical.onRc (h : s.Canonical) : (onRc s).Canonical := h.ite <| h.put.irq.when .enterLost

theorem State.Canonical.execOscFallback (h : s.Canonical) : Out.Canonical (execOscFallback s) :=
  h.next.ite h.put.upd.raiseDev.onRc.done

theorem State.Canonical.enterSync (h : s.Canonical) : (enterSync s).Canonical := h.setSs.setAdmitted

theorem State.Canonical.execIntegrateToSync (h : s.Canonical) : Out.Canonical (execIntegrateToSync s) :=
  h.next.ite <| h.enterSync.done.ite h.next

theorem State.Canonical.execColdstart (h : s.Canonical) : Out.Canonical (execColdstart s) :=
  h.next.ite <| h.setFdl.setSs.done.ite h.next

theorem State.Canonical.execColdstartToSync (h : s.Canonical) : Out.Canonical (execColdstartToSync s) :=
  h.next.ite <| h.enterSync.done.ite h.next

theorem State.Canonical.modeRefused (h : s.Canonical) : (modeRefused s).Canonical := h.raiseDev

theorem State.Canonical.dropProposal (h : s.Canonical) : (dropProposal s).Canonical := h.setFdl.put.modeRefused

theorem State.Canonical.propose (h : s.Canonical) : (propose s).Canonical := h.modeRefused.ite h.setFdl.put.wr

theorem State.Canonical.cancelProposal (h : s.Canonical) : (cancelProposal s).Canonical := by
  unfold Machine.cancelProposal
  split
  · exact h.ite h.setFdl.put
  · exact h

theorem State.Canonical.execProp {m} (h : s.Canonical) : Out.Canonical (execProp m s) := h.next.ite h.wr.propose.done

theorem State.Canonical.execCancel (h : s.Canonical) : Out.Canonical (execCancel s) :=
  h.next.ite h.cancelProposal.done

theorem State.Canonical.execProposalTimeout (h : s.Canonical) : Out.Canonical (execProposalTimeout s) :=
  h.next.ite <| by
    split
    · exact h.dropProposal.done.ite h.next
    · exact h.next

theorem State.Canonical.execModeSplit (h : s.Canonical) : Out.Canonical (execModeSplit s) :=
  h.next.ite <| h.setFdl.raiseDev.enterLost.done.ite h.next

theorem State.Canonical.proposalTick (h : s.Canonical) : (proposalTick s).Canonical := by
  unfold Machine.proposalTick
  split
  · exact h
  · exact h.setFdl.put.ite <| h.dropProposal.ite <| h.setFdl.when .raiseIrq

theorem State.Canonical.unready {id} (h : s.Canonical) : (unready id s).Canonical := by
  unfold Machine.unready
  split
  · exact h.setFdl
  · exact h

theorem State.Canonical.execNodeLost {star node} (h : s.Canonical) : Out.Canonical (execNodeLost star node s) :=
  h.next.ite <| h.wrBit.unready.raiseDev.done.ite h.next

theorem State.Canonical.execPayloadGuardTimeout {i} (h : s.Canonical) : Out.Canonical (execPayloadGuardTimeout i s) :=
  h.next.ite <| h.setFdl.guardFault.done.ite h.next

theorem State.Canonical.leaveTick (h : s.Canonical) : (leaveTick s).Canonical := h.put.raiseIrq.ite h

theorem State.Canonical.leaveReq (h : s.Canonical) : (leaveReq s).Canonical := h.setFdl.raiseDev.fdlSafe.leaveTick

theorem State.Canonical.execLeave (h : s.Canonical) : Out.Canonical (execLeave s) := h.next.ite h.leaveReq.done

theorem State.Canonical.admission (h : s.Canonical) : (admission s).Canonical :=
  h.ite <| (h.when .setAdmitted).ite <| h.setAdmitted.when fun h => h.raiseDev.fdlSafe

theorem State.Canonical.portTick {p} (h : s.Canonical) : (portTick p s).Canonical :=
  .setPt <| .when (by
    split
    · exact h.wr
    · exact h) .inc

theorem State.Canonical.guardWaits (h : s.Canonical) : (guardWaits s).Canonical :=
  h.ite <| h.foldl fun h => h.setFdl.ite h

theorem State.Canonical.unmeasured (h : s.Canonical) : (unmeasured s).Canonical := h.each fun h => h.put.put

theorem State.Canonical.fdlTick {switched} (h : s.Canonical) : (fdlTick switched s).Canonical :=
  (((h.proposalTick.guardWaits.when .unmeasured).wr.wr.put.setFdl.each .portTick).when .admission).fdlRefresh

/-! ### The functions of Lease -/

theorem State.Canonical.renewal (h : s.Canonical) : (renewal s).Canonical := h.wr.wr.setSeam

theorem State.Canonical.setHolder {c t} (h : s.Canonical) : (setHolder c t s).Canonical := h.wr.wr.setSeam

theorem State.Canonical.takeOver {t} (h : s.Canonical) : (takeOver t s).Canonical :=
  h.setHolder.renewal.enterActive.raiseDev.almEvent

theorem State.Canonical.leaseFalls (h : s.Canonical) : (leaseFalls s).Canonical := h.wr.wr.setSeam.ite h.wr

theorem State.Canonical.leaseRule (h : s.Canonical) : (leaseRule s).Canonical := by
  unfold Machine.leaseRule
  dsimp only
  split
  · exact h.takeOver
  · refine h.renewal.ite ?_
    split
    · exact h.setHolder.renewal
    · exact h.leaseFalls

theorem State.Canonical.ageTick (h : s.Canonical) : (ageTick s).Canonical := h.each fun h => h.ite h.wr

theorem State.Canonical.messagesTick (h : s.Canonical) : (messagesTick s).Canonical := (h.each .setPeer).setSeam

theorem State.Canonical.aloneTick (h : s.Canonical) : (aloneTick s).Canonical := (h.when .unhold).setSeam

theorem State.Canonical.listenTick (h : s.Canonical) : (listenTick s).Canonical :=
  .ite (by
    split
    · exact h.setSeam
    · exact h.setSeam) h.setSeam

theorem State.Canonical.copyApply (h : s.Canonical) : (copyApply s).Canonical := by
  unfold Machine.copyApply
  split
  · exact h
  · exact h.ite <| h.wr.wr.wr.raiseIrq.setSeam.when .setRole

theorem State.Canonical.copyDue (h : s.Canonical) : (copyDue s).Canonical := by
  unfold Machine.copyDue
  dsimp only
  split
  · exact (h.setSeam.when .setSeam).when .setSeam
  · exact h.setSeam.when .setSeam

theorem State.Canonical.standbyTick (h : s.Canonical) : (standbyTick s).Canonical :=
  h.setSeam.setSeam.setRole.ite h.setSeam

theorem State.Canonical.simplexTick (h : s.Canonical) : (simplexTick s).Canonical := h.enterActive.ite h

theorem State.Canonical.workerStandby (h : s.Canonical) : (workerStandby s).Canonical := h.setRole.ite h

theorem State.Canonical.netWritten (h : s.Canonical) : (netWritten s).Canonical := h.workerStandby.fdlRefresh

theorem State.Canonical.sliceTick (h : s.Canonical) : (sliceTick s).Canonical := h.setSeam

theorem State.Canonical.claimsTick (h : s.Canonical) : (claimsTick s).Canonical := h.setSeam

theorem State.Canonical.seamTick (h : s.Canonical) : (seamTick s).Canonical :=
  .ite (.sliceTick <| .setSeam <|
    h.claimsTick.ageTick.setSeam.leaseRule.aloneTick.messagesTick.listenTick.copyApply.copyDue.standbyTick)
    h.claimsTick.setSeam.sliceTick

/-! ### The functions of Fcu -/

theorem State.Canonical.setFcu {x} (h : s.Canonical) : (setFcu x s).Canonical := h.upd

theorem State.Canonical.execLeeWarn (h : s.Canonical) : Out.Canonical (execLeeWarn s) :=
  h.next.ite <| by
    split
    · exact h.next
    · exact h.next.ite h.reach.setFcu.irq.done

theorem State.Canonical.execLeeExpired (h : s.Canonical) : Out.Canonical (execLeeExpired s) :=
  h.next.ite <| h.raiseDev.enterSafe.done.ite h.next

theorem State.Canonical.leeExit (h : s.Canonical) : (leeExit s).Canonical := h.leaveLee.setDevRole.ite h

theorem State.Canonical.leeBoundary (h : s.Canonical) : (leeBoundary s).Canonical := (h.leeExit.each .buildCtl).ite h

theorem State.Canonical.execLeeLimitWrite {v} (h : s.Canonical) : Out.Canonical (execLeeLimitWrite v s) :=
  h.next.ite <| h.next.ite <| h.put.done.ite h.wr.wr.done

theorem State.Canonical.execFltEdge (h : s.Canonical) : Out.Canonical (execFltEdge s) :=
  h.next.ite <| h.reach.setFcu.put.put.done.ite h.reach.fltStop.done

theorem State.Canonical.execFltReadbackCheck {p n} (h : s.Canonical) : Out.Canonical (execFltReadbackCheck p n s) :=
  h.next.ite <| have h := h.reach.put.put
  h.done.ite <| (h.setFcu.when .raiseDev).done

theorem State.Canonical.clearRecord (h : s.Canonical) : (clearRecord s).Canonical :=
  h.ite <| h.put.setFcu.foldl .recordFault

theorem State.Canonical.execRecordClear (h : s.Canonical) : Out.Canonical (execRecordClear s) :=
  h.next.ite h.clearRecord.done

theorem State.Canonical.execLogRpWrite {v} (h : s.Canonical) : Out.Canonical (execLogRpWrite v s) :=
  h.next.ite <| h.wr.wr.done.ite <| h.wr.wr.done.ite h.put.done

theorem State.Canonical.execReactWrite {v} (h : s.Canonical) : Out.Canonical (execReactWrite v s) :=
  h.next.ite <| h.next.ite <| have h := h.when .setFcu
  h.put.done.ite h.setFcu.done

theorem State.Canonical.clearFault {roles code} (h : s.Canonical) : (clearFault roles code s).2.Canonical :=
  .iteSnd h.raiseDev <| .iteSnd h.unhold.setFcu.postEvent h.unhold

/-! ### The functions of Hif -/

theorem State.Canonical.setHif {x} (h : s.Canonical) : (setHif x s).Canonical := h.upd

theorem State.Canonical.completeAt {c status fn ct late result} (h : s.Canonical) :
    (completeAt c status fn ct late result s).Canonical :=
  h.ringWrite.ite h

theorem State.Canonical.complete {c status late result} (h : s.Canonical) : (complete c status late result s).Canonical :=
  h.completeAt

theorem State.Canonical.msixUnmask {vec} (h : s.Canonical) : (msixUnmask vec s).Canonical := h.setHif.msix.ite h

theorem State.Canonical.bar2Write {off v} (h : s.Canonical) : (bar2Write off v s).Canonical :=
  h.setHif.msixUnmask.ite h

theorem State.Canonical.ringBell {r v} (h : s.Canonical) : (ringBell r v s).Canonical :=
  h.put.raiseDev.ite <| h.wr.ite <| h.wr.when .put

theorem State.Canonical.hostReads {v} (h : s.Canonical) : (hostReads v s).Canonical := h.upd

theorem State.Canonical.execDoorbell {b word v} (h : s.Canonical) : Out.Canonical (execDoorbell b word v s) :=
  h.next.ite <| h.next.ite <| by
    split
    · exact h.ringBell.done.ite h.next
    · exact (h.ringBell.done.ite h.next).ite h.bar2Write.done
    · exact h.hostReads.done
    · split
      · exact h.hostReads.done
      · exact h.next

theorem State.Canonical.capCover {r} (h : s.Canonical) : (capCover r s).Canonical := by
  unfold Machine.capCover
  split
  · exact h.wr.upd.ite h
  · exact h

theorem State.Canonical.execRingEnable {r} (h : s.Canonical) : Out.Canonical (execRingEnable r s) :=
  h.next.ite <| h.next.ite <| h.raiseDev.done.ite <| (h.put.wr.wr.put.put.put.setHif.capCover.when .setHif).done

theorem State.Canonical.ringOff {r} (h : s.Canonical) : (ringOff r s).Canonical := h.put.setHif

theorem State.Canonical.execRingDisable {r} (h : s.Canonical) : Out.Canonical (execRingDisable r s) :=
  h.next.ite <| h.next.ite <| (h.ringOff.foldl .complete).done

theorem State.Canonical.hostLost (h : s.Canonical) : (hostLost s).Canonical := h.foldl fun h => h.ringOff.ite h

theorem State.Canonical.execFunctionLevelReset (h : s.Canonical) : Out.Canonical (execFunctionLevelReset s) :=
  h.next.ite h.put.hostLost.raiseDev.irq.done

theorem State.Canonical.execPcieLinkDown (h : s.Canonical) : Out.Canonical (execPcieLinkDown s) :=
  h.next.ite <| h.next.ite h.put.wr.wr.hostLost.raiseDev.irq.done

theorem State.Canonical.execPcieLinkUp {speed width bme} (h : s.Canonical) :
    Out.Canonical (execPcieLinkUp speed width bme s) :=
  h.next.ite <| h.next.ite h.put.wr.wr.put.irq.done

theorem State.Canonical.dmaErr {r acc a} (h : s.Canonical) : (dmaErr r acc a s).Canonical :=
  have h := h.when .raise
  (h.ite h.wr.wr).put.put.raiseDev

theorem State.Canonical.advanceCi {r} (h : s.Canonical) : (advanceCi r s).Canonical := h.wr.inc.dmaWrite

theorem State.Canonical.enqueue {c} (h : s.Canonical) : (enqueue c s).Canonical := h.setHif.maxi

theorem State.Canonical.fetchEcc {r a n ecc} (h : s.Canonical) : (fetchEcc r a n ecc s).Canonical := h.when .sramEccs

theorem State.Canonical.execDescriptorFetch {r clk f} (h : s.Canonical) : Out.Canonical (execDescriptorFetch r clk f s) :=
  h.next.ite <| h.next.ite <| by
    dsimp only
    split
    · exact h.advance.dmaErr.done
    · exact have h := h.advance.fetchEcc.when .setHif
        h.raiseDev.complete.advanceCi.done.ite <| h.complete.dmaErr.done.ite <| by
          split
          · exact h.enqueue.advanceCi.done
          · split
            · exact h.complete.dmaErr.done
            · exact h.fetchEcc.enqueue.advanceCi.done

theorem State.Canonical.dequeue {c} (h : s.Canonical) : (dequeue c s).Canonical := h.setHif

theorem State.Canonical.applyDue {op eff} (h : s.Canonical) (heff : ∀ {a} {t : State}, t.Canonical → (eff a t).Canonical) :
    Out.Canonical (applyDue op s eff) := by
  unfold Machine.applyDue
  split
  · exact h.next
  · exact h.next.ite <| (heff h.dequeue).done.ite h.dequeue.raiseDev.complete.done

theorem State.Canonical.execHostNop (h : s.Canonical) : Out.Canonical (execHostNop s) :=
  h.next.ite <| h.applyDue .complete

theorem State.Canonical.applySet {ws c} (h : s.Canonical) : (applySet ws c s).Canonical :=
  h.complete.ite <| h.postEvent.raiseDev.complete.ite h.writePending.complete

theorem State.Canonical.execSetInline (h : s.Canonical) : Out.Canonical (execSetInline s) :=
  h.next.ite <| h.applyDue .applySet

theorem State.Canonical.execSetBlock (h : s.Canonical) : Out.Canonical (execSetBlock s) :=
  h.next.ite <| h.applyDue .applySet

theorem State.Canonical.execReadStatus (h : s.Canonical) : Out.Canonical (execReadStatus s) :=
  h.next.ite <| h.applyDue fun h => h.complete.ite h.setHif

theorem State.Canonical.execReadStatusCopy {ecc} (h : s.Canonical) : Out.Canonical (execReadStatusCopy ecc s) :=
  h.next.ite <| by
    split
    · exact h.next
    · exact h.next.ite h.setHif.sramEccs.dmaWrite.completeAt.done

theorem State.Canonical.execLoad {token} (h : s.Canonical) : Out.Canonical (execLoad token s) :=
  h.next.ite <| h.applyDue fun h => h.wr.raiseDev.raiseIrq.complete.ite h.put.upd

theorem State.Canonical.execFaultClear (h : s.Canonical) : Out.Canonical (execFaultClear s) :=
  h.next.ite <| h.applyDue fun h => h.clearFault.complete.when .leeBoundary

theorem State.Canonical.execHostSilent (h : s.Canonical) : Out.Canonical (execHostSilent s) :=
  h.next.ite <| h.setHif.raiseDev.done.ite h.next

theorem State.Canonical.hifBoundary (h : s.Canonical) : (hifBoundary s).Canonical := h.when .setHif

theorem State.Canonical.hifLeaving (h : s.Canonical) : (hifLeaving s).Canonical :=
  h.setHif.ite <| h.setHif.setHif.foldl .complete

/-! ### The functions of Alm -/

theorem State.Canonical.setAlm {x} (h : s.Canonical) : (setAlm x s).Canonical := h.upd

theorem State.Canonical.almRefresh (h : s.Canonical) : (almRefresh s).Canonical := h.wr.ite <| h.wr.ite h

theorem State.Canonical.almEnable {b} (h : s.Canonical) : (almEnable b s).Canonical :=
  h.put.wr.setAlm.ite h.put.almRefresh

theorem State.Canonical.execAlmEnable {b} (h : s.Canonical) : Out.Canonical (execAlmEnable b s) :=
  h.next.ite h.almEnable.done

theorem State.Canonical.execTrig (h : s.Canonical) : Out.Canonical (execTrig s) := h.next.ite h.almTrigger.done

theorem State.Canonical.almRelease (h : s.Canonical) : (almRelease s).Canonical := h.wr.setAlm.put.almRefresh.ite h

theorem State.Canonical.execRelease (h : s.Canonical) : Out.Canonical (execRelease s) := h.next.ite h.almRelease.done

theorem State.Canonical.almStream {r} (h : s.Canonical) : (almStream r s).Canonical := h.streamRecord.ite h

theorem State.Canonical.newSession (h : s.Canonical) : (newSession s).Canonical := by
  unfold Machine.newSession
  refine h.ite <| h.setAlm.ite ?_
  split
  next e₁ =>
    split
    next e₂ => exact ((h.draw.ofPair e₁).draw.ofPair e₂).setAlm

theorem State.Canonical.ensureSession {fn} (h : s.Canonical) : (ensureSession fn s).Canonical :=
  h.when fun h => h.setAlm.almStream

theorem State.Canonical.installKr (h : s.Canonical) : (installKr s).Canonical := by
  unfold Machine.installKr
  split
  · exact h
  · exact h.setAlm.almRefresh.newSession

theorem State.Canonical.odigAdd {x} (h : s.Canonical) : (odigAdd x s).Canonical := h.upd

theorem State.Canonical.putRecord (h : s.Canonical) : (putRecord s).Canonical :=
  h.ite <| h.ensureSession.setAlm.almStream.ite <|
    h.ensureSession.setAlm.almStream.setAlm.ite h.ensureSession.setAlm.almStream.setAlm

theorem State.Canonical.takeKey (h : s.Canonical) : (takeKey s).Canonical :=
  h.ite <| h.setAlm.later.ite h.ensureSession.setAlm.almStream

theorem State.Canonical.almEnd {inTime} (h : s.Canonical) : (almEnd inTime s).Canonical :=
  (h.putRecord.ite <| h.when .setAlm).setAlm.takeKey

theorem State.Canonical.almFrameEnd {running endReached} (h : s.Canonical) : (almFrameEnd running endReached s).Canonical :=
  ((h.when fun h => h.setAlm.inc.later).when fun h => h.upd.putRecord.setAlm).setAlm

theorem State.Canonical.almFrameStart (h : s.Canonical) : (almFrameStart s).Canonical :=
  have h := h.setAlm.installKr.ite <| h.setAlm.when .newSession
  h.setAlm.later.ite h

theorem State.Canonical.startDump (h : s.Canonical) : (startDump s).Canonical := (h.when .put).wr.setAlm.ite h

theorem State.Canonical.almDump (h : s.Canonical) : (almDump s).Canonical := h.ite <| h.startDump.ite h.put

theorem State.Canonical.execDump (h : s.Canonical) : Out.Canonical (execDump s) := h.next.ite h.almDump.done

theorem State.Canonical.execAlmFreeze (h : s.Canonical) : Out.Canonical (execAlmFreeze s) :=
  h.next.ite <| (h.wr.when .startDump).done.ite h.next

theorem State.Canonical.execDumpRecord {bad} (h : s.Canonical) : Out.Canonical (execDumpRecord bad s) :=
  h.next.ite <| by
    dsimp only
    split
    · exact h.next
    · exact (h.streamRecord.setAlm.inc.raiseDev.ite h.streamRecord.setAlm).done.ite h.next

theorem State.Canonical.execSeal (h : s.Canonical) : Out.Canonical (execSeal s) :=
  h.next.ite <| (have h := h.streamRecord.raiseDev
  h.wr.setAlm.almRefresh.done.ite h.wr.done).ite h.next

/-! ### The functions of Sched -/

theorem State.Canonical.setAnv {x} (h : s.Canonical) : (setAnv x s).Canonical := h.upd

theorem State.Canonical.modeInvalid {m} (h : s.Canonical) : (modeInvalid m s).Canonical := h.wrBit.put

theorem State.Canonical.validate {m ecc} (h : s.Canonical) : (validate m ecc s).Canonical :=
  have h := h.wr.wr.setAnv.wrBit.put
  .irq <| h.wr.wr.ite <| by
    split
    · exact h.wr.wr
    · exact h.wr.free.wr

/-! ### The functions of Can -/

theorem State.Canonical.setCc {c x} (h : s.Canonical) : (s.setCc c x).Canonical := h.upd

theorem State.Canonical.execCanTx (h : s.Canonical) : Out.Canonical (execCanTx s) :=
  h.next.ite <| h.applyDue fun h => h.complete.ite h.setCc

theorem State.Canonical.execCanTxStale {c onBus} (h : s.Canonical) : Out.Canonical (execCanTxStale c onBus s) :=
  h.next.ite <| by
    dsimp only
    split
    · exact h.next
    · exact h.setCc.complete.done

theorem State.Canonical.canSeen {c f} (h : s.Canonical) : (canSeen c f s).Canonical := h.setCc

theorem State.Canonical.canGuard {c f} (h : s.Canonical) : (canGuard c f s).Canonical := h.raiseDev.irq

theorem State.Canonical.canReceive {c x} (h : s.Canonical) : (canReceive c x s).Canonical := by
  unfold Machine.canReceive
  split
  · exact h
  · exact h.canSeen.inc.canGuard.ite <| h.canSeen.ringWrite.irq.ite h.canSeen.inc.raiseDev

theorem State.Canonical.execCanRx {c x} (h : s.Canonical) : Out.Canonical (execCanRx c x s) :=
  h.next.ite <| h.next.ite h.canReceive.done

theorem State.Canonical.execCanTxDone {c sof} (h : s.Canonical) : Out.Canonical (execCanTxDone c sof s) :=
  h.next.ite <| by
    dsimp only
    split
    · exact h.next
    · exact h.next.ite <| (h.setCc.completeAt.irq.when .canReceive).done

theorem State.Canonical.canBusOff {c} (h : s.Canonical) : (canBusOff c s).Canonical := h.setCc.foldl .complete

theorem State.Canonical.execCanErrorState {c st tec rec} (h : s.Canonical) :
    Out.Canonical (execCanErrorState c st tec rec s) :=
  h.next.ite <| h.next.ite <| h.wr.wr.next.ite <|
    (((h.wr.wr.wr.when .setCc).irq.when .raiseDev).when fun h => h.canBusOff.raiseDev).done

theorem State.Canonical.execRecover {c} (h : s.Canonical) : Out.Canonical (execRecover c s) :=
  h.next.ite <| h.setCc.done.ite h.next

theorem State.Canonical.execCanGuardTimeout {c f} (h : s.Canonical) : Out.Canonical (execCanGuardTimeout c f s) :=
  h.next.ite <| h.setCc.canGuard.done.ite h.next

theorem State.Canonical.canBoundary (h : s.Canonical) : (canBoundary s).Canonical := h.each fun h => h.ite h.setCc

theorem State.Canonical.canEnabled {c} (h : s.Canonical) : (canEnabled c s).Canonical := h.setCc

/-! ### The functions of Intc -/

theorem State.Canonical.setIntc {x} (h : s.Canonical) : (setIntc x s).Canonical := h.upd

theorem State.Canonical.execInterruptPresent {t} (h : s.Canonical) : Out.Canonical (execInterruptPresent t s) :=
  h.next.ite <| by
    split
    · exact h.put.done
    · exact h.next.ite h.put.wr.setIntc.done

theorem State.Canonical.endVotes {src} (h : s.Canonical) : (endVotes src s).Canonical := h.setIntc

theorem State.Canonical.execInterruptAccept {t ic clk} (h : s.Canonical) :
    Out.Canonical (execInterruptAccept t ic clk s) := by
  unfold Machine.execInterruptAccept
  dsimp only
  split
  · exact h.advance.next
  · exact h.advance.next.ite <| have h := h.advance.wrBit.endVotes.wr.put.wr.put.put.inc
    (h.setIntc.upd.trapCore.ite h.setIntc.upd.trapCore).done.ite h.setIntc.upd.setMainIc.setPr.upd.trapCore.done

theorem State.Canonical.intcDone {t src} (h : s.Canonical) : (intcDone t src s).Canonical := h.put.ite h.put.raiseDev

theorem State.Canonical.execDone {t src} (h : s.Canonical) : Out.Canonical (execDone t src s) :=
  h.next.ite h.intcDone.done

theorem State.Canonical.swset {mask} (h : s.Canonical) : (swset mask s).Canonical := h.each .irq

theorem State.Canonical.execSwset {mask} (h : s.Canonical) : Out.Canonical (execSwset mask s) :=
  h.next.ite h.swset.done

theorem State.Canonical.enCleared {src} (h : s.Canonical) : (enCleared src s).Canonical := h.setIntc

theorem State.Canonical.tgtChanged {src} (h : s.Canonical) : (tgtChanged src s).Canonical :=
  h.each fun h => h.setIntc.ite h

theorem State.Canonical.keepVotes (h : s.Canonical) : (keepVotes s).Canonical := h.setIntc

theorem State.Canonical.sourceConfig {src v} (h : s.Canonical) : (sourceConfig src v s).Canonical :=
  have h := h.keepVotes.when .enCleared
  h.put.ite <| have h := h.put.put.put
  (h.when .tgtChanged).wr.ite h.put

theorem State.Canonical.execSourceConfigWrite {src v} (h : s.Canonical) : Out.Canonical (execSourceConfigWrite src v s) :=
  h.next.ite h.sourceConfig.done

theorem State.Canonical.pendClear {k mask} (h : s.Canonical) : (pendClear k mask s).Canonical :=
  (h.wr.each .endVotes).each fun h => h.put.setIntc.ite h

/-! ### The functions of Tsk -/

theorem State.Canonical.setTu {p x} (h : s.Canonical) : (s.setTu p x).Canonical := h.upd

theorem State.Canonical.setTk {p k x} (h : s.Canonical) : (setTk p k x s).Canonical := h.setTu

theorem State.Canonical.withPreempt {p f} (h : s.Canonical) (hf : ∀ {t : State}, t.Canonical → (f t).Canonical) :
    (withPreempt p f s).Canonical :=
  (hf h).when .irq

theorem State.Canonical.makeReady {p k} (h : s.Canonical) : (makeReady p k s).Canonical := h.setTu.setTk

theorem State.Canonical.checkReady {p k} (h : s.Canonical) : (checkReady p k s).Canonical := h.setTk.makeReady.ite h

theorem State.Canonical.writeEntry {p k e} (h : s.Canonical) : (writeEntry p k e s).Canonical := by
  unfold Machine.writeEntry
  exact h.when .putWords

theorem State.Canonical.spillOne {p} (h : s.Canonical) : (spillOne p s).Canonical := by
  unfold Machine.spillOne
  split
  · exact h
  · exact h.writeEntry.setTk

theorem State.Canonical.execTaskSpill {p} (h : s.Canonical) : Out.Canonical (execTaskSpill p s) :=
  h.next.ite <| (h.advance.withPreempt .spillOne).done

theorem State.Canonical.spillFull {p} (h : s.Canonical) : (spillFull p s).Canonical := h.when .spillOne

theorem State.Canonical.traceDecision {p op ic former} (h : s.Canonical) : (traceDecision p op ic former s).Canonical :=
  have h := h.when .putWords
  h.wr.inc.put.irq.ite h.wr

theorem State.Canonical.decideNow {p op ic former} (h : s.Canonical) : (decideNow p op ic former s).Canonical := by
  unfold Machine.decideNow
  extract_lets s₁ s₂ s₃
  have h₁ : s₁.Canonical := by
    unfold s₁
    split
    · exact h.setTk
    · exact h
  have h₂ : s₂.Canonical := by
    unfold s₂
    split
    · exact h₁.wr.put.wr
    · exact h₁.put
  exact h₂.wr.traceDecision.irq

theorem State.Canonical.switchOut {p} (h : s.Canonical) : (switchOut p s).Canonical := by
  unfold Machine.switchOut
  split
  · exact h.when .setTk
  · exact h

theorem State.Canonical.decision {p op ic former} (h : s.Canonical) : (decision p op ic former s).Canonical :=
  h.setTu.ite <| (h.when .switchOut).decideNow

theorem State.Canonical.refillOne {p} (h : s.Canonical) : (refillOne p s).Canonical := by
  unfold Machine.refillOne
  split
  · exact h
  · exact .ite (by
      dsimp only
      split
      · exact h.setTk
      · exact (h.setTk.setTu.when .switchOut).decideNow) h.put.setTu.raiseDev

theorem State.Canonical.refillEcc {p ecc} (h : s.Canonical) : (refillEcc p ecc s).Canonical := by
  unfold Machine.refillEcc
  split
  · exact h.sramEccs
  · exact h

theorem State.Canonical.execTaskRefill {p ecc} (h : s.Canonical) : Out.Canonical (execTaskRefill p ecc s) :=
  h.next.ite <| (h.advance.refillEcc.withPreempt .refillOne).done

theorem State.Canonical.cmdBad {p} (h : s.Canonical) : (cmdBad p s).Canonical := h.put.raiseDev

theorem State.Canonical.flagsOn {p k m} (h : s.Canonical) : (flagsOn p k m s).Canonical := h.setTk

theorem State.Canonical.setFlags {p k m} (h : s.Canonical) : (setFlags p k m s).Canonical := h.flagsOn.checkReady

theorem State.Canonical.unjudged {p} (h : s.Canonical) : (unjudged p s).Canonical := by
  unfold Machine.unjudged
  split
  · exact h
  · exact h.setTu.when .wrBit

theorem State.Canonical.judge {p named} (h : s.Canonical) : (judge p named s).Canonical := h.each .checkReady

theorem State.Canonical.tskCmd {p f} (h : s.Canonical) (hf : ∀ {s t : State}, s.Canonical → f s = some t → t.Canonical) :
    (tskCmd p f s).Canonical := by
  unfold Machine.tskCmd
  refine h.ite ?_
  extract_lets s₁ named s₂
  have h₁ : s₁.Canonical := h.when fun h => h.advance.withPreempt .refillOne
  have h₂ : s₂.Canonical := h₁.unjudged.spillFull
  refine h₁.ite ?_
  split
  case h_1 => exact (h₂.withPreempt .judge).cmdBad
  case h_2 e => exact (h₂.withPreempt fun _ => (hf h₂ e).judge).inc

theorem State.Canonical.tskStart {p k prio mode autoclr} (h : s.Canonical) :
    (tskStart p k prio mode autoclr s).Canonical :=
  h.tskCmd fun h e => by
    dsimp only at e
    split at e
    · cases e
    · exact h.setTk.makeReady.ofSome e

theorem State.Canonical.tskStop {p k ic} (h : s.Canonical) : (tskStop p k ic s).Canonical :=
  h.tskCmd fun h e => (h.setTk.decision.ite h.setTk).ofSome e

theorem State.Canonical.tskSet {p k} (h : s.Canonical) : (tskSet p k s).Canonical :=
  h.tskCmd fun h e => h.setFlags.ofSome e

theorem State.Canonical.tskSignal {p k flag} (h : s.Canonical) : (tskSignal p k flag s).Canonical :=
  h.ite <| (h.unjudged.spillFull.flagsOn.withPreempt .judge).setTu

theorem State.Canonical.tskClear {p k} (h : s.Canonical) : (tskClear p k s).Canonical :=
  h.tskCmd fun h e => h.setTk.ofSome e

theorem State.Canonical.tskWait {p mode autoclr ic} (h : s.Canonical) : (tskWait p mode autoclr ic s).Canonical :=
  h.tskCmd fun h e => by
    split at e
    · cases e
    · split at e
      · cases e
      · exact h.setTk.checkReady.decision.ofSome e

theorem State.Canonical.tskYield {p ic} (h : s.Canonical) : (tskYield p ic s).Canonical :=
  h.tskCmd fun h e => by
    split at e
    · cases e
    · exact h.makeReady.decision.ofSome e

theorem State.Canonical.tskSwitch {p ic} (h : s.Canonical) : (tskSwitch p ic s).Canonical :=
  h.tskCmd fun h e => h.decision.ofSome e

theorem State.Canonical.tskPrio {p k prio} (h : s.Canonical) : (tskPrio p k prio s).Canonical :=
  h.tskCmd fun h e => by
    refine State.Canonical.ofSome ?_ e
    split
    · exact h.setTk.setTk.ite h.setTk.writeEntry
    · exact h.setTk

theorem State.Canonical.tskWrite {p v ic} (h : s.Canonical) : (tskWrite p v ic s).Canonical := by
  unfold Machine.tskWrite
  dsimp only
  split
  · exact h.tskStart
  · exact h.tskStop
  · exact h.tskSet
  · exact h.tskClear
  · exact h.tskWait
  · exact h.tskYield
  · exact h.tskSwitch
  · exact h.tskPrio
  · exact h.when .cmdBad

theorem State.Canonical.execStart {p k prio mode autoclr} (h : s.Canonical) :
    Out.Canonical (execStart p k prio mode autoclr s) :=
  h.tskStart.done

theorem State.Canonical.execStop {p k ic} (h : s.Canonical) : Out.Canonical (execStop p k ic s) := h.tskStop.done

theorem State.Canonical.execSet {p k} (h : s.Canonical) : Out.Canonical (execSet p k s) := h.tskSet.done

theorem State.Canonical.execClear {p k} (h : s.Canonical) : Out.Canonical (execClear p k s) := h.tskClear.done

theorem State.Canonical.execWait {p mode autoclr ic} (h : s.Canonical) : Out.Canonical (execWait p mode autoclr ic s) :=
  h.tskWait.done

theorem State.Canonical.execYield {p ic} (h : s.Canonical) : Out.Canonical (execYield p ic s) := h.tskYield.done

theorem State.Canonical.execSwitch {p ic} (h : s.Canonical) : Out.Canonical (execSwitch p ic s) := h.tskSwitch.done

theorem State.Canonical.execPrio {p k prio} (h : s.Canonical) : Out.Canonical (execPrio p k prio s) := h.tskPrio.done

theorem State.Canonical.tskReset {p} (h : s.Canonical) : (tskReset p s).Canonical := h.setTu.put.put.wr

theorem State.Canonical.tskEn {p b} (h : s.Canonical) : (tskEn p b s).Canonical := h.put.when .tskReset

theorem State.Canonical.execTskEnable {p} (h : s.Canonical) : Out.Canonical (execTskEnable p s) :=
  h.next.ite h.tskEn.done

/-! ### The functions of Anvil -/

theorem State.Canonical.anvWrite {a ws} (h : s.Canonical) : (anvWrite a ws s).Canonical := by
  unfold Machine.anvWrite
  split
  · exact h.setE
  · exact h.putWords

theorem State.Canonical.releaseRuns (h : s.Canonical) : (releaseRuns s).Canonical := h.setAnv.foldl .engStart

theorem State.Canonical.moveDone {m rest} (h : s.Canonical) : (moveDone m rest s).Canonical :=
  .releaseRuns <| .setAnv <| by
    split
    · exact (h.when .setAnv).anvWrite
    · exact h.anvWrite

theorem State.Canonical.rxWrite {x} (h : s.Canonical) : (rxWrite x s).Canonical := by
  unfold Machine.rxWrite
  split
  · exact h.writePending
  · exact h.putWords

theorem State.Canonical.rxDone (h : s.Canonical) : (rxDone s).Canonical := h.setAnv.foldl .rxWrite

theorem State.Canonical.drainMoves {k c} (h : s.Canonical) : (drainMoves k c s).Canonical := by
  induction k generalizing s with
  | zero => exact h
  | succ k ih =>
    unfold Machine.drainMoves
    split
    · exact h
    · exact (ih h.advance.rxDone.moveDone).ite h

theorem State.Canonical.anvTo {t} (h : s.Canonical) : (anvTo t s).Canonical := h.drainMoves.advanceTo.rxDone

theorem State.Canonical.readEcc {m e a n} (h : s.Canonical) : (readEcc m e a n s).Canonical := by
  unfold Machine.readEcc
  split
  · exact h.each .engUseEcc
  · exact h.sramEccs

theorem State.Canonical.execMoveCopyDone {ecc} (h : s.Canonical) : Out.Canonical (execMoveCopyDone ecc s) :=
  h.next.ite <| by
    split
    · exact h.next
    · exact h.advance.rxDone.moveDone.readEcc.done

theorem State.Canonical.enqueueMove {src dst len publish} (h : s.Canonical) :
    (enqueueMove src dst len publish s).Canonical :=
  h.setAnv

theorem State.Canonical.stopEngine {n} (h : s.Canonical) : (stopEngine n s).Canonical :=
  h.setAnv.engStopped.ite h.engAbort

theorem State.Canonical.suppressed {e} (h : s.Canonical) : (suppressed e s).Canonical := h.when .requestSafe

theorem State.Canonical.overrun {cause entry engs fn} (h : s.Canonical) : (overrun cause entry engs fn s).Canonical :=
  (h.inc.ite h.inc.wr.wr.wr.wr).put.setAnv.raiseDev.irq

theorem State.Canonical.slip {e} (h : s.Canonical) : (slip e s).Canonical :=
  h.ite <| h.inc.maxi.put.setAnv.irq.when .raiseDev

theorem State.Canonical.nextPtr (h : s.Canonical) : (nextPtr s).Canonical := h.setAnv

theorem State.Canonical.anvCorr (h : s.Canonical) : (anvCorr s).Canonical := h.inc.put.raiseDev

theorem State.Canonical.anvUncorr {i} (h : s.Canonical) : (anvUncorr i s).Canonical := h.wr.raiseDev

theorem State.Canonical.issueEcc {e} (h : s.Canonical) : (issueEcc e s).Canonical :=
  (h.when .setAnv).anvUncorr.modeInvalid.overrun.nextPtr

theorem State.Canonical.issueIf {op p ecc k} (h : s.Canonical) (hk : ∀ {a} {t : State}, t.Canonical → (k a t).Canonical) :
    Out.Canonical (issueIf op p ecc k s) := by
  unfold Machine.issueIf
  split
  · exact h.next
  · exact h.anvTo.issueEcc.done.ite <| h.next.ite <| (hk <| h.anvTo.slip.when .anvCorr).done

theorem State.Canonical.issue {op ecc k} (h : s.Canonical) (hk : ∀ {a} {t : State}, t.Canonical → (k a t).Canonical) :
    Out.Canonical (issue op ecc k s) :=
  h.issueIf hk

theorem State.Canonical.execNop {ecc} (h : s.Canonical) : Out.Canonical (execNop ecc s) :=
  h.next.ite <| h.issue fun h => (h.when .suppressed).nextPtr

theorem State.Canonical.execSample {ecc} (h : s.Canonical) : Out.Canonical (execSample ecc s) :=
  h.next.ite <| h.issue fun h => h.sample.nextPtr

theorem State.Canonical.execCapture {ecc gpi} (h : s.Canonical) : Out.Canonical (execCapture ecc gpi s) :=
  h.next.ite <|
    h.issue fun h => (((h.each fun h => h.beforeRearm .fbCapture).when fun h => h.upd.setFibs).when .comCapture).nextPtr

theorem State.Canonical.execMove {ecc} (h : s.Canonical) : Out.Canonical (execMove ecc s) :=
  h.next.ite <| by
    split
    · exact h.next
    · exact h.next.ite <| h.issue fun h => h.enqueueMove.nextPtr

theorem State.Canonical.execRun {ecc} (h : s.Canonical) : Out.Canonical (execRun ecc s) :=
  h.next.ite <| h.issue fun h => (h.each fun h => h.setAnv.put.ite h.engStart).nextPtr

theorem State.Canonical.execAwait {ecc} (h : s.Canonical) : Out.Canonical (execAwait ecc s) :=
  h.next.ite <| h.issue fun h => h.nextPtr.ite h.setAnv

theorem State.Canonical.execAwaitPass (h : s.Canonical) : Out.Canonical (execAwaitPass s) :=
  h.next.ite <| by
    split
    · exact h.next
    · exact h.anvTo.setAnv.nextPtr.done.ite h.next

theorem State.Canonical.execAwaitDeadline (h : s.Canonical) : Out.Canonical (execAwaitDeadline s) :=
  h.next.ite <| by
    split
    · exact h.next
    · exact h.next.ite <| (h.anvTo.each .stopEngine).overrun.setAnv.nextPtr.done

theorem State.Canonical.execExchangeTx {ecc src} (h : s.Canonical) : Out.Canonical (execExchangeTx ecc src s) :=
  h.next.ite <| h.issueIf fun h => h.fillSlot.sramEccs.nextPtr

theorem State.Canonical.execExchangeRx {ecc} (h : s.Canonical) : Out.Canonical (execExchangeRx ecc s) :=
  h.next.ite <| h.issueIf fun h => by
    split
    · exact h.nextPtr
    · exact h.setAnv.nextPtr

theorem State.Canonical.execExchangeSeam {ecc src} (h : s.Canonical) : Out.Canonical (execExchangeSeam ecc src s) :=
  h.next.ite <| h.issueIf fun h => (h.seamSnapshot.when .sramEccs).nextPtr

theorem State.Canonical.execCheck {ecc icX icY} (h : s.Canonical) : Out.Canonical (execCheck ecc icX icY s) :=
  h.next.ite <| h.issue fun h => ((h.when .anvilCheck).when .anvilCheck).nextPtr

theorem State.Canonical.execPublish {ecc corr} (h : s.Canonical) : Out.Canonical (execPublish ecc corr s) :=
  h.next.ite <| by
    split
    · exact h.next
    · exact h.next.ite <| h.issue fun h => (h.when .eccCorr).odigAdd.enqueueMove.nextPtr

theorem State.Canonical.launch {e} (h : s.Canonical) : (launch e s).Canonical :=
  h.odigAdd.ite <| ((h.odigAdd.when .raiseDev).when fun h => h.put.raiseAx).when .outCommit

theorem State.Canonical.execLaunch {ecc corr} (h : s.Canonical) : Out.Canonical (execLaunch ecc corr s) :=
  h.next.ite <| h.issue fun h => (h.when .eccCorr).launch.nextPtr

theorem State.Canonical.execRecord {ecc} (h : s.Canonical) : Out.Canonical (execRecord ecc s) :=
  h.next.ite <| h.issue fun h => h.setAnv.nextPtr

theorem State.Canonical.execSignal {ecc} (h : s.Canonical) : Out.Canonical (execSignal ecc s) :=
  h.next.ite <| h.issue fun h => (((h.when .tskSignal).when .tskSignal).when .irq).nextPtr

theorem State.Canonical.execMode {ecc} (h : s.Canonical) : Out.Canonical (execMode ecc s) :=
  h.next.ite <| h.issue fun h => h.nextPtr.ite <| by
    split
    · exact h.nextPtr
    · exact h.setAnv.setFdl.put.wr.nextPtr

theorem State.Canonical.replayCompare (h : s.Canonical) : (replayCompare s).Canonical := by
  unfold Machine.replayCompare
  split
  · exact h
  · exact h.setAlm.ite <| h.setAlm.inc.put.wr.raiseDev.ite h.setAlm.inc

theorem State.Canonical.execEnd {ecc inTime} (h : s.Canonical) : Out.Canonical (execEnd ecc inTime s) :=
  h.next.ite <| h.issue fun h => h.setAnv.almEnd.replayCompare

theorem State.Canonical.execScrubRead {ecc} (h : s.Canonical) : Out.Canonical (execScrubRead ecc s) :=
  h.next.ite <| h.next.ite <| by
    dsimp only
    split
    · exact h.anvTo.setAnv.done
    · exact h.anvTo.setAnv.anvCorr.done
    · exact have h := h.anvTo.setAnv.each .modeInvalid
        h.anvUncorr.overrun.done.ite h.wr.done

theorem State.Canonical.anvRun {b} (h : s.Canonical) : (anvRun b s).Canonical :=
  h.put.setAnv.ite <| h.put.ite <| h.put.setAnv.ite h

theorem State.Canonical.execAnvRunStart (h : s.Canonical) : Out.Canonical (execAnvRunStart s) :=
  h.next.ite h.anvRun.done

theorem State.Canonical.execAnvRunStop (h : s.Canonical) : Out.Canonical (execAnvRunStop s) :=
  h.next.ite h.anvRun.done

theorem State.Canonical.frameStart (h : s.Canonical) : (frameStart s).Canonical := h.setAnv

theorem State.Canonical.execAnvilStart (h : s.Canonical) : Out.Canonical (execAnvilStart s) :=
  h.next.ite <| (h.put.wr.frameStart.setAnv.when fun h => h.setAlm.later).fdlRefresh.done.ite h.next

theorem State.Canonical.execAnvilStop (h : s.Canonical) : Out.Canonical (execAnvilStop s) :=
  h.next.ite <| h.put.setAnv.put.done.ite h.next

theorem State.Canonical.modeRequest {m} (h : s.Canonical) : (modeRequest m s).Canonical := h.wr.setAnv.ite h.put

theorem State.Canonical.execModeRequest {m} (h : s.Canonical) : Out.Canonical (execModeRequest m s) :=
  h.next.ite h.modeRequest.done

/-! ### The functions of EngLoad -/

theorem State.Canonical.engLoad {n prog coefs} (h : s.Canonical) : (engLoad n prog coefs s).Canonical := h.setE

/-! ### The functions of Sec -/

theorem State.Canonical.newBcb {f} (h : s.Canonical) : (newBcb f s).Canonical := h.setSec.ite h.setSec

theorem State.Canonical.sameBcb {f} (h : s.Canonical) : (sameBcb f s).Canonical := by
  unfold Machine.sameBcb
  split
  · exact h.setSec
  · exact h.setSec
  · exact h

theorem State.Canonical.nextContainer (h : s.Canonical) : (nextContainer s).Canonical := h.put.setSec

theorem State.Canonical.sealBar {src c code check} (h : s.Canonical) : (sealBar src c code check s).Canonical := by
  unfold Machine.sealBar
  split
  · exact h.when fun h => h.wrBit.setSec
  · exact h.when .setSec
  · exact h

theorem State.Canonical.verdict {src c code check} (h : s.Canonical) : (verdict src c code check s).Canonical := by
  unfold Machine.verdict
  dsimp only
  split
  · exact (h.wr.nextContainer.sealBar.when .raiseDev).irq.complete
  · exact (h.wr.nextContainer.sealBar.when .raiseDev).irq.wr.put
  · exact (h.wr.nextContainer.sealBar.when .raiseDev).irq
  · exact (h.wr.nextContainer.sealBar.when .raiseDev).irq

theorem State.Canonical.readFailed {src c} (h : s.Canonical) (e : readFailed src c s = some t) : t.Canonical := by
  unfold Machine.readFailed at e
  split at e
  · split at e
    · exact h.nextContainer.complete.dmaErr.ofSome e
    · cases e
  · cases e

theorem State.Canonical.crucible {step c eff} (h : s.Canonical)
    (heff : ∀ {c} {t : State}, t.Canonical → (eff c t).2.Canonical) : Out.Canonical (crucible step c eff s) := by
  unfold Machine.crucible
  split
  · exact h.next
  · refine h.next.ite ?_
    split
    case h_1 e => exact (h.readFailed e).done
    case h_2 =>
      refine h.verdict.done.ite <| h.verdict.done.ite ?_
      split
      case h_1 e => exact ((heff h).ofPair e).verdict.done
      case h_2 e => exact ((heff h).ofPair e).done

theorem State.Canonical.acceptLoad {c} (h : s.Canonical) : (acceptLoad c s).Canonical := h.setSec

theorem State.Canonical.engineEff {report c} (h : s.Canonical) : (engineEff report c s).2.Canonical :=
  .iteSnd h <| .iteSnd h.acceptLoad <| by
    split
    · exact h
    · exact .iteSnd h h.engLoad.setSec

theorem State.Canonical.execEngineLoad {c report} (h : s.Canonical) : Out.Canonical (execEngineLoad c report s) :=
  h.next.ite <| h.crucible .engineEff

theorem State.Canonical.sealEff {unwrapOk tagOk report plain c} (h : s.Canonical) :
    (sealEff unwrapOk tagOk report plain c s).2.Canonical := by
  unfold Machine.sealEff
  split
  · exact h
  · refine .iteSnd h.acceptLoad <| .iteSnd h.engLoad <| .iteSnd h.engLoad ?_
    split
    · exact h.engLoad
    · exact .iteSnd h.engLoad h.engLoad.setSec

theorem State.Canonical.execSealedLoad {c unwrapOk tagOk report plain} (h : s.Canonical) :
    Out.Canonical (execSealedLoad c unwrapOk tagOk report plain s) :=
  h.next.ite <| h.crucible .sealEff

theorem State.Canonical.outOfService {p} (h : s.Canonical) : (outOfService p s).Canonical :=
  h.modeInvalid.wr.wr.setAnv

theorem State.Canonical.scheduleEff {c} (h : s.Canonical) : (scheduleEff c s).2.Canonical :=
  .iteSnd h <| .iteSnd h.put.irq <| (h.modeInvalid.foldl .outOfService).wr.wr.wr.wr.setFdl.setAnv.fdlRefresh.setSec

theorem State.Canonical.execScheduleLoad {c} (h : s.Canonical) : Out.Canonical (execScheduleLoad c s) :=
  h.next.ite <| h.crucible .scheduleEff

theorem State.Canonical.execValidationDone {ecc} (h : s.Canonical) : Out.Canonical (execValidationDone ecc s) :=
  h.next.ite <| by
    split
    · exact have h := h.validate.fdlRefresh
        (h.verdict.ite h.verdict).done
    · exact h.next

theorem State.Canonical.imageEff {flashOk c} (h : s.Canonical) : (imageEff flashOk c s).2.Canonical := by
  unfold Machine.imageEff
  refine .iteSnd h <| .iteSnd h <| .iteSnd ?_ ?_
  · dsimp only
    exact h.newBcb
  · dsimp only
    exact h.newBcb.setSec.newBcb

theorem State.Canonical.execImageLoad {c flashOk} (h : s.Canonical) : Out.Canonical (execImageLoad c flashOk s) := by
  unfold Machine.execImageLoad
  exact h.next.ite <| h.crucible .imageEff

theorem State.Canonical.fillSegment {bs g} (h : s.Canonical) : (fillSegment bs g s).Canonical :=
  h.putBytes.ite <| (h.when .setPr).when .setPr

theorem State.Canonical.copySegment {ws g} (h : s.Canonical) : (copySegment ws g s).Canonical := h.fillSegment

theorem State.Canonical.zeroSlot {code c} (h : s.Canonical) : (zeroSlot code c s).Canonical :=
  (h.foldl .fillSegment).ite h

theorem State.Canonical.fuseRead {lcBad slots drs ctr cut} (h : s.Canonical) :
    (fuseRead lcBad slots drs ctr cut s).Canonical :=
  h.setSec.setSec.wr.wr.wr.setSec.put.when .raiseDev

theorem State.Canonical.trySlot {slot counted} (h : s.Canonical) : (trySlot slot counted s).2.Canonical := by
  unfold Machine.trySlot
  extract_lets b st att s₁
  have h₁ : s₁.Canonical := h.when .sameBcb
  refine .iteSnd h <| .iteSnd ?_ ?_
  · dsimp only
    exact h.newBcb
  · split
    · exact h₁
    · exact .iteSnd h₁ h₁.zeroSlot

theorem State.Canonical.bootSlot {slot c} (h : s.Canonical) : (bootSlot slot c s).Canonical :=
  have h := ((h.foldl .copySegment).when fun h => h.wr.wr.setSec).wr.put.setSec
  (h.when fun h => h.releaseCores.releaseCores).when .setDevRole

theorem State.Canonical.execBootSelect {bcb0 bcb1 slotA slotB lcBad slots drs ctr cut} (h : s.Canonical) :
    Out.Canonical (execBootSelect bcb0 bcb1 slotA slotB lcBad slots drs ctr cut s) :=
  h.next.ite <| h.next.ite <| h.setSec.fuseRead.enterSafe.done.ite <| by
    dsimp only
    split
    · exact (h.setSec.fuseRead.when .raiseDev).trySlot.bootSlot.done
    · split
      · exact (h.setSec.fuseRead.when .raiseDev).trySlot.trySlot.put.raiseDev.bootSlot.done
      · exact (h.setSec.fuseRead.when .raiseDev).trySlot.trySlot.enterSafe.done

theorem State.Canonical.advanceTkc {c} (h : s.Canonical) : (advanceTkc c s).Canonical := h.when .advanceTkcTo

theorem State.Canonical.tokenEff {f c} (h : s.Canonical)
    (hf : ∀ {c} {s t : State}, s.Canonical → f c s = .inr t → t.Canonical) : (tokenEff f c s).2.Canonical := by
  unfold Machine.tokenEff
  split
  · exact h
  · split
    case h_1 => exact h
    case h_2 e => exact (hf h e).advanceTkc

theorem State.Canonical.scrubEngine {n} (h : s.Canonical) : (scrubEngine n s).Canonical := h.setE.wrBit.wr

theorem State.Canonical.scrub (h : s.Canonical) : (scrub s).Canonical := h.each .scrubEngine

theorem State.Canonical.makeKeys {c} (h : s.Canonical) : (makeKeys c s).Canonical := by
  unfold Machine.makeKeys
  split
  next e₁ =>
    split
    next e₂ =>
      split
      next e₃ => exact (((h.draw.ofPair e₁).draw.ofPair e₂).draw.ofPair e₃).setSec

theorem State.Canonical.lifecycle {c} (h : s.Canonical) (e : lifecycle c s = .inr t) : t.Canonical := by
  unfold Machine.lifecycle at e
  iterate 4 replace e := eq_inr_of_ite_inl e
  exact ((h.when .makeKeys).when .scrub).blow.upd.irq.ofInr e

theorem State.Canonical.execLifecycle {c} (h : s.Canonical) : Out.Canonical (execLifecycle c s) :=
  h.next.ite <| h.crucible fun h => h.tokenEff .lifecycle

theorem State.Canonical.keys {c} (h : s.Canonical) (e : keys c s = .inr t) : t.Canonical := by
  unfold Machine.keys at e
  dsimp only at e
  split at e
  · exact h.setSec.ofInr e
  · split at e
    · exact h.blow.ofInr (eq_inr_of_ite_inl e)
    · exact h.blow.ofInr e

theorem State.Canonical.execKeys {c} (h : s.Canonical) : Out.Canonical (execKeys c s) :=
  h.next.ite <| h.crucible fun h => h.tokenEff .keys

theorem State.Canonical.debug {c} (h : s.Canonical) (e : debug c s = .inr t) : t.Canonical := by
  unfold Machine.debug at e
  replace e := eq_inr_of_ite_inl e
  dsimp only at e
  split at e
  · exact ((h.when .scrub).wr.wr.setSec.irq.setRole.raiseDev).ofInr e
  · exact ((h.when .scrub).wr.wr.setSec.irq).ofInr e

theorem State.Canonical.execDebug {c} (h : s.Canonical) : Out.Canonical (execDebug c s) :=
  h.next.ite <| h.crucible fun h => h.tokenEff .debug

theorem State.Canonical.grant {c} (h : s.Canonical) (e : grant c s = .inr t) : t.Canonical := h.setSec.ofInr e

theorem State.Canonical.execGrantToken {c} (h : s.Canonical) : Out.Canonical (execGrantToken c s) :=
  h.next.ite <| h.crucible fun h => h.tokenEff .grant

theorem State.Canonical.replayToken {unwrapOk c} (h : s.Canonical) (e : replayToken unwrapOk c s = .inr t) : t.Canonical :=
  h.setSec.setDevRole.wr.setAlm.ofInr (eq_inr_of_ite_inl (eq_inr_of_ite_inl e))

theorem State.Canonical.execReplayToken {c unwrapOk} (h : s.Canonical) : Out.Canonical (execReplayToken c unwrapOk s) :=
  h.next.ite <| h.crucible fun h => h.tokenEff .replayToken

theorem State.Canonical.reckey {unwrapOk c} (h : s.Canonical) (e : reckey unwrapOk c s = .inr t) : t.Canonical :=
  h.setAlm.ofInr (eq_inr_of_ite_inl (eq_inr_of_ite_inl e))

theorem State.Canonical.execReckey {c unwrapOk} (h : s.Canonical) : Out.Canonical (execReckey c unwrapOk s) :=
  h.next.ite <| h.crucible fun h => h.tokenEff .reckey

theorem State.Canonical.setCover (h : s.Canonical) : (setCover s).Canonical := h.ite <| (h.when .wr).upd

theorem State.Canonical.grantTick (h : s.Canonical) : (grantTick s).Canonical := h.setSec.setCover

theorem State.Canonical.execGrantExpiry (h : s.Canonical) : Out.Canonical (execGrantExpiry s) :=
  h.next.ite <| by
    split
    · exact h.setSec.setCover.done.ite h.next
    · exact h.next

theorem State.Canonical.mboxWrite {cmd} (h : s.Canonical) : (mboxWrite cmd s).Canonical :=
  h.ite <| h.wr.ite h.put.setSec

theorem State.Canonical.mboxRun {cmd f} (h : s.Canonical) (hf : ∀ {a} {t : State}, t.Canonical → Out.Canonical (f a t)) :
    Out.Canonical (mboxRun cmd f s) := by
  unfold Machine.mboxRun
  split
  · exact (hf h.put.setSec).ite h.next
  · exact h.next

theorem State.Canonical.mboxDone {r} (h : s.Canonical) : Out.Canonical (mboxDone r s) := h.wr.irq.done

theorem State.Canonical.mboxOpen (h : s.Canonical) : Out.Canonical (mboxOpen s) := h.free.mboxDone

theorem State.Canonical.arbAdvance {k} (h : s.Canonical) : (arbAdvance k s).Canonical :=
  h.ite <| h.advanceArb.when .raiseDev

theorem State.Canonical.execConfirm {flashOk} (h : s.Canonical) : Out.Canonical (execConfirm flashOk s) :=
  h.mboxRun fun h => by
    split
    · exact h.mboxOpen.ite <| h.mboxDone.ite <| (h.newBcb.each .arbAdvance).mboxDone
    · exact h.mboxOpen

theorem State.Canonical.execNvRead {flashOk} (h : s.Canonical) : Out.Canonical (execNvRead flashOk s) :=
  h.mboxRun fun h => h.mboxDone.ite <| h.mboxOpen.ite <| h.mboxDone.ite h.putBytes.mboxDone

theorem State.Canonical.execNvWrite {flashOk} (h : s.Canonical) : Out.Canonical (execNvWrite flashOk s) :=
  h.mboxRun fun h => h.mboxDone.ite <| h.mboxOpen.ite <| h.mboxDone.ite h.setSec.mboxDone

theorem State.Canonical.execNvErase {flashOk} (h : s.Canonical) : Out.Canonical (execNvErase flashOk s) :=
  h.mboxRun fun h => h.mboxDone.ite <| h.mboxOpen.ite <| h.mboxDone.ite h.setSec.mboxDone

theorem State.Canonical.execTrngFail (h : s.Canonical) : Out.Canonical (execTrngFail s) :=
  h.next.ite <| h.next.ite h.put.setSec.raiseDev.irq.done

theorem State.Canonical.submit (h : s.Canonical) : (submit s).Canonical :=
  h.ite <| h.wr.wr.setSec.raiseDev.irq.ite h.put.put.setSec

theorem State.Canonical.execSubmit (h : s.Canonical) : Out.Canonical (execSubmit s) := h.submit.done

theorem State.Canonical.hallmark {c late} (h : s.Canonical) : (hallmark c late s).Canonical :=
  h.complete.ite <| h.complete.ite <| h.complete.ite h.dmaWrite.complete

theorem State.Canonical.execHallmark (h : s.Canonical) : Out.Canonical (execHallmark s) :=
  h.next.ite <| by
    split
    · exact h.setSec.hallmark.done
    · exact h.applyDue .hallmark
    · exact h.applyDue .setSec

/-! ### The functions of Replay -/

theorem State.Canonical.writeRegions {k ns ws} (h : s.Canonical) : (writeRegions k ns ws s).Canonical := by
  induction ns generalizing ws s with
  | nil => exact h
  | cons n ns ih => exact ih h.setE

theorem State.Canonical.startReplay {p} (h : s.Canonical) : (startReplay p s).Canonical :=
  h.loadCt.wr.anvRun.writeRegions.put.wr.setAlm

theorem State.Canonical.execReplayCheck {x} (h : s.Canonical) : Out.Canonical (execReplayCheck x s) :=
  h.next.ite <| h.next.ite <| by
    split
    · exact h.wr.setAlm.raiseDev.done
    · exact h.startReplay.done

theorem State.Canonical.writePayload {es ws} (h : s.Canonical) : (writePayload es ws s).Canonical := by
  induction es generalizing ws s with
  | nil => exact h
  | cons e es ih => exact (ih h.setFibs).ite (ih h)

theorem State.Canonical.switchTo {m} (h : s.Canonical) : (switchTo m s).1.Canonical :=
  .iteFst h.wr.irq.postEvent h.later

theorem State.Canonical.replayTick (h : s.Canonical) : (replayTick s).Canonical :=
  h.ite <| by
    split
    · exact h
    · exact (h.wr.inc.when .switchTo).writePayload.setAlm

theorem State.Canonical.execReplayEnd (h : s.Canonical) : Out.Canonical (execReplayEnd s) :=
  h.next.ite <| h.put.wr.anvRun.raiseDev.done.ite h.next

/-! ### The functions of Power -/

theorem State.Canonical.setPwr {x} (h : s.Canonical) : (setPwr x s).Canonical := h.upd

theorem State.Canonical.copyFlds {fs old} (h : s.Canonical) : (copyFlds fs old s).Canonical := h.foldl .wr

theorem State.Canonical.sampleSplit (h : s.Canonical) : (sampleSplit s).Canonical := h.put

theorem State.Canonical.railGood (h : s.Canonical) : (railGood s).Canonical := by
  unfold Machine.railGood
  split
  · exact h.setPwr
  · exact h

theorem State.Canonical.railStop (h : s.Canonical) : (railStop s).Canonical := h.setPwr

theorem State.Canonical.railsDown (h : s.Canonical) : (railsDown s).Canonical := h.foldl .railStop

theorem State.Canonical.deviceReset {bit} : (deviceReset bit s).Canonical :=
  have h := State.Canonical.reset.upd
  (((h.when .copyFlds).when .copyFlds).when .copyFlds).wr.sampleSplit

theorem State.Canonical.dueReset {bit} (h : s.Canonical) : (dueReset bit s).Canonical := h.upd

theorem State.Canonical.resetNow {life} (h : s.Canonical) : Out.Canonical (resetNow life s) := by
  unfold Machine.resetNow
  split
  · exact State.Canonical.deviceReset.next.ite h.next
  · exact h.next

theorem State.Canonical.execResetReaction (h : s.Canonical) : Out.Canonical (execResetReaction s) := h.resetNow

theorem State.Canonical.execLifecycleReset (h : s.Canonical) : Out.Canonical (execLifecycleReset s) := h.resetNow

theorem State.Canonical.execPinReset (h : s.Canonical) : Out.Canonical (execPinReset s) :=
  State.Canonical.deviceReset.setPwr.next.ite h.next

theorem State.Canonical.execResetRelease {splitN} (h : s.Canonical) : Out.Canonical (execResetRelease splitN s) :=
  h.setPwr.sampleSplit.done.ite h.next

theorem State.Canonical.execDebugReset (h : s.Canonical) : Out.Canonical (execDebugReset s) :=
  State.Canonical.deviceReset.next.ite h.next

theorem State.Canonical.execBrownout (h : s.Canonical) : Out.Canonical (execBrownout s) :=
  State.Canonical.deviceReset.railsDown.wr.setPwr.next.ite h.next

theorem State.Canonical.execPowerOnReset {wake s} : Out.Canonical (execPowerOnReset wake s) :=
  have h := State.Canonical.deviceReset.railsDown
  h.wr.setPwr.next.ite h.setPwr.next

theorem State.Canonical.swrst (h : s.Canonical) : (swrst s).Canonical := h.put.ite h.dueReset

theorem State.Canonical.execSwrst (h : s.Canonical) : Out.Canonical (execSwrst s) := h.next.ite h.swrst.done

theorem State.Canonical.setSupply {a b} (h : s.Canonical) : (setSupply a b s).Canonical := h.wr.wr

theorem State.Canonical.execSupplyALost {a b} (h : s.Canonical) : Out.Canonical (execSupplyALost a b s) :=
  h.next.ite h.setSupply.put.raiseDev.irq.done

theorem State.Canonical.execSupplyBLost {a b} (h : s.Canonical) : Out.Canonical (execSupplyBLost a b s) :=
  h.next.ite h.setSupply.put.raiseDev.irq.done

theorem State.Canonical.execSupplyUv {a b} (h : s.Canonical) : Out.Canonical (execSupplyUv a b s) :=
  h.next.ite h.setSupply.put.raiseDev.irq.done

theorem State.Canonical.execSupplyOv {a b} (h : s.Canonical) : Out.Canonical (execSupplyOv a b s) :=
  h.next.ite h.setSupply.put.put.raiseDev.irq.done

theorem State.Canonical.execSupplyOvEnd {a b} (h : s.Canonical) : Out.Canonical (execSupplyOvEnd a b s) :=
  h.next.ite h.setSupply.put.put.irq.done

theorem State.Canonical.execSupplyReturn {a b} (h : s.Canonical) : Out.Canonical (execSupplyReturn a b s) :=
  h.next.ite <| ((((h.setSupply.when .put).when .put).when .put).when .irq).done

theorem State.Canonical.setDom {d v} (h : s.Canonical) : (setDom d v s).Canonical := h.wr.irq

theorem State.Canonical.execDomainPowerDown {d wfi} (h : s.Canonical) : Out.Canonical (execDomainPowerDown d wfi s) :=
  h.setDom.done.ite h.next

theorem State.Canonical.resetRange {lo hi} (h : s.Canonical) : (resetRange lo hi s).Canonical :=
  ⟨SMap.wf_foldl_set _ _ (SMap.wf_filter _ _ h.regs), h.mem⟩

theorem State.Canonical.resetBlock {b} (h : s.Canonical) : (resetBlock b s).Canonical := h.resetRange

theorem State.Canonical.engOff {n} (h : s.Canonical) : (engOff n s).Canonical := h.setE.resetRange.foldl .wrBit

theorem State.Canonical.pairOffDomain {p} (h : s.Canonical) : (pairOffDomain p s).Canonical :=
  h.intcClear.intcClear.setPr.put.wr.setPair.resetRange.setTu.resetRange.enablesFrom

theorem State.Canonical.loseDomain {d} (h : s.Canonical) : (loseDomain d s).Canonical := by
  unfold Machine.loseDomain
  split
  · exact h.pairOffDomain
  · exact h.pairOffDomain
  · exact h.each .engOff
  · exact h.each .engOff
  · exact h.resetBlock.setAnv.each .setA
  · exact h.resetBlock.upd
  · exact (h.each .fbInvalid).resetBlock.upd
  · exact h.resetBlock.resetBlock.wr.upd
  · exact h.resetBlock.resetBlock.upd
  · exact h.resetBlock.resetBlock.upd
  · exact h.resetBlock.upd
  · exact h

theorem State.Canonical.execDomainOff {d} (h : s.Canonical) : Out.Canonical (execDomainOff d s) :=
  h.loseDomain.setDom.setPwr.done.ite h.next

theorem State.Canonical.execDomainPowerUp {d} (h : s.Canonical) : Out.Canonical (execDomainPowerUp d s) :=
  h.reach.setDom.setPwr.done.ite h.next

theorem State.Canonical.execDomainFail {d} (h : s.Canonical) : Out.Canonical (execDomainFail d s) :=
  h.reach.setDom.wrBit.raiseDev.done.ite h.next

theorem State.Canonical.voteWrite {m r v} (h : s.Canonical) : (voteWrite m r v s).Canonical :=
  h.ite <| h.wr.ite h.busError

theorem State.Canonical.execVoteWrite {m r v} (h : s.Canonical) : Out.Canonical (execVoteWrite m r v s) :=
  h.next.ite h.voteWrite.done

theorem State.Canonical.startPoint {v} (h : s.Canonical) : (startPoint v s).Canonical := h.put.setPwr

theorem State.Canonical.pointWrite {v} (h : s.Canonical) : (pointWrite v s).Canonical :=
  h.put.ite <| h.wr.setPwr.ite <| h.wr.ite h.wr.startPoint

theorem State.Canonical.execPointChange {v} (h : s.Canonical) : Out.Canonical (execPointChange v s) :=
  h.next.ite h.pointWrite.done

theorem State.Canonical.endPoint (h : s.Canonical) : (endPoint s).Canonical := by
  unfold Machine.endPoint
  dsimp only
  split
  · exact h.put.irq.setPwr.ite h.put.irq.setPwr.startPoint
  · exact h.put.irq.setPwr

theorem State.Canonical.execDvfsDone (h : s.Canonical) : Out.Canonical (execDvfsDone s) :=
  h.next.ite <| by
    split
    · exact h.reach.wr.setPwr.endPoint.done
    · exact h.next

theorem State.Canonical.execDvfsFail (h : s.Canonical) : Out.Canonical (execDvfsFail s) :=
  h.next.ite <| by
    split
    · exact h.reach.raiseDev.endPoint.done
    · exact h.next

theorem State.Canonical.noteWfi {wfi} (h : s.Canonical) : (noteWfi wfi s).Canonical := h.each fun h => h.when .setPr

theorem State.Canonical.execIdleEntry {wfi} (h : s.Canonical) : Out.Canonical (execIdleEntry wfi s) :=
  h.noteWfi.setPwr.next.ite h.next

theorem State.Canonical.enterMode {m} (h : s.Canonical) : (enterMode m s).Canonical := h.fltStop.setPwr

theorem State.Canonical.tryEntry {target wfi pins enter} (h : s.Canonical)
    (henter : ∀ {t : State}, t.Canonical → (enter t).Canonical) :
    Out.Canonical (tryEntry target wfi pins enter s) :=
  h.next.ite <| h.wr.wr.raiseDev.irq.done.ite <| (henter h.wr).done

theorem State.Canonical.execSleepEntry {wfi pins} (h : s.Canonical) : Out.Canonical (execSleepEntry wfi pins s) :=
  h.tryEntry .enterMode

theorem State.Canonical.execDeepSleepEntry {wfi pins} (h : s.Canonical) : Out.Canonical (execDeepSleepEntry wfi pins s) :=
  h.tryEntry fun h => h.upd.setPwr.enterMode.railsDown

theorem State.Canonical.execOffEntry {wfi pins} (h : s.Canonical) : Out.Canonical (execOffEntry wfi pins s) :=
  h.tryEntry fun h => h.upd.setPwr.enterMode.railsDown

theorem State.Canonical.execWakeTimer (h : s.Canonical) : Out.Canonical (execWakeTimer s) := h.setPwr.next.ite h.next

theorem State.Canonical.execSleepWake {pins} (h : s.Canonical) : Out.Canonical (execSleepWake pins s) :=
  ((h.keepVotes.wr.put.setPwr.when fun h => h.put.wr.wr.hostLost.raiseDev.irq).when .setSs).irq.done.ite h.next

theorem State.Canonical.execPowerUp {pins again} (h : s.Canonical) : Out.Canonical (execPowerUp pins again s) :=
  h.wr.wr.setPwr.next.ite h.next

theorem State.Canonical.execRailTimeout (h : s.Canonical) : Out.Canonical (execRailTimeout s) :=
  h.next.ite <| h.railsDown.put.setPwr.next.ite h.railsDown.wr.setPwr.next

theorem State.Canonical.execRailRetry (h : s.Canonical) : Out.Canonical (execRailRetry s) := h.setPwr.next.ite h.next

theorem State.Canonical.restoreBank {bad b} (h : s.Canonical) : (restoreBank bad b s).Canonical := by
  unfold Machine.restoreBank
  split
  · exact h
  · refine h.wrBit.ite ?_
    extract_lets s₁ s₂
    have h₁ : s₁.Canonical := ⟨SMap.wf_foldl_set _ _ h.regs, h.mem⟩
    have h₂ : s₂.Canonical := h₁.wrBit
    exact h₂.put.ite <| (h₂.when .setSs).ite <| h₂.wr.setPwr.ite h₂

theorem State.Canonical.execPowerGood {rstN splitN bad} (h : s.Canonical) :
    Out.Canonical (execPowerGood rstN splitN bad s) :=
  h.next.ite <| (((State.Canonical.deviceReset.foldl .restoreBank).when fun h => h.raise.irq).setPwr.when .raiseDev).done

theorem State.Canonical.execReferenceLock (h : s.Canonical) : Out.Canonical (execReferenceLock s) :=
  h.put.put.setPwr.irq.done.ite h.next

theorem State.Canonical.execOscStart (h : s.Canonical) : Out.Canonical (execOscStart s) :=
  h.advance.upd.setPwr.raiseDev.done.ite h.next

theorem State.Canonical.execLogicBist {ok} (h : s.Canonical) : Out.Canonical (execLogicBist ok s) :=
  (h.setDevRole.workerStandby.applyLeeCause.done.ite h.setSeam.raiseDev.enterSafe.done).ite h.next

theorem State.Canonical.wdtExpire (h : s.Canonical) : (wdtExpire s).Canonical := h.setPwr.dueReset.raiseDev

theorem State.Canonical.wdtKick {v} (h : s.Canonical) : (wdtKick v s).Canonical := h.ite <| h.wdtExpire.ite h.setPwr

theorem State.Canonical.execWdtKick {v} (h : s.Canonical) : Out.Canonical (execWdtKick v s) := h.wdtKick.done

theorem State.Canonical.execWdtHalf (h : s.Canonical) : Out.Canonical (execWdtHalf s) :=
  h.advance.setPwr.irq.done.ite h.next

theorem State.Canonical.execWdtExpired (h : s.Canonical) : Out.Canonical (execWdtExpired s) :=
  h.advance.wdtExpire.done.ite h.next

theorem State.Canonical.wdtEnable {b} (h : s.Canonical) : (wdtEnable b s).Canonical := h.put.setPwr.ite h

/-! ### The functions of Bus -/

theorem State.Canonical.dataRead {m n a} (h : s.Canonical) : (dataRead m n a s).2.Canonical := .iteSnd h h.raise

theorem State.Canonical.busWord {m a} (h : s.Canonical) : (busWord m a s).2.Canonical := by
  unfold Machine.busWord
  obtain ⟨off, e⟩ : ∃ off, a - 0x42000000 = off := ⟨_, rfl⟩
  rw [e]
  refine .iteSnd h <| .iteSnd h <| .iteSnd h <| .iteSnd h <| .iteSnd ?_ <| .iteSnd h <| .iteSnd (.iteSnd h.dataRead h) h
  exact .iteSnd h.free <| .iteSnd h <| .iteSnd h <| .iteSnd (h.keep h.execTimeReadLatch) h

theorem State.Canonical.writeRows {a v ok} (h : s.Canonical) : (writeRows a v ok s).Canonical :=
  h.foldl fun h => by
    dsimp only
    split
    · exact h.wr.ite h
    · exact h.wr.ite h
    · exact h.wr
    · exact h

theorem State.Canonical.plainWrite {a v open'} (h : s.Canonical) : (plainWrite a v open' s).Canonical := h.writeRows

theorem State.Canonical.axisWrite {a v n lock wdeny good} (h : s.Canonical) :
    (axisWrite a v n lock wdeny good s).Canonical :=
  h.plainWrite.ite <| h.plainWrite.ite h.plainWrite.wrBit

theorem State.Canonical.sysWrite {a v} (h : s.Canonical) : (sysWrite a v s).Canonical := by
  unfold Machine.sysWrite
  exact h.plainWrite.ite h.axisWrite

theorem State.Canonical.pwrWrite {m a v} (h : s.Canonical) : (pwrWrite m a v s).Canonical := by
  unfold Machine.pwrWrite
  obtain ⟨off, e⟩ : ∃ off, a - 0x40010000 = off := ⟨_, rfl⟩
  rw [e]
  dsimp only
  split
  · exact h.plainWrite.when .swrst
  · exact h.voteWrite
  · exact h.voteWrite
  · exact h.voteWrite
  · exact h.when .pointWrite
  · exact h.writeRows.when .wdtEnable
  · exact h.when .wdtKick
  · exact h.plainWrite

theorem State.Canonical.ctLoad (h : s.Canonical) : (ctLoad s).Canonical := h.put.ite <| h.loadCt.when .newSession

theorem State.Canonical.refSelect {sel} (h : s.Canonical) : (refSelect sel s).Canonical :=
  h.ite <| h.wr.onRc.setPwr.ite <| h.wr.when .setPwr

theorem State.Canonical.timeWrite {a v} (h : s.Canonical) : (timeWrite a v s).Canonical := by
  unfold Machine.timeWrite
  dsimp only
  split
  · exact (h.writeRows.when .refSelect).when .ctLoad
  · exact h.put.ite h.plainWrite
  · exact h.put.ite h.plainWrite
  · exact h.keep h.execOffsetRequest
  · exact h.keep h.execFrameCycleWrite
  · exact h.keep h.execFrameCycleWrite
  · exact h.plainWrite

theorem State.Canonical.anvRegWrite {a v} (h : s.Canonical) : (anvRegWrite a v s).Canonical := by
  unfold Machine.anvRegWrite
  dsimp only
  split
  · exact h.writeRows.anvRun
  · exact h.modeRequest.ite h.plainWrite
  · exact h.ite <| h.plainWrite.ite h.put
  · exact h.plainWrite

theorem State.Canonical.chEnChanged {n old} (h : s.Canonical) : (chEnChanged n old s).Canonical :=
  (h.when .setC).when .chopper

theorem State.Canonical.comWrite {a v} (h : s.Canonical) : (comWrite a v s).Canonical := by
  unfold Machine.comWrite
  exact h.plainWrite.ite h.axisWrite.chEnChanged

theorem State.Canonical.fbkWrite {a v} (h : s.Canonical) : (fbkWrite a v s).Canonical := by
  unfold Machine.fbkWrite
  exact (h.plainWrite.each .rearm).ite <| (h.keep h.execFbkAxmapWrite).ite <|
    (h.ite <| h.plainWrite.ite <| h.each .wrBit).ite <| h.plainWrite.ite <| h.ite <| h.wrBit.ite h.plainWrite.setFb

theorem State.Canonical.adcEnables {a v old} (h : s.Canonical) : (adcEnables a v old s).Canonical := by
  unfold Machine.adcEnables
  exact ((h.when .upd).each .sdSync).ite <| h.sdSync.ite <| (h.each fun h => h.when .upd).ite h

theorem State.Canonical.adcWrite {a v} (h : s.Canonical) : (adcWrite a v s).Canonical := by
  unfold Machine.adcWrite
  exact (h.plainWrite.ite <| h.plainWrite.ite <| h.plainWrite.ite h.plainWrite.put).adcEnables

theorem State.Canonical.glenChanged {n old} (h : s.Canonical) : (glenChanged n old s).Canonical :=
  h.setO.ite <| h.linkDown.ite h

theorem State.Canonical.tpenSet {m old} (h : s.Canonical) : (tpenSet m old s).Canonical := h.when .setSo

theorem State.Canonical.outWrite {a v} (h : s.Canonical) : (outWrite a v s).Canonical := by
  unfold Machine.outWrite
  obtain ⟨off, e⟩ : ∃ off, a - 0x40080000 = off := ⟨_, rfl⟩
  rw [e]
  refine (h.keep h.execTripLatchClear).ite <| h.plainWrite.ite <| .ite ?_ <|
    (h.keep h.execSoLatchClear).ite h.plainWrite.tpenSet
  dsimp only
  split
  · exact h.axisWrite.glenChanged.chEnChanged
  · exact h.axisWrite
  · refine State.Canonical.ite (h := State.Canonical.keep ?_ (.execGlClear ?_)) ?_ <;>
      exact (h.keep h.execTrain).ite h
  · exact h.axisWrite

theorem State.Canonical.releasedWord {p v} (h : s.Canonical) : (releasedWord p v s).Canonical :=
  h.ite h.advance.wr.wr.enablesFrom

theorem State.Canonical.chkWrite {m a v} (h : s.Canonical) : (chkWrite m a v s).Canonical := by
  unfold Machine.chkWrite
  obtain ⟨off, e⟩ : ∃ off, a - 0x40090000 = off := ⟨_, rfl⟩
  rw [e]
  dsimp only
  split
  · exact (h.plainWrite.when .rejoin).when .rejoin
  · exact h.plainWrite.enablesFrom
  · exact h.writeRows
  · exact h.releasedWord
  · exact h.releasedWord
  · exact h.plainWrite

theorem State.Canonical.seamWrite {m a v} (h : s.Canonical) : (seamWrite m a v s).Canonical := by
  unfold Machine.seamWrite
  obtain ⟨off, e⟩ : ∃ off, a - 0x400A0000 = off := ⟨_, rfl⟩
  rw [e]
  dsimp only
  split
  · exact ((h.writeRows.ite h.writeRows.sliceHold).when .resyncReq).when .standbyOkReq
  · exact h.ite <| h.put.ite h.plainWrite.netWritten
  · exact h.plainWrite.seamDisable.seamDisable
  · exact h.plainWrite

theorem State.Canonical.fdlWrite {a v} (h : s.Canonical) : (fdlWrite a v s).Canonical := by
  unfold Machine.fdlWrite
  exact (h.plainWrite.netWritten.when .leaveReq).ite <| ((h.plainWrite.when .cancelProposal).when .propose).ite <|
    (((h.when .reopen).when .remeasure).ite h.plainWrite.fdlRefresh).ite h.plainWrite.netWritten

theorem State.Canonical.hifWrite {a v} (h : s.Canonical) : (hifWrite a v s).Canonical := by
  unfold Machine.hifWrite
  exact (h.keep h.execDoorbell).ite <| (h.keep <| h.execRingEnable.ite h.execRingDisable).ite h.plainWrite

theorem State.Canonical.canWrite {a v} (h : s.Canonical) : (canWrite a v s).Canonical := by
  unfold Machine.canWrite
  exact (have h := h.writeRows.when .canEnabled
  (h.keep h.execRecover).ite h).ite h.writeRows

theorem State.Canonical.intcWrite {a v} (h : s.Canonical) : (intcWrite a v s).Canonical := by
  unfold Machine.intcWrite
  exact h.pendClear.ite <| h.swset.ite <| (h.intcDone.ite h).ite <| h.sourceConfig.ite h.plainWrite

theorem State.Canonical.tskRegWrite {ic a v} (h : s.Canonical) : (tskRegWrite ic a v s).Canonical := by
  unfold Machine.tskRegWrite
  exact h.writeRows.tskEn.ite <| h.tskWrite.ite h.plainWrite

theorem State.Canonical.fcuWrite {a v} (h : s.Canonical) : (fcuWrite a v s).Canonical := by
  unfold Machine.fcuWrite
  split
  · exact h.keep h.execLeeLimitWrite
  · exact h.keep h.execReactWrite
  · exact (h.keep h.execRecordClear).ite h
  · exact h.keep h.execLogRpWrite
  · exact h.plainWrite

theorem State.Canonical.almWrite {a v} (h : s.Canonical) : (almWrite a v s).Canonical := by
  unfold Machine.almWrite
  exact (((h.writeRows.almEnable.when .almTrigger).when .almRelease).when .almDump).ite <|
    h.plainWrite.almRefresh.ite h.plainWrite

theorem State.Canonical.secWrite {a v} (h : s.Canonical) : (secWrite a v s).Canonical := h.mboxWrite.ite h.plainWrite

theorem State.Canonical.dbgWrite {a v} (h : s.Canonical) : (dbgWrite a v s).Canonical :=
  h.setSec.ite <| h.plainWrite.when .submit

theorem State.Canonical.regWrite {op a v} (h : s.Canonical) : (regWrite op a v s).Canonical := by
  unfold Machine.regWrite
  split
  · exact h.sysWrite
  · exact h.pwrWrite
  · exact h.timeWrite
  · exact h.ite h.anvRegWrite
  · exact h.plainWrite
  · exact h.comWrite
  · exact h.fbkWrite
  · exact h.adcWrite
  · exact h.outWrite
  · exact h.chkWrite
  · exact h.seamWrite
  · exact h.ite h.fdlWrite
  · exact h.hifWrite
  · exact h.canWrite
  · exact h.intcWrite
  · exact h.tskRegWrite
  · exact h.fcuWrite
  · exact h.almWrite
  · exact h.dbgWrite
  · exact h.secWrite

theorem State.Canonical.dataWrite {n a v mask} (h : s.Canonical) : (dataWrite n a v mask s).Canonical := h.ite h.setE

theorem State.Canonical.writeWord {op a v mask} (h : s.Canonical) : (writeWord op a v mask s).Canonical :=
  h.busError.ite <| h.putWord.ite <| h.regWrite.ite h.dataWrite

theorem State.Canonical.wordEcc {m a e} (h : s.Canonical) : (wordEcc m a e s).Canonical :=
  h.sramEcc.ite <| h.ite <| h.engUseEcc.ite <| h.engUseEcc.ite h

theorem State.Canonical.performRead {op} (h : s.Canonical) : (performRead op s).Canonical := by
  unfold Machine.performRead
  extract_lets step r
  have hr : r.2.2.Canonical := by
    refine List.foldlRecOn (motive := fun r : Option Nat × Nat × State => r.2.2.Canonical) _ step h fun r hr p _ => ?_
    unfold step
    split
    · exact hr
    · dsimp only
      split
      · exact h.when fun _ => hr.busWord.wordEcc
      · exact h.when fun _ => hr.busWord.wordEcc
  split
  · exact hr.busError
  · exact hr.upd

theorem State.Canonical.perform {op} (h : s.Canonical) : (perform op s).Canonical :=
  h.rxDone.busError.ite <| (h.rxDone.foldl .writeWord).ite h.rxDone.performRead

theorem State.Canonical.access {op} (h : s.Canonical) : (access op s).Canonical := by
  unfold Machine.access
  split
  · exact h.perform
  · exact h.perform.ite <| h.busError.ite h.setPwr

theorem State.Canonical.privateAccess {op} (h : s.Canonical) : (privateAccess op s).Canonical := h.setPr.ite h.upd

theorem State.Canonical.bothRead {p op} (h : s.Canonical) : (bothRead p op s).1.Canonical := h.perform.perform

theorem State.Canonical.readRounds {p op rule tol left} (h : s.Canonical) : (readRounds p op rule tol left s).Canonical := by
  induction left generalizing op s with
  | zero => exact h.bothRead.upd.ite h.bothRead.pairFault
  | succ left ih => exact h.bothRead.upd.ite <| (ih h.bothRead.inputRetry).ite h.bothRead.pairFault

theorem State.Canonical.meetLoad {op} (h : s.Canonical) : (meetLoad op s).Canonical := by
  unfold Machine.meetLoad
  dsimp only
  split
  · exact h
  · exact h.meet.readRounds.ite h

theorem State.Canonical.coupledLoad {op} (h : s.Canonical) : (coupledLoad op s).Canonical := by
  unfold Machine.coupledLoad
  split
  · exact h.meetLoad
  · exact h.meetLoad.ite h.access

theorem State.Canonical.resumeAccess {op} (h : s.Canonical) : (resumeAccess op s).Canonical :=
  h.coupledLoad.ite h.perform

theorem State.Canonical.execDomainOn {d} (h : s.Canonical) : Out.Canonical (execDomainOn d s) :=
  (h.keepVotes.setDom.setPwr.foldl .resumeAccess).done.ite h.next

theorem State.Canonical.masterAccess {op} (h : s.Canonical) : (masterAccess op s).Canonical :=
  h.ite <| h.access.ite <| h.privateAccess.ite <| h.access.ite <| h.pairStore.ite h.coupledLoad

theorem State.Canonical.execRegisterWrite {m a size data ecc} (h : s.Canonical) :
    Out.Canonical (execRegisterWrite m a size data ecc s) :=
  h.next.ite <| h.next.ite <| by
    split
    · exact h.masterAccess.done
    · exact (h.ite h.busError).done

theorem State.Canonical.execDataMemoryWrite {m n a v} (h : s.Canonical) : Out.Canonical (execDataMemoryWrite m n a v s) :=
  h.next.ite <| h.next.ite <| by
    split
    · exact h.masterAccess.done
    · exact h.next

theorem State.Canonical.execDataMemoryRead {m n a corr} (h : s.Canonical) :
    Out.Canonical (execDataMemoryRead m n a corr s) :=
  h.next.ite <| h.next.ite <| by
    split
    · exact h.masterAccess.done
    · exact h.next

theorem State.Canonical.execCtLoad (h : s.Canonical) : Out.Canonical (execCtLoad s) := h.next.ite h.ctLoad.done

theorem State.Canonical.execBar0Access {off size data} (h : s.Canonical) : Out.Canonical (execBar0Access off size data s) :=
  h.next.ite <| (h.put.ite h.put.upd).done.ite <| by
    split
    · exact h.access.done
    · exact h.next

theorem State.Canonical.drainStores {p ic clk sts} (h : s.Canonical) : (drainStores p ic clk sts s).Canonical := by
  induction sts generalizing clk s with
  | nil => exact h.setPr
  | cons st sts ih => exact h.reachClk.access.setPr.ite <| (ih h.reachClk.access).ite h.reachClk.access

theorem State.Canonical.endHold {p} (h : s.Canonical) : (endHold p s).Canonical := h.upd.enablesFrom

theorem State.Canonical.execReleaseDrain {p sigOk} (h : s.Canonical) : Out.Canonical (execReleaseDrain p sigOk s) :=
  h.next.ite <| h.next.ite <| by
    split
    · exact h.next
    · exact h.drainStores.done.ite <| h.drainStores.endHold.done.ite h.drainStores.pairFault.done

theorem State.Canonical.execBoundaryScan {i} (h : s.Canonical) : Out.Canonical (execBoundaryScan i s) :=
  h.upd.done.ite h.next

/-! ### The functions of Frame -/

theorem State.Canonical.endMissed (h : s.Canonical) : (endMissed s).Canonical := (h.overrun.foldl .suppressed).ite h

theorem State.Canonical.loadRate (h : s.Canonical) : (loadRate s).Canonical := h.wr.when fun h => h.put.later

theorem State.Canonical.backlogTick (h : s.Canonical) : (backlogTick s).Canonical := h.upd.when fun h => h.put.later

theorem State.Canonical.loadOffset (h : s.Canonical) : (loadOffset s).Canonical := h.put.upd.ite h

theorem State.Canonical.clockCorrection (h : s.Canonical) : (clockCorrection s).Canonical :=
  h.loadRate.backlogTick.loadOffset

theorem State.Canonical.modeSwitch (h : s.Canonical) : (modeSwitch s).1.Canonical := .iteFst h h.put.wr.switchTo

theorem State.Canonical.boundaryTick (h : s.Canonical) : (boundaryTick s).Canonical := by
  unfold Machine.boundaryTick
  extract_lets -underBinder anv s₁ s₂
  have h₂ : s₂.Canonical := h.setAnv.clockCorrection.irq.seamTick
  split
  next e =>
    have h₃ := State.Canonical.ofFst (.iteFst h₂ h₂.modeSwitch) e
    exact ((h₃.fdlTick.when fun h => h.each .axisSwap).hifBoundary.canBoundary.workerStandby).simplexTick

theorem State.Canonical.countFrame (h : s.Canonical) : (countFrame s).Canonical :=
  h.upd.setAnv.wr.irq.when .frameStart

theorem State.Canonical.endFrame (h : s.Canonical) : (endFrame s).Canonical :=
  h.endMissed.almFrameEnd.replayCompare.each .stopEngine

theorem State.Canonical.frameWork {boundary} (h : s.Canonical) : (frameWork boundary s).Canonical := by
  unfold Machine.frameWork
  exact have h := (h.each .engTakeUp).grantTick
    (((h.replayTick.ite h).each .fbTick).chkTick.when .axisTick).leaveTick.almFrameStart.when fun h => h.hifLeaving.claimTick

theorem State.Canonical.execFrameTick (h : s.Canonical) : Out.Canonical (execFrameTick s) :=
  h.next.ite <| ((h.advance.rxDone.endFrame.countFrame.when .boundaryTick).frameWork.settleAll.when .leeBoundary).done

/-! ### The dispatch and the step -/

theorem State.Canonical.exec {i} (h : s.Canonical) : Out.Canonical (exec i s) := by
  cases i with
  | offsetRequest => exact h.execOffsetRequest
  | timeReadLatch => exact h.execTimeReadLatch
  | frameCycleWrite => exact h.execFrameCycleWrite
  | anvSample => exact h.execSample
  | anvCapture => exact h.execCapture
  | anvMove => exact h.execMove
  | anvRun => exact h.execRun
  | anvAwait => exact h.execAwait
  | anvExchangeTx => exact h.execExchangeTx
  | anvExchangeRx => exact h.execExchangeRx
  | anvExchangeSeam => exact h.execExchangeSeam
  | anvCheck => exact h.execCheck
  | anvPublish => exact h.execPublish
  | anvLaunch => exact h.execLaunch
  | anvRecord => exact h.execRecord
  | anvSignal => exact h.execSignal
  | anvMode => exact h.execMode
  | anvNop => exact h.execNop
  | anvEnd => exact h.execEnd
  | scrubRead => exact h.execScrubRead
  | modeRequest => exact h.execModeRequest
  | validationDone => exact h.execValidationDone
  | engNop => exact h.execEngNop
  | engEnd => exact h.execEngEnd
  | engMov => exact h.execMov
  | engLdk => exact h.execLdk
  | engAsh => exact h.execAsh
  | engAdd => exact h.execAdd
  | engSub => exact h.execSub
  | engNeg => exact h.execNeg
  | engAbs => exact h.execAbs
  | engMuld => exact h.execMuld
  | engMulc => exact h.execMulc
  | engAxpy => exact h.execAxpy
  | engAclr => exact h.execAclr
  | engMacc => exact h.execMacc
  | engMacd => exact h.execMacd
  | engMsud => exact h.execMsud
  | engAcst => exact h.execAcst
  | engAcsm => exact h.execAcsm
  | engMin => exact h.execMin
  | engMax => exact h.execMax
  | engClmp => exact h.execClmp
  | engSel => exact h.execSel
  | engAnd => exact h.execAnd
  | engOr => exact h.execOr
  | engXor => exact h.execXor
  | engClarke => exact h.execClarke
  | engPark => exact h.execPark
  | engIpark => exact h.execIpark
  | engSincos => exact h.execSincos
  | engLut1 => exact h.execLut1
  | engLut2 => exact h.execLut2
  | engIntg => exact h.execIntg
  | engRlim => exact h.execRlim
  | engBiq => exact h.execBiq
  | engFir => exact h.execFir
  | engFcst => exact h.execFcst
  | engIllegal => exact h.execEngIllegal
  | engineCompletion => exact h.execEngineCompletion
  | dataMemoryWrite => exact h.execDataMemoryWrite
  | dataMemoryRead => exact h.execDataMemoryRead
  | traceRpWrite => exact h.execTraceRpWrite
  | samplingPlan => exact h.execSamplingPlan
  | shuntConversion => exact h.execShuntConversion
  | shuntSetComplete => exact h.execShuntSetComplete
  | dcLinkResult => exact h.execDcLinkResult
  | vdcLost => exact h.execVdcLost
  | chopperCurrentResult => exact h.execChopperCurrentResult
  | chopperNoFallCheck => exact h.execChopperNoFallCheck
  | quadratureTransition => exact h.execQuadratureTransition
  | indexAccept => exact h.execIndexAccept
  | overrate => exact h.execOverrate
  | hallStateChange => exact h.execHallStateChange
  | hallIllegal => exact h.execHallIllegal
  | ssiTransferStart => exact h.execSsiTransferStart
  | ssiResult => exact h.execSsiResult
  | resolverSample => exact h.execResolverSample
  | lineLoss => exact h.execLineLoss
  | rearm => exact h.execRearm
  | fbkAxmapWrite => exact h.execFbkAxmapWrite
  | adcConversionDone => exact h.execAdcConversionDone
  | groupTrigger => exact h.execGroupTrigger
  | groupConversionDrop => exact h.execGroupConversionDrop
  | sinc3Result => exact h.execSinc3Result
  | sdStuck => exact h.execSdStuck
  | csaOvr => exact h.execCsaOvr
  | ssupFault => exact h.execSsupFault
  | blockInForce => exact h.execBlockInForce
  | legTransition => exact h.execLegTransition
  | incomingTurnOn => exact h.execIncomingTurnOn
  | tripInput => exact h.execTripInput
  | tripLatchClear => exact h.execTripLatchClear
  | blockWord => exact h.execBlockWord
  | heartbeat => exact h.execHeartbeat
  | setupWord => exact h.execSetupWord
  | statusWord => exact h.execStatusWord
  | echoWord => exact h.execEchoWord
  | glTrain => exact h.execTrain
  | trainingDone => exact h.execTrainingDone
  | latencyRemeasure => exact h.execLatencyRemeasure
  | glLoss => exact h.execGlLoss
  | glClear => exact h.execGlClear
  | soReadbackCheck => exact h.execSoReadbackCheck
  | soOvercurrent => exact h.execSoOvercurrent
  | soTestPulse => exact h.execSoTestPulse
  | soTestPulseEnd => exact h.execSoTestPulseEnd
  | soLatchClear => exact h.execSoLatchClear
  | armTimeout => exact h.execArmTimeout
  | stopTimeout => exact h.execStopTimeout
  | spStale => exact h.execSpStale
  | gustLong => exact h.execGustLong
  | coupledStore => exact h.execCoupledStore
  | inputExchange => exact h.execInputExchange
  | chkpt => exact h.execChkpt
  | checkpointCompare => exact h.execCheckpointCompare
  | releaseDrain => exact h.execReleaseDrain
  | cpTimeout => exact h.execCpTimeout
  | accessFault => exact h.execAccessFault
  | checkerTrap => exact h.execCheckerTrap
  | rejoin => exact h.execRejoin
  | assay => exact h.execAssay
  | scrubCompare => exact h.execScrubCompare
  | pairResync => exact h.execPairResync
  | pairResyncEnd => exact h.execPairResyncEnd
  | debugHalt => exact h.execDebugHalt
  | leaseRenew => exact h.execRenew
  | leaseGrant => exact h.execGrant
  | leaseTake => exact h.execTake
  | tgrant => exact h.execTgrant
  | health => exact h.execHealth
  | bulkReq => exact h.execBulkReq
  | peerLost => exact h.execPeerLost
  | stateSegment => exact h.execStateSegment
  | bulkSegment => exact h.execBulkSegment
  | bulkEnd => exact h.execBulkEnd
  | seamPortUp => exact h.execSeamPortUp
  | seamLinkDown => exact h.execSeamLinkDown
  | sliceTest => exact h.execSliceTest
  | sliceHold => exact h.execSliceHold
  | commandFrame => exact h.execCommandFrame
  | statusFrame => exact h.execStatusFrame
  | dataFrame => exact h.execDataFrame
  | peerFrame => exact h.execPeerFrame
  | joinRequest => exact h.execJoinRequest
  | slotTransmit => exact h.execSlotTransmit
  | frameRelay => exact h.execFrameRelay
  | windowClose => exact h.execWindowClose
  | portIsolated => exact h.execPortIsolated
  | reopen => exact h.execReopen
  | fdlLinkUp => exact h.execFdlLinkUp
  | linkDown => exact h.execLinkDown
  | linkDelayMeasurement => exact h.execLinkDelayMeasurement
  | remeasure => exact h.execRemeasure
  | fdlProp => exact h.execProp
  | nodeLost => exact h.execNodeLost
  | payloadGuardTimeout => exact h.execPayloadGuardTimeout
  | bar0Access => exact h.execBar0Access
  | doorbell => exact h.execDoorbell
  | ringEnable => exact h.execRingEnable
  | ringDisable => exact h.execRingDisable
  | descriptorFetch => exact h.execDescriptorFetch
  | canTxDone => exact h.execCanTxDone
  | canTxStale => exact h.execCanTxStale
  | canRx => exact h.execCanRx
  | canErrorState => exact h.execCanErrorState
  | recover => exact h.execRecover
  | canGuardTimeout => exact h.execCanGuardTimeout
  | interruptPresent => exact h.execInterruptPresent
  | interruptAccept => exact h.execInterruptAccept
  | intcDone => exact h.execDone
  | swset => exact h.execSwset
  | sourceConfigWrite => exact h.execSourceConfigWrite
  | taskStart => exact h.execStart
  | taskStop => exact h.execStop
  | taskSet => exact h.execSet
  | taskClear => exact h.execClear
  | taskWait => exact h.execWait
  | taskYield => exact h.execYield
  | taskSwitch => exact h.execSwitch
  | taskPrio => exact h.execPrio
  | taskSpill => exact h.execTaskSpill
  | taskRefill => exact h.execTaskRefill
  | tskEnable => exact h.execTskEnable
  | fltReadbackCheck => exact h.execFltReadbackCheck
  | logRpWrite => exact h.execLogRpWrite
  | reactWrite => exact h.execReactWrite
  | leeLimitWrite => exact h.execLeeLimitWrite
  | bootSelect => exact h.execBootSelect
  | imageLoad => exact h.execImageLoad
  | engineLoad => exact h.execEngineLoad
  | sealedLoad => exact h.execSealedLoad
  | scheduleLoad => exact h.execScheduleLoad
  | lifecycle => exact h.execLifecycle
  | keys => exact h.execKeys
  | debugToken => exact h.execDebug
  | grantToken => exact h.execGrantToken
  | replayToken => exact h.execReplayToken
  | reckey => exact h.execReckey
  | confirm => exact h.execConfirm
  | nvRead => exact h.execNvRead
  | nvWrite => exact h.execNvWrite
  | nvErase => exact h.execNvErase
  | almEnable => exact h.execAlmEnable
  | dumpRecord => exact h.execDumpRecord
  | replayCheck => exact h.execReplayCheck
  | idleEntry => exact h.execIdleEntry
  | sleepEntry => exact h.execSleepEntry
  | deepSleepEntry => exact h.execDeepSleepEntry
  | offEntry => exact h.execOffEntry
  | sleepWake => exact h.execSleepWake
  | powerUp => exact h.execPowerUp
  | powerGood => exact h.execPowerGood
  | logicBist => exact h.execLogicBist
  | supplyALost => exact h.execSupplyALost
  | supplyBLost => exact h.execSupplyBLost
  | supplyUv => exact h.execSupplyUv
  | supplyOv => exact h.execSupplyOv
  | supplyOvEnd => exact h.execSupplyOvEnd
  | domainPowerDown => exact h.execDomainPowerDown
  | domainOff => exact h.execDomainOff
  | domainPowerUp => exact h.execDomainPowerUp
  | domainOn => exact h.execDomainOn
  | domainFail => exact h.execDomainFail
  | voteWrite => exact h.execVoteWrite
  | pointChange => exact h.execPointChange
  | wdtKick => exact h.execWdtKick
  | registerWrite => exact h.execRegisterWrite
  | powerOnReset => exact .execPowerOnReset
  | supplyReturn => exact h.execSupplyReturn
  | tripRelease => exact h.execTripRelease
  | pcieLinkUp => exact h.execPcieLinkUp
  | resetRelease => exact h.execResetRelease
  | debugResume => exact h.execDebugResume
  | debugStep => exact h.execDebugStep
  | debugWrite => exact h.execDebugWrite
  | boundaryScan => exact h.execBoundaryScan
  | frameTick => exact h.execFrameTick
  | slewEnd => exact h.execSlewEnd
  | ctLoad => exact h.execCtLoad
  | oscFallback => exact h.execOscFallback
  | moveCopyDone => exact h.execMoveCopyDone
  | awaitPass => exact h.execAwaitPass
  | awaitDeadline => exact h.execAwaitDeadline
  | anvRunStart => exact h.execAnvRunStart
  | anvRunStop => exact h.execAnvRunStop
  | anvilStart => exact h.execAnvilStart
  | anvilStop => exact h.execAnvilStop
  | oholdExpiry => exact h.execOholdExpiry
  | p1 => exact h.execP1
  | p2 => exact h.execP2
  | leaseLapsed => exact h.execLeaseLapsed
  | lastChannel => exact h.execLastChannel
  | noMgrClaim => exact h.execNoMgrClaim
  | setStart => exact h.execSetStart
  | stateCopySend => exact h.execStateCopySend
  | copyMissed => exact h.execCopyMissed
  | resync => exact h.execResync
  | standbyOk => exact h.execStandbyOk
  | resyncFail => exact h.execResyncFail
  | syncComputation => exact h.execSyncComputation
  | syncLost => exact h.execSyncLost
  | integrateToSync => exact h.execIntegrateToSync
  | coldstart => exact h.execColdstart
  | coldstartToSync => exact h.execColdstartToSync
  | cancel => exact h.execCancel
  | proposalTimeout => exact h.execProposalTimeout
  | modeSplit => exact h.execModeSplit
  | leave => exact h.execLeave
  | functionLevelReset => exact h.execFunctionLevelReset
  | pcieLinkDown => exact h.execPcieLinkDown
  | hostNop => exact h.execHostNop
  | setInline => exact h.execSetInline
  | setBlock => exact h.execSetBlock
  | readStatus => exact h.execReadStatus
  | readStatusCopy => exact h.execReadStatusCopy
  | hostLoad => exact h.execLoad
  | hallmark => exact h.execHallmark
  | faultClear => exact h.execFaultClear
  | canTx => exact h.execCanTx
  | hostSilent => exact h.execHostSilent
  | leeWarn => exact h.execLeeWarn
  | leeExpired => exact h.execLeeExpired
  | fltEdge => exact h.execFltEdge
  | resetReaction => exact h.execResetReaction
  | recordClear => exact h.execRecordClear
  | lifecycleReset => exact h.execLifecycleReset
  | grantExpiry => exact h.execGrantExpiry
  | trngFail => exact h.execTrngFail
  | submit => exact h.execSubmit
  | trig => exact h.execTrig
  | almFreeze => exact h.execAlmFreeze
  | release => exact h.execRelease
  | dump => exact h.execDump
  | replayEnd => exact h.execReplayEnd
  | wakeTimer => exact h.execWakeTimer
  | railTimeout => exact h.execRailTimeout
  | railRetry => exact h.execRailRetry
  | referenceLock => exact h.execReferenceLock
  | oscStart => exact h.execOscStart
  | brownout => exact h.execBrownout
  | dvfsDone => exact h.execDvfsDone
  | dvfsFail => exact h.execDvfsFail
  | wdtHalf => exact h.execWdtHalf
  | wdtExpired => exact h.execWdtExpired
  | swrst => exact h.execSwrst
  | pinReset => exact h.execPinReset
  | debugReset => exact h.execDebugReset
  | bulkSent => exact h.execBulkSent
  -- The one constructor left shares its name with a keyword of Lean.
  | _ => exact h.execSeal

theorem State.Canonical.step (h : s.Canonical) : Out.Canonical (step s) := by
  unfold Machine.step
  split
  · exact h.next
  · exact h.upd.exec
end

/-- Settles O60: each function of the model keeps both stores canonical. They change by `SMap.set`, which keeps the canonical
form, but for a reset, which drops entries or starts from the state after reset. -/
theorem storesCanonicalEveryStep : Obligations.StoresCanonicalEveryStep := by
  unfold Obligations.StoresCanonicalEveryStep
  intro s t hs e
  rw [State.storesWf_iff] at hs ⊢
  exact hs.step t e

end Sys2Proof.Machine
end

section
/-! The state after reset and its pins (O59). -/
namespace Sys2Proof.Machine

/-- What a pin does in the state after reset: the Reset column (R553). -/
def Pin.resetLevel : Pin → Level
  | .pwm _ _ | .maintN | .exc => .highZ
  | .genA _ | .genB _ | .fltP | .fltN | .sdCk _ | .ospiRst => .low
  | .soH _ | .soL _ | .glDn _ | .ssup _ => .off
  | .fbCk _ | .canTx _ | .ospiCs => .high
  | .fdlTx _ | .seamTx _ | .pcieTx => .idle

theorem reset_pin (p : Pin) : State.reset.pin p = p.resetLevel := by
  cases p with
  | pwm n k =>
    revert n k
    decide +kernel
  | genA n | genB n | glDn n | fbCk n | soH n | soL n | sdCk n | ssup n | canTx n | fdlTx n | seamTx n =>
    revert n
    decide +kernel
  | fltP | fltN | maintN | exc | ospiCs | ospiRst | pcieTx => decide +kernel

/-- Settles O59: the state after reset is one closed state, so each part is evaluated, the pins kind by kind. -/
theorem stateAfterReset : Obligations.StateAfterReset := by
  unfold Obligations.StateAfterReset
  intro s
  have hcalm : s.calm := rfl
  have hstores : s.storesWf = true := (State.storesWf_iff _).mpr .reset
  refine ⟨?_, ?_, ?_, ?_, ?_, ?_, ?_, ?_, ?_, ?_, ?_, ?_, ?_, ?_, ?_, ?_, ?_, ?_, ?_, ?_, ?_, ?_, hcalm, hstores, rfl, rfl, ?_,
    fun p => (reset_pin p).trans (by cases p <;> rfl)⟩ <;> decide +kernel

end Sys2Proof.Machine
end

section
/-! Bus accesses (O54): a bus error that leads to further bus errors. -/
namespace Sys2Proof.Machine

/-- After reset with device events enabled and ring 0 their ring: open, of 8 descriptors, in internal memory, its base and its
index block left at address 0, which is no shared SRAM. -/
def eventRingOutsideSram : State :=
  ((((State.reset.put Reg.HIF_CFG_EVTEN true).put Reg.HIF_CTRL_EN true).put (Reg.HIF_Rr_CTL 0) true).wr (Reg.HIF_Rr_CFG_KIND 0) 2
    |>.wr (Reg.HIF_Rr_CFG_LOC 0) 1).wr (Reg.HIF_Rr_CFG_LSIZE 0) 3

/-- The COUNT of a source once the command has completed. -/
def countAfter (c : Instr) (code : Nat) (s : State) : Nat :=
  match exec c s with
  | .next t => SMap.get 0 t.fcu.count code
  | _ => 0

/-- The FAULT event of the bus error goes to the ring: the ring unit meets a bus error at the descriptor and one at the index
block, and both count (R253, R368, R410). -/
theorem countAfter_misaligned_eventRingOutsideSram :
    countAfter (.registerWrite .sec 0x40010001 4 none .ok) Fc.BUS_ERROR eventRingOutsideSram = 3 := by
  decide +kernel

/-- Refutes O54: a misaligned access need not leave the COUNT of BUS_ERROR one higher in a calm state. Where device events are
enabled and their ring lies in internal memory outside shared SRAM, the event of the fault is itself two bus errors of the ring
unit, and the COUNT goes from 0 to 3. -/
theorem not_busAccesses : ¬ Obligations.BusAccesses := by
  unfold Obligations.BusAccesses
  intro h
  obtain ⟨access, -⟩ := h
  obtain ⟨-, -, misaligned, -⟩ := access .sec 0x40010001 4 none .ok eventRingOutsideSram
  obtain ⟨t, hexec, -, hcount⟩ := misaligned (by decide +kernel) (by decide +kernel) (by decide +kernel)
  have hone : SMap.get 0 t.fcu.count Fc.BUS_ERROR = 1 := hcount (by decide +kernel)
  have hthree := countAfter_misaligned_eventRingOutsideSram
  rw [countAfter, hexec] at hthree
  exact absurd (hone.symm.trans hthree) (by decide)

end Sys2Proof.Machine
end

section
/-! One step and the queue (O58). -/
namespace Sys2Proof.Machine

/-- Settles O58: a step is one split on the queue. -/
theorem stepRunsFront : Obligations.StepRunsFront := by
  unfold Obligations.StepRunsFront
  refine ⟨fun c cs s hs => ?_, fun s hs => ?_⟩
  · rw [step, hs]
  · rw [step, hs]

end Sys2Proof.Machine
end

section
/-! The end of ASSAY (O53): the bus error of a device event posted with the change to STANDBY. -/
namespace Sys2Proof.Machine

/-- In ASSAY with Assay run on every core; device events go to a ring in internal memory outside shared SRAM, and BUS_ERROR has
the reaction device safe state. -/
def assayWithEventRingOutsideSram : State :=
  let s := eventRingOutsideSram.wr Reg.CHK_ASSAY_RAN 15
  { s with dev := { s.dev with state := .assay }, fcu := { s.fcu with react := [(Fc.BUS_ERROR, some .safe)] } }

/-- The device state once the command has completed. -/
def devStateAfter (c : Instr) (s : State) : Option DevState :=
  match exec c s with
  | .next t => some t.dev.state
  | _ => none

/-- The ROLE event of the change to STANDBY meets a bus error at the ring, whose reaction takes the device to SAFE (R29, R253,
R368, R410, R411). -/
theorem devStateAfter_logicBist_eventRingOutsideSram :
    devStateAfter (.logicBist true) assayWithEventRingOutsideSram = some .safe := by
  decide +kernel

/-- Assay has run, and nothing nested waits: LOGIC_BIST ends ASSAY. -/
theorem assayWithEventRingOutsideSram_ready : let s := assayWithEventRingOutsideSram
    s.runs = true ∧ s.dev.state = .assay ∧ s.assayed = true ∧ (s.sec.queue.all fun x => ! x.isNested) = true ∧ s.sec.sched = none := by
  decide +kernel

theorem assayWithEventRingOutsideSram_mild : assayWithEventRingOutsideSram.mild [] := by decide +kernel

/-- The part of O53 that is refuted: a passed LOGIC_BIST that ends ASSAY leaves STANDBY in force. -/
theorem standby_of_assayBistAndWatchdog (h : Obligations.AssayBistAndWatchdog) (s : State)
    (hready : s.runs = true ∧ s.dev.state = .assay ∧ s.assayed = true ∧ (s.sec.queue.all fun x => ! x.isNested) = true ∧
      s.sec.sched = none) (hmild : s.mild []) :
    ∃ t, exec (.logicBist true) s = .next t ∧ t.dev.state = .standby := by
  unfold Obligations.AssayBistAndWatchdog at h
  obtain ⟨bist, -⟩ := h
  obtain ⟨t, hexec, hpost⟩ := bist true s
  rw [if_pos hready] at hpost
  obtain ⟨-, -, -, hpassed⟩ := hpost
  rw [if_pos rfl] at hpassed
  exact ⟨t, hexec, (hpassed hmild).1⟩

/-- Refutes O53: every slice passes, no consequence waits, and a missed or a dropped event has no reaction beyond Interrupt, and
still LOGIC_BIST need not leave the device in STANDBY. Where device events go to internal memory outside shared SRAM, the event
of the change is itself a bus error, and BUS_ERROR, a source the statement does not bound, may be given a reaction that takes the
device to SAFE. -/
theorem not_assayBistAndWatchdog : ¬ Obligations.AssayBistAndWatchdog := by
  intro h
  obtain ⟨t, hexec, hstandby⟩ := standby_of_assayBistAndWatchdog h assayWithEventRingOutsideSram
    assayWithEventRingOutsideSram_ready assayWithEventRingOutsideSram_mild
  have hsafe := devStateAfter_logicBist_eventRingOutsideSram
  rw [devStateAfter, hexec] at hsafe
  exact absurd (hstandby.symm.trans (Option.some.inj hsafe)) (by decide)

end Sys2Proof.Machine
end

section
/-! What a report leaves: an interrupt event, a device event and a trigger of the Almanac write registers of the rings, of the
interrupt controller and of the Almanac, and put faults on the list of consequences (R367, R368, R382, R502). -/
namespace Sys2Proof.Machine

/-- A field of the host interface, the interrupt controller or the Almanac. -/
def Fld.ofReports (f : Fld) : Bool := [0x400C, 0x400E, 0x4011].contains (f.key / 0x80000)

/-- `t` is `s` but for what reports write: the registers of `Fld.ofReports`, the list of consequences, the Almanac and the memories
of the event ring. -/
structure Reports (s t : State) : Prop where
  rd : ∀ f, Fld.ofReports f = false → t.rd f = s.rd f
  dev : t.dev = s.dev
  fcu : t.fcu = { s.fcu with todo := t.fcu.todo }

theorem Reports.refl (s : State) : Reports s s := ⟨fun _ _ => rfl, rfl, rfl⟩

theorem Reports.trans {s t u : State} (h : Reports s t) (g : Reports t u) : Reports s u where
  rd f hf := (g.rd f hf).trans (h.rd f hf)
  dev := g.dev.trans h.dev
  fcu := by rw [g.fcu, h.fcu]

theorem Reports.wr (s : State) (f : Fld) (v : Nat) (hf : Fld.ofReports f = true) : Reports s (s.wr f v) where
  rd g hg := State.rd_wr_ne _ _ _ _ fun e => by rw [Fld.ofReports, e] at hf; rw [Fld.ofReports, hf] at hg; cases hg
  dev := rfl
  fcu := rfl

theorem Reports.inc (s : State) (f : Fld) (hf : Fld.ofReports f = true) : Reports s (s.inc f) := .wr s f _ hf

theorem Reports.later (s : State) (f : Raise) : Reports s (s.later f) := ⟨fun _ _ => rfl, rfl, rfl⟩

theorem Reports.aside (s : State) (m : List Host.Cell) (h : HifSt) (a : AlmSt) : Reports s { s with mem := m, hif := h, alm := a } :=
  ⟨fun _ _ => rfl, rfl, rfl⟩

theorem Reports.when {s t : State} (c : Bool) (f : State → State) (h : Reports s t) (g : Reports t (f t)) : Reports s (t.when c f) := by
  unfold State.when; split
  · exact h.trans g
  · exact h

theorem intc_ofReports (k : Nat) (hk : k < 8) : Fld.ofReports (Reg.INTC_PENDk k) = true ∧ Fld.ofReports (Reg.INTC_MISSk k) = true := by
  have : ∀ k : Fin 8, Fld.ofReports (Reg.INTC_PENDk k) = true ∧ Fld.ofReports (Reg.INTC_MISSk k) = true := by decide
  exact this ⟨k, hk⟩

theorem ring_ofReports (r : Nat) (hr : r < 16) : Fld.ofReports (Reg.HIF_Rr_IDX_PI r) = true ∧ Fld.ofReports (Reg.HIF_Rr_STAT_COUNT r) = true ∧
    Fld.ofReports (Reg.HIF_Rr_STAT_PHASE r) = true ∧ Fld.ofReports (Reg.HIF_Rr_IRQ_ARM r) = true := by
  have : ∀ r : Fin 16, Fld.ofReports (Reg.HIF_Rr_IDX_PI r) = true ∧ Fld.ofReports (Reg.HIF_Rr_STAT_COUNT r) = true ∧
    Fld.ofReports (Reg.HIF_Rr_STAT_PHASE r) = true ∧ Fld.ofReports (Reg.HIF_Rr_IRQ_ARM r) = true := by decide
  exact this ⟨r, hr⟩

theorem Reports.irq (src : Nat) (h : src < 256) (s : State) : Reports s (irq src s) := by
  obtain ⟨hpend, hmiss⟩ := intc_ofReports (src / 32) (by omega)
  unfold Machine.irq; split
  · exact (Reports.wr s _ _ hmiss).trans (.later _ _)
  · exact .wr s _ _ hpend

theorem Reports.dmaWrite (s : State) (loc a : Nat) (ws : List Nat) : Reports s (s.dmaWrite loc a ws) := by
  unfold State.dmaWrite; (repeat' split)
  · exact .aside s s.mem _ s.alm
  · exact .aside s _ s.hif s.alm
  · exact .later s _

theorem Reports.ringPutRaw (r : Nat) (hr : r < 16) (ws : List Nat) (s : State) : Reports s (ringPutRaw r ws s) := by
  obtain ⟨hpi, hcount, hphase, -⟩ := ring_ofReports r hr
  have hput := fun v => ((Reports.dmaWrite s (s.rd (Reg.HIF_Rr_CFG_LOC r)) (s.ringBase r + 32 * s.rd (Reg.HIF_Rr_IDX_PI r))
    (padTo 8 ws)).trans (.wr _ _ v hpi)).trans (.inc _ _ hcount)
  unfold Machine.ringPutRaw; dsimp only; split
  · exact (hput _).trans (.wr _ _ _ hphase)
  · exact hput _

theorem Reports.ringPuts (r : Nat) (hr : r < 16) (ds : List (List Nat)) (s : State) : Reports s (ringPuts r ds s) := by
  induction ds generalizing s with
  | nil => exact .refl s
  | cons d ds ih => exact (Reports.ringPutRaw r hr _ s).trans (ih _)

theorem Reports.msix (vec : Nat) (s : State) : Reports s (msix vec s) := by
  unfold Machine.msix; dsimp only; split
  · exact .aside s s.mem _ s.alm
  · exact .dmaWrite s _ _ _

theorem Reports.ringNotify (r own : Nat) (hr : r < 16) (s : State) : Reports s (ringNotify r own s) := by
  obtain ⟨-, -, -, harm⟩ := ring_ofReports r hr
  have hindex := Reports.dmaWrite s (s.rd (Reg.HIF_Rr_CFG_LOC r)) (s.ringIdxA r) [own, s.fn]
  unfold Machine.ringNotify; dsimp only; split
  · refine Reports.when _ _ (Reports.trans ?_ (.aside _ (State.mem _) _ (State.alm _))) (.msix _ _)
    exact (hindex.trans (.wr _ _ _ harm)).trans (.irq _ (by omega) _)
  · exact hindex

theorem Reports.ringWrite (r : Nat) (ds : List (List Nat)) (hr : r < 16) (s : State) : Reports s (ringWrite r ds s) :=
  (Reports.ringPuts r hr ds s).trans (.ringNotify r _ hr _)

theorem Reports.postEvent (kind : Nat) (data : List Nat) (s : State) : Reports s (postEvent kind data s) := by
  unfold Machine.postEvent; dsimp only; (repeat' split)
  · exact (Reports.inc s _ (by decide)).trans (.later _ _)
  · exact .ringWrite _ _ (State.rd_lt s Reg.HIF_CFG_EVTRING) s
  · exact .refl s

theorem Reports.putTrigger (s : State) : Reports s (putTrigger s) := .aside s s.mem s.hif _

theorem Reports.almTrigger (b code : Nat) (s : State) : Reports s (almTrigger b code s) := by
  unfold Machine.almTrigger; dsimp only; (repeat' split)
  · refine Reports.trans ?_ (.later _ _)
    refine Reports.trans ?_ (.putTrigger _)
    refine Reports.trans ?_ (.aside _ (State.mem _) (State.hif _) _)
    exact (((Reports.wr s _ _ (by decide)).trans (.wr _ _ _ (by decide))).trans (.wr _ _ _ (by decide))).trans (.wr _ _ _ (by decide))
  · exact ((Reports.when _ _ (.refl s) (.wr _ _ _ (by decide))).trans (.wr _ _ _ (by decide))).trans (.putTrigger _)
  · exact (Reports.inc s _ (by decide)).trans (.putTrigger _)
  · exact ((Reports.inc s _ (by decide)).trans (.putTrigger _)).trans (.later _ _)
  · exact .refl s

theorem Reports.almEvent (b code : Nat) (s : State) : Reports s (almEvent b code s) := .when _ _ (.refl s) (.almTrigger b code s)

theorem Reports.role {s t : State} (h : Reports s t) : t.role = s.role := h.rd Reg.SEAM_STAT_ROLE (by decide)

theorem Reports.claim {s t : State} (h : Reports s t) : t.rd Reg.SEAM_CLAIM_CLAIM = s.rd Reg.SEAM_CLAIM_CLAIM := h.rd _ (by decide)

theorem Reports.request {s t : State} (h : Reports s t) : t.fcu.supReq = s.fcu.supReq ∧ t.fcu.supSo = s.fcu.supSo := by
  rw [h.fcu]; exact ⟨rfl, rfl⟩

/-- A source pending before what raising does is pending after it. -/
theorem OnlyFaults.pends {s t : State} (h : OnlyFaults s t) (src : Nat) (hsrc : src < 256) (hp : s.pends src = true) :
    t.pends src = true := h.pend _ _ hp (Nat.mod_lt _ (by decide)) (by omega)

/-! ### The change of device state and role -/

theorem fltStop_rd (s : State) (f : Fld) (hp : f.key ≠ Reg.FCU_STAT_FLT_P.key) (hn : f.key ≠ Reg.FCU_STAT_FLT_N.key) :
    (fltStop s).rd f = s.rd f :=
  (State.rd_wr_ne (s.put Reg.FCU_STAT_FLT_P false) Reg.FCU_STAT_FLT_N f 0 hn.symm).trans (State.rd_wr_ne s _ _ 0 hp.symm)

/-- The state in which `setDevRole` reports the change: device state, role, the claim dropped, the pins stopped. -/
def State.toDevRole (s : State) (st : DevState) (role : Nat) : State :=
  (({ s.wr Reg.SEAM_STAT_ROLE role with dev := { s.dev with state := st } } : State).when
    (role = roleOFFLINE || role = roleOBSERVER) (·.wr Reg.SEAM_CLAIM_CLAIM 0)).when
    (decide (st ≠ .standby ∧ st ≠ .active ∧ st ≠ .lee)) fltStop

theorem setDevRole_same (st : DevState) (role : Nat) (s : State) (h : s.dev.state = st ∧ s.role = role) : setDevRole st role s = s := by
  unfold setDevRole; rw [if_pos h]

theorem setDevRole_change (st : DevState) (role : Nat) (s : State) (h : ¬ (s.dev.state = st ∧ s.role = role)) :
    setDevRole st role s = postEvent 5 [((s.toDevRole st role).when (decide (s.role ≠ role)) (irq 152)).healthWord]
      ((s.toDevRole st role).when (decide (s.role ≠ role)) (irq 152)) := by
  unfold setDevRole; rw [if_neg h]; rfl

theorem setDevRole_reports (st : DevState) (role : Nat) (s : State) (h : ¬ (s.dev.state = st ∧ s.role = role)) :
    Reports (s.toDevRole st role) (setDevRole st role s) := by
  rw [setDevRole_change st role s h]
  exact (Reports.when _ _ (.refl _) (.irq 152 (by decide) _)).trans (.postEvent _ _ _)

theorem setDevRole_onlyFaults (st : DevState) (role : Nat) (s : State) (h : ¬ (s.dev.state = st ∧ s.role = role)) :
    OnlyFaults (s.toDevRole st role) (setDevRole st role s) := by
  rw [setDevRole_change st role s h]
  exact (OnlyFaults.when _ _ (.refl _) (.irq _ 152 (by decide))).trans (.postEvent _ _ _)

/-- The fields the change of state and role writes. -/
theorem State.rd_toDevRole (s : State) (st : DevState) (role : Nat) (f : Fld) (hf : f.key ≠ Reg.SEAM_STAT_ROLE.key)
    (hc : f.key ≠ Reg.SEAM_CLAIM_CLAIM.key) (hp : f.key ≠ Reg.FCU_STAT_FLT_P.key) (hn : f.key ≠ Reg.FCU_STAT_FLT_N.key) :
    (s.toDevRole st role).rd f = s.rd f := by
  have hrole : ∀ u : State, (u.wr Reg.SEAM_STAT_ROLE role).rd f = u.rd f := fun u => u.rd_wr_ne _ _ _ hf.symm
  have hclaim : ∀ u : State, (u.wr Reg.SEAM_CLAIM_CLAIM 0).rd f = u.rd f := fun u => u.rd_wr_ne _ _ _ hc.symm
  have hstop : ∀ u : State, (fltStop u).rd f = u.rd f := fun u => fltStop_rd u f hp hn
  unfold State.toDevRole State.when
  (repeat' split) <;> simp only [hstop, hclaim] <;> exact hrole s

end Sys2Proof.Machine
end

section
/-! One raise of a fault (O40): what it notes and records, what it reports, and its reaction. -/
namespace Sys2Proof.Machine

/-! ### The stages of a raise -/

/-- The fault is of class S or M: it is held and recorded (R409). -/
def Raise.visible (f : Raise) : Bool := decide (faultClass f.code ≠ .i)

/-- The counts, the log and the first-error record after a raise. -/
def recorded (f : Raise) (s : State) : State :=
  ((noteRaise f s).when (f.visible || s.reported f.code) (logFault f)).when f.visible (recordFault f)

/-- The device event and the interrupt events of a raise. -/
def notified (f : Raise) (react : React) (wasHeld : Bool) (s : State) : State :=
  let cls := faultClass f.code
  let s := s.when ((f.visible && ! wasHeld) || (! f.visible && s.reported f.code)) (postEvent 2 [f.code])
  let s := s.when (cls = .s) (irq 0)
  let s := s.when (cls = .m) (irq 4)
  let s := s.when (react ≠ .none) (irq 5)
  match blockFaultIrq f.code with
  | some src => irq src s
  | none => s

/-- The error pins and the triggers of the Almanac. -/
def signalled (f : Raise) (s : State) : State :=
  let cls := faultClass f.code
  let s := s.when (cls = .s) fltStop
  let s := s.when (cls = .s && f.code / 1024 ≠ 17) (almEvent 0 f.code)
  s.when (cls = .m && f.code / 1024 ≠ 17) (almEvent 1 f.code)

theorem raise1_skip (f : Raise) (s : State) (h : (oncePerFrame f.code && SMap.get false s.fcu.seen f.code) = true) : raise1 f s = s := by
  unfold raise1; rw [if_pos h]

/-- The state in which the reaction of a raise is taken. -/
def beforeReaction (f : Raise) (s : State) : State :=
  signalled f (notified f (s.reactOf f.code) (s.isHeld f.code) (recorded f s))

/-- A raise is its stages in turn. -/
theorem raise1_stages (f : Raise) (s : State) (h : (oncePerFrame f.code && SMap.get false s.fcu.seen f.code) = false) :
    raise1 f s = takeReaction f (s.reactOf f.code) (beforeReaction f s) := by
  unfold raise1; rw [if_neg (by simp [h])]; rfl

/-! ### The log and the first-error record -/

@[simp] theorem State.rd_setFcu (s : State) (x : FcuSt) (f : Fld) : (setFcu x s).rd f = s.rd f := rfl

theorem State.fcu_when_inc (s : State) (c : Bool) (f : Fld) : (s.when c (·.inc f)).fcu = s.fcu := by
  unfold State.when; split <;> rfl

theorem State.dev_when_inc (s : State) (c : Bool) (f : Fld) : (s.when c (·.inc f)).dev = s.dev := by
  unfold State.when; split <;> rfl

theorem State.rd_when_inc (s : State) (c : Bool) (f g : Fld) (h : f.key ≠ g.key) : (s.when c (·.inc f)).rd g = s.rd g := by
  unfold State.when; split
  · exact State.rd_wr_ne _ _ _ _ h
  · rfl

/-- The entry of a fault in the log (R426). -/
def logEntry (f : Raise) (s : State) : Nat :=
  f.code + (faultClass f.code).code * 2 ^ 16 + (s.reactOf f.code).code * 2 ^ 18 + s.fn * 2 ^ 32 +
    s.ctTicks % 2 ^ 32 * 2 ^ 64 + f.addr % 2 ^ 32 * 2 ^ 96

/-- The state with the entry in the log and WP past it, before the unread entries are counted. -/
def logged (f : Raise) (s : State) : State :=
  ((s.wr (Reg.FCU_LOGi (s.rd Reg.FCU_LOGWP_WP)) (logEntry f s)).wr Reg.FCU_LOGWP_WP ((s.rd Reg.FCU_LOGWP_WP + 1) % 256)).when
    (s.rd Reg.FCU_LOGWP_WP = 255) (·.inc Reg.FCU_LOGWP_WRAPS)

/-- An unread entry is counted, or the oldest one is written over: RP moves and source 10 is raised (R426). -/
def countUnread (rp : Nat) (s : State) : State :=
  if s.rd Reg.FCU_LOGRP_UNREAD = 256 then irq 10 (s.wr Reg.FCU_LOGRP_RP rp) else s.inc Reg.FCU_LOGRP_UNREAD

theorem logFault_eq (f : Raise) (s : State) :
    logFault f s = countUnread ((s.rd Reg.FCU_LOGWP_WP + 1) % 256) (logged f s) := rfl

theorem countUnread_rd (rp : Nat) (s : State) (g : Fld) (hrp : g.key ≠ Reg.FCU_LOGRP_RP.key) (hun : g.key ≠ Reg.FCU_LOGRP_UNREAD.key)
    (hg : Fld.ofReports g = false) : (countUnread rp s).rd g = s.rd g := by
  unfold countUnread; split
  · exact ((Reports.irq 10 (by decide) _).rd g hg).trans (State.rd_wr_ne _ _ _ _ hrp.symm)
  · exact State.rd_wr_ne _ _ _ _ hun.symm

theorem countUnread_fcu (rp : Nat) (s : State) : (countUnread rp s).fcu = { s.fcu with todo := (countUnread rp s).fcu.todo } := by
  unfold countUnread; split
  · exact (Reports.irq 10 (by decide) (s.wr Reg.FCU_LOGRP_RP rp)).fcu
  · rfl

theorem countUnread_dev (rp : Nat) (s : State) : (countUnread rp s).dev = s.dev := by
  unfold countUnread; split
  · exact (Reports.irq 10 (by decide) (s.wr Reg.FCU_LOGRP_RP rp)).dev
  · rfl

theorem logFault_fcu (f : Raise) (s : State) : (logFault f s).fcu = { s.fcu with todo := (logFault f s).fcu.todo } := by
  have h : (logged f s).fcu = s.fcu := by rw [logged, State.fcu_when_inc, State.wr_fcu, State.wr_fcu]
  rw [logFault_eq, ← h]; exact countUnread_fcu _ _

theorem logFault_dev (f : Raise) (s : State) : (logFault f s).dev = s.dev := by
  rw [logFault_eq, countUnread_dev, logged, State.dev_when_inc, State.wr_dev, State.wr_dev]

theorem logged_rd (f : Raise) (s : State) (g : Fld) (hlog : (Reg.FCU_LOGi (s.rd Reg.FCU_LOGWP_WP)).key ≠ g.key)
    (hwp : Reg.FCU_LOGWP_WP.key ≠ g.key) (hwraps : Reg.FCU_LOGWP_WRAPS.key ≠ g.key) : (logged f s).rd g = s.rd g :=
  (State.rd_when_inc _ _ _ _ hwraps).trans ((State.rd_wr_ne _ _ _ _ hwp).trans (State.rd_wr_ne _ _ _ _ hlog))

/-- A field outside the fault log's registers and the registers of reports is left alone. -/
theorem logFault_rd (f : Raise) (s : State) (g : Fld) (hg : g.key < Reg.FCU_LOGWP_WP.key) (hr : Fld.ofReports g = false) :
    (logFault f s).rd g = s.rd g := by
  have hw : Reg.FCU_LOGWP_WP.key = 8598323968 := by decide
  have hx : Reg.FCU_LOGWP_WRAPS.key = Reg.FCU_LOGWP_WP.key + 16 := by decide
  have hp : Reg.FCU_LOGRP_RP.key = Reg.FCU_LOGWP_WP.key + 32 := by decide
  have hu : Reg.FCU_LOGRP_UNREAD.key = Reg.FCU_LOGWP_WP.key + 48 := by decide
  have hl : (Reg.FCU_LOGi (s.rd Reg.FCU_LOGWP_WP)).key ≠ g.key := by
    simp only [Reg.FCU_LOGi]; omega
  rw [logFault_eq, countUnread_rd _ _ g (by omega) (by omega) hr, logged_rd f s g hl (by omega) (by omega)]

theorem logFault_wp (f : Raise) (s : State) : (logFault f s).rd Reg.FCU_LOGWP_WP = (s.rd Reg.FCU_LOGWP_WP + 1) % 256 := by
  rw [logFault_eq, countUnread_rd _ _ _ (by decide) (by decide) (by decide), logged, State.rd_when_inc _ _ _ _ (by decide), State.rd_wr_self]
  exact Nat.mod_eq_of_lt (Nat.mod_lt _ (by decide))

theorem logFault_entry (f : Raise) (s : State) :
    (logFault f s).rd (Reg.FCU_LOGi (s.rd Reg.FCU_LOGWP_WP)) = logEntry f s % 2 ^ 128 := by
  have hlt : s.rd Reg.FCU_LOGWP_WP < 2 ^ 8 := State.rd_lt s _
  generalize hwp : s.rd Reg.FCU_LOGWP_WP = wp at hlt
  have hkey : (Reg.FCU_LOGi wp).key = 8598355968 + 128 * wp := by simp only [Reg.FCU_LOGi]; omega
  have hrep : Fld.ofReports (Reg.FCU_LOGi wp) = false := by
    have : ∀ i : Fin 256, Fld.ofReports (Reg.FCU_LOGi i) = false := by decide +kernel
    exact this ⟨wp, hlt⟩
  have hsmall : ∀ k < 8598355968, k ≠ (Reg.FCU_LOGi wp).key := fun k hk => by omega
  rw [logFault_eq, countUnread_rd _ _ _ (hsmall _ (by decide)).symm (hsmall _ (by decide)).symm hrep, logged, hwp,
    State.rd_when_inc _ _ _ _ (hsmall _ (by decide)), State.rd_wr_ne _ _ _ _ (hsmall _ (by decide)), State.rd_wr_self]
  rfl

/-- The low half of an entry: code, class, reaction and FN. -/
theorem logEntry_low (f : Raise) (s : State) (h : f.code < 2 ^ 16) : logEntry f s % 2 ^ 128 % 2 ^ 64 =
    f.code + (faultClass f.code).code * 2 ^ 16 + (s.reactOf f.code).code * 2 ^ 18 + s.fn * 2 ^ 32 := by
  have hc : (faultClass f.code).code ≤ 2 := by cases faultClass f.code <;> decide
  have hr : (s.reactOf f.code).code ≤ 5 := by cases s.reactOf f.code <;> decide
  have hf : s.fn < 2 ^ 32 := Nat.mod_lt _ (by decide)
  unfold logEntry
  generalize (faultClass f.code).code = c at *
  generalize (s.reactOf f.code).code = r at *
  generalize s.fn = n at *
  omega

/-- The record as it captures a fault, before source 6 (R422). -/
def captured (f : Raise) (s : State) : State :=
  let u := ((recordWho f s).put Reg.FCU_REC_VALID true).wr Reg.FCU_REC_COUNT 0
  let u := (u.wr Reg.FCU_REC2_CLASSES (2 ^ (faultClass f.code).code)).wr Reg.FCU_REC_FN s.fn
  let u := (u.wr Reg.FCU_REC_CTL (s.ctTicks % 2 ^ 32)).wr Reg.FCU_REC_CTH (s.ctTicks / 2 ^ 32)
  setFcu { s.fcu with recAt := some s.time.clk } u

/-- The record as it merges a fault, before source 7 (R423, R424). -/
def merged (f : Raise) (s : State) : State :=
  let u := s.when (s.ranksFirst f) (recordWho f)
  let u := (u.inc Reg.FCU_REC_COUNT).wr Reg.FCU_REC2_CLASSES (orW (u.rd Reg.FCU_REC2_CLASSES) (2 ^ (faultClass f.code).code))
  setFcu { s.fcu with merged := (if s.fcu.mergeAt = s.time.clk then s.fcu.merged else []) ++ [f], mergeAt := s.time.clk } u

theorem recordFault_of_valid (f : Raise) (s : State) (h : s.on Reg.FCU_REC_VALID = true) : recordFault f s = irq 7 (merged f s) := by
  unfold recordFault; rw [if_pos h]
  unfold merged State.when; dsimp only; split <;> rfl

theorem recordFault_of_free (f : Raise) (s : State) (h : s.on Reg.FCU_REC_VALID = false) : recordFault f s = irq 6 (captured f s) := by
  unfold recordFault; rw [if_neg (by simp [h])]; rfl

/-- The six fields that say what the record captured. -/
def whoFlds : List Fld := [Reg.FCU_REC_CODE, Reg.FCU_REC_CLASS, Reg.FCU_REC_REACT, Reg.FCU_REC2_MASTER, Reg.FCU_REC2_ACC, Reg.FCU_REC_ADDR]

theorem recordWho_rd_ne (f : Raise) (s : State) (g : Fld) (hg : ∀ h ∈ whoFlds, h.key ≠ g.key) : (recordWho f s).rd g = s.rd g := by
  simp only [whoFlds, List.forall_mem_cons, List.not_mem_nil, false_implies, implies_true, and_true] at hg
  obtain ⟨h1, h2, h3, h4, h5, h6⟩ := hg
  simp only [recordWho, State.rd_wr, h1, h2, h3, h4, h5, h6, if_false]

/-- What the six fields say of a fault, its reaction in force r (R422). -/
def RecordNames (f : Raise) (r : React) (t : State) : Prop :=
  t.rd Reg.FCU_REC_CODE = f.code % 2 ^ 16 ∧ t.rd Reg.FCU_REC_CLASS = (faultClass f.code).code ∧ t.rd Reg.FCU_REC_REACT = r.code ∧
    t.rd Reg.FCU_REC2_MASTER = f.master % 16 ∧ t.rd Reg.FCU_REC2_ACC = f.acc % 4 ∧ t.rd Reg.FCU_REC_ADDR = f.addr % 2 ^ 32

theorem recordWho_names (f : Raise) (s : State) : RecordNames f (s.reactOf f.code) (recordWho f s) := by
  have hc : (faultClass f.code).code < 4 := by cases faultClass f.code <;> decide
  have hr : (s.reactOf f.code).code < 8 := by cases s.reactOf f.code <;> decide
  have hr' : ∀ u v : Fld, ∀ x y, ((s.wr u x).wr v y).reactOf f.code = s.reactOf f.code := fun _ _ _ _ => rfl
  refine ⟨?_, ?_, ?_, ?_, ?_, ?_⟩ <;>
    simp [recordWho, State.rd_wr, hr', Reg.FCU_REC_CODE, Reg.FCU_REC_CLASS, Reg.FCU_REC_REACT, Reg.FCU_REC2_MASTER, Reg.FCU_REC2_ACC,
      Reg.FCU_REC_ADDR]
  · exact hc
  · exact hr

/-- A field of the first-error record. -/
def Fld.ofRecord (f : Fld) : Bool := decide (Reg.FCU_REC_CODE.key ≤ f.key) && decide (f.key < Reg.FCU_LOGWP_WP.key)

theorem Fld.ofRecord_key_ne (f g : Fld) (hf : Fld.ofRecord f = true) (hg : Fld.ofRecord g = false) : f.key ≠ g.key := by
  intro e; rw [Fld.ofRecord, e] at hf; rw [Fld.ofRecord, hf] at hg; cases hg

theorem recordWho_rd_outside (f : Raise) (s : State) (g : Fld) (hg : Fld.ofRecord g = false) : (recordWho f s).rd g = s.rd g :=
  recordWho_rd_ne f s g fun h hh => Fld.ofRecord_key_ne h g (by revert h; decide) hg

/-- The fields the capture writes beside those of `whoFlds`. -/
def whenFlds : List Fld := [Reg.FCU_REC_VALID, Reg.FCU_REC_COUNT, Reg.FCU_REC2_CLASSES, Reg.FCU_REC_FN, Reg.FCU_REC_CTL, Reg.FCU_REC_CTH]

theorem captured_rd_ne (f : Raise) (s : State) (g : Fld) (hg : ∀ h ∈ whenFlds, h.key ≠ g.key) :
    (captured f s).rd g = (recordWho f s).rd g := by
  simp only [whenFlds, List.forall_mem_cons, List.not_mem_nil, false_implies, implies_true, and_true] at hg
  obtain ⟨h1, h2, h3, h4, h5, h6⟩ := hg
  simp only [captured, State.put, State.rd_setFcu, State.rd_wr, h1, h2, h3, h4, h5, h6, if_false]

theorem captured_rd_outside (f : Raise) (s : State) (g : Fld) (hg : Fld.ofRecord g = false) : (captured f s).rd g = s.rd g :=
  (captured_rd_ne f s g fun h hh => Fld.ofRecord_key_ne h g (by revert h; decide) hg).trans (recordWho_rd_outside f s g hg)

theorem merged_rd_outside (f : Raise) (s : State) (g : Fld) (hg : Fld.ofRecord g = false) : (merged f s).rd g = s.rd g := by
  have ne : ∀ k, Fld.ofRecord k = true → k.key ≠ g.key := fun k hk => Fld.ofRecord_key_ne k g hk hg
  simp only [merged, State.rd_setFcu, State.inc, State.add, State.rd_wr, if_neg (ne _ (by decide : Fld.ofRecord Reg.FCU_REC_COUNT = true)),
    if_neg (ne _ (by decide : Fld.ofRecord Reg.FCU_REC2_CLASSES = true))]
  unfold State.when; split
  · exact recordWho_rd_outside f s g hg
  · rfl

/-- A field outside the first-error record and the registers of reports is left alone. -/
theorem recordFault_rd (f : Raise) (s : State) (g : Fld) (hg : Fld.ofRecord g = false) (hr : Fld.ofReports g = false) :
    (recordFault f s).rd g = s.rd g := by
  cases h : s.on Reg.FCU_REC_VALID with
  | true => rw [recordFault_of_valid f s h, (Reports.irq 7 (by decide) _).rd g hr, merged_rd_outside f s g hg]
  | false => rw [recordFault_of_free f s h, (Reports.irq 6 (by decide) _).rd g hr, captured_rd_outside f s g hg]

theorem recordFault_dev (f : Raise) (s : State) : (recordFault f s).dev = s.dev := by
  cases h : s.on Reg.FCU_REC_VALID with
  | true =>
    rw [recordFault_of_valid f s h, (Reports.irq 7 (by decide) _).dev, merged, setFcu_dev, State.wr_dev, State.inc, State.add, State.wr_dev]
    unfold State.when; split <;> rfl
  | false => rw [recordFault_of_free f s h, (Reports.irq 6 (by decide) _).dev]; rfl

/-- Of the fault unit only the record's own notes and the list of consequences change. -/
theorem recordFault_fcu (f : Raise) (s : State) : (recordFault f s).fcu = { s.fcu with
    todo := (recordFault f s).fcu.todo, recAt := (recordFault f s).fcu.recAt, merged := (recordFault f s).fcu.merged,
    mergeAt := (recordFault f s).fcu.mergeAt } := by
  cases h : s.on Reg.FCU_REC_VALID with
  | true => rw [recordFault_of_valid f s h, (Reports.irq 7 (by decide) _).fcu]; rfl
  | false => rw [recordFault_of_free f s h, (Reports.irq 6 (by decide) _).fcu]; rfl

theorem faultClass_code_of_visible (f : Raise) (h : f.visible = true) : (faultClass f.code).code < 2 := by
  unfold Raise.visible at h
  cases hc : faultClass f.code <;> simp_all [FClass.code]

theorem RecordNames.congr {f : Raise} {r : React} {s t : State} (h : RecordNames f r s) (e : ∀ g ∈ whoFlds, t.rd g = s.rd g) :
    RecordNames f r t := by
  simp only [whoFlds, List.forall_mem_cons, List.not_mem_nil, false_implies, implies_true, and_true] at e
  obtain ⟨e1, e2, e3, e4, e5, e6⟩ := e
  rwa [RecordNames, e1, e2, e3, e4, e5, e6]

theorem ctTicks_lt (s : State) : s.ctTicks < 2 ^ 64 := by
  have := (s.time.lt + s.time.ofs).isLt
  unfold State.ctTicks State.ct; omega

/-- What a free record captures beside the fault: the frame, the instant, and that it stands for this fault alone (R422). -/
theorem captured_when (f : Raise) (s : State) (hv : f.visible = true) : let u := captured f s
    u.on Reg.FCU_REC_VALID = true ∧ u.rd Reg.FCU_REC_COUNT = 0 ∧ u.rd Reg.FCU_REC2_CLASSES = 2 ^ (faultClass f.code).code ∧
    u.rd Reg.FCU_REC_FN = s.fn ∧ u.rd Reg.FCU_REC_CTH * 2 ^ 32 + u.rd Reg.FCU_REC_CTL = s.ctTicks := by
  have hc := faultClass_code_of_visible f hv
  have hfn : s.fn < 2 ^ 32 := Nat.mod_lt _ (by decide)
  have hct := ctTicks_lt s
  refine ⟨?_, ?_, ?_, ?_, ?_⟩ <;>
    simp [captured, State.on, State.put, State.rd_wr, Reg.FCU_REC_VALID, Reg.FCU_REC_COUNT, Reg.FCU_REC2_CLASSES, Reg.FCU_REC_FN,
      Reg.FCU_REC_CTL, Reg.FCU_REC_CTH]
  · generalize (faultClass f.code).code = c at hc ⊢
    interval_cases c <;> decide
  · exact hfn
  · omega

/-- A free record captures the fault (R422). -/
theorem recordFault_free (f : Raise) (s : State) (hv : f.visible = true) (h : s.on Reg.FCU_REC_VALID = false) :
    let t := recordFault f s
    RecordNames f (s.reactOf f.code) t ∧ t.on Reg.FCU_REC_VALID = true ∧ t.rd Reg.FCU_REC_COUNT = 0 ∧
    t.rd Reg.FCU_REC2_CLASSES = 2 ^ (faultClass f.code).code ∧ t.rd Reg.FCU_REC_FN = s.fn ∧
    t.rd Reg.FCU_REC_CTH * 2 ^ 32 + t.rd Reg.FCU_REC_CTL = s.ctTicks ∧ t.fcu.recAt = some s.time.clk ∧ t.pends 6 = true := by
  have hirq := Reports.irq 6 (by decide) (captured f s)
  obtain ⟨hvalid, hcount, hclasses, hfn, hct⟩ := captured_when f s hv
  dsimp only
  rw [recordFault_of_free f s h, State.on, hirq.rd Reg.FCU_REC_VALID (by decide), hirq.rd Reg.FCU_REC_COUNT (by decide),
    hirq.rd Reg.FCU_REC2_CLASSES (by decide), hirq.rd Reg.FCU_REC_FN (by decide), hirq.rd Reg.FCU_REC_CTH (by decide),
    hirq.rd Reg.FCU_REC_CTL (by decide), hirq.fcu]
  refine ⟨(recordWho_names f s).congr fun g hg => ?_, hvalid, hcount, hclasses, hfn, hct, rfl, irq_pend _ 6 (by decide)⟩
  exact (hirq.rd g (by revert g; decide)).trans (captured_rd_ne f s g (by revert g; decide))

/-- A record that has captured a fault merges the next one, and names it where it ranks first among those of the clock of the
capture (R423, R424). -/
theorem recordFault_valid (f : Raise) (s : State) (hv : f.visible = true) (h : s.on Reg.FCU_REC_VALID = true) :
    let t := recordFault f s
    (if s.ranksFirst f = true then RecordNames f (s.reactOf f.code) t else ∀ g ∈ whoFlds, t.rd g = s.rd g) ∧
    t.rd Reg.FCU_REC_COUNT = min (s.rd Reg.FCU_REC_COUNT + 1) 255 ∧
    t.rd Reg.FCU_REC2_CLASSES = orW (s.rd Reg.FCU_REC2_CLASSES) (2 ^ (faultClass f.code).code) ∧
    t.rd Reg.FCU_REC_FN = s.rd Reg.FCU_REC_FN ∧ t.fcu.recAt = s.fcu.recAt ∧ t.pends 7 = true := by
  have hirq := Reports.irq 7 (by decide) (merged f s)
  have hwho : ∀ g ∈ whoFlds, (irq 7 (merged f s)).rd g = (s.when (s.ranksFirst f) (recordWho f)).rd g := fun g hg =>
    (hirq.rd g (by revert g; decide)).trans ((State.rd_wr_ne _ _ _ _ (by revert g; decide)).trans
      (State.rd_wr_ne _ _ _ _ (by revert g; decide)))
  have hrest : ∀ g ∈ whenFlds, (s.when (s.ranksFirst f) (recordWho f)).rd g = s.rd g := fun g hg => by
    unfold State.when; split
    · exact recordWho_rd_ne f s g (by revert g; decide)
    · rfl
  have hc := faultClass_code_of_visible f hv
  dsimp only
  rw [recordFault_of_valid f s h]
  refine ⟨?_, ?_, ?_, ?_, ?_, irq_pend _ 7 (by decide)⟩
  · split
    · rename_i hfirst
      refine (recordWho_names f s).congr fun g hg => (hwho g hg).trans ?_
      rw [State.when, if_pos hfirst]
    · rename_i hfirst
      intro g hg
      rw [hwho g hg, State.when, if_neg hfirst]
  · rw [hirq.rd _ (by decide), merged, State.rd_setFcu, State.rd_wr_ne _ _ _ _ (by decide), State.inc, State.add, State.rd_wr_self,
      hrest _ (by decide)]
    exact Nat.mod_eq_of_lt (Nat.lt_of_le_of_lt (Nat.min_le_right _ _) (by decide))
  · rw [hirq.rd _ (by decide), merged, State.rd_setFcu, State.rd_wr_self, hrest _ (by decide)]
    refine Nat.mod_eq_of_lt (Nat.or_lt_two_pow (State.rd_lt s Reg.FCU_REC2_CLASSES) ?_)
    exact Nat.pow_lt_pow_right (by decide) hc
  · rw [hirq.rd _ (by decide), merged, State.rd_setFcu, State.rd_wr_ne _ _ _ _ (by decide), State.inc, State.add,
      State.rd_wr_ne _ _ _ _ (by decide), hrest _ (by decide)]
  · rw [hirq.fcu]; rfl

/-! ### What the stages before the reaction leave -/

/-- `t` is `s` as far as the reaction of a fault depends on it and changes it: device state, role, claim, requests. -/
structure KeepsDevice (s t : State) : Prop where
  dev : t.dev = s.dev
  role : t.role = s.role
  claim : t.rd Reg.SEAM_CLAIM_CLAIM = s.rd Reg.SEAM_CLAIM_CLAIM
  supReq : t.fcu.supReq = s.fcu.supReq

theorem KeepsDevice.refl (s : State) : KeepsDevice s s := ⟨rfl, rfl, rfl, rfl⟩

theorem KeepsDevice.trans {s t u : State} (h : KeepsDevice s t) (g : KeepsDevice t u) : KeepsDevice s u :=
  ⟨g.dev.trans h.dev, g.role.trans h.role, g.claim.trans h.claim, g.supReq.trans h.supReq⟩

theorem KeepsDevice.when {s t : State} (c : Bool) (f : State → State) (h : KeepsDevice s t) (g : KeepsDevice t (f t)) :
    KeepsDevice s (t.when c f) := by
  unfold State.when; split
  · exact h.trans g
  · exact h

theorem Reports.keepsDevice {s t : State} (h : Reports s t) : KeepsDevice s t := ⟨h.dev, h.role, h.claim, by rw [h.fcu]⟩

theorem KeepsDevice.logFault (f : Raise) (s : State) : KeepsDevice s (logFault f s) :=
  ⟨logFault_dev f s, logFault_rd f s _ (by decide) (by decide), logFault_rd f s _ (by decide) (by decide), by rw [logFault_fcu]⟩

theorem KeepsDevice.recordFault (f : Raise) (s : State) : KeepsDevice s (recordFault f s) :=
  ⟨recordFault_dev f s, recordFault_rd f s _ (by decide) (by decide), recordFault_rd f s _ (by decide) (by decide),
    by rw [recordFault_fcu]⟩

theorem KeepsDevice.recorded (f : Raise) (s : State) : KeepsDevice s (recorded f s) :=
  .when _ _ (.when _ _ ⟨rfl, rfl, rfl, rfl⟩ (.logFault f _)) (.recordFault f _)

theorem notified_reports (f : Raise) (r : React) (held : Bool) (s : State) : Reports s (notified f r held s) := by
  unfold notified; dsimp only
  have h := fun c0 c1 c2 c3 => Reports.when (s := s) c3 _ (.when c2 _ (.when c1 _ (.when c0 _ (.refl s) (.postEvent 2 [f.code] _))
    (.irq 0 (by decide) _)) (.irq 4 (by decide) _)) (.irq 5 (by decide) _)
  split
  · rename_i src hsrc
    exact (h _ _ _ _).trans (.irq src (blockFaultIrq_lt _ _ hsrc) _)
  · exact h _ _ _ _

theorem KeepsDevice.fltStop (s : State) : KeepsDevice s (fltStop s) :=
  ⟨rfl, fltStop_rd s _ (by decide) (by decide), fltStop_rd s _ (by decide) (by decide), rfl⟩

theorem KeepsDevice.signalled (f : Raise) (s : State) : KeepsDevice s (signalled f s) :=
  .when _ _ (.when _ _ (.when _ _ (.refl s) (.fltStop s)) (Reports.almEvent _ _ _).keepsDevice) (Reports.almEvent _ _ _).keepsDevice

theorem KeepsDevice.beforeReaction (f : Raise) (s : State) : KeepsDevice s (beforeReaction f s) :=
  ((KeepsDevice.recorded f s).trans (notified_reports ..).keepsDevice).trans (.signalled _ _)

/-! ### What follows the record -/

/-- A field of the first-error record or the fault log. -/
def Fld.ofHistory (f : Fld) : Bool := decide (Reg.FCU_REC_CODE.key ≤ f.key) && decide (f.key < 0x40110000 * 8)

/-- `t` follows `s` in the raise of a fault once it is recorded: record, log and what the fault unit holds and counts stand, and
error pins that are low stay low. -/
structure FollowsRecord (s t : State) : Prop where
  rd : ∀ f, Fld.ofHistory f = true → t.rd f = s.rd f
  fcu : t.fcu = { s.fcu with
    todo := t.fcu.todo, fltOn := t.fcu.fltOn, fltP := t.fcu.fltP, fltN := t.fcu.fltN, leeEntry := t.fcu.leeEntry,
    leeKept := t.fcu.leeKept, leeExit := t.fcu.leeExit, leeWarned := t.fcu.leeWarned, supReq := t.fcu.supReq, supSo := t.fcu.supSo }
  pins : s.on Reg.FCU_STAT_FLT_P = false ∧ s.on Reg.FCU_STAT_FLT_N = false ∧ s.fcu.fltOn = false →
    t.on Reg.FCU_STAT_FLT_P = false ∧ t.on Reg.FCU_STAT_FLT_N = false ∧ t.fcu.fltOn = false

theorem FollowsRecord.refl (s : State) : FollowsRecord s s := ⟨fun _ _ => rfl, rfl, id⟩

theorem FollowsRecord.trans {s t u : State} (h : FollowsRecord s t) (g : FollowsRecord t u) : FollowsRecord s u where
  rd f hf := (g.rd f hf).trans (h.rd f hf)
  fcu := by rw [g.fcu, h.fcu]
  pins := g.pins ∘ h.pins

theorem FollowsRecord.when {s t : State} (c : Bool) (f : State → State) (h : FollowsRecord s t) (g : FollowsRecord t (f t)) :
    FollowsRecord s (t.when c f) := by
  unfold State.when; split
  · exact h.trans g
  · exact h

theorem Fld.ofHistory_not_reports (f : Fld) (h : Fld.ofHistory f = true) : Fld.ofReports f = false := by
  have hr : Reg.FCU_REC_CODE.key = 8598323712 := by decide
  simp only [Fld.ofHistory, hr, Bool.and_eq_true, decide_eq_true_eq] at h
  have hb : f.key / 0x80000 = 0x4010 := by omega
  rw [Fld.ofReports, hb]; decide

theorem Reports.followsRecord {s t : State} (h : Reports s t) : FollowsRecord s t where
  rd f hf := h.rd f (Fld.ofHistory_not_reports f hf)
  fcu := by rw [h.fcu]
  pins hs := by
    rw [State.on, State.on, h.rd _ (by decide), h.rd _ (by decide), h.fcu]; exact hs

/-- A write of another field, beside the pins. -/
theorem FollowsRecord.wr (s : State) (f : Fld) (v : Nat) (hf : Fld.ofHistory f = false) (hp : f.key ≠ Reg.FCU_STAT_FLT_P.key)
    (hn : f.key ≠ Reg.FCU_STAT_FLT_N.key) : FollowsRecord s (s.wr f v) where
  rd g hg := State.rd_wr_ne _ _ _ _ fun e => by rw [Fld.ofHistory, e] at hf; rw [Fld.ofHistory, hf] at hg; cases hg
  fcu := rfl
  pins hs := by rwa [State.on, State.on, State.rd_wr_ne _ _ _ _ hp, State.rd_wr_ne _ _ _ _ hn]

theorem FollowsRecord.inc (s : State) (f : Fld) (hf : Fld.ofHistory f = false) (hp : f.key ≠ Reg.FCU_STAT_FLT_P.key)
    (hn : f.key ≠ Reg.FCU_STAT_FLT_N.key) : FollowsRecord s (s.inc f) := .wr s f _ hf hp hn

theorem FollowsRecord.devOut (s : State) (d : DevSt) (o : SMap OutSt) : FollowsRecord s { s with dev := d, out := o } :=
  ⟨fun _ _ => rfl, rfl, id⟩

/-- The Lee timer and the requests of the supervisor change. -/
theorem FollowsRecord.leeReq (s : State) (entry leaving : Option Nat) (kept req : Nat) (warned so : Bool) :
    FollowsRecord s { s with fcu := { s.fcu with
      leeEntry := entry, leeKept := kept, leeExit := leaving, leeWarned := warned, supReq := req, supSo := so } } :=
  ⟨fun _ _ => rfl, rfl, id⟩

theorem fltStop_pins (s : State) : (fltStop s).on Reg.FCU_STAT_FLT_P = false ∧ (fltStop s).on Reg.FCU_STAT_FLT_N = false ∧
    (fltStop s).fcu.fltOn = false := by
  have hp : (fltStop s).rd Reg.FCU_STAT_FLT_P = 0 :=
    (State.rd_wr_ne (s.put Reg.FCU_STAT_FLT_P false) Reg.FCU_STAT_FLT_N _ 0 (by decide)).trans (State.rd_wr_self s _ 0)
  have hn : (fltStop s).rd Reg.FCU_STAT_FLT_N = 0 := State.rd_wr_self (s.put Reg.FCU_STAT_FLT_P false) Reg.FCU_STAT_FLT_N 0
  exact ⟨by rw [State.on, hp]; rfl, by rw [State.on, hn]; rfl, rfl⟩

theorem FollowsRecord.fltStop (s : State) : FollowsRecord s (fltStop s) where
  rd f hf := by
    have ne : ∀ g : Fld, Fld.ofHistory g = false → f.key ≠ g.key := fun g hg e => by
      rw [Fld.ofHistory, e] at hf; rw [Fld.ofHistory, hf] at hg; cases hg
    exact fltStop_rd s f (ne _ (by decide)) (ne _ (by decide))
  fcu := rfl
  pins _ := fltStop_pins s

theorem FollowsRecord.signalled (f : Raise) (s : State) : FollowsRecord s (signalled f s) :=
  .when _ _ (.when _ _ (.when _ _ (.refl s) (.fltStop s)) (Reports.almEvent _ _ _).followsRecord) (Reports.almEvent _ _ _).followsRecord

theorem FollowsRecord.toDevRole (s : State) (st : DevState) (role : Nat) : FollowsRecord s (s.toDevRole st role) := by
  refine .when _ _ (.when _ _ ?_ (.wr _ _ _ (by decide) (by decide) (by decide))) (.fltStop _)
  exact (FollowsRecord.wr s _ role (by decide) (by decide) (by decide)).trans (.devOut _ _ (State.out _))

theorem FollowsRecord.setDevRole (st : DevState) (role : Nat) (s : State) : FollowsRecord s (setDevRole st role s) := by
  by_cases h : s.dev.state = st ∧ s.role = role
  · rw [setDevRole_same st role s h]; exact .refl s
  · exact (FollowsRecord.toDevRole s st role).trans (setDevRole_reports st role s h).followsRecord

theorem FollowsRecord.enterLee (s : State) : FollowsRecord s (enterLee s) := by
  unfold Machine.enterLee; split
  · refine FollowsRecord.trans ?_ ((Reports.irq 1 (by decide) _).trans (.almEvent 2 0 _)).followsRecord
    refine FollowsRecord.trans ?_ (.inc _ _ (by decide) (by decide) (by decide))
    exact (FollowsRecord.leeReq s _ _ _ _ _ _).trans (.setDevRole _ _ _)
  · exact .refl s

theorem FollowsRecord.leaveLee (s : State) : FollowsRecord s (leaveLee s) := by
  unfold Machine.leaveLee; split
  · exact (FollowsRecord.leeReq s _ _ _ _ _ _).trans (Reports.irq 9 (by decide) _).followsRecord
  · exact .refl s

theorem FollowsRecord.safeLegs (n : Nat) (s : State) : FollowsRecord s (safeLegs n s) := by
  unfold Machine.safeLegs; split
  · exact .refl s
  · exact .devOut s s.dev _

theorem FollowsRecord.each (l : List Nat) (f : Nat → State → State) (h : ∀ i s, FollowsRecord s (f i s)) (s : State) :
    FollowsRecord s (s.each l f) := by
  unfold State.each
  induction l generalizing s with
  | nil => exact .refl s
  | cons i l ih => exact (h i s).trans (ih _)

theorem FollowsRecord.requestSafe (axes : Nat) (s : State) : FollowsRecord s (requestSafe axes s) :=
  (FollowsRecord.each _ Machine.safeLegs (fun i s => .safeLegs i s) s).trans (.leeReq _ _ _ _ _ _ _)

theorem FollowsRecord.enterSafe (s : State) : FollowsRecord s (enterSafe s) := by
  unfold Machine.enterSafe; dsimp only; split
  · exact .refl s
  · have h := fun en le ke re wa so => (FollowsRecord.each (List.range 8) Machine.safeLegs (fun i s => .safeLegs i s) s).trans
      (.leeReq _ en le ke re wa so)
    split
    · refine FollowsRecord.trans ?_ ((Reports.irq 3 (by decide) _).trans (.almEvent 3 0 _)).followsRecord
      exact (((h _ _ _ _ _ _).trans (.leaveLee _)).trans (.fltStop _)).trans (.setDevRole _ _ _)
    · exact h _ _ _ _ _ _

theorem FollowsRecord.applyLeeCause (s : State) : FollowsRecord s (applyLeeCause s) := by
  unfold Machine.applyLeeCause; split
  · exact .refl s
  · split
    · exact .enterLee s
    · exact .when _ _ (.refl s) (.setDevRole _ _ s)
    · exact .refl s

theorem FollowsRecord.takeReaction (f : Raise) (r : React) (s : State) : FollowsRecord s (takeReaction f r s) := by
  unfold Machine.takeReaction; dsimp only; split
  · exact .refl s
  · split
    · exact .refl s
    · exact .refl s
    · exact .applyLeeCause s
    · exact .requestSafe _ s
    · exact .enterSafe s
    · exact (FollowsRecord.enterSafe s).trans (.devOut _ _ (State.out _))

/-! ### What a reaction does -/

theorem State.toDevRole_dev (s : State) (st : DevState) (role : Nat) : (s.toDevRole st role).dev = { s.dev with state := st } := by
  unfold State.toDevRole State.when
  (repeat' split) <;> rfl

theorem State.toDevRole_request (s : State) (st : DevState) (role : Nat) :
    (s.toDevRole st role).fcu.supReq = s.fcu.supReq ∧ (s.toDevRole st role).fcu.supSo = s.fcu.supSo := by
  unfold State.toDevRole State.when
  (repeat' split) <;> exact ⟨rfl, rfl⟩

/-- The pins are no part of what a field elsewhere reads. -/
theorem rd_when_fltStop (s : State) (c : Bool) (f : Fld) (hp : f.key ≠ Reg.FCU_STAT_FLT_P.key) (hn : f.key ≠ Reg.FCU_STAT_FLT_N.key) :
    (s.when c fltStop).rd f = s.rd f := by
  unfold State.when; split
  · exact fltStop_rd s f hp hn
  · rfl

theorem State.toDevRole_role (s : State) (st : DevState) (role : Nat) (h : role < 4) : (s.toDevRole st role).role = role := by
  have hwritten : ∀ d : DevSt, ({ s.wr Reg.SEAM_STAT_ROLE role with dev := d } : State).rd Reg.SEAM_STAT_ROLE = role := fun d =>
    (State.rd_wr_self s Reg.SEAM_STAT_ROLE role).trans (Nat.mod_eq_of_lt h)
  unfold State.toDevRole State.role
  rw [rd_when_fltStop _ _ _ (by decide) (by decide)]
  unfold State.when; split
  · exact (State.rd_wr_ne _ _ _ _ (by decide)).trans (hwritten _)
  · exact hwritten _

theorem State.toDevRole_claim (s : State) (st : DevState) (role : Nat) (h : role = roleOFFLINE ∨ role = roleOBSERVER) :
    (s.toDevRole st role).rd Reg.SEAM_CLAIM_CLAIM = 0 := by
  unfold State.toDevRole
  rw [rd_when_fltStop _ _ _ (by decide) (by decide), State.when, if_pos (by simpa using h)]
  exact State.rd_wr_self _ _ 0

theorem setDevRole_dev (st : DevState) (role : Nat) (s : State) : (setDevRole st role s).dev = { s.dev with state := st } := by
  by_cases h : s.dev.state = st ∧ s.role = role
  · rw [setDevRole_same st role s h, ← h.1]
  · rw [(setDevRole_reports st role s h).dev, State.toDevRole_dev]

theorem setDevRole_role (st : DevState) (role : Nat) (s : State) (hr : role < 4) : (setDevRole st role s).role = role := by
  by_cases h : s.dev.state = st ∧ s.role = role
  · rw [setDevRole_same st role s h, h.2]
  · rw [(setDevRole_reports st role s h).role, State.toDevRole_role s st role hr]

theorem setDevRole_claim (st : DevState) (role : Nat) (s : State) (h : ¬ (s.dev.state = st ∧ s.role = role))
    (hr : role = roleOFFLINE ∨ role = roleOBSERVER) : (setDevRole st role s).rd Reg.SEAM_CLAIM_CLAIM = 0 := by
  rw [(setDevRole_reports st role s h).claim, State.toDevRole_claim s st role hr]

theorem setDevRole_request (st : DevState) (role : Nat) (s : State) :
    (setDevRole st role s).fcu.supReq = s.fcu.supReq ∧ (setDevRole st role s).fcu.supSo = s.fcu.supSo := by
  by_cases h : s.dev.state = st ∧ s.role = role
  · rw [setDevRole_same st role s h]; exact ⟨rfl, rfl⟩
  · rw [(setDevRole_reports st role s h).fcu]; exact State.toDevRole_request s st role

theorem enterLee_state (s : State) (h : s.dev.state = .active) : (enterLee s).dev.state = .lee := by
  unfold enterLee; rw [if_pos h]; dsimp only
  rw [((Reports.irq 1 (by decide) _).trans (.almEvent 2 0 _)).dev]
  exact congrArg DevSt.state (setDevRole_dev .lee _ _)

theorem leaveLee_dev (s : State) : (leaveLee s).dev = s.dev := by
  unfold leaveLee; split
  · exact (Reports.irq 9 (by decide) _).dev
  · rfl

theorem leaveLee_request (s : State) : (leaveLee s).fcu.supReq = s.fcu.supReq ∧ (leaveLee s).fcu.supSo = s.fcu.supSo := by
  unfold leaveLee; split
  · rw [(Reports.irq 9 (by decide) _).fcu]; exact ⟨rfl, rfl⟩
  · exact ⟨rfl, rfl⟩

/-- Moving legs to the safe pattern changes the outputs only. -/
theorem each_safeLegs (l : List Nat) (s : State) : s.each l safeLegs = { s with out := (s.each l safeLegs).out } := by
  unfold State.each
  induction l generalizing s with
  | nil => rfl
  | cons n l ih =>
    have h : safeLegs n s = { s with out := (safeLegs n s).out } := by unfold safeLegs; split <;> rfl
    rw [List.foldl_cons, ih, h]

theorem fltStop_leaveLee_request (s : State) :
    (fltStop (leaveLee s)).fcu.supReq = s.fcu.supReq ∧ (fltStop (leaveLee s)).fcu.supSo = s.fcu.supSo := leaveLee_request s

theorem requestSafe_dev (axes : Nat) (s : State) : (requestSafe axes s).dev = s.dev := by
  unfold requestSafe; rw [each_safeLegs]

theorem tb_eq_testBit (v n : Nat) : tb v n = v.testBit n := by
  rw [Nat.testBit_eq_decide_div_mod_eq]; rfl

theorem requestSafe_request (axes : Nat) (s : State) (n : Nat) (hn : n < 8) (h : tb axes n = true) :
    tb (requestSafe axes s).fcu.supReq n = true := by
  have hlow : tb (axes % 2 ^ 8) n = true := by
    rw [tb_eq_testBit] at h
    rw [tb_eq_testBit, Nat.testBit_mod_two_pow, h]
    simpa using hn
  show tb (orW _ (axes % 2 ^ 8)) n = true
  rw [tb_orW, hlow, Bool.or_true]

/-- The requests that entering SAFE takes, for every axis and against every safe output (R414). -/
def State.allRequested (s : State) : State :=
  let u := s.each (List.range 8) safeLegs
  { u with fcu := { u.fcu with supReq := 0xFF, supSo := true } }

theorem enterSafe_stays (s : State) (hr : s.dev.state ≠ .replay) (hs : s.dev.state = .safe) : enterSafe s = s.allRequested := by
  unfold enterSafe; rw [if_neg hr]; dsimp only; rw [if_neg (by simp [hs])]; rfl

theorem enterSafe_fresh (s : State) (hr : s.dev.state ≠ .replay) (hs : s.dev.state ≠ .safe) :
    enterSafe s = almEvent 3 0 (irq 3 (setDevRole .safe roleOFFLINE (fltStop (leaveLee s.allRequested)))) := by
  unfold enterSafe; rw [if_neg hr]; dsimp only; rw [if_pos (by simp [hs])]; rfl

theorem State.allRequested_dev (s : State) : s.allRequested.dev = s.dev := by
  unfold State.allRequested; rw [each_safeLegs]

theorem State.allRequested_request (s : State) : s.allRequested.fcu.supReq = 0xFF ∧ s.allRequested.fcu.supSo = true := ⟨rfl, rfl⟩

/-- SAFE is entered: every request stands, and a device that was not in SAFE drops role and claim (R29, R414). -/
theorem enterSafe_effect (s : State) (hr : s.dev.state ≠ .replay) : let t := enterSafe s
    t.dev = { s.dev with state := .safe } ∧ t.fcu.supReq = 0xFF ∧ t.fcu.supSo = true ∧
    (s.dev.state ≠ .safe → t.role = roleOFFLINE ∧ t.rd Reg.SEAM_CLAIM_CLAIM = 0) := by
  by_cases hs : s.dev.state = .safe
  · dsimp only
    rw [enterSafe_stays s hr hs]
    exact ⟨by rw [State.allRequested_dev, ← hs], s.allRequested_request.1, s.allRequested_request.2, fun h => absurd hs h⟩
  · dsimp only
    have hrep := fun u => (Reports.irq 3 (by decide) u).trans (.almEvent 3 0 _)
    have hdev : (fltStop (leaveLee s.allRequested)).dev = s.dev :=
      (KeepsDevice.fltStop _).dev.trans ((leaveLee_dev _).trans s.allRequested_dev)
    have hnew : ¬ ((fltStop (leaveLee s.allRequested)).dev.state = .safe ∧ (fltStop (leaveLee s.allRequested)).role = roleOFFLINE) := by
      rw [hdev]; exact fun h => hs h.1
    obtain ⟨hreq, hso⟩ := fltStop_leaveLee_request s.allRequested
    obtain ⟨hall, hso''⟩ := s.allRequested_request
    obtain ⟨hreq', hso'⟩ := setDevRole_request .safe roleOFFLINE (fltStop (leaveLee s.allRequested))
    rw [enterSafe_fresh s hr hs, (hrep _).dev, (hrep _).request.1, (hrep _).request.2, (hrep _).role, (hrep _).claim]
    refine ⟨by rw [setDevRole_dev, hdev], ?_, ?_, fun _ => ⟨setDevRole_role _ _ _ (by decide), setDevRole_claim _ _ _ hnew (.inl rfl)⟩⟩
    · exact hreq'.trans (hreq.trans hall)
    · exact hso'.trans (hso.trans hso'')

theorem SMap.mem_of_get {α : Type} (d : α) (m : SMap α) (k : Nat) (v : α) (h : SMap.get d m k = v) (hv : v ≠ d) : (k, v) ∈ m := by
  induction m with
  | nil => exact absurd h.symm hv
  | cons p m ih =>
    obtain ⟨a, w⟩ := p
    rw [SMap.get] at h
    split at h
    · rename_i e; rw [e, h]; exact List.mem_cons_self ..
    · exact List.mem_cons_of_mem _ (ih h)

/-- A fault held with the reaction Lee is a Lee cause (R415). -/
theorem leeCause_of_held (s : State) (c : Nat) (h : s.heldReact c = some .lee) : s.leeCause = true := by
  have hmem := SMap.mem_of_get none s.fcu.held c _ h (by decide)
  have hany : (s.fcu.held.any fun p => p.2 = some .lee) = true := List.any_eq_true.mpr ⟨_, hmem, by simp⟩
  rw [State.leeCause, hany, Bool.true_or]

theorem applyLeeCause_active (s : State) (hc : s.leeCause = true) (hs : s.dev.state = .active) : (applyLeeCause s).dev.state = .lee := by
  unfold applyLeeCause; rw [hc, hs]; exact enterLee_state s hs

/-- In STANDBY a device of a set, unless it is barred, takes the role OBSERVER (R32, R415). -/
theorem applyLeeCause_standby (s : State) (hc : s.leeCause = true) (hs : s.dev.state = .standby) (hset : s.inSet = true)
    (hbar : s.barred = false) : let t := applyLeeCause s
    t.role = roleOBSERVER ∧ t.dev.state = .standby ∧ (s.role ≠ roleOBSERVER → t.rd Reg.SEAM_CLAIM_CLAIM = 0) := by
  have h : applyLeeCause s = setDevRole s.dev.state roleOBSERVER s := by
    unfold applyLeeCause; rw [hc]
    simp only [Bool.not_true, Bool.false_eq_true, if_false]
    split
    · rename_i e; rw [hs] at e; cases e
    · rw [State.when, hset, hbar]; rfl
    · rename_i e; exact absurd hs e
  dsimp only
  rw [h]
  refine ⟨setDevRole_role _ _ _ (by decide), ?_, fun hr => setDevRole_claim _ _ _ (fun e => hr e.2) (.inr rfl)⟩
  rw [setDevRole_dev, hs]

/-! ### What one raise does -/

theorem noteRaise_regs (f : Raise) (s : State) (g : Fld) : (noteRaise f s).rd g = s.rd g := rfl

theorem recorded_visible (f : Raise) (s : State) (h : f.visible = true) : recorded f s = recordFault f (logFault f (noteRaise f s)) := by
  rw [recorded, h, Bool.true_or, State.when, if_pos rfl, State.when, if_pos rfl]

theorem recorded_hidden (f : Raise) (s : State) (h : f.visible = false) :
    recorded f s = (noteRaise f s).when (s.reported f.code) (logFault f) := by
  rw [recorded, h, Bool.false_or, State.when, if_neg (by decide)]

/-- Recording leaves what the fault unit holds and counts. -/
theorem recorded_fcu (f : Raise) (s : State) : (recorded f s).fcu = { (noteRaise f s).fcu with
    todo := (recorded f s).fcu.todo, recAt := (recorded f s).fcu.recAt, merged := (recorded f s).fcu.merged,
    mergeAt := (recorded f s).fcu.mergeAt } := by
  cases h : f.visible with
  | true => rw [recorded_visible f s h, recordFault_fcu, logFault_fcu]
  | false =>
    rw [recorded_hidden f s h]
    unfold State.when; split
    · rw [logFault_fcu]
    · rfl

/-- The state the record is written in: noted and logged. -/
theorem logged_noted (f : Raise) (s : State) : let u := logFault f (noteRaise f s)
    (∀ g, g.key < Reg.FCU_LOGWP_WP.key → Fld.ofReports g = false → u.rd g = s.rd g) ∧ u.time = s.time ∧ u.fcu.recAt = s.fcu.recAt ∧
    u.reactOf f.code = s.reactOf f.code := by
  refine ⟨fun g hg hr => logFault_rd f (noteRaise f s) g hg hr, (OnlyFaults.logFault f _).time, ?_, ?_⟩
  · rw [logFault_fcu]; rfl
  · rw [State.reactOf, logFault_fcu]; rfl

theorem logged_noted_ranksFirst (f : Raise) (s : State) : (logFault f (noteRaise f s)).ranksFirst f = s.ranksFirst f := by
  obtain ⟨hrd, htime, hat, -⟩ := logged_noted f s
  rw [State.ranksFirst, hat, htime, hrd _ (by decide) (by decide), hrd _ (by decide) (by decide)]; rfl

/-- What recording leaves in the log: the entry, or the log of before (R426). -/
theorem recorded_log (f : Raise) (s : State) (g : Fld) (hg : Fld.ofHistory g = true) (hrec : Fld.ofRecord g = false) :
    (recorded f s).rd g = if f.visible = true ∨ s.reported f.code = true then (logFault f (noteRaise f s)).rd g else s.rd g := by
  have hr := Fld.ofHistory_not_reports g hg
  cases hv : f.visible with
  | true => rw [recorded_visible f s hv, recordFault_rd f _ g hrec hr, if_pos (.inl rfl)]
  | false =>
    rw [recorded_hidden f s hv]
    cases hrep : s.reported f.code with
    | true => rw [if_pos (.inr rfl)]; rfl
    | false => rw [if_neg (by decide)]; rfl

theorem signalled_pins (f : Raise) (s : State) (h : faultClass f.code = .s) : (signalled f s).on Reg.FCU_STAT_FLT_P = false ∧
    (signalled f s).on Reg.FCU_STAT_FLT_N = false ∧ (signalled f s).fcu.fltOn = false := by
  have hstop : s.when (decide (faultClass f.code = .s)) fltStop = fltStop s := by rw [h]; rfl
  have hafter : FollowsRecord (fltStop s) (signalled f s) := by
    unfold signalled; dsimp only; rw [hstop]
    exact .when _ _ (.when _ _ (.refl _) (Reports.almEvent _ _ _).followsRecord) (Reports.almEvent _ _ _).followsRecord
  exact hafter.pins (fltStop_pins s)

theorem OnlyFaults.signalled (f : Raise) (s : State) : OnlyFaults s (signalled f s) :=
  .when _ _ (.when _ _ (.when _ _ (.refl s) (.fltStop s)) (.almEvent _ _ _)) (.almEvent _ _ _)

/-- The event of the fault, before the interrupt events. -/
def posted (f : Raise) (held : Bool) (s : State) : State :=
  s.when ((f.visible && ! held) || (! f.visible && s.reported f.code)) (postEvent 2 [f.code])

theorem OnlyFaults.blockIrq (code : Nat) (s : State) :
    OnlyFaults s (match blockFaultIrq code with | some src => Machine.irq src s | none => s) := by
  split
  · rename_i src h; exact .irq s src (blockFaultIrq_lt _ _ h)
  · exact .refl s

/-- The sources of the fault unit a raise sets: 0 for class S, 4 for class M, 5 for any reaction (R425). -/
theorem notified_pends (f : Raise) (r : React) (held : Bool) (s : State) : let t := notified f r held s
    OnlyFaults s t ∧ (faultClass f.code = .s → t.pends 0 = true) ∧ (faultClass f.code = .m → t.pends 4 = true) ∧
    (r ≠ .none → t.pends 5 = true) := by
  have hpost : OnlyFaults s (posted f held s) := .when _ _ (.refl s) (.postEvent _ _ _)
  have h0 : ∀ u : State, OnlyFaults u (u.when (faultClass f.code = .s) (irq 0)) := fun u => .when _ _ (.refl u) (.irq _ 0 (by decide))
  have h4 : ∀ u : State, OnlyFaults u (u.when (faultClass f.code = .m) (irq 4)) := fun u => .when _ _ (.refl u) (.irq _ 4 (by decide))
  have h5 : ∀ u : State, OnlyFaults u (u.when (r ≠ .none) (irq 5)) := fun u => .when _ _ (.refl u) (.irq _ 5 (by decide))
  have hset : ∀ (u : State) (c : Prop) [Decidable c] (src : Nat), src < 256 → c → (u.when c (irq src)).pends src = true := by
    intro u c _ src hsrc hc
    rw [State.when, if_pos (by simpa using hc)]; exact irq_pend u src hsrc
  have hlast := OnlyFaults.blockIrq f.code
  refine ⟨((((hpost.trans (h0 _)).trans (h4 _)).trans (h5 _)).trans (hlast _)), fun hc => ?_, fun hc => ?_, fun hc => ?_⟩
  · exact (((h4 _).trans (h5 _)).trans (hlast _)).pends 0 (by decide) (hset _ _ 0 (by decide) hc)
  · exact ((h5 _).trans (hlast _)).pends 4 (by decide) (hset _ _ 4 (by decide) hc)
  · exact (hlast _).pends 5 (by decide) (hset _ _ 5 (by decide) hc)

section
variable {f : Raise} {s : State} (hnew : (oncePerFrame f.code && SMap.get false s.fcu.seen f.code) = false)
include hnew

theorem raise1_followsRecord : FollowsRecord (recorded f s) (raise1 f s) := by
  rw [raise1_stages f s hnew]
  exact ((notified_reports ..).followsRecord.trans (.signalled _ _)).trans (.takeReaction _ _ _)

/-- The interrupt events of the fault unit are pending after the raise, and what was pending once it was recorded still is. -/
theorem raise1_pends : OnlyFaults (recorded f s) (raise1 f s) ∧ (faultClass f.code = .s → (raise1 f s).pends 0 = true) ∧
    (faultClass f.code = .m → (raise1 f s).pends 4 = true) ∧ (s.reactOf f.code ≠ .none → (raise1 f s).pends 5 = true) := by
  obtain ⟨hfaults, h0, h4, h5⟩ := notified_pends f (s.reactOf f.code) (s.isHeld f.code) (recorded f s)
  rw [raise1_stages f s hnew]
  have hafter := (OnlyFaults.signalled f (notified f (s.reactOf f.code) (s.isHeld f.code) (recorded f s))).trans
    (.takeReaction f (s.reactOf f.code) _)
  exact ⟨hfaults.trans hafter, fun h => hafter.pends 0 (by decide) (h0 h), fun h => hafter.pends 4 (by decide) (h4 h),
    fun h => hafter.pends 5 (by decide) (h5 h)⟩

/-- What a raise notes stands after it. -/
theorem raise1_notes : let t := raise1 f s; let n := (noteRaise f s).fcu
    t.fcu.count = n.count ∧ t.fcu.lastFn = n.lastFn ∧ t.fcu.held = n.held ∧ t.fcu.axes = n.axes := by
  dsimp only
  rw [(raise1_followsRecord hnew).fcu, recorded_fcu]
  exact ⟨rfl, rfl, rfl, rfl⟩

/-- COUNT and LASTFN of the source (R409). -/
theorem raise1_counts : SMap.get 0 (raise1 f s).fcu.count f.code = min (SMap.get 0 s.fcu.count f.code + 1) 255 ∧
    SMap.get 0 (raise1 f s).fcu.lastFn f.code = s.fn % 2 ^ 16 := by
  obtain ⟨hcount, hlast, -, -⟩ := raise1_notes hnew
  rw [hcount, hlast]
  exact ⟨by simp [noteRaise], by simp [noteRaise]⟩

/-- Class S and M are held with their reaction and their axes, class I never, and other faults as before (R409, R415). -/
theorem raise1_holds :
    (faultClass f.code ≠ .i → (raise1 f s).heldReact f.code = some (s.reactOf f.code) ∧ SMap.get 0 (raise1 f s).fcu.axes f.code = f.axes) ∧
    (faultClass f.code = .i → (raise1 f s).fcu.held = s.fcu.held) ∧ ∀ c, c ≠ f.code → (raise1 f s).heldReact c = s.heldReact c := by
  obtain ⟨-, -, hheld, haxes⟩ := raise1_notes hnew
  rw [State.heldReact, hheld, haxes]
  refine ⟨fun hc => ?_, fun hc => ?_, fun c hne => ?_⟩
  · simp [noteRaise, hc]
  · simp [noteRaise, hc]
  · rw [State.heldReact, State.heldReact, hheld]
    by_cases hc : faultClass f.code = .i
    · simp [noteRaise, hc]
    · simp [noteRaise, hc, hne.symm]

theorem raise1_pins (hc : faultClass f.code = .s) : (raise1 f s).on Reg.FCU_STAT_FLT_P = false ∧
    (raise1 f s).on Reg.FCU_STAT_FLT_N = false ∧ (raise1 f s).fcu.fltOn = false := by
  rw [raise1_stages f s hnew]
  exact (FollowsRecord.takeReaction _ _ _).pins (signalled_pins _ _ hc)

/-- The capture (R422). -/
theorem raise1_captures (hv : f.visible = true) (hfree : s.on Reg.FCU_REC_VALID = false) : let t := raise1 f s
    RecordNames f (s.reactOf f.code) t ∧ t.on Reg.FCU_REC_VALID = true ∧ t.rd Reg.FCU_REC_COUNT = 0 ∧
    t.rd Reg.FCU_REC2_CLASSES = 2 ^ (faultClass f.code).code ∧ t.rd Reg.FCU_REC_FN = s.fn ∧
    t.rd Reg.FCU_REC_CTH * 2 ^ 32 + t.rd Reg.FCU_REC_CTL = s.ctTicks ∧ t.fcu.recAt = some s.time.clk ∧ t.pends 6 = true := by
  obtain ⟨hrd, htime, -, hreact⟩ := logged_noted f s
  obtain ⟨hwho, hvalid, hcount, hclasses, hfn, hct, hat, hpend⟩ := recordFault_free f (logFault f (noteRaise f s)) hv
    (by rw [State.on, hrd _ (by decide) (by decide)]; exact hfree)
  rw [State.fn, htime] at hfn
  rw [State.ctTicks, State.ct, htime] at hct
  rw [htime] at hat
  rw [hreact] at hwho
  rw [← recorded_visible f s hv] at hwho hvalid hcount hclasses hfn hct hat hpend
  have hafter := raise1_followsRecord hnew
  dsimp only
  rw [State.on, hafter.rd Reg.FCU_REC_VALID (by decide), hafter.rd Reg.FCU_REC_COUNT (by decide),
    hafter.rd Reg.FCU_REC2_CLASSES (by decide), hafter.rd Reg.FCU_REC_FN (by decide), hafter.rd Reg.FCU_REC_CTH (by decide),
    hafter.rd Reg.FCU_REC_CTL (by decide), hafter.fcu]
  exact ⟨hwho.congr fun g hg => hafter.rd g (by revert g; decide), hvalid, hcount, hclasses, hfn, hct, hat,
    (raise1_pends hnew).1.pends 6 (by decide) hpend⟩

/-- The merge (R423, R424). -/
theorem raise1_merges (hv : f.visible = true) (hvalid : s.on Reg.FCU_REC_VALID = true) : let t := raise1 f s
    (if s.ranksFirst f = true then RecordNames f (s.reactOf f.code) t else ∀ g ∈ whoFlds, t.rd g = s.rd g) ∧
    t.rd Reg.FCU_REC_COUNT = min (s.rd Reg.FCU_REC_COUNT + 1) 255 ∧
    t.rd Reg.FCU_REC2_CLASSES = orW (s.rd Reg.FCU_REC2_CLASSES) (2 ^ (faultClass f.code).code) ∧
    t.rd Reg.FCU_REC_FN = s.rd Reg.FCU_REC_FN ∧ t.fcu.recAt = s.fcu.recAt ∧ t.pends 7 = true := by
  obtain ⟨hrd, -, hat, hreact⟩ := logged_noted f s
  obtain ⟨hwho, hcount, hclasses, hfn, hat', hpend⟩ := recordFault_valid f (logFault f (noteRaise f s)) hv
    (by rw [State.on, hrd _ (by decide) (by decide)]; exact hvalid)
  rw [logged_noted_ranksFirst, hreact] at hwho
  rw [hrd _ (by decide) (by decide)] at hcount hclasses hfn
  rw [hat] at hat'
  rw [← recorded_visible f s hv] at hwho hcount hclasses hfn hat' hpend
  have hafter := raise1_followsRecord hnew
  have hkept : ∀ g ∈ whoFlds, (raise1 f s).rd g = (recorded f s).rd g := fun g hg => hafter.rd g (by revert g; decide)
  dsimp only
  rw [hafter.rd Reg.FCU_REC_COUNT (by decide), hafter.rd Reg.FCU_REC2_CLASSES (by decide), hafter.rd Reg.FCU_REC_FN (by decide), hafter.fcu]
  refine ⟨?_, hcount, hclasses, hfn, hat', (raise1_pends hnew).1.pends 7 (by decide) hpend⟩
  split
  · rename_i hfirst
    rw [if_pos hfirst] at hwho
    exact hwho.congr hkept
  · rename_i hfirst
    rw [if_neg hfirst] at hwho
    exact fun g hg => (hkept g hg).trans ((hwho g hg).trans (hrd g (by revert g; decide) (by revert g; decide)))

/-- Class S and M and reported faults of class I are logged (R426). -/
theorem raise1_logs (hlog : f.visible = true ∨ s.reported f.code = true) : let wp := s.rd Reg.FCU_LOGWP_WP
    (raise1 f s).rd Reg.FCU_LOGWP_WP = (wp + 1) % 256 ∧ (f.code < 2 ^ 16 → (raise1 f s).rd (Reg.FCU_LOGi wp) % 2 ^ 64 =
      f.code + (faultClass f.code).code * 2 ^ 16 + (s.reactOf f.code).code * 2 ^ 18 + s.fn * 2 ^ 32) := by
  have hafter := raise1_followsRecord hnew
  have hwp : s.rd Reg.FCU_LOGWP_WP < 256 := State.rd_lt s _
  have hslot : ∀ i : Fin 256, Fld.ofHistory (Reg.FCU_LOGi i) = true ∧ Fld.ofRecord (Reg.FCU_LOGi i) = false := by decide +kernel
  obtain ⟨hhist, hrec⟩ : Fld.ofHistory (Reg.FCU_LOGi (s.rd Reg.FCU_LOGWP_WP)) = true ∧
    Fld.ofRecord (Reg.FCU_LOGi (s.rd Reg.FCU_LOGWP_WP)) = false := hslot ⟨_, hwp⟩
  dsimp only
  rw [hafter.rd _ (by decide), recorded_log f s _ (by decide) (by decide), if_pos hlog, logFault_wp, hafter.rd _ hhist,
    recorded_log f s _ hhist hrec, if_pos hlog]
  refine ⟨rfl, fun hcode => ?_⟩
  rw [show s.rd Reg.FCU_LOGWP_WP = (noteRaise f s).rd Reg.FCU_LOGWP_WP from rfl, logFault_entry, logEntry_low f _ hcode]
  rfl

theorem raise1_silent (hlog : f.visible = false) (hrep : s.reported f.code = false) :
    (raise1 f s).rd Reg.FCU_LOGWP_WP = s.rd Reg.FCU_LOGWP_WP := by
  rw [(raise1_followsRecord hnew).rd _ (by decide), recorded_log f s _ (by decide) (by decide), if_neg (by simp [hlog, hrep])]

end

/-! ### The reaction of one raise -/

theorem takeReaction_replay (f : Raise) (r : React) (s : State) (h : s.dev.state = .replay) : takeReaction f r s = s := by
  unfold takeReaction; dsimp only; rw [if_pos h]

theorem takeReaction_lee (f : Raise) (s : State) (h : s.dev.state ≠ .replay) : takeReaction f .lee s = applyLeeCause s := by
  unfold takeReaction; dsimp only; rw [if_neg h]

theorem takeReaction_axisSafe (f : Raise) (s : State) (h : s.dev.state ≠ .replay) :
    takeReaction f .axisSafe s = requestSafe f.axes s := by
  unfold takeReaction; dsimp only; rw [if_neg h]

theorem takeReaction_safe (f : Raise) (s : State) (h : s.dev.state ≠ .replay) : takeReaction f .safe s = enterSafe s := by
  unfold takeReaction; dsimp only; rw [if_neg h]

theorem takeReaction_reset (f : Raise) (s : State) (h : s.dev.state ≠ .replay) :
    takeReaction f .reset s = { enterSafe s with dev := { (enterSafe s).dev with resetDue :=
      if (enterSafe s).dev.resetDue.isSome then (enterSafe s).dev.resetDue else some ((enterSafe s).ctTicks + 4000, 5) } } := by
  unfold takeReaction; dsimp only; rw [if_neg h]

theorem takeReaction_mild (f : Raise) (r : React) (s : State) (h : r = .none ∨ r = .interrupt) : takeReaction f r s = s := by
  unfold takeReaction; dsimp only
  split
  · rfl
  · rcases h with rfl | rfl <;> rfl

/-- The fault of a Lee cause is held before its reaction is taken. -/
theorem beforeReaction_leeCause (f : Raise) (s : State) (hr : s.reactOf f.code = .lee) (hc : faultClass f.code ≠ .i) :
    (beforeReaction f s).leeCause = true := by
  refine leeCause_of_held _ f.code ?_
  have hafter : FollowsRecord (recorded f s) (beforeReaction f s) := (notified_reports ..).followsRecord.trans (.signalled _ _)
  rw [State.heldReact, hafter.fcu, recorded_fcu]
  simp [noteRaise, hc, hr]

theorem OnlyFaults.beforeReaction (f : Raise) (s : State) : OnlyFaults s (beforeReaction f s) :=
  ((OnlyFaults.when _ _ (.when _ _ (.noteRaise f s) (.logFault f _)) (.recordFault f _)).trans (notified_pends ..).1).trans
    (.signalled _ _)

section
variable {f : Raise} {s : State} (hnew : (oncePerFrame f.code && SMap.get false s.fcu.seen f.code) = false)
include hnew

/-- In REPLAY no reaction is taken (R414). -/
theorem raise1_replay (h : s.dev.state = .replay) : (raise1 f s).dev = s.dev ∧ (raise1 f s).role = s.role ∧
    (raise1 f s).fcu.supReq = s.fcu.supReq := by
  have hkeep := KeepsDevice.beforeReaction f s
  rw [raise1_stages f s hnew, takeReaction_replay _ _ _ ((congrArg DevSt.state hkeep.dev).trans h)]
  exact ⟨hkeep.dev, hkeep.role, hkeep.supReq⟩

theorem raise1_mild (h : s.reactOf f.code = .none ∨ s.reactOf f.code = .interrupt) :
    (raise1 f s).dev = s.dev ∧ (raise1 f s).role = s.role ∧ (raise1 f s).fcu.supReq = s.fcu.supReq := by
  have hkeep := KeepsDevice.beforeReaction f s
  rw [raise1_stages f s hnew, takeReaction_mild _ _ _ h]
  exact ⟨hkeep.dev, hkeep.role, hkeep.supReq⟩

/-- The axes of the fault are requested safe, and the device stays as it is (R413). -/
theorem raise1_axisSafe (hr : s.reactOf f.code = .axisSafe) (hs : s.dev.state ≠ .replay) :
    (raise1 f s).dev = s.dev ∧ ∀ n < 8, tb f.axes n = true → tb (raise1 f s).fcu.supReq n = true := by
  have hdev := (KeepsDevice.beforeReaction f s).dev
  rw [raise1_stages f s hnew, hr, takeReaction_axisSafe _ _ (by rw [hdev]; exact hs)]
  exact ⟨(requestSafe_dev _ _).trans hdev, requestSafe_request _ _⟩

/-- Safe state, and reset with it: the device is in SAFE with every request, without role and claim (R414). -/
theorem raise1_safe (hr : s.reactOf f.code = .safe ∨ s.reactOf f.code = .reset) (hs : s.dev.state ≠ .replay) : let t := raise1 f s
    t.dev.state = .safe ∧ t.fcu.supSo = true ∧ t.fcu.supReq = 0xFF ∧
    (s.dev.state ≠ .safe → t.role = roleOFFLINE ∧ t.rd Reg.SEAM_CLAIM_CLAIM = 0) := by
  have hdev := (KeepsDevice.beforeReaction f s).dev
  have hs' : (beforeReaction f s).dev.state ≠ .replay := by rw [hdev]; exact hs
  obtain ⟨hstate, hreq, hso, hrole⟩ := enterSafe_effect (beforeReaction f s) hs'
  rw [hdev] at hstate hrole
  dsimp only
  rw [raise1_stages f s hnew]
  rcases hr with hr | hr
  · rw [hr, takeReaction_safe _ _ hs']
    exact ⟨congrArg DevSt.state hstate, hso, hreq, hrole⟩
  · rw [hr, takeReaction_reset _ _ hs']
    exact ⟨congrArg DevSt.state hstate, hso, hreq, hrole⟩

/-- Reset: a reset is due 4,000 ticks later (R411). -/
theorem raise1_reset (hr : s.reactOf f.code = .reset) (hs : s.dev.state ≠ .replay) (hdue : s.dev.resetDue = none) :
    (raise1 f s).dev.resetDue = some (s.ctTicks + 4000, 5) := by
  have hdev := (KeepsDevice.beforeReaction f s).dev
  have hs' : (beforeReaction f s).dev.state ≠ .replay := by rw [hdev]; exact hs
  obtain ⟨hstate, -⟩ := enterSafe_effect (beforeReaction f s) hs'
  have htime : (raise1 f s).time = s.time := (OnlyFaults.raise1 f s).time
  rw [raise1_stages f s hnew, hr, takeReaction_reset _ _ hs'] at htime ⊢
  have hnone : (enterSafe (beforeReaction f s)).dev.resetDue = none := by rw [hstate, hdev]; exact hdue
  have hct : (enterSafe (beforeReaction f s)).ctTicks = s.ctTicks := by
    rw [State.ctTicks, State.ct, State.ctTicks, State.ct, ← htime]
  dsimp only
  rw [hnone, hct]; rfl

/-- A Lee cause takes ACTIVE to LEE (R415). -/
theorem raise1_lee_active (hr : s.reactOf f.code = .lee) (hc : faultClass f.code ≠ .i) (hs : s.dev.state = .active) :
    (raise1 f s).dev.state = .lee := by
  have hs' : (beforeReaction f s).dev.state = .active := (congrArg DevSt.state (KeepsDevice.beforeReaction f s).dev).trans hs
  rw [raise1_stages f s hnew, hr, takeReaction_lee _ _ (by rw [hs']; decide)]
  exact applyLeeCause_active _ (beforeReaction_leeCause f s hr hc) hs'

/-- In STANDBY a Lee cause takes a device of a set, that may hold another role than OFFLINE, to OBSERVER (R32, R415). -/
theorem raise1_lee_standby (hr : s.reactOf f.code = .lee) (hc : faultClass f.code ≠ .i) (hs : s.dev.state = .standby)
    (hset : s.inSet = true) (hsplit : s.split = false) (hdbg : ¬ (s.rd Reg.SEC_STAT_DBG = 2 ∧ s.rd Reg.SEC_STAT_LC = 2)) :
    let t := raise1 f s
    t.role = roleOBSERVER ∧ t.dev.state = .standby ∧ (s.role ≠ roleOBSERVER → t.rd Reg.SEAM_CLAIM_CLAIM = 0) := by
  have hkeep := KeepsDevice.beforeReaction f s
  have hrd := (OnlyFaults.beforeReaction f s).rd
  have hs' : (beforeReaction f s).dev.state = .standby := (congrArg DevSt.state hkeep.dev).trans hs
  have hset' : (beforeReaction f s).inSet = true := by rw [State.inSet, hrd _ (by decide)]; exact hset
  have hbar : (beforeReaction f s).barred = false := by
    rw [State.barred, State.split, State.on, State.debugFull, hrd _ (by decide), hrd _ (by decide), hrd _ (by decide)]
    have hs : s.barred = false := by
      rw [State.barred, hsplit, Bool.false_or, State.debugFull, Bool.and_eq_false_iff, decide_eq_false_iff_not, decide_eq_false_iff_not]
      exact not_and_or.mp hdbg
    exact hs
  have h := applyLeeCause_standby _ (beforeReaction_leeCause f s hr hc) hs' hset' hbar
  rw [hkeep.role] at h
  rw [raise1_stages f s hnew, hr, takeReaction_lee _ _ (by rw [hs']; decide)]
  exact h

end

theorem Raise.visible_iff (f : Raise) : f.visible = true ↔ faultClass f.code ≠ .i := by simp [Raise.visible]

theorem ranksFirst_iff (f : Raise) (s : State) : s.ranksFirst f = true ↔ s.fcu.recAt = some s.time.clk ∧
    ((faultClass f.code).code < s.rd Reg.FCU_REC_CLASS ∨
      ((faultClass f.code).code = s.rd Reg.FCU_REC_CLASS ∧ f.code < s.rd Reg.FCU_REC_CODE)) := by
  simp [State.ranksFirst]

/-- Settles O40: a raise is taken apart into its stages (`raise1_stages`); what a stage writes stands because the later ones keep it
(`FollowsRecord`), and the reaction meets the device of before (`KeepsDevice`). -/
theorem faultRaisedAndReaction : Obligations.FaultRaisedAndReaction := by
  unfold Obligations.FaultRaisedAndReaction
  intro f s hnew t cls r
  have hfaults : OnlyFaults s t := .raise1 f s
  obtain ⟨hcount, hlast⟩ := raise1_counts hnew
  obtain ⟨hheld, hkept, hothers⟩ := raise1_holds hnew
  obtain ⟨-, h0, h4, h5⟩ := raise1_pends hnew
  refine ⟨hfaults, hcount, hlast, hheld, hkept, hothers, fun hc => ?_, h4, h5, fun hc hfree => ?_, fun hc hvalid => ?_, fun hlog => ?_,
    fun hc hrep => ?_, fun hs => ?_, fun hs => ⟨fun hr ha hc => ?_, fun hr hst hc hset hsplit hdbg => ?_, fun hr => ?_, fun hr => ?_,
    fun hr hdue => ?_, fun hr => ?_⟩⟩
  · obtain ⟨hp, hn, hon⟩ := raise1_pins hnew hc
    exact ⟨hp, hn, hon, h0 hc⟩
  · obtain ⟨⟨hcode, hclass, hreact, hmaster, hacc, haddr⟩, hvalid, hn, hclasses, hfn, hct, hat, hpend⟩ :=
      raise1_captures hnew (f.visible_iff.mpr hc) hfree
    exact ⟨hvalid, hcode, hclass, hreact, hn, hclasses, hmaster, hacc, haddr, hfn, hat, hct, hpend⟩
  · obtain ⟨hwho, hn, hclasses, hfn, hat, hpend⟩ := raise1_merges hnew (f.visible_iff.mpr hc) hvalid
    simp only [ranksFirst_iff] at hwho
    exact ⟨hat, hfn, hwho, hn, hclasses, hpend⟩
  · exact raise1_logs hnew (hlog.imp_left f.visible_iff.mpr)
  · exact raise1_silent hnew (by simpa [Raise.visible] using hc) hrep
  · obtain ⟨hdev, hrole, hreq⟩ := raise1_replay hnew hs
    exact ⟨by rw [hdev]; exact hs, hrole, hreq, by rw [hdev]⟩
  · exact raise1_lee_active hnew hr hc ha
  · exact raise1_lee_standby hnew hr hc hst hset hsplit hdbg
  · obtain ⟨hdev, hreq⟩ := raise1_axisSafe hnew hr hs
    exact ⟨by rw [hdev], hreq⟩
  · obtain ⟨hstate, hso, hreq, hrole⟩ := raise1_safe hnew hr hs
    exact ⟨hstate, hso, by rw [hreq]; decide, hrole⟩
  · exact raise1_reset hnew hr hs hdue
  · obtain ⟨hdev, -, hreq⟩ := raise1_mild hnew hr
    exact ⟨by rw [hdev], hreq⟩

end Sys2Proof.Machine
end

section
/-! The choice of a slot at boot (O46). -/
namespace Sys2Proof.Machine

/-! ### The boot control block -/

theorem Bcb.valid_seal (b : Bcb) : b.seal.valid = true := by
  simp [Bcb.valid, Bcb.seal, Bcb.bytes]

theorem Bcb.setAtt_keeps (b : Bcb) (slot v : Nat) : (b.setAtt slot v).valid = b.valid ∧ (b.setAtt slot v).gen = b.gen := by
  unfold Bcb.setAtt; split <;> exact ⟨rfl, rfl⟩

theorem Bcb.att_setAtt (b : Bcb) (slot v : Nat) : (b.setAtt slot v).att slot = v := by
  unfold Bcb.setAtt Bcb.att; split <;> simp_all

theorem Bcb.st_setSt (b : Bcb) (slot v : Nat) : (b.setSt slot v).st slot = v := by
  unfold Bcb.setSt Bcb.st; split <;> simp_all

/-- Which copy governs (R451). -/
def governs (a b : Bcb) : Option (Nat × Bcb) :=
  let d := (b.gen + 2 ^ 32 - a.gen) % 2 ^ 32
  if a.valid && b.valid then if 0 < d ∧ d < 2 ^ 31 then some (1, b) else some (0, a)
  else if a.valid then some (0, a)
  else if b.valid then some (1, b)
  else none

/-- The state with other copies of the block in flash. -/
def State.withBcb (s : State) (a b : Bcb) : State := setSec { s.sec with bcb0 := a, bcb1 := b } s

theorem State.withBcb_bcb (s : State) (a b : Bcb) : (s.withBcb a b).bcb = governs a b := rfl

theorem State.bcb_eq (s : State) : s.bcb = governs s.sec.bcb0 s.sec.bcb1 := rfl

/-- The copy that governs is the one its number names, and it is valid. -/
theorem governs_some (a b : Bcb) (i : Nat) (x : Bcb) (h : governs a b = some (i, x)) :
    (i = 0 ∧ x = a ∧ a.valid = true) ∨ (i = 1 ∧ x = b ∧ b.valid = true) := by
  unfold governs at h; dsimp only at h
  cases ha : a.valid <;> cases hb : b.valid <;> simp only [ha, hb, Bool.and_true, Bool.and_false, Bool.and_self, if_true] at h
  · simp at h
  · simp at h; simp [← h.1, ← h.2]
  · simp at h; simp [← h.1, ← h.2]
  · split at h <;> simp at h <;> simp [← h.1, ← h.2]

theorem governs_none (a b : Bcb) (h : governs a b = none) : a.valid = false ∧ b.valid = false := by
  unfold governs at h; dsimp only at h
  cases ha : a.valid <;> cases hb : b.valid <;> simp only [ha, hb, Bool.and_true, Bool.and_false, Bool.and_self, if_true] at h
  · exact ⟨rfl, rfl⟩
  · simp at h
  · simp at h
  · split at h <;> simp at h

/-- A copy one generation on governs beside the other one (R451). -/
theorem governs_next_second (a b : Bcb) (hg : a.gen < 2 ^ 32) (hb : b.valid = true) (hn : b.gen = (a.gen + 1) % 2 ^ 32) :
    governs a b = some (1, b) := by
  have hd : (b.gen + 2 ^ 32 - a.gen) % 2 ^ 32 = 1 := by omega
  unfold governs; dsimp only
  rw [hd, hb]
  cases a.valid <;> simp

theorem governs_next_first (a b : Bcb) (hg : b.gen < 2 ^ 32) (ha : a.valid = true) (hn : a.gen = (b.gen + 1) % 2 ^ 32) :
    governs a b = some (0, a) := by
  have hd : (b.gen + 2 ^ 32 - a.gen) % 2 ^ 32 = 2 ^ 32 - 1 := by omega
  unfold governs; dsimp only
  rw [hd, ha]
  cases b.valid <;> simp

/-- A copy alone governs, whatever its generation. -/
theorem governs_alone (a b : Bcb) (ha : a.valid = false) (hb : b.valid = true) : governs a b = some (1, b) := by
  unfold governs; simp [ha, hb]

/-- The copy of the next generation that `newBcb` writes (R451). -/
def Bcb.next (g : Bcb → Bcb) (b : Bcb) : Bcb := { g b with gen := (b.gen + 1) % 2 ^ 32 }.seal

/-- The block in force after a new generation is the new one (R451). -/
theorem newBcb_now (g : Bcb → Bcb) (s : State) (h0 : s.sec.bcb0.gen < 2 ^ 32) (h1 : s.sec.bcb1.gen < 2 ^ 32) :
    (newBcb g s).bcbNow = Bcb.next g s.bcbNow := by
  have hvalid : ∀ b, (Bcb.next g b).valid = true := fun b => Bcb.valid_seal _
  cases hb : s.bcb with
  | none =>
    have hnew : newBcb g s = s.withBcb s.sec.bcb0 (Bcb.next g bcbNone) := by unfold newBcb; rw [hb]; rfl
    obtain ⟨ha, -⟩ := governs_none _ _ (s.bcb_eq.symm.trans hb)
    rw [State.bcbNow, hnew, State.withBcb_bcb, governs_alone _ _ ha (hvalid _), State.bcbNow, hb]; rfl
  | some p =>
    obtain ⟨i, b⟩ := p
    rcases governs_some _ _ i b (s.bcb_eq.symm.trans hb) with ⟨rfl, rfl, -⟩ | ⟨rfl, rfl, -⟩
    · have hnew : newBcb g s = s.withBcb s.sec.bcb0 (Bcb.next g s.sec.bcb0) := by unfold newBcb; rw [hb]; rfl
      rw [State.bcbNow, hnew, State.withBcb_bcb, governs_next_second _ _ h0 (hvalid _) rfl, State.bcbNow, hb]; rfl
    · have hnew : newBcb g s = s.withBcb (Bcb.next g s.sec.bcb1) s.sec.bcb1 := by unfold newBcb; rw [hb]; rfl
      rw [State.bcbNow, hnew, State.withBcb_bcb, governs_next_first _ _ h1 (hvalid _) rfl, State.bcbNow, hb]; rfl

/-- Which copy governs depends on the generations and the CRCs only. -/
theorem governs_congr (a b a' b' : Bcb) (ha : a'.valid = a.valid ∧ a'.gen = a.gen) (hb : b'.valid = b.valid ∧ b'.gen = b.gen) :
    governs a' b' = (governs a b).map fun p => (p.1, if p.1 = 0 then a' else b') := by
  unfold governs; dsimp only
  rw [ha.1, ha.2, hb.1, hb.2]
  split_ifs <;> rfl

/-- A new mask in the copy that governs leaves it in force (R451). -/
theorem sameBcb_setAtt_now (slot v : Nat) (s : State) (h : s.bcb.isSome = true) :
    (sameBcb (·.setAtt slot v) s).bcbNow = s.bcbNow.setAtt slot v := by
  obtain ⟨⟨i, b⟩, hb⟩ := Option.isSome_iff_exists.mp h
  have hgov := s.bcb_eq.symm.trans hb
  have hkeep := fun b : Bcb => b.setAtt_keeps slot v
  rcases governs_some _ _ i b hgov with ⟨rfl, rfl, -⟩ | ⟨rfl, rfl, -⟩
  · have hsame : sameBcb (·.setAtt slot v) s = s.withBcb (s.sec.bcb0.setAtt slot v) s.sec.bcb1 := by unfold sameBcb; rw [hb]; rfl
    rw [State.bcbNow, hsame, State.withBcb_bcb, governs_congr _ _ _ _ (hkeep _) ⟨rfl, rfl⟩, hgov, State.bcbNow, hb]; rfl
  · have hsame : sameBcb (·.setAtt slot v) s = s.withBcb s.sec.bcb0 (s.sec.bcb1.setAtt slot v) := by unfold sameBcb; rw [hb]; rfl
    rw [State.bcbNow, hsame, State.withBcb_bcb, governs_congr _ _ _ _ ⟨rfl, rfl⟩ (hkeep _), hgov, State.bcbNow, hb]; rfl

/-- Both kinds of change touch the copies in flash only. -/
theorem newBcb_frame (g : Bcb → Bcb) (s : State) : newBcb g s = s.withBcb (newBcb g s).sec.bcb0 (newBcb g s).sec.bcb1 := by
  unfold newBcb; dsimp only; split <;> rfl

theorem sameBcb_frame (g : Bcb → Bcb) (s : State) : sameBcb g s = s.withBcb (sameBcb g s).sec.bcb0 (sameBcb g s).sec.bcb1 := by
  unfold sameBcb; split <;> rfl

/-! ### The ranges of a refused slot -/

/-- Filling a segment changes shared SRAM and the cores' own memories only. -/
theorem fillSegment_frame (bs : List Nat) (g : Nat × Nat × Nat × Nat) (s : State) :
    fillSegment bs g s = { s with mem := (fillSegment bs g s).mem, pair := (fillSegment bs g s).pair } := by
  unfold fillSegment State.when; dsimp only
  (repeat' split) <;> rfl

theorem foldl_fill_frame {α : Type} (l : List α) (step : State → α → State)
    (h : ∀ u x, step u x = { u with mem := (step u x).mem, pair := (step u x).pair }) (s : State) :
    l.foldl step s = { s with mem := (l.foldl step s).mem, pair := (l.foldl step s).pair } := by
  induction l generalizing s with
  | nil => rfl
  | cons x l ih => rw [List.foldl_cons, ih, h]

theorem zeroSlot_frame (code : Nat) (c : Container) (s : State) :
    zeroSlot code c s = { s with mem := (zeroSlot code c s).mem, pair := (zeroSlot code c s).pair } := by
  unfold zeroSlot; split
  · exact foldl_fill_frame _ _ (fun u g => fillSegment_frame _ _ u) s
  · rfl

/-- The range of a segment reads zero, in shared SRAM or in the cores' own memories its target names (R453). -/
def SegmentZero (g : Nat × Nat × Nat × Nat) (s : State) : Prop :=
  ∀ k < g.2.1, if g.2.2.2 = 0 then getByte s.mem (g.2.2.1 + k) = 0
    else (g.2.2.2 ≠ 2 → getByte (s.pr 0).main.mem (g.2.2.1 - 0x08000000 + k) = 0) ∧
      (g.2.2.2 ≠ 1 → getByte (s.pr 1).main.mem (g.2.2.1 - 0x08000000 + k) = 0)

theorem getByte_putBytes_zeros (n : Nat) (m : List Host.Cell) (a x : Nat) (h : getByte m x = 0 ∨ (a ≤ x ∧ x < a + n)) :
    getByte (putBytes m a (zeros n)) x = 0 := by
  have hlen : (zeros n).length = n := List.length_replicate
  by_cases hx : a ≤ x ∧ x < a + n
  · obtain ⟨k, rfl⟩ := Nat.exists_eq_add_of_le hx.1
    rw [getByte_putBytes _ _ _ _ (by omega), zeros, List.getD_replicate _ (by omega), Nat.zero_mod]
  · rw [getByte_putBytes_ne _ _ _ _ (by omega)]
    exact h.resolve_right hx

/-- Bytes go to the own memories of both cores of a pair. -/
def fillPair (bs : List Nat) (a p : Nat) (s : State) : State :=
  let x := s.pr p
  s.setPr p { x with main := { x.main with mem := putBytes x.main.mem a bs }, chk := { x.chk with mem := putBytes x.chk.mem a bs } }

theorem fillSegment_pairs (bs : List Nat) (g : Nat × Nat × Nat × Nat) (s : State) (h : g.2.2.2 ≠ 0) : fillSegment bs g s =
    (s.when (g.2.2.2 ≠ 2) (fillPair bs (g.2.2.1 - 0x08000000) 0)).when (g.2.2.2 ≠ 1) (fillPair bs (g.2.2.1 - 0x08000000) 1) := by
  unfold fillSegment; dsimp only; rw [if_neg h]; rfl

theorem fillSegment_sram (bs : List Nat) (g : Nat × Nat × Nat × Nat) (s : State) (h : g.2.2.2 = 0) :
    fillSegment bs g s = { s with mem := putBytes s.mem g.2.2.1 bs } := by
  unfold fillSegment; dsimp only; rw [if_pos h]

/-- A byte of the own memory of pair q's core is zero after zeros went to pair p, if it was zero or lies in their range. -/
theorem fillPair_zeros (n a p q x : Nat) (s : State) (h : getByte (s.pr q).main.mem x = 0 ∨ (q = p ∧ a ≤ x ∧ x < a + n)) :
    getByte ((fillPair (zeros n) a p s).pr q).main.mem x = 0 := by
  unfold fillPair; dsimp only
  rw [State.pr_setPr]
  split
  · rename_i e; subst e
    exact getByte_putBytes_zeros n _ _ _ (h.imp_right And.right)
  · rename_i e
    exact h.resolve_right fun hq => e hq.1.symm

theorem when_fillPair_zeros (n a p q x : Nat) (c : Prop) [Decidable c] (s : State)
    (h : getByte (s.pr q).main.mem x = 0 ∨ (c ∧ q = p ∧ a ≤ x ∧ x < a + n)) :
    getByte ((s.when c (fillPair (zeros n) a p)).pr q).main.mem x = 0 := by
  unfold State.when; split
  · exact fillPair_zeros n a p q x s (h.imp_right And.right)
  · rename_i hc
    exact h.resolve_right fun e => hc (by simpa using e.1)

/-- The zeros of a segment stand in its range. -/
theorem SegmentZero.fill (g : Nat × Nat × Nat × Nat) (s : State) : SegmentZero g (fillSegment (zeros g.2.1) g s) := by
  intro k hk
  split
  · rename_i h0
    rw [fillSegment_sram _ _ _ h0]
    exact getByte_putBytes_zeros _ _ _ _ (.inr (by omega))
  · rename_i h0
    rw [fillSegment_pairs _ _ _ h0]
    exact ⟨fun h2 => when_fillPair_zeros _ _ 1 0 _ _ _ (.inl (when_fillPair_zeros _ _ 0 0 _ _ _ (.inr ⟨h2, rfl, by omega, by omega⟩))),
      fun h1 => when_fillPair_zeros _ _ 1 1 _ _ _ (.inr ⟨h1, rfl, by omega, by omega⟩)⟩

/-- Zeros that go elsewhere leave a range zero. -/
theorem SegmentZero.keep {g : Nat × Nat × Nat × Nat} {s : State} (h : SegmentZero g s) (n : Nat) (g' : Nat × Nat × Nat × Nat) :
    SegmentZero g (fillSegment (zeros n) g' s) := by
  intro k hk
  have hz := h k hk
  by_cases h0 : g'.2.2.2 = 0
  · rw [fillSegment_sram _ _ _ h0]
    by_cases e : g.2.2.2 = 0
    · rw [if_pos e] at hz ⊢
      exact getByte_putBytes_zeros _ _ _ _ (.inl hz)
    · rw [if_neg e] at hz ⊢
      exact hz
  · rw [fillSegment_pairs _ _ _ h0]
    have hmem : ((s.when (g'.2.2.2 ≠ 2) (fillPair (zeros n) (g'.2.2.1 - 0x08000000) 0)).when (g'.2.2.2 ≠ 1)
        (fillPair (zeros n) (g'.2.2.1 - 0x08000000) 1)).mem = s.mem := by
      unfold State.when; (repeat' split) <;> rfl
    by_cases e : g.2.2.2 = 0
    · rw [if_pos e] at hz ⊢
      rw [hmem]; exact hz
    · rw [if_neg e] at hz ⊢
      exact ⟨fun h2 => when_fillPair_zeros _ _ 1 0 _ _ _ (.inl (when_fillPair_zeros _ _ 0 0 _ _ _ (.inl (hz.1 h2)))),
        fun h1 => when_fillPair_zeros _ _ 1 1 _ _ _ (.inl (when_fillPair_zeros _ _ 0 1 _ _ _ (.inl (hz.2 h1))))⟩

theorem foldl_fill_zeros (l : List (Nat × Nat × Nat × Nat)) (s : State) (g : Nat × Nat × Nat × Nat) (h : g ∈ l ∨ SegmentZero g s) :
    SegmentZero g (l.foldl (fun s g => fillSegment (zeros g.2.1) g s) s) := by
  induction l generalizing s with
  | nil => exact h.resolve_left (by simp)
  | cons g' l ih =>
    rw [List.foldl_cons]
    refine ih _ ?_
    rcases h with h | h
    · rcases List.mem_cons.mp h with rfl | h
      · exact .inr (.fill _ _)
      · exact .inl h
    · exact .inr (h.keep _ _)

/-- A slot refused over the signatures, the counter or its content leaves the ranges of its segments zero (R453). -/
theorem zeroSlot_zero (code : Nat) (c : Container) (s : State) (hcode : code ∈ [0, 5, 6, 7]) (i : Nat)
    (hi : i < min (c.body.getD 0 0) 16) (hfit : segmentFits c.len (imageSegment c.body i) = true) :
    SegmentZero (imageSegment c.body i) (zeroSlot code c s) := by
  unfold zeroSlot; dsimp only
  rw [if_pos (by simpa using hcode)]
  exact foldl_fill_zeros _ _ _ (.inl (List.mem_filter.mpr ⟨List.mem_map.mpr ⟨i, List.mem_range.mpr hi, rfl⟩, hfit⟩))

/-! ### One slot is tried -/

/-- What the flash holds in a slot. -/
def State.slotBox (s : State) (slot : Nat) : Option Container := if slot = 0 then s.sec.slotA else s.sec.slotB

/-- The state in which a slot is verified: a TRIAL slot under a valid block has lost one attempt (R453). -/
def attempted (slot : Nat) (counted : Bool) (s : State) : State :=
  s.when (counted && decide (s.bcbNow.st slot = bsTRIAL))
    (sameBcb (·.setAtt slot (putBit (s.bcbNow.att slot) (lowBit 3 (s.bcbNow.att slot)) false)))

theorem trySlot_skipped (slot : Nat) (counted : Bool) (s : State) (h : s.bcbNow.st slot = bsEMPTY ∨ s.bcbNow.st slot = bsFAILED) :
    trySlot slot counted s = (false, s) := by
  unfold trySlot; dsimp only; rw [if_pos h]

theorem trySlot_exhausted (slot : Nat) (counted : Bool) (s : State) (h : ¬ (s.bcbNow.st slot = bsEMPTY ∨ s.bcbNow.st slot = bsFAILED))
    (ha : counted = true ∧ s.bcbNow.st slot = bsTRIAL ∧ s.bcbNow.att slot % 8 = 0) :
    trySlot slot counted s = (false, newBcb (·.setSt slot bsFAILED) s) := by
  unfold trySlot; dsimp only; rw [if_neg h, if_pos (by simp [ha])]

theorem trySlot_attempted (slot : Nat) (counted : Bool) (s : State) (h : ¬ (s.bcbNow.st slot = bsEMPTY ∨ s.bcbNow.st slot = bsFAILED))
    (ha : ¬ (counted = true ∧ s.bcbNow.st slot = bsTRIAL ∧ s.bcbNow.att slot % 8 = 0)) : trySlot slot counted s =
    match (attempted slot counted s).slotBox slot with
    | none => (false, attempted slot counted s)
    | some c =>
      let code := (attempted slot counted s).verify (decide (c.type = ctIMAGE)) c
      if code = 0 && c.imageOk then (true, attempted slot counted s) else (false, zeroSlot code c (attempted slot counted s)) := by
  unfold trySlot; dsimp only; rw [if_neg h, if_neg (by simpa [and_assoc] using ha)]; rfl

theorem attempted_frame (slot : Nat) (counted : Bool) (s : State) :
    attempted slot counted s = s.withBcb (attempted slot counted s).sec.bcb0 (attempted slot counted s).sec.bcb1 := by
  unfold attempted State.when; split
  · exact sameBcb_frame _ s
  · rfl

/-- The state with other copies of the boot control block and other memories: all that trying a slot changes. -/
def State.withTried (s : State) (a b : Bcb) (m : List Host.Cell) (p : SMap PairSt) : State :=
  { s.withBcb a b with mem := m, pair := p }

theorem State.withBcb_eq (s : State) (a b : Bcb) : s.withBcb a b = s.withTried a b s.mem s.pair := rfl

theorem trySlot_frame (slot : Nat) (counted : Bool) (s : State) : ∃ a b m p, (trySlot slot counted s).2 = s.withTried a b m p := by
  by_cases hs : s.bcbNow.st slot = bsEMPTY ∨ s.bcbNow.st slot = bsFAILED
  · rw [trySlot_skipped _ _ _ hs]; exact ⟨s.sec.bcb0, s.sec.bcb1, s.mem, s.pair, rfl⟩
  · by_cases ha : counted = true ∧ s.bcbNow.st slot = bsTRIAL ∧ s.bcbNow.att slot % 8 = 0
    · rw [trySlot_exhausted _ _ _ hs ha, newBcb_frame, State.withBcb_eq]
      exact ⟨_, _, _, _, rfl⟩
    · have hatt := attempted_frame slot counted s
      generalize (attempted slot counted s).sec.bcb0 = a at hatt
      generalize (attempted slot counted s).sec.bcb1 = b at hatt
      rw [trySlot_attempted _ _ _ hs ha, hatt]
      split
      · exact ⟨a, b, s.mem, s.pair, rfl⟩
      · dsimp only; split
        · exact ⟨a, b, s.mem, s.pair, rfl⟩
        · rw [zeroSlot_frame]; exact ⟨a, b, _, _, rfl⟩

section
variable {slot : Nat} {counted : Bool} {s : State} (hs : ¬ (s.bcbNow.st slot = bsEMPTY ∨ s.bcbNow.st slot = bsFAILED))
  (ha : ¬ (counted = true ∧ s.bcbNow.st slot = bsTRIAL ∧ s.bcbNow.att slot % 8 = 0))
include hs ha

omit hs ha in
theorem attempted_slotBox (slot : Nat) (counted : Bool) (s : State) : (attempted slot counted s).slotBox slot = s.slotBox slot := by
  rw [attempted_frame]; rfl

omit hs ha in
theorem attempted_verify (slot : Nat) (counted : Bool) (s : State) (takes : Bool) (c : Container) :
    (attempted slot counted s).verify takes c = s.verify takes c := by
  rw [attempted_frame]; rfl

theorem trySlot_empty (hbox : s.slotBox slot = none) : trySlot slot counted s = (false, attempted slot counted s) := by
  rw [trySlot_attempted _ _ _ hs ha, attempted_slotBox, hbox]

theorem trySlot_box (c : Container) (hbox : s.slotBox slot = some c) : trySlot slot counted s =
    if s.verify (decide (c.type = ctIMAGE)) c = 0 ∧ c.imageOk = true then (true, attempted slot counted s)
    else (false, zeroSlot (s.verify (decide (c.type = ctIMAGE)) c) c (attempted slot counted s)) := by
  rw [trySlot_attempted _ _ _ hs ha, attempted_slotBox, hbox]
  dsimp only
  rw [attempted_verify]
  simp only [Bool.and_eq_true, decide_eq_true_eq]

/-- A slot that is tried boots if its container verifies and keeps R452 (R453). -/
theorem trySlot_boots_iff : (trySlot slot counted s).1 = true ↔
    ∃ c, s.slotBox slot = some c ∧ s.verify (decide (c.type = ctIMAGE)) c = 0 ∧ c.imageOk = true := by
  cases hbox : s.slotBox slot with
  | none => rw [trySlot_empty hs ha hbox]; simp
  | some c =>
    rw [trySlot_box hs ha c hbox]
    split <;> simp_all

/-- The state a tried slot leaves: that of the attempt, with the ranges of a refused image zeroed. -/
theorem trySlot_state : (trySlot slot counted s).2 = attempted slot counted s ∨ ((trySlot slot counted s).1 = false ∧
    ∃ code c, (trySlot slot counted s).2 = zeroSlot code c (attempted slot counted s)) := by
  cases hbox : s.slotBox slot with
  | none => rw [trySlot_empty hs ha hbox]; exact .inl rfl
  | some c =>
    rw [trySlot_box hs ha c hbox]
    split
    · exact .inl rfl
    · exact .inr ⟨rfl, _, _, rfl⟩

/-- Where no attempt is counted the boot control block and the registers stand. -/
theorem trySlot_uncounted (h : counted = false ∨ s.bcbNow.st slot ≠ bsTRIAL) :
    ((trySlot slot counted s).1 = true → (trySlot slot counted s).2 = s) ∧ (trySlot slot counted s).2.sec = s.sec ∧
    (trySlot slot counted s).2.regs = s.regs := by
  have hatt : attempted slot counted s = s := by
    rw [attempted, State.when, if_neg]
    rcases h with h | h <;> simp [h]
  rcases trySlot_state hs ha with h' | ⟨hno, code, c, h'⟩
  · rw [h', hatt]; exact ⟨fun _ => rfl, rfl, rfl⟩
  · rw [h', hatt, zeroSlot_frame]
    exact ⟨fun h1 => absurd h1 (by simp [hno]), rfl, rfl⟩

/-- A counted attempt takes the lowest bit of the mask that is set (R453). -/
theorem trySlot_counts (hb : s.bcb.isSome = true) (hc : counted = true) (ht : s.bcbNow.st slot = bsTRIAL) :
    (trySlot slot counted s).2.bcbNow.att slot = putBit (s.bcbNow.att slot) (lowBit 3 (s.bcbNow.att slot)) false := by
  have hatt : (attempted slot counted s).bcbNow.att slot = putBit (s.bcbNow.att slot) (lowBit 3 (s.bcbNow.att slot)) false := by
    rw [attempted, hc, ht, State.when, if_pos (by decide), sameBcb_setAtt_now _ _ _ hb, Bcb.att_setAtt]
  rcases trySlot_state hs ha with h' | ⟨-, code, c, h'⟩
  · rw [h']; exact hatt
  · rw [h', zeroSlot_frame]; exact hatt

/-- A refused image over whose segments the payload was hashed leaves their ranges zero (R453). -/
theorem trySlot_zeroes (c : Container) (hbox : s.slotBox slot = some c)
    (hcode : s.verify (decide (c.type = ctIMAGE)) c ∈ [0, 5, 6, 7]) (hno : (trySlot slot counted s).1 = false) (i : Nat)
    (hi : i < min (c.body.getD 0 0) 16) (hfit : segmentFits c.len (imageSegment c.body i) = true) :
    SegmentZero (imageSegment c.body i) (trySlot slot counted s).2 := by
  rw [trySlot_box hs ha c hbox] at hno ⊢
  split at hno
  · cases hno
  · rename_i h
    rw [if_neg h]
    exact zeroSlot_zero _ c _ hcode i hi hfit

end

/-- A TRIAL slot with no attempt left becomes FAILED (R453). -/
theorem trySlot_fails (slot : Nat) (counted : Bool) (s : State) (hs : ¬ (s.bcbNow.st slot = bsEMPTY ∨ s.bcbNow.st slot = bsFAILED))
    (ha : counted = true ∧ s.bcbNow.st slot = bsTRIAL ∧ s.bcbNow.att slot % 8 = 0) (h0 : s.sec.bcb0.gen < 2 ^ 32)
    (h1 : s.sec.bcb1.gen < 2 ^ 32) : (trySlot slot counted s).2.bcbNow.st slot = bsFAILED := by
  have hst : ∀ (b : Bcb) n, ({ b with gen := n } : Bcb).seal.st slot = b.st slot := fun b n => rfl
  rw [trySlot_exhausted _ _ _ hs ha, newBcb_now _ _ h0 h1, Bcb.next, hst, Bcb.st_setSt]

theorem trySlot_not_tried (slot : Nat) (counted : Bool) (s : State) (h : (trySlot slot counted s).1 = true) :
    ¬ (s.bcbNow.st slot = bsEMPTY ∨ s.bcbNow.st slot = bsFAILED) ∧
    ¬ (counted = true ∧ s.bcbNow.st slot = bsTRIAL ∧ s.bcbNow.att slot % 8 = 0) := by
  by_cases hs : s.bcbNow.st slot = bsEMPTY ∨ s.bcbNow.st slot = bsFAILED
  · rw [trySlot_skipped _ _ _ hs] at h; cases h
  · by_cases ha : counted = true ∧ s.bcbNow.st slot = bsTRIAL ∧ s.bcbNow.att slot % 8 = 0
    · rw [trySlot_exhausted _ _ _ hs ha] at h; cases h
    · exact ⟨hs, ha⟩

/-- A slot that boots holds a container. -/
theorem trySlot_boots_box (slot : Nat) (counted : Bool) (s : State) (h : (trySlot slot counted s).1 = true) :
    ∃ c, (trySlot slot counted s).2.slotBox slot = some c := by
  obtain ⟨hs, ha⟩ := trySlot_not_tried slot counted s h
  obtain ⟨c, hbox, -, -⟩ := (trySlot_boots_iff hs ha).mp h
  obtain ⟨a, b, m, p, hframe⟩ := trySlot_frame slot counted s
  exact ⟨c, by rw [hframe]; exact hbox⟩

/-- O46, the try of one slot. -/
theorem trySlot_spec (slot : Nat) (counted : Bool) (s : State) :
    let content := if slot = 0 then s.sec.slotA else s.sec.slotB
    let st := s.bcbNow.st slot
    let att := s.bcbNow.att slot
    let r := trySlot slot counted s
    if st = bsEMPTY ∨ st = bsFAILED then r = (false, s)
    else if counted = true ∧ st = bsTRIAL ∧ att % 8 = 0 then
      r.1 = false ∧ (s.sec.bcb0.gen < 2 ^ 32 → s.sec.bcb1.gen < 2 ^ 32 → r.2.bcbNow.st slot = bsFAILED)
    else (r.1 = true ↔ ∃ c, content = some c ∧ s.verify (decide (c.type = ctIMAGE)) c = 0 ∧ c.imageOk = true) ∧
      (counted = false ∨ st ≠ bsTRIAL → (r.1 = true → r.2 = s) ∧ r.2.sec = s.sec ∧ r.2.regs = s.regs) ∧
      (∀ c, content = some c → s.verify (decide (c.type = ctIMAGE)) c ∈ [0, 5, 6, 7] → r.1 = false →
        ∀ i < min (c.body.getD 0 0) 16, let g := imageSegment c.body i
          segmentFits c.len g = true → SegmentZero g r.2) ∧
      (s.bcb.isSome = true → counted = true → st = bsTRIAL → r.2.bcbNow.att slot = putBit att (lowBit 3 att) false) := by
  intro content st att r
  split
  · rename_i hs; exact trySlot_skipped _ _ _ hs
  · rename_i hs
    split
    · rename_i ha
      exact ⟨by rw [show r = _ from trySlot_exhausted _ _ _ hs ha], trySlot_fails _ _ _ hs ha⟩
    · rename_i ha
      exact ⟨trySlot_boots_iff hs ha, trySlot_uncounted hs ha, fun c hbox hcode hno i hi => trySlot_zeroes hs ha c hbox hcode hno i hi,
        trySlot_counts hs ha⟩

/-! ### What the boot ROM finds in the fuses -/

theorem complete3_get (m : SMap Nat) (k : Nat) :
    SMap.get 0 (complete3 m) k = if SMap.get 0 m k = 2 then 3 else SMap.get 0 m k := by
  induction m with
  | nil => rfl
  | cons p m ih =>
    obtain ⟨a, v⟩ := p
    by_cases hk : a = k
    · subst hk
      by_cases hv : v = 2 <;> simp [complete3, SMap.get, hv]
    · have hrest : ∀ w, SMap.get 0 ((a, w) :: m) k = SMap.get 0 m k := fun w => by rw [SMap.get, if_neg hk]
      have hrest' : ∀ w, SMap.get 0 ((a, w) :: complete3 m) k = SMap.get 0 (complete3 m) k := fun w => by rw [SMap.get, if_neg hk]
      rw [hrest, ← ih]
      by_cases hv : v = 2
      · rw [show complete3 ((a, v) :: m) = (a, 3) :: complete3 m from by simp [complete3, hv], hrest']
      · rw [show complete3 ((a, v) :: m) = (a, v) :: complete3 m from by simp [complete3, hv], hrest']

/-- The copies found of each bit: `cut` of the one whose write a reset cut off (R434). -/
def fusesFound (x : SecSt) (cut : Nat) : SMap Nat :=
  match x.torn with
  | some k => SMap.set 0 x.fuses k cut
  | none => x.fuses

theorem fusesFound_get (x : SecSt) (cut k : Nat) :
    SMap.get 0 (fusesFound x cut) k = if x.torn = some k then cut else SMap.get 0 x.fuses k := by
  unfold fusesFound
  cases x.torn with
  | none => simp
  | some j => simp [SMap.get_set]

/-- No debug opens, and Crucible serves nothing: the lifecycle is unreadable or DEAD (R437). -/
def State.fusesDown (s : State) (lcBad : Bool) : Bool := lcBad || s.lcBroken || s.lcFuses = lcDEAD

/-- The role for which debug is open at reset (R457). -/
def openRole (down : Bool) (lc : Nat) : Option Nat :=
  if down then none
  else if lc = lcMAKER then some roleMAKER else if lc = lcBLANK ∨ lc = lcRETURN then some roleVENDOR else none

/-- Crucible with its fuses read. -/
def State.withFuses (s : State) (slots : Nat) (drs : Bool) (ctr cut : Nat) : State :=
  setSec { s.sec with badSlots := slots, drsBad := drs, badCtr := ctr, torn := none, fuses := complete3 (fusesFound s.sec cut) } s

/-- The state the boot ROM leaves before it raises FUSE_ERROR. -/
def fusesRead (lcBad : Bool) (slots : Nat) (drs : Bool) (ctr cut : Nat) (s : State) : State :=
  let u := s.withFuses slots drs ctr cut
  let role := openRole (u.fusesDown lcBad) u.lcFuses
  let dbg := if role.isSome then 2 else 0
  ((setSec { u.sec with lcDown := u.fusesDown lcBad, dbgRole := role }
    (((u.wr Reg.SEC_STAT_LC u.lcFuses).wr Reg.SEC_STAT_DBG dbg).wr Reg.DBG_STAT_LEVEL dbg))).put Reg.SEC_STAT_TRNG_OK (! s.sec.trngFail)

theorem fuseRead_eq (lcBad : Bool) (slots : Nat) (drs : Bool) (ctr cut : Nat) (s : State) : fuseRead lcBad slots drs ctr cut s =
    (fusesRead lcBad slots drs ctr cut s).when
      (lcBad || (s.withFuses slots drs ctr cut).lcBroken || decide (slots ≠ 0) || drs || decide (ctr ≠ 0)) (raiseDev Fc.FUSE_ERROR) := rfl

theorem lcFuses_le (s : State) : s.lcFuses ≤ 4 := by
  unfold State.lcFuses
  refine List.foldlRecOn (motive := fun n => n ≤ 4) _ _ (by decide) fun n _ k hk => ?_
  have := List.mem_range.mp (List.mem_of_mem_filter hk)
  omega

/-- The fields the boot ROM writes from the fuses. -/
def fuseFlds : List Fld := [Reg.SEC_STAT_LC, Reg.SEC_STAT_DBG, Reg.DBG_STAT_LEVEL, Reg.SEC_STAT_TRNG_OK]

section
variable (lcBad : Bool) (slots : Nat) (drs : Bool) (ctr cut : Nat) (s : State)

/-- What fuses and flash have become is in Crucible and in four fields. -/
theorem fusesRead_frame : fusesRead lcBad slots drs ctr cut s = { s with
    regs := (fusesRead lcBad slots drs ctr cut s).regs, sec := (fusesRead lcBad slots drs ctr cut s).sec } := rfl

theorem fusesRead_sec : (fusesRead lcBad slots drs ctr cut s).sec = { (s.withFuses slots drs ctr cut).sec with
    lcDown := (s.withFuses slots drs ctr cut).fusesDown lcBad,
    dbgRole := openRole ((s.withFuses slots drs ctr cut).fusesDown lcBad) (s.withFuses slots drs ctr cut).lcFuses } := rfl

theorem fusesRead_rd_ne (g : Fld) (hg : ∀ h ∈ fuseFlds, h.key ≠ g.key) : (fusesRead lcBad slots drs ctr cut s).rd g = s.rd g := by
  simp only [fuseFlds, List.forall_mem_cons, List.not_mem_nil, false_implies, implies_true, and_true] at hg
  obtain ⟨hlc, hdbg, hlevel, htrng⟩ := hg
  have hsec : ∀ (x : SecSt) (u : State), (setSec x u).rd g = u.rd g := fun _ _ => rfl
  simp only [fusesRead, State.put, State.rd_wr, hsec, hlc, hdbg, hlevel, htrng, if_false]
  rfl

theorem fusesRead_lc : (fusesRead lcBad slots drs ctr cut s).lc = (s.withFuses slots drs ctr cut).lcFuses := by
  have hsec : ∀ (x : SecSt) (u : State) (g : Fld), (setSec x u).rd g = u.rd g := fun _ _ _ => rfl
  have hlt : (s.withFuses slots drs ctr cut).lcFuses < 2 ^ 3 := Nat.lt_of_le_of_lt (lcFuses_le _) (by decide)
  rw [State.lc, fusesRead]; dsimp only
  rw [State.put, State.rd_wr_ne _ _ _ _ (by decide), hsec, State.rd_wr_ne _ _ _ _ (by decide), State.rd_wr_ne _ _ _ _ (by decide),
    State.rd_wr_self]
  exact Nat.mod_eq_of_lt hlt

theorem fusesRead_dbg : (fusesRead lcBad slots drs ctr cut s).rd Reg.SEC_STAT_DBG =
    if (openRole ((s.withFuses slots drs ctr cut).fusesDown lcBad) (s.withFuses slots drs ctr cut).lcFuses).isSome = true
    then 2 else 0 := by
  have hsec : ∀ (x : SecSt) (u : State) (g : Fld), (setSec x u).rd g = u.rd g := fun _ _ _ => rfl
  rw [fusesRead]; dsimp only
  rw [State.put, State.rd_wr_ne _ _ _ _ (by decide), hsec, State.rd_wr_ne _ _ _ _ (by decide), State.rd_wr_self]
  split <;> rfl

theorem fusesRead_trng : (fusesRead lcBad slots drs ctr cut s).on Reg.SEC_STAT_TRNG_OK = ! s.sec.trngFail := by
  rw [State.on, fusesRead]; dsimp only
  rw [State.put, State.rd_wr_self]
  cases s.sec.trngFail <;> rfl

end

theorem openRole_isSome (down : Bool) (lc : Nat) :
    (openRole down lc).isSome = true ↔ down = false ∧ (lc = lcBLANK ∨ lc = lcMAKER ∨ lc = lcRETURN) := by
  unfold openRole
  cases down
  · by_cases hm : lc = lcMAKER
    · simp [hm]
    · by_cases ho : lc = lcBLANK ∨ lc = lcRETURN <;> simp [hm, ho]
  · simp

/-! ### What the boot leaves -/

/-- A raised fault of class S or M that is not limited to once a frame is held. -/
theorem raiseDev_isHeld (code : Nat) (s : State) (hc : faultClass code ≠ .i) (ho : oncePerFrame code = false) :
    (raiseDev code s).isHeld code = true := by
  refine (OnlyFaults.settleAll _).held code ?_
  rw [State.isHeld, ((raise1_holds (f := { code := code }) (s := s) (by simp [ho])).1 hc).1]; rfl

theorem OnlyFaults.raiseDev (code : Nat) (s : State) : OnlyFaults s (raiseDev code s) := .raise _ s

/-- From any state but ACTIVE raising leaves the device state, or takes the device to SAFE. -/
theorem OnlyFaults.state_or_safe {s t : State} (h : OnlyFaults s t) (ha : s.dev.state ≠ .active) :
    t.dev.state = s.dev.state ∨ t.dev.state = .safe := by
  rcases h.state with e | ⟨-, e⟩ | ⟨e, -⟩
  · exact .inl e
  · exact absurd e ha
  · exact .inr e

theorem OnlyFaults.stays_safe {s t : State} (h : OnlyFaults s t) (hs : s.dev.state = .safe) : t.dev.state = .safe := by
  rcases h.state_or_safe (by rw [hs]; decide) with e | e
  · exact e.trans hs
  · exact e

/-- `t` is `s` beside device state, role, memories and what raising does: Crucible, the pairs, the clock, the axes, the engines and
the registers that raising leaves stand, and what is held stays so. -/
structure KeepsUnits (s t : State) : Prop where
  rd : ∀ f, Fld.ofFaults f = false → t.rd f = s.rd f
  sec : t.sec = s.sec
  pair : t.pair = s.pair
  time : t.time = s.time
  axs : t.axs = s.axs
  eng : t.eng = s.eng
  held : ∀ c, s.isHeld c = true → t.isHeld c = true

theorem KeepsUnits.trans {s t u : State} (h : KeepsUnits s t) (g : KeepsUnits t u) : KeepsUnits s u where
  rd f hf := (g.rd f hf).trans (h.rd f hf)
  sec := g.sec.trans h.sec
  pair := g.pair.trans h.pair
  time := g.time.trans h.time
  axs := g.axs.trans h.axs
  eng := g.eng.trans h.eng
  held c x := g.held c (h.held c x)

theorem OnlyFaults.keepsUnits {s t : State} (h : OnlyFaults s t) : KeepsUnits s t :=
  ⟨h.rd, h.sec, h.pair, h.time, h.axs, h.eng, h.held⟩

theorem KeepsUnits.toDevRole (s : State) (st : DevState) (role : Nat) : KeepsUnits s (s.toDevRole st role) := by
  have hframe : ∃ r x, s.toDevRole st role = { s with regs := r, fcu := x, dev := { s.dev with state := st } } ∧ x.held = s.fcu.held := by
    unfold State.toDevRole State.when
    (repeat' split) <;> exact ⟨_, _, rfl, rfl⟩
  have hne : ∀ f g : Fld, Fld.ofFaults f = false → Fld.ofFaults g = true → f.key ≠ g.key := fun f g hf hg e => by
    rw [Fld.ofFaults, e] at hf; rw [Fld.ofFaults, hf] at hg; cases hg
  have hrd : ∀ f, Fld.ofFaults f = false → (s.toDevRole st role).rd f = s.rd f := fun f hf =>
    State.rd_toDevRole s st role f (hne f _ hf (by decide)) (hne f _ hf (by decide)) (hne f _ hf (by decide)) (hne f _ hf (by decide))
  obtain ⟨r, x, h, hheld⟩ := hframe
  rw [h] at hrd ⊢
  exact ⟨hrd, rfl, rfl, rfl, rfl, rfl, fun c hc => by rw [State.isHeld, State.heldReact, hheld]; exact hc⟩

theorem KeepsUnits.setDevRole (st : DevState) (role : Nat) (s : State) : KeepsUnits s (setDevRole st role s) := by
  by_cases h : s.dev.state = st ∧ s.role = role
  · rw [setDevRole_same st role s h]; exact (OnlyFaults.refl s).keepsUnits
  · exact (KeepsUnits.toDevRole s st role).trans (setDevRole_onlyFaults st role s h).keepsUnits

/-! ### The image of a slot starts -/

/-- Debug closes where a MAKER image says so (R457). -/
def closeDebug (c : Container) (s : State) : State :=
  s.when (s.lc = lcMAKER && tb c.flags 1) fun s =>
    setSec { s.sec with dbgRole := none } ((s.wr Reg.SEC_STAT_DBG 0).wr Reg.DBG_STAT_LEVEL 0)

/-- The segments of an image stand in memory. -/
def copyImage (c : Container) (s : State) : State :=
  (List.range (c.body.getD 0 0)).foldl (fun s i => copySegment c.body (imageSegment c.body i) s) s

/-- The containers nested in an image. -/
def nestOf (c : Container) : List CrucSrc := (List.range (c.body.getD 1 0)).map CrucSrc.nested

/-- The booted slot, its image and what waits. -/
def noteBoot (slot : Nat) (c : Container) (s : State) : State :=
  setSec { s.sec with booted := some slot, image := some c, queue := nestOf c }
    ((s.wr Reg.SEC_STAT_BOOT_SLOT slot).put Reg.SEC_STAT_BUSY (! (nestOf c).isEmpty))

/-- The cores of a split device are released. -/
def releaseSplit (s : State) : State := s.when s.split fun s => releaseCores 1 (releaseCores 0 s)

/-- Everything the start of an image does before the device leaves BOOT. -/
def bootLoaded (slot : Nat) (c : Container) (s : State) : State := releaseSplit (noteBoot slot c (closeDebug c (copyImage c s)))

theorem copyImage_frame (c : Container) (s : State) : ∃ m p, copyImage c s = { s with mem := m, pair := p } :=
  ⟨_, _, foldl_fill_frame _ _ (fun u i => fillSegment_frame _ (imageSegment c.body i) u) s⟩

theorem releaseSplit_frame (s : State) : ∃ p, releaseSplit s = { s with pair := p } := by
  unfold releaseSplit State.when; split
  · exact ⟨_, rfl⟩
  · exact ⟨_, rfl⟩

theorem releaseSplit_released (s : State) (h : s.split = true) :
    ((releaseSplit s).pr 0).released = true ∧ ((releaseSplit s).pr 1).released = true := by
  rw [releaseSplit, State.when, if_pos h]
  constructor <;> simp [releaseCores]

/-- The fields the start of an image writes. -/
def bootFlds : List Fld := [Reg.SEC_STAT_DBG, Reg.DBG_STAT_LEVEL, Reg.SEC_STAT_BOOT_SLOT, Reg.SEC_STAT_BUSY, Reg.SEC_STAT_FALLBACK]

theorem closeDebug_frame (c : Container) (s : State) : ∃ r d, closeDebug c s = { s with regs := r, sec := { s.sec with dbgRole := d } } := by
  unfold closeDebug State.when; split
  · exact ⟨_, _, rfl⟩
  · exact ⟨_, s.sec.dbgRole, rfl⟩

theorem closeDebug_rd_ne (c : Container) (s : State) (g : Fld) (hd : Reg.SEC_STAT_DBG.key ≠ g.key) (hl : Reg.DBG_STAT_LEVEL.key ≠ g.key) :
    (closeDebug c s).rd g = s.rd g := by
  unfold closeDebug State.when; split
  · exact (State.rd_wr_ne (s.wr Reg.SEC_STAT_DBG 0) _ g 0 hl).trans (State.rd_wr_ne s _ g 0 hd)
  · rfl

theorem closeDebug_dbg (c : Container) (s : State) : (closeDebug c s).rd Reg.SEC_STAT_DBG =
    if s.lc = lcMAKER ∧ tb c.flags 1 = true then 0 else s.rd Reg.SEC_STAT_DBG := by
  unfold closeDebug State.when
  by_cases h : s.lc = lcMAKER ∧ tb c.flags 1 = true
  · rw [if_pos h, if_pos (by simp [h])]
    exact (State.rd_wr_ne (s.wr Reg.SEC_STAT_DBG 0) Reg.DBG_STAT_LEVEL Reg.SEC_STAT_DBG 0 (by decide)).trans (State.rd_wr_self s _ 0)
  · rw [if_neg h, if_neg (by simpa using h)]

theorem noteBoot_rd_ne (slot : Nat) (c : Container) (s : State) (g : Fld) (hs : Reg.SEC_STAT_BOOT_SLOT.key ≠ g.key)
    (hb : Reg.SEC_STAT_BUSY.key ≠ g.key) : (noteBoot slot c s).rd g = s.rd g :=
  (State.rd_wr_ne (s.wr Reg.SEC_STAT_BOOT_SLOT slot) _ g _ hb).trans (State.rd_wr_ne s _ g slot hs)

theorem noteBoot_fields (slot : Nat) (c : Container) (s : State) (hslot : slot < 2) :
    (noteBoot slot c s).rd Reg.SEC_STAT_BOOT_SLOT = slot ∧
    (noteBoot slot c s).on Reg.SEC_STAT_BUSY = decide (0 < c.body.getD 1 0) := by
  have hsec : ∀ (x : SecSt) (u : State) (g : Fld), (setSec x u).rd g = u.rd g := fun _ _ _ => rfl
  constructor
  · rw [noteBoot, hsec, State.put, State.rd_wr_ne _ _ _ _ (by decide), State.rd_wr_self]
    exact Nat.mod_eq_of_lt hslot
  · rw [State.on, noteBoot, hsec, State.put, State.rd_wr_self, nestOf]
    cases c.body.getD 1 0 with
    | zero => simp [Reg.SEC_STAT_BUSY]
    | succ n => rw [List.range_succ, List.map_append]; cases (List.range n).map CrucSrc.nested <;> simp [Reg.SEC_STAT_BUSY]

/-- What the start of an image leaves and what it sets. -/
structure Loaded (slot : Nat) (c : Container) (s e : State) : Prop where
  dev : e.dev = s.dev
  fcu : e.fcu = s.fcu
  time : e.time = s.time
  axs : e.axs = s.axs
  eng : e.eng = s.eng
  sec : ∃ d, e.sec = { s.sec with booted := some slot, image := some c, queue := nestOf c, dbgRole := d }
  rd : ∀ g, (∀ h ∈ bootFlds, h.key ≠ g.key) → e.rd g = s.rd g
  dbg : e.rd Reg.SEC_STAT_DBG = if s.lc = lcMAKER ∧ tb c.flags 1 = true then 0 else s.rd Reg.SEC_STAT_DBG
  bootSlot : e.rd Reg.SEC_STAT_BOOT_SLOT = slot
  busy : e.on Reg.SEC_STAT_BUSY = decide (0 < c.body.getD 1 0)
  fallback : e.rd Reg.SEC_STAT_FALLBACK = s.rd Reg.SEC_STAT_FALLBACK
  released : e.split = true → (e.pr 0).released = true ∧ (e.pr 1).released = true

theorem bootLoaded_loaded (slot : Nat) (c : Container) (s : State) (hslot : slot < 2) : Loaded slot c s (bootLoaded slot c s) := by
  obtain ⟨m, p, hcopy⟩ := copyImage_frame c s
  obtain ⟨r, d, hclose⟩ := closeDebug_frame c (copyImage c s)
  obtain ⟨q, hrel⟩ := releaseSplit_frame (noteBoot slot c (closeDebug c (copyImage c s)))
  have hsplit := releaseSplit_released (noteBoot slot c (closeDebug c (copyImage c s)))
  have hrd : ∀ g, (bootLoaded slot c s).rd g = (noteBoot slot c (closeDebug c (copyImage c s))).rd g := fun g => by
    rw [bootLoaded, hrel]; rfl
  have hcopyrd : ∀ g, (copyImage c s).rd g = s.rd g := fun g => by rw [hcopy]; rfl
  obtain ⟨hslotrd, hbusy⟩ := noteBoot_fields slot c (closeDebug c (copyImage c s)) hslot
  refine { dev := ?_, fcu := ?_, time := ?_, axs := ?_, eng := ?_, sec := ⟨d, ?_⟩, rd := fun g hg => ?_,
           dbg := ?_, bootSlot := ?_, busy := ?_, fallback := ?_, released := ?_ }
  · rw [bootLoaded, hrel, hclose, hcopy]; rfl
  · rw [bootLoaded, hrel, hclose, hcopy]; rfl
  · rw [bootLoaded, hrel, hclose, hcopy]; rfl
  · rw [bootLoaded, hrel, hclose, hcopy]; rfl
  · rw [bootLoaded, hrel, hclose, hcopy]; rfl
  · rw [bootLoaded, hrel, hclose, hcopy]; rfl
  · simp only [bootFlds, List.forall_mem_cons, List.not_mem_nil, false_implies, implies_true, and_true] at hg
    obtain ⟨hdbg, hlevel, hs, hb, -⟩ := hg
    rw [hrd, noteBoot_rd_ne _ _ _ _ hs hb, closeDebug_rd_ne _ _ _ hdbg hlevel, hcopyrd]
  · rw [hrd, noteBoot_rd_ne _ _ _ _ (by decide) (by decide), closeDebug_dbg, State.lc, hcopyrd, hcopyrd]; rfl
  · rw [hrd, hslotrd]
  · rw [State.on, hrd]; exact hbusy
  · rw [hrd, noteBoot_rd_ne _ _ _ _ (by decide) (by decide), closeDebug_rd_ne _ _ _ (by decide) (by decide), hcopyrd]
  · intro h
    refine hsplit ?_
    rwa [State.split, State.on, hrd] at h

/-- How a boot ends: the device leaves BOOT for ASSAY, and the consequences are raised. -/
def bootEnd (e : State) : State := settleAll (e.when (e.dev.state = .boot) (setDevRole .assay roleOFFLINE))

theorem done_bootSlot (slot : Nat) (c : Container) (s : State) : done (bootSlot slot c s) = .next (bootEnd (bootLoaded slot c s)) := rfl

theorem KeepsUnits.bootEnd (e : State) : KeepsUnits e (bootEnd e) := by
  have hrole : KeepsUnits e (e.when (e.dev.state = .boot) (Machine.setDevRole .assay roleOFFLINE)) := by
    unfold State.when; split
    · exact .setDevRole _ _ e
    · exact (OnlyFaults.refl e).keepsUnits
  exact hrole.trans (OnlyFaults.settleAll _).keepsUnits

theorem bootEnd_state_boot (e : State) (h : e.dev.state = .boot) : (bootEnd e).dev.state = .assay ∨ (bootEnd e).dev.state = .safe := by
  have hassay : (e.when (e.dev.state = .boot) (setDevRole .assay roleOFFLINE)).dev.state = .assay := by
    rw [State.when, if_pos (by simp [h]), setDevRole_dev]
  have := (OnlyFaults.settleAll (e.when (e.dev.state = .boot) (setDevRole .assay roleOFFLINE))).state_or_safe (by rw [hassay]; decide)
  rwa [hassay] at this

theorem bootEnd_state_safe (e : State) (h : e.dev.state = .safe) : (bootEnd e).dev.state = .safe := by
  refine (OnlyFaults.settleAll _).stays_safe ?_
  rw [State.when, if_neg (by simp [h])]; exact h

theorem postEvent_off (kind : Nat) (data : List Nat) (s : State) (h : s.on Reg.HIF_CFG_EVTEN = false) : postEvent kind data s = s := by
  unfold postEvent; dsimp only; rw [h]; rfl

theorem irq_fresh_todo (src : Nat) (s : State) (h : s.pends src = false) : (irq src s).fcu = s.fcu := by
  unfold irq; rw [if_neg (by rw [State.pends] at h; simp [h])]; rfl

theorem toDevRole_todo (s : State) (st : DevState) (role : Nat) : (s.toDevRole st role).fcu.todo = s.fcu.todo := by
  unfold State.toDevRole State.when
  (repeat' split) <;> rfl

/-- With nothing waiting, source 152 free and device events off, a change of state and role has no consequence. -/
theorem setDevRole_calm (st : DevState) (role : Nat) (s : State) (hcalm : s.calm) (hpend : s.pends 152 = false)
    (hoff : s.on Reg.HIF_CFG_EVTEN = false) : (setDevRole st role s).calm := by
  by_cases h : s.dev.state = st ∧ s.role = role
  · rw [setDevRole_same st role s h]; exact hcalm
  · have hrd : ∀ f : Fld, f.key ≠ Reg.SEAM_STAT_ROLE.key → f.key ≠ Reg.SEAM_CLAIM_CLAIM.key → f.key ≠ Reg.FCU_STAT_FLT_P.key →
        f.key ≠ Reg.FCU_STAT_FLT_N.key → (s.toDevRole st role).rd f = s.rd f := fun f h1 h2 h3 h4 => s.rd_toDevRole st role f h1 h2 h3 h4
    have hpend' : (s.toDevRole st role).pends 152 = false := by
      rw [State.pends, State.bit, hrd _ (by decide) (by decide) (by decide) (by decide)]; exact hpend
    have hoff' : (s.toDevRole st role).on Reg.HIF_CFG_EVTEN = false := by
      rw [State.on, hrd _ (by decide) (by decide) (by decide) (by decide)]; exact hoff
    rw [setDevRole_change st role s h, State.calm, postEvent_off]
    · unfold State.when; split
      · rw [irq_fresh_todo _ _ hpend', toDevRole_todo]; exact hcalm
      · rw [toDevRole_todo]; exact hcalm
    · exact (OnlyFaults.when _ _ (.refl _) (.irq _ 152 (by decide))).evten.trans hoff'

/-- A calm boot goes to ASSAY with the role OFFLINE (R29). -/
theorem bootEnd_calm (e : State) (hboot : e.dev.state = .boot) (hcalm : e.calm) (hpend : e.pends 152 = false)
    (hoff : e.on Reg.HIF_CFG_EVTEN = false) : (bootEnd e).dev.state = .assay ∧ (bootEnd e).role = roleOFFLINE := by
  have hend : bootEnd e = setDevRole .assay roleOFFLINE e := by
    rw [bootEnd, State.when, if_pos (by simp [hboot]), settleAll_calm _ (setDevRole_calm _ _ _ hcalm hpend hoff)]
  rw [hend]
  exact ⟨congrArg DevSt.state (setDevRole_dev _ _ _), setDevRole_role _ _ _ (by decide)⟩

/-! ### The choice -/

/-- The boot ROM's choice once it has the boot control block: the preferred slot, else the other one, else SAFE (R453). -/
def chooseSlot (first : Nat) (counted : Bool) (s : State) : Out :=
  let r := trySlot first counted s
  match r.1, r.2.slotBox first with
  | true, some c => done (bootSlot first c r.2)
  | _, _ =>
    let r' := trySlot (1 - first) counted r.2
    match r'.1, r'.2.slotBox (1 - first) with
    | true, some c => done (bootSlot (1 - first) c (raiseDev Fc.BOOT_FALLBACK (r'.2.put Reg.SEC_STAT_FALLBACK true)))
    | _, _ => done (enterSafe r'.2)

/-- The flash as the command brings it. -/
def withFlash (bcb0 bcb1 : Option Bcb) (slotA slotB : Option Container) (s : State) : State :=
  setSec { s.sec with bcb0 := bcb0.getD s.sec.bcb0, bcb1 := bcb1.getD s.sec.bcb1,
                      slotA := if slotA.isSome then slotA else s.sec.slotA, slotB := if slotB.isSome then slotB else s.sec.slotB } s

theorem exec_bootSelect (bcb0 bcb1 : Option Bcb) (slotA slotB : Option Container) (lcBad : Bool) (slots : BitVec 4) (drs : Bool)
    (ctr : BitVec 5) (cut : Fin 4) (s : State) (hlive : s.live pdCRUC = true) (hboot : s.dev.state = .boot) :
    let u := fuseRead lcBad slots.toNat drs ctr.toNat cut (withFlash bcb0 bcb1 slotA slotB s)
    exec (.bootSelect bcb0 bcb1 slotA slotB lcBad slots drs ctr cut) s = if u.sec.lcDown = true then done (enterSafe u)
      else chooseSlot ((u.when (! u.bcb.isSome) (raiseDev Fc.BCB_ERROR)).bcbNow.prefer % 2) u.bcb.isSome
        (u.when (! u.bcb.isSome) (raiseDev Fc.BCB_ERROR)) := by
  have h : exec (.bootSelect bcb0 bcb1 slotA slotB lcBad slots drs ctr cut) s =
    execBootSelect bcb0 bcb1 slotA slotB lcBad slots drs ctr cut s := rfl
  rw [h, execBootSelect, hlive, hboot]
  rfl

theorem chooseSlot_first (first : Nat) (counted : Bool) (s : State) (c : Container) (hb : (trySlot first counted s).1 = true)
    (hc : (trySlot first counted s).2.slotBox first = some c) :
    chooseSlot first counted s = .next (bootEnd (bootLoaded first c (trySlot first counted s).2)) := by
  unfold chooseSlot; dsimp only; rw [hb, hc]; exact done_bootSlot ..

theorem chooseSlot_second (first : Nat) (counted : Bool) (s : State) (c : Container) (hb : (trySlot first counted s).1 = false)
    (hb' : (trySlot (1 - first) counted (trySlot first counted s).2).1 = true)
    (hc : (trySlot (1 - first) counted (trySlot first counted s).2).2.slotBox (1 - first) = some c) :
    chooseSlot first counted s = .next (bootEnd (bootLoaded (1 - first) c (raiseDev Fc.BOOT_FALLBACK
      ((trySlot (1 - first) counted (trySlot first counted s).2).2.put Reg.SEC_STAT_FALLBACK true)))) := by
  unfold chooseSlot; dsimp only; rw [hb, hb', hc]; exact done_bootSlot ..

theorem chooseSlot_none (first : Nat) (counted : Bool) (s : State) (hb : (trySlot first counted s).1 = false)
    (hb' : (trySlot (1 - first) counted (trySlot first counted s).2).1 = false) :
    chooseSlot first counted s = done (enterSafe (trySlot (1 - first) counted (trySlot first counted s).2).2) := by
  unfold chooseSlot; dsimp only; rw [hb, hb']

/-! ### What every outcome keeps of the fuses read -/

/-- The two parts of Crucible's state that reading the fuses settles stand in `t` as in `s`, with the clock, the axes, the engines and
every held fault; closed debug stays closed. -/
structure AsRead (s t : State) : Prop where
  fuses : t.sec.fuses = s.sec.fuses
  torn : t.sec.torn = s.sec.torn
  lcDown : t.sec.lcDown = s.sec.lcDown
  badSlots : t.sec.badSlots = s.sec.badSlots
  drsBad : t.sec.drsBad = s.sec.drsBad
  badCtr : t.sec.badCtr = s.sec.badCtr
  lc : t.lc = s.lc
  trng : t.on Reg.SEC_STAT_TRNG_OK = s.on Reg.SEC_STAT_TRNG_OK
  dbg : s.rd Reg.SEC_STAT_DBG = 0 → t.rd Reg.SEC_STAT_DBG = 0
  time : t.time = s.time
  axs : t.axs = s.axs
  eng : t.eng = s.eng
  held : ∀ c, s.isHeld c = true → t.isHeld c = true

theorem AsRead.trans {s t u : State} (h : AsRead s t) (g : AsRead t u) : AsRead s u where
  fuses := g.fuses.trans h.fuses
  torn := g.torn.trans h.torn
  lcDown := g.lcDown.trans h.lcDown
  badSlots := g.badSlots.trans h.badSlots
  drsBad := g.drsBad.trans h.drsBad
  badCtr := g.badCtr.trans h.badCtr
  lc := g.lc.trans h.lc
  trng := g.trng.trans h.trng
  dbg x := g.dbg (h.dbg x)
  time := g.time.trans h.time
  axs := g.axs.trans h.axs
  eng := g.eng.trans h.eng
  held c x := g.held c (h.held c x)

theorem KeepsUnits.asRead {s t : State} (h : KeepsUnits s t) : AsRead s t where
  fuses := by rw [h.sec]
  torn := by rw [h.sec]
  lcDown := by rw [h.sec]
  badSlots := by rw [h.sec]
  drsBad := by rw [h.sec]
  badCtr := by rw [h.sec]
  lc := h.rd _ (by decide)
  trng := by rw [State.on, h.rd _ (by decide)]; rfl
  dbg x := (h.rd _ (by decide)).trans x
  time := h.time
  axs := h.axs
  eng := h.eng
  held := h.held

theorem OnlyFaults.asRead {s t : State} (h : OnlyFaults s t) : AsRead s t := h.keepsUnits.asRead

theorem AsRead.trySlot (slot : Nat) (counted : Bool) (s : State) : AsRead s (trySlot slot counted s).2 := by
  obtain ⟨a, b, m, p, h⟩ := trySlot_frame slot counted s
  rw [h]
  exact ⟨rfl, rfl, rfl, rfl, rfl, rfl, rfl, rfl, id, rfl, rfl, rfl, fun _ => id⟩

theorem AsRead.put_fallback (s : State) (b : Bool) : AsRead s (s.put Reg.SEC_STAT_FALLBACK b) where
  fuses := rfl
  torn := rfl
  lcDown := rfl
  badSlots := rfl
  drsBad := rfl
  badCtr := rfl
  lc := State.rd_wr_ne _ _ _ _ (by decide)
  trng := by rw [State.on, State.put, State.rd_wr_ne _ _ _ _ (by decide)]; rfl
  dbg := (State.rd_wr_ne _ _ _ _ (by decide)).trans
  time := rfl
  axs := rfl
  eng := rfl
  held _ := id

theorem Loaded.asRead {slot : Nat} {c : Container} {s e : State} (h : Loaded slot c s e) : AsRead s e := by
  obtain ⟨d, hsec⟩ := h.sec
  refine { fuses := ?_, torn := ?_, lcDown := ?_, badSlots := ?_, drsBad := ?_, badCtr := ?_, lc := h.rd _ (by decide),
           trng := ?_, dbg := fun h0 => ?_, time := h.time, axs := h.axs, eng := h.eng, held := fun k hk => ?_ }
  · rw [hsec]
  · rw [hsec]
  · rw [hsec]
  · rw [hsec]
  · rw [hsec]
  · rw [hsec]
  · rw [State.on, h.rd _ (by decide)]; rfl
  · rw [h.dbg, h0, ite_self]
  · rw [State.isHeld, State.heldReact, h.fcu]; exact hk

/-! ### What the fuses give -/

section
variable (lcBad : Bool) (slots : BitVec 4) (drs : Bool) (ctr : BitVec 5) (cut : Fin 4) (s : State)

theorem fuseRead_onlyFaults : OnlyFaults (fusesRead lcBad slots.toNat drs ctr.toNat cut s) (fuseRead lcBad slots.toNat drs ctr.toNat cut s) := by
  rw [fuseRead_eq]
  exact .when _ _ (.refl _) (.raiseDev _ _)

theorem fuseRead_sec : (fuseRead lcBad slots.toNat drs ctr.toNat cut s).sec = (fusesRead lcBad slots.toNat drs ctr.toNat cut s).sec :=
  (fuseRead_onlyFaults ..).sec

theorem lcFuses_congr {s t : State} (h : t.sec.fuses = s.sec.fuses) : t.lcFuses = s.lcFuses ∧ t.lcBroken = s.lcBroken := by
  have hfuse : ∀ k, t.fuse k = s.fuse k := fun k => by rw [State.fuse, h]; rfl
  have hlc : t.lcFuses = s.lcFuses := by simp only [State.lcFuses, hfuse]
  exact ⟨hlc, by simp only [State.lcBroken, hfuse, hlc]⟩

theorem fuseRead_lcFuses : let u := fuseRead lcBad slots.toNat drs ctr.toNat cut s
    u.lcFuses = (s.withFuses slots.toNat drs ctr.toNat cut).lcFuses ∧ u.lcBroken = (s.withFuses slots.toNat drs ctr.toNat cut).lcBroken :=
  lcFuses_congr (by rw [fuseRead_sec, fusesRead_sec])

/-- FUSE_ERROR is held for every unreadable field (R438). -/
theorem fuseRead_held : let u := fuseRead lcBad slots.toNat drs ctr.toNat cut s
    lcBad = true ∨ u.lcBroken = true ∨ slots ≠ 0 ∨ drs = true ∨ ctr ≠ 0 → u.isHeld Fc.FUSE_ERROR = true := by
  intro u h
  rw [show u.lcBroken = _ from (fuseRead_lcFuses ..).2] at h
  have hslots : slots ≠ 0 → slots.toNat ≠ 0 := fun hne e => hne (BitVec.eq_of_toNat_eq e)
  have hctr : ctr ≠ 0 → ctr.toNat ≠ 0 := fun hne e => hne (BitVec.eq_of_toNat_eq e)
  rw [show u = _ from fuseRead_eq .., State.when, if_pos]
  · exact raiseDev_isHeld _ _ (by decide) (by decide)
  · simp only [Bool.or_eq_true, decide_eq_true_eq]
    tauto

/-- With every field readable nothing is raised. -/
theorem fuseRead_quiet (hlc : lcBad = false) (hbroken : (fuseRead lcBad slots.toNat drs ctr.toNat cut s).lcBroken = false)
    (hslots : slots = 0) (hdrs : drs = false) (hctr : ctr = 0) :
    fuseRead lcBad slots.toNat drs ctr.toNat cut s = fusesRead lcBad slots.toNat drs ctr.toNat cut s := by
  rw [(fuseRead_lcFuses ..).2] at hbroken
  rw [fuseRead_eq, State.when, if_neg]
  rw [hbroken]
  simp [hlc, hslots, hdrs, hctr]

theorem fuseRead_lc : (fuseRead lcBad slots.toNat drs ctr.toNat cut s).lc = (fuseRead lcBad slots.toNat drs ctr.toNat cut s).lcFuses := by
  rw [(fuseRead_lcFuses ..).1, ← fusesRead_lc]
  exact (fuseRead_onlyFaults ..).rd _ (by decide)

/-- Crucible's own record that it serves nothing is the statement's condition (R437). -/
theorem fuseRead_lcDown : let u := fuseRead lcBad slots.toNat drs ctr.toNat cut s
    u.sec.lcDown = decide (lcBad = true ∨ u.lcBroken = true ∨ u.lcFuses = lcDEAD) := by
  intro u
  obtain ⟨hlc, hbroken⟩ := fuseRead_lcFuses lcBad slots drs ctr cut s
  rw [show u.lcFuses = _ from hlc, show u.lcBroken = _ from hbroken, show u.sec = _ from fuseRead_sec .., fusesRead_sec,
    State.fusesDown]
  simp [Bool.or_assoc]

/-- Debug is open at FULL where the lifecycle opens it, and closed elsewhere (R457). -/
theorem fuseRead_dbg : let u := fuseRead lcBad slots.toNat drs ctr.toNat cut s
    u.rd Reg.SEC_STAT_DBG = if ¬ (lcBad = true ∨ u.lcBroken = true ∨ u.lcFuses = lcDEAD) ∧
      (u.lcFuses = lcBLANK ∨ u.lcFuses = lcMAKER ∨ u.lcFuses = lcRETURN) then 2 else 0 := by
  intro u
  obtain ⟨hlc, hbroken⟩ := fuseRead_lcFuses lcBad slots drs ctr cut s
  rw [show u.lcFuses = _ from hlc, show u.lcBroken = _ from hbroken, show u.rd _ = _ from (fuseRead_onlyFaults ..).rd _ (by decide),
    fusesRead_dbg]
  refine if_congr ((openRole_isSome _ _).trans (and_congr_left fun _ => ?_)) rfl rfl
  simp [State.fusesDown, and_assoc]

/-- What every outcome shows of the fuses (R433 to R438). -/
theorem fuses_shown {t : State} {rest : Prop} (h : AsRead (fuseRead lcBad slots.toNat drs ctr.toNat cut s) t) (hrest : rest) :
    let u := fuseRead lcBad slots.toNat drs ctr.toNat cut s
    let found := fun k => if s.sec.torn = some k then cut.val else SMap.get 0 s.sec.fuses k
    let lc := u.lcFuses
    let down := lcBad = true ∨ u.lcBroken = true ∨ lc = lcDEAD
    let openAtReset := ¬ down ∧ (lc = lcBLANK ∨ lc = lcMAKER ∨ lc = lcRETURN)
    (∀ k, SMap.get 0 t.sec.fuses k = if found k = 2 then 3 else found k) ∧ t.sec.torn = none ∧ t.sec.lcDown = decide down ∧
    t.lc = lc ∧ t.time = s.time ∧ t.axs = s.axs ∧ t.eng = s.eng ∧ t.sec.badSlots = slots.toNat ∧ t.sec.drsBad = drs ∧
    t.sec.badCtr = ctr.toNat ∧ (¬ openAtReset → t.rd Reg.SEC_STAT_DBG = 0) ∧ t.on Reg.SEC_STAT_TRNG_OK = ! s.sec.trngFail ∧
    (lcBad = true ∨ u.lcBroken = true ∨ slots ≠ 0 ∨ drs = true ∨ ctr ≠ 0 → t.isHeld Fc.FUSE_ERROR = true) ∧ rest := by
  intro u found lc down openAtReset
  have hof : OnlyFaults _ u := fuseRead_onlyFaults lcBad slots drs ctr cut s
  have hsec : u.sec = _ := fuseRead_sec lcBad slots drs ctr cut s
  rw [fusesRead_sec] at hsec
  refine ⟨fun k => ?_, ?_, ?_, ?_, ?_, ?_, ?_, ?_, ?_, ?_, fun hno => ?_, ?_, fun he => ?_, hrest⟩
  · rw [h.fuses, hsec]
    exact (complete3_get _ k).trans (by rw [fusesFound_get])
  · rw [h.torn, hsec]; rfl
  · rw [h.lcDown]; exact fuseRead_lcDown ..
  · rw [h.lc]; exact fuseRead_lc ..
  · rw [h.time, hof.time, fusesRead_frame]
  · rw [h.axs, hof.axs, fusesRead_frame]
  · rw [h.eng, hof.eng, fusesRead_frame]
  · rw [h.badSlots, hsec]; rfl
  · rw [h.drsBad, hsec]; rfl
  · rw [h.badCtr, hsec]; rfl
  · exact h.dbg ((fuseRead_dbg ..).trans (if_neg hno))
  · rw [h.trng, State.on, hof.rd _ (by decide)]
    exact fusesRead_trng ..
  · exact h.held _ (fuseRead_held lcBad slots drs ctr cut s he)

theorem fuseRead_keeps_flash : let u := fuseRead lcBad slots.toNat drs ctr.toNat cut s
    u.sec.booted = s.sec.booted ∧ u.sec.queue = s.sec.queue ∧ u.sec.image = s.sec.image := by
  intro u
  rw [show u.sec = _ from fuseRead_sec .., fusesRead_sec]
  exact ⟨rfl, rfl, rfl⟩

theorem fuseRead_boot_or_safe (hboot : s.dev.state = .boot) :
    (fuseRead lcBad slots.toNat drs ctr.toNat cut s).dev.state = .boot ∨ (fuseRead lcBad slots.toNat drs ctr.toNat cut s).dev.state = .safe := by
  have hstate : (fusesRead lcBad slots.toNat drs ctr.toNat cut s).dev.state = .boot := by rw [fusesRead_frame]; exact hboot
  have := (fuseRead_onlyFaults lcBad slots drs ctr cut s).state_or_safe (by rw [hstate]; decide)
  rwa [hstate] at this

end

theorem OnlyFaults.boot_or_safe {s t : State} (h : OnlyFaults s t) (hs : s.dev.state = .boot ∨ s.dev.state = .safe) :
    t.dev.state = .boot ∨ t.dev.state = .safe := by
  have := h.state_or_safe (by rcases hs with e | e <;> rw [e] <;> decide)
  rcases hs with e | e <;> rw [e] at this
  · exact this
  · exact .inr (this.elim id id)

/-! ### The three outcomes -/

/-- The device goes to SAFE with every safe state requested. -/
theorem enterSafe_settled (s : State) (hs : s.dev.state = .boot ∨ s.dev.state = .safe) :
    (settleAll (enterSafe s)).dev.state = .safe ∧ ∀ n < 8, tb (settleAll (enterSafe s)).fcu.supReq n = true := by
  obtain ⟨hdev, hreq, -, -⟩ := enterSafe_effect s (by rcases hs with e | e <;> rw [e] <;> decide)
  have hset := OnlyFaults.settleAll (enterSafe s)
  exact ⟨hset.stays_safe (by rw [hdev]), fun n hn => hset.request n hn (by rw [hreq]; interval_cases n <;> rfl)⟩

/-- `t` has started the image that slot `slot` of `v` holds (R453, R457). -/
def Boots (openAtReset : Prop) (lc slot : Nat) (v t : State) : Prop :=
  ∃ c, v.slotBox slot = some c ∧
    t.sec.booted = some slot ∧ t.sec.image = some c ∧ t.rd Reg.SEC_STAT_BOOT_SLOT = slot ∧
    t.sec.queue = (List.range (c.body.getD 1 0)).map CrucSrc.nested ∧ t.on Reg.SEC_STAT_BUSY = decide (0 < c.body.getD 1 0) ∧
    (t.split = true → (t.pr 0).released = true ∧ (t.pr 1).released = true) ∧
    (openAtReset → t.rd Reg.SEC_STAT_DBG = if lc = lcMAKER ∧ tb c.flags 1 = true then 0 else 2) ∧
    (if v.dev.state = .boot then t.dev.state = .assay ∨ t.dev.state = .safe else t.dev.state = .safe)

/-- The image starts from `w`, which is `v` or `v` with the raises of a fallback. -/
theorem bootEnd_boots (openAtReset : Prop) (lc slot : Nat) (c : Container) (v w : State) (hslot : slot < 2)
    (hbox : v.slotBox slot = some c) (hv : v.dev.state = .boot ∨ v.dev.state = .safe)
    (hw : w.dev.state = v.dev.state ∨ w.dev.state = .safe) (hlc : w.lc = lc) (hdbg : openAtReset → w.rd Reg.SEC_STAT_DBG = 2) :
    Boots openAtReset lc slot v (bootEnd (bootLoaded slot c w)) := by
  have hl := bootLoaded_loaded slot c w hslot
  have hk := KeepsUnits.bootEnd (bootLoaded slot c w)
  generalize bootLoaded slot c w = e at hl hk ⊢
  obtain ⟨d, hsec⟩ := hl.sec
  have hsec' := hk.sec.trans hsec
  refine ⟨c, hbox, by rw [hsec'], by rw [hsec'], ?_, by rw [hsec']; rfl, ?_, fun hsplit => ?_, fun ho => ?_, ?_⟩
  · rw [hk.rd _ (by decide), hl.bootSlot]
  · rw [State.on, hk.rd _ (by decide)]; exact hl.busy
  · have hpr : ∀ p, (bootEnd e).pr p = e.pr p := fun p => by rw [State.pr, hk.pair]; rfl
    rw [State.split, State.on, hk.rd _ (by decide)] at hsplit
    rw [hpr, hpr]
    exact hl.released hsplit
  · rw [hk.rd _ (by decide), hl.dbg, hlc, hdbg ho]
  · have hdev : e.dev.state = w.dev.state := by rw [hl.dev]
    by_cases hb : v.dev.state = .boot
    · rw [if_pos hb]
      rcases hw with h | h
      · exact bootEnd_state_boot e (by rw [hdev, h, hb])
      · exact .inr (bootEnd_state_safe e (hdev.trans h))
    · rw [if_neg hb]
      have hvs := hv.resolve_left hb
      exact bootEnd_state_safe e (hdev.trans (hw.elim (·.trans hvs) id))

/-- A calm start of an image ends in ASSAY with the role OFFLINE (R29). -/
theorem bootEnd_loaded_calm (slot : Nat) (c : Container) (w : State) (hslot : slot < 2) (hboot : w.dev.state = .boot) (hcalm : w.calm)
    (hpend : w.pends 152 = false) (hoff : w.on Reg.HIF_CFG_EVTEN = false) :
    (bootEnd (bootLoaded slot c w)).dev.state = .assay ∧ (bootEnd (bootLoaded slot c w)).role = roleOFFLINE := by
  have hl := bootLoaded_loaded slot c w hslot
  refine bootEnd_calm _ (by rw [hl.dev, hboot]) (by rw [State.calm, hl.fcu]; exact hcalm) ?_ ?_
  · rw [State.pends, State.bit, hl.rd _ (by decide)]; exact hpend
  · rw [State.on, hl.rd _ (by decide)]; exact hoff

/-- A started image shows the fuses as they were read. -/
theorem AsRead.bootEnd_loaded (slot : Nat) (c : Container) (s : State) (hslot : slot < 2) : AsRead s (bootEnd (bootLoaded slot c s)) :=
  (bootLoaded_loaded slot c s hslot).asRead.trans (KeepsUnits.bootEnd _).asRead

theorem trySlot_dev (slot : Nat) (counted : Bool) (s : State) : (trySlot slot counted s).2.dev = s.dev := by
  obtain ⟨a, b, m, p, h⟩ := trySlot_frame slot counted s
  rw [h]; rfl

theorem trySlot_rd (slot : Nat) (counted : Bool) (s : State) (f : Fld) : (trySlot slot counted s).2.rd f = s.rd f := by
  obtain ⟨a, b, m, p, h⟩ := trySlot_frame slot counted s
  rw [h]; rfl

theorem trySlot_fcu (slot : Nat) (counted : Bool) (s : State) : (trySlot slot counted s).2.fcu = s.fcu := by
  obtain ⟨a, b, m, p, h⟩ := trySlot_frame slot counted s
  rw [h]; rfl

theorem trySlot_keeps_booted (slot : Nat) (counted : Bool) (s : State) :
    (trySlot slot counted s).2.sec.booted = s.sec.booted ∧ (trySlot slot counted s).2.sec.image = s.sec.image := by
  obtain ⟨a, b, m, p, h⟩ := trySlot_frame slot counted s
  rw [h]; exact ⟨rfl, rfl⟩

/-- The state in which the other slot boots: FALLBACK set and BOOT_FALLBACK raised (R453). -/
def fallenBack (v : State) : State := raiseDev Fc.BOOT_FALLBACK (v.put Reg.SEC_STAT_FALLBACK true)

theorem fallenBack_asRead (v : State) : AsRead v (fallenBack v) := (AsRead.put_fallback v true).trans (OnlyFaults.raiseDev _ _).asRead

theorem fallenBack_state (v : State) (hv : v.dev.state = .boot ∨ v.dev.state = .safe) :
    (fallenBack v).dev.state = v.dev.state ∨ (fallenBack v).dev.state = .safe :=
  (OnlyFaults.raiseDev Fc.BOOT_FALLBACK (v.put Reg.SEC_STAT_FALLBACK true)).state_or_safe
    (by rw [show (v.put Reg.SEC_STAT_FALLBACK true).dev = v.dev from rfl]; rcases hv with e | e <;> rw [e] <;> decide)

theorem fallenBack_rd (v : State) (f : Fld) (hf : Fld.ofFaults f = false) (hne : Reg.SEC_STAT_FALLBACK.key ≠ f.key) :
    (fallenBack v).rd f = v.rd f :=
  ((OnlyFaults.raiseDev _ _).rd f hf).trans (State.rd_wr_ne _ _ _ _ hne)

/-- The fallback stays seen and held once the other slot has booted. -/
theorem fallenBack_boots_held (slot : Nat) (c : Container) (v : State) (hslot : slot < 2) :
    (bootEnd (bootLoaded slot c (fallenBack v))).on Reg.SEC_STAT_FALLBACK = true ∧
    (bootEnd (bootLoaded slot c (fallenBack v))).isHeld Fc.BOOT_FALLBACK = true := by
  constructor
  · rw [State.on, (KeepsUnits.bootEnd _).rd _ (by decide), (bootLoaded_loaded slot c _ hslot).fallback, fallenBack,
      (OnlyFaults.raiseDev _ _).rd _ (by decide), State.put, State.rd_wr_self]
    rfl
  · exact (AsRead.bootEnd_loaded slot c _ hslot).held _ (raiseDev_isHeld _ _ (by decide) (by decide))

/-- The choice of a slot from a state out of BOOT or SAFE: the preferred one, else the other one with FALLBACK, else SAFE (R453). -/
theorem chooseSlot_spec (openAtReset : Prop) (first : Nat) (counted : Bool) (s : State) (hfirst : first < 2)
    (hs : s.dev.state = .boot ∨ s.dev.state = .safe) (hdbg : openAtReset → s.rd Reg.SEC_STAT_DBG = 2) :
    let r := trySlot first counted s
    let r' := trySlot (1 - first) counted r.2
    ∃ t, chooseSlot first counted s = .next t ∧ AsRead s t ∧
      if r.1 = true then Boots openAtReset s.lc first r.2 t ∧ (s.dev.state = .boot → s.calm → s.pends 152 = false →
        s.on Reg.HIF_CFG_EVTEN = false → t.dev.state = .assay ∧ t.role = roleOFFLINE)
      else if r'.1 = true then Boots openAtReset s.lc (1 - first) r'.2 t ∧ t.on Reg.SEC_STAT_FALLBACK = true ∧
        t.isHeld Fc.BOOT_FALLBACK = true
      else t.dev.state = .safe ∧ t.sec.booted = s.sec.booted ∧ t.sec.image = s.sec.image := by
  intro r r'
  have hread : AsRead s r.2 := .trySlot ..
  have hread' : AsRead s r'.2 := hread.trans (.trySlot ..)
  have hdev : r.2.dev = s.dev := trySlot_dev ..
  have hdev' : r'.2.dev = s.dev := (trySlot_dev ..).trans hdev
  have hrd : ∀ f, r.2.rd f = s.rd f := trySlot_rd first counted s
  have hrd' : ∀ f, r'.2.rd f = s.rd f := fun f => (trySlot_rd ..).trans (hrd f)
  have hother : 1 - first < 2 := by omega
  cases hr : r.1 with
  | true =>
    obtain ⟨c, hbox⟩ := trySlot_boots_box first counted s hr
    refine ⟨_, chooseSlot_first first counted s c hr hbox, hread.trans (.bootEnd_loaded _ _ _ hfirst), ?_⟩
    rw [if_pos rfl]
    refine ⟨bootEnd_boots openAtReset _ _ _ _ _ hfirst hbox ?_ (.inl rfl) (hrd _) fun ho => ?_, fun hb hcalm hpend hoff => ?_⟩
    · rw [trySlot_dev]; exact hs
    · rw [trySlot_rd]; exact hdbg ho
    · refine bootEnd_loaded_calm _ _ _ hfirst (by rw [trySlot_dev, hb]) (by rw [State.calm, trySlot_fcu]; exact hcalm) ?_ ?_
      · rw [State.pends, State.bit, trySlot_rd]; exact hpend
      · rw [State.on, trySlot_rd]; exact hoff
  | false =>
    cases hr' : r'.1 with
    | true =>
      obtain ⟨c, hbox⟩ := trySlot_boots_box (1 - first) counted r.2 hr'
      have hst : r'.2.dev.state = .boot ∨ r'.2.dev.state = .safe := by rw [hdev']; exact hs
      refine ⟨_, chooseSlot_second first counted s c hr hr' hbox,
        (hread'.trans (fallenBack_asRead r'.2)).trans (.bootEnd_loaded _ _ _ hother), ?_⟩
      rw [if_neg (by decide), if_pos rfl]
      refine ⟨bootEnd_boots openAtReset _ _ c r'.2 (fallenBack r'.2) hother hbox hst (fallenBack_state _ hst) ?_ fun ho => ?_,
        fallenBack_boots_held (1 - first) c r'.2 hother⟩
      · exact (fallenBack_rd _ _ (by decide) (by decide)).trans (hrd' _)
      · rw [fallenBack_rd _ _ (by decide) (by decide), hrd', hdbg ho]
    | false =>
      obtain ⟨hb, hi⟩ := trySlot_keeps_booted first counted s
      obtain ⟨hb', hi'⟩ := trySlot_keeps_booted (1 - first) counted r.2
      have hof : OnlyFaults r'.2 (settleAll (enterSafe r'.2)) := (OnlyFaults.enterSafe _).trans (.settleAll _)
      refine ⟨_, chooseSlot_none first counted s hr hr', hread'.trans hof.asRead, ?_⟩
      rw [if_neg (by decide), if_neg (by decide)]
      refine ⟨(enterSafe_settled r'.2 (by rw [hdev']; exact hs)).1, ?_, ?_⟩
      · exact (congrArg SecSt.booted hof.sec).trans (hb'.trans hb)
      · exact (congrArg SecSt.image hof.sec).trans (hi'.trans hi)

theorem bcbNow_congr {s t : State} (h : t.sec = s.sec) : t.bcbNow = s.bcbNow := by
  rw [State.bcbNow, State.bcb_eq, h]; rfl

theorem State.when_not_false (s : State) (f : State → State) : s.when (! false) f = f s := rfl

theorem State.when_not_true (s : State) (f : State → State) : s.when (! true) f = s := rfl

/-- What follows on the fuses: SAFE with nothing served, or the choice of a slot with BCB_ERROR held where no block is valid. -/
theorem bootSelect_outcome (lcBad : Bool) (slots : BitVec 4) (drs : Bool) (ctr : BitVec 5) (cut : Fin 4) (s : State)
    (hboot : s.dev.state = .boot) :
    let u := fuseRead lcBad slots.toNat drs ctr.toNat cut s
    let lc := u.lcFuses
    let down := lcBad = true ∨ u.lcBroken = true ∨ lc = lcDEAD
    let openAtReset := ¬ down ∧ (lc = lcBLANK ∨ lc = lcMAKER ∨ lc = lcRETURN)
    let counted := u.bcb.isSome
    let v := u.when (! counted) (raiseDev Fc.BCB_ERROR)
    let r := trySlot (u.bcbNow.prefer % 2) counted v
    let r' := trySlot (1 - u.bcbNow.prefer % 2) counted r.2
    ∃ t, (if u.sec.lcDown = true then done (enterSafe u) else chooseSlot (v.bcbNow.prefer % 2) counted v) = .next t ∧ AsRead u t ∧
      if down then
        t.dev.state = .safe ∧ t.sec.booted = s.sec.booted ∧ t.sec.queue = s.sec.queue ∧ ∀ n < 8, tb t.fcu.supReq n = true
      else (counted = false → t.isHeld Fc.BCB_ERROR = true) ∧
        if r.1 = true then Boots openAtReset lc (u.bcbNow.prefer % 2) r.2 t ∧
          (s.calm → lcBad = false → slots = 0 → drs = false → ctr = 0 → counted = true → s.pends 152 = false →
            s.on Reg.HIF_CFG_EVTEN = false → t.dev.state = .assay ∧ t.role = roleOFFLINE)
        else if r'.1 = true then Boots openAtReset lc (1 - u.bcbNow.prefer % 2) r'.2 t ∧ t.on Reg.SEC_STAT_FALLBACK = true ∧
          t.isHeld Fc.BOOT_FALLBACK = true
        else t.dev.state = .safe ∧ t.sec.booted = s.sec.booted ∧ t.sec.image = s.sec.image := by
  intro u lc down openAtReset counted v r r'
  have hlcDown : u.sec.lcDown = decide down := fuseRead_lcDown lcBad slots drs ctr cut s
  have hstate : u.dev.state = .boot ∨ u.dev.state = .safe := fuseRead_boot_or_safe lcBad slots drs ctr cut s hboot
  obtain ⟨hbooted, hqueue, himage⟩ := fuseRead_keeps_flash lcBad slots drs ctr cut s
  by_cases hdown : down
  · have hof : OnlyFaults u (settleAll (enterSafe u)) := (OnlyFaults.enterSafe _).trans (.settleAll _)
    obtain ⟨hsafe, hreq⟩ := enterSafe_settled u hstate
    refine ⟨_, if_pos (by rw [hlcDown, decide_eq_true hdown]), hof.asRead, ?_⟩
    rw [if_pos hdown]
    exact ⟨hsafe, (congrArg SecSt.booted hof.sec).trans hbooted, (congrArg SecSt.queue hof.sec).trans hqueue, hreq⟩
  · have hv : OnlyFaults u v := .when _ _ (.refl _) (.raiseDev _ _)
    have hprefer : v.bcbNow = u.bcbNow := bcbNow_congr hv.sec
    obtain ⟨t, hexec, hread, hout⟩ := chooseSlot_spec openAtReset (u.bcbNow.prefer % 2) counted v (Nat.mod_lt _ (by decide))
      (hv.boot_or_safe hstate) fun ho => (hv.rd _ (by decide)).trans ((fuseRead_dbg lcBad slots drs ctr cut s).trans (if_pos ho))
    have hlc : v.lc = lc := (hv.rd _ (by decide)).trans (fuseRead_lc lcBad slots drs ctr cut s)
    refine ⟨t, ?_, hv.asRead.trans hread, ?_⟩
    · rw [if_neg (by rw [hlcDown, decide_eq_false hdown]; decide), hprefer]; exact hexec
    · rw [if_neg hdown]
      refine ⟨fun hcounted => hread.held _ ?_, ?_⟩
      · rw [show v = raiseDev Fc.BCB_ERROR u from by show State.when u (! counted) _ = _; rw [hcounted]; exact u.when_not_false _]
        exact raiseDev_isHeld _ _ (by decide) (by decide)
      · rw [hlc] at hout
        by_cases hr : r.1 = true
        · rw [if_pos hr] at hout ⊢
          obtain ⟨hboots, hcalm⟩ := hout
          refine ⟨hboots, fun hs hlcBad hslots hdrs hctr hcounted hpend hoff => ?_⟩
          have hvu : v = u := by show State.when u (! counted) _ = _; rw [hcounted]; exact u.when_not_true _
          have hquiet := fuseRead_quiet lcBad slots drs ctr cut s hlcBad (Bool.eq_false_iff.mpr fun h => hdown (.inr (.inl h))) hslots hdrs hctr
          have hframe : ∃ q x, u = { s with regs := q, sec := x } := ⟨_, _, hquiet.trans (fusesRead_frame ..)⟩
          have hfcu : u.fcu = s.fcu := by obtain ⟨q, x, h⟩ := hframe; rw [h]
          have hdev : u.dev = s.dev := by obtain ⟨q, x, h⟩ := hframe; rw [h]
          rw [hvu] at hcalm
          refine hcalm (by rw [hdev, hboot]) (by rw [State.calm, hfcu]; exact hs) ?_ ?_
          · rw [State.pends, State.bit, show u = _ from hquiet, fusesRead_rd_ne _ _ _ _ _ _ _ (by decide)]; exact hpend
          · rw [State.on, show u = _ from hquiet, fusesRead_rd_ne _ _ _ _ _ _ _ (by decide)]; exact hoff
        · rw [if_neg hr] at hout ⊢
          by_cases hr' : r'.1 = true
          · rw [if_pos hr'] at hout ⊢
            exact hout
          · rw [if_neg hr'] at hout ⊢
            obtain ⟨hsafe, hb, hi⟩ := hout
            exact ⟨hsafe, hb.trans ((congrArg SecSt.booted hv.sec).trans hbooted), hi.trans ((congrArg SecSt.image hv.sec).trans himage)⟩

/-- Outside BOOT the command changes nothing. -/
theorem exec_bootSelect_later (bcb0 bcb1 : Option Bcb) (slotA slotB : Option Container) (lcBad : Bool) (slots : BitVec 4) (drs : Bool)
    (ctr : BitVec 5) (cut : Fin 4) (s : State) (hlive : s.live pdCRUC = true) (hboot : s.dev.state ≠ .boot) :
    exec (.bootSelect bcb0 bcb1 slotA slotB lcBad slots drs ctr cut) s = .next s := by
  have h : exec (.bootSelect bcb0 bcb1 slotA slotB lcBad slots drs ctr cut) s =
    execBootSelect bcb0 bcb1 slotA slotB lcBad slots drs ctr cut s := rfl
  rw [h, execBootSelect, hlive]
  simp [hboot]

/-- Settles O46: one slot is tried as `trySlot_spec` says; the boot ROM reads the fuses, which every outcome shows (`fuses_shown`),
and then takes one of the outcomes of `bootSelect_outcome`. -/
theorem bootSelection : Obligations.BootSelection := by
  refine ⟨fun slot counted s _ => trySlot_spec slot counted s,
    fun bcb0 bcb1 slotA slotB lcBad slots drs ctr cut s hlive => ⟨fun hne => ⟨s, exec_bootSelect_later _ _ _ _ _ _ _ _ _ s hlive hne, rfl⟩,
      fun hboot => ?_⟩⟩
  obtain ⟨t, hout, hread, hrest⟩ := bootSelect_outcome lcBad slots drs ctr cut (withFlash bcb0 bcb1 slotA slotB s) hboot
  refine ⟨t, ?_, ?_⟩
  · exact (exec_bootSelect _ _ _ _ lcBad slots drs ctr cut s hlive hboot).trans hout
  · refine fuses_shown lcBad slots drs ctr cut (withFlash bcb0 bcb1 slotA slotB s) hread ?_
    exact hrest

end Sys2Proof.Machine
end

section
/-! The frame tick (O2): the end of LEE comes after the frame work. -/
namespace Sys2Proof.Machine

/-- The device runs in LEE with the role ACTIVE; no Lee cause stands, Lee time is left, and every frame is a cycle. -/
def leeWithoutCause : State :=
  { regsSet [(Reg.TIME_CYCLE, 1), (Reg.SEAM_STAT_ROLE, roleACTIVE), (Reg.FCU_LEE_LIMIT, 1)] with dev := { state := .lee } }

/-- The state in which the frame tick of `s` has counted the frame. -/
def State.frameCounted (s : State) : State :=
  countFrame (endFrame (rxDone (advance (s.edgesTo ((s.time.fc.toNat + 1) * s.frameTicks * 2 ^ 32)) s)))

/-- The boundary work and the frame work of a tick that has counted its frame in `u`, settled. -/
def tickWork (u : State) : State := settleAll (frameWork (decide (u.fidx = 0)) (if u.fidx = 0 then boundaryTick u else u))

/-- At the boundary the device leaves LEE (R417). -/
theorem devStateAfter_frameTick_leeWithoutCause : devStateAfter .frameTick leeWithoutCause = some .active := by decide +kernel

theorem tickWork_leeWithoutCause : (tickWork leeWithoutCause.frameCounted).dev.state = .lee := by decide +kernel

/-- Refutes O2: the frame work is not the last the tick does. At a boundary at which no Lee cause stands any more the device then
leaves LEE: the tick ends in ACTIVE, while the boundary work and the frame work leave the device in LEE. -/
theorem not_frameTickCountsFrame : ¬ Obligations.FrameTickCountsFrame := by
  unfold Obligations.FrameTickCountsFrame
  intro h
  obtain ⟨-, -, -, -, -, t, hexec, ht⟩ := h leeWithoutCause (by decide +kernel)
  have hwork : t = tickWork leeWithoutCause.frameCounted := ht
  have hactive := devStateAfter_frameTick_leeWithoutCause
  rw [devStateAfter, hexec] at hactive
  have hlee := tickWork_leeWithoutCause
  rw [← hwork, Option.some.inj hactive] at hlee
  cases hlee

end Sys2Proof.Machine
end

section
/-! A CHECK entry (O4): the end of a stall at LAG_MAX moves the marks that wait. -/
namespace Sys2Proof.Machine

/-- The mark of a checkpoint at instruction count 0, taken at CT 0. -/
def firstMark : Mark := { ic := 0, cpid := 0, src := 1, sig := 0, at' := 0, stores := 0, scrub := false }

/-- A CHECK of pair X is next, ten ticks after reset. The pair is in service; its main core stands one instruction ahead of its
checker, which waits at the mark. It stalled at LAG_MAX from CT 0 on, and LAG_MAX has since been raised to 8. -/
def stalledAtLagMax : State :=
  let s := (anvOn (entry opCHECK 1)).wr Reg.CHK_STAT_X_STATE pairINSERVICE |>.wr Reg.CHK_CFG_LAG_MAX 8
  { s with pair := [(0, { mainIc := 1, fifo := [firstMark], lagAt := some 0 })], time := { s.time with lt := 10 * 2 ^ 32 } }

/-- The clocks of the marks that wait in pair X once the command has completed. -/
def markTimesAfter (c : Instr) (s : State) : Option (List Nat) :=
  match exec c s with
  | .next t => some ((t.pr 0).fifo.map Mark.at')
  | _ => none

/-- The CHECK finds the stall over, and its ten ticks do not count against CP_TOUT: the first mark moves to CT 10 (R254, R261). -/
theorem markTimesAfter_check_stalledAtLagMax : markTimesAfter (.anvCheck .ok 1 0) stalledAtLagMax = some [10, 10] := by decide +kernel

theorem fifo_issued_stalledAtLagMax : ((stalledAtLagMax.issued (entry opCHECK 1) .ok).pr 0).fifo = [firstMark] := by decide +kernel

/-- What the statement asks of the pair before the entry acts. -/
theorem stalledAtLagMax_takes_check : let u := stalledAtLagMax.issued (entry opCHECK 1) .ok
    u.pairOn 0 = true ∧ (u.pr 0).resync = false ∧ (u.pr 0).stalled = none ∧ u.mainCan 0 1 = true ∧
      (u.pr 0).lastMark ≠ some (max (u.pr 0).mainIc 1) := by
  decide +kernel

/-- Refutes O4: a CHECK need not leave the marks that wait as they were. Where it finds that the main core no longer stalls at
LAG_MAX, each of them moves on by the time of the stall. -/
theorem not_anvilOutputEntries : ¬ Obligations.AnvilOutputEntries := by
  unfold Obligations.AnvilOutputEntries
  intro h
  obtain ⟨check, -⟩ := h (entry opCHECK 1) .ok stalledAtLagMax (by decide)
  obtain ⟨t, hexec, -, -, -, -, hpair⟩ := check 1 0 (by decide +kernel)
  obtain ⟨hon, hresync, hstall, hcan, hlast⟩ := stalledAtLagMax_takes_check
  have hfifo := fifo_issued_stalledAtLagMax
  obtain ⟨m, hm, -⟩ := (hpair 0 (by decide)).2 (by decide) hon hresync hstall hcan hlast (by rw [hfifo]; decide)
  have htimes := markTimesAfter_check_stalledAtLagMax
  rw [markTimesAfter, hexec] at htimes
  have hsome := Option.some.inj htimes
  rw [hm, hfifo] at hsome
  exact absurd (List.cons.inj hsome).1 (by decide)

end Sys2Proof.Machine
end

section
/-! Commands that end in `done`, and register fields across a write or a raise. -/
namespace Sys2Proof.Machine

theorem settleAll_settled (u : State) : Settled u (settleAll u) := ⟨.settleAll u, settleAll_calm u⟩

/-- A command that ends in `done` completes with whatever follows from its effect being settled. -/
theorem completes_of_done {c : Instr} {s u : State} {P : State → Prop} (hexec : exec c s = done u)
    (h : ∀ t, Settled u t → P t) : Completes c s P :=
  ⟨settleAll u, hexec, h _ (settleAll_settled u)⟩

/-- In a state without consequences such a command answers its effect. -/
theorem completes_of_done_calm {c : Instr} {s u : State} {P : State → Prop} (hexec : exec c s = done u) (hcalm : u.calm)
    (h : P u) : Completes c s P :=
  completes_of_done hexec fun t ht => by rw [ht.2 hcalm]; exact h

theorem completes_of_next {c : Instr} {s u : State} {P : State → Prop} (hexec : exec c s = .next u) (h : P u) :
    Completes c s P := ⟨u, hexec, h⟩

/-- Equal register files read equal. -/
theorem State.rd_congr {s t : State} (h : t.regs = s.regs) (f : Fld) : t.rd f = s.rd f := by rw [State.rd, h]; rfl

theorem State.on_put_self (s : State) (f : Fld) (b : Bool) (hw : f.w = 1) : (s.put f b).on f = b := by
  rw [State.on, State.put, State.rd_wr_self, hw]; cases b <;> rfl

theorem State.rd_put_ne (s : State) (f g : Fld) (b : Bool) (h : f.key ≠ g.key) : (s.put f b).rd g = s.rd g := s.rd_wr_ne f g _ h

theorem State.on_put_ne (s : State) (f g : Fld) (b : Bool) (h : f.key ≠ g.key) : (s.put f b).on g = s.on g := by
  rw [State.on, s.rd_put_ne f g b h]; rfl

theorem State.on_wr_ne (s : State) (f g : Fld) (v : Nat) (h : f.key ≠ g.key) : (s.wr f v).on g = s.on g := by
  rw [State.on, s.rd_wr_ne f g v h]; rfl

theorem State.bit_wr_ne (s : State) (f g : Fld) (v n : Nat) (h : f.key ≠ g.key) : (s.wr f v).bit g n = s.bit g n := by
  rw [State.bit, s.rd_wr_ne f g v h]; rfl

theorem OnlyFaults.on {s t : State} (h : OnlyFaults s t) (f : Fld) (hf : Fld.ofFaults f = false) : t.on f = s.on f := by
  rw [State.on, h.rd f hf]; rfl

theorem OnlyFaults.bit {s t : State} (h : OnlyFaults s t) (f : Fld) (n : Nat) (hf : Fld.ofFaults f = false) : t.bit f n = s.bit f n := by
  rw [State.bit, h.rd f hf]; rfl

theorem OnlyFaults.live {s t : State} (h : OnlyFaults s t) (d : Nat) : t.live d = s.live d := by
  rw [State.live, State.domState, h.pwr, h.rd Reg.PWR_DOM (by decide)]; rfl

/-- An event leaves its source pending. -/
theorem irq_pends (src : Nat) (s : State) (h : src < 256) : (irq src s).pends src = true := irq_pend s src h

/-- A change of the state of Fudorlink: none where it is in that state, else the field and what raising does (R351). -/
theorem setSs_cases (x : Nat) (s : State) :
    (s.sstate = x ∧ setSs x s = s) ∨ (s.sstate ≠ x ∧ OnlyFaults (s.wr Reg.FDL_STAT_SSTATE x) (setSs x s)) := by
  unfold setSs
  split
  · next h => exact .inl ⟨h, rfl⟩
  · next h => exact .inr ⟨h, .raiseIrq 129 (by decide) _⟩

end Sys2Proof.Machine
end

section
/-! Offset slew, offset requests, loads of CT, time reads and the fall to the RC (O1). -/
namespace Sys2Proof.Machine

/-! ### The end of the slew -/

/-- The edges that SLEW_END waits for move the whole remainder. -/
theorem slewMoved_end (rem : Int) : slewMoved rem (ceilDiv rem.natAbs slewStep) = rem := by
  have hcovers : rem.natAbs ≤ ceilDiv rem.natAbs slewStep * slewStep := by unfold ceilDiv slewStep; omega
  unfold slewMoved
  split <;> omega

/-- The clock advanced to the end of the slew: the remainder stands in OFS, SLEWING is clear and source 218 is raised. -/
theorem advance_slewEnd (s : State) (h : s.time.rem ≠ 0) : ∃ u : State, u.time.rem = 0 ∧
    u.time.ofs = s.time.ofs + BitVec.ofInt 96 s.time.rem ∧ u.time.fc = s.time.fc ∧
    advance (ceilDiv s.time.rem.natAbs slewStep) s = irq 218 (u.put Reg.TIME_STAT_SLEWING false) := by
  unfold advance State.when
  simp only [slewMoved_end, ne_eq, h, not_false_eq_true, decide_true, Bool.and_self, if_true]
  exact ⟨{ s with
    time := { s.time with
      lt := s.time.lt + BitVec.ofInt 96 (s.edge * ceilDiv s.time.rem.natAbs slewStep), rem := s.time.rem - s.time.rem
      ofs := s.time.ofs + BitVec.ofInt 96 s.time.rem, ft := s.time.ft + ceilDiv s.time.rem.natAbs slewStep
      clk := s.time.clk + ceilDiv s.time.rem.natAbs slewStep }
    so := if ceilDiv s.time.rem.natAbs slewStep = 0 then s.so else s.soNoted }, Int.sub_self _, rfl, rfl, rfl⟩

theorem slewEnd_completes (s : State) (hruns : s.runs = true) (hrem : s.time.rem ≠ 0) : Completes .slewEnd s fun t =>
    t.time.rem = 0 ∧ t.time.ofs = s.time.ofs + BitVec.ofInt 96 s.time.rem ∧ t.on Reg.TIME_STAT_SLEWING = false ∧
    t.pends 218 = true ∧ t.time.fc = s.time.fc := by
  have hexec : exec .slewEnd s = done (advance (ceilDiv s.time.rem.natAbs slewStep) s) := by
    show execSlewEnd s = _
    simp [execSlewEnd, hruns, hrem]
  obtain ⟨u, hzero, hofs, hfc, hadv⟩ := advance_slewEnd s hrem
  rw [hadv] at hexec
  refine completes_of_done hexec fun t ht => ?_
  have hof : OnlyFaults (u.put Reg.TIME_STAT_SLEWING false) t := (OnlyFaults.irq _ 218 (by decide)).trans ht.1
  have htime : t.time = u.time := hof.time
  rw [htime]
  refine ⟨hzero, hofs, ?_, ht.1.pends 218 (by decide) (irq_pends 218 _ (by decide)), hfc⟩
  exact (hof.on _ (by decide)).trans (u.on_put_self _ _ rfl)

/-! ### Loads of CT -/

/-- CT after a load, and what the load writes. -/
theorem loadCt_effect (v : Nat) (s : State) : let t := loadCt v s
    t.ct = v % 2 ^ 96 ∧ t.time.lt = s.time.lt ∧ t.time.rem = 0 ∧ t.time.ofsArmed = false ∧
    t.time.fc.toNat = v / 2 ^ 32 / s.frameTicks % 2 ^ 64 ∧ t.on Reg.TIME_STAT_CT_VALID = true ∧
    t.on Reg.TIME_STAT_SLEWING = false ∧ t.pends 217 = true := by
  intro t
  obtain ⟨u, hu, htime⟩ : ∃ u : State, t = irq 217 ((u.put Reg.TIME_STAT_CT_VALID true).put Reg.TIME_STAT_SLEWING false) ∧
      u.time = { s.time with ofs := BitVec.ofNat 96 v - s.time.lt, rem := 0, ofsArmed := false, backlog := 0
                             fc := BitVec.ofNat 64 (v / 2 ^ 32 / s.frameTicks) } := ⟨_, rfl, rfl⟩
  have hof := OnlyFaults.irq ((u.put Reg.TIME_STAT_CT_VALID true).put Reg.TIME_STAT_SLEWING false) 217 (by decide)
  rw [← hu] at hof
  have ht : t.time = _ := hof.time.trans htime
  refine ⟨?_, by rw [ht], by rw [ht], by rw [ht], ?_, ?_, ?_, ?_⟩
  · rw [State.ct, ht]
    simp
  · rw [ht]; exact BitVec.toNat_ofNat ..
  · rw [hof.on _ (by decide), State.on_put_ne _ _ _ _ (by decide), State.on_put_self _ _ _ rfl]
  · rw [hof.on _ (by decide), State.on_put_self _ _ _ rfl]
  · rw [hu]; exact irq_pends 217 _ (by decide)

theorem newSession_frame (s : State) : ∃ a n, newSession s = { s with alm := a, fresh := n } := by
  unfold newSession
  split
  · exact ⟨_, _, rfl⟩
  · split
    · exact ⟨_, _, rfl⟩
    · exact ⟨_, _, rfl⟩

theorem ctLoad_completes (s : State) (hruns : s.runs = true) (hrun : s.on Reg.ANV_CTRL_RUN = false)
    (hrunning : s.on Reg.ANV_STAT_RUNNING = false) : Completes .ctLoad s fun t =>
      t.ct = s.ctSet % 2 ^ 96 ∧ t.time.lt = s.time.lt ∧ t.time.rem = 0 ∧ t.time.ofsArmed = false ∧
      t.time.fc.toNat = s.ctSet / 2 ^ 32 / s.frameTicks % 2 ^ 64 ∧ t.on Reg.TIME_STAT_CT_VALID = true ∧
      t.on Reg.TIME_STAT_SLEWING = false ∧ t.pends 217 = true := by
  have hframe : ∃ a n, ctLoad s = { loadCt s.ctSet s with alm := a, fresh := n } := by
    unfold ctLoad State.when
    simp only [hrun, hrunning, Bool.or_self, Bool.false_eq_true, if_false]
    split
    · exact newSession_frame _
    · exact ⟨_, _, rfl⟩
  obtain ⟨a, n, hload⟩ := hframe
  have hexec : exec .ctLoad s = done (ctLoad s) := by
    show execCtLoad s = _
    simp [execCtLoad, hruns]
  refine completes_of_done hexec fun t ht => ?_
  rw [hload] at ht
  have hof := ht.1
  have htime : t.time = (loadCt s.ctSet s).time := hof.time
  obtain ⟨hct, hlt, hrem, harmed, hfc, hvalid, hslew, hpend⟩ := loadCt_effect s.ctSet s
  rw [State.ct] at hct
  rw [State.ct, htime]
  exact ⟨hct, hlt, hrem, harmed, hfc, (hof.on _ (by decide)).trans hvalid, (hof.on _ (by decide)).trans hslew,
    hof.pends 217 (by decide) hpend⟩

/-! ### The fall to the RC -/

/-- LOST stands once the node is LOST, with what was pending and held (R336). -/
theorem enterLost_effect (s : State) (hsync : s.sstate = ssSYNC) : OnlyFaults (s.wr Reg.FDL_STAT_SSTATE ssLOST) (enterLost s) := by
  have hset : OnlyFaults (s.wr Reg.FDL_STAT_SSTATE ssLOST) (setSs ssLOST s) := by
    rcases setSs_cases ssLOST s with ⟨h, -⟩ | ⟨-, h⟩
    · rw [hsync] at h; exact absurd h (by decide)
    · exact h
  exact (hset.trans (.raiseDev _ _)).trans (.requestSafe _ _)

theorem oscFallback_completes (s : State) (hrc : s.on Reg.TIME_STAT_ON_RC = false) : Completes .oscFallback s fun t =>
    t.on Reg.TIME_STAT_ON_RC = true ∧ t.on Reg.TIME_STAT_REF_OK = false ∧ t.pends 216 = true ∧
    t.isHeld Fc.OSC_FALLBACK = true ∧ (s.live pdNET = true → s.sstate = ssSYNC → t.sstate = ssLOST) := by
  obtain ⟨x, hx, hregs, hpwr⟩ : ∃ x : State, raiseDev Fc.OSC_FALLBACK x =
      raiseDev Fc.OSC_FALLBACK { s.put Reg.TIME_STAT_REF_OK false with time := { s.time with fell := true } } ∧
      x.regs = (s.put Reg.TIME_STAT_REF_OK false).regs ∧ x.pwr = s.pwr := ⟨_, rfl, rfl, rfl⟩
  have hxrd : ∀ f, x.rd f = (s.put Reg.TIME_STAT_REF_OK false).rd f := State.rd_congr hregs
  generalize hy : raiseDev Fc.OSC_FALLBACK x = y at hx
  have hof : OnlyFaults x y := hy ▸ .raiseDev _ _
  have hheld : y.isHeld Fc.OSC_FALLBACK = true := hy ▸ raiseDev_isHeld _ _ (by decide) (by decide)
  have hyrd : ∀ f, Fld.ofFaults f = false → Reg.TIME_STAT_REF_OK.key ≠ f.key → y.rd f = s.rd f := fun f hf hne =>
    (hof.rd f hf).trans ((hxrd f).trans (s.rd_put_ne _ _ _ hne))
  have hylive : y.live pdNET = s.live pdNET := by
    rw [State.live, State.domState, hof.pwr, hpwr, hyrd Reg.PWR_DOM (by decide) (by decide)]; rfl
  have hysync : y.sstate = s.sstate := hyrd _ (by decide) (by decide)
  have hyrc : y.on Reg.TIME_STAT_ON_RC = false := by rw [State.on, hyrd _ (by decide) (by decide)]; exact hrc
  have hyref : y.on Reg.TIME_STAT_REF_OK = false := by
    rw [hof.on _ (by decide), State.on, hxrd]; exact State.on_put_self s _ _ rfl
  -- the timebase moves to the RC
  generalize hz : irq 216 (y.put Reg.TIME_STAT_ON_RC true) = z
  have hzof : OnlyFaults (y.put Reg.TIME_STAT_ON_RC true) z := hz ▸ .irq _ 216 (by decide)
  have hzpend : z.pends 216 = true := hz ▸ irq_pends 216 _ (by decide)
  have hzlive : z.live pdNET = s.live pdNET := by
    rw [hzof.live, ← hylive, State.live, State.domState, State.rd_put_ne _ _ _ _ (by decide)]; rfl
  have hzsync : z.sstate = s.sstate := by
    rw [State.sstate, hzof.rd _ (by decide), State.rd_put_ne _ _ _ _ (by decide)]; exact hysync
  have hexec : exec .oscFallback s = done (z.when (z.live pdNET && z.sstate = ssSYNC) enterLost) := by
    have h : execOscFallback s = done (onRc y) := by simp only [execOscFallback, hrc, Bool.false_eq_true, if_false, ← hx]
    have hrcz : onRc y = z.when (z.live pdNET && z.sstate = ssSYNC) enterLost := by
      simp only [onRc, hyrc, Bool.false_eq_true, if_false, hz]
    exact h.trans (congrArg done hrcz)
  -- what every state after that keeps of it
  have hkeep : ∀ w t : State, w.regs = z.regs ∨ w = z.wr Reg.FDL_STAT_SSTATE ssLOST → OnlyFaults w t → w.fcu = z.fcu →
      t.on Reg.TIME_STAT_ON_RC = true ∧ t.on Reg.TIME_STAT_REF_OK = false ∧ t.pends 216 = true ∧ t.isHeld Fc.OSC_FALLBACK = true := by
    intro w t hw hwt hfcu
    have hwrd : ∀ f, Reg.FDL_STAT_SSTATE.key ≠ f.key → w.rd f = z.rd f := by
      intro f hne
      rcases hw with h | h
      · exact State.rd_congr h f
      · rw [h]; exact z.rd_wr_ne _ _ _ hne
    refine ⟨?_, ?_, hwt.pends 216 (by decide) ?_, hwt.held _ ?_⟩
    · rw [hwt.on _ (by decide), State.on, hwrd _ (by decide)]
      exact (hzof.on _ (by decide)).trans (State.on_put_self _ _ _ rfl)
    · rw [hwt.on _ (by decide), State.on, hwrd _ (by decide)]
      exact (hzof.on _ (by decide)).trans ((State.on_put_ne _ _ _ _ (by decide)).trans hyref)
    · rw [State.pends, State.bit, hwrd _ (by decide)]; exact hzpend
    · rw [State.isHeld, State.heldReact, hfcu]; exact hzof.held _ hheld
  refine completes_of_done hexec fun t ht => ?_
  by_cases hlost : (z.live pdNET && decide (z.sstate = ssSYNC)) = true
  · rw [State.when, if_pos hlost] at ht
    simp only [Bool.and_eq_true, decide_eq_true_eq] at hlost
    have hof' := (enterLost_effect z hlost.2).trans ht.1
    obtain ⟨hrc', href', hpend, hheld'⟩ := hkeep _ t (.inr rfl) hof' rfl
    exact ⟨hrc', href', hpend, hheld', fun _ _ => (hof'.rd _ (by decide)).trans (State.rd_wr_self z _ _)⟩
  · rw [State.when, if_neg hlost] at ht
    obtain ⟨hrc', href', hpend, hheld'⟩ := hkeep z t (.inl rfl) ht.1 rfl
    exact ⟨hrc', href', hpend, hheld', fun hl hs => absurd (by simp [hzlive, hzsync, hl, hs]) hlost⟩

/-! ### Requests, reads and writes -/

theorem frameCycleWrite_completes (b : Bool) (v : Word) (s : State) (hruns : s.runs = true) (hcalm : s.calm)
    (hlock : s.on Reg.TIME_CTRL_LOCK = false) :
    let x := if b then v.toNat % 512 else v.toNat % 2 ^ 20
    let ok := if b then 1 ≤ x ∧ x ≤ 256 else 4000 ≤ x ∧ x ≤ 1000000
    Completes (.frameCycleWrite b v) s fun t => t = if s.on Reg.ANV_STAT_RUNNING = false ∧ ok then
      s.wr (if b then Reg.TIME_CYCLE else Reg.TIME_FRAME) x else s.put Reg.TIME_STAT_WDENY true := by
  intro x ok
  have hwrite : execFrameCycleWrite b v s = if (s.on Reg.ANV_STAT_RUNNING || ! decide ok) = true then
      done (s.put Reg.TIME_STAT_WDENY true) else done (s.wr (if b then Reg.TIME_CYCLE else Reg.TIME_FRAME) x) := by
    unfold execFrameCycleWrite
    simp only [hruns, hlock]
    cases b <;> rfl
  have hexec : exec (.frameCycleWrite b v) s = done (if s.on Reg.ANV_STAT_RUNNING = false ∧ ok then
      s.wr (if b then Reg.TIME_CYCLE else Reg.TIME_FRAME) x else s.put Reg.TIME_STAT_WDENY true) := by
    refine Eq.trans hwrite ?_
    cases hr : s.on Reg.ANV_STAT_RUNNING <;> by_cases hok : ok <;> simp [hok]
  refine completes_of_done_calm hexec ?_ rfl
  split
  · exact hcalm
  · exact hcalm

/-- A latched read returns the low ticks and keeps the high ticks and the fraction for its master (R41). -/
theorem exec_timeReadLatch_lt (m : Master) (s : State) (hruns : s.runs = true) (hshadow : hasShadow m = true) :
    exec (.timeReadLatch m .lt) s = done { s with
      dev := { s.dev with readData := s.time.lt.toNat / 2 ^ 32 % 2 ^ 32 }
      time := { s.time with
        shadowLt := SMap.set (0, 0) s.time.shadowLt (masterCode m) (s.time.lt.toNat / 2 ^ 64, s.time.lt.toNat % 2 ^ 32) } } := by
  show execTimeReadLatch m .lt s = _
  simp only [execTimeReadLatch, hruns, hshadow, Bool.not_true, Bool.false_eq_true, if_false, if_true]

theorem exec_timeReadLatch_ct (m : Master) (s : State) (hruns : s.runs = true) (hshadow : hasShadow m = true) :
    exec (.timeReadLatch m .ct) s = done { s with
      dev := { s.dev with readData := s.ct / 2 ^ 32 % 2 ^ 32 }
      time := { s.time with shadowCt := SMap.set (0, 0) s.time.shadowCt (masterCode m) (s.ct / 2 ^ 64, s.ct % 2 ^ 32) } } := by
  show execTimeReadLatch m .ct s = _
  simp only [execTimeReadLatch, hruns, hshadow, Bool.not_true, Bool.false_eq_true, if_false, if_true]

/-- Settles O1: the slew ends (`slewEnd_completes`), CT is loaded (`ctLoad_completes`), the reference is lost
(`oscFallback_completes`), FRAME and CYCLE are written (`frameCycleWrite_completes`); the others write one field or one shadow. -/
theorem timeOffsetAndLoad : Obligations.TimeOffsetAndLoad := by
  refine ⟨slewEnd_completes, ?_, ?_, ctLoad_completes, ?_, ?_, ?_, ?_, ?_, oscFallback_completes⟩
  · intro v s hruns hcalm hoff
    refine completes_of_done_calm (u := { s.wr Reg.TIME_OFS_REQ_I v.toNat with time := { s.time with ofsArmed := true } }) ?_ hcalm rfl
    show execOffsetRequest v s = _
    simp [execOffsetRequest, hruns, hoff]
  · intro v s hruns hcalm hon
    refine completes_of_done_calm (u := s.put Reg.FDL_STAT_SWDENY true) ?_ hcalm rfl
    show execOffsetRequest v s = _
    simp [execOffsetRequest, hruns, hon]
  · intro s hruns hcalm hbusy
    refine completes_of_done_calm (u := s.put Reg.TIME_STAT_LOAD_DENIED true) ?_ hcalm rfl
    show execCtLoad s = _
    rw [execCtLoad, ctLoad, if_pos hbusy]
    simp [hruns]
  · intro m s hruns hcalm hshadow
    constructor
    · exact completes_of_done_calm (exec_timeReadLatch_lt m s hruns hshadow) hcalm
        ⟨rfl, rfl, rfl, (SMap.get_set ..).trans (if_pos rfl)⟩
    · exact completes_of_done_calm (exec_timeReadLatch_ct m s hruns hshadow) hcalm
        ⟨rfl, rfl, rfl, (SMap.get_set ..).trans (if_pos rfl)⟩
  · intro v s hruns hcalm hlock hstopped
    have h := fun b => frameCycleWrite_completes b v s hruns hcalm hlock
    simp only [hstopped, true_and] at h
    exact ⟨h false, h true⟩
  · intro b v s hruns hcalm hlock hrunning
    have h := frameCycleWrite_completes b v s hruns hcalm hlock
    simp only [hrunning, Bool.true_eq_false, false_and, if_false] at h
    exact h
  · intro b v s hruns hlock
    refine completes_of_next ?_ rfl
    show execFrameCycleWrite b v s = _
    simp [execFrameCycleWrite, hruns, hlock]

end Sys2Proof.Machine
end

section
/-! What the Anvil's copies and its engines leave: the registers that a copy's end, the clock and the start or the stop of an engine
do not write, the words a copy writes, and the marks of a frame that overruns (R63, R65, R79, R113). -/
namespace Sys2Proof

/-- A read after consecutive keys were written. -/
theorem SMap.get_setMany {α : Type} [DecidableEq α] (d : α) (m : SMap α) (k j : Nat) (vs : List α) :
    SMap.get d (SMap.setMany d m k vs) j = if k ≤ j ∧ j < k + vs.length then vs.getD (j - k) d else SMap.get d m j := by
  induction vs generalizing m k with
  | nil => simp [SMap.setMany]
  | cons v vs ih =>
    rw [SMap.setMany, ih, SMap.get_set]
    by_cases hlater : k + 1 ≤ j ∧ j < k + 1 + vs.length
    · rw [if_pos hlater, if_pos (by simp only [List.length_cons]; omega), show j - k = j - (k + 1) + 1 by omega]; rfl
    · rw [if_neg hlater]
      by_cases hk : k = j
      · subst hk; rw [if_pos rfl, if_pos (by simp only [List.length_cons]; omega), Nat.sub_self]; rfl
      · rw [if_neg hk, if_neg (by simp only [List.length_cons]; omega)]

namespace Machine

/-! ### The end of a copy and the start of an engine -/

/-- The fields that a copy's end or a clock that passes may write: SLEWING, the interrupt controller's, and those of the engines,
whose SKIP flags stand 64 bytes apart. -/
def Fld.ofCopies (f : Fld) : Bool :=
  decide (f.key = Reg.TIME_STAT_SLEWING.key) || decide (f.key / 0x80000 = 0x400E) || decide (f.key / 0x80000 = 0x4004) ||
    decide (f.key % 512 = 99 ∧ Reg.CEC_STAT_BUSY.key ≤ f.key)

/-- `t` is `s` but for copies that end, clocks that pass and engines that start: beside those fields every register stands, and so do
the table and the engines' results. -/
structure AfterCopies (s t : State) : Prop where
  rd : ∀ f, Fld.ofCopies f = false → t.rd f = s.rd f
  table : t.anv.table = s.anv.table

theorem AfterCopies.refl (s : State) : AfterCopies s s := ⟨fun _ _ => rfl, rfl⟩

theorem AfterCopies.trans {s t u : State} (h : AfterCopies s t) (g : AfterCopies t u) : AfterCopies s u :=
  ⟨fun f hf => (g.rd f hf).trans (h.rd f hf), g.table.trans h.table⟩

/-- What follows a change of neither the registers nor the table. -/
theorem AfterCopies.after {s t u : State} (h : AfterCopies t u) (hr : t.regs = s.regs) (ht : t.anv.table = s.anv.table) :
    AfterCopies s u :=
  ⟨fun f hf => (h.rd f hf).trans (State.rd_congr hr f), h.table.trans ht⟩

theorem AfterCopies.foldl {α : Type} (l : List α) (g : State → α → State) (h : ∀ s a, AfterCopies s (g s a)) (s : State) :
    AfterCopies s (l.foldl g s) := by
  induction l generalizing s with
  | nil => exact .refl s
  | cons a l ih => exact (h s a).trans (ih _)

theorem AfterCopies.wr (s : State) (f : Fld) (v : Nat) (hf : Fld.ofCopies f = true) : AfterCopies s (s.wr f v) where
  rd g hg := State.rd_wr_ne _ _ _ _ fun e => by rw [Fld.ofCopies, e] at hf; rw [Fld.ofCopies, hf] at hg; cases hg
  table := rfl

theorem AfterCopies.wrBit (s : State) (f : Fld) (n : Nat) (b : Bool) (hf : Fld.ofCopies f = true) : AfterCopies s (s.wrBit f n b) :=
  .wr s f _ hf

theorem intc_ofCopies (k : Nat) (hk : k < 8) : Fld.ofCopies (Reg.INTC_PENDk k) = true ∧ Fld.ofCopies (Reg.INTC_MISSk k) = true := by
  have : ∀ k : Fin 8, Fld.ofCopies (Reg.INTC_PENDk k) = true ∧ Fld.ofCopies (Reg.INTC_MISSk k) = true := by decide
  exact this ⟨k, hk⟩

theorem AfterCopies.irq (src : Nat) (h : src < 256) (s : State) : AfterCopies s (irq src s) := by
  obtain ⟨hpend, hmiss⟩ := intc_ofCopies (src / 32) (by omega)
  unfold Machine.irq
  split
  · exact AfterCopies.trans (.wr s _ _ hmiss) ⟨fun _ _ => rfl, rfl⟩
  · exact .wr s _ _ hpend

theorem AfterCopies.advance (n : Nat) (s : State) : AfterCopies s (advance n s) := by
  unfold Machine.advance State.when
  dsimp only
  split
  · refine AfterCopies.trans ?_ (.irq 218 (by decide) _)
    exact (AfterCopies.wr _ Reg.TIME_STAT_SLEWING _ (by decide)).after rfl rfl
  · exact ⟨fun _ _ => rfl, rfl⟩

theorem skip_ofCopies (n : Nat) : Fld.ofCopies (Reg.CEC_En_FRAME_SKIP n) = true := by
  have hmod : (Reg.CEC_En_FRAME_SKIP n).key % 512 = 99 := by simp only [Reg.CEC_En_FRAME_SKIP]; omega
  have hle : Reg.CEC_STAT_BUSY.key ≤ (Reg.CEC_En_FRAME_SKIP n).key := by simp only [Reg.CEC_En_FRAME_SKIP, Reg.CEC_STAT_BUSY]; omega
  simp [Fld.ofCopies, hmod, hle]

theorem AfterCopies.engStart (n e : Nat) (s : State) : AfterCopies s (engStart n e s) := by
  unfold Machine.engStart
  split
  · exact AfterCopies.trans (AfterCopies.trans (.wrBit _ _ _ _ (by decide)) (.wrBit _ _ _ _ (by decide)))
      (.wr _ _ _ (skip_ofCopies n))
  · exact AfterCopies.trans (AfterCopies.trans (t := s.setE n _) ⟨fun _ _ => rfl, rfl⟩ (.wrBit _ _ _ _ (by decide)))
      (.wr _ _ _ (skip_ofCopies n))

theorem AfterCopies.releaseRuns (s : State) : AfterCopies s (releaseRuns s) :=
  (AfterCopies.foldl _ (fun s (r : Nat × Nat) => Machine.engStart r.1 r.2 s) (fun s r => .engStart r.1 r.2 s)
    (setAnv { s.anv with runWait := s.anv.runWait.filter fun r => s.anv.moveQ.any (·.writes r.1) } s)).after rfl rfl

theorem anvWrite_frame (a : Nat) (ws : List Nat) (s : State) : ∃ e m, anvWrite a ws s = { s with eng := e, mem := m } := by
  unfold anvWrite
  split <;> exact ⟨_, _, rfl⟩

/-- The address, the words and the state of the writing of a copy that ends in `v` (R63, R69). -/
def Move.target (m : Move) : Nat := if m.publish.isSome = true then m.dst - 4 else m.dst
def Move.words (m : Move) (v : State) : List Nat :=
  match m.publish with
  | some w => w :: v.engWords ((m.src - engBase) / 2 ^ 20) ((m.src - engBase) % 2 ^ 20 / 4) m.len
  | none => (List.range m.len).map fun i => v.anvRead (m.src + 4 * i)

/-- A copy's end: its words are written, then the queue goes on and the engines that waited start; ODIG apart, the Anvil keeps the
rest. -/
theorem moveDone_eq (m : Move) (rest : List Move) (v : State) : ∃ o : List OdigPart, moveDone m rest v =
    releaseRuns (setAnv { v.anv with odig := o, moveQ := rest, moveFree := v.time.clk, moveDst := m.dst, moveLen := m.len }
      (anvWrite m.target (m.words v) v)) := by
  have hwrite : ∀ (o : List OdigPart) (a : Nat) (ws : List Nat), anvWrite a ws (setAnv { v.anv with odig := o } v) =
      setAnv { v.anv with odig := o } (anvWrite a ws v) := fun o a ws => by
    unfold anvWrite; split <;> rfl
  have hanv : ∀ a ws, (anvWrite a ws v).anv = v.anv ∧ (anvWrite a ws v).time = v.time := fun a ws => by
    obtain ⟨e, x, h⟩ := anvWrite_frame a ws v
    rw [h]; exact ⟨rfl, rfl⟩
  unfold moveDone Move.target Move.words State.when
  cases m.publish with
  | none =>
    refine ⟨v.anv.odig, ?_⟩
    simp only [Option.isSome_none, Bool.false_eq_true, if_false, (hanv _ _).1, (hanv _ _).2]
  | some w =>
    simp only [Option.isSome_some, if_true]
    split
    · refine ⟨odigFill (v.engWords ((m.src - engBase) / 2 ^ 20) ((m.src - engBase) % 2 ^ 20 / 4) m.len) v.anv.odig, ?_⟩
      rw [hwrite]
      simp only [setAnv_anv, setAnv_time, (hanv _ _).2]
      rfl
    · refine ⟨v.anv.odig, ?_⟩
      simp only [(hanv _ _).1, (hanv _ _).2]

theorem AfterCopies.moveDone (m : Move) (rest : List Move) (s : State) : AfterCopies s (moveDone m rest s) := by
  obtain ⟨o, h⟩ := moveDone_eq m rest s
  obtain ⟨e, x, hw⟩ := anvWrite_frame m.target (m.words s) s
  rw [h]
  refine AfterCopies.trans ?_ (.releaseRuns _)
  rw [hw]
  exact ⟨fun _ _ => rfl, rfl⟩

theorem rxWrite_frame (x : RxCopy) (s : State) : ∃ a m, rxWrite x s = { s with axs := a, mem := m } := by
  unfold rxWrite
  split <;> exact ⟨_, _, rfl⟩

theorem foldl_rxWrite_frame (l : List RxCopy) (s : State) :
    ∃ a m, l.foldl (fun s x => rxWrite x s) s = { s with axs := a, mem := m } := by
  induction l generalizing s with
  | nil => exact ⟨_, _, rfl⟩
  | cons x l ih =>
    obtain ⟨a, m, h⟩ := rxWrite_frame x s
    obtain ⟨a', m', h'⟩ := ih (rxWrite x s)
    exact ⟨a', m', h'.trans (by rw [h])⟩

/-- The copies into BUF that have ended leave all but memory, pending banks and their own queue. -/
theorem rxDone_frame (s : State) : ∃ a m q, rxDone s = { s with axs := a, mem := m, anv := { s.anv with rxq := q } } := by
  obtain ⟨a, m, h⟩ := foldl_rxWrite_frame (s.anv.rxq.filter fun x => decide (x.ends ≤ s.time.clk))
    (setAnv { s.anv with rxq := s.anv.rxq.filter fun x => decide (s.time.clk < x.ends) } s)
  exact ⟨a, m, _, h⟩

theorem AfterCopies.rxDone (s : State) : AfterCopies s (rxDone s) := by
  obtain ⟨a, m, q, h⟩ := rxDone_frame s
  rw [h]; exact ⟨fun _ _ => rfl, rfl⟩

theorem AfterCopies.drainMoves (k c : Nat) (s : State) : AfterCopies s (drainMoves k c s) := by
  induction k generalizing s with
  | zero => exact .refl s
  | succ k ih =>
    unfold Machine.drainMoves
    split
    · exact .refl s
    · dsimp only
      split
      · exact (((AfterCopies.advance _ s).trans (.rxDone _)).trans (.moveDone _ _ _)).trans (ih _)
      · exact .refl s

theorem AfterCopies.anvTo (t : Nat) (s : State) : AfterCopies s (anvTo t s) :=
  ((AfterCopies.drainMoves 16 _ s).trans (.advance _ _)).trans (.rxDone _)

/-! ### What a start keeps -/

theorem engStart_data (n e m : Nat) (s : State) : ((engStart n e s).e m).data = (s.e m).data := by
  unfold engStart
  split
  · rfl
  · show ((s.setE n _).e m).data = _
    rw [State.e_setE]
    split
    · next h => rw [h]
    · rfl

theorem engStart_frame (n e : Nat) (s : State) : ∃ r x, engStart n e s = { s with regs := r, eng := x } := by
  unfold engStart
  split <;> exact ⟨_, _, rfl⟩

/-- The engines that a copy's end releases: the list of those that wait, registers and the engines' runs change, no data word. -/
theorem releaseRuns_effect (s : State) : ∃ r x w, releaseRuns s = { s with regs := r, eng := x, anv := { s.anv with runWait := w } } ∧
    ∀ m, ((releaseRuns s).e m).data = (s.e m).data := by
  have hfold : ∀ (l : List (Nat × Nat)) (u : State), ∃ r x, l.foldl (fun s r => engStart r.1 r.2 s) u = { u with regs := r, eng := x } ∧
      ∀ m, ((l.foldl (fun s r => engStart r.1 r.2 s) u).e m).data = (u.e m).data := by
    intro l
    induction l with
    | nil => exact fun u => ⟨_, _, rfl, fun _ => rfl⟩
    | cons a l ih =>
      intro u
      obtain ⟨r, x, h⟩ := engStart_frame a.1 a.2 u
      obtain ⟨r', x', h', hd⟩ := ih (engStart a.1 a.2 u)
      exact ⟨r', x', h'.trans (by rw [h]), fun m => (hd m).trans (engStart_data a.1 a.2 m u)⟩
  obtain ⟨r, x, h, hd⟩ := hfold (s.anv.runWait.filter fun r => ! s.anv.moveQ.any (·.writes r.1))
    (setAnv { s.anv with runWait := s.anv.runWait.filter fun r => s.anv.moveQ.any (·.writes r.1) } s)
  exact ⟨r, x, _, h, fun m => hd m⟩

/-! ### What ECC shows over the source of a copy -/

/-- `t` is `s` but for what noting an ECC error in an engine's memory or in shared SRAM does: registers of the engines, and faults. -/
structure EccNoted (s t : State) : Prop where
  rd : ∀ f, Fld.ofFaults f = false → f.key / 0x80000 ≠ 0x4004 → t.rd f = s.rd f
  anv : t.anv = s.anv
  time : t.time = s.time
  eng : t.eng = s.eng
  quiet : s.on Reg.HIF_CFG_EVTEN = false → t.mem = s.mem

theorem EccNoted.refl (s : State) : EccNoted s s := ⟨fun _ _ _ => rfl, rfl, rfl, rfl, fun _ => rfl⟩

theorem EccNoted.trans {s t u : State} (h : EccNoted s t) (g : EccNoted t u) : EccNoted s u where
  rd f hf hk := (g.rd f hf hk).trans (h.rd f hf hk)
  anv := g.anv.trans h.anv
  time := g.time.trans h.time
  eng := g.eng.trans h.eng
  quiet q := (g.quiet (by rw [State.on, h.rd _ (by decide) (by decide)]; exact q)).trans (h.quiet q)

theorem OnlyFaults.eccNoted {s t : State} (h : OnlyFaults s t) : EccNoted s t :=
  ⟨fun f hf _ => h.rd f hf, h.anv, h.time, h.eng, fun q => (h.quiet q).1⟩

theorem EccNoted.wr (s : State) (f : Fld) (v : Nat) (hf : f.key / 0x80000 = 0x4004) : EccNoted s (s.wr f v) where
  rd _ _ hg := State.rd_wr_ne _ _ _ _ fun e => hg (e ▸ hf)
  anv := rfl
  time := rfl
  eng := rfl
  quiet _ := rfl

theorem EccNoted.each (l : List Nat) (f : Nat → State → State) (h : ∀ i s, EccNoted s (f i s)) (s : State) :
    EccNoted s (s.each l f) := by
  unfold State.each
  induction l generalizing s with
  | nil => exact .refl s
  | cons i l ih => exact (h i s).trans (ih _)

theorem EccNoted.eccRecord (n mem i : Nat) (s : State) : EccNoted s (eccRecord n mem i s) := by
  unfold Machine.eccRecord
  split
  · exact .refl s
  · exact (((EccNoted.wr s _ _ (by decide)).trans (.wr _ _ _ (by decide))).trans (.wr _ _ _ (by decide))).trans (.wr _ _ _ (by decide))

theorem EccNoted.engUseEcc (n mem i : Nat) (e : Ecc) (s : State) : EccNoted s (engUseEcc n mem i e s) := by
  cases e with
  | ok => exact .refl s
  | corrected => exact (EccNoted.wr s _ _ (by decide)).trans (OnlyFaults.raise _ _).eccNoted
  | uncorrectable => exact (EccNoted.eccRecord n mem i s).trans (OnlyFaults.raise _ _).eccNoted

theorem OnlyFaults.sramEccs (m : Nat) (e : WordEcc) (a n : Nat) (s : State) : OnlyFaults s (sramEccs m e a n s) := by
  refine OnlyFaults.each _ _ (fun i s => .when _ _ (.refl s) ?_) s
  unfold sramEcc
  split
  · exact .refl s
  · exact .raise _ s
  · exact .raise _ s

theorem EccNoted.readEcc (m : Nat) (e : WordEcc) (a n : Nat) (s : State) : EccNoted s (readEcc m e a n s) := by
  unfold Machine.readEcc
  split
  · exact .each _ _ (fun i s => .engUseEcc _ _ _ _ s) s
  · exact (OnlyFaults.sramEccs m e a n s).eccNoted

/-! ### A frame that overruns -/

/-- The fields that an overrun writes. -/
def overrunFlds : List Fld :=
  [Reg.ANV_OVR_CNT, Reg.ANV_OVR_FN, Reg.ANV_OVR_INFO_ENTRY, Reg.ANV_OVR_INFO_CAUSE, Reg.ANV_OVR_INFO_ENG, Reg.ANV_STAT_OVR]

/-- The state in which a frame that overruns raises its fault. -/
def overrunNoted (cause entry engs fn : Nat) (s : State) : State :=
  let s := s.inc Reg.ANV_OVR_CNT
  let s := if s.on Reg.ANV_STAT_OVR then s
    else (((s.wr Reg.ANV_OVR_FN fn).wr Reg.ANV_OVR_INFO_ENTRY entry).wr Reg.ANV_OVR_INFO_CAUSE cause).wr Reg.ANV_OVR_INFO_ENG engs
  let s := s.put Reg.ANV_STAT_OVR true
  setAnv { s.anv with ovrNow := true, launchOff := true } s

section
variable (cause entry engs fn : Nat) (s : State)

theorem overrun_eq : overrun cause entry engs fn s = irq 19 (raiseDev Fc.FRAME_OVERRUN (overrunNoted cause entry engs fn s)) := rfl

theorem overrunNoted_frame : ∃ r, overrunNoted cause entry engs fn s =
    { s with regs := r, anv := { s.anv with ovrNow := true, launchOff := true } } := by
  unfold overrunNoted
  dsimp only
  split <;> exact ⟨_, rfl⟩

theorem overrunNoted_rd (f : Fld) (hf : ∀ g ∈ overrunFlds, g.key ≠ f.key) : (overrunNoted cause entry engs fn s).rd f = s.rd f := by
  simp only [overrunFlds, List.forall_mem_cons, List.not_mem_nil, false_implies, implies_true, and_true] at hf
  obtain ⟨hcnt, hfn, hentry, hcause, heng, hovr⟩ := hf
  have hinc : (s.inc Reg.ANV_OVR_CNT).rd f = s.rd f := State.rd_wr_ne _ _ _ _ hcnt
  have hput : ∀ a (u : State), (setAnv a (u.put Reg.ANV_STAT_OVR true)).rd f = u.rd f :=
    fun _ u => (State.rd_congr (t := u.put Reg.ANV_STAT_OVR true) rfl f).trans (State.rd_wr_ne u _ _ _ hovr)
  unfold overrunNoted
  dsimp only
  split
  · exact (hput _ _).trans hinc
  · refine (hput _ _).trans (Eq.trans ?_ hinc)
    rw [State.rd_wr_ne _ _ _ _ heng, State.rd_wr_ne _ _ _ _ hcause, State.rd_wr_ne _ _ _ _ hentry, State.rd_wr_ne _ _ _ _ hfn]

theorem overrunNoted_on : (overrunNoted cause entry engs fn s).on Reg.ANV_STAT_OVR = true := by
  have hput : ∀ a (u : State), (setAnv a (u.put Reg.ANV_STAT_OVR true)).on Reg.ANV_STAT_OVR = true :=
    fun _ u => State.on_put_self u Reg.ANV_STAT_OVR true rfl
  exact hput _ _

/-- A frame that overruns: OVR is shown, launches are off, source 19 is pending, FRAME_OVERRUN is held, and nothing else changes but
what the overrun records and what raising does (R79 to R81). -/
theorem overrun_effect : let t := overrun cause entry engs fn s
    OnlyFaults (overrunNoted cause entry engs fn s) t ∧ t.on Reg.ANV_STAT_OVR = true ∧
    t.anv = { s.anv with ovrNow := true, launchOff := true } ∧ t.pends 19 = true ∧ t.isHeld Fc.FRAME_OVERRUN = true ∧
    (∀ f, Fld.ofFaults f = false → (∀ g ∈ overrunFlds, g.key ≠ f.key) → t.rd f = s.rd f) ∧
    ∀ c, s.isHeld c = true → t.isHeld c = true := by
  intro t
  obtain ⟨r, hframe⟩ := overrunNoted_frame cause entry engs fn s
  have hirq : OnlyFaults (raiseDev Fc.FRAME_OVERRUN (overrunNoted cause entry engs fn s)) t := OnlyFaults.irq _ 19 (by decide)
  have hof : OnlyFaults (overrunNoted cause entry engs fn s) t := (OnlyFaults.raiseDev _ _).trans hirq
  refine ⟨hof, ?_, ?_, irq_pends 19 _ (by decide), hirq.held _ (raiseDev_isHeld _ _ (by decide) (by decide)), ?_, fun c hc => hof.held c ?_⟩
  · exact (hof.on _ (by decide)).trans (overrunNoted_on cause entry engs fn s)
  · rw [hof.anv, hframe]
  · exact fun f hf hne => (hof.rd f hf).trans (overrunNoted_rd cause entry engs fn s f hne)
  · rw [hframe]; exact hc

end

end Machine
end Sys2Proof
end

section
/-! Starts, stops and mode requests of the Anvil (O5; R75 to R77). -/
namespace Sys2Proof.Machine

/-- What a refresh of Fudorlink may change: its role and sync state, its counts of a cold start, and what raising an event does
(R313, R337). -/
theorem fdlRefresh_effect (s : State) : ∃ r f, OnlyFaults { s with regs := r, fdl := f } (fdlRefresh s) ∧
    ∀ g, Reg.FDL_STAT_ROLE.key ≠ g.key → Reg.FDL_STAT_SSTATE.key ≠ g.key → { s with regs := r, fdl := f }.rd g = s.rd g := by
  have hset : ∀ (x : Nat) (u : State), (∀ g, Reg.FDL_STAT_ROLE.key ≠ g.key → u.rd g = s.rd g) →
      (∃ r f, u = { s with regs := r, fdl := f }) → ∃ r f, OnlyFaults { s with regs := r, fdl := f } (setSs x u) ∧
      ∀ g, Reg.FDL_STAT_ROLE.key ≠ g.key → Reg.FDL_STAT_SSTATE.key ≠ g.key → { s with regs := r, fdl := f }.rd g = s.rd g := by
    rintro x u hu ⟨r, f, rfl⟩
    rcases setSs_cases x { s with regs := r, fdl := f } with ⟨_, h⟩ | ⟨_, h⟩
    · exact ⟨r, f, by rw [h]; exact .refl _, fun g hrole _ => hu g hrole⟩
    · exact ⟨_, f, h, fun g hrole hstate => (State.rd_wr_ne _ _ _ _ hstate).trans (hu g hrole)⟩
  have hrole : ∀ g, Reg.FDL_STAT_ROLE.key ≠ g.key → (s.wr Reg.FDL_STAT_ROLE s.netRole).rd g = s.rd g :=
    fun g h => State.rd_wr_ne _ _ _ _ h
  unfold fdlRefresh
  dsimp only
  split
  · split
    · exact hset _ _ (fun g h => hrole g h) ⟨_, _, rfl⟩
    · exact ⟨_, _, .refl _, fun g h _ => hrole g h⟩
  · exact hset _ _ hrole ⟨_, _, rfl⟩

theorem anvRunStart_completes (s : State) (hlive : s.live pdANV = true) (hcalm : s.calm) : Completes .anvRunStart s fun t =>
    t = { s.put Reg.ANV_CTRL_RUN true with anv := { s.anv with stopReq := false } } := by
  have hexec : exec .anvRunStart s = done (anvRun true s) := by
    show execAnvRunStart s = _
    simp [execAnvRunStart, hlive]
  exact completes_of_done_calm hexec hcalm rfl

theorem allAxes_eq (s : State) : s.allAxes [axDISABLED, axSAFE] =
    (List.range 8).all fun n => decide (s.ax n = axDISABLED ∨ s.ax n = axSAFE) := by
  unfold State.allAxes
  congr 1
  funext n
  simp

theorem anvRunStop_completes (s : State) (hlive : s.live pdANV = true) (hcalm : s.calm) : Completes .anvRunStop s fun t =>
    t = if s.on Reg.ANV_STAT_RUNNING = false then s.put Reg.ANV_CTRL_RUN false
      else if ((List.range 8).all fun n => decide (s.ax n = axDISABLED ∨ s.ax n = axSAFE)) = true then
        { s.put Reg.ANV_CTRL_RUN false with anv := { s.anv with stopReq := true } }
      else s := by
  have hexec : exec .anvRunStop s = done (anvRun false s) := by
    show execAnvRunStop s = _
    simp [execAnvRunStop, hlive]
  have hcases : anvRun false s = if s.on Reg.ANV_STAT_RUNNING = false then s.put Reg.ANV_CTRL_RUN false
      else if ((List.range 8).all fun n => decide (s.ax n = axDISABLED ∨ s.ax n = axSAFE)) = true then
        { s.put Reg.ANV_CTRL_RUN false with anv := { s.anv with stopReq := true } }
      else s := by
    rw [← allAxes_eq]
    cases hrunning : s.on Reg.ANV_STAT_RUNNING with
    | false => simp [anvRun, hrunning]
    | true => simp [anvRun, hrunning]; rfl
  refine completes_of_done_calm hexec ?_ hcases
  rw [hcases]
  split
  · exact hcalm
  · split <;> exact hcalm

theorem anvilStop_completes (s : State) (hlive : s.live pdANV = true) (hcalm : s.calm) (hrunning : s.on Reg.ANV_STAT_RUNNING = true)
    (hstop : s.anv.stopReq = true) (hend : s.anv.endReached = true) : Completes .anvilStop s fun t =>
      t = { (s.put Reg.ANV_STAT_RUNNING false).put Reg.ANV_STAT_ARMED false with anv := { s.anv with stopReq := false } } := by
  have hexec : exec .anvilStop s =
      done { (s.put Reg.ANV_STAT_RUNNING false).put Reg.ANV_STAT_ARMED false with anv := { s.anv with stopReq := false } } := by
    show execAnvilStop s = _
    simp only [execAnvilStop, hlive, hrunning, hstop, hend, Bool.not_true, Bool.and_self, Bool.false_eq_true, if_false, if_true]
    rfl
  exact completes_of_done_calm hexec hcalm rfl

theorem modeRequest_completes (m : Fin 8) (s : State) (hlive : s.live pdANV = true) (hcalm : s.calm) :
    Completes (.modeRequest m) s fun t =>
    t = if (s.on Reg.ANV_CTRL_STANDALONE && ! s.on Reg.FDL_CTRL_EN) = true then
        { s.wr Reg.ANV_MODE_REQ_MODE m with anv := { s.anv with modeReq := some m.val } }
      else s.put Reg.ANV_STAT_MODE_REQ_REFUSED true := by
  have hexec : exec (.modeRequest m) s = done (modeRequest m s) := by
    show execModeRequest m s = _
    simp [execModeRequest, hlive]
  refine completes_of_done_calm hexec ?_ rfl
  unfold modeRequest
  split <;> exact hcalm

/-- What the start of the Anvil leaves, before Fudorlink is refreshed. -/
theorem anvilStart_completes (s : State) (hlive : s.live pdANV = true) (hrun : s.on Reg.ANV_CTRL_RUN = true)
    (hrunning : s.on Reg.ANV_STAT_RUNNING = false) (hboot : s.dev.state ≠ .boot) (hassay : s.dev.state ≠ .assay)
    (hvalid : s.modeValid (s.rd Reg.ANV_CTRL_START_MODE) = true) (hct : s.on Reg.TIME_STAT_CT_VALID = true)
    (hseen : s.anv.runSeen = true) (hft : s.time.ft = 0) (hfidx : s.fidx = 0) : Completes .anvilStart s fun t =>
    t.on Reg.ANV_STAT_RUNNING = true ∧ t.rd Reg.ANV_STAT_MODE = s.rd Reg.ANV_CTRL_START_MODE ∧ t.anv.ptr = 0 ∧
    t.anv.endReached = false ∧ t.anv.ovrHist = s.anv.ovrHist ∧ t.anv.stopReq = false ∧ t.eng = s.eng ∧ t.axs = s.axs := by
  obtain ⟨u, hexec, hregs, hanv, heng, haxs⟩ : ∃ u : State, exec .anvilStart s = done (fdlRefresh u) ∧
      u.regs = ((s.put Reg.ANV_STAT_RUNNING true).wr Reg.ANV_STAT_MODE (s.rd Reg.ANV_CTRL_START_MODE)).regs ∧
      u.anv = { (frameStart s).anv with stopReq := false, runSeen := false } ∧ u.eng = s.eng ∧ u.axs = s.axs := by
    have hok : s.startOk = true := by
      simp [State.startOk, State.anvilState, hrun, hrunning, hboot, hassay, hvalid, hct, hlive]
    have hstart : (s.startOk && s.anv.runSeen && decide (s.time.ft = 0) && decide (s.fidx = 0)) = true := by
      simp [hok, hseen, hft, hfidx]
    let v := setAnv { (frameStart s).anv with stopReq := false, runSeen := false }
      ((s.put Reg.ANV_STAT_RUNNING true).wr Reg.ANV_STAT_MODE (s.rd Reg.ANV_CTRL_START_MODE))
    refine ⟨v.when (v.almState = almNOKEY && ! v.alm.nokeyUp) fun s =>
      (setAlm { s.alm with nokeyUp := true } s).later { code := Fc.ALM_NOKEY }, ?_, ?_⟩
    · show execAnvilStart s = _
      unfold execAnvilStart
      rw [if_neg (by simp [hlive]), if_pos hstart]
      rfl
    · unfold State.when
      split <;> exact ⟨rfl, rfl, rfl, rfl⟩
  refine completes_of_done hexec fun t ht => ?_
  obtain ⟨r, f, hrefresh, hrd⟩ := fdlRefresh_effect u
  have hof : OnlyFaults { u with regs := r, fdl := f } t := hrefresh.trans ht.1
  have hu : ∀ g, u.rd g = ((s.put Reg.ANV_STAT_RUNNING true).wr Reg.ANV_STAT_MODE (s.rd Reg.ANV_CTRL_START_MODE)).rd g :=
    State.rd_congr hregs
  have hanv' : t.anv = _ := hof.anv.trans hanv
  refine ⟨?_, ?_, congrArg (·.ptr) hanv', congrArg (·.endReached) hanv', congrArg (·.ovrHist) hanv', congrArg (·.stopReq) hanv', hof.eng.trans heng, hof.axs.trans haxs⟩
  · rw [hof.on _ (by decide), State.on, hrd _ (by decide) (by decide), hu, State.rd_wr_ne _ _ _ _ (by decide)]
    exact s.on_put_self _ _ rfl
  · rw [hof.rd _ (by decide), hrd _ (by decide) (by decide), hu, State.rd_wr_self]
    exact Nat.mod_eq_of_lt (s.rd_lt Reg.ANV_CTRL_START_MODE)

end Sys2Proof.Machine
end

section
/-! The scrubber of the program memory (O5; R53): what a mode that loses VALID keeps, and the read of an entry. -/
namespace Sys2Proof.Machine

/-! ### A mode that loses VALID -/

theorem modeInvalid_frame (m : Nat) (s : State) : ∃ r, modeInvalid m s = { s with regs := r } := ⟨_, rfl⟩

theorem modeInvalid_bit (m n : Nat) (s : State) (hn : n < 8) :
    (modeInvalid m s).bit Reg.ANV_STAT_VALID n = if m = n then false else s.bit Reg.ANV_STAT_VALID n := by
  have hkey : (Reg.ANV_VALn_VALID m).key ≠ Reg.ANV_STAT_VALID.key := by
    simp only [Reg.ANV_VALn_VALID, Reg.ANV_STAT_VALID]; omega
  rw [modeInvalid, State.put, State.bit_wr_ne _ _ _ _ _ hkey, State.bit_wrBit _ _ _ _ _ _ rfl hn]

theorem each_modeInvalid_frame (l : List Nat) (s : State) : ∃ r, s.each l modeInvalid = { s with regs := r } := by
  induction l generalizing s with
  | nil => exact ⟨_, rfl⟩
  | cons m l ih =>
    obtain ⟨r, h⟩ := ih (modeInvalid m s)
    exact ⟨r, h⟩

theorem each_modeInvalid_bit (l : List Nat) (s : State) (n : Nat) (hn : n < 8) :
    (s.each l modeInvalid).bit Reg.ANV_STAT_VALID n = if n ∈ l then false else s.bit Reg.ANV_STAT_VALID n := by
  induction l generalizing s with
  | nil => simp [State.each]
  | cons m l ih =>
    show ((modeInvalid m s).each l modeInvalid).bit _ n = _
    rw [ih, modeInvalid_bit m n s hn]
    by_cases hm : n ∈ l
    · simp [hm]
    · by_cases hmn : m = n
      · simp [hmn]
      · simp [hm, hmn, Ne.symm hmn]

/-! ### A corrected and an uncorrectable error -/

/-- A corrected error is counted and raised, and nothing else of the Anvil's own state moves. -/
theorem anvCorr_effect (s : State) : (anvCorr s).anv = s.anv ∧ (anvCorr s).on Reg.ANV_STAT_ECC_CORR = true := by
  have hof : OnlyFaults ((s.inc Reg.ANV_ECC_CORR_CNT).put Reg.ANV_STAT_ECC_CORR true) (anvCorr s) := .raiseDev _ _
  exact ⟨hof.anv, (hof.on _ (by decide)).trans (State.on_put_self _ _ _ rfl)⟩

theorem anvUncorr_onlyFaults (i : Nat) (s : State) : OnlyFaults (s.wr Reg.ANV_ECC_ADDR i) (anvUncorr i s) := .raiseDev _ _

theorem anvUncorr_held (i : Nat) (s : State) : (anvUncorr i s).isHeld Fc.ECC_UNCORR = true :=
  raiseDev_isHeld _ _ (by decide) (by decide)

/-! ### The read -/

/-- The state in which the scrubber has read: the clock has come to its read, and its place is the next entry. -/
def State.scrubbed (s : State) : State :=
  { anvTo s.scrubAt s with
    anv := { (anvTo s.scrubAt s).anv with scrub := (s.anv.scrub + 1) % 8192, scrubFree := (anvTo s.scrubAt s).time.clk + 1 } }

/-- The modes that hold the entry read. -/
def State.scrubHits (s : State) : List Nat :=
  (List.range 8).filter fun m => decide ((s.scrubbed.modeSpan m).1 ≤ s.anv.scrub ∧
    s.anv.scrub < (s.scrubbed.modeSpan m).1 + (s.scrubbed.modeSpan m).2)

/-- The modes that hold the entry lose VALID. -/
def State.scrubInvalid (s : State) : State := s.scrubbed.each (s.scrubHits.filter s.scrubbed.modeValid) modeInvalid

theorem State.scrubbed_rd (s : State) (f : Fld) (hf : Fld.ofCopies f = false) : s.scrubbed.rd f = s.rd f :=
  (State.rd_congr (t := s.scrubbed) (s := anvTo s.scrubAt s) rfl f).trans ((AfterCopies.anvTo s.scrubAt s).rd f hf)

section
variable (s : State) (hlive : s.live pdANV = true) (hscrub : s.on Reg.ANV_SCRUB = true)
  (hnone : ∀ e, s.nextEntry = some e → s.scrubAt < s.issueAt e)
  (hin : s.inFrame (s.time.clk + (s.scrubAt - s.time.ft)) = true)
include hlive hscrub hnone hin

theorem scrubRead_exec (ecc : Ecc) : exec (.scrubRead ecc) s = match ecc with
    | .ok => done s.scrubbed
    | .corrected => done (anvCorr s.scrubbed)
    | .uncorrectable =>
      if s.scrubHits.contains (s.scrubbed.rd Reg.ANV_STAT_MODE) && s.scrubbed.on Reg.ANV_STAT_RUNNING then
        done (overrun 3 (s.anv.scrub - s.scrubInvalid.activeSpan.1) 0 s.scrubInvalid.fn (anvUncorr s.anv.scrub s.scrubInvalid))
      else done (s.scrubInvalid.wr Reg.ANV_ECC_ADDR s.anv.scrub) := by
  have hdue : (match s.nextEntry with | some e => decide (s.issueAt e ≤ s.scrubAt) | none => false) = false := by
    cases hnext : s.nextEntry with
    | none => rfl
    | some e => have := hnone e hnext; simp only [decide_eq_false_iff_not]; omega
  have hgo : ¬(! s.on Reg.ANV_SCRUB || (match s.nextEntry with | some e => decide (s.issueAt e ≤ s.scrubAt) | none => false) ||
      ! s.inFrame (s.time.clk + (s.scrubAt - s.time.ft))) = true := by
    rw [hdue, hscrub, hin]; decide
  show execScrubRead ecc s = _
  unfold execScrubRead
  rw [if_neg (by simp [hlive])]
  refine Eq.trans (if_neg hgo) ?_
  cases ecc <;> rfl

theorem scrubRead_ok (hcalm : (anvTo s.scrubAt s).calm) : Completes (.scrubRead .ok) s fun t => t = s.scrubbed :=
  completes_of_done_calm (scrubRead_exec s hlive hscrub hnone hin .ok) hcalm rfl

theorem scrubRead_corrected : Completes (.scrubRead .corrected) s fun t => t.anv.scrub = (s.anv.scrub + 1) % 8192 ∧
    t.on Reg.ANV_STAT_ECC_CORR = true ∧ t.anv.table = s.anv.table := by
  refine completes_of_done (scrubRead_exec s hlive hscrub hnone hin .corrected) fun t ht => ?_
  obtain ⟨hanv, hcorr⟩ := anvCorr_effect s.scrubbed
  have hanv' : t.anv = s.scrubbed.anv := ht.1.anv.trans hanv
  refine ⟨congrArg (·.scrub) hanv', (ht.1.on _ (by decide)).trans hcorr, ?_⟩
  exact (congrArg (·.table) hanv').trans (AfterCopies.anvTo s.scrubAt s).table

theorem scrubRead_uncorrectable : Completes (.scrubRead .uncorrectable) s fun t => t.anv.scrub = (s.anv.scrub + 1) % 8192 ∧
    t.rd Reg.ANV_ECC_ADDR = s.anv.scrub % 2 ^ 13 ∧
    ∀ m < 8, s.rd (Reg.ANV_MODEn_BASE m) ≤ s.anv.scrub →
      s.anv.scrub ≤ s.rd (Reg.ANV_MODEn_BASE m) + s.rd (Reg.ANV_MODEn_LENM1 m) →
      t.bit Reg.ANV_STAT_VALID m = false ∧
      (m = s.rd Reg.ANV_STAT_MODE → s.on Reg.ANV_STAT_RUNNING = true →
        t.on Reg.ANV_STAT_OVR = true ∧ t.anv.launchOff = true ∧ t.pends 19 = true ∧ t.isHeld Fc.FRAME_OVERRUN = true ∧
        t.isHeld Fc.ECC_UNCORR = true) := by
  have hflds : ∀ m : Fin 8, Fld.ofCopies (Reg.ANV_MODEn_BASE m) = false ∧ Fld.ofCopies (Reg.ANV_MODEn_LENM1 m) = false := by decide
  have hhit : ∀ m < 8, s.rd (Reg.ANV_MODEn_BASE m) ≤ s.anv.scrub →
      s.anv.scrub ≤ s.rd (Reg.ANV_MODEn_BASE m) + s.rd (Reg.ANV_MODEn_LENM1 m) → m ∈ s.scrubHits := by
    intro m hm hbase hlen
    obtain ⟨hb, hl⟩ := hflds ⟨m, hm⟩
    refine List.mem_filter.mpr ⟨List.mem_range.mpr hm, ?_⟩
    simp only [State.modeSpan, s.scrubbed_rd _ hb, s.scrubbed_rd _ hl, decide_eq_true_eq]
    omega
  have hinvalid : ∀ m < 8, m ∈ s.scrubHits → s.scrubInvalid.bit Reg.ANV_STAT_VALID m = false := by
    intro m hm hmem
    rw [State.scrubInvalid, each_modeInvalid_bit _ _ _ hm]
    split
    · rfl
    · next hnot =>
      have : ¬ s.scrubbed.modeValid m = true := fun hv => hnot (List.mem_filter.mpr ⟨hmem, hv⟩)
      exact Bool.eq_false_iff.mpr this
  have hanv : s.scrubInvalid.anv = s.scrubbed.anv := by
    obtain ⟨r, h⟩ := each_modeInvalid_frame (s.scrubHits.filter s.scrubbed.modeValid) s.scrubbed
    rw [State.scrubInvalid, h]
  have haddr : (s.scrubInvalid.wr Reg.ANV_ECC_ADDR s.anv.scrub).rd Reg.ANV_ECC_ADDR = s.anv.scrub % 2 ^ 13 := State.rd_wr_self ..
  have hkeep : ∀ m, (s.scrubInvalid.wr Reg.ANV_ECC_ADDR s.anv.scrub).bit Reg.ANV_STAT_VALID m = s.scrubInvalid.bit Reg.ANV_STAT_VALID m :=
    fun m => State.bit_wr_ne _ _ _ _ _ (by decide)
  have hexec := scrubRead_exec s hlive hscrub hnone hin .uncorrectable
  dsimp only at hexec
  split at hexec
  · refine completes_of_done hexec fun t ht => ?_
    obtain ⟨-, hovr, hanv', hpend, hheld, hrd, hkeeps⟩ := overrun_effect 3 (s.anv.scrub - s.scrubInvalid.activeSpan.1) 0 s.scrubInvalid.fn
      (anvUncorr s.anv.scrub s.scrubInvalid)
    have huncorr := anvUncorr_onlyFaults s.anv.scrub s.scrubInvalid
    rw [huncorr.anv] at hanv'
    have hanvt := ht.1.anv.trans hanv'
    refine ⟨?_, ?_, fun m hm hbase hlen => ⟨?_, fun _ _ => ⟨(ht.1.on _ (by decide)).trans hovr, congrArg (·.launchOff) hanvt,
      ht.1.pends 19 (by decide) hpend, ht.1.held _ hheld, ht.1.held _ (hkeeps _ (anvUncorr_held _ _))⟩⟩⟩
    · exact (congrArg (·.scrub) hanvt).trans (congrArg (·.scrub) hanv)
    · rw [ht.1.rd _ (by decide), hrd _ (by decide) (by decide), huncorr.rd _ (by decide), haddr]
    · rw [State.bit, ht.1.rd _ (by decide), hrd _ (by decide) (by decide), huncorr.rd _ (by decide)]
      exact (hkeep m).trans (hinvalid m hm (hhit m hm hbase hlen))
  · next hidle =>
    refine completes_of_done hexec fun t ht => ⟨?_, ?_, fun m hm hbase hlen => ⟨?_, fun hmode hrunning => absurd ?_ hidle⟩⟩
    · exact (congrArg (·.scrub) ht.1.anv).trans (congrArg (·.scrub) hanv)
    · rw [ht.1.rd _ (by decide), haddr]
    · rw [ht.1.bit _ _ (by decide), hkeep, hinvalid m hm (hhit m hm hbase hlen)]
    · have hrun : s.scrubbed.on Reg.ANV_STAT_RUNNING = true := by rw [State.on, s.scrubbed_rd _ (by decide)]; exact hrunning
      rw [s.scrubbed_rd _ (by decide), ← hmode, hrun, List.contains_iff_mem.mpr (hhit m hm hbase hlen)]
      rfl

end

end Sys2Proof.Machine
end

section
/-! Queued copies that end and AWAITs that hold the table (O5; R63, R66, R113). -/
namespace Sys2Proof.Machine

/-! ### The end of a queued copy -/

theorem moveCopyDone_completes (x : WordEcc) (s : State) (m : Move) (ms : List Move) (hlive : s.live pdANV = true)
    (hq : s.anv.moveQ = m :: ms) : Completes (.moveCopyDone x) s fun t =>
      let v := rxDone (advance (s.moveEnd m - s.time.clk) s)
      t.anv.moveQ = ms ∧ t.anv.moveFree = v.time.clk ∧ t.time = v.time ∧
      (∀ n, engSpan m.target (4 * (m.words v).length) = some n → ∀ i < (m.words v).length,
        SMap.get 0 (t.e n).data ((m.target - engBase) % 2 ^ 20 / 4 + i) = (m.words v).getD i 0) ∧
      (engSpan m.target (4 * (m.words v).length) = none → s.on Reg.HIF_CFG_EVTEN = false →
        t.mem = putWords v.mem m.target (m.words v)) := by
  have hexec : exec (.moveCopyDone x) s =
      done (readEcc 7 x m.src m.len (moveDone m ms (rxDone (advance (s.moveEnd m - s.time.clk) s)))) := by
    show execMoveCopyDone x s = _
    simp only [execMoveCopyDone, hlive, hq, Bool.not_true, Bool.false_eq_true, if_false]
  refine completes_of_done hexec fun t ht => ?_
  intro v
  have hecc : EccNoted (moveDone m ms v) t := (EccNoted.readEcc 7 x m.src m.len _).trans ht.1.eccNoted
  obtain ⟨o, hdone⟩ := moveDone_eq m ms v
  obtain ⟨r, e, w, hrel, hdata⟩ := releaseRuns_effect (setAnv { v.anv with odig := o, moveQ := ms, moveFree := v.time.clk, moveDst := m.dst, moveLen := m.len }
    (anvWrite m.target (m.words v) v))
  rw [← hdone] at hrel hdata
  obtain ⟨e', mem', hwrite⟩ := anvWrite_frame m.target (m.words v) v
  have hanv : t.anv = (moveDone m ms v).anv := hecc.anv
  have htime : (moveDone m ms v).time = v.time := by rw [hrel, hwrite]; rfl
  refine ⟨?_, ?_, hecc.time.trans htime, fun n hspan i hi => ?_, fun hspan hoff => ?_⟩
  · rw [hanv, hrel]; rfl
  · rw [hanv, hrel]; rfl
  · have he : t.e n = (moveDone m ms v).e n := by rw [State.e, hecc.eng]; rfl
    rw [he, hdata, anvWrite, hspan]
    show SMap.get 0 ((v.setE n _).e n).data _ = _
    rw [State.e_setE, if_pos rfl, SMap.get_setMany, if_pos ⟨by omega, by omega⟩, Nat.add_sub_cancel_left]
  · have hcopies : AfterCopies s (moveDone m ms v) := ((AfterCopies.advance _ s).trans (.rxDone _)).trans (.moveDone m ms v)
    rw [hecc.quiet (by rw [State.on, hcopies.rd _ (by decide)]; exact hoff), hrel, anvWrite, hspan]
    rfl

/-! ### An engine that the Anvil stops -/

/-- `t` is `s` after stops of engines: of the Anvil only the waiting starts change, none is added, and no engine turns busy. -/
structure AfterStops (s t : State) : Prop where
  anv : t.anv = { s.anv with runWait := t.anv.runWait }
  waits : ∀ n, s.anv.runWait.any (fun r => r.1 = n) = false → t.anv.runWait.any (fun r => r.1 = n) = false
  busy : ∀ n, s.bit Reg.CEC_STAT_BUSY n = false → t.bit Reg.CEC_STAT_BUSY n = false

theorem AfterStops.refl (s : State) : AfterStops s s := ⟨rfl, fun _ h => h, fun _ h => h⟩

theorem AfterStops.trans {s t u : State} (h : AfterStops s t) (g : AfterStops t u) : AfterStops s u where
  anv := g.anv.trans (by rw [h.anv])
  waits n hn := g.waits n (h.waits n hn)
  busy n hn := g.busy n (h.busy n hn)

theorem cecEngine_ne_busy (n : Nat) : (Reg.CEC_En_FRAME_SAT n).key ≠ Reg.CEC_STAT_BUSY.key ∧
    (Reg.CEC_En_FRAME_FCST n).key ≠ Reg.CEC_STAT_BUSY.key ∧ (Reg.CEC_En_FRAME_OVR n).key ≠ Reg.CEC_STAT_BUSY.key ∧
    (Reg.CEC_En_LAST_ELAPSED n).key ≠ Reg.CEC_STAT_BUSY.key ∧ (Reg.CEC_En_LAST_FN n).key ≠ Reg.CEC_STAT_BUSY.key := by
  simp only [Reg.CEC_En_FRAME_SAT, Reg.CEC_En_FRAME_FCST, Reg.CEC_En_FRAME_OVR, Reg.CEC_En_LAST_ELAPSED, Reg.CEC_En_LAST_FN,
    Reg.CEC_STAT_BUSY]
  omega

/-- What a stop leaves besides: the Anvil and the busy engines stand. -/
theorem engStopped_keeps (n : Nat) (s : State) (hn : n < 8) :
    (engStopped n s).anv = s.anv ∧ (engStopped n s).rd Reg.CEC_STAT_BUSY = s.rd Reg.CEC_STAT_BUSY := by
  obtain ⟨u, hstop, hanv, hbusy⟩ : ∃ u : State, engStopped n s = irq (35 + 4 * n) (raiseAx (Fc.ENG_ABORT n) n u) ∧ u.anv = s.anv ∧
      u.rd Reg.CEC_STAT_BUSY = s.rd Reg.CEC_STAT_BUSY := by
    obtain ⟨hsat, hfcst, hovr, -, -⟩ := cecEngine_ne_busy n
    refine ⟨_, rfl, rfl, ?_⟩
    unfold engFlags
    rw [State.rd_put_ne _ _ _ _ hovr, State.rd_put_ne _ _ _ _ hfcst, State.rd_put_ne _ _ _ _ hsat]
    exact State.rd_wr_ne _ _ _ _ (by decide)
  have hof : OnlyFaults u (engStopped n s) := by
    rw [hstop]
    exact (OnlyFaults.raise _ u).trans (.irq _ _ (by omega))
  exact ⟨hof.anv.trans hanv, (hof.rd _ (by decide)).trans hbusy⟩

/-- The stop of an engine whose start waits drops that start; of another, it clears BUSY. -/
theorem stopEngine_effect (n : Nat) (s : State) (hn : n < 8) : AfterStops s (stopEngine n s) ∧
    (s.anv.runWait.any (fun r => r.1 = n) = true → (stopEngine n s).anv.runWait.any (fun r => r.1 = n) = false) ∧
    (s.anv.runWait.any (fun r => r.1 = n) = false → (stopEngine n s).bit Reg.CEC_STAT_BUSY n = false) := by
  cases hwait : s.anv.runWait.any fun r => r.1 = n with
  | true =>
    have hstop : stopEngine n s = engStopped n (setAnv { s.anv with runWait := s.anv.runWait.filter fun r => r.1 ≠ n } s) := by
      simp only [stopEngine, hwait, if_true]
    obtain ⟨hanv, hbusy⟩ := engStopped_keeps n (setAnv { s.anv with runWait := s.anv.runWait.filter fun r => r.1 ≠ n } s) hn
    rw [← hstop] at hanv hbusy
    have hlist : (stopEngine n s).anv.runWait = s.anv.runWait.filter fun r => r.1 ≠ n := congrArg (·.runWait) hanv
    refine ⟨⟨by rw [hlist]; exact hanv, fun k hk => ?_, fun k hk => ?_⟩, fun _ => ?_, fun h => absurd h (by simp)⟩
    · rw [hlist]
      simp only [List.any_eq_false, decide_eq_true_eq, List.mem_filter] at hk ⊢
      exact fun r hr => hk r hr.1
    · rw [State.bit, hbusy]; exact hk
    · rw [hlist]
      simp only [List.any_eq_false, decide_eq_true_eq, List.mem_filter]
      exact fun r hr => hr.2
  | false =>
    have hstop : stopEngine n s = engAbort n s := by simp only [stopEngine, hwait, Bool.false_eq_true, if_false]
    rw [hstop]
    cases hb : s.bit Reg.CEC_STAT_BUSY n with
    | false =>
      have hidle : engAbort n s = s := by simp only [engAbort, hb, Bool.false_eq_true, if_false]
      rw [hidle]
      exact ⟨.refl s, fun h => absurd h (by simp), fun _ => hb⟩
    | true =>
      obtain ⟨u, habort, hanv, hbusy⟩ : ∃ u : State, engAbort n s = engStopped n u ∧ u.anv = s.anv ∧
          u.rd Reg.CEC_STAT_BUSY = (s.wrBit Reg.CEC_STAT_BUSY n false).rd Reg.CEC_STAT_BUSY := by
        obtain ⟨-, -, -, hel, hfn⟩ := cecEngine_ne_busy n
        unfold engAbort
        rw [if_pos hb]
        refine ⟨_, rfl, rfl, ?_⟩
        exact (State.rd_congr rfl _).trans ((State.rd_wr_ne _ _ _ _ hfn).trans (State.rd_wr_ne _ _ _ _ hel))
      obtain ⟨hanv', hbusy'⟩ := engStopped_keeps n u hn
      rw [← habort] at hanv' hbusy'
      have hanvs : (engAbort n s).anv = s.anv := hanv'.trans hanv
      have hbit : ∀ k, k < 8 → (engAbort n s).bit Reg.CEC_STAT_BUSY k = if n = k then false else s.bit Reg.CEC_STAT_BUSY k := by
        intro k hk
        rw [State.bit, hbusy', hbusy]
        exact State.bit_wrBit s _ _ n k false rfl hk
      have hwide : ∀ k, ¬ k < 8 → ∀ t : State, t.bit Reg.CEC_STAT_BUSY k = false := by
        intro k hk t
        have hlt : t.rd Reg.CEC_STAT_BUSY < 2 ^ k :=
          Nat.lt_of_lt_of_le (t.rd_lt Reg.CEC_STAT_BUSY) (Nat.pow_le_pow_right (by decide) (by show 8 ≤ k; omega))
        simp [State.bit, tb, Nat.div_eq_of_lt hlt]
      refine ⟨⟨by rw [hanvs], fun k hk => by rw [hanvs]; exact hk, fun k hk => ?_⟩, fun h => absurd h (by simp), fun _ => ?_⟩
      · by_cases h8 : k < 8
        · rw [hbit k h8, hk]; simp
        · exact hwide k h8 _
      · rw [hbit n hn, if_pos rfl]

theorem each_stopEngine (l : List Nat) (hl : ∀ n ∈ l, n < 8) (s : State) : AfterStops s (s.each l stopEngine) ∧
    ∀ n ∈ l, if s.anv.runWait.any (fun r => r.1 = n) = true then (s.each l stopEngine).anv.runWait.any (fun r => r.1 = n) = false
      else (s.each l stopEngine).bit Reg.CEC_STAT_BUSY n = false := by
  induction l generalizing s with
  | nil => exact ⟨.refl s, fun n hn => absurd hn (by simp)⟩
  | cons m l ih =>
    obtain ⟨hone, hwaits, hidle⟩ := stopEngine_effect m s (hl m (by simp))
    obtain ⟨hrest, hlist⟩ := ih (fun n hn => hl n (by simp [hn])) (stopEngine m s)
    refine ⟨hone.trans hrest, fun n hn => ?_⟩
    show if s.anv.runWait.any (fun r => r.1 = n) = true then ((stopEngine m s).each l stopEngine).anv.runWait.any (fun r => r.1 = n) = false
      else ((stopEngine m s).each l stopEngine).bit Reg.CEC_STAT_BUSY n = false
    rcases List.mem_cons.mp hn with rfl | hn
    · split
      · next hw => exact hrest.waits n (hwaits hw)
      · next hw => exact hrest.busy n (hidle (Bool.eq_false_iff.mpr hw))
    · have := hlist n hn
      split
      · next hw =>
        split at this
        · exact this
        · next hgone => exact hrest.waits n (Bool.eq_false_iff.mpr hgone)
      · next hw =>
        rwa [if_neg (by rw [hone.waits n (Bool.eq_false_iff.mpr hw)]; decide)] at this

/-! ### The AWAIT that holds the table -/

/-- The engines of an AWAIT that have not completed. -/
def State.openEngines (s : State) (e : Nat) : List Nat := (bitsOf 8 (enEngMask e)).filter fun n => ! s.bit Reg.CEC_STAT_DONE n

theorem State.mem_openEngines (s : State) (e n : Nat) :
    n ∈ s.openEngines e ↔ n < 8 ∧ tb (enEngMask e) n = true ∧ s.bit Reg.CEC_STAT_DONE n = false := by
  simp only [State.openEngines, bitsOf, List.mem_filter, List.mem_range, Bool.not_eq_true', and_assoc]

theorem awaitPass_completes (s : State) (e : Nat) (hlive : s.live pdANV = true) (hhold : s.holding = some e)
    (hdone : (anvTo (max s.time.ft s.anv.freeClk) s).awaitDone e = true) (hin : max s.time.ft s.anv.freeClk ≤ s.failAt e) :
    let u := anvTo (max s.time.ft s.anv.freeClk) s
    Completes .awaitPass s (OnlyFaults (nextPtr { u with anv := { u.anv with hold := false } })) := by
  intro u
  have hexec : exec .awaitPass s = done (nextPtr { u with anv := { u.anv with hold := false } }) := by
    show execAwaitPass s = _
    simp only [execAwaitPass, hlive, hhold, hdone, hin, Bool.not_true, Bool.false_eq_true, if_false, decide_true, Bool.and_self,
      if_true]
    rfl
  exact completes_of_done hexec fun t ht => ht.1

theorem awaitDeadline_completes (s : State) (e : Nat) (hlive : s.live pdANV = true) (hhold : s.holding = some e) :
    let u := anvTo (s.failAt e) s
    (u.awaitDone e = false ∨ s.failAt e < s.time.ft) →
    Completes .awaitDeadline s fun t => t.anv.hold = false ∧ t.anv.ptr = u.anv.ptr + 1 ∧
      t.on Reg.ANV_STAT_OVR = true ∧ t.anv.launchOff = true ∧ t.pends 19 = true ∧ t.isHeld Fc.FRAME_OVERRUN = true ∧
      ∀ n < 8, tb (enEngMask e) n = true → u.bit Reg.CEC_STAT_DONE n = false →
        if u.anv.runWait.any (fun r => r.1 = n) = true then t.anv.runWait.any (fun r => r.1 = n) = false
        else t.bit Reg.CEC_STAT_BUSY n = false := by
  intro u hfails
  obtain ⟨hstops, heach⟩ := each_stopEngine (u.openEngines e) (fun n hn => ((u.mem_openEngines e n).mp hn).1) u
  obtain ⟨entry, engs, w, hw, hexec⟩ : ∃ (entry engs : Nat) (w : State), w = u.each (u.openEngines e) stopEngine ∧ exec .awaitDeadline s =
      done (nextPtr (setAnv { (overrun 1 entry engs w.fn w).anv with hold := false } (overrun 1 entry engs w.fn w))) := by
    refine ⟨(u.each (u.openEngines e) stopEngine).anv.ptr,
      ((u.openEngines e).filter fun n => u.bit Reg.CEC_STAT_BUSY n || u.anv.runWait.any fun r => r.1 = n).foldl
        (fun v n => v + 2 ^ n) 0, _, rfl, ?_⟩
    show execAwaitDeadline s = _
    unfold execAwaitDeadline
    rw [if_neg (by simp [hlive]), hhold]
    dsimp only
    exact if_neg (by
      rcases hfails with h | h
      · show ¬ (u.awaitDone e && _) = true
        rw [h]; simp
      · simp [h])
  rw [← hw] at hstops heach
  refine completes_of_done hexec fun t ht => ?_
  obtain ⟨-, hovr, hanv, hpend, hheld, hrd, -⟩ := overrun_effect 1 entry engs w.fn w
  have hanvt : t.anv = { { (overrun 1 entry engs w.fn w).anv with hold := false } with
      ptr := (overrun 1 entry engs w.fn w).anv.ptr + 1, freeClk := (overrun 1 entry engs w.fn w).time.ft + 1 } := ht.1.anv
  rw [hanv] at hanvt
  refine ⟨congrArg (·.hold) hanvt, (congrArg (·.ptr) hanvt).trans (congrArg (·.ptr + 1) hstops.anv), (ht.1.on _ (by decide)).trans hovr,
    congrArg (·.launchOff) hanvt, ht.1.pends 19 (by decide) hpend, ht.1.held _ hheld, fun n hn hmask hdone => ?_⟩
  have hrun : t.anv.runWait = w.anv.runWait := congrArg (·.runWait) hanvt
  have hbusy : t.bit Reg.CEC_STAT_BUSY n = w.bit Reg.CEC_STAT_BUSY n := by
    rw [State.bit, ht.1.rd _ (by decide)]
    exact congrArg (tb · n) (hrd _ (by decide) (by decide))
  rw [hrun, hbusy]
  exact heach n ((u.mem_openEngines e n).mpr ⟨hn, hmask, hdone⟩)

end Sys2Proof.Machine
end

section
/-! An entry with an uncorrectable error (O5; R53, R79), and O5. -/
namespace Sys2Proof.Machine

/-- Of an entry with an uncorrectable error, whatever its opcode, the command answers the overrun. -/
theorem issueIf_uncorrectable {s : State} {e : Nat} (hnext : s.nextEntry = some e) (op : Nat) (p : Nat → Bool) (k : Nat → State → State) :
    issueIf op p .uncorrectable k s = done (issueEcc e (anvTo (s.issueAt e) s)) := by
  simp only [issueIf, hnext, if_true]

section
variable {s : State} {e : Nat} (hlive : s.live pdANV = true) (hnext : s.nextEntry = some e)
include hlive hnext

theorem issues_uncorrectable (c : Instr) (op : Nat) (p : Nat → Bool) (k : Nat → State → State)
    (hexec : exec c s = if (! s.live pdANV) = true then .next s else issueIf op p .uncorrectable k s) :
    exec c s = done (issueEcc e (anvTo (s.issueAt e) s)) := by
  rw [hexec, if_neg (by simp [hlive]), issueIf_uncorrectable hnext]

theorem move_uncorrectable : exec (.anvMove .uncorrectable) s = done (issueEcc e (anvTo (s.issueAt e) s)) := by
  show execMove .uncorrectable s = _
  simp only [execMove, hlive, hnext, issue, issueIf_uncorrectable hnext, Bool.not_true, Bool.false_eq_true, if_false, ne_eq,
    not_true_eq_false, decide_false, Bool.false_and]

theorem publish_uncorrectable (b : Bool) : exec (.anvPublish .uncorrectable b) s = done (issueEcc e (anvTo (s.issueAt e) s)) := by
  show execPublish .uncorrectable b s = _
  simp only [execPublish, hlive, hnext, issue, issueIf_uncorrectable hnext, Bool.not_true, Bool.false_eq_true, if_false, ne_eq,
    not_true_eq_false, decide_false, Bool.false_and]

theorem anvEntry_uncorrectable (icX icY : BitVec 64) (gpi : Word) (b : Bool) (x : WordEcc) : ∀ c ∈ [Instr.anvNop .uncorrectable,
      .anvSample .uncorrectable, .anvCapture .uncorrectable gpi, .anvMove .uncorrectable, .anvRun .uncorrectable,
      .anvAwait .uncorrectable, .anvExchangeTx .uncorrectable x, .anvExchangeRx .uncorrectable, .anvExchangeSeam .uncorrectable x,
      .anvCheck .uncorrectable icX icY, .anvPublish .uncorrectable b, .anvLaunch .uncorrectable b, .anvRecord .uncorrectable,
      .anvSignal .uncorrectable, .anvMode .uncorrectable, .anvEnd .uncorrectable b],
    exec c s = done (issueEcc e (anvTo (s.issueAt e) s)) := by
  have hissues := issues_uncorrectable hlive hnext
  simp only [List.forall_mem_cons, List.not_mem_nil, false_implies, implies_true, and_true]
  exact ⟨hissues _ _ _ _ rfl, hissues _ _ _ _ rfl, hissues _ _ _ _ rfl, move_uncorrectable hlive hnext, hissues _ _ _ _ rfl,
    hissues _ _ _ _ rfl, hissues _ _ _ _ rfl, hissues _ _ _ _ rfl, hissues _ _ _ _ rfl, hissues _ _ _ _ rfl,
    publish_uncorrectable hlive hnext b, hissues _ _ _ _ rfl, hissues _ _ _ _ rfl, hissues _ _ _ _ rfl, hissues _ _ _ _ rfl,
    hissues _ _ _ _ rfl⟩

end

/-- What an entry with an uncorrectable error leaves: VALID of the active mode clears, ANV_ECC_ADDR names the entry, the frame
overruns, and the table moves on. -/
theorem issueEcc_effect (e : Nat) (u t : State) (ht : OnlyFaults (issueEcc e u) t) :
    t.on Reg.ANV_STAT_OVR = true ∧ t.anv.launchOff = true ∧ t.anv.ovrNow = true ∧ t.pends 19 = true ∧
    t.isHeld Fc.FRAME_OVERRUN = true ∧ t.isHeld Fc.ECC_UNCORR = true ∧ t.anv.ptr = u.anv.ptr + 1 ∧
    t.bit Reg.ANV_STAT_VALID (u.rd Reg.ANV_STAT_MODE) = false ∧
    t.rd Reg.ANV_ECC_ADDR = (u.activeSpan.1 + u.anv.ptr) % 2 ^ 13 := by
  obtain ⟨v, hv, hregs, hptr⟩ : ∃ v : State, issueEcc e u = nextPtr (overrun 3 u.anv.ptr 0 v.fn
      (modeInvalid (u.rd Reg.ANV_STAT_MODE) (anvUncorr (u.activeSpan.1 + u.anv.ptr) v))) ∧ v.regs = u.regs ∧ v.anv.ptr = u.anv.ptr := by
    unfold issueEcc State.when
    split <;> exact ⟨_, rfl, rfl, rfl⟩
  have huncorr := anvUncorr_onlyFaults (u.activeSpan.1 + u.anv.ptr) v
  have hheld := anvUncorr_held (u.activeSpan.1 + u.anv.ptr) v
  obtain ⟨x, hx⟩ : ∃ x, x = anvUncorr (u.activeSpan.1 + u.anv.ptr) v := ⟨_, rfl⟩
  rw [← hx] at hv huncorr hheld
  obtain ⟨m, hm⟩ : ∃ m, m = u.rd Reg.ANV_STAT_MODE := ⟨_, rfl⟩
  rw [← hm] at hv ⊢
  have hm8 : m < 8 := hm ▸ u.rd_lt Reg.ANV_STAT_MODE
  obtain ⟨-, hovr, hanv, hpend, hover, hrd, hkeeps⟩ := overrun_effect 3 u.anv.ptr 0 v.fn (modeInvalid m x)
  rw [hv] at ht
  obtain ⟨w, hw⟩ : ∃ w, w = overrun 3 u.anv.ptr 0 v.fn (modeInvalid m x) := ⟨_, rfl⟩
  rw [← hw] at ht hovr hanv hpend hover hrd hkeeps
  have hanvt : t.anv = { w.anv with ptr := w.anv.ptr + 1, freeClk := w.time.ft + 1 } := ht.anv
  rw [hanv] at hanvt
  have hxptr : x.anv.ptr = u.anv.ptr := (congrArg (·.ptr) huncorr.anv).trans hptr
  have haddr : (Reg.ANV_VALn_VALID m).key ≠ Reg.ANV_ECC_ADDR.key := by
    have : ∀ k : Fin 8, (Reg.ANV_VALn_VALID k).key ≠ Reg.ANV_ECC_ADDR.key := by decide
    exact this ⟨m, hm8⟩
  have hrdt : ∀ f, Fld.ofFaults f = false → (∀ g ∈ overrunFlds, g.key ≠ f.key) → t.rd f = (modeInvalid m x).rd f :=
    fun f hf hne => (ht.rd f hf).trans (hrd f hf hne)
  refine ⟨(ht.on _ (by decide)).trans hovr, congrArg (·.launchOff) hanvt, congrArg (·.ovrNow) hanvt, ht.pends 19 (by decide) hpend,
    ht.held _ hover, ht.held _ (hkeeps _ hheld), ?_, ?_, ?_⟩
  · exact (congrArg (·.ptr) hanvt).trans (congrArg (· + 1) hxptr)
  · rw [State.bit, hrdt _ (by decide) (by decide)]
    exact (modeInvalid_bit m m x hm8).trans (if_pos rfl)
  · rw [hrdt _ (by decide) (by decide), modeInvalid, State.rd_put_ne _ _ _ _ haddr, State.wrBit,
      State.rd_wr_ne _ _ _ _ (by decide), huncorr.rd _ (by decide), State.rd_wr_self]
    rfl

/-- Settles O5: each of these commands ends in `done`; the starts and stops answer their effect, the others what follows from the
end of a copy, from stopped engines, from a frame that overruns and from an entry whose word cannot be corrected. -/
theorem anvilRunStopAndErrors : Obligations.AnvilRunStopAndErrors := by
  refine ⟨⟨anvRunStart_completes, anvRunStop_completes, anvilStart_completes, anvilStop_completes, modeRequest_completes, ?_,
    moveCopyDone_completes, awaitPass_completes, awaitDeadline_completes⟩, ?_⟩
  · intro s hlive hscrub hnone hin
    refine ⟨scrubRead_ok s hlive hscrub hnone hin, ?_, ?_, scrubRead_corrected s hlive hscrub hnone hin,
      scrubRead_uncorrectable s hlive hscrub hnone hin⟩
    · unfold State.scrubAt; omega
    · intro hrunning
      rw [State.scrubAt, if_pos hrunning]; omega
  · intro e icX icY gpi b x s c hlive hnext hc
    exact completes_of_done (anvEntry_uncorrectable hlive hnext icX icY gpi b x c hc) fun t ht => issueEcc_effect e _ t ht.1

end Sys2Proof.Machine
end

section
/-! Entries that issue with a correct or corrected word, and SAMPLE (O3; R57, R59, R61, R128, R184). -/
namespace Sys2Proof.Machine

/-! ### An entry that issues -/

/-- Of an entry that issues as this opcode the command answers what it does on the issue clock. -/
theorem issueIf_atEntry {s : State} {op e : Nat} {ecc : Ecc} (hecc : ecc ≠ .uncorrectable) (hat : s.atEntry op e) (p : Nat → Bool)
    (hp : p e = true) (k : Nat → State → State) : issueIf op p ecc k s = done (k e (s.issued e ecc)) := by
  obtain ⟨-, hnext, hop⟩ := hat
  simp only [issueIf, hnext, if_neg hecc, hop, hp, ne_eq, not_true_eq_false, decide_false, Bool.not_true, Bool.or_self,
    Bool.false_eq_true, if_false]
  rfl

theorem issues_atEntry {s : State} {op e : Nat} {ecc : Ecc} (hecc : ecc ≠ .uncorrectable) (hat : s.atEntry op e) (p : Nat → Bool)
    (hp : p e = true) (k : Nat → State → State) (c : Instr)
    (hexec : exec c s = if (! s.live pdANV) = true then .next s else issueIf op p ecc k s) :
    exec c s = done (k e (s.issued e ecc)) := by
  rw [hexec, if_neg (by simp [hat.1]), issueIf_atEntry hecc hat p hp]

/-- Moving the table on keeps what separates two states. -/
theorem OnlyFaults.nextPtr {s t : State} (h : OnlyFaults s t) : OnlyFaults (nextPtr s) (nextPtr t) :=
  { h with
    anv := by
      show ({ t.anv with ptr := t.anv.ptr + 1, freeClk := t.time.ft + 1 } : AnvSt) = _
      rw [h.anv, h.time]; rfl }

/-! ### Words of the frame input buffer -/

/-- `t` is `s` but for words of the frame input buffer other than word `i`: registers, time, feedback channels and table stand. -/
structure KeepsFib (i : Nat) (s t : State) : Prop where
  fib : SMap.get 0 t.anv.fib i = SMap.get 0 s.anv.fib i
  regs : t.regs = s.regs
  ptr : t.anv.ptr = s.anv.ptr
  time : t.time = s.time
  fb : t.fb = s.fb

theorem KeepsFib.refl (i : Nat) (s : State) : KeepsFib i s s := ⟨rfl, rfl, rfl, rfl, rfl⟩

theorem KeepsFib.trans {i : Nat} {s t u : State} (h : KeepsFib i s t) (g : KeepsFib i t u) : KeepsFib i s u :=
  ⟨g.fib.trans h.fib, g.regs.trans h.regs, g.ptr.trans h.ptr, g.time.trans h.time, g.fb.trans h.fb⟩

theorem KeepsFib.each {i : Nat} (l : List Nat) (f : Nat → State → State) (h : ∀ n ∈ l, ∀ s, KeepsFib i s (f n s)) (s : State) :
    KeepsFib i s (s.each l f) := by
  induction l generalizing s with
  | nil => exact .refl i s
  | cons n l ih => exact (h n (by simp) s).trans (ih (fun m hm => h m (by simp [hm])) (f n s))

theorem KeepsFib.setFib {i : Nat} (j v : Nat) (s : State) (h : j ≠ i) : KeepsFib i s (setFib j v s) where
  fib := by rw [Machine.setFib, SMap.get_set, if_neg h]
  regs := rfl
  ptr := rfl
  time := rfl
  fb := rfl

theorem setFibs_get (i j : Nat) (vs : List Nat) (s : State) : SMap.get 0 (setFibs i vs s).anv.fib j =
    if i ≤ j ∧ j < i + vs.length then vs.getD (j - i) 0 % 2 ^ 32 else SMap.get 0 s.anv.fib j := by
  rw [setFibs, SMap.get_setMany, List.length_map]
  congr 1
  rw [List.getD_eq_getElem?_getD, List.getD_eq_getElem?_getD, List.getElem?_map]
  cases vs[j - i]? <;> rfl

theorem KeepsFib.setFibs {i : Nat} (j : Nat) (vs : List Nat) (s : State) (h : i < j ∨ j + vs.length ≤ i) :
    KeepsFib i s (setFibs j vs s) where
  fib := by rw [setFibs_get, if_neg (by omega)]
  regs := rfl
  ptr := rfl
  time := rfl
  fb := rfl

/-! ### SAMPLE -/

/-- What a SAMPLE of group g keeps of word `i` of the other sections: nothing in the measurement words of an axis writes there. -/
theorem KeepsFib.latchSlot {i g k : Nat} (s : State) (hne : 256 + 8 * g + k ≠ i) (hi : 256 ≤ i) : KeepsFib i s (latchSlot g k s) := by
  have hdax : s.rd (Reg.ADC_Gg_Sk_DAX g k) < 8 := s.rd_lt (Reg.ADC_Gg_Sk_DAX g k)
  have hdw : s.rd (Reg.ADC_Gg_Sk_DW g k) < 8 := s.rd_lt (Reg.ADC_Gg_Sk_DW g k)
  have hslot : KeepsFib i s (Machine.setFib (256 + 8 * g + k) (s.slotValue g k) s) := .setFib _ _ s hne
  unfold Machine.latchSlot State.when
  dsimp only
  split
  · refine hslot.trans (.setFib _ _ _ ?_)
    show 32 * s.rd (Reg.ADC_Gg_Sk_DAX g k) + 24 + s.rd (Reg.ADC_Gg_Sk_DW g k) ≠ i
    omega
  · exact hslot

/-- A latched slot's word holds the slot's value. -/
theorem latchSlot_word (g k : Nat) (s : State) :
    SMap.get 0 (latchSlot g k s).anv.fib (256 + 8 * g + k) = s.slotValue g k % 2 ^ 32 := by
  have hdax : s.rd (Reg.ADC_Gg_Sk_DAX g k) < 8 := s.rd_lt (Reg.ADC_Gg_Sk_DAX g k)
  have hdw : s.rd (Reg.ADC_Gg_Sk_DW g k) < 8 := s.rd_lt (Reg.ADC_Gg_Sk_DW g k)
  have hslot : SMap.get 0 (setFib (256 + 8 * g + k) (s.slotValue g k) s).anv.fib (256 + 8 * g + k) = s.slotValue g k % 2 ^ 32 := by
    rw [setFib, SMap.get_set, if_pos rfl]
  unfold latchSlot State.when
  dsimp only
  split
  · refine (KeepsFib.setFib _ _ _ ?_).fib.trans hslot
    show 32 * s.rd (Reg.ADC_Gg_Sk_DAX g k) + 24 + s.rd (Reg.ADC_Gg_Sk_DW g k) ≠ _
    omega
  · exact hslot

theorem latchSlot_regs (g k : Nat) (s : State) : (latchSlot g k s).regs = s.regs := by
  unfold latchSlot State.when
  dsimp only
  split <;> rfl

theorem slotValue_congr {s t : State} (h : t.regs = s.regs) (g k : Nat) : t.slotValue g k = s.slotValue g k := by
  have hrd := State.rd_congr h
  simp only [State.slotValue, State.on, hrd]
  rfl

theorem each_latchSlot (g : Nat) (l : List Nat) (s : State) : ∀ k ∈ l,
    SMap.get 0 (s.each l (latchSlot g)).anv.fib (256 + 8 * g + k) = s.slotValue g k % 2 ^ 32 := by
  induction l generalizing s with
  | nil => simp
  | cons m l ih =>
    intro k hk
    show SMap.get 0 ((latchSlot g m s).each l (latchSlot g)).anv.fib _ = _
    by_cases hlater : k ∈ l
    · rw [ih _ k hlater, slotValue_congr (latchSlot_regs g m s)]
    · obtain rfl : k = m := (List.mem_cons.mp hk).resolve_right hlater
      rw [← latchSlot_word g k s]
      refine (KeepsFib.each l _ (fun n hn v => .latchSlot v ?_ (by omega)) _).fib
      rintro heq
      exact hlater (by obtain rfl : n = k := by omega
                       exact hn)

theorem KeepsFib.comLatchShunt {i : Nat} (n : Nat) (hn : n < 8) (s : State) (hi : 256 ≤ i) : KeepsFib i s (comLatchShunt n s) := by
  have hlen : ∀ l, (padTo 8 l).length ≤ 8 := fun l => List.length_take_le 8 _
  have := hlen (((s.c n).set.headD 0 + b2n (s.c n).fresh * 4) :: (s.c n).set.tail)
  have hset : KeepsFib i s (Machine.setFibs (32 * n) (padTo 8 (((s.c n).set.headD 0 + b2n (s.c n).fresh * 4) :: (s.c n).set.tail)) s) :=
    .setFibs _ _ s (.inr (by omega))
  exact ⟨hset.fib, hset.regs, hset.ptr, hset.time, hset.fb⟩

theorem KeepsFib.comSampleFixed {i : Nat} (s : State) (hi : 256 ≤ i) : KeepsFib i s (comSampleFixed s) := by
  refine .each _ _ (fun n hn s => ?_) s
  have hn8 : n < 8 := List.mem_range.mp hn
  split
  · exact .refl i s
  · exact .setFibs _ _ s (.inr (by show 32 * n + 8 ≤ i; omega))
  · exact .setFibs _ _ s (.inr (by show 32 * n + 8 ≤ i; omega))

theorem noteWaits_frame (s : State) : ∃ a, noteWaits s = { s with adc := a } := by
  have hfold : ∀ (l : List GConv) (u : State), ∃ a, l.foldl (fun s w => setDefer w.g s) u = { u with adc := a } := by
    intro l
    induction l with
    | nil => exact fun u => ⟨_, rfl⟩
    | cons w l ih =>
      intro u
      obtain ⟨a, h⟩ := ih (setDefer w.g u)
      exact ⟨a, h⟩
  obtain ⟨a, h⟩ := hfold (s.adc.wait.filter s.waits) s
  unfold noteWaits
  dsimp only
  rw [h]
  exact ⟨_, rfl⟩

/-- Every slot that a SAMPLE latches holds its value in its word; the table stands (R61, R184). -/
theorem latchGroup_effect (g kind last : Nat) (b : Bool) (shunts : List Nat) (s : State) (hg : g < 16) (hs : ∀ n ∈ shunts, n < 8) :
    (latchGroup g kind last b shunts s).anv.ptr = s.anv.ptr ∧ ∀ k ∈ s.latched g kind,
      SMap.get 0 (latchGroup g kind last b shunts s).anv.fib (256 + 8 * g + k) = s.slotValue g k % 2 ^ 32 := by
  obtain ⟨v, hv⟩ : ∃ v, v = s.each (s.latched g kind) (latchSlot g) := ⟨_, rfl⟩
  obtain ⟨w, hanv⟩ : ∃ w, (latchGroup g kind last b shunts s).anv = (setFib 387 w (comSampleFixed (v.each shunts comLatchShunt))).anv := by
    unfold latchGroup
    dsimp only
    rw [← hv]
    exact ⟨_, rfl⟩
  have hafter : ∀ i, 256 ≤ i → i < 387 → KeepsFib i v (setFib 387 w (comSampleFixed (v.each shunts comLatchShunt))) :=
    fun i hlo hhi => ((KeepsFib.each shunts _ (fun n hn s => .comLatchShunt n (hs n hn) s hlo) v).trans (.comSampleFixed _ hlo)).trans
      (.setFib _ _ _ (by omega))
  have hlt : ∀ k ∈ s.latched g kind, k < 8 := fun k hk => List.mem_range.mp (List.mem_filter.mp hk).1
  refine ⟨?_, fun k hk => ?_⟩
  · have hslots : KeepsFib 384 s v := by
      rw [hv]
      exact .each _ _ (fun k hk s => .latchSlot s (by have := hlt k hk; omega) (by decide)) s
    rw [hanv, (hafter 384 (by decide) (by decide)).ptr, hslots.ptr]
  · have := hlt k hk
    rw [hanv, (hafter (256 + 8 * g + k) (by omega) (by omega)).fib, hv, each_latchSlot g _ s k hk]

/-- A SAMPLE: every slot its KIND latches holds its value in its word, GDEFER of the group is clear, and the table stands. -/
theorem sample_effect (g kind : Nat) (s : State) (hg : g < 16) :
    (sample g kind s).anv.ptr = s.anv.ptr ∧ tb (sample g kind s).adc.gdefer g = false ∧
    ∀ k < 8, s.on (Reg.ADC_Gg_Sk_EN g k) = true → kind ≠ (if s.on (Reg.ADC_Gg_Sk_SD g k) = true then 0 else 1) →
      SMap.get 0 (sample g kind s).anv.fib (256 + 8 * g + k) = s.slotValue g k % 2 ^ 32 := by
  obtain ⟨a, hnote⟩ := noteWaits_frame s
  obtain ⟨v, hv⟩ : ∃ v, v = noteWaits s := ⟨_, rfl⟩
  have hregs : v.regs = s.regs := by rw [hv, hnote]
  have hptr : v.anv.ptr = s.anv.ptr := by rw [hv, hnote]
  have hshunts : ∀ n ∈ v.shuntAxes g (v.latched g kind), n < 8 := fun n hn => List.mem_range.mp (List.mem_filter.mp hn).1
  obtain ⟨hgptr, hgroup⟩ := latchGroup_effect g kind (SMap.get 0 v.adc.seq (128 + g)) (tb v.adc.gdefer g) _ v hg hshunts
  have hanv : (sample g kind s).anv =
      (latchGroup g kind (SMap.get 0 v.adc.seq (128 + g)) (tb v.adc.gdefer g) (v.shuntAxes g (v.latched g kind)) v).anv := by
    rw [hv]; rfl
  refine ⟨by rw [hanv, hgptr, hptr], ?_, fun k hk hen hkind => ?_⟩
  · show tb (putBit _ g false) g = false
    rw [tb_putBit, if_pos rfl]
  · have hmem : k ∈ v.latched g kind := by
      have hrd := State.rd_congr hregs
      refine List.mem_filter.mpr ⟨List.mem_range.mpr hk, ?_⟩
      simp only [State.on, hrd] at hen hkind ⊢
      rw [hen]
      by_cases hsd : s.rd (Reg.ADC_Gg_Sk_SD g k) = 1
      · simpa [hsd] using hkind
      · simpa [hsd] using hkind
    rw [hanv, hgroup k hmem, slotValue_congr hregs]

end Sys2Proof.Machine
end

section
/-! CAPTURE (O3; R62, R141, R161, R177 to R179). -/
namespace Sys2Proof.Machine

/-! ### The axes mapped to a channel -/

theorem tb_foldl_orW (P : Nat → Prop) [DecidablePred P] (a : Nat) (l : List Nat) (v : Nat) :
    tb (l.foldl (fun m k => if P k then orW m (2 ^ k) else m) v) a = (tb v a || l.any fun k => decide (P k) && decide (k = a)) := by
  have hpow : ∀ k, tb (2 ^ k) a = decide (k = a) := fun k => by rw [tb_eq_testBit, Nat.testBit_two_pow]
  induction l generalizing v with
  | nil => simp
  | cons k l ih =>
    rw [List.foldl_cons, ih, List.any_cons]
    by_cases hP : P k
    · rw [if_pos hP, tb_orW, hpow]; simp [hP, Bool.or_assoc]
    · simp [hP]

theorem mem_chanAxes (s : State) (n a : Nat) : a ∈ bitsOf 8 (s.chanAxes n) ↔ a < 8 ∧ s.axChan a = n := by
  have hbit : tb (s.chanAxes n) a = (List.range 8).any fun k => decide (s.axChan k = n) && decide (k = a) := by
    refine (tb_foldl_orW (fun k => s.axChan k = n) a (List.range 8) 0).trans ?_
    rw [show tb 0 a = false by simp [tb], Bool.false_or]
  rw [bitsOf, List.mem_filter, List.mem_range, hbit, List.any_eq_true]
  constructor
  · rintro ⟨ha, k, -, hk⟩
    obtain ⟨hchan, rfl⟩ : s.axChan k = n ∧ k = a := by simpa using hk
    exact ⟨ha, hchan⟩
  · rintro ⟨ha, hchan⟩
    exact ⟨ha, a, List.mem_range.mpr ha, by simp [hchan]⟩

/-! ### The section of a channel -/

theorem fbWords_length (s : State) (n : Nat) : (s.fbWords n).length = 8 := rfl

/-- The registers that the section of channel n is made of. -/
def fbReads (n : Nat) : List Fld :=
  [Reg.FBK_Cn_CFG_MODE n, Reg.FBK_Cn_CFG_PAR n, Reg.FBK_Cn_SSI_NB n, Reg.FBK_Cn_SSI_HALF n, Reg.FBK_Cn_SSI_LDLY n,
    Reg.FBK_Cn_SSIOFS n, Reg.TIME_FRAME, Reg.FBK_Cn_ILLCNT n]

theorem fbWords_congr {s t : State} (n : Nat) (hfb : t.fbc n = s.fbc n) (htime : t.time = s.time)
    (hrd : ∀ f ∈ fbReads n, t.rd f = s.rd f) : t.fbWords n = s.fbWords n := by
  simp only [fbReads, List.forall_mem_cons, List.not_mem_nil, false_implies, implies_true, and_true] at hrd
  obtain ⟨hmode, hpar, hnb, hhalf, hldly, hofs, hframe, hill⟩ := hrd
  have hct : t.ctTicks = s.ctTicks := by rw [State.ctTicks, State.ct, htime]; rfl
  simp only [State.fbWords, State.fbStatus, State.fbCfgBad, State.ssiSpan, State.ssiM, State.ssiNb, State.frameTicks, State.fbMode,
    hfb, hmode, hpar, hnb, hhalf, hldly, hofs, hframe, hill, hct]
  rfl

/-- The state whose section of channel n a CAPTURE takes: as before a REARM of its clock (R179). -/
def captureView (n : Nat) (s : State) : State := if (s.fbc n).rearmAt = some s.time.clk then unRearm n s else s

theorem captureView_words_congr {s t : State} (n : Nat) (hfb : t.fbc n = s.fbc n) (htime : t.time = s.time)
    (hrd : ∀ f ∈ fbReads n, t.rd f = s.rd f) : (captureView n t).fbWords n = (captureView n s).fbWords n := by
  unfold captureView
  rw [hfb, htime]
  split
  · refine fbWords_congr n ?_ htime fun f hf => ?_
    · show ((t.setFb n _).fbc n) = ((s.setFb n _).fbc n)
      rw [State.fbc_setFb, State.fbc_setFb, hfb]
    · show ((t.setFb n _).wr (Reg.FBK_Cn_ILLCNT n) _).rd f = ((s.setFb n _).wr (Reg.FBK_Cn_ILLCNT n) _).rd f
      rw [State.rd_wr, State.rd_wr, hfb]
      split
      · rfl
      · exact hrd f hf
  · exact fbWords_congr n hfb htime hrd

/-! ### The capture of one channel -/

theorem each_setFibs_words (ws : List Nat) (hlen : ws.length = 8) (l : List Nat) (s : State) : ∀ a ∈ l, ∀ i < 8,
    SMap.get 0 (s.each l fun k s => setFibs (32 * k + 16) ws s).anv.fib (32 * a + 16 + i) = ws.getD i 0 % 2 ^ 32 := by
  induction l generalizing s with
  | nil => simp
  | cons k l ih =>
    intro a ha i hi
    show SMap.get 0 ((setFibs (32 * k + 16) ws s).each l fun k s => setFibs (32 * k + 16) ws s).anv.fib _ = _
    by_cases hlater : a ∈ l
    · exact ih _ a hlater i hi
    · obtain rfl : a = k := (List.mem_cons.mp ha).resolve_right hlater
      have hkeep : ∀ m ∈ l, ∀ s, KeepsFib (32 * a + 16 + i) s (setFibs (32 * m + 16) ws s) := fun m hm s => by
        have hne : m ≠ a := fun h => hlater (h ▸ hm)
        exact .setFibs _ _ s (by omega)
      rw [(KeepsFib.each l (fun k s => setFibs (32 * k + 16) ws s) hkeep _).fib, setFibs_get, if_pos (by omega), Nat.add_sub_cancel_left]

/-- `t` is `s` after a CAPTURE of channel m: its section stands in its axes and its marks are clear; of the rest only its own
state and its count of illegal transitions may have changed. -/
structure Captured (m : Nat) (s t : State) : Prop where
  time : t.time = s.time
  ptr : t.anv.ptr = s.anv.ptr
  rd : ∀ f, (Reg.FBK_Cn_ILLCNT m).key ≠ f.key → t.rd f = s.rd f
  fbc : ∀ n, n ≠ m → t.fbc n = s.fbc n
  clear : (t.fbc m).dirChg = false ∧ (t.fbc m).idxSeen = false
  words : ∀ a < 8, s.axChan a = m → ∀ i < 8, SMap.get 0 t.anv.fib (32 * a + 16 + i) = ((captureView m s).fbWords m).getD i 0 % 2 ^ 32
  other : ∀ a < 8, s.axChan a ≠ m → ∀ i < 8, SMap.get 0 t.anv.fib (32 * a + 16 + i) = SMap.get 0 s.anv.fib (32 * a + 16 + i)

/-- The words that the capture of channel m writes. -/
theorem fbCapture_fib (m : Nat) (s : State) :
    (fbCapture m s).anv = (s.each (bitsOf 8 (s.chanAxes m)) fun k v => setFibs (32 * k + 16) (s.fbWords m) v).anv := rfl

theorem each_setFibs_frame (ws : List Nat) (l : List Nat) (s : State) :
    ∃ b, (s.each l fun k s => setFibs (32 * k + 16) ws s) = { s with anv := { s.anv with fib := b } } := by
  induction l generalizing s with
  | nil => exact ⟨_, rfl⟩
  | cons k l ih =>
    obtain ⟨b, h⟩ := ih (setFibs (32 * k + 16) ws s)
    exact ⟨b, h⟩

theorem fbCapture_frame (m : Nat) (s : State) : ∃ b, fbCapture m s = { s with
    anv := { s.anv with fib := b }
    fb := SMap.set {} s.fb m { s.fbc m with
      dirChg := false, idxSeen := false, capAt := some s.time.clk, capDir := (s.fbc m).dirChg, capIdx := (s.fbc m).idxSeen } } := by
  obtain ⟨b, h⟩ := each_setFibs_frame (s.fbWords m) (bitsOf 8 (s.chanAxes m)) s
  unfold fbCapture
  dsimp only
  rw [h]
  exact ⟨b, rfl⟩

/-- The capture alone takes the section as it stands. -/
theorem fbCapture_captured (m : Nat) (s : State) : let t := fbCapture m s
    t.regs = s.regs ∧ t.time = s.time ∧ t.anv.ptr = s.anv.ptr ∧ (∀ n, n ≠ m → t.fbc n = s.fbc n) ∧
    (t.fbc m).dirChg = false ∧ (t.fbc m).idxSeen = false ∧
    (∀ a < 8, s.axChan a = m → ∀ i < 8, SMap.get 0 t.anv.fib (32 * a + 16 + i) = (s.fbWords m).getD i 0 % 2 ^ 32) ∧
    ∀ a < 8, s.axChan a ≠ m → ∀ i < 8, SMap.get 0 t.anv.fib (32 * a + 16 + i) = SMap.get 0 s.anv.fib (32 * a + 16 + i) := by
  intro t
  obtain ⟨b, h⟩ := fbCapture_frame m s
  have hfbc : ∀ n, t.fbc n = if m = n then _ else s.fbc n := fun n =>
    (show t.fbc n = (s.setFb m _).fbc n by rw [show t = _ from h]; rfl).trans (s.fbc_setFb m n _)
  refine ⟨by rw [show t = _ from h], by rw [show t = _ from h], by rw [show t = _ from h], fun n hn => ?_, ?_, ?_, fun a ha hchan i hi => ?_,
    fun a ha hchan i hi => ?_⟩
  · rw [hfbc, if_neg (Ne.symm hn)]
  · rw [hfbc, if_pos rfl]
  · rw [hfbc, if_pos rfl]
  · rw [show t.anv = _ from fbCapture_fib m s]
    exact each_setFibs_words _ (fbWords_length s m) _ s a ((mem_chanAxes s m a).mpr ⟨ha, hchan⟩) i hi
  · rw [show t.anv = _ from fbCapture_fib m s]
    refine (KeepsFib.each _ (fun k v => setFibs (32 * k + 16) (s.fbWords m) v) (fun k hk v => .setFibs _ _ v ?_) s).fib
    obtain ⟨hk8, hkchan⟩ := (mem_chanAxes s m k).mp hk
    have hne : k ≠ a := fun h => hchan (h ▸ hkchan)
    rw [fbWords_length]
    omega

theorem axmap_ne_illcnt (m : Nat) : (Reg.FBK_Cn_ILLCNT m).key ≠ Reg.FBK_AXMAP.key := by
  simp only [Reg.FBK_Cn_ILLCNT, Reg.FBK_AXMAP]; omega

theorem axChan_congr {s t : State} (h : t.rd Reg.FBK_AXMAP = s.rd Reg.FBK_AXMAP) (a : Nat) : t.axChan a = s.axChan a := by
  rw [State.axChan, h]; rfl

theorem Captured.beforeRearm (m : Nat) (s : State) : Captured m s (beforeRearm m (fbCapture m) s) := by
  unfold Machine.beforeRearm
  split
  · next hrearm =>
    have hview : captureView m s = unRearm m s := if_pos hrearm
    have hchan : ∀ a, (unRearm m s).axChan a = s.axChan a :=
      axChan_congr (State.rd_wr_ne (s.setFb m _) _ _ _ (axmap_ne_illcnt m))
    obtain ⟨hregs, htime, hptr, hfbc, -, -, hwords, hother⟩ := fbCapture_captured m (unRearm m s)
    obtain ⟨v, hv⟩ : ∃ v, v = fbCapture m (unRearm m s) := ⟨_, rfl⟩
    rw [← hv] at hregs htime hptr hfbc hwords hother ⊢
    simp only [hchan] at hwords hother
    rw [← hview] at hwords
    exact {
      time := htime
      ptr := hptr
      rd := fun f hf => (State.rd_wr_ne (v.setFb m _) _ _ _ hf).trans
        ((State.rd_congr hregs f).trans (State.rd_wr_ne (s.setFb m _) _ _ _ hf))
      fbc := fun n hn => by
        show (v.setFb m _).fbc n = s.fbc n
        rw [State.fbc_setFb, if_neg (Ne.symm hn), hfbc n hn]
        show (s.setFb m _).fbc n = s.fbc n
        rw [State.fbc_setFb, if_neg (Ne.symm hn)]
      clear := by
        show ((v.setFb m _).fbc m).dirChg = false ∧ ((v.setFb m _).fbc m).idxSeen = false
        rw [State.fbc_setFb, if_pos rfl]
        exact ⟨rfl, rfl⟩
      words := hwords
      other := hother }
  · next hrearm =>
    have hview : captureView m s = s := if_neg hrearm
    obtain ⟨hregs, htime, hptr, hfbc, hdir, hidx, hwords, hother⟩ := fbCapture_captured m s
    exact ⟨htime, hptr, fun f _ => State.rd_congr hregs f, hfbc, ⟨hdir, hidx⟩, by rw [hview]; exact hwords, hother⟩

end Sys2Proof.Machine
end

section
/-! The captures of a CAPTURE entry's channels, its inputs and limits (O3; R62, R141, R161). -/
namespace Sys2Proof.Machine

/-- `t` is `s` after the CAPTURE of the channels of `l`, each with the section it had in `s`. -/
structure CapturedAll (l : List Nat) (s t : State) : Prop where
  time : t.time = s.time
  ptr : t.anv.ptr = s.anv.ptr
  rd : ∀ f, (∀ m, (Reg.FBK_Cn_ILLCNT m).key ≠ f.key) → t.rd f = s.rd f
  section_ : ∀ n ∈ l, (t.fbc n).dirChg = false ∧ (t.fbc n).idxSeen = false ∧ ∀ a < 8, s.axChan a = n → ∀ i < 8,
    SMap.get 0 t.anv.fib (32 * a + 16 + i) = ((captureView n s).fbWords n).getD i 0 % 2 ^ 32
  other : ∀ n, n ∉ l → t.fbc n = s.fbc n ∧ ∀ a < 8, s.axChan a = n → ∀ i < 8,
    SMap.get 0 t.anv.fib (32 * a + 16 + i) = SMap.get 0 s.anv.fib (32 * a + 16 + i)

/-- The section of a channel reads no count of illegal transitions but its own. -/
theorem fbReads_ne_illcnt {n m : Nat} (h : n ≠ m) : ∀ f ∈ fbReads n, (Reg.FBK_Cn_ILLCNT m).key ≠ f.key := by
  simp only [fbReads, List.forall_mem_cons, List.not_mem_nil, false_implies, implies_true, and_true, Reg.FBK_Cn_ILLCNT,
    Reg.FBK_Cn_CFG_MODE, Reg.FBK_Cn_CFG_PAR, Reg.FBK_Cn_SSI_NB, Reg.FBK_Cn_SSI_HALF, Reg.FBK_Cn_SSI_LDLY, Reg.FBK_Cn_SSIOFS,
    Reg.TIME_FRAME]
  omega

theorem capturedAll (l : List Nat) (hl : l.Nodup) (s : State) :
    CapturedAll l s (s.each l fun n => beforeRearm n (fbCapture n)) := by
  induction l generalizing s with
  | nil => exact ⟨rfl, rfl, fun _ _ => rfl, fun n hn => absurd hn (by simp), fun _ _ => ⟨rfl, fun _ _ _ _ _ => rfl⟩⟩
  | cons m l ih =>
    obtain ⟨hm, hnodup⟩ := List.nodup_cons.mp hl
    have hone := Captured.beforeRearm m s
    obtain ⟨v, hv⟩ : ∃ v, v = beforeRearm m (fbCapture m) s := ⟨_, rfl⟩
    rw [← hv] at hone
    have hrest := ih hnodup v
    show CapturedAll (m :: l) s ((beforeRearm m (fbCapture m) s).each l fun n => beforeRearm n (fbCapture n))
    rw [← hv]
    have hchan : ∀ a, v.axChan a = s.axChan a := axChan_congr (hone.rd _ (axmap_ne_illcnt m))
    refine ⟨hrest.time.trans hone.time, hrest.ptr.trans hone.ptr, fun f hf => (hrest.rd f hf).trans (hone.rd f (hf m)),
      fun n hn => ?_, fun n hn => ?_⟩
    · rcases List.mem_cons.mp hn with rfl | hn
      · obtain ⟨hfbc, hfib⟩ := hrest.other n hm
        rw [hfbc]
        refine ⟨hone.clear.1, hone.clear.2, fun a ha han i hi => ?_⟩
        rw [hfib a ha (by rw [hchan, han]) i hi, hone.words a ha han i hi]
      · have hne : n ≠ m := fun h => hm (h ▸ hn)
        obtain ⟨hdir, hidx, hwords⟩ := hrest.section_ n hn
        refine ⟨hdir, hidx, fun a ha han i hi => ?_⟩
        rw [hwords a ha (by rw [hchan, han]) i hi, captureView_words_congr n (hone.fbc n hne) hone.time
          fun f hf => hone.rd f (fbReads_ne_illcnt hne f hf)]
    · obtain ⟨hne, hnl⟩ : n ≠ m ∧ n ∉ l := by simpa using hn
      obtain ⟨hfbc, hfib⟩ := hrest.other n hnl
      refine ⟨hfbc.trans (hone.fbc n hne), fun a ha han i hi => ?_⟩
      rw [hfib a ha (by rw [hchan, han]) i hi, hone.other a ha (by rw [han]; exact hne) i hi]

theorem CapturedAll.tripWord {l : List Nat} {s t : State} (h : CapturedAll l s t) : t.tripWord = s.tripWord := by
  have hlevel : t.rd Reg.OUT_TRIP_STAT_LEVEL = s.rd Reg.OUT_TRIP_STAT_LEVEL := h.rd _ fun m => by
    simp only [Reg.FBK_Cn_ILLCNT, Reg.OUT_TRIP_STAT_LEVEL]; omega
  have hlatch : t.rd Reg.OUT_TRIP_STAT_LATCH = s.rd Reg.OUT_TRIP_STAT_LATCH := h.rd _ fun m => by
    simp only [Reg.FBK_Cn_ILLCNT, Reg.OUT_TRIP_STAT_LATCH]; omega
  simp only [State.tripWord, State.bit, hlevel, hlatch]

theorem KeepsFib.comCapture {j : Nat} (s : State) (hj : ∀ a < 8, j < 32 * a + 8 ∨ 32 * a + 16 ≤ j) : KeepsFib j s (comCapture s) :=
  .each _ (fun n v => Machine.setFibs (32 * n + 8) (v.limitWords n) v) (fun n hn v => .setFibs _ _ v (by
    have := hj n (List.mem_range.mp hn)
    show j < 32 * n + 8 ∨ 32 * n + 8 + 8 ≤ j
    omega)) s

/-- What a CAPTURE entry does, as the statement writes it. -/
def captureAll (e : Nat) (gpi : Word) (u : State) : State :=
  ((u.each (bitsOf 8 (enFbMask e)) fun n => beforeRearm n (fbCapture n)).when (enPins e) fun v =>
    setFibs 384 [gpi.toNat, v.tripWord, v.ctTicks] { v with adc := { v.adc with gpi := gpi.toNat } }).when (enDcl e) comCapture

theorem captureAll_effect (e : Nat) (gpi : Word) (u : State) : let t := captureAll e gpi u
    t.anv.ptr = u.anv.ptr ∧
    (∀ n < 8, tb (enFbMask e) n = true → (t.fbc n).dirChg = false ∧ (t.fbc n).idxSeen = false ∧
      ∀ a < 8, u.axChan a = n → ∀ i < 8, SMap.get 0 t.anv.fib (32 * a + 16 + i) = ((captureView n u).fbWords n).getD i 0 % 2 ^ 32) ∧
    (enPins e = true → SMap.get 0 t.anv.fib 384 = gpi.toNat ∧ SMap.get 0 t.anv.fib 385 = u.tripWord % 2 ^ 32 ∧
      SMap.get 0 t.anv.fib 386 = u.ctTicks % 2 ^ 32) := by
  intro t
  have hall := capturedAll (bitsOf 8 (enFbMask e)) (List.nodup_range.filter _) u
  obtain ⟨v, hv⟩ : ∃ v, v = u.each (bitsOf 8 (enFbMask e)) fun n => beforeRearm n (fbCapture n) := ⟨_, rfl⟩
  rw [← hv] at hall
  obtain ⟨w, hw⟩ : ∃ w, w = v.when (enPins e) fun v =>
    setFibs 384 [gpi.toNat, v.tripWord, v.ctTicks] { v with adc := { v.adc with gpi := gpi.toNat } } := ⟨_, rfl⟩
  have ht : t = w.when (enDcl e) comCapture := by rw [hw, hv]; rfl
  have hpins : ∀ j, j < 384 → KeepsFib j v w := fun j hj => by
    rw [hw]
    unfold State.when
    split
    · have := KeepsFib.setFibs 384 [gpi.toNat, v.tripWord, v.ctTicks] v (.inl hj)
      exact ⟨this.fib, this.regs, this.ptr, this.time, this.fb⟩
    · exact .refl j v
  have hlimits : ∀ j, (∀ a < 8, j < 32 * a + 8 ∨ 32 * a + 16 ≤ j) → KeepsFib j w t := fun j hj => by
    rw [ht]
    unfold State.when
    split
    · exact .comCapture w hj
    · exact .refl j w
  have hkeeps := (hpins 16 (by decide)).trans (hlimits 16 (by omega))
  have hfbc : ∀ n, t.fbc n = v.fbc n := fun n => by rw [State.fbc, hkeeps.fb]; rfl
  refine ⟨hkeeps.ptr.trans hall.ptr, fun n hn hmask => ?_, fun hp => ?_⟩
  · obtain ⟨hdir, hidx, hwords⟩ := hall.section_ n (List.mem_filter.mpr ⟨List.mem_range.mpr hn, hmask⟩)
    rw [hfbc]
    refine ⟨hdir, hidx, fun a ha han i hi => ?_⟩
    rw [((hpins (32 * a + 16 + i) (by omega)).trans (hlimits _ (by omega))).fib]
    exact hwords a ha han i hi
  · have hct : v.ctTicks = u.ctTicks := by rw [State.ctTicks, State.ct, hall.time]; rfl
    have hword : ∀ i, i < 3 → SMap.get 0 t.anv.fib (384 + i) = [gpi.toNat, u.tripWord, u.ctTicks].getD i 0 % 2 ^ 32 := fun i hi => by
      rw [(hlimits (384 + i) (by omega)).fib, hw, State.when, if_pos hp, setFibs_get, if_pos (by simp; omega), hall.tripWord, hct,
        Nat.add_sub_cancel_left]
    exact ⟨(hword 0 (by decide)).trans (Nat.mod_eq_of_lt gpi.isLt), hword 1 (by decide), hword 2 (by decide)⟩

end Sys2Proof.Machine
end

section
/-! RUN, the other data entries, and O3 (R63, R65 to R67, R71, R93). -/
namespace Sys2Proof.Machine

/-! ### RUN -/

/-- What a RUN does with one engine: it waits for a copy queued into its data memory, or starts. -/
def runEngine (entry n : Nat) (v : State) : State :=
  if (v.anv.moveQ.any (·.writes n) && v.bit Reg.CEC_STAT_LOADED n && ! v.bit Reg.CEC_STAT_FENCED n) = true then
    ({ v with anv := { v.anv with runWait := v.anv.runWait ++ [(n, entry)] } } : State).put (Reg.CEC_En_FRAME_SKIP n) false
  else engStart n entry v

/-- What a RUN leaves of engine n of its mask, whose state before it is `s`. -/
def RunsEngine (entry n : Nat) (s t : State) : Prop :=
  if s.bit Reg.CEC_STAT_FENCED n = true ∨ s.bit Reg.CEC_STAT_LOADED n = false then
    t.bit Reg.CEC_STAT_DONE n = true ∧ t.bit Reg.CEC_FLAG_SKIP n = true ∧ t.e n = s.e n
  else t.on (Reg.CEC_En_FRAME_SKIP n) = false ∧
    if s.anv.moveQ.any (·.writes n) = true then (n, entry) ∈ t.anv.runWait ∧ t.e n = s.e n
    else t.bit Reg.CEC_STAT_BUSY n = true ∧ (t.e n).pc = entry ∧ (t.e n).data = (s.e n).data ∧
      (t.e n).acc0 = 0 ∧ (t.e n).acc1 = 0 ∧ (t.e n).acc2 = 0 ∧ (t.e n).acc3 = 0

/-- What the RUN of engine m keeps: the fences, the loaded engines, the queue of copies and the table, every start that waits, and of
another engine n its state and its flags. -/
structure KeepsRuns (n : Nat) (s t : State) : Prop where
  fenced : t.rd Reg.CEC_STAT_FENCED = s.rd Reg.CEC_STAT_FENCED
  loaded : t.rd Reg.CEC_STAT_LOADED = s.rd Reg.CEC_STAT_LOADED
  queue : t.anv.moveQ = s.anv.moveQ
  ptr : t.anv.ptr = s.anv.ptr
  waits : ∀ r ∈ s.anv.runWait, r ∈ t.anv.runWait
  done : t.bit Reg.CEC_STAT_DONE n = s.bit Reg.CEC_STAT_DONE n
  busy : t.bit Reg.CEC_STAT_BUSY n = s.bit Reg.CEC_STAT_BUSY n
  flag : t.bit Reg.CEC_FLAG_SKIP n = s.bit Reg.CEC_FLAG_SKIP n
  skip : t.on (Reg.CEC_En_FRAME_SKIP n) = s.on (Reg.CEC_En_FRAME_SKIP n)
  eng : t.e n = s.e n

theorem KeepsRuns.refl (n : Nat) (s : State) : KeepsRuns n s s := ⟨rfl, rfl, rfl, rfl, fun _ h => h, rfl, rfl, rfl, rfl, rfl⟩

theorem KeepsRuns.trans {n : Nat} {s t u : State} (h : KeepsRuns n s t) (g : KeepsRuns n t u) : KeepsRuns n s u :=
  ⟨g.fenced.trans h.fenced, g.loaded.trans h.loaded, g.queue.trans h.queue, g.ptr.trans h.ptr, fun r hr => g.waits r (h.waits r hr),
    g.done.trans h.done, g.busy.trans h.busy, g.flag.trans h.flag, g.skip.trans h.skip, g.eng.trans h.eng⟩

theorem skip_ne (m : Nat) : (Reg.CEC_En_FRAME_SKIP m).key ≠ Reg.CEC_STAT_FENCED.key ∧
    (Reg.CEC_En_FRAME_SKIP m).key ≠ Reg.CEC_STAT_LOADED.key ∧ (Reg.CEC_En_FRAME_SKIP m).key ≠ Reg.CEC_STAT_DONE.key ∧
    (Reg.CEC_En_FRAME_SKIP m).key ≠ Reg.CEC_STAT_BUSY.key ∧ (Reg.CEC_En_FRAME_SKIP m).key ≠ Reg.CEC_FLAG_SKIP.key := by
  simp only [Reg.CEC_En_FRAME_SKIP, Reg.CEC_STAT_FENCED, Reg.CEC_STAT_LOADED, Reg.CEC_STAT_DONE, Reg.CEC_STAT_BUSY, Reg.CEC_FLAG_SKIP]
  omega

theorem skip_ne_skip {n m : Nat} (h : m ≠ n) : (Reg.CEC_En_FRAME_SKIP m).key ≠ (Reg.CEC_En_FRAME_SKIP n).key := by
  simp only [Reg.CEC_En_FRAME_SKIP]; omega

/-- A write of the SKIP flag of engine m. -/
theorem KeepsRuns.putSkip {n m : Nat} (h : m ≠ n) (s : State) (b : Bool) : KeepsRuns n s (s.put (Reg.CEC_En_FRAME_SKIP m) b) := by
  obtain ⟨hfenced, hloaded, hdone, hbusy, hflag⟩ := skip_ne m
  exact ⟨s.rd_put_ne _ _ b hfenced, s.rd_put_ne _ _ b hloaded, rfl, rfl, fun _ h => h, s.bit_wr_ne _ _ _ n hdone,
    s.bit_wr_ne _ _ _ n hbusy, s.bit_wr_ne _ _ _ n hflag, s.on_put_ne _ _ b (skip_ne_skip h), rfl⟩

/-- The words whose bits a start of an engine writes. -/
def runFlds : List Fld := [Reg.CEC_STAT_DONE, Reg.CEC_FLAG_SKIP, Reg.CEC_STAT_BUSY]

theorem runFlds_wide : ∀ f ∈ runFlds, f.w = 8 := by decide

theorem runFlds_key : ∀ f ∈ runFlds, ∀ g ∈ runFlds, f.key = g.key → f = g := by decide

theorem runFlds_ne : ∀ f ∈ runFlds, f.key ≠ Reg.CEC_STAT_FENCED.key ∧ f.key ≠ Reg.CEC_STAT_LOADED.key := by decide

theorem skip_ne_runFlds (m : Nat) : ∀ f ∈ runFlds, (Reg.CEC_En_FRAME_SKIP m).key ≠ f.key := by
  obtain ⟨-, -, hdone, hbusy, hflag⟩ := skip_ne m
  simp only [runFlds, List.forall_mem_cons, List.not_mem_nil, false_implies, implies_true, and_true]
  exact ⟨hdone, hflag, hbusy⟩

/-- A write of the bit of engine m in one of these words. -/
theorem KeepsRuns.wrBit {n m : Nat} (h : m ≠ n) (hn : n < 8) (s : State) (f : Fld) (b : Bool) (hf : f ∈ runFlds) :
    KeepsRuns n s (s.wrBit f m b) := by
  have hbit : ∀ g ∈ runFlds, (s.wrBit f m b).bit g n = s.bit g n := fun g hg => by
    by_cases hkey : f.key = g.key
    · rw [State.bit_wrBit _ _ _ _ _ _ (runFlds_key f hf g hg hkey) (by rw [runFlds_wide g hg]; exact hn), if_neg h]
    · exact s.bit_wr_ne _ _ _ _ hkey
  obtain ⟨hfenced, hloaded⟩ := runFlds_ne f hf
  exact ⟨s.rd_wr_ne _ _ _ hfenced, s.rd_wr_ne _ _ _ hloaded, rfl, rfl, fun _ h => h, hbit _ (by decide), hbit _ (by decide),
    hbit _ (by decide), s.on_wr_ne _ _ _ (skip_ne_runFlds n f hf).symm, rfl⟩

theorem KeepsRuns.engStart {n m : Nat} (h : m ≠ n) (hn : n < 8) (entry : Nat) (s : State) : KeepsRuns n s (engStart m entry s) := by
  unfold Machine.engStart
  split
  · exact ((KeepsRuns.wrBit h hn s _ true (by decide)).trans (.wrBit h hn _ _ true (by decide))).trans (.putSkip h _ true)
  · refine (KeepsRuns.trans (t := s.setE m _) ?_ (.wrBit h hn _ _ true (by decide))).trans (.putSkip h _ false)
    exact { KeepsRuns.refl n s with eng := by rw [State.e_setE, if_neg h] }

theorem KeepsRuns.runEngine {n m : Nat} (h : m ≠ n) (hn : n < 8) (entry : Nat) (s : State) : KeepsRuns n s (runEngine entry m s) := by
  unfold Machine.runEngine
  split
  · refine KeepsRuns.trans (t := { s with anv := { s.anv with runWait := s.anv.runWait ++ [(m, entry)] } }) ?_ (.putSkip h _ false)
    exact { KeepsRuns.refl n s with waits := fun r hr => List.mem_append_left _ hr }
  · exact .engStart h hn entry s

/-! ### What the RUN of an engine leaves of that engine -/

theorem RunsEngine.engStart_idle (entry n : Nat) (s : State) (hn : n < 8)
    (h : s.bit Reg.CEC_STAT_FENCED n = true ∨ s.bit Reg.CEC_STAT_LOADED n = false) : RunsEngine entry n s (engStart n entry s) := by
  have hstart : engStart n entry s =
      ((s.wrBit Reg.CEC_STAT_DONE n true).wrBit Reg.CEC_FLAG_SKIP n true).put (Reg.CEC_En_FRAME_SKIP n) true := by
    unfold engStart
    rw [if_pos (by rcases h with h | h <;> simp [h])]
  rw [RunsEngine, if_pos h, hstart]
  refine ⟨?_, ?_, rfl⟩
  · rw [State.put, State.bit_wr_ne _ _ _ _ _ (skip_ne_runFlds n _ (by decide)), State.wrBit, State.bit_wr_ne _ _ _ _ _ (by decide)]
    exact (State.bit_wrBit s _ _ n n true rfl hn).trans (if_pos rfl)
  · rw [State.put, State.bit_wr_ne _ _ _ _ _ (skip_ne_runFlds n _ (by decide))]
    exact (State.bit_wrBit _ _ _ n n true rfl hn).trans (if_pos rfl)

theorem RunsEngine.engStart (entry n : Nat) (s : State) (hn : n < 8) (hq : s.anv.moveQ.any (·.writes n) = false)
    (h : ¬(s.bit Reg.CEC_STAT_FENCED n = true ∨ s.bit Reg.CEC_STAT_LOADED n = false)) : RunsEngine entry n s (engStart n entry s) := by
  obtain ⟨hfenced, hloaded⟩ : s.bit Reg.CEC_STAT_FENCED n = false ∧ s.bit Reg.CEC_STAT_LOADED n = true := by simpa using h
  obtain ⟨x, hx, hpc, hdata, h0, h1, h2, h3⟩ : ∃ x : EngSt, Machine.engStart n entry s =
      ((s.setE n x).wrBit Reg.CEC_STAT_BUSY n true).put (Reg.CEC_En_FRAME_SKIP n) false ∧
      x.pc = entry ∧ x.data = (s.e n).data ∧ x.acc0 = 0 ∧ x.acc1 = 0 ∧ x.acc2 = 0 ∧ x.acc3 = 0 := by
    unfold Machine.engStart
    rw [if_neg (by simp [hfenced, hloaded])]
    exact ⟨_, rfl, rfl, rfl, rfl, rfl, rfl, rfl⟩
  have he : (Machine.engStart n entry s).e n = x := by
    rw [hx]
    show (s.setE n x).e n = x
    rw [State.e_setE, if_pos rfl]
  rw [RunsEngine, if_neg h, if_neg (by simp [hq]), he]
  refine ⟨?_, ?_, hpc, hdata, h0, h1, h2, h3⟩
  · rw [hx]; exact State.on_put_self _ _ false rfl
  · rw [hx, State.put, State.bit_wr_ne _ _ _ _ _ (skip_ne_runFlds n _ (by decide))]
    exact (State.bit_wrBit _ _ _ n n true rfl hn).trans (if_pos rfl)

theorem runEngine_runs (entry n : Nat) (s : State) (hn : n < 8) : RunsEngine entry n s (runEngine entry n s) := by
  unfold runEngine
  split
  · next hwait =>
    obtain ⟨⟨hq, hloaded⟩, hfenced⟩ : (s.anv.moveQ.any (·.writes n) = true ∧ s.bit Reg.CEC_STAT_LOADED n = true) ∧
        s.bit Reg.CEC_STAT_FENCED n = false := by simpa using hwait
    rw [RunsEngine, if_neg (by simp [hloaded, hfenced]), if_pos hq]
    exact ⟨State.on_put_self _ _ false rfl, List.mem_append_right _ (List.mem_singleton_self _), rfl⟩
  · next hgo =>
    by_cases hidle : s.bit Reg.CEC_STAT_FENCED n = true ∨ s.bit Reg.CEC_STAT_LOADED n = false
    · exact .engStart_idle entry n s hn hidle
    · refine .engStart entry n s hn ?_ hidle
      obtain ⟨hfenced, hloaded⟩ : s.bit Reg.CEC_STAT_FENCED n = false ∧ s.bit Reg.CEC_STAT_LOADED n = true := by simpa using hidle
      simpa [hfenced, hloaded] using hgo

/-- What stands of engine n before and after stands through what keeps it. -/
theorem RunsEngine.congr {entry n : Nat} {s s' t : State} (h : KeepsRuns n s s') (g : RunsEngine entry n s' t) :
    RunsEngine entry n s t := by
  have hfenced : s'.bit Reg.CEC_STAT_FENCED n = s.bit Reg.CEC_STAT_FENCED n := congrArg (tb · n) h.fenced
  have hloaded : s'.bit Reg.CEC_STAT_LOADED n = s.bit Reg.CEC_STAT_LOADED n := congrArg (tb · n) h.loaded
  rw [RunsEngine, hfenced, hloaded, h.queue, h.eng] at g
  exact g

theorem RunsEngine.keeps {entry n : Nat} {s t t' : State} (g : RunsEngine entry n s t) (h : KeepsRuns n t t') :
    RunsEngine entry n s t' := by
  unfold RunsEngine at g ⊢
  rw [h.done, h.flag, h.skip, h.busy, h.eng]
  split at g
  · next hidle => rw [if_pos hidle]; exact g
  · next hidle =>
    rw [if_neg hidle]
    refine ⟨g.1, ?_⟩
    obtain ⟨-, g⟩ := g
    split at g
    · next hq => rw [if_pos hq]; exact ⟨h.waits _ g.1, g.2⟩
    · next hq => rw [if_neg hq]; exact g

theorem each_runEngine_keeps (entry n : Nat) (hn : n < 8) (l : List Nat) (h : n ∉ l) (s : State) :
    KeepsRuns n s (s.each l (runEngine entry)) := by
  induction l generalizing s with
  | nil => exact .refl n s
  | cons m l ih =>
    obtain ⟨hm, hl⟩ : n ≠ m ∧ n ∉ l := by simpa using h
    exact (KeepsRuns.runEngine hm.symm hn entry s).trans (ih hl _)

theorem each_runEngine (entry : Nat) (l : List Nat) (hl : l.Nodup) (s : State) : ∀ n ∈ l, n < 8 →
    RunsEngine entry n s (s.each l (runEngine entry)) := by
  induction l generalizing s with
  | nil => simp
  | cons m l ih =>
    intro n hn h8
    obtain ⟨hm, hnodup⟩ := List.nodup_cons.mp hl
    rcases List.mem_cons.mp hn with rfl | hn
    · exact (runEngine_runs entry n s h8).keeps (each_runEngine_keeps entry n h8 l hm _)
    · have hne : m ≠ n := fun h => hm (h ▸ hn)
      exact .congr (.runEngine hne h8 entry s) (ih hnodup _ n hn h8)

theorem each_runEngine_ptr (entry : Nat) (l : List Nat) (s : State) : (s.each l (runEngine entry)).anv.ptr = s.anv.ptr := by
  have hstart : ∀ m (s : State), (engStart m entry s).anv.ptr = s.anv.ptr := fun m s => by
    obtain ⟨r, x, h⟩ := engStart_frame m entry s
    rw [h]
  induction l generalizing s with
  | nil => rfl
  | cons m l ih =>
    refine (ih (runEngine entry m s)).trans ?_
    unfold runEngine
    split
    · rfl
    · exact hstart m s

/-- Registers and engines that only a fault may change keep what a RUN leaves. -/
theorem RunsEngine.onlyFaults {entry n : Nat} {s t t' : State} (g : RunsEngine entry n s t) (h : OnlyFaults t t') (hn : n < 8) :
    RunsEngine entry n s t' := by
  have hskip : ∀ k : Fin 8, Fld.ofFaults (Reg.CEC_En_FRAME_SKIP k) = false := by decide
  exact g.keeps ⟨h.rd _ (by decide), h.rd _ (by decide), congrArg (·.moveQ) h.anv, congrArg (·.ptr) h.anv,
    fun r hr => by rw [h.anv]; exact hr, h.bit _ _ (by decide), h.bit _ _ (by decide), h.bit _ _ (by decide), h.on _ (hskip ⟨n, hn⟩),
    by rw [State.e, h.eng]; rfl⟩

end Sys2Proof.Machine
end

section
/-! The data entries of a frame program, each from its issue clock, and O3. -/
namespace Sys2Proof.Machine

theorem awaitDone_iff (u : State) (e : Nat) : u.awaitDone e = true ↔
    ((List.range 8).all fun n => ! tb (enEngMask e) n || u.bit Reg.CEC_STAT_DONE n) = true ∧ (enMovq e = false ∨ u.anv.moveQ = []) := by
  simp [State.awaitDone, bitsOf, List.all_filter]

/-- The copy of the payload `ws` into `buf` begins (R64, R67). -/
def exchangeRx (buf : Nat) (ws : List Nat) (u : State) : State :=
  let x : RxCopy := { ends := u.time.clk + exchangeClk ws.length, dst := buf, words := ws }
  { u with anv := { u.anv with rxq := u.anv.rxq ++ [x] } }

section
variable {s : State} {e : Nat} {ecc : Ecc} (hecc : ecc ≠ .uncorrectable)
include hecc

theorem anvSample_completes (hat : s.atEntry opSAMPLE e) : let u := s.issued e ecc
    Completes (.anvSample ecc) s fun t =>
    OnlyFaults (nextPtr (sample (enGroup e) (enKind e) u)) t ∧ t.anv.ptr = u.anv.ptr + 1 ∧
    tb t.adc.gdefer (enGroup e) = false ∧
    ∀ k < 8, u.on (Reg.ADC_Gg_Sk_EN (enGroup e) k) = true →
      enKind e ≠ (if u.on (Reg.ADC_Gg_Sk_SD (enGroup e) k) = true then 0 else 1) →
      SMap.get 0 t.anv.fib (256 + 8 * enGroup e + k) = u.slotValue (enGroup e) k % 2 ^ 32 := by
  intro u
  have hexec : exec (.anvSample ecc) s = done (nextPtr (sample (enGroup e) (enKind e) u)) :=
    issues_atEntry hecc hat (fun _ => true) rfl
      (fun e s => nextPtr (sample (enGroup e) (enKind e) s)) (.anvSample ecc) rfl
  have hg : enGroup e < 16 := Nat.mod_lt _ (by decide)
  obtain ⟨hptr, hdefer, hwords⟩ := sample_effect (enGroup e) (enKind e) u hg
  refine completes_of_done hexec fun t ht => ⟨ht.1, ?_, ?_, fun k hk hen hkind => ?_⟩
  · exact (congrArg (·.ptr) ht.1.anv).trans (congrArg (· + 1) hptr)
  · rw [ht.1.adc]; exact hdefer
  · rw [ht.1.anv]; exact hwords k hk hen hkind

theorem anvCapture_completes (gpi : Word) (hat : s.atEntry opCAPTURE e) : let u := s.issued e ecc
    Completes (.anvCapture ecc gpi) s fun t =>
    OnlyFaults (nextPtr (captureAll e gpi u)) t ∧ t.anv.ptr = u.anv.ptr + 1 ∧
    (∀ n < 8, tb (enFbMask e) n = true → (t.fbc n).dirChg = false ∧ (t.fbc n).idxSeen = false ∧
      ∀ a < 8, u.axChan a = n → ∀ i < 8,
        SMap.get 0 t.anv.fib (32 * a + 16 + i) = ((captureView n u).fbWords n).getD i 0 % 2 ^ 32) ∧
    (enPins e = true → SMap.get 0 t.anv.fib 384 = gpi.toNat ∧ SMap.get 0 t.anv.fib 385 = u.tripWord % 2 ^ 32 ∧
      SMap.get 0 t.anv.fib 386 = u.ctTicks % 2 ^ 32) := by
  intro u
  have hexec : exec (.anvCapture ecc gpi) s = done (nextPtr (captureAll e gpi u)) :=
    issues_atEntry hecc hat (fun _ => true) rfl
      (fun e s => nextPtr (captureAll e gpi s)) (.anvCapture ecc gpi) rfl
  obtain ⟨hptr, hchans, hpins⟩ := captureAll_effect e gpi u
  refine completes_of_done hexec fun t ht => ⟨ht.1, (congrArg (·.ptr) ht.1.anv).trans (congrArg (· + 1) hptr), ?_, ?_⟩
  · have hfbc : ∀ n, t.fbc n = (captureAll e gpi u).fbc n := fun n => by rw [State.fbc, ht.1.fb]; rfl
    intro n hn hmask
    rw [hfbc, ht.1.anv]
    exact hchans n hn hmask
  · rw [ht.1.anv]
    exact hpins

theorem anvMove_completes (hat : s.atEntry opMOVE e) (hroom : (anvTo (s.issueAt e) s).anv.moveQ.length < 16) :
    let u := s.issued e ecc
    Completes (.anvMove ecc) s (OnlyFaults (nextPtr { u with anv := { u.anv with moveQ :=
      u.anv.moveQ ++ [{ src := enSrc e, dst := enDst e, len := enMoveLen e, issued := u.time.clk }] } })) := by
  intro u
  have hexec : exec (.anvMove ecc) s = done (nextPtr (enqueueMove (enSrc e) (enDst e) (enMoveLen e) none u)) := by
    show execMove ecc s = _
    unfold execMove
    rw [if_neg (by simp [hat.1]), hat.2.1]
    refine (if_neg (by simp [State.queueRoom, hroom])).trans ?_
    exact issueIf_atEntry hecc hat _ rfl _
  exact completes_of_done hexec fun t ht => ht.1

theorem anvMove_waits (hat : s.atEntry opMOVE e) (hfull : 16 ≤ (anvTo (s.issueAt e) s).anv.moveQ.length) :
    Completes (.anvMove ecc) s fun t => t = s := by
  have hexec : exec (.anvMove ecc) s = .next s := by
    show execMove ecc s = _
    unfold execMove
    rw [if_neg (by simp [hat.1]), hat.2.1]
    exact if_pos (by simp [State.queueRoom, hecc, hfull])
  exact completes_of_next hexec rfl

theorem anvRun_completes (hat : s.atEntry opRUN e) : let u := s.issued e ecc
    Completes (.anvRun ecc) s fun t => OnlyFaults (nextPtr (u.each (bitsOf 8 (enEngMask e)) (runEngine (enEntry e)))) t ∧
      t.anv.ptr = u.anv.ptr + 1 ∧ ∀ n < 8, tb (enEngMask e) n = true → RunsEngine (enEntry e) n u t := by
  intro u
  have hexec : exec (.anvRun ecc) s = done (nextPtr (u.each (bitsOf 8 (enEngMask e)) (runEngine (enEntry e)))) :=
    issues_atEntry hecc hat (fun _ => true) rfl
      (fun e s => nextPtr (s.each (bitsOf 8 (enEngMask e)) (runEngine (enEntry e)))) (.anvRun ecc) rfl
  refine completes_of_done hexec fun t ht => ⟨ht.1, ?_, fun n hn hmask => ?_⟩
  · exact (congrArg (·.ptr) ht.1.anv).trans (congrArg (· + 1) (each_runEngine_ptr _ _ u))
  · have hmem : n ∈ bitsOf 8 (enEngMask e) := List.mem_filter.mpr ⟨List.mem_range.mpr hn, hmask⟩
    have hruns : RunsEngine (enEntry e) n u (nextPtr (u.each (bitsOf 8 (enEngMask e)) (runEngine (enEntry e)))) :=
      each_runEngine (enEntry e) _ (List.nodup_range.filter _) u n hmem hn
    exact hruns.onlyFaults ht.1 hn

theorem anvAwait_completes (hat : s.atEntry opAWAIT e) : let u := s.issued e ecc
    Completes (.anvAwait ecc) s (OnlyFaults (
      if ((List.range 8).all fun n => ! tb (enEngMask e) n || u.bit Reg.CEC_STAT_DONE n) = true ∧ (enMovq e = false ∨ u.anv.moveQ = []) then
        nextPtr u
      else { u with anv := { u.anv with hold := true, freeClk := u.time.ft + 1 } })) := by
  intro u
  have hexec : exec (.anvAwait ecc) s =
      done (if u.awaitDone e = true then nextPtr u else { u with anv := { u.anv with hold := true, freeClk := u.time.ft + 1 } }) :=
    issues_atEntry hecc hat (fun _ => true) rfl
      (fun e s => if s.awaitDone e = true then nextPtr s else setAnv { s.anv with hold := true, freeClk := s.time.ft + 1 } s) (.anvAwait ecc) rfl
  refine completes_of_done hexec fun t ht => ?_
  have := ht.1
  by_cases hdone : u.awaitDone e = true
  · rw [if_pos hdone] at this
    rwa [if_pos ((awaitDone_iff u e).mp hdone)]
  · rw [if_neg hdone] at this
    rwa [if_neg fun h => hdone ((awaitDone_iff u e).mpr h)]

theorem anvExchangeTx_completes (src : WordEcc) (hat : s.atEntry opEXCHANGE e) (hnet : enNet e = false) (hdir : enDir e = false) :
    let u := s.issued e ecc
    Completes (.anvExchangeTx ecc src) s (OnlyFaults (nextPtr
      (fillSlot (enSlot e) (advance (4 + (enXLen e + 3) / 4) u).ctTicks (getWords u.mem (enBuf e) (enXLen e)) u))) := by
  intro u
  have hexec : exec (.anvExchangeTx ecc src) s = done (nextPtr (sramEccs 7 src (enBuf e) (enXLen e)
      (fillSlot (enSlot e) (advance (exchangeClk (enXLen e)) u).ctTicks (getWords u.mem (enBuf e) (enXLen e)) u))) :=
    issues_atEntry hecc hat (fun e => ! enNet e && ! enDir e) (by simp [hnet, hdir])
      (fun e s => nextPtr (sramEccs 7 src (enBuf e) (enXLen e)
        (fillSlot (enSlot e) (advance (exchangeClk (enXLen e)) s).ctTicks (getWords s.mem (enBuf e) (enXLen e)) s))) (.anvExchangeTx ecc src) rfl
  exact completes_of_done hexec fun t ht => (OnlyFaults.sramEccs 7 src _ _ _).nextPtr.trans ht.1

theorem anvExchangeRx_completes (hat : s.atEntry opEXCHANGE e) (hnet : enNet e = false) (hdir : enDir e = true) :
    let u := s.issued e ecc
    Completes (.anvExchangeRx ecc) s (OnlyFaults (nextPtr (match u.slotPayload (enSlot e) with
      | none => u
      | some ws => { u with anv := { u.anv with rxq := u.anv.rxq ++
          [{ ends := u.time.clk + 4 + ceilDiv (min (enXLen e) ws.length) 4, dst := enBuf e, words := ws.take (enXLen e) }] } }))) := by
  intro u
  have hexec : exec (.anvExchangeRx ecc) s = done (match u.slotPayload (enSlot e) with
      | none => nextPtr u
      | some ws => nextPtr (exchangeRx (enBuf e) (ws.take (enXLen e)) u)) :=
    issues_atEntry hecc hat (fun e => ! enNet e && enDir e) (by simp [hnet, hdir]) (fun e s => match s.slotPayload (enSlot e) with
      | none => nextPtr s
      | some ws => nextPtr (exchangeRx (enBuf e) (ws.take (enXLen e)) s)) (.anvExchangeRx ecc) rfl
  refine completes_of_done hexec fun t ht => ?_
  have := ht.1
  cases hslot : u.slotPayload (enSlot e) with
  | none => rw [hslot] at this; exact this
  | some ws =>
    rw [hslot] at this
    simp only [exchangeRx, exchangeClk, List.length_take, ← Nat.add_assoc] at this
    exact this

theorem anvExchangeSeam_completes (src : WordEcc) (hat : s.atEntry opEXCHANGE e) (hnet : enNet e = true) :
    let u := s.issued e ecc
    Completes (.anvExchangeSeam ecc src) s (OnlyFaults (nextPtr
      (if u.iHold = true then { u with seam := { u.seam with
          txCn := u.cn, txBuf := getWords u.mem (u.rd Reg.SEAM_TX * 1024) (u.copyBytes / 4)
          txEnd := u.time.clk + 4 + ceilDiv (u.copyBytes / 4) 4, snapNow := some false } }
       else u))) := by
  intro u
  have hexec : exec (.anvExchangeSeam ecc src) s =
      done (nextPtr ((seamSnapshot u).when u.iHold (sramEccs 7 src (u.rd Reg.SEAM_TX * 1024) (u.copyBytes / 4)))) :=
    issues_atEntry hecc hat enNet hnet
      (fun e s => nextPtr ((seamSnapshot s).when s.iHold (sramEccs 7 src (s.rd Reg.SEAM_TX * 1024) (s.copyBytes / 4)))) (.anvExchangeSeam ecc src) rfl
  have hsnap : seamSnapshot u = if u.iHold = true then { u with seam := { u.seam with
          txCn := u.cn, txBuf := getWords u.mem (u.rd Reg.SEAM_TX * 1024) (u.copyBytes / 4)
          txEnd := u.time.clk + 4 + ceilDiv (u.copyBytes / 4) 4, snapNow := some false } } else u := by
    simp only [seamSnapshot, exchangeClk, ← Nat.add_assoc]
    rfl
  rw [← hsnap]
  exact completes_of_done hexec fun t ht => (OnlyFaults.when _ _ (.refl _) (.sramEccs 7 src _ _ _)).nextPtr.trans ht.1

theorem anvRecord_completes (hat : s.atEntry opRECORD e) : let u := s.issued e ecc
    Completes (.anvRecord ecc) s (OnlyFaults (nextPtr { u with anv := { u.anv with
      snapshot := u.anv.snapshot ++ (List.range (enRecLen e)).map (fun i => SMap.get 0 u.anv.fib ((enSrc e - fibBase) / 4 + i)) } })) := by
  intro u
  have hexec : exec (.anvRecord ecc) s = done (nextPtr { u with anv := { u.anv with
      snapshot := u.anv.snapshot ++ (List.range (enRecLen e)).map (fun i => SMap.get 0 u.anv.fib ((enSrc e - fibBase) / 4 + i)) } }) :=
    issues_atEntry hecc hat (fun _ => true) rfl
      (fun e s => nextPtr { s with anv := { s.anv with snapshot :=
        s.anv.snapshot ++ (List.range (enRecLen e)).map (fun i => SMap.get 0 s.anv.fib ((enSrc e - fibBase) / 4 + i)) } }) (.anvRecord ecc) rfl
  exact completes_of_done hexec fun t ht => ht.1

end

/-- Settles O3: an entry that issues with a correct or corrected word answers what its opcode does on its issue clock, and the words,
engines and queues it names are those of the statement. -/
theorem anvilDataEntries : Obligations.AnvilDataEntries := by
  intro e ecc s hecc u
  exact ⟨anvSample_completes hecc, anvCapture_completes hecc, anvMove_completes hecc, anvMove_waits hecc, anvRun_completes hecc,
    anvAwait_completes hecc, anvExchangeTx_completes hecc, anvExchangeRx_completes hecc, anvExchangeSeam_completes hecc,
    anvRecord_completes hecc⟩

end Sys2Proof.Machine
end

section
/-! What the raising of faults leaves of the rings, and which consequences it puts on the list (R357, R367, R368, R382, R410, R502):
only the event ring is written, and only while device events are enabled; a consequence is a missed interrupt, a bus error, a lost event
or a trigger of the Almanac. -/
namespace Sys2Proof.Machine

/-- The faults that raising, an interrupt event or the writing of a ring may put on the list of consequences. -/
def consequenceCodes : List Nat := [Fc.IRQ_MISSED, Fc.BUS_ERROR, Fc.EVENT_DROP, Fc.ALM_TRIGGERED, Fc.ALM_TRIG_MISSED]

/-- The fields of ring r that the device writes as it puts descriptors. -/
def ringFlds (r : Nat) : List Fld :=
  [Reg.HIF_Rr_IDX_PI r, Reg.HIF_Rr_STAT_COUNT r, Reg.HIF_Rr_STAT_PHASE r, Reg.HIF_Rr_IRQ_ARM r]

theorem ringFlds_block (r : Nat) (hr : r < 16) : ∀ f ∈ ringFlds r, f.key / 0x80000 = 0x400C ∧ Fld.ofFaults f = true ∧
    f.key ≠ Reg.HIF_DROP_EVENT.key := by
  have : ∀ r : Fin 16, ∀ f ∈ ringFlds r, f.key / 0x80000 = 0x400C ∧ Fld.ofFaults f = true ∧ f.key ≠ Reg.HIF_DROP_EVENT.key := by
    decide +kernel
  exact this ⟨r, hr⟩

theorem ringFlds_mod (r : Nat) : ∀ f ∈ ringFlds r, f.key % 512 ≠ 9 := by
  simp only [ringFlds, List.forall_mem_cons, List.not_mem_nil, false_implies, implies_true, and_true, Reg.HIF_Rr_IDX_PI,
    Reg.HIF_Rr_STAT_COUNT, Reg.HIF_Rr_STAT_PHASE, Reg.HIF_Rr_IRQ_ARM]
  omega

theorem ringFlds_ne {r q : Nat} (h : q ≠ r) : ∀ f ∈ ringFlds q, ∀ g ∈ ringFlds r, g.key ≠ f.key := by
  simp only [ringFlds, List.forall_mem_cons, List.not_mem_nil, false_implies, implies_true, and_true, Reg.HIF_Rr_IDX_PI,
    Reg.HIF_Rr_STAT_COUNT, Reg.HIF_Rr_STAT_PHASE, Reg.HIF_Rr_IRQ_ARM]
  omega

/-- The name of the completion ring of a ring of any number, whose field no raise writes: it stands at bit 9 of a block of 64 bytes. -/
theorem cring_ne {f : Fld} (h : f.key % 512 ≠ 9) (r : Nat) : f.key ≠ (Reg.HIF_Rr_CFG_CRING r).key := by
  simp only [Reg.HIF_Rr_CFG_CRING]; omega

/-- A consequence joins the list, and no other fault does. -/
def AddsConsequences (s t : State) : Prop := ∀ x ∈ t.fcu.todo, x ∈ s.fcu.todo ∨ x.code ∈ consequenceCodes

theorem AddsConsequences.refl (s : State) : AddsConsequences s s := fun _ h => .inl h

theorem AddsConsequences.trans {s t u : State} (h : AddsConsequences s t) (g : AddsConsequences t u) : AddsConsequences s u :=
  fun x hx => (g x hx).elim (h x) .inr

theorem AddsConsequences.same {s t : State} (h : t.fcu.todo = s.fcu.todo) : AddsConsequences s t := fun _ hx => .inl (h ▸ hx)

theorem AddsConsequences.later (s : State) (x : Raise) (h : x.code ∈ consequenceCodes) : AddsConsequences s (s.later x) := fun y hy =>
  (List.mem_append.mp hy).imp id fun hy => by rw [List.mem_singleton.mp hy]; exact h

/-! ### The writing of one ring -/

/-- `t` is `s` after writes of ring r: its own fields, memory, pending bits and the list of consequences. -/
structure WritesRing (r : Nat) (s t : State) : Prop where
  todo : AddsConsequences s t
  ring : ∀ q < 16, q ≠ r → ∀ f ∈ ringFlds q, t.rd f = s.rd f
  cring : ∀ q, t.rd (Reg.HIF_Rr_CFG_CRING q) = s.rd (Reg.HIF_Rr_CFG_CRING q)
  rd : ∀ f, Fld.ofFaults f = false → t.rd f = s.rd f
  frame : t = { s with regs := t.regs, hif := t.hif, mem := t.mem, fcu := { s.fcu with todo := t.fcu.todo } }
  pend : ∀ k < 8, ∀ n < 32, s.bit (Reg.INTC_PENDk k) n = true → t.bit (Reg.INTC_PENDk k) n = true

theorem WritesRing.refl (r : Nat) (s : State) : WritesRing r s s := ⟨.refl s, fun _ _ _ _ _ => rfl, fun _ => rfl, fun _ _ => rfl, rfl, fun _ _ _ _ h => h⟩

theorem WritesRing.trans {r : Nat} {s t u : State} (h : WritesRing r s t) (g : WritesRing r t u) : WritesRing r s u where
  todo := h.todo.trans g.todo
  ring q hq hne f hf := (g.ring q hq hne f hf).trans (h.ring q hq hne f hf)
  cring q := (g.cring q).trans (h.cring q)
  rd f hf := (g.rd f hf).trans (h.rd f hf)
  frame := by rw [g.frame, h.frame]
  pend k hk n hn hp := g.pend k hk n hn (h.pend k hk n hn hp)

theorem WritesRing.aside (r : Nat) (s : State) (h : HifSt) (m : List Host.Cell) : WritesRing r s { s with hif := h, mem := m } :=
  ⟨.refl s, fun _ _ _ _ _ => rfl, fun _ => rfl, fun _ _ => rfl, rfl, fun _ _ _ _ h => h⟩

theorem WritesRing.later (r : Nat) (s : State) (x : Raise) (h : x.code ∈ consequenceCodes) : WritesRing r s (s.later x) :=
  ⟨.later s x h, fun _ _ _ _ _ => rfl, fun _ => rfl, fun _ _ => rfl, rfl, fun _ _ _ _ h => h⟩

theorem WritesRing.when {r : Nat} {s t : State} (c : Bool) (f : State → State) (h : WritesRing r s t) (g : WritesRing r t (f t)) :
    WritesRing r s (t.when c f) := by
  unfold State.when; split
  · exact h.trans g
  · exact h

theorem intc_ne_ring (k q : Nat) (hk : k < 8) (hq : q < 16) : ∀ g ∈ ringFlds q,
    (Reg.INTC_PENDk k).key ≠ g.key ∧ (Reg.INTC_MISSk k).key ≠ g.key := by
  intro g hg
  have hblock := (ringFlds_block q hq g hg).1
  have hintc : ∀ k : Fin 8, (Reg.INTC_PENDk k).key / 0x80000 = 0x400E ∧ (Reg.INTC_MISSk k).key / 0x80000 = 0x400E := by decide
  obtain ⟨hpend, hmiss⟩ := hintc ⟨k, hk⟩
  constructor
  · intro h
    rw [h, hblock] at hpend
    cases hpend
  · intro h
    rw [h, hblock] at hmiss
    cases hmiss

theorem intc_mod (k : Nat) : (Reg.INTC_PENDk k).key % 512 ≠ 9 ∧ (Reg.INTC_MISSk k).key % 512 ≠ 9 := by
  simp only [Reg.INTC_PENDk, Reg.INTC_MISSk]; omega

/-- A write of one of its own fields. -/
theorem WritesRing.own {r : Nat} (hr : r < 16) (s : State) (f : Fld) (v : Nat) (hf : f ∈ ringFlds r) : WritesRing r s (s.wr f v) where
  todo := .refl s
  ring q hq hne g hg := s.rd_wr_ne _ _ _ (ringFlds_ne hne g hg f hf)
  cring q := s.rd_wr_ne _ _ _ (cring_ne (ringFlds_mod r f hf) q)
  rd g hg := s.rd_wr_ne _ _ _ fun e => by
    have hfaults := (ringFlds_block r hr f hf).2.1
    rw [Fld.ofFaults, e] at hfaults; rw [Fld.ofFaults, hfaults] at hg; cases hg
  frame := rfl
  pend k hk n _ hp := by rw [s.bit_wr_ne _ _ _ _ (intc_ne_ring k r hk hr f hf).1.symm]; exact hp

/-- An interrupt event writes no ring at all: `r` may be any number. -/
theorem WritesRing.irq (r src : Nat) (h : src < 256) (s : State) : WritesRing r s (irq src s) := by
  have hk : src / 32 < 8 := by omega
  obtain ⟨hpend, hmiss⟩ := intc_mod (src / 32)
  have hof := OnlyFaults.irq s src h
  refine ⟨?_, fun q hq _ g hg => ?_, fun q => ?_, hof.rd, ?_, fun k hk n hn hp => hof.pend k n hp hn hk⟩ <;>
    unfold Machine.irq <;> split
  · exact .later _ _ (by decide)
  · exact .refl s
  · exact State.rd_wr_ne _ _ _ _ (intc_ne_ring _ q hk hq g hg).2
  · exact State.rd_wr_ne _ _ _ _ (intc_ne_ring _ q hk hq g hg).1
  · exact State.rd_wr_ne _ _ _ _ (cring_ne hmiss q)
  · exact State.rd_wr_ne _ _ _ _ (cring_ne hpend q)
  · rfl
  · rfl

theorem WritesRing.dmaWrite (r : Nat) (s : State) (loc a : Nat) (ws : List Nat) : WritesRing r s (s.dmaWrite loc a ws) := by
  unfold State.dmaWrite; (repeat' split)
  · exact .aside r s _ s.mem
  · exact .aside r s s.hif _
  · exact .later r s _ (show Fc.BUS_ERROR ∈ consequenceCodes by decide)

theorem WritesRing.ringPutRaw {r : Nat} (hr : r < 16) (ws : List Nat) (s : State) : WritesRing r s (ringPutRaw r ws s) := by
  have hput := fun v w => ((WritesRing.dmaWrite r s (s.rd (Reg.HIF_Rr_CFG_LOC r)) (s.ringBase r + 32 * s.rd (Reg.HIF_Rr_IDX_PI r))
    (padTo 8 ws)).trans (.own hr _ (Reg.HIF_Rr_IDX_PI r) v (by simp [ringFlds]))).trans
    (.own hr _ (Reg.HIF_Rr_STAT_COUNT r) w (by simp [ringFlds]))
  unfold Machine.ringPutRaw; dsimp only; split
  · exact (hput _ _).trans (.own hr _ (Reg.HIF_Rr_STAT_PHASE r) _ (by simp [ringFlds]))
  · exact hput _ _

theorem WritesRing.ringPuts {r : Nat} (hr : r < 16) (ds : List (List Nat)) (s : State) : WritesRing r s (ringPuts r ds s) := by
  induction ds generalizing s with
  | nil => exact .refl r s
  | cons d ds ih => exact (WritesRing.ringPutRaw hr _ s).trans (ih _)

theorem WritesRing.msix (r vec : Nat) (s : State) : WritesRing r s (msix vec s) := by
  unfold Machine.msix; dsimp only; split
  · exact .aside r s _ s.mem
  · exact .dmaWrite r s _ _ _

theorem WritesRing.ringNotify {r : Nat} (hr : r < 16) (own : Nat) (s : State) : WritesRing r s (ringNotify r own s) := by
  have hindex := WritesRing.dmaWrite r s (s.rd (Reg.HIF_Rr_CFG_LOC r)) (s.ringIdxA r) [own, s.fn]
  unfold Machine.ringNotify; dsimp only; split
  · refine WritesRing.when _ _ (WritesRing.trans ?_ (.aside r _ _ (State.mem _))) (.msix r _ _)
    exact (hindex.trans (.own hr _ (Reg.HIF_Rr_IRQ_ARM r) _ (by simp [ringFlds]))).trans (.irq r _ (by omega) _)
  · exact hindex

theorem WritesRing.ringWrite {r : Nat} (hr : r < 16) (ds : List (List Nat)) (s : State) : WritesRing r s (ringWrite r ds s) :=
  (WritesRing.ringPuts hr ds s).trans (.ringNotify hr _ _)

/-! ### Raising a fault -/

/-- `t` is `s` after raises: consequences join the list, and a ring that is not an event ring, or any ring while device events are off,
stands as it was. -/
structure KeepsRings (s t : State) : Prop where
  todo : AddsConsequences s t
  ring : ∀ r < 16, (s.rd (Reg.HIF_Rr_CFG_KIND r) ≠ 2 ∨ s.on Reg.HIF_CFG_EVTEN = false) → ∀ f ∈ ringFlds r, t.rd f = s.rd f
  cring : ∀ r, t.rd (Reg.HIF_Rr_CFG_CRING r) = s.rd (Reg.HIF_Rr_CFG_CRING r)
  kind : ∀ r < 16, t.rd (Reg.HIF_Rr_CFG_KIND r) = s.rd (Reg.HIF_Rr_CFG_KIND r)
  evten : t.on Reg.HIF_CFG_EVTEN = s.on Reg.HIF_CFG_EVTEN

theorem KeepsRings.refl (s : State) : KeepsRings s s := ⟨.refl s, fun _ _ _ _ _ => rfl, fun _ => rfl, fun _ _ => rfl, rfl⟩

theorem KeepsRings.trans {s t u : State} (h : KeepsRings s t) (g : KeepsRings t u) : KeepsRings s u where
  todo := h.todo.trans g.todo
  ring r hr hk f hf := (g.ring r hr (by rw [h.kind r hr, h.evten]; exact hk) f hf).trans (h.ring r hr hk f hf)
  cring r := (g.cring r).trans (h.cring r)
  kind r hr := (g.kind r hr).trans (h.kind r hr)
  evten := g.evten.trans h.evten

theorem KeepsRings.when {s t : State} (c : Bool) (f : State → State) (h : KeepsRings s t) (g : KeepsRings t (f t)) :
    KeepsRings s (t.when c f) := by
  unfold State.when; split
  · exact h.trans g
  · exact h

theorem KeepsRings.each (l : List Nat) (f : Nat → State → State) (h : ∀ i s, KeepsRings s (f i s)) (s : State) :
    KeepsRings s (s.each l f) := by
  unfold State.each
  induction l generalizing s with
  | nil => exact .refl s
  | cons i l ih => exact (h i s).trans (ih _)

/-- A change of neither the registers nor the list. -/
theorem KeepsRings.aside {s t : State} (hregs : t.regs = s.regs) (htodo : t.fcu.todo = s.fcu.todo) : KeepsRings s t :=
  have hrd := State.rd_congr hregs
  ⟨.same htodo, fun _ _ _ f _ => hrd f, fun _ => hrd _, fun _ _ => hrd _, by rw [State.on, hrd]; rfl⟩

theorem KeepsRings.alm (s : State) (a : AlmSt) : KeepsRings s { s with alm := a } := .aside rfl rfl

theorem KeepsRings.dev (s : State) (d : DevSt) : KeepsRings s { s with dev := d } := .aside rfl rfl

theorem KeepsRings.fcu (s : State) (x : FcuSt) (h : x.todo = s.fcu.todo) : KeepsRings s { s with fcu := x } := .aside rfl h

theorem kind_block (r : Nat) (hr : r < 16) : (Reg.HIF_Rr_CFG_KIND r).key / 0x80000 = 0x400C ∧
    Fld.ofFaults (Reg.HIF_Rr_CFG_KIND r) = false := by
  have : ∀ r : Fin 16, (Reg.HIF_Rr_CFG_KIND r).key / 0x80000 = 0x400C ∧ Fld.ofFaults (Reg.HIF_Rr_CFG_KIND r) = false := by decide
  exact this ⟨r, hr⟩

/-- A write of a field of another block. -/
theorem KeepsRings.wr (s : State) (f : Fld) (v : Nat) (hf : f.key / 0x80000 ≠ 0x400C ∧ f.key % 512 ≠ 9) : KeepsRings s (s.wr f v) := by
  have hne : ∀ g : Fld, g.key / 0x80000 = 0x400C → (s.wr f v).rd g = s.rd g := fun g hg =>
    s.rd_wr_ne _ _ _ fun e => hf.1 (e ▸ hg)
  exact ⟨.refl s, fun r hr _ g hg => hne g (ringFlds_block r hr g hg).1, fun r => s.rd_wr_ne _ _ _ (cring_ne hf.2 r),
    fun r hr => hne _ (kind_block r hr).1,
    by rw [State.on, hne _ (by decide)]; rfl⟩

theorem KeepsRings.later (s : State) (x : Raise) (h : x.code ∈ consequenceCodes) : KeepsRings s (s.later x) :=
  { KeepsRings.refl s with todo := .later s x h }

theorem WritesRing.kind {r : Nat} {s t : State} (h : WritesRing r s t) (q : Nat) (hq : q < 16) :
    t.rd (Reg.HIF_Rr_CFG_KIND q) = s.rd (Reg.HIF_Rr_CFG_KIND q) := h.rd _ (kind_block q hq).2

theorem WritesRing.evten {r : Nat} {s t : State} (h : WritesRing r s t) : t.on Reg.HIF_CFG_EVTEN = s.on Reg.HIF_CFG_EVTEN := by
  rw [State.on, h.rd _ (by decide)]; rfl

theorem KeepsRings.irq (src : Nat) (h : src < 256) (s : State) : KeepsRings s (irq src s) := by
  have hring := WritesRing.irq 16 src h s
  exact ⟨hring.todo, fun r hr _ f hf => hring.ring r hr (by omega) f hf, hring.cring, hring.kind, hring.evten⟩

theorem KeepsRings.postEvent (kind : Nat) (data : List Nat) (s : State) : KeepsRings s (postEvent kind data s) := by
  unfold Machine.postEvent; dsimp only; split
  · next hopen =>
    obtain ⟨hevten, hkind⟩ : s.on Reg.HIF_CFG_EVTEN = true ∧ s.rd (Reg.HIF_Rr_CFG_KIND (s.rd Reg.HIF_CFG_EVTRING)) = 2 := by
      simp only [State.ringOpen, Bool.and_eq_true, decide_eq_true_eq] at hopen
      exact ⟨hopen.1, hopen.2.2⟩
    split
    · have hdrop : KeepsRings s (s.inc Reg.HIF_DROP_EVENT) :=
        ⟨.refl s, fun r hr _ g hg => s.rd_wr_ne _ _ _ (ringFlds_block r hr g hg).2.2.symm,
          fun r => s.rd_wr_ne _ _ _ (cring_ne (by decide) r),
          fun r hr => s.rd_wr_ne _ _ _ (by
            have : ∀ r : Fin 16, Reg.HIF_DROP_EVENT.key ≠ (Reg.HIF_Rr_CFG_KIND r).key := by decide
            exact this ⟨r, hr⟩), s.on_wr_ne _ _ _ (by decide)⟩
      exact hdrop.trans (.later _ _ (by decide))
    · have hring := fun ds => WritesRing.ringWrite (State.rd_lt s Reg.HIF_CFG_EVTRING) ds s
      refine ⟨(hring _).todo, fun r hr hk f hf => (hring _).ring r hr (fun heq => ?_) f hf, (hring _).cring, (hring _).kind, (hring _).evten⟩
      rw [heq, hevten] at hk
      exact hk.elim (· hkind) nofun
  · exact .refl s

theorem KeepsRings.almTrigger (b code : Nat) (s : State) : KeepsRings s (almTrigger b code s) := by
  have hput : ∀ s : State, KeepsRings s (putTrigger s) := fun s => .aside rfl rfl
  unfold Machine.almTrigger; dsimp only; (repeat' split)
  · refine KeepsRings.trans ?_ (.later _ _ (by decide))
    refine KeepsRings.trans ?_ (hput _)
    refine KeepsRings.trans ?_ (.alm _ _)
    exact (((KeepsRings.wr s Reg.ALM_TRFN _ (by decide)).trans (.wr _ Reg.ALM_TRSRC_SRC _ (by decide))).trans
      (.wr _ Reg.ALM_TRSRC_CODE _ (by decide))).trans (.wr _ Reg.ALM_STAT_STATE _ (by decide))
  · exact ((KeepsRings.when _ _ (.refl s) (.wr _ _ _ (by decide))).trans (.wr _ _ _ (by decide))).trans (hput _)
  · exact (KeepsRings.wr s Reg.ALM_STAT_NTRIG _ (by decide)).trans (hput _)
  · exact ((KeepsRings.wr s Reg.ALM_STAT_MISSED _ (by decide)).trans (hput _)).trans (.later _ _ (by decide))
  · exact .refl s

theorem KeepsRings.almEvent (b code : Nat) (s : State) : KeepsRings s (almEvent b code s) := .when _ _ (.refl s) (.almTrigger b code s)

theorem KeepsRings.fltStop (s : State) : KeepsRings s (fltStop s) :=
  ((KeepsRings.wr s Reg.FCU_STAT_FLT_P _ (by decide)).trans (.wr _ Reg.FCU_STAT_FLT_N _ (by decide))).trans (.fcu _ _ rfl)

theorem KeepsRings.setDevRole (st : DevState) (role : Nat) (s : State) : KeepsRings s (setDevRole st role s) := by
  unfold Machine.setDevRole; dsimp only; split
  · exact .refl s
  · refine KeepsRings.trans ?_ (.postEvent _ _ _)
    refine KeepsRings.when _ _ (.when _ _ (.when _ _ ?_ (.wr _ _ _ (by decide))) (.fltStop _)) (.irq _ (by decide) _)
    exact (KeepsRings.wr s Reg.SEAM_STAT_ROLE _ (by decide)).trans (.dev _ _)

theorem KeepsRings.enterLee (s : State) : KeepsRings s (enterLee s) := by
  unfold Machine.enterLee; split
  · refine KeepsRings.trans ?_ (.almEvent 2 0 _)
    refine KeepsRings.trans ?_ (.irq 1 (by decide) _)
    refine KeepsRings.trans ?_ (.wr _ Reg.FCU_LEESTAT_ENTRIES _ (by decide))
    refine KeepsRings.trans ?_ (.setDevRole _ _ _)
    exact .fcu s _ rfl
  · exact .refl s

theorem KeepsRings.leaveLee (s : State) : KeepsRings s (leaveLee s) := by
  unfold Machine.leaveLee; split
  · refine KeepsRings.trans ?_ (.irq 9 (by decide) _)
    exact .fcu s _ rfl
  · exact .refl s

theorem KeepsRings.safeLegs (n : Nat) (s : State) : KeepsRings s (safeLegs n s) := by
  unfold Machine.safeLegs; split
  · exact .refl s
  · exact .aside rfl rfl

theorem KeepsRings.requestSafe (axes : Nat) (s : State) : KeepsRings s (requestSafe axes s) :=
  (KeepsRings.each _ Machine.safeLegs (fun i s => .safeLegs i s) s).trans (.fcu _ _ rfl)

theorem KeepsRings.enterSafe (s : State) : KeepsRings s (enterSafe s) := by
  have hlegs := KeepsRings.each (List.range 8) Machine.safeLegs (fun i s => .safeLegs i s) s
  unfold Machine.enterSafe; dsimp only; split
  · exact .refl s
  · generalize s.each (List.range 8) Machine.safeLegs = u at hlegs ⊢
    have hrequest : KeepsRings s { u with fcu := { u.fcu with supReq := 0xFF, supSo := true } } := hlegs.trans (.fcu u _ rfl)
    split
    · refine KeepsRings.trans ?_ (.almEvent 3 0 _)
      refine KeepsRings.trans ?_ (.irq 3 (by decide) _)
      refine KeepsRings.trans ?_ (.setDevRole _ _ _)
      exact (hrequest.trans (.leaveLee _)).trans (.fltStop _)
    · exact hrequest

theorem KeepsRings.setRole (role : Nat) (s : State) : KeepsRings s (setRole role s) := .setDevRole s.dev.state role s

theorem KeepsRings.applyLeeCause (s : State) : KeepsRings s (applyLeeCause s) := by
  unfold Machine.applyLeeCause; split
  · exact .refl s
  · split
    · exact .enterLee s
    · exact .when _ _ (.refl s) (.setRole _ s)
    · exact .refl s

theorem logFld_block (i : Nat) (h : i < 256) : (Reg.FCU_LOGi i).key / 0x80000 ≠ 0x400C ∧ (Reg.FCU_LOGi i).key % 512 ≠ 9 := by
  simp only [Reg.FCU_LOGi]; omega

theorem KeepsRings.logFault (f : Raise) (s : State) : KeepsRings s (logFault f s) := by
  unfold Machine.logFault; dsimp only
  have hentry := fun v w => (KeepsRings.wr s (Reg.FCU_LOGi (s.rd Reg.FCU_LOGWP_WP)) v
    (logFld_block _ (State.rd_lt s Reg.FCU_LOGWP_WP))).trans (.wr _ Reg.FCU_LOGWP_WP w (by decide))
  split
  · refine KeepsRings.trans ?_ (.irq 10 (by decide) _)
    refine KeepsRings.trans ?_ (.wr _ Reg.FCU_LOGRP_RP _ (by decide))
    exact .when _ _ (hentry _ _) (.wr _ Reg.FCU_LOGWP_WRAPS _ (by decide))
  · refine KeepsRings.trans ?_ (.wr _ Reg.FCU_LOGRP_UNREAD _ (by decide))
    exact .when _ _ (hentry _ _) (.wr _ Reg.FCU_LOGWP_WRAPS _ (by decide))

theorem KeepsRings.recordWho (f : Raise) (s : State) : KeepsRings s (recordWho f s) := by
  unfold Machine.recordWho; dsimp only
  iterate 5 refine KeepsRings.trans ?_ (.wr _ _ _ (by decide))
  exact .wr _ _ _ (by decide)

theorem KeepsRings.recordFault (f : Raise) (s : State) : KeepsRings s (recordFault f s) := by
  unfold Machine.recordFault; dsimp only; split
  · refine KeepsRings.trans ?_ (.irq 7 (by decide) _)
    refine KeepsRings.trans ?_ (.fcu _ _ rfl)
    refine KeepsRings.trans ?_ (.wr _ _ _ (by decide))
    refine KeepsRings.trans ?_ (.wr _ Reg.FCU_REC_COUNT _ (by decide))
    exact .when _ _ (.refl s) (.recordWho f s)
  · refine KeepsRings.trans ?_ (.irq 6 (by decide) _)
    refine KeepsRings.trans ?_ (.fcu _ _ rfl)
    iterate 5 refine KeepsRings.trans ?_ (.wr _ _ _ (by decide))
    exact (KeepsRings.recordWho f s).trans (.wr _ Reg.FCU_REC_VALID _ (by decide))

theorem KeepsRings.takeReaction (f : Raise) (r : React) (s : State) : KeepsRings s (takeReaction f r s) := by
  unfold Machine.takeReaction; dsimp only; split
  · exact .refl s
  · split
    · exact .refl s
    · exact .refl s
    · exact .applyLeeCause s
    · exact .requestSafe _ s
    · exact .enterSafe s
    · exact (KeepsRings.enterSafe s).trans (.dev _ _)

theorem KeepsRings.blockIrq (code : Nat) (s : State) :
    KeepsRings s (match blockFaultIrq code with | some src => Machine.irq src s | none => s) := by
  split
  · next src h => exact .irq src (blockFaultIrq_lt _ _ h) s
  · exact .refl s

theorem KeepsRings.raise1 (f : Raise) (s : State) : KeepsRings s (raise1 f s) := by
  unfold Machine.raise1; dsimp only; split
  · exact .refl s
  · refine KeepsRings.trans ?_ (.takeReaction _ _ _)
    refine KeepsRings.when _ _ ?_ (.almEvent _ _ _)
    refine KeepsRings.when _ _ ?_ (.almEvent _ _ _)
    refine KeepsRings.when _ _ ?_ (.fltStop _)
    refine KeepsRings.trans ?_ (.blockIrq f.code _)
    refine KeepsRings.when _ _ ?_ (.irq 5 (by decide) _)
    refine KeepsRings.when _ _ ?_ (.irq 4 (by decide) _)
    refine KeepsRings.when _ _ ?_ (.irq 0 (by decide) _)
    refine KeepsRings.when _ _ ?_ (.postEvent _ _ _)
    refine KeepsRings.when _ _ ?_ (.recordFault _ _)
    refine KeepsRings.when _ _ (.aside rfl rfl) (.logFault _ _)

theorem KeepsRings.settle (n : Nat) (s : State) : KeepsRings s (settle n s) := by
  induction n generalizing s with
  | zero => exact .refl s
  | succ n ih =>
    unfold Machine.settle
    split
    · exact .refl s
    · next f fs htodo =>
      have hdrop : KeepsRings s { s with fcu := { s.fcu with todo := fs } } :=
        { KeepsRings.refl s with todo := fun x hx => .inl (by rw [htodo]; exact List.mem_cons_of_mem _ hx) }
      exact (hdrop.trans (.raise1 f _)).trans (ih _)

theorem KeepsRings.settleAll (s : State) : KeepsRings s (settleAll s) := .settle _ s

/-! ### The counts of the faults -/

/-- The raise of one fault leaves the counts of the others. -/
theorem raise1_count_ne (f : Raise) (s : State) (c : Nat) (h : f.code ≠ c) :
    SMap.get 0 (raise1 f s).fcu.count c = SMap.get 0 s.fcu.count c := by
  cases hnew : oncePerFrame f.code && SMap.get false s.fcu.seen f.code with
  | true => rw [raise1_skip f s hnew]
  | false =>
    obtain ⟨hcount, -, -, -⟩ := raise1_notes hnew
    rw [hcount]
    exact (SMap.get_set ..).trans (if_neg h)

/-- Raising consequences leaves the count of a fault that is none. -/
theorem settle_count (n : Nat) (s : State) (c : Nat) (hc : c ∉ consequenceCodes) (h : ∀ x ∈ s.fcu.todo, x.code ∈ consequenceCodes) :
    SMap.get 0 (settle n s).fcu.count c = SMap.get 0 s.fcu.count c := by
  induction n generalizing s with
  | zero => rfl
  | succ n ih =>
    unfold settle
    split
    · rfl
    · next f fs htodo =>
      have hf : f.code ≠ c := fun e => hc (e ▸ h f (by rw [htodo]; exact List.mem_cons_self))
      rw [ih, raise1_count_ne f _ c hf]
      intro x hx
      rcases (KeepsRings.raise1 f { s with fcu := { s.fcu with todo := fs } }).todo x hx with hx | hx
      · exact h x (by rw [htodo]; exact List.mem_cons_of_mem _ hx)
      · exact hx

end Sys2Proof.Machine
end

section
/-! The completion of a command in its ring, and the verdict of Crucible (O44; R367, R447, R459, R491). -/
namespace Sys2Proof.Machine

/-! ### The writing of a ring, from states that agree -/

/-- The registers that the writing of ring r reads. -/
def ringReads (r : Nat) : List Fld :=
  [Reg.HIF_Rr_CFG_LOC r, Reg.HIF_Rr_CFG_LSIZE r, Reg.HIF_Rr_CFG_VEC r, Reg.HIF_Rr_BASE_L r, Reg.HIF_Rr_BASE_H r, Reg.HIF_Rr_IDXA_L r,
    Reg.HIF_Rr_IDXA_H r, Reg.HIF_Rr_IRQ_MOD r, Reg.HIF_Rr_IDX_PI r, Reg.HIF_Rr_STAT_COUNT r, Reg.HIF_Rr_STAT_PHASE r,
    Reg.HIF_Rr_IRQ_ARM r]

/-- `x` and `y` agree on what the writing of ring r reads. -/
structure AgreeRing (r : Nat) (x y : State) : Prop where
  rd : ∀ f ∈ ringReads r, y.rd f = x.rd f
  mem : y.mem = x.mem
  hif : y.hif = x.hif
  time : y.time = x.time

/-- One descriptor is put, then the index block is written. -/
theorem ringWrite_one (r : Nat) (d : List Nat) (s : State) :
    ringWrite r [d] s = ringNotify r ((ringPut r d s).rd (Reg.HIF_Rr_IDX_PI r)) (ringPut r d s) := rfl

section
variable {r : Nat} {x y : State} (h : AgreeRing r x y)
include h

theorem AgreeRing.loc : y.rd (Reg.HIF_Rr_CFG_LOC r) = x.rd (Reg.HIF_Rr_CFG_LOC r) := h.rd _ (by simp [ringReads])

theorem AgreeRing.vec : y.rd (Reg.HIF_Rr_CFG_VEC r) = x.rd (Reg.HIF_Rr_CFG_VEC r) := h.rd _ (by simp [ringReads])

theorem AgreeRing.pi : y.rd (Reg.HIF_Rr_IDX_PI r) = x.rd (Reg.HIF_Rr_IDX_PI r) := h.rd _ (by simp [ringReads])

theorem AgreeRing.count : y.rd (Reg.HIF_Rr_STAT_COUNT r) = x.rd (Reg.HIF_Rr_STAT_COUNT r) := h.rd _ (by simp [ringReads])

theorem AgreeRing.phase : y.rd (Reg.HIF_Rr_STAT_PHASE r) = x.rd (Reg.HIF_Rr_STAT_PHASE r) := h.rd _ (by simp [ringReads])

theorem AgreeRing.arm : y.on (Reg.HIF_Rr_IRQ_ARM r) = x.on (Reg.HIF_Rr_IRQ_ARM r) := by
  rw [State.on, h.rd _ (by simp [ringReads])]; rfl

theorem AgreeRing.size : y.ringSize r = x.ringSize r := by rw [State.ringSize, h.rd _ (by simp [ringReads])]; rfl

theorem AgreeRing.base : y.ringBase r = x.ringBase r := by
  rw [State.ringBase, h.rd (Reg.HIF_Rr_BASE_L r) (by simp [ringReads]), h.rd (Reg.HIF_Rr_BASE_H r) (by simp [ringReads])]; rfl

theorem AgreeRing.idxA : y.ringIdxA r = x.ringIdxA r := by
  rw [State.ringIdxA, h.rd (Reg.HIF_Rr_IDXA_L r) (by simp [ringReads]), h.rd (Reg.HIF_Rr_IDXA_H r) (by simp [ringReads])]; rfl

theorem AgreeRing.fn : y.fn = x.fn := by rw [State.fn, h.time]; rfl

theorem AgreeRing.msgDue : y.msgDue r = x.msgDue r := by
  have hmod : y.rd (Reg.HIF_Rr_IRQ_MOD r) = x.rd (Reg.HIF_Rr_IRQ_MOD r) := h.rd _ (by simp [ringReads])
  simp only [State.msgDue, h.hif, hmod, h.fn]

theorem AgreeRing.dmaWrite (loc a : Nat) (ws : List Nat) : AgreeRing r (x.dmaWrite loc a ws) (y.dmaWrite loc a ws) := by
  unfold State.dmaWrite
  split
  · exact ⟨h.rd, h.mem, by rw [h.hif], h.time⟩
  · split
    · exact ⟨h.rd, by rw [h.mem], h.hif, h.time⟩
    · exact ⟨h.rd, h.mem, h.hif, h.time⟩

theorem AgreeRing.wr (f : Fld) (v : Nat) : AgreeRing r (x.wr f v) (y.wr f v) where
  rd g hg := by rw [State.rd_wr, State.rd_wr, h.rd g hg]
  mem := h.mem
  hif := h.hif
  time := h.time

theorem AgreeRing.irq (hr : r < 16) (src : Nat) (hsrc : src < 256) : AgreeRing r (Machine.irq src x) (Machine.irq src y) := by
  have hwrites := fun s => WritesRing.irq 16 src hsrc s
  have hkeep : ∀ s, ∀ f ∈ ringReads r, (Machine.irq src s).rd f = s.rd f := fun s f hf => by
    have hsplit : ∀ r : Fin 16, ∀ f ∈ ringReads r, f ∈ ringFlds r ∨ Fld.ofFaults f = false := by decide +kernel
    exact (hsplit ⟨r, hr⟩ f hf).elim ((hwrites s).ring r hr (by omega) f) ((hwrites s).rd f)
  have hframe : ∀ s, (Machine.irq src s).mem = s.mem ∧ (Machine.irq src s).hif = s.hif ∧ (Machine.irq src s).time = s.time := fun s => by
    unfold Machine.irq; split <;> exact ⟨rfl, rfl, rfl⟩
  obtain ⟨hmx, hhx, htx⟩ := hframe x
  obtain ⟨hmy, hhy, hty⟩ := hframe y
  exact ⟨fun f hf => by rw [hkeep x f hf, hkeep y f hf, h.rd f hf], by rw [hmx, hmy, h.mem], by rw [hhx, hhy, h.hif],
    by rw [htx, hty, h.time]⟩

theorem AgreeRing.msix (vec : Nat) : AgreeRing r (Machine.msix vec x) (Machine.msix vec y) := by
  unfold Machine.msix
  dsimp only
  rw [h.hif]
  split
  · exact ⟨h.rd, h.mem, rfl, h.time⟩
  · exact h.dmaWrite _ _ _

theorem AgreeRing.ringPut (words : List Nat) : AgreeRing r (Machine.ringPut r words x) (Machine.ringPut r words y) := by
  unfold Machine.ringPut Machine.ringPutRaw
  dsimp only
  rw [h.loc, h.base, h.pi, h.phase]
  have hdma := h.dmaWrite (x.rd (Reg.HIF_Rr_CFG_LOC r)) (x.ringBase r + 32 * x.rd (Reg.HIF_Rr_IDX_PI r))
    (padTo 8 (putBits (words.headD 0) 31 1 (x.rd (Reg.HIF_Rr_STAT_PHASE r)) :: words.tail))
  generalize x.dmaWrite _ _ _ = u at hdma ⊢
  generalize y.dmaWrite _ _ _ = v at hdma ⊢
  have hpi := hdma.wr (Reg.HIF_Rr_IDX_PI r) ((x.rd (Reg.HIF_Rr_IDX_PI r) + 1) % u.ringSize r)
  rw [hdma.size]
  have hcount : AgreeRing r ((u.wr (Reg.HIF_Rr_IDX_PI r) ((x.rd (Reg.HIF_Rr_IDX_PI r) + 1) % u.ringSize r)).inc (Reg.HIF_Rr_STAT_COUNT r))
      ((v.wr (Reg.HIF_Rr_IDX_PI r) ((x.rd (Reg.HIF_Rr_IDX_PI r) + 1) % u.ringSize r)).inc (Reg.HIF_Rr_STAT_COUNT r)) := by
    rw [State.inc, State.inc, State.add, State.add, hpi.count]
    exact hpi.wr _ _
  rw [hcount.size]
  split
  · rw [hcount.phase]
    exact hcount.wr _ _
  · exact hcount

theorem AgreeRing.ringNotify (hr : r < 16) (own : Nat) : AgreeRing r (Machine.ringNotify r own x) (Machine.ringNotify r own y) := by
  unfold Machine.ringNotify
  dsimp only
  rw [h.loc, h.idxA, h.fn]
  have hdma := h.dmaWrite (x.rd (Reg.HIF_Rr_CFG_LOC r)) (x.ringIdxA r) [own, x.fn]
  generalize x.dmaWrite _ _ _ = u at hdma ⊢
  generalize y.dmaWrite _ _ _ = v at hdma ⊢
  rw [hdma.msgDue, hdma.arm]
  split
  · have hput : AgreeRing r (u.put (Reg.HIF_Rr_IRQ_ARM r) false) (v.put (Reg.HIF_Rr_IRQ_ARM r) false) := hdma.wr _ _
    have hirq := hput.irq hr (160 + r) (by omega)
    generalize Machine.irq (160 + r) (u.put (Reg.HIF_Rr_IRQ_ARM r) false) = u' at hirq ⊢
    generalize Machine.irq (160 + r) (v.put (Reg.HIF_Rr_IRQ_ARM r) false) = v' at hirq ⊢
    have hmsg : AgreeRing r { u' with hif := { u'.hif with lastMsg := SMap.set none u'.hif.lastMsg r (some u'.fn) } }
        { v' with hif := { v'.hif with lastMsg := SMap.set none v'.hif.lastMsg r (some v'.fn) } } :=
      ⟨hirq.rd, hirq.mem, by rw [hirq.hif, hirq.fn], hirq.time⟩
    generalize ({ u' with hif := { u'.hif with lastMsg := SMap.set none u'.hif.lastMsg r (some u'.fn) } } : State) = u'' at hmsg ⊢
    generalize ({ v' with hif := { v'.hif with lastMsg := SMap.set none v'.hif.lastMsg r (some v'.fn) } } : State) = v'' at hmsg ⊢
    unfold State.when
    rw [hmsg.loc, hmsg.vec]
    split
    · exact hmsg.msix _
    · exact hmsg
  · exact hdma

theorem AgreeRing.ringWrite (hr : r < 16) (d : List Nat) : AgreeRing r (Machine.ringWrite r [d] x) (Machine.ringWrite r [d] y) := by
  have hput := h.ringPut d
  rw [ringWrite_one, ringWrite_one, hput.pi]
  exact hput.ringNotify hr _

end

theorem dmaWrite_regs (s : State) (loc a : Nat) (ws : List Nat) : (s.dmaWrite loc a ws).regs = s.regs := by
  unfold State.dmaWrite; (repeat' split) <;> rfl

theorem ringFlds_distinct (r : Nat) : (Reg.HIF_Rr_STAT_COUNT r).key ≠ (Reg.HIF_Rr_IDX_PI r).key ∧
    (Reg.HIF_Rr_STAT_PHASE r).key ≠ (Reg.HIF_Rr_IDX_PI r).key ∧ (Reg.HIF_Rr_IRQ_ARM r).key ≠ (Reg.HIF_Rr_IDX_PI r).key := by
  simp only [Reg.HIF_Rr_STAT_COUNT, Reg.HIF_Rr_STAT_PHASE, Reg.HIF_Rr_IRQ_ARM, Reg.HIF_Rr_IDX_PI]
  omega

theorem ringNotify_pi (r own : Nat) (hr : r < 16) (s : State) :
    (ringNotify r own s).rd (Reg.HIF_Rr_IDX_PI r) = s.rd (Reg.HIF_Rr_IDX_PI r) := by
  have hdma : ∀ (u : State) loc a ws, (u.dmaWrite loc a ws).rd (Reg.HIF_Rr_IDX_PI r) = u.rd (Reg.HIF_Rr_IDX_PI r) :=
    fun u loc a ws => State.rd_congr (dmaWrite_regs u loc a ws) _
  unfold ringNotify
  dsimp only
  split
  · have hirq : ∀ u, (irq (160 + r) u).rd (Reg.HIF_Rr_IDX_PI r) = u.rd (Reg.HIF_Rr_IDX_PI r) := fun u =>
      (WritesRing.irq 16 _ (by omega) u).ring r hr (by omega) _ (by simp [ringFlds])
    have hmsix : ∀ vec u, (msix vec u).rd (Reg.HIF_Rr_IDX_PI r) = u.rd (Reg.HIF_Rr_IDX_PI r) := fun vec u => by
      unfold msix; dsimp only; split
      · rfl
      · exact hdma _ _ _ _
    have hrest : ∀ (u : State) (x : HifSt), { irq (160 + r) (u.put (Reg.HIF_Rr_IRQ_ARM r) false) with hif := x }.rd (Reg.HIF_Rr_IDX_PI r) =
        u.rd (Reg.HIF_Rr_IDX_PI r) := fun u x => (hirq _).trans (u.rd_put_ne _ _ _ (ringFlds_distinct r).2.2)
    unfold State.when
    split
    · rw [hmsix, hrest, hdma]
    · rw [hrest, hdma]
  · exact hdma _ _ _ _

/-- PI after a descriptor was written (R357). -/
theorem ringWrite_pi (r : Nat) (hr : r < 16) (d : List Nat) (s : State) :
    (ringWrite r [d] s).rd (Reg.HIF_Rr_IDX_PI r) = (s.rd (Reg.HIF_Rr_IDX_PI r) + 1) % s.ringSize r % 4096 := by
  have hraw : ∀ ws, (ringPutRaw r ws s).rd (Reg.HIF_Rr_IDX_PI r) = (s.rd (Reg.HIF_Rr_IDX_PI r) + 1) % s.ringSize r % 4096 := by
    intro ws
    obtain ⟨hcount, hphase, -⟩ := ringFlds_distinct r
    unfold ringPutRaw
    dsimp only
    generalize hu : s.dmaWrite _ _ _ = u
    have hsize : u.ringSize r = s.ringSize r := by
      rw [State.ringSize, ← hu, State.rd_congr (dmaWrite_regs ..)]; rfl
    have hpi : ((u.wr (Reg.HIF_Rr_IDX_PI r) ((s.rd (Reg.HIF_Rr_IDX_PI r) + 1) % u.ringSize r)).inc (Reg.HIF_Rr_STAT_COUNT r)).rd
        (Reg.HIF_Rr_IDX_PI r) = (s.rd (Reg.HIF_Rr_IDX_PI r) + 1) % s.ringSize r % 4096 := by
      rw [State.inc, State.add, State.rd_wr_ne _ _ _ _ hcount, State.rd_wr_self, hsize]; rfl
    split
    · rw [State.rd_wr_ne _ _ _ _ hphase, hpi]
    · exact hpi
  rw [ringWrite_one, ringNotify_pi r _ hr]
  exact hraw _

end Sys2Proof.Machine
end

section
/-! The verdict of Crucible (O44; R447, R459, R491). -/
namespace Sys2Proof.Machine

/-! ### A completion -/

/-- The descriptor of a completion. -/
def completion (d : Cmd) (status : Nat) (late : Bool) (res : List Nat) (s : State) : List Nat :=
  [status + b2n late * 2 ^ 8 + d.ring * 2 ^ 12 + d.cidx * 2 ^ 16, d.tag + d.op * 2 ^ 16, s.fn, s.tickCt s.fn] ++ res

theorem complete_eq (d : Cmd) (status : Nat) (late : Bool) (res : List Nat) (s : State) : complete d status late res s =
    if (s.ringOpen (s.rd (Reg.HIF_Rr_CFG_CRING d.ring)) rkCOMPLETION && decide (s.ringFree (s.rd (Reg.HIF_Rr_CFG_CRING d.ring)) ≠ 0)) = true
    then ringWrite (s.rd (Reg.HIF_Rr_CFG_CRING d.ring)) [completion d status late res s] s else s := rfl

theorem complete_writes (d : Cmd) (status : Nat) (late : Bool) (res : List Nat) (s : State) :
    WritesRing (s.rd (Reg.HIF_Rr_CFG_CRING d.ring)) s (complete d status late res s) := by
  rw [complete_eq]
  split
  · exact .ringWrite (s.rd_lt (Reg.HIF_Rr_CFG_CRING d.ring)) _ s
  · exact .refl _ s

/-- `x` stands between `s` and its reports: of the registers of the rings only an event ring has changed, and that only while device
events are enabled; time stands, and memory while they are not. -/
structure BeforeReport (s x : State) : Prop where
  rd : ∀ f, Fld.ofFaults f = false → f.key / 0x80000 = 0x400C → x.rd f = s.rd f
  rings : KeepsRings s x
  frame : x.rd Reg.TIME_FRAME = s.rd Reg.TIME_FRAME
  time : x.time = s.time
  quiet : s.on Reg.HIF_CFG_EVTEN = false → x.mem = s.mem ∧ x.hif = s.hif

/-- The fields of ring r that are set for it. -/
def ringCfg (r : Nat) : List Fld :=
  [Reg.HIF_Rr_CFG_LOC r, Reg.HIF_Rr_CFG_LSIZE r, Reg.HIF_Rr_CFG_VEC r, Reg.HIF_Rr_BASE_L r, Reg.HIF_Rr_BASE_H r, Reg.HIF_Rr_IDXA_L r,
    Reg.HIF_Rr_IDXA_H r, Reg.HIF_Rr_IRQ_MOD r, Reg.HIF_Rr_CTL r, Reg.HIF_Rr_STAT_STOPPED r, Reg.HIF_Rr_IDX_CI r, Reg.HIF_Rr_CFG_KIND r,
    Reg.HIF_CTRL_EN]

theorem ringCfg_kept (r : Nat) (hr : r < 16) : ∀ f ∈ ringCfg r, Fld.ofFaults f = false ∧ f.key / 0x80000 = 0x400C := by
  have : ∀ r : Fin 16, ∀ f ∈ ringCfg r, Fld.ofFaults f = false ∧ f.key / 0x80000 = 0x400C := by decide +kernel
  exact this ⟨r, hr⟩

theorem ringReads_split (r : Nat) : ∀ f ∈ ringReads r, f ∈ ringCfg r ∨ f ∈ ringFlds r := by
  simp [ringReads, ringCfg, ringFlds]

/-- A completion after the reports of a command stands where it would have stood before them (R367). -/
theorem completed_of_report (d : Cmd) (status : Nat) (late : Bool) (res : List Nat) {s x t : State} (h : BeforeReport s x)
    (ht : OnlyFaults (complete d status late res x) t) (hk : KeepsRings (complete d status late res x) t) :
    Completed d status late res s t := by
  intro hopen hfree
  have hcr : s.rd (Reg.HIF_Rr_CFG_CRING d.ring) < 16 := s.rd_lt (Reg.HIF_Rr_CFG_CRING d.ring)
  generalize hname : s.rd (Reg.HIF_Rr_CFG_CRING d.ring) = cr at hopen hfree hcr ⊢
  have hkind : s.rd (Reg.HIF_Rr_CFG_KIND cr) ≠ 2 := by
    simp only [State.ringOpen, Bool.and_eq_true, decide_eq_true_eq] at hopen
    rw [hopen.2]; decide
  have hcfg : ∀ f ∈ ringCfg cr, x.rd f = s.rd f := fun f hf => by
    obtain ⟨hfaults, hblock⟩ := ringCfg_kept cr hcr f hf
    exact h.rd f hfaults hblock
  have hring : ∀ f ∈ ringFlds cr, x.rd f = s.rd f := h.rings.ring cr hcr (.inl hkind)
  have hreads : ∀ f ∈ ringReads cr, x.rd f = s.rd f := fun f hf => (ringReads_split cr f hf).elim (hcfg f) (hring f)
  have hsize : x.ringSize cr = s.ringSize cr := by rw [State.ringSize, hcfg _ (by simp [ringCfg])]; rfl
  have hpi : x.rd (Reg.HIF_Rr_IDX_PI cr) = s.rd (Reg.HIF_Rr_IDX_PI cr) := hring _ (by simp [ringFlds])
  have hopen' : x.ringOpen cr rkCOMPLETION = true := by
    rw [← hopen, State.ringOpen, State.ringOpen, State.on, State.on, State.on, hcfg Reg.HIF_CTRL_EN (by simp [ringCfg]),
      hcfg (Reg.HIF_Rr_CTL cr) (by simp [ringCfg]), hcfg (Reg.HIF_Rr_STAT_STOPPED cr) (by simp [ringCfg]),
      hcfg (Reg.HIF_Rr_CFG_KIND cr) (by simp [ringCfg])]
    rfl
  have hfree' : x.ringFree cr ≠ 0 := by
    rw [State.ringFree, hsize, hpi, hcfg (Reg.HIF_Rr_IDX_CI cr) (by simp [ringCfg])]
    exact hfree
  have hcring : x.rd (Reg.HIF_Rr_CFG_CRING d.ring) = cr := (h.rings.cring d.ring).trans hname
  have hx : complete d status late res x = ringWrite cr [completion d status late res x] x := by
    rw [complete_eq, hcring, hopen', if_pos (by simp [hfree'])]
  have hs : complete d status late res s = ringWrite cr [completion d status late res s] s := by
    rw [complete_eq, hname, if_pos (by rw [hopen]; simpa using hfree)]
  have hdesc : completion d status late res x = completion d status late res s := by
    simp only [completion, State.tickCt, State.fn, State.frameTicks, h.time, h.frame]
  have hwrites : WritesRing cr x (complete d status late res x) := by
    have := complete_writes d status late res x
    rwa [hcring] at this
  refine ⟨?_, fun hoff => ?_⟩
  · rw [hk.ring cr hcr (.inl ?_) _ (by simp [ringFlds]), hx, ringWrite_pi cr hcr, hpi, hsize]
    rw [hwrites.kind cr hcr, h.rings.kind cr hcr]
    exact hkind
  · obtain ⟨hmem, hhif⟩ := h.quiet hoff
    have hagree : AgreeRing cr s x := ⟨hreads, hmem, hhif, h.time⟩
    have hend := hagree.ringWrite hcr (completion d status late res s)
    obtain ⟨htmem, hthif⟩ := ht.quiet (by rw [hwrites.evten, h.rings.evten]; exact hoff)
    rw [htmem, hthif, hx, hdesc, hs, hend.mem, hend.hif]
    exact ⟨rfl, rfl⟩

end Sys2Proof.Machine
end

section
/-! What a verdict of Crucible leaves (O44; R447, R459, R491). -/
namespace Sys2Proof.Machine

theorem completes_of_settleAll {c : Instr} {s u : State} {P : State → Prop} (hexec : exec c s = done u) (h : P (settleAll u)) :
    Completes c s P := ⟨settleAll u, hexec, h⟩

/-! ### What Crucible notes -/

/-- The verdict bars the engine of a nested SEALED container; it frees the engine of an ENGINE container (R491). -/
abbrev SealBars (src : CrucSrc) (c : Container) (code check : Nat) : Prop :=
  src.isNested = true ∧ c.type = ctSEALED ∧ code = 0x0C ∧ check = 0x26
abbrev SealFrees (src : CrucSrc) (c : Container) (code : Nat) : Prop := src.isRing = true ∧ c.type = ctENGINE ∧ code = 0

theorem sealBar_eq (src : CrucSrc) (c : Container) (code check : Nat) (u : State) : sealBar src c code check u =
    if SealBars src c code check then
      setSec { u.sec with sealBar := putBit u.sec.sealBar c.target true } (u.wrBit Reg.CEC_STAT_LOADED c.target false)
    else if SealFrees src c code then setSec { u.sec with sealBar := putBit u.sec.sealBar c.target false } u
    else u := by
  cases src with
  | nested i =>
    simp only [sealBar, State.when, SealBars, SealFrees, CrucSrc.isNested, CrucSrc.isRing, Bool.and_eq_true, decide_eq_true_eq,
      true_and, Bool.false_eq_true, false_and, if_false, and_assoc]
  | ring d =>
    simp only [sealBar, State.when, SealBars, SealFrees, CrucSrc.isNested, CrucSrc.isRing, Bool.and_eq_true, decide_eq_true_eq,
      true_and, Bool.false_eq_true, false_and, if_false]
  | window ws => rfl
  | hallmark d => rfl

/-- The engine or the mode that a verdict names. -/
def verdictUnit (c : Container) : Nat :=
  if (! c.malformed && (c.type = ctENGINE || c.type = ctSEALED || c.type = ctSCHEDULE)) = true then c.target else 0

/-- The state in which Crucible raises the refusal and its interrupt. -/
def verdictNoted (src : CrucSrc) (c : Container) (code check : Nat) (s : State) : State :=
  sealBar src c code check (nextContainer (s.wr Reg.SEC_LAST (verdictWord code check (verdictUnit c))))

/-- The fault of a refusal. -/
def refusalFault (c : Container) : Nat := if c.type = ctTOKEN then Fc.TOKEN_REFUSED else Fc.LOAD_REFUSED

theorem refusalFault_spec (c : Container) : oncePerFrame (refusalFault c) = false ∧ refusalFault c ∉ consequenceCodes := by
  unfold refusalFault
  split <;> decide

/-- The refusal and the interrupt raised. -/
def verdictRaised (src : CrucSrc) (c : Container) (code check : Nat) (s : State) : State :=
  irq 225 ((verdictNoted src c code check s).when (code ≠ 0) (raiseDev (refusalFault c)))

section
variable (src : CrucSrc) (c : Container) (code check : Nat) (s : State)

theorem verdict_eq : verdict src c code check s = match src with
    | .ring d => complete d (if code = 0 then stOK else stREFUSED) d.late [verdictWord code check (verdictUnit c)]
        (verdictRaised src c code check s)
    | .window _ => ((verdictRaised src c code check s).wr Reg.DBG_STAT_CODE code).put Reg.DBG_STAT_BUSY false
    | .nested _ | .hallmark _ => verdictRaised src c code check s := by
  cases src <;> rfl

/-- The bars of the engines after the verdict. -/
def verdictBar : Nat :=
  if SealBars src c code check then putBit s.sec.sealBar c.target true
  else if SealFrees src c code then putBit s.sec.sealBar c.target false else s.sec.sealBar

theorem verdictNoted_frame : ∃ r, verdictNoted src c code check s = { s with
    regs := r
    sec := { s.sec with queue := s.sec.queue.drop 1, sched := none, accepted := none, sealBar := verdictBar src c code check s } } := by
  unfold verdictNoted verdictBar
  rw [sealBar_eq]
  split
  · exact ⟨_, rfl⟩
  · split <;> exact ⟨_, rfl⟩

theorem verdictNoted_rd (f : Fld) (hlast : Reg.SEC_LAST.key ≠ f.key) (hbusy : Reg.SEC_STAT_BUSY.key ≠ f.key)
    (hloaded : SealBars src c code check → Reg.CEC_STAT_LOADED.key ≠ f.key) : (verdictNoted src c code check s).rd f = s.rd f := by
  have hnext : (nextContainer (s.wr Reg.SEC_LAST (verdictWord code check (verdictUnit c)))).rd f = s.rd f :=
    (State.rd_put_ne (s.wr _ _) _ _ _ hbusy).trans (s.rd_wr_ne _ _ _ hlast)
  unfold verdictNoted
  rw [sealBar_eq]
  split
  · next hbars => exact (State.rd_wr_ne _ _ _ _ (hloaded hbars)).trans hnext
  · split <;> exact hnext

theorem verdictNoted_last (hcode : code < 2 ^ 8) (hcheck : check < 2 ^ 8) :
    (verdictNoted src c code check s).rd Reg.SEC_LAST = verdictWord code check (verdictUnit c) := by
  have hfits : verdictWord code check (verdictUnit c) < 2 ^ 19 := by unfold verdictWord; omega
  have hnext : (nextContainer (s.wr Reg.SEC_LAST (verdictWord code check (verdictUnit c)))).rd Reg.SEC_LAST =
      verdictWord code check (verdictUnit c) :=
    (State.rd_put_ne (s.wr _ _) Reg.SEC_STAT_BUSY _ _ (by decide)).trans ((s.rd_wr_self _ _).trans (Nat.mod_eq_of_lt hfits))
  unfold verdictNoted
  rw [sealBar_eq]
  split
  · exact (State.rd_wr_ne _ _ _ _ (by decide)).trans hnext
  · split <;> exact hnext

theorem verdictNoted_busy : (verdictNoted src c code check s).on Reg.SEC_STAT_BUSY = (s.sec.queue.drop 1).any isContainer := by
  have hnext : (nextContainer (s.wr Reg.SEC_LAST (verdictWord code check (verdictUnit c)))).on Reg.SEC_STAT_BUSY =
      (s.sec.queue.drop 1).any isContainer := State.on_put_self (s.wr _ _) _ _ rfl
  unfold verdictNoted
  rw [sealBar_eq]
  split
  · exact (State.on_wr_ne _ _ _ _ (by decide)).trans hnext
  · split <;> exact hnext

theorem verdictNoted_unloaded (hbars : SealBars src c code check) :
    (verdictNoted src c code check s).bit Reg.CEC_STAT_LOADED c.target = false := by
  unfold verdictNoted
  rw [sealBar_eq, if_pos hbars]
  generalize nextContainer (s.wr Reg.SEC_LAST (verdictWord code check (verdictUnit c))) = u
  show (u.wrBit Reg.CEC_STAT_LOADED c.target false).bit Reg.CEC_STAT_LOADED c.target = false
  by_cases h8 : c.target < 8
  · exact (State.bit_wrBit u _ _ _ _ false rfl h8).trans (if_pos rfl)
  · have hlt : (u.wrBit Reg.CEC_STAT_LOADED c.target false).rd Reg.CEC_STAT_LOADED < 2 ^ c.target :=
      Nat.lt_of_lt_of_le (State.rd_lt _ Reg.CEC_STAT_LOADED) (Nat.pow_le_pow_right (by decide) (by show 8 ≤ c.target; omega))
    simp [State.bit, tb, Nat.div_eq_of_lt hlt]

/-! ### The refusal and the interrupt -/

theorem verdictRaised_onlyFaults : OnlyFaults (verdictNoted src c code check s) (verdictRaised src c code check s) :=
  (OnlyFaults.when _ _ (.refl _) (.raiseDev _ _)).trans (.irq _ 225 (by decide))

theorem KeepsRings.raiseDev (code : Nat) (s : State) : KeepsRings s (raiseDev code s) :=
  (KeepsRings.raise1 _ s).trans (.settleAll _)

theorem verdictRaised_keepsRings : KeepsRings (verdictNoted src c code check s) (verdictRaised src c code check s) :=
  (KeepsRings.when _ _ (.refl _) (.raiseDev _ _)).trans (.irq 225 (by decide) _)

/-- Of the registers of the host interface the verdict notes none. -/
theorem verdictNoted_keepsRings : KeepsRings s (verdictNoted src c code check s) := by
  obtain ⟨r, h⟩ := verdictNoted_frame src c code check s
  have hrd : ∀ f : Fld, f.key / 0x80000 = 0x400C → (verdictNoted src c code check s).rd f = s.rd f := fun f hf => by
    have hne : ∀ g : Fld, g.key / 0x80000 ≠ 0x400C → g.key ≠ f.key := fun g hg e => hg (e ▸ hf)
    exact verdictNoted_rd src c code check s f (hne _ (by decide)) (hne _ (by decide)) fun _ => hne _ (by decide)
  exact {
    todo := .same (by rw [h])
    ring := fun q hq _ f hf => hrd f (ringFlds_block q hq f hf).1
    cring := fun q => verdictNoted_rd src c code check s _ (cring_ne (by decide) q) (cring_ne (by decide) q)
      fun _ => cring_ne (by decide) q
    kind := fun q hq => hrd _ (kind_block q hq).1
    evten := by rw [State.on, hrd _ (by decide)]; rfl }

theorem verdictRaised_beforeReport : BeforeReport s (verdictRaised src c code check s) := by
  obtain ⟨r, h⟩ := verdictNoted_frame src c code check s
  have hof := verdictRaised_onlyFaults src c code check s
  have hnoted := verdictNoted_keepsRings src c code check s
  refine ⟨fun f hf hblock => ?_, hnoted.trans (verdictRaised_keepsRings src c code check s), ?_, ?_, fun hoff => ?_⟩
  · have hne : ∀ g : Fld, g.key / 0x80000 ≠ 0x400C → g.key ≠ f.key := fun g hg e => hg (e ▸ hblock)
    rw [hof.rd f hf]
    exact verdictNoted_rd src c code check s f (hne _ (by decide)) (hne _ (by decide)) fun _ => hne _ (by decide)
  · rw [hof.rd _ (by decide)]
    exact verdictNoted_rd src c code check s _ (by decide) (by decide) fun _ => by decide
  · rw [hof.time, h]
  · obtain ⟨hmem, hhif⟩ := hof.quiet (by rw [hnoted.evten]; exact hoff)
    rw [hmem, hhif, h]
    exact ⟨rfl, rfl⟩

/-- The refusal counts once, and only consequences are left on the list (R409). -/
theorem verdictRaised_count (hne : code ≠ 0) (hcalm : s.calm) :
    SMap.get 0 (verdictRaised src c code check s).fcu.count (refusalFault c) = min (SMap.get 0 s.fcu.count (refusalFault c) + 1) 255 ∧
    ∀ x ∈ (verdictRaised src c code check s).fcu.todo, x.code ∈ consequenceCodes := by
  obtain ⟨honce, hnot⟩ := refusalFault_spec c
  obtain ⟨r, h⟩ := verdictNoted_frame src c code check s
  have hfcu : (verdictNoted src c code check s).fcu = s.fcu := by rw [h]
  have htodo : ∀ u, KeepsRings (verdictNoted src c code check s) u → ∀ x ∈ u.fcu.todo, x.code ∈ consequenceCodes := fun u hu x hx => by
    rcases hu.todo x hx with hx | hx
    · rw [hfcu, hcalm] at hx; cases hx
    · exact hx
  have hraised : (verdictNoted src c code check s).when (code ≠ 0) (raiseDev (refusalFault c)) =
      raiseDev (refusalFault c) (verdictNoted src c code check s) := by simp [State.when, hne]
  refine ⟨?_, htodo _ (verdictRaised_keepsRings src c code check s)⟩
  have hirq : ∀ u, (irq 225 u).fcu.count = u.fcu.count := fun u => by
    rw [(WritesRing.irq 16 225 (by decide) u).frame]
  have hcounts := (raise1_counts (f := { code := refusalFault c }) (s := verdictNoted src c code check s) (by simp [honce])).1
  rw [verdictRaised, hraised, hirq]
  show SMap.get 0 (settle _ (raise1 _ _)).fcu.count _ = _
  rw [settle_count _ _ _ hnot (htodo _ (.raise1 _ _))]
  exact hcounts.trans (by rw [hfcu])

end

end Sys2Proof.Machine
end

section
/-! A verdict of Crucible, settled, is the verdict that the statements speak of (O44; R447, R459, R491). -/
namespace Sys2Proof.Machine

/-- `t` is `x` after Crucible has told its verdict: by a completion, by the status of the window, or not at all. -/
structure Told (x t : State) : Prop where
  rd : ∀ f, Fld.ofFaults f = false → Reg.DBG_STAT_CODE.key ≠ f.key → Reg.DBG_STAT_BUSY.key ≠ f.key → t.rd f = x.rd f
  frame : t = { x with regs := t.regs, hif := t.hif, mem := t.mem, fcu := { x.fcu with todo := t.fcu.todo } }
  todo : AddsConsequences x t
  pend : ∀ k < 8, ∀ n < 32, x.bit (Reg.INTC_PENDk k) n = true → t.bit (Reg.INTC_PENDk k) n = true

theorem Told.refl (x : State) : Told x x := ⟨fun _ _ _ _ => rfl, rfl, .refl x, fun _ _ _ _ h => h⟩

theorem WritesRing.told {r : Nat} {x t : State} (h : WritesRing r x t) : Told x t := ⟨fun f hf _ _ => h.rd f hf, h.frame, h.todo, h.pend⟩

theorem Told.window (x : State) (code : Nat) : Told x ((x.wr Reg.DBG_STAT_CODE code).put Reg.DBG_STAT_BUSY false) where
  rd f _ hcode hbusy := (State.rd_put_ne _ _ _ _ hbusy).trans (x.rd_wr_ne _ _ _ hcode)
  frame := rfl
  todo := .refl x
  pend k _ n _ h := by
    have hcode : Reg.DBG_STAT_CODE.key ≠ (Reg.INTC_PENDk k).key := by simp only [Reg.DBG_STAT_CODE, Reg.INTC_PENDk]; omega
    have hbusy : Reg.DBG_STAT_BUSY.key ≠ (Reg.INTC_PENDk k).key := by simp only [Reg.DBG_STAT_BUSY, Reg.INTC_PENDk]; omega
    rw [State.put, State.bit_wr_ne _ _ _ _ _ hbusy, State.bit_wr_ne _ _ _ _ _ hcode]
    exact h

section
variable (src : CrucSrc) (c : Container) (code check : Nat) (s : State)

theorem verdict_told : Told (verdictRaised src c code check s) (verdict src c code check s) := by
  rw [verdict_eq]
  cases src with
  | ring d => exact (complete_writes d _ _ _ _).told
  | window ws => exact .window _ code
  | nested i => exact .refl _
  | hallmark d => exact .refl _

/-- A field that neither the verdict nor a raise writes. -/
theorem verdict_rd (f : Fld) (hf : Fld.ofFaults f = false) (hcode : Reg.DBG_STAT_CODE.key ≠ f.key) (hbusy : Reg.DBG_STAT_BUSY.key ≠ f.key) :
    (settleAll (verdict src c code check s)).rd f = (verdictNoted src c code check s).rd f :=
  ((OnlyFaults.settleAll _).rd f hf).trans (((verdict_told src c code check s).rd f hf hcode hbusy).trans
    ((verdictRaised_onlyFaults src c code check s).rd f hf))

theorem verdict_besideReport : (settleAll (verdict src c code check s)).besideReport = s.besideReport := by
  have hend := OnlyFaults.settleAll (verdict src c code check s)
  have htold := (verdict_told src c code check s).frame
  have hof := verdictRaised_onlyFaults src c code check s
  obtain ⟨r, h⟩ := verdictNoted_frame src c code check s
  have hkeep : ∀ x y : State, OnlyFaults x y → y.besideReport = x.besideReport := fun x y h => by
    unfold State.besideReport
    rw [h.time, h.eng, h.cec, h.anv, h.fb, h.com, h.adc, h.so, h.axs, h.pair, h.chk, h.intc, h.tsk, h.can, h.seam, h.fdl, h.pwr, h.fresh]
  rw [hkeep _ _ hend, htold]
  show (verdictRaised src c code check s).besideReport = _
  rw [hkeep _ _ hof, h]
  rfl

theorem verdict_sec : (settleAll (verdict src c code check s)).sec = { s.sec with
    queue := s.sec.queue.drop 1, sched := none, accepted := none, sealBar := verdictBar src c code check s } := by
  obtain ⟨r, h⟩ := verdictNoted_frame src c code check s
  rw [(OnlyFaults.settleAll _).sec, (verdict_told src c code check s).frame]
  show (verdictRaised src c code check s).sec = _
  rw [(verdictRaised_onlyFaults src c code check s).sec, h]

theorem verdict_pends : (settleAll (verdict src c code check s)).pends 225 = true :=
  (OnlyFaults.settleAll _).pends 225 (by decide)
    ((verdict_told src c code check s).pend 7 (by decide) 1 (by decide) (irq_pends 225 _ (by decide)))

theorem verdict_count (hne : code ≠ 0) (hcalm : s.calm) : SMap.get 0 (settleAll (verdict src c code check s)).fcu.count (refusalFault c) =
    min (SMap.get 0 s.fcu.count (refusalFault c) + 1) 255 := by
  obtain ⟨hcount, htodo⟩ := verdictRaised_count src c code check s hne hcalm
  have htold := verdict_told src c code check s
  have hall : ∀ x ∈ (verdict src c code check s).fcu.todo, x.code ∈ consequenceCodes := fun x hx =>
    (htold.todo x hx).elim (htodo x) id
  have hsame : (verdict src c code check s).fcu.count = (verdictRaised src c code check s).fcu.count := by rw [htold.frame]
  rw [settleAll, settle_count _ _ _ (refusalFault_spec c).2 hall, hsame, hcount]

theorem verdict_window (hw : src.isWindow = true) (hcode : code < 2 ^ 8) :
    (settleAll (verdict src c code check s)).rd Reg.DBG_STAT_CODE = code ∧
    (settleAll (verdict src c code check s)).on Reg.DBG_STAT_BUSY = false := by
  have hend := OnlyFaults.settleAll (verdict src c code check s)
  cases src with
  | window ws =>
    rw [hend.rd _ (by decide), hend.on _ (by decide), verdict_eq]
    refine ⟨?_, State.on_put_self _ _ _ rfl⟩
    rw [State.rd_put_ne _ _ _ _ (by decide), State.rd_wr_self]
    exact Nat.mod_eq_of_lt hcode
  | ring d => cases hw
  | nested i => cases hw
  | hallmark d => cases hw

theorem verdict_completed (d : Cmd) (hsrc : src = .ring d) :
    Completed d (if code = 0 then stOK else stREFUSED) d.late [verdictWord code check (verdictUnit c)] s
      (settleAll (verdict src c code check s)) := by
  have hcomplete : verdict src c code check s = complete d (if code = 0 then stOK else stREFUSED) d.late
      [verdictWord code check (verdictUnit c)] (verdictRaised src c code check s) := by
    rw [verdict_eq, hsrc]
  have hof := OnlyFaults.settleAll (verdict src c code check s)
  have hk := KeepsRings.settleAll (verdict src c code check s)
  generalize settleAll (verdict src c code check s) = t at hof hk ⊢
  rw [hcomplete] at hof hk
  exact completed_of_report d _ _ _ (verdictRaised_beforeReport src c code check s) hof hk

theorem verdictWord_unit : verdictWord code check (verdictUnit c) = code + check * 2 ^ 8 +
    (if c.malformed = false ∧ (c.type = ctENGINE ∨ c.type = ctSEALED ∨ c.type = ctSCHEDULE) then c.target % 8 else 0) * 2 ^ 16 := by
  unfold verdictWord verdictUnit
  by_cases h : c.malformed = false ∧ (c.type = ctENGINE ∨ c.type = ctSEALED ∨ c.type = ctSCHEDULE)
  · rw [if_pos h, if_pos (by simpa [or_assoc] using h)]
  · rw [if_neg h, if_neg (by simpa [or_assoc] using h)]

/-- Crucible's verdict, once what it raises has settled. -/
theorem verdict_settled (hcode : code < 2 ^ 8) (hcheck : check < 2 ^ 8) :
    Verdict src c code check s (settleAll (verdict src c code check s)) := by
  have hrd := verdict_rd src c code check s
  unfold Verdict
  dsimp only
  rw [← verdictWord_unit]
  refine ⟨?_, verdict_sec src c code check s, fun hbars => ?_, ?_, verdict_pends src c code check s, verdict_besideReport src c code check s,
    ?_, ?_, verdict_count src c code check s, verdict_completed src c code check s, fun hw => verdict_window src c code check s hw hcode,
    fun f hf _ hdbg hsec hbars => ?_⟩
  · rw [hrd _ (by decide) (by decide) (by decide)]
    exact verdictNoted_last src c code check s hcode hcheck
  · rw [State.bit, hrd _ (by decide) (by decide) (by decide)]
    exact verdictNoted_unloaded src c code check s hbars
  · rw [State.on, hrd _ (by decide) (by decide) (by decide)]
    exact verdictNoted_busy src c code check s
  · rw [State.lc, State.lc, hrd _ (by decide) (by decide) (by decide)]
    exact verdictNoted_rd src c code check s _ (by decide) (by decide) fun _ => by decide
  · rw [hrd _ (by decide) (by decide) (by decide)]
    exact verdictNoted_rd src c code check s _ (by decide) (by decide) fun _ => by decide
  · have hdbg' : ∀ g : Fld, g.key / 0x80000 = 0x4012 → g.key ≠ f.key := fun g hg e => hdbg (e ▸ hg)
    have hsec' : ∀ g : Fld, g.key / 0x80000 = 0x4013 → g.key ≠ f.key := fun g hg e => hsec (e ▸ hg)
    rw [hrd f hf (hdbg' _ (by decide)) (hdbg' _ (by decide))]
    exact verdictNoted_rd src c code check s f (hsec' _ (by decide)) (hsec' _ (by decide)) fun h => (hbars h).symm

end

end Sys2Proof.Machine
end

section
/-! A container that passes, and SCHEDULE (O44; R51, R325, R450). -/
namespace Sys2Proof.Machine

/-! ### A container that passes the checks before its content -/

/-- What Crucible answers for a container that passes: the verdict of its content, or none yet. -/
def passed (eff : Container → State → Option (Nat × Nat) × State) (src : CrucSrc) (b : Container) (s : State) : State :=
  match eff b s with
  | (some (code, check), u) => verdict src b code check u
  | (none, u) => u

theorem passed_verdict {eff : Container → State → Option (Nat × Nat) × State} {src : CrucSrc} {b : Container} {s u : State}
    {code check : Nat} (h : eff b s = (some (code, check), u)) : passed eff src b s = verdict src b code check u := by
  rw [passed, h]

theorem passed_none {eff : Container → State → Option (Nat × Nat) × State} {src : CrucSrc} {b : Container} {s u : State}
    (h : eff b s = (none, u)) : passed eff src b s = u := by
  rw [passed, h]

theorem readFailed_passes {step : Nat} {src : CrucSrc} {b : Container} {s : State} (h : s.passes step src b) : readFailed src b s = none := by
  obtain ⟨-, -, -, -, -, -, hdma, -⟩ := h
  cases src with
  | ring d =>
    have : ¬ ((! b.dmaOk) = true ∧ s.loc d.ring ≠ 1) := by
      rintro ⟨hbad, hloc⟩
      rcases hdma d rfl with h | h
      · rw [h] at hbad; cases hbad
      · exact hloc h
    exact if_neg this
  | window ws => rfl
  | nested i => rfl
  | hallmark d => rfl

theorem crucible_passes {step : Nat} {c : Container} {src : CrucSrc} {s : State} (h : s.passes step src (s.contents src c))
    (eff : Container → State → Option (Nat × Nat) × State) :
    crucible step c eff s = done (passed eff src (s.contents src c) s) := by
  have hread := readFailed_passes h
  obtain ⟨-, hreplay, hhead, hcontainer, hsched, hmbox, -, hstep, hlen, hverify⟩ := h
  obtain ⟨rest, hq⟩ : ∃ rest, s.sec.queue = src :: rest := by
    cases hq : s.sec.queue with
    | nil => rw [hq] at hhead; cases hhead
    | cons x rest => rw [hq] at hhead; obtain rfl : x = src := by simpa using hhead
                     exact ⟨rest, rfl⟩
  have hgo : ¬ (decide ((s.contents src c).step ≠ step) || s.sec.sched.isSome || ! isContainer src || s.mboxAhead src) = true := by
    rw [hsched, hcontainer, hmbox]; simp [hstep]
  have hshort : decide (s.handed src < 17104 + (s.contents src c).len) = false := by simpa using hlen
  unfold crucible passed
  rw [hq]
  dsimp only
  rw [if_neg hgo, hread]
  dsimp only
  rw [if_neg hreplay, hshort, hverify]
  simp only [Bool.false_eq_true, if_false, ne_eq, not_true_eq_false]
  cases eff (s.contents src c) s with
  | mk r u =>
    cases r with
    | none => rfl
    | some p => rfl

/-- A container that passes is well-formed, and of the type of its step if that is no token's. -/
theorem passes_type {step : Nat} {src : CrucSrc} {b : Container} {s : State} (h : s.passes step src b) (hstep : step < 16) :
    b.malformed = false ∧ b.type = step := by
  obtain ⟨-, -, -, -, -, -, -, hs, -, hverify⟩ := h
  have hmal : b.malformed = false := by
    cases hm : b.malformed with
    | false => rfl
    | true => simp [State.verify, hm] at hverify
  refine ⟨hmal, ?_⟩
  rw [Container.step, hmal, if_neg (by decide)] at hs
  split at hs
  · split at hs <;> omega
  · exact hs

/-- The target of a well-formed container is an engine or a mode. -/
theorem target_lt {b : Container} (h : b.malformed = false) : b.target < 8 := by
  simp only [Container.malformed, Bool.or_eq_false_iff, decide_eq_false_iff_not] at h
  omega

/-- A pending event stays pending through a verdict. -/
theorem verdict_keeps_pending (src : CrucSrc) (c : Container) (code check n : Nat) (s : State) (hn : n < 256) (h : s.pends n = true) :
    (settleAll (verdict src c code check s)).pends n = true := by
  have hnoted : (verdictNoted src c code check s).pends n = true := by
    rw [State.pends, State.bit, verdictNoted_rd src c code check s]
    · exact h
    · simp only [Reg.SEC_LAST, Reg.INTC_PENDk]; omega
    · simp only [Reg.SEC_STAT_BUSY, Reg.INTC_PENDk]; omega
    · intro _
      simp only [Reg.CEC_STAT_LOADED, Reg.INTC_PENDk]; omega
  refine (OnlyFaults.settleAll _).pends n hn ?_
  exact (verdict_told src c code check s).pend (n / 32) (by omega) (n % 32) (by omega)
    ((verdictRaised_onlyFaults src c code check s).pends n hn hnoted)

/-! ### The words of a digest -/

theorem bytesWord_lt (bs : List Nat) (h : ∀ b ∈ bs, b < 256) : bytesWord bs < 256 ^ bs.length := by
  induction bs with
  | nil => decide
  | cons b bs ih =>
    have hb := h b (by simp)
    have hrest := ih fun x hx => h x (by simp [hx])
    simp only [bytesWord, List.length_cons, Nat.pow_succ]
    omega

theorem bytesWords_lt (n : Nat) (bs : List Nat) (h : ∀ b ∈ bs, b < 256) : ∀ w ∈ bytesWords n bs, w < 2 ^ 32 := by
  induction n generalizing bs with
  | zero => simp [bytesWords]
  | succ n ih =>
    intro w hw
    rcases List.mem_cons.mp hw with rfl | hw
    · have hlt := bytesWord_lt (bs.take 4) fun b hb => h b (List.mem_of_mem_take hb)
      have hpow : 256 ^ (bs.take 4).length ≤ 256 ^ 4 := Nat.pow_le_pow_right (by decide) (List.length_take_le 4 bs)
      omega
    · exact ih _ (fun b hb => h b (List.mem_of_mem_drop hb)) w hw

theorem wordsBytes_lt (ws : List Nat) : ∀ b ∈ wordsBytes ws, b < 256 := by
  induction ws with
  | nil => simp [wordsBytes]
  | cons w ws ih =>
    intro b hb
    rcases List.mem_append.mp hb with hb | hb
    · simp only [wordBytes, List.mem_cons, List.not_mem_nil, or_false] at hb
      omega
    · exact ih b hb

theorem sha384_lt (ws : List Nat) (i : Nat) : (sha384 ws).getD i 0 < 2 ^ 32 := by
  have hbytes : ∀ b ∈ sha384Bytes (wordsBytes ws), b < 256 := fun b hb => by
    obtain ⟨v, -, hv⟩ := List.mem_flatMap.mp hb
    exact wordsBytes_lt _ b (List.mem_reverse.mp hv)
  rw [List.getD_eq_getElem?_getD]
  cases hi : (sha384 ws)[i]? with
  | none => decide
  | some w => exact bytesWords_lt 12 _ hbytes w (List.mem_of_getElem? hi)

end Sys2Proof.Machine
end

section
/-! SCHEDULE: its refusals, and the mode that it writes (O44; R51, R325, R450). -/
namespace Sys2Proof.Machine

/-- A refresh of Fudorlink keeps its regions and their signatures. -/
theorem fdlRefresh_fdl (s : State) : ∃ a b c, (fdlRefresh s).fdl = { s.fdl with cold := a, good := b, misses := c } := by
  have hset : ∀ x u, (setSs x u).fdl = u.fdl := fun x u => by
    rcases setSs_cases x u with ⟨-, h⟩ | ⟨-, h⟩
    · rw [h]
    · rw [h.fdl]; rfl
  unfold fdlRefresh
  dsimp only
  split
  · split
    · exact ⟨_, _, _, hset _ _⟩
    · exact ⟨_, _, _, rfl⟩
  · exact ⟨_, _, _, hset _ _⟩

theorem OnlyFaults.setSec {s t : State} (h : OnlyFaults s t) (x : SecSt) : OnlyFaults (setSec x s) (setSec x t) := { h with sec := rfl }

/-! ### Modes taken out of service -/

theorem outOfService_frame (p : Nat × Nat) (s : State) : ∃ r, outOfService p s = { s with
    regs := r, anv := { s.anv with validating := s.anv.validating.filter (· ≠ p.1) } } := ⟨_, rfl⟩

theorem outOfService_bit (p : Nat × Nat) (s : State) (j : Nat) (hj : j < 8) : (outOfService p s).bit Reg.ANV_STAT_VALID j =
    (s.bit Reg.ANV_STAT_VALID j && decide (j ≠ p.1)) := by
  have hcode : (Reg.ANV_VALn_CODE p.1).key ≠ Reg.ANV_STAT_VALID.key := by simp only [Reg.ANV_VALn_CODE, Reg.ANV_STAT_VALID]; omega
  have hentry : (Reg.ANV_VALn_ENTRY p.1).key ≠ Reg.ANV_STAT_VALID.key := by simp only [Reg.ANV_VALn_ENTRY, Reg.ANV_STAT_VALID]; omega
  have hwrites : (outOfService p s).bit Reg.ANV_STAT_VALID j = (modeInvalid p.1 s).bit Reg.ANV_STAT_VALID j :=
    (State.bit_wr_ne ((modeInvalid p.1 s).wr _ _) _ _ _ j hentry).trans (State.bit_wr_ne _ _ _ _ j hcode)
  rw [hwrites, modeInvalid_bit _ _ _ hj]
  by_cases h : p.1 = j
  · simp [h]
  · simp [h, Ne.symm h]

theorem modeInvalid_off (m n : Nat) (s : State) (h : s.on (Reg.ANV_VALn_VALID n) = false ∨ m = n) :
    (modeInvalid m s).on (Reg.ANV_VALn_VALID n) = false := by
  have hstat : Reg.ANV_STAT_VALID.key ≠ (Reg.ANV_VALn_VALID n).key := by simp only [Reg.ANV_STAT_VALID, Reg.ANV_VALn_VALID]; omega
  by_cases hmn : m = n
  · subst hmn; exact State.on_put_self _ _ _ rfl
  · have hkey : (Reg.ANV_VALn_VALID m).key ≠ (Reg.ANV_VALn_VALID n).key := by simp only [Reg.ANV_VALn_VALID]; omega
    rw [modeInvalid, State.on_put_ne _ _ _ _ hkey, State.wrBit, State.on_wr_ne _ _ _ _ hstat]
    exact h.resolve_right hmn

theorem outOfService_off (p : Nat × Nat) (s : State) (n : Nat) (h : s.on (Reg.ANV_VALn_VALID n) = false) :
    (outOfService p s).on (Reg.ANV_VALn_VALID n) = false := by
  have hcode : (Reg.ANV_VALn_CODE p.1).key ≠ (Reg.ANV_VALn_VALID n).key := by simp only [Reg.ANV_VALn_CODE, Reg.ANV_VALn_VALID]; omega
  have hentry : (Reg.ANV_VALn_ENTRY p.1).key ≠ (Reg.ANV_VALn_VALID n).key := by simp only [Reg.ANV_VALn_ENTRY, Reg.ANV_VALn_VALID]; omega
  refine Eq.trans (State.on_wr_ne ((modeInvalid p.1 s).wr _ _) _ _ _ hentry) ?_
  rw [State.on_wr_ne _ _ _ _ hcode]
  exact modeInvalid_off _ _ _ (.inl h)

/-- The overlapped modes out of service: their VALID bits are clear, and beside registers only the list of those that wait for
validation has changed. -/
theorem outOfServices (l : List (Nat × Nat)) (s : State) : let t := l.foldl (fun s p => outOfService p s) s
    (∃ r v, t = { s with regs := r, anv := { s.anv with validating := v } }) ∧
    (∀ j < 8, t.bit Reg.ANV_STAT_VALID j = (s.bit Reg.ANV_STAT_VALID j && ! (l.map Prod.fst).contains j)) ∧
    ∀ n, s.on (Reg.ANV_VALn_VALID n) = false → t.on (Reg.ANV_VALn_VALID n) = false := by
  induction l generalizing s with
  | nil => exact ⟨⟨_, _, rfl⟩, fun j _ => by simp, fun n h => h⟩
  | cons p l ih =>
    obtain ⟨r, h⟩ := outOfService_frame p s
    obtain ⟨⟨r', v', hframe⟩, hbit, hoff⟩ := ih (outOfService p s)
    refine ⟨⟨r', v', hframe.trans (by rw [h])⟩, fun j hj => ?_, fun n hn => hoff n (outOfService_off p s n hn)⟩
    refine (hbit j hj).trans ?_
    rw [outOfService_bit p s j hj, List.map_cons, List.contains_cons]
    by_cases hjp : j = p.1
    · simp [hjp]
    · have hbeq : (j == p.1) = false := beq_eq_false_iff_ne.mpr hjp
      rw [hbeq]
      simp [hjp]

/-! ### The mode that a SCHEDULE writes -/

/-- The span and the identity of mode m. -/
def spanStored (m base lenm1 idl idh : Nat) (v : State) : State :=
  (((v.wr (Reg.ANV_MODEn_BASE m) base).wr (Reg.ANV_MODEn_LENM1 m) lenm1).wr (Reg.FDL_Mm_IDL m) idl).wr (Reg.FDL_Mm_IDH m) idh

theorem spanStored_frame (m base lenm1 idl idh : Nat) (v : State) : ∃ r, spanStored m base lenm1 idl idh v = { v with regs := r } :=
  ⟨_, rfl⟩

/-- Span, identity, region, signature and entries of the mode of a SCHEDULE stored in `v`. -/
def scheduleStored (b : Container) (v : State) : State :=
  let m := b.target
  let w := fun i => b.body.getD i 0
  let region := b.body.drop (16 + 4 * (w 3 + 1))
  let v := spanStored m (w 2) (w 3) ((sha384 region).getD 0 0) ((sha384 region).getD 1 0) v
  let v := setFdl { v.fdl with region := SMap.setMany 0 v.fdl.region (1024 * m) region
                               signed := SMap.set (0, 0) v.fdl.signed m (w 0, w 1) } v
  setAnv { v.anv with table := SMap.setMany 0 v.anv.table (w 2) (entriesOf (w 3 + 1) (b.body.drop 16))
                      written := m :: v.anv.written.filter (· ≠ m)
                      validating := m :: v.anv.validating.filter (· ≠ m) } v

/-- The mode and every mode that it overlaps taken out of service. -/
def scheduleCleared (b : Container) (s : State) : State :=
  (s.overlapped b.target (b.body.getD 2 0, b.body.getD 3 0 + 1)).foldl (fun s p => outOfService p s) (modeInvalid b.target s)

/-- A mode that the SCHEDULE concerns is active or armed. -/
def State.scheduleBusy (s : State) (b : Container) : Prop :=
  s.modeBusy b.target = true ∨ ∃ p ∈ s.overlapped b.target (b.body.getD 2 0, b.body.getD 3 0 + 1), s.modeBusy p.1 = true

section
variable (b : Container) (s : State)

theorem scheduleEff_badLayout (h : scheduleOk b.body = false) : scheduleEff b s = (some (0x0C, 0x31), s) := by
  unfold scheduleEff
  dsimp only
  rw [h]
  rfl

theorem scheduleBusy_iff : (s.modeBusy b.target ||
    (s.overlapped b.target (b.body.getD 2 0, b.body.getD 3 0 + 1)).any fun p => s.modeBusy p.1) = true ↔ s.scheduleBusy b := by
  rw [Bool.or_eq_true, List.any_eq_true]; rfl

theorem scheduleEff_busy (h : scheduleOk b.body = true) (hbusy : s.scheduleBusy b) :
    scheduleEff b s = (some (0x0D, 0), irq 22 (s.put Reg.ANV_STAT_EDIT_DENIED true)) := by
  unfold scheduleEff
  dsimp only
  rw [h]
  exact if_pos ((scheduleBusy_iff b s).mpr hbusy)

theorem scheduleEff_written (h : scheduleOk b.body = true) (hbusy : ¬ s.scheduleBusy b) :
    scheduleEff b s = (none, setSec { (scheduleStored b (scheduleCleared b s)).sec with sched := some b.target }
      (fdlRefresh (scheduleStored b (scheduleCleared b s)))) := by
  unfold scheduleEff
  dsimp only
  rw [h]
  exact if_neg (mt (scheduleBusy_iff b s).mp hbusy)

end

end Sys2Proof.Machine
end

section
/-! What a SCHEDULE leaves (O44; R51, R325, R450). -/
namespace Sys2Proof.Machine

section
variable (b : Container) (v : State)

theorem scheduleStored_frame : ∃ r, scheduleStored b v = { v with
    regs := r
    fdl := { v.fdl with
      region := SMap.setMany 0 v.fdl.region (1024 * b.target) (b.body.drop (16 + 4 * (b.body.getD 3 0 + 1)))
      signed := SMap.set (0, 0) v.fdl.signed b.target (b.body.getD 0 0, b.body.getD 1 0) }
    anv := { v.anv with
      table := SMap.setMany 0 v.anv.table (b.body.getD 2 0) (entriesOf (b.body.getD 3 0 + 1) (b.body.drop 16))
      written := b.target :: v.anv.written.filter (· ≠ b.target)
      validating := b.target :: v.anv.validating.filter (· ≠ b.target) } } := by
  unfold scheduleStored
  dsimp only
  obtain ⟨r, h⟩ := spanStored_frame b.target (b.body.getD 2 0) (b.body.getD 3 0)
    ((sha384 (b.body.drop (16 + 4 * (b.body.getD 3 0 + 1)))).getD 0 0) ((sha384 (b.body.drop (16 + 4 * (b.body.getD 3 0 + 1)))).getD 1 0) v
  rw [h]
  exact ⟨r, rfl⟩

/-- The fields that a SCHEDULE of mode m stores. -/
def scheduleFlds (m : Nat) : List Fld := [Reg.ANV_MODEn_BASE m, Reg.ANV_MODEn_LENM1 m, Reg.FDL_Mm_IDL m, Reg.FDL_Mm_IDH m]

theorem scheduleStored_regs : (scheduleStored b v).regs = (spanStored b.target (b.body.getD 2 0) (b.body.getD 3 0)
    ((sha384 (b.body.drop (16 + 4 * (b.body.getD 3 0 + 1)))).getD 0 0)
    ((sha384 (b.body.drop (16 + 4 * (b.body.getD 3 0 + 1)))).getD 1 0) v).regs := by
  simp only [scheduleStored, setAnv, setFdl]

theorem scheduleStored_rd_ne (f : Fld) (hf : ∀ g ∈ scheduleFlds b.target, g.key ≠ f.key) : (scheduleStored b v).rd f = v.rd f := by
  simp only [scheduleFlds, List.forall_mem_cons, List.not_mem_nil, false_implies, implies_true, and_true] at hf
  obtain ⟨hbase, hlen, hidl, hidh⟩ := hf
  rw [State.rd_congr (scheduleStored_regs b v), spanStored, State.rd_wr_ne _ _ _ _ hidh, State.rd_wr_ne _ _ _ _ hidl, State.rd_wr_ne _ _ _ _ hlen,
    State.rd_wr_ne _ _ _ _ hbase]

/-- The stored fields of a well-formed SCHEDULE of a mode read as the container has them. -/
theorem scheduleStored_rd (hm : b.target < 8) (hok : scheduleOk b.body = true) :
    (scheduleStored b v).rd (Reg.ANV_MODEn_BASE b.target) = b.body.getD 2 0 ∧
    (scheduleStored b v).rd (Reg.ANV_MODEn_LENM1 b.target) = b.body.getD 3 0 ∧
    (scheduleStored b v).rd (Reg.FDL_Mm_IDL b.target) = (sha384 (b.body.drop (16 + 4 * (b.body.getD 3 0 + 1)))).getD 0 0 ∧
    (scheduleStored b v).rd (Reg.FDL_Mm_IDH b.target) = (sha384 (b.body.drop (16 + 4 * (b.body.getD 3 0 + 1)))).getD 1 0 := by
  obtain ⟨hbase, hlen⟩ : b.body.getD 2 0 < 2 ^ 13 ∧ b.body.getD 3 0 < 2 ^ 11 := by
    simp only [scheduleOk, Bool.and_eq_true, decide_eq_true_eq] at hok
    omega
  have hdistinct : ∀ m : Fin 8, (scheduleFlds m).Pairwise fun f g => g.key ≠ f.key := by decide
  have hne := hdistinct ⟨b.target, hm⟩
  simp only [scheduleFlds, List.pairwise_cons, List.forall_mem_cons, List.not_mem_nil, false_implies, implies_true, and_true,
    List.Pairwise.nil] at hne
  obtain ⟨⟨hlb, hib, hhb⟩, ⟨hil, hhl⟩, hhi⟩ := hne
  have hrd := State.rd_congr (scheduleStored_regs b v)
  refine ⟨?_, ?_, ?_, ?_⟩
  · rw [hrd, spanStored, State.rd_wr_ne _ _ _ _ hhb, State.rd_wr_ne _ _ _ _ hib, State.rd_wr_ne _ _ _ _ hlb, State.rd_wr_self]
    exact Nat.mod_eq_of_lt hbase
  · rw [hrd, spanStored, State.rd_wr_ne _ _ _ _ hhl, State.rd_wr_ne _ _ _ _ hil, State.rd_wr_self]
    exact Nat.mod_eq_of_lt hlen
  · rw [hrd, spanStored, State.rd_wr_ne _ _ _ _ hhi, State.rd_wr_self]
    exact Nat.mod_eq_of_lt (sha384_lt _ 0)
  · rw [hrd, spanStored, State.rd_wr_self]
    exact Nat.mod_eq_of_lt (sha384_lt _ 1)

end

theorem scheduleCleared_frame (b : Container) (s : State) :
    ∃ r x, scheduleCleared b s = { s with regs := r, anv := { s.anv with validating := x } } := by
  obtain ⟨r, h⟩ := modeInvalid_frame b.target s
  obtain ⟨⟨r', x, hall⟩, -, -⟩ := outOfServices (s.overlapped b.target (b.body.getD 2 0, b.body.getD 3 0 + 1)) (modeInvalid b.target s)
  exact ⟨r', x, hall.trans (by rw [h])⟩

theorem scheduleLoad_exec {c : Container} {src : CrucSrc} {s : State} (h : s.passes 4 src (s.contents src c)) :
    exec (.scheduleLoad c) s = done (passed scheduleEff src (s.contents src c) s) := by
  have hup : s.crucUp = true := h.1
  show execScheduleLoad c s = _
  unfold execScheduleLoad
  rw [if_neg (by simp [hup])]
  exact crucible_passes h scheduleEff

section
variable (c : Container) (src : CrucSrc) (s : State) (hpass : s.passes 4 src (s.contents src c))
include hpass

theorem scheduleLoad_badLayout (hok : scheduleOk (s.contents src c).body = false) :
    Completes (.scheduleLoad c) s (Verdict src (s.contents src c) 0x0C 0x31 s) := by
  refine completes_of_settleAll (scheduleLoad_exec hpass) ?_
  rw [passed_verdict (scheduleEff_badLayout _ s hok)]
  exact verdict_settled src _ 0x0C 0x31 s (by decide) (by decide)

theorem scheduleLoad_busy (hok : scheduleOk (s.contents src c).body = true) (hbusy : s.scheduleBusy (s.contents src c)) :
    Completes (.scheduleLoad c) s fun t =>
      t.rd Reg.SEC_LAST = 0x0D + (s.contents src c).target % 8 * 2 ^ 16 ∧ t.on Reg.ANV_STAT_EDIT_DENIED = true ∧ t.pends 22 = true ∧
      t.pends 225 = true ∧ t.anv = s.anv ∧ t.fdl = s.fdl ∧
      t.sec = { s.sec with queue := s.sec.queue.drop 1, sched := none, accepted := none } := by
  obtain ⟨hmal, htype⟩ := passes_type hpass (by decide)
  generalize hb : s.contents src c = b at hpass hok hbusy hmal htype
  have hexec : exec (.scheduleLoad c) s = done (verdict src b 0x0D 0 (irq 22 (s.put Reg.ANV_STAT_EDIT_DENIED true))) := by
    rw [← passed_verdict (scheduleEff_busy b s hok hbusy), ← hb]
    exact scheduleLoad_exec (by rw [hb]; exact hpass)
  have hirq : OnlyFaults (s.put Reg.ANV_STAT_EDIT_DENIED true) (irq 22 (s.put Reg.ANV_STAT_EDIT_DENIED true)) := .irq _ 22 (by decide)
  have hpend := irq_pends 22 (s.put Reg.ANV_STAT_EDIT_DENIED true) (by decide)
  generalize irq 22 (s.put Reg.ANV_STAT_EDIT_DENIED true) = u at hexec hirq hpend
  refine completes_of_settleAll hexec ?_
  have hverdict := verdict_settled src b 0x0D 0 u (by decide) (by decide)
  have hkeeps := verdict_keeps_pending src b 0x0D 0 22 u (by decide) hpend
  generalize settleAll (verdict src b 0x0D 0 u) = t at hverdict hkeeps
  obtain ⟨hlast, hsec, -, -, hpend', hbeside, -, -, -, -, -, hrd⟩ := hverdict
  have hseal : b.type ≠ ctSEALED := by rw [htype]; decide
  have hfields : t.anv = u.anv ∧ t.fdl = u.fdl := by
    simp only [State.besideReport, Prod.mk.injEq] at hbeside
    obtain ⟨-, -, -, hanv, -, -, -, -, -, -, -, -, -, -, -, hfdl, -⟩ := hbeside
    exact ⟨hanv, hfdl⟩
  refine ⟨?_, ?_, hkeeps, hpend', hfields.1.trans hirq.anv, hfields.2.trans hirq.fdl, ?_⟩
  · rw [hlast, if_pos ⟨hmal, .inr (.inr htype)⟩, Nat.zero_mul, Nat.add_zero]
  · rw [State.on, hrd _ (by decide) (by decide) (by decide) (by decide) (fun h => absurd h.2.1 hseal)]
    exact (hirq.on _ (by decide)).trans (s.on_put_self _ _ rfl)
  · rw [hsec, if_neg (fun h => hseal h.2.1), if_neg (fun h => absurd h.2.2 (by decide)), hirq.sec]
    rfl

theorem scheduleLoad_writes (hok : scheduleOk (s.contents src c).body = true) (hbusy : ¬ s.scheduleBusy (s.contents src c)) :
    let b := s.contents src c
    let m := b.target
    let w := fun i => b.body.getD i 0
    Completes (.scheduleLoad c) s fun t =>
        t.anv.table = SMap.setMany 0 s.anv.table (w 2) (entriesOf (w 3 + 1) (b.body.drop 16)) ∧
        t.fdl.region = SMap.setMany 0 s.fdl.region (1024 * m) (b.body.drop (16 + 4 * (w 3 + 1))) ∧
        SMap.get (0, 0) t.fdl.signed m = (w 0, w 1) ∧
        t.rd (Reg.ANV_MODEn_BASE m) = w 2 ∧ t.rd (Reg.ANV_MODEn_LENM1 m) = w 3 ∧
        t.rd (Reg.FDL_Mm_IDL m) = (sha384 (b.body.drop (16 + 4 * (w 3 + 1)))).getD 0 0 ∧
        t.rd (Reg.FDL_Mm_IDH m) = (sha384 (b.body.drop (16 + 4 * (w 3 + 1)))).getD 1 0 ∧
        m ∈ t.anv.validating ∧ m ∈ t.anv.written ∧ t.sec = { s.sec with sched := some m } ∧ t.time = s.time ∧ t.eng = s.eng ∧ t.axs = s.axs ∧
        t.on (Reg.ANV_VALn_VALID m) = false ∧
        ∀ j < 8, t.bit Reg.ANV_STAT_VALID j = (s.bit Reg.ANV_STAT_VALID j && decide (j ≠ m) &&
          ! ((s.overlapped m (w 2, w 3 + 1)).map Prod.fst).contains j) := by
  intro b m w
  have hm : m < 8 := target_lt (passes_type hpass (by decide)).1
  obtain ⟨-, hbits, hoff⟩ := outOfServices (s.overlapped m (w 2, w 3 + 1)) (modeInvalid m s)
  obtain ⟨v, hv⟩ : ∃ v, v = scheduleCleared b s := ⟨_, rfl⟩
  obtain ⟨r0, x0, hcleared⟩ := scheduleCleared_frame b s
  have hcleared' : v = _ := hv.trans hcleared
  have hbits' : ∀ j < 8, v.bit Reg.ANV_STAT_VALID j = ((modeInvalid m s).bit Reg.ANV_STAT_VALID j &&
      ! ((s.overlapped m (w 2, w 3 + 1)).map Prod.fst).contains j) := by rw [hv]; exact hbits
  have hoff' : v.on (Reg.ANV_VALn_VALID m) = false := by
    rw [hv]; exact hoff m (modeInvalid_off m m s (.inr rfl))
  have hexec : exec (.scheduleLoad c) s = done (setSec { (scheduleStored b v).sec with sched := some m } (fdlRefresh (scheduleStored b v))) := by
    rw [hv, ← passed_none (src := src) (scheduleEff_written b s hok hbusy)]
    exact scheduleLoad_exec hpass
  obtain ⟨r2, hstored⟩ := scheduleStored_frame b v
  have hrd := scheduleStored_rd b v hm hok
  have hkeep := scheduleStored_rd_ne b v
  obtain ⟨u, hu⟩ : ∃ u, u = scheduleStored b v := ⟨_, rfl⟩
  rw [← hu] at hstored hrd hkeep hexec
  obtain ⟨r, f, hrefresh, hrefreshed⟩ := fdlRefresh_effect u
  obtain ⟨cold, good, misses, hfdl⟩ := fdlRefresh_fdl u
  refine completes_of_done hexec fun t ht => ?_
  have hof : OnlyFaults (setSec { u.sec with sched := some m } { u with regs := r, fdl := f }) t := (hrefresh.setSec _).trans ht.1
  have htfdl : t.fdl = (fdlRefresh u).fdl := ht.1.fdl
  have hregs : ∀ g, Fld.ofFaults g = false → Reg.FDL_STAT_ROLE.key ≠ g.key → Reg.FDL_STAT_SSTATE.key ≠ g.key → t.rd g = u.rd g :=
    fun g hg hrole hstate => (hof.rd g hg).trans (hrefreshed g hrole hstate)
  have htanv : t.anv = u.anv := hof.anv
  have hflds : ∀ k : Fin 8, ∀ g ∈ Reg.ANV_VALn_VALID k :: scheduleFlds k,
      Fld.ofFaults g = false ∧ Reg.FDL_STAT_ROLE.key ≠ g.key ∧ Reg.FDL_STAT_SSTATE.key ≠ g.key := by decide +kernel
  have hread : ∀ g ∈ Reg.ANV_VALn_VALID m :: scheduleFlds m, t.rd g = u.rd g := fun g hg => by
    obtain ⟨hfaults, hrole, hstate⟩ := hflds ⟨m, hm⟩ g hg
    exact hregs g hfaults hrole hstate
  have hvalid : ∀ k : Fin 8, ∀ g ∈ scheduleFlds k, g.key ≠ (Reg.ANV_VALn_VALID k).key ∧ g.key ≠ Reg.ANV_STAT_VALID.key := by
    decide +kernel
  obtain ⟨hbase, hlen, hidl, hidh⟩ := hrd
  refine ⟨?_, ?_, ?_, (hread _ (by simp [scheduleFlds])).trans hbase, (hread _ (by simp [scheduleFlds])).trans hlen,
    (hread _ (by simp [scheduleFlds])).trans hidl, (hread _ (by simp [scheduleFlds])).trans hidh, ?_, ?_, ?_, ?_, ?_, ?_, ?_,
    fun j hj => ?_⟩
  · rw [htanv, hstored, hcleared']
  · rw [htfdl, hfdl, hstored, hcleared']
  · rw [htfdl, hfdl, hstored]
    exact (SMap.get_set ..).trans (if_pos rfl)
  · rw [htanv, hstored]; exact List.mem_cons_self
  · rw [htanv, hstored]; exact List.mem_cons_self
  · rw [hof.sec, hstored, hcleared']; rfl
  · rw [hof.time, hstored, hcleared']; rfl
  · rw [hof.eng, hstored, hcleared']; rfl
  · rw [hof.axs, hstored, hcleared']; rfl
  · rw [State.on, hread _ (by simp), hkeep _ fun g hg => (hvalid ⟨m, hm⟩ g hg).1]
    exact hoff'
  · rw [State.bit, hregs _ (by decide) (by decide) (by decide), hkeep _ fun g hg => (hvalid ⟨m, hm⟩ g hg).2]
    refine (hbits' j hj).trans ?_
    rw [modeInvalid_bit m j s hj]
    by_cases h : m = j
    · simp [h]
    · simp [h, Ne.symm h]

end

end Sys2Proof.Machine
end

section
/-! The verdict when a mode has been validated (O44; R52, R325). -/
namespace Sys2Proof.Machine

/-! ### The codes of the checks -/

theorem find_code_le {α : Type} (l : List (Nat × α)) (p : Nat × α → Bool) (n : Nat) (c : Nat × α)
    (h : l.find? p = some c) (hl : ∀ x ∈ l.map Prod.fst, x ≤ n) : c.1 ≤ n :=
  hl _ (List.mem_map_of_mem (List.mem_of_find?_eq_some h))

theorem progCheck_le (s : State) (m : Nat) (ecc : Option Nat) : (s.progCheck m ecc).1 ≤ 14 := by
  unfold State.progCheck
  dsimp only
  split
  · next code e h =>
    have hle := find_code_le _ _ 14 _ h (show ∀ x ∈ [0x1, 0x2, 0x3, 0x4, 0x5, 0x6, 0x7, 0x8, 0x9, 0xA, 0xB, 0xC, 0xD, 0xE], x ≤ 14 by decide)
    exact hle
  · decide

theorem regionCheck_le (s : State) (m : Nat) : (s.regionCheck m).1 ≤ 8 := by
  unfold State.regionCheck
  dsimp only
  split
  · next c h =>
    have hle := find_code_le _ _ 8 _ h (show ∀ x ∈ [1, 2, 3, 4, 5, 6, 7, 8], x ≤ 8 by decide)
    exact hle
  · decide

/-! ### What a validation records -/

/-- CODE of the validation: that of the frame program, and 0xF where only the region fails. -/
def State.shownCode (s : State) (m : Nat) (ecc : Option Nat) : Nat :=
  if (s.progCheck m ecc).1 = 0 ∧ (s.regionCheck m).1 ≠ 0 then 0xF else (s.progCheck m ecc).1

/-- Both parts pass. -/
abbrev State.modeGood (s : State) (m : Nat) (ecc : Option Nat) : Prop := (s.progCheck m ecc).1 = 0 ∧ (s.regionCheck m).1 = 0

theorem shownCode_lt (s : State) (m : Nat) (ecc : Option Nat) : s.shownCode m ecc < 2 ^ 4 := by
  have := progCheck_le s m ecc
  unfold State.shownCode
  split <;> omega

theorem shownCode_zero (s : State) (m : Nat) (ecc : Option Nat) : s.shownCode m ecc = 0 ↔ s.modeGood m ecc := by
  unfold State.shownCode
  split
  · next h => simp [h.2]
  · next h => exact ⟨fun h0 => ⟨h0, by_contra fun hr => h ⟨h0, hr⟩⟩, And.left⟩

/-- The codes of both parts of the validation of mode m, and its VALID bits. -/
def codesShown (m shown rcode rslot : Nat) (s : State) : State :=
  let s := (s.wr (Reg.FDL_Mm_VAL_CODE m) rcode).wr (Reg.FDL_Mm_VAL_SLOT m) rslot
  let s := setAnv { s.anv with validating := s.anv.validating.filter (· ≠ m) } s
  ((s.wrBit Reg.ANV_STAT_VALID m (decide (shown = 0))).put (Reg.ANV_VALn_VALID m) (decide (shown = 0))).wr (Reg.ANV_VALn_CODE m) shown

/-- The entry that a validation of mode m names, or a free value. -/
def entryShown (m shown : Nat) (entry : Option Nat) (s : State) : State :=
  if shown = 0 then s.wr (Reg.ANV_VALn_ENTRY m) 0
  else match entry with
    | some i => s.wr (Reg.ANV_VALn_ENTRY m) i
    | none => s.free.2.wr (Reg.ANV_VALn_ENTRY m) (s.free.1 % 2048)

/-- What a validation of mode m records. -/
def validated (m : Nat) (ecc : Option Nat) (s : State) : State :=
  entryShown m (s.shownCode m ecc) (s.progCheck m ecc).2 (codesShown m (s.shownCode m ecc) (s.regionCheck m).1 (s.regionCheck m).2 s)

theorem validate_eq (m : Nat) (ecc : Option Nat) (s : State) : validate m ecc s = irq 21 (validated m ecc s) := by
  unfold validate validated State.shownCode
  generalize s.progCheck m ecc = prog
  generalize s.regionCheck m = reg
  obtain ⟨code, entry⟩ := prog
  obtain ⟨rcode, rslot⟩ := reg
  rfl

theorem codesShown_frame (m shown rcode rslot : Nat) (s : State) : ∃ r, codesShown m shown rcode rslot s =
    { s with regs := r, anv := { s.anv with validating := s.anv.validating.filter (· ≠ m) } } := ⟨_, rfl⟩

theorem entryShown_frame (m shown : Nat) (entry : Option Nat) (s : State) : ∃ r n, entryShown m shown entry s = { s with regs := r, fresh := n } := by
  unfold entryShown
  split
  · exact ⟨_, _, rfl⟩
  · split
    · exact ⟨_, _, rfl⟩
    · exact ⟨_, _, rfl⟩

theorem validated_frame (m : Nat) (ecc : Option Nat) (s : State) : ∃ r n, validated m ecc s =
    { s with regs := r, fresh := n, anv := { s.anv with validating := s.anv.validating.filter (· ≠ m) } } := by
  obtain ⟨r, hcodes⟩ := codesShown_frame m (s.shownCode m ecc) (s.regionCheck m).1 (s.regionCheck m).2 s
  obtain ⟨r', n, hentry⟩ := entryShown_frame m (s.shownCode m ecc) (s.progCheck m ecc).2
    (codesShown m (s.shownCode m ecc) (s.regionCheck m).1 (s.regionCheck m).2 s)
  exact ⟨r', n, hentry.trans (by rw [hcodes])⟩

theorem entryShown_rd_ne (m shown : Nat) (entry : Option Nat) (s : State) (f : Fld) (hf : (Reg.ANV_VALn_ENTRY m).key ≠ f.key) :
    (entryShown m shown entry s).rd f = s.rd f := by
  unfold entryShown
  split
  · exact State.rd_wr_ne _ _ _ _ hf
  · split
    · exact State.rd_wr_ne _ _ _ _ hf
    · exact (State.rd_wr_ne s.free.2 _ _ _ hf).trans rfl

theorem entryShown_entry (m shown i : Nat) (s : State) (hshown : shown ≠ 0) (hi : i < 2048) :
    (entryShown m shown (some i) s).rd (Reg.ANV_VALn_ENTRY m) = i := by
  rw [entryShown, if_neg hshown]
  exact (State.rd_wr_self ..).trans (Nat.mod_eq_of_lt hi)

/-- The fields that a validation of mode m shows are distinct. -/
theorem validated_distinct (m : Nat) : [Reg.FDL_Mm_VAL_CODE m, Reg.FDL_Mm_VAL_SLOT m, Reg.ANV_STAT_VALID, Reg.ANV_VALn_VALID m,
    Reg.ANV_VALn_CODE m].Pairwise (fun f g => m < 8 → g.key ≠ f.key) := by
  simp only [List.pairwise_cons, List.forall_mem_cons, List.not_mem_nil, false_implies, implies_true, and_true, List.Pairwise.nil,
    Reg.FDL_Mm_VAL_CODE, Reg.FDL_Mm_VAL_SLOT, Reg.ANV_STAT_VALID, Reg.ANV_VALn_VALID, Reg.ANV_VALn_CODE]
  omega

theorem codesShown_rd (m shown rcode rslot : Nat) (s : State) (hm : m < 8) (hshown : shown < 2 ^ 4) :
    (codesShown m shown rcode rslot s).rd (Reg.FDL_Mm_VAL_CODE m) = rcode % 2 ^ 4 ∧
    (codesShown m shown rcode rslot s).bit Reg.ANV_STAT_VALID m = decide (shown = 0) ∧
    (codesShown m shown rcode rslot s).on (Reg.ANV_VALn_VALID m) = decide (shown = 0) ∧
    (codesShown m shown rcode rslot s).rd (Reg.ANV_VALn_CODE m) = shown := by
  have hdistinct := validated_distinct m
  simp only [List.pairwise_cons, List.forall_mem_cons, List.not_mem_nil, false_implies, implies_true, and_true, List.Pairwise.nil, hm,
    true_implies] at hdistinct
  obtain ⟨⟨hslot, hstat, hvalid, hcode⟩, -, ⟨hvalidStat, hcodeStat⟩, hcodeValid⟩ := hdistinct
  unfold codesShown
  dsimp only
  refine ⟨?_, ?_, ?_, (State.rd_wr_self ..).trans (Nat.mod_eq_of_lt hshown)⟩
  · rw [State.rd_wr_ne _ _ _ _ hcode, State.rd_put_ne _ _ _ _ hvalid, State.wrBit, State.rd_wr_ne _ _ _ _ hstat]
    exact (State.rd_wr_ne (s.wr _ _) _ _ _ hslot).trans (State.rd_wr_self ..)
  · rw [State.bit_wr_ne _ _ _ _ _ hcodeStat, State.put, State.bit_wr_ne _ _ _ _ _ hvalidStat, State.bit_wrBit _ _ _ _ _ _ rfl hm, if_pos rfl]
  · rw [State.on_wr_ne _ _ _ _ hcodeValid]
    exact State.on_put_self _ _ _ rfl

/-- The fields that a validation of a mode shows (R52, R325). -/
theorem validated_rd (m : Nat) (ecc : Option Nat) (s : State) (hm : m < 8) : let t := validated m ecc s
    t.rd (Reg.FDL_Mm_VAL_CODE m) = (s.regionCheck m).1 % 2 ^ 4 ∧ t.bit Reg.ANV_STAT_VALID m = decide (s.shownCode m ecc = 0) ∧
    t.on (Reg.ANV_VALn_VALID m) = decide (s.shownCode m ecc = 0) ∧ t.rd (Reg.ANV_VALn_CODE m) = s.shownCode m ecc := by
  have hentry : ∀ m : Fin 8, ∀ f ∈ [Reg.FDL_Mm_VAL_CODE m, Reg.ANV_STAT_VALID, Reg.ANV_VALn_VALID m, Reg.ANV_VALn_CODE m],
      (Reg.ANV_VALn_ENTRY m).key ≠ f.key := by decide
  have hkeep : ∀ f ∈ [Reg.FDL_Mm_VAL_CODE m, Reg.ANV_STAT_VALID, Reg.ANV_VALn_VALID m, Reg.ANV_VALn_CODE m],
      (validated m ecc s).rd f = (codesShown m (s.shownCode m ecc) (s.regionCheck m).1 (s.regionCheck m).2 s).rd f :=
    fun f hf => entryShown_rd_ne _ _ _ _ f (hentry ⟨m, hm⟩ f hf)
  obtain ⟨hrcode, hstat, hvalid, hcode⟩ := codesShown_rd m (s.shownCode m ecc) (s.regionCheck m).1 (s.regionCheck m).2 s hm (shownCode_lt s m ecc)
  exact ⟨(hkeep _ (by simp)).trans hrcode, (congrArg (tb · m) (hkeep _ (by simp))).trans hstat,
    (congrArg (fun v => decide (v = 1)) (hkeep _ (by simp))).trans hvalid, (hkeep _ (by simp)).trans hcode⟩

/-! ### The verdict of a validation -/

/-- The container whose verdict tells how the validation of mode m ended. -/
def validationOf (m : Nat) : Container where
  hdr := [0x4C554C42, BitVec.ofNat 32 (1 + ctSCHEDULE * 2 ^ 16), 16, 0, 0, BitVec.ofNat 32 (m * 2 ^ 16)]
  payload := []
  sig := []
  rsaOk := true
  slhOk := true

theorem validationOf_type (m : Nat) : (validationOf m).type = ctSCHEDULE := by
  show bits (BitVec.toNat (BitVec.ofNat 32 (1 + ctSCHEDULE * 2 ^ 16))) 16 8 = ctSCHEDULE
  decide

theorem validationOf_spec : ∀ m : Fin 8, (validationOf m).malformed = false ∧ (validationOf m).target = m := by decide

/-- CHECK of the verdict for the codes that a mode shows. -/
def validationCheck (code rcode : Nat) : Nat := if code ≠ 0 ∧ code ≠ 0xF then 0x10 + code else 0x40 + rcode

theorem validationDone_exec (ecc : Option (Fin 2048)) (s : State) (m : Nat) (src : CrucSrc) (rest : List CrucSrc) (hlive : s.live pdCRUC = true)
    (hsched : s.sec.sched = some m) (hq : s.sec.queue = src :: rest) : let u := fdlRefresh (validate m (ecc.map Fin.val) s)
    exec (.validationDone ecc) s = done (if u.rd (Reg.ANV_VALn_CODE m) = 0 then verdict src (validationOf m) 0 0 u
      else verdict src (validationOf m) 0x0C (validationCheck (u.rd (Reg.ANV_VALn_CODE m)) (u.rd (Reg.FDL_Mm_VAL_CODE m))) u) := by
  show execValidationDone ecc s = _
  unfold execValidationDone
  rw [if_neg (by simp [hlive]), hsched, hq]
  rfl

theorem validationDone_idle (ecc : Option (Fin 2048)) (s : State) (h : s.sec.sched = none ∨ s.sec.queue = []) :
    exec (.validationDone ecc) s = .next s := by
  show execValidationDone ecc s = _
  unfold execValidationDone
  split
  · rfl
  · rcases h with h | h
    · rw [h]
    · cases hs : s.sec.sched with
      | none => rfl
      | some m => rw [h]

end Sys2Proof.Machine
end

section
/-! The end of a validation (O44; R52, R325). -/
namespace Sys2Proof.Machine

/-- The fields that a validation of mode m shows. -/
def validationFlds (m : Nat) : List Fld :=
  [Reg.FDL_Mm_VAL_CODE m, Reg.ANV_STAT_VALID, Reg.ANV_VALn_VALID m, Reg.ANV_VALn_CODE m, Reg.ANV_VALn_ENTRY m]

section
variable (m : Nat) (ecc : Option Nat) (s : State)

/-- Fudorlink looks again once the validation is recorded: what it changes of the rest of the device. -/
theorem validate_refreshed : let u := fdlRefresh (validate m ecc s)
    u.sec = s.sec ∧ u.time = s.time ∧ u.anv = { s.anv with validating := s.anv.validating.filter (· ≠ m) } ∧ u.pends 21 = true ∧
    ∀ f, Fld.ofFaults f = false → Reg.FDL_STAT_ROLE.key ≠ f.key → Reg.FDL_STAT_SSTATE.key ≠ f.key → u.rd f = (validated m ecc s).rd f := by
  intro u
  have hirq : OnlyFaults (validated m ecc s) (validate m ecc s) := by rw [validate_eq]; exact .irq _ 21 (by decide)
  have hpend : (validate m ecc s).pends 21 = true := by rw [validate_eq]; exact irq_pends 21 _ (by decide)
  obtain ⟨r, n, hframe⟩ := validated_frame m ecc s
  obtain ⟨r', f', hrefresh, hkeep⟩ := fdlRefresh_effect (validate m ecc s)
  have hpend' : ({ validate m ecc s with regs := r', fdl := f' } : State).pends 21 = true := by
    rw [State.pends, State.bit, hkeep _ (by decide) (by decide)]; exact hpend
  refine ⟨?_, ?_, ?_, hrefresh.pends 21 (by decide) hpend', fun f hf hrole hstate => ?_⟩
  · rw [hrefresh.sec]; show (validate m ecc s).sec = _; rw [hirq.sec, hframe]
  · rw [hrefresh.time]; show (validate m ecc s).time = _; rw [hirq.time, hframe]
  · rw [hrefresh.anv]; show (validate m ecc s).anv = _; rw [hirq.anv, hframe]
  · exact (hrefresh.rd f hf).trans ((hkeep f hrole hstate).trans (hirq.rd f hf))

theorem validate_refreshed_rd (hm : m < 8) : let u := fdlRefresh (validate m ecc s)
    u.rd (Reg.FDL_Mm_VAL_CODE m) = (s.regionCheck m).1 ∧ u.bit Reg.ANV_STAT_VALID m = decide (s.modeGood m ecc) ∧
    u.on (Reg.ANV_VALn_VALID m) = decide (s.modeGood m ecc) ∧ u.rd (Reg.ANV_VALn_CODE m) = s.shownCode m ecc ∧
    ∀ i, (s.progCheck m ecc).1 ≠ 0 → (s.progCheck m ecc).2 = some i → i < 2048 → u.rd (Reg.ANV_VALn_ENTRY m) = i := by
  intro u
  obtain ⟨-, -, -, -, hrd⟩ := validate_refreshed m ecc s
  obtain ⟨hrcode, hstat, hvalid, hcode⟩ := validated_rd m ecc s hm
  have hflds : ∀ m : Fin 8, ∀ f ∈ validationFlds m, Fld.ofFaults f = false ∧ Reg.FDL_STAT_ROLE.key ≠ f.key ∧ Reg.FDL_STAT_SSTATE.key ≠ f.key := by
    decide +kernel
  have hread : ∀ f ∈ validationFlds m, u.rd f = (validated m ecc s).rd f := fun f hf => by
    obtain ⟨hfaults, hrole, hstate⟩ := hflds ⟨m, hm⟩ f hf
    exact hrd f hfaults hrole hstate
  have hregion : (s.regionCheck m).1 % 2 ^ 4 = (s.regionCheck m).1 := Nat.mod_eq_of_lt (Nat.lt_of_le_of_lt (regionCheck_le s m) (by decide))
  have hgood : decide (s.shownCode m ecc = 0) = decide (s.modeGood m ecc) := decide_eq_decide.mpr (shownCode_zero s m ecc)
  refine ⟨(hread _ (by simp [validationFlds])).trans (hrcode.trans hregion), (congrArg (tb · m) (hread _ (by simp [validationFlds]))).trans (hstat.trans hgood),
    (congrArg (fun v => decide (v = 1)) (hread _ (by simp [validationFlds]))).trans (hvalid.trans hgood), (hread _ (by simp [validationFlds])).trans hcode,
    fun i hprog hentry hi => ?_⟩
  have hshown : s.shownCode m ecc ≠ 0 := fun h => hprog ((shownCode_zero s m ecc).mp h).1
  rw [hread _ (by simp [validationFlds]), validated, hentry]
  exact entryShown_entry m _ i _ hshown hi

end

/-- CODE and CHECK of the verdict on a validation. -/
def State.validationCodes (s : State) (m : Nat) (ecc : Option Nat) : Nat × Nat :=
  if s.modeGood m ecc then (0, 0) else (0x0C, validationCheck (s.shownCode m ecc) (s.regionCheck m).1)

theorem shownCode_eq (s : State) (m : Nat) (ecc : Option Nat) : s.shownCode m ecc =
    if s.modeGood m ecc then 0 else if (s.progCheck m ecc).1 ≠ 0 then (s.progCheck m ecc).1 else 0xF := by
  unfold State.shownCode
  by_cases h : (s.progCheck m ecc).1 = 0
  · by_cases hreg : (s.regionCheck m).1 = 0
    · rw [if_neg fun hand => hand.2 hreg, if_pos ⟨h, hreg⟩, h]
    · rw [if_pos ⟨h, hreg⟩, if_neg fun hand => hreg hand.2, if_neg (not_not.mpr h)]
  · rw [if_neg fun hand => h hand.1, if_neg fun hand => h hand.1, if_pos h]

theorem validationCodes_word (s : State) (m : Nat) (ecc : Option Nat) :
    (s.validationCodes m ecc).1 + (s.validationCodes m ecc).2 * 2 ^ 8 =
      if s.modeGood m ecc then 0 else if (s.progCheck m ecc).1 ≠ 0 then 0x0C + (0x10 + (s.progCheck m ecc).1) * 2 ^ 8
      else 0x0C + (0x40 + (s.regionCheck m).1) * 2 ^ 8 := by
  have hprog := progCheck_le s m ecc
  unfold State.validationCodes validationCheck
  by_cases hgood : s.modeGood m ecc
  · rw [if_pos hgood, if_pos hgood]; rfl
  · rw [if_neg hgood, if_neg hgood, shownCode_eq, if_neg hgood]
    by_cases h : (s.progCheck m ecc).1 = 0
    · rw [if_neg (not_not.mpr h), if_neg (by decide), if_neg (not_not.mpr h)]
    · rw [if_pos h, if_pos ⟨h, by omega⟩, if_pos h]

theorem validationDone_verdict (ecc : Option (Fin 2048)) (s : State) (m : Nat) (src : CrucSrc) (rest : List CrucSrc)
    (hlive : s.live pdCRUC = true) (hsched : s.sec.sched = some m) (hq : s.sec.queue = src :: rest) :
    ∃ code check, exec (.validationDone ecc) s =
        done (verdict src (validationOf m) code check (fdlRefresh (validate m (ecc.map Fin.val) s))) ∧
      (m < 8 → (code, check) = s.validationCodes m (ecc.map Fin.val)) := by
  have hexec := validationDone_exec ecc s m src rest hlive hsched hq
  have hshows := validate_refreshed_rd m (ecc.map Fin.val) s
  generalize fdlRefresh (validate m (ecc.map Fin.val) s) = u at hexec hshows
  dsimp only at hexec hshows
  by_cases hcode : u.rd (Reg.ANV_VALn_CODE m) = 0
  · rw [if_pos hcode] at hexec
    refine ⟨0, 0, hexec, fun hm => ?_⟩
    obtain ⟨-, -, -, hshown, -⟩ := hshows hm
    rw [State.validationCodes, if_pos ((shownCode_zero s m _).mp (hshown.symm.trans hcode))]
  · rw [if_neg hcode] at hexec
    refine ⟨_, _, hexec, fun hm => ?_⟩
    obtain ⟨hregion, -, -, hshown, -⟩ := hshows hm
    rw [State.validationCodes, if_neg fun hgood => hcode (hshown.trans ((shownCode_zero s m _).mpr hgood)), hshown, hregion]

theorem validationCodes_lt (s : State) (m : Nat) (ecc : Option Nat) :
    (s.validationCodes m ecc).1 < 2 ^ 8 ∧ (s.validationCodes m ecc).2 < 2 ^ 8 := by
  have hshown := shownCode_lt s m ecc
  have hregion := regionCheck_le s m
  unfold State.validationCodes validationCheck
  split
  · decide
  · refine ⟨show 12 < 2 ^ 8 by decide, ?_⟩
    dsimp only
    split <;> omega

/-- The verdict on a validation, and what the validation shows (R52, R325). -/
theorem validationDone_validates (ecc : Option (Fin 2048)) (s : State) (m : Nat) (src : CrucSrc) (rest : List CrucSrc) (hlive : s.live pdCRUC = true)
    (hsched : s.sec.sched = some m) (hq : s.sec.queue = src :: rest) :
    let prog := s.progCheck m (ecc.map Fin.val)
    let reg := s.regionCheck m
    let good := prog.1 = 0 ∧ reg.1 = 0
    Completes (.validationDone ecc) s fun t =>
      t.sec = { s.sec with queue := rest, sched := none, accepted := none } ∧ t.pends 225 = true ∧ t.pends 21 = true ∧
      t.time = s.time ∧ t.anv = { s.anv with validating := s.anv.validating.filter (· ≠ m) } ∧
      (m < 8 → t.rd Reg.SEC_LAST = (if good then 0 else if prog.1 ≠ 0 then 0x0C + (0x10 + prog.1) * 2 ^ 8 else 0x0C + (0x40 + reg.1) * 2 ^ 8) + m * 2 ^ 16 ∧
        t.bit Reg.ANV_STAT_VALID m = decide good ∧ t.on (Reg.ANV_VALn_VALID m) = decide good ∧
        t.rd (Reg.ANV_VALn_CODE m) = (if good then 0 else if prog.1 ≠ 0 then prog.1 else 0xF) ∧
        t.rd (Reg.FDL_Mm_VAL_CODE m) = reg.1 % 2 ^ 4 ∧
        ∀ i, prog.1 ≠ 0 → prog.2 = some i → i < 2048 → t.rd (Reg.ANV_VALn_ENTRY m) = i) := by
  intro prog reg good
  obtain ⟨code, check, hexec, hcodes⟩ := validationDone_verdict ecc s m src rest hlive hsched hq
  obtain ⟨hsec, htime, hanv, hpend, -⟩ := validate_refreshed m (ecc.map Fin.val) s
  have hshows := validate_refreshed_rd m (ecc.map Fin.val) s
  generalize fdlRefresh (validate m (ecc.map Fin.val) s) = u at hexec hsec htime hanv hpend hshows
  refine completes_of_settleAll hexec ?_
  have hseal : (validationOf m).type ≠ ctSEALED ∧ (validationOf m).type ≠ ctENGINE := by rw [validationOf_type]; decide
  have hbeside := verdict_besideReport src (validationOf m) code check u
  simp only [State.besideReport, Prod.mk.injEq] at hbeside
  obtain ⟨htime', -, -, hanv', -⟩ := hbeside
  refine ⟨?_, verdict_pends src _ code check u, verdict_keeps_pending src _ code check 21 u (by decide) hpend, htime'.trans htime,
    hanv'.trans hanv, fun hm => ?_⟩
  · rw [verdict_sec, verdictBar, if_neg fun h => hseal.1 h.2.1, if_neg fun h => hseal.2 h.2.1, hsec, hq]
    rfl
  obtain ⟨hregion, hstat, hvalid, hcode, hentry⟩ := hshows hm
  obtain ⟨hmal, htarget⟩ := validationOf_spec ⟨m, hm⟩
  have hpair := hcodes hm
  obtain ⟨hcodeLt, hcheckLt⟩ := validationCodes_lt s m (ecc.map Fin.val)
  rw [← hpair] at hcodeLt hcheckLt
  have hword := validationCodes_word s m (ecc.map Fin.val)
  rw [← hpair] at hword
  have hverdict := verdict_settled src (validationOf m) code check u hcodeLt hcheckLt
  generalize settleAll (verdict src (validationOf m) code check u) = t at hverdict ⊢
  obtain ⟨hlast, -, -, -, -, -, -, -, -, -, -, hrd⟩ := hverdict
  have hblocks : ∀ m : Fin 8, ∀ f ∈ validationFlds m, Fld.ofFaults f = false ∧ f.key / 0x80000 ≠ 0x400C ∧ f.key / 0x80000 ≠ 0x4012 ∧
      f.key / 0x80000 ≠ 0x4013 := by decide +kernel
  have hread : ∀ f ∈ validationFlds m, t.rd f = u.rd f := fun f hf => by
    obtain ⟨hfaults, hhif, hdbg, hcruc⟩ := hblocks ⟨m, hm⟩ f hf
    exact hrd f hfaults hhif hdbg hcruc fun h => absurd h.2.1 hseal.1
  refine ⟨?_, (congrArg (tb · m) (hread _ (by simp [validationFlds]))).trans hstat,
    (congrArg (fun v => decide (v = 1)) (hread _ (by simp [validationFlds]))).trans hvalid,
    (hread _ (by simp [validationFlds])).trans (hcode.trans (shownCode_eq s m _)), ?_,
    fun i hprog hi hlt => (hread _ (by simp [validationFlds])).trans (hentry i hprog hi hlt)⟩
  · rw [hlast, if_pos ⟨hmal, .inr (.inr (validationOf_type m))⟩, htarget, hword]
    rw [Nat.mod_eq_of_lt hm]
  · rw [hread _ (by simp [validationFlds]), hregion]
    exact (Nat.mod_eq_of_lt (Nat.lt_of_le_of_lt (regionCheck_le s m) (by decide))).symm

end Sys2Proof.Machine
end

section
/-! IMAGE (O44; R451, R452, R454). -/
namespace Sys2Proof.Machine

/-! ### The boot control block through the two generations of an IMAGE -/

/-- The block in force depends on the two copies in flash only (R451). -/
theorem bcbNow_of_copies {s t : State} (h0 : t.sec.bcb0 = s.sec.bcb0) (h1 : t.sec.bcb1 = s.sec.bcb1) : t.bcbNow = s.bcbNow := by
  rw [State.bcbNow, State.bcb_eq, h0, h1]; rfl

theorem newBcb_gens (g : Bcb → Bcb) (s : State) (h0 : s.sec.bcb0.gen < 2 ^ 32) (h1 : s.sec.bcb1.gen < 2 ^ 32) :
    (newBcb g s).sec.bcb0.gen < 2 ^ 32 ∧ (newBcb g s).sec.bcb1.gen < 2 ^ 32 := by
  have hnext : ∀ n : Nat, n % 2 ^ 32 < 2 ^ 32 := fun n => Nat.mod_lt n (by decide)
  unfold newBcb
  dsimp only
  split
  · exact ⟨h0, hnext _⟩
  · exact ⟨hnext _, h1⟩

theorem Bcb.next_gen (g : Bcb → Bcb) (b : Bcb) : (Bcb.next g b).gen = (b.gen + 1) % 2 ^ 32 := rfl

theorem Bcb.next_st (g : Bcb → Bcb) (b : Bcb) (slot : Nat) : (Bcb.next g b).st slot = (g b).st slot := rfl

theorem Bcb.next_att (g : Bcb → Bcb) (b : Bcb) (slot : Nat) : (Bcb.next g b).att slot = (g b).att slot := rfl

theorem Bcb.next_prefer (g : Bcb → Bcb) (b : Bcb) : (Bcb.next g b).prefer = (g b).prefer := rfl

theorem Bcb.st_setSt_other (b : Bcb) {slot other : Nat} (v : Nat) (h : slot = 0 ↔ other ≠ 0) : (b.setSt slot v).st other = b.st other := by
  unfold Bcb.setSt Bcb.st
  by_cases h0 : slot = 0
  · rw [if_pos h0, if_neg (h.mp h0), if_neg (h.mp h0)]
  · rw [if_neg h0, if_pos (not_not.mp (mt h.mpr h0)), if_pos (not_not.mp (mt h.mpr h0))]

theorem Bcb.st_setAtt (b : Bcb) (slot v n : Nat) : (b.setAtt slot v).st n = b.st n := by
  unfold Bcb.setAtt; split <;> rfl

/-- The slot on trial and preferred. -/
def Bcb.onTrial (slot : Nat) (b : Bcb) : Bcb := { (b.setSt slot bsTRIAL).setAtt slot 255 with prefer := slot }

theorem Bcb.onTrial_st (slot n : Nat) (b : Bcb) : (b.onTrial slot).st n = (b.setSt slot bsTRIAL).st n := Bcb.st_setAtt _ slot 255 n

theorem Bcb.onTrial_att (slot : Nat) (b : Bcb) : (b.onTrial slot).att slot = 255 := Bcb.att_setAtt _ slot 255

/-! ### What an IMAGE does -/

/-- The slot that is not booted, EMPTY. -/
def slotEmptied (slot : Nat) (s : State) : State := newBcb (·.setSt slot bsEMPTY) s

/-- A container written into a slot. -/
def slotWritten (slot : Nat) (c : Container) (s : State) : State :=
  setSec (if slot = 0 then { s.sec with slotA := some c } else { s.sec with slotB := some c }) s

/-- An IMAGE written into a slot, which is then on trial. -/
def imageStored (slot : Nat) (c : Container) (s : State) : State := newBcb (·.onTrial slot) (slotWritten slot c (slotEmptied slot s))

section
variable (c : Container) (s : State)

theorem imageEff_trial (flashOk : Bool) (h : s.bcbNow.st (s.sec.booted.getD 0) = bsTRIAL) : imageEff flashOk c s = (some (0x0D, 0), s) := by
  unfold imageEff
  dsimp only
  rw [if_pos h]

theorem imageEff_bad (flashOk : Bool) (h : s.bcbNow.st (s.sec.booted.getD 0) ≠ bsTRIAL) (hok : c.imageOk = false) :
    imageEff flashOk c s = (some (0x0C, 0), s) := by
  unfold imageEff
  dsimp only
  rw [if_neg h, hok]
  rfl

theorem imageEff_failed (h : s.bcbNow.st (s.sec.booted.getD 0) ≠ bsTRIAL) (hok : c.imageOk = true) :
    imageEff false c s = (some (0x10, 0), slotEmptied (1 - s.sec.booted.getD 0) s) := by
  unfold imageEff
  dsimp only
  rw [if_neg h, hok]
  rfl

theorem imageEff_stored (h : s.bcbNow.st (s.sec.booted.getD 0) ≠ bsTRIAL) (hok : c.imageOk = true) :
    imageEff true c s = (some (0, 0), imageStored (1 - s.sec.booted.getD 0) c s) := by
  unfold imageEff
  dsimp only
  rw [if_neg h, hok]
  rfl

end

theorem slotEmptied_now (slot : Nat) (s : State) (h0 : s.sec.bcb0.gen < 2 ^ 32) (h1 : s.sec.bcb1.gen < 2 ^ 32) :
    (slotEmptied slot s).bcbNow.st slot = bsEMPTY := by
  rw [slotEmptied, newBcb_now _ s h0 h1, Bcb.next_st]
  exact Bcb.st_setSt ..

theorem slotWritten_copies (slot : Nat) (c : Container) (s : State) :
    (slotWritten slot c s).sec.bcb0 = s.sec.bcb0 ∧ (slotWritten slot c s).sec.bcb1 = s.sec.bcb1 := by
  unfold slotWritten
  split <;> exact ⟨rfl, rfl⟩

/-- The block in force once an IMAGE is stored, two generations on (R451, R454). -/
theorem imageStored_now (slot : Nat) (c : Container) (s : State) (h0 : s.sec.bcb0.gen < 2 ^ 32) (h1 : s.sec.bcb1.gen < 2 ^ 32) :
    (imageStored slot c s).bcbNow = Bcb.next (·.onTrial slot) (Bcb.next (·.setSt slot bsEMPTY) s.bcbNow) := by
  obtain ⟨hcopy0, hcopy1⟩ := slotWritten_copies slot c (slotEmptied slot s)
  obtain ⟨hgen0, hgen1⟩ := newBcb_gens (·.setSt slot bsEMPTY) s h0 h1
  rw [imageStored, newBcb_now _ _ (by rw [hcopy0]; exact hgen0) (by rw [hcopy1]; exact hgen1), bcbNow_of_copies hcopy0 hcopy1, slotEmptied,
    newBcb_now _ s h0 h1]

theorem slotEmptied_frame (slot : Nat) (s : State) : ∃ a b, slotEmptied slot s = s.withBcb a b := ⟨_, _, newBcb_frame _ s⟩

theorem imageStored_frame (slot : Nat) (c : Container) (s : State) : ∃ a b, imageStored slot c s = (slotWritten slot c s).withBcb a b := by
  obtain ⟨a, b, h⟩ := slotEmptied_frame slot s
  obtain ⟨x, y, hnew⟩ : ∃ x y, imageStored slot c s = (slotWritten slot c (slotEmptied slot s)).withBcb x y := ⟨_, _, newBcb_frame _ _⟩
  refine ⟨x, y, hnew.trans ?_⟩
  rw [h]
  unfold slotWritten
  split <;> rfl

/-! ### The verdict of an IMAGE -/

theorem imageLoad_exec {c : Container} {flashOk : Bool} {src : CrucSrc} {s : State} (h : s.passes 1 src (s.contents src c)) :
    exec (.imageLoad c flashOk) s = done (passed (imageEff flashOk) src (s.contents src c) s) := by
  have hup : s.crucUp = true := h.1
  show execImageLoad c flashOk s = _
  unfold execImageLoad
  rw [if_neg (by simp [hup])]
  exact crucible_passes h (imageEff flashOk)

/-- CODE of a verdict on an IMAGE, and what Crucible holds after it. -/
theorem verdict_image (src : CrucSrc) {b : Container} (code : Nat) (u : State) (hcode : code < 2 ^ 8) (htype : b.type = ctIMAGE) :
    let t := settleAll (verdict src b code 0 u)
    t.rd Reg.SEC_LAST = code ∧ t.sec = { u.sec with queue := u.sec.queue.drop 1, sched := none, accepted := none } ∧
    t.bcbNow = u.bcbNow := by
  intro t
  obtain ⟨hlast, hsec, -⟩ := verdict_settled src b code 0 u hcode (by decide)
  refine ⟨?_, hsec.trans ?_, bcbNow_of_copies (hsec ▸ rfl) (hsec ▸ rfl)⟩
  · refine hlast.trans ?_
    rw [htype, if_neg fun h => absurd h.2 (by decide)]
    omega
  · rw [if_neg fun h => absurd (htype.symm.trans h.2.1) (by decide), if_neg fun h => absurd (htype.symm.trans h.2.1) (by decide)]

section
variable (c : Container) (src : CrucSrc) (s : State) (hpass : s.passes 1 src (s.contents src c))
include hpass

theorem imageLoad_refused (flashOk : Bool) (code : Nat) (hcode : code < 2 ^ 8)
    (heff : imageEff flashOk (s.contents src c) s = (some (code, 0), s)) :
    Completes (.imageLoad c flashOk) s (Verdict src (s.contents src c) code 0 s) := by
  refine completes_of_settleAll (imageLoad_exec hpass) ?_
  rw [passed_verdict heff]
  exact verdict_settled src _ code 0 s hcode (by decide)

theorem imageLoad_fails (htrial : s.bcbNow.st (s.sec.booted.getD 0) ≠ bsTRIAL) (hok : (s.contents src c).imageOk = true) :
    Completes (.imageLoad c false) s fun t =>
      t.rd Reg.SEC_LAST = 0x10 ∧ t.sec.slotA = s.sec.slotA ∧ t.sec.slotB = s.sec.slotB ∧
        (s.sec.bcb0.gen < 2 ^ 32 → s.sec.bcb1.gen < 2 ^ 32 → t.bcbNow.st (1 - s.sec.booted.getD 0) = bsEMPTY) ∧
        t.sec.queue = s.sec.queue.drop 1 := by
  refine completes_of_settleAll (imageLoad_exec hpass) ?_
  obtain ⟨-, htype⟩ := passes_type hpass (by decide)
  obtain ⟨x, y, hframe⟩ := slotEmptied_frame (1 - s.sec.booted.getD 0) s
  rw [passed_verdict (imageEff_failed _ s htrial hok)]
  obtain ⟨hlast, hsec, hbcb⟩ := verdict_image src 0x10 (slotEmptied (1 - s.sec.booted.getD 0) s) (by decide) htype
  refine ⟨hlast, ?_, ?_, fun h0 h1 => ?_, ?_⟩
  · rw [hsec, hframe]; rfl
  · rw [hsec, hframe]; rfl
  · rw [hbcb]
    exact slotEmptied_now _ s h0 h1
  · rw [hsec, hframe]; rfl

theorem imageLoad_stores (htrial : s.bcbNow.st (s.sec.booted.getD 0) ≠ bsTRIAL) (hok : (s.contents src c).imageOk = true) :
    let b := s.contents src c
    let slot := 1 - s.sec.booted.getD 0
    Completes (.imageLoad c true) s fun t =>
        t.rd Reg.SEC_LAST = 0 ∧ t.sec.queue = s.sec.queue.drop 1 ∧ t.sec.booted = s.sec.booted ∧ t.sec.image = s.sec.image ∧
        (if slot = 0 then t.sec.slotA = some b ∧ t.sec.slotB = s.sec.slotB else t.sec.slotB = some b ∧ t.sec.slotA = s.sec.slotA) ∧
        (s.sec.bcb0.gen < 2 ^ 32 → s.sec.bcb1.gen < 2 ^ 32 →
        t.bcbNow.st slot = bsTRIAL ∧ t.bcbNow.att slot = 255 ∧ t.bcbNow.prefer = slot ∧
        t.bcbNow.st (1 - slot) = s.bcbNow.st (1 - slot) ∧ t.bcbNow.gen = (s.bcbNow.gen + 2) % 2 ^ 32) := by
  intro b slot
  refine completes_of_settleAll (imageLoad_exec hpass) ?_
  obtain ⟨-, htype⟩ := passes_type hpass (by decide)
  obtain ⟨x, y, hframe⟩ := imageStored_frame slot b s
  rw [passed_verdict (imageEff_stored _ s htrial hok)]
  obtain ⟨hlast, hsec, hbcb⟩ := verdict_image src 0 (imageStored slot b s) (by decide) htype
  have hother : slot = 0 ↔ 1 - slot ≠ 0 := by omega
  have hslots : (slotWritten slot b s).sec = if slot = 0 then { s.sec with slotA := some b } else { s.sec with slotB := some b } := rfl
  refine ⟨hlast, ?_, ?_, ?_, ?_, fun h0 h1 => ?_⟩
  · rw [hsec, hframe]
    show (slotWritten slot b s).sec.queue.drop 1 = _
    rw [hslots]; split <;> rfl
  · rw [hsec, hframe]
    show (slotWritten slot b s).sec.booted = _
    rw [hslots]; split <;> rfl
  · rw [hsec, hframe]
    show (slotWritten slot b s).sec.image = _
    rw [hslots]; split <;> rfl
  · rw [hsec, hframe]
    show if slot = 0 then (slotWritten slot b s).sec.slotA = some b ∧ (slotWritten slot b s).sec.slotB = s.sec.slotB
      else (slotWritten slot b s).sec.slotB = some b ∧ (slotWritten slot b s).sec.slotA = s.sec.slotA
    rw [hslots]
    split <;> exact ⟨rfl, rfl⟩
  · rw [hbcb, imageStored_now slot b s h0 h1, Bcb.next_st, Bcb.next_st,
      Bcb.next_att, Bcb.next_prefer, Bcb.next_gen, Bcb.next_gen, Bcb.onTrial_st, Bcb.onTrial_st, Bcb.onTrial_att, Bcb.st_setSt,
      Bcb.st_setSt_other _ _ hother, Bcb.next_st, Bcb.st_setSt_other _ _ hother]
    refine ⟨rfl, rfl, rfl, rfl, ?_⟩
    omega

end

/-- Settles O44: the container that passes meets the branch of its content, and Crucible's verdict settles as the statements say. -/
theorem schedulesAndImages : Obligations.SchedulesAndImages := by
  unfold Obligations.SchedulesAndImages
  refine ⟨fun c src s => ?_, fun ecc s hlive => ?_, fun c flashOk src s => ?_⟩
  · intro b hpass
    by_cases hok : scheduleOk b.body = false
    · simpa only [if_pos hok] using scheduleLoad_badLayout c src s hpass hok
    by_cases hbusy : s.scheduleBusy b
    · have hbusy' := hbusy
      unfold State.scheduleBusy at hbusy'
      simpa only [if_neg hok, if_pos hbusy'] using scheduleLoad_busy c src s hpass (by simpa using hok) hbusy
    · have hbusy' := hbusy
      unfold State.scheduleBusy at hbusy'
      simpa only [if_neg hok, if_neg hbusy'] using scheduleLoad_writes c src s hpass (by simpa using hok) hbusy
  · cases hsched : s.sec.sched with
    | none => exact completes_of_next (validationDone_idle ecc s (.inl hsched)) rfl
    | some m =>
      cases hq : s.sec.queue with
      | nil => exact completes_of_next (validationDone_idle ecc s (.inr hq)) rfl
      | cons src rest => exact validationDone_validates ecc s m src rest hlive hsched hq
  · intro b hpass
    by_cases htrial : s.bcbNow.st (s.sec.booted.getD 0) = bsTRIAL
    · simpa only [if_pos htrial] using imageLoad_refused c src s hpass flashOk 0x0D (by decide) (imageEff_trial b s flashOk htrial)
    by_cases hok : b.imageOk = false
    · simpa only [if_neg htrial, if_pos hok] using
        imageLoad_refused c src s hpass flashOk 0x0C (by decide) (imageEff_bad b s flashOk htrial hok)
    have hok' : b.imageOk = true := by simpa using hok
    cases flashOk with
    | false => simpa only [if_neg htrial, if_neg hok, if_pos] using imageLoad_fails c src s hpass htrial hok'
    | true => simpa only [if_neg htrial, if_neg hok, Bool.true_eq_false, if_false] using imageLoad_stores c src s hpass htrial hok'

end Sys2Proof.Machine
end

section
/-! Power good leaves the rails as they stood (O52; R518, R534). -/
namespace Sys2Proof.Machine

/-- The start of the device with no rail at power good yet. -/
def noRailUp : State := { State.reset with pwr := { State.reset.pwr with mode := .starting, rails := [] } }

/-- The rails at power good after a command. -/
def railsAfter (c : Instr) (s : State) : List Rail :=
  match exec c s with
  | .next t => t.pwr.rails
  | _ => []

/-- POWER_GOOD resets the device with the rails of the state before them all rose. -/
theorem railsAfter_powerGood : railsAfter (.powerGood true true 0) noRailUp = [] := by decide +kernel

/-- Refutes O52: from a start with no rail at power good POWER_GOOD leads to Run with none, since the reset of the start keeps
the rails of the state before `railsUp`; the statement has all five. -/
theorem not_powerStatesAndStart : ¬ Obligations.PowerStatesAndStart := by
  unfold Obligations.PowerStatesAndStart
  intro h
  obtain ⟨-, -, -, -, -, -, -, hgood, -⟩ := h
  obtain ⟨t, hexec, ht⟩ := hgood true true 0 noRailUp
  rw [if_neg (by decide)] at ht
  obtain ⟨-, -, -, -, hrails, -⟩ := ht
  have hall : t.pwr.rails = [.v5, .vsram, .vcore, .vio18, .vio33] := hrails rfl
  have hnone : t.pwr.rails = [] := by
    have hafter := railsAfter_powerGood
    rw [railsAfter, hexec] at hafter
    exact hafter
  rw [hnone] at hall
  cases hall

end Sys2Proof.Machine
end

section
/-! Bus accesses to engine data memory (O55): a bus error of a closed path that leads to further bus errors. -/
namespace Sys2Proof.Machine

/-- The PCIe host has no path to the engine window: its write is a bus error, whose FAULT event meets two more at a ring outside
shared SRAM, and all three count (R253, R353, R368, R410). -/
theorem countAfter_hostWrite_eventRingOutsideSram :
    countAfter (.dataMemoryWrite .host 0 0 0) Fc.BUS_ERROR eventRingOutsideSram = 3 := by
  decide +kernel

/-- Out of reset with the low engines' domain on, but with no path for the PCIe host to them. -/
theorem eventRingOutsideSram_hostClosed : let s := eventRingOutsideSram
    s.runs = true ∧ s.domState pdCEL = dmON ∧ s.pathOpen .host true 0x42000000 = false ∧ s.calm := by
  decide +kernel

/-- The part of O55 that is refuted: a data-memory write of the PCIe host counts one BUS_ERROR. -/
theorem hostWrite_count_of_engineMemoryAndDomainOn (h : Obligations.EngineMemoryAndDomainOn) (s : State)
    (hclosed : s.runs = true ∧ s.domState pdCEL = dmON ∧ s.pathOpen .host true 0x42000000 = false ∧ s.calm) :
    ∃ t, exec (.dataMemoryWrite .host 0 0 0) s = .next t ∧
      SMap.get 0 t.fcu.count Fc.BUS_ERROR = min (SMap.get 0 s.fcu.count Fc.BUS_ERROR + 1) 255 := by
  unfold Obligations.EngineMemoryAndDomainOn at h
  obtain ⟨access, -⟩ := h
  obtain ⟨hruns, hon, hpath, hcalm⟩ := hclosed
  obtain ⟨⟨t, hexec, -, -, -, herror⟩, -⟩ := access .host 0 0 0 s hruns hon (.inl rfl)
  rw [if_neg fun hopen => Bool.false_ne_true (hpath.symm.trans hopen.1)] at herror
  exact ⟨t, hexec, herror.2 hcalm⟩

/-- Refutes O55: a data-memory write that is a bus error need not leave the COUNT of BUS_ERROR one higher in a calm state. Where
device events are enabled and their ring lies in internal memory outside shared SRAM, the event of the fault is itself two bus
errors of the ring unit, and the COUNT goes from 0 to 3. -/
theorem not_engineMemoryAndDomainOn : ¬ Obligations.EngineMemoryAndDomainOn := by
  intro h
  obtain ⟨t, hexec, hone⟩ := hostWrite_count_of_engineMemoryAndDomainOn h eventRingOutsideSram eventRingOutsideSram_hostClosed
  have hthree := countAfter_hostWrite_eventRingOutsideSram
  rw [countAfter, hexec] at hthree
  exact absurd (hone.symm.trans hthree) (by decide +kernel)

end Sys2Proof.Machine
end

section
/-! The words of a control engine: their signed values, saturation, and reading after an instruction's writes (O6, O7; R96 to R98, R100). -/
namespace Sys2Proof.Machine

/-! ### Signed words -/

/-- A value of one 32-bit data word. -/
abbrev InWord (x : Int) : Prop := -2147483648 ≤ x ∧ x ≤ 2147483647

/-- The nearest value of a data word (R96), and whether saturation changes a value (R97). -/
abbrev satWord (x : Int) : Int := max (-2147483648) (min 2147483647 x)
abbrev overflows (x : Int) : Bool := decide (satWord x ≠ x)

/-- The low 32 bits of a value. -/
abbrev lowWord (x : Int) : Nat := (x % 2 ^ 32).toNat

/-- The value an accumulator holds (R98). -/
abbrev heldAcc (x : Int) : Int := max (-(2 ^ 79)) (min (2 ^ 79 - 1) x)

/-- scale(p, h) before saturation (R96). -/
abbrev scaled (p h : Int) : Int := if h > 0 then (p + 2 ^ (h.toNat - 1)) / 2 ^ h.toNat else p * 2 ^ (-h).toNat

theorem sext_inWord (v : Nat) : InWord (sext 32 v) := by
  unfold sext InWord; split <;> omega

theorem sext_trunc {x : Int} (h : InWord x) : sext 32 (trunc 32 x) = x := by
  unfold sext trunc InWord at *; split <;> omega

theorem trunc_sext (v : Nat) : trunc 32 (sext 32 v) = v % 2 ^ 32 := by
  unfold sext trunc; split <;> omega

theorem trunc_natCast (v : Nat) : trunc 32 v = v % 2 ^ 32 := by
  unfold trunc; omega

theorem lowWord_eq_trunc (x : Int) : lowWord x = trunc 32 x := by
  unfold lowWord trunc; omega

theorem trunc_lt (x : Int) : trunc 32 x < 2 ^ 32 := by
  unfold trunc; omega

theorem satWord_inWord (x : Int) : InWord (satWord x) := by
  unfold InWord satWord; omega

theorem satWord_of_inWord {x : Int} (h : InWord x) : satWord x = x := by
  unfold InWord satWord at *; omega

theorem sat32_eq (x : Int) : sat32 x = (satWord x, overflows x) := by
  have h : satS 32 x = satWord x := by
    unfold satS satWord; (repeat' split) <;> omega
  rw [sat32, h]

theorem sat32_of_inWord {x : Int} (h : InWord x) : sat32 x = (x, false) := by
  rw [sat32_eq, overflows, satWord_of_inWord h]; simp

theorem acc80_eq (x : Int) : acc80 x = (heldAcc x, decide (heldAcc x ≠ x)) := by
  have h : satS 80 x = heldAcc x := by
    unfold satS heldAcc; (repeat' split) <;> omega
  rw [acc80, h]

theorem ashr_eq (x : Int) (n : Nat) : ashr x n = x / 2 ^ n := by
  rw [ashr]; push_cast; rfl

theorem scale_eq (p h : Int) : scale p h = sat32 (scaled p h) := by
  rw [scale, scaleExact]
  simp only [ashr_eq, Nat.cast_pow, Nat.cast_ofNat]

theorem rnd30_eq (p : Int) : rnd30 p = sat32 ((p + 536870912) / 1073741824) := by
  rw [rnd30, ashr_eq]; norm_num

theorem EngSt.m_inWord (e : EngSt) (a : Nat) : InWord (e.m a) := sext_inWord _

theorem EngSt.v_inWord (e : EngSt) (k : Nat) : InWord (e.v k) := sext_inWord _

/-! ### The data words after a write -/

/-- Values at consecutive data words from a on. -/
abbrev wordsAt (a : Nat) (xs : List Int) : List (Nat × Int) := xs.mapIdx fun i x => (a + i, x)

/-- The write, if any, that names data word a; addresses lie in 14 bits. -/
abbrev writeTo (ws : List (Nat × Int)) (a : Nat) : Option Int := (ws.find? fun p => p.1 % 16384 = a % 16384).map Prod.snd

theorem writeTo_append (xs ys : List (Nat × Int)) (a : Nat) : writeTo (xs ++ ys) a = (writeTo xs a).or (writeTo ys a) := by
  unfold writeTo; rw [List.find?_append]; cases xs.find? _ <;> rfl

theorem writeTo_wordsAt_cons (d a : Nat) (x : Int) (xs : List Int) :
    writeTo (wordsAt d (x :: xs)) a = if d % 16384 = a % 16384 then some x else writeTo (wordsAt (d + 1) xs) a := by
  unfold writeTo wordsAt
  rw [List.mapIdx_cons, List.find?_cons]
  have hshift : (fun i x => ((d + (i + 1), x) : Nat × Int)) = fun i x => (d + 1 + i, x) := by
    funext i x; rw [Nat.add_assoc, Nat.add_comm 1 i]
  rw [hshift]
  by_cases h : d % 16384 = a % 16384
  · simp [h]
  · simp [h]

/-- Words from d on leave word a alone where none of them is it. -/
theorem writeTo_wordsAt_none (d a : Nat) (xs : List Int) (h : ∀ i < xs.length, a % 16384 ≠ (d + i) % 16384) :
    writeTo (wordsAt d xs) a = none := by
  induction xs generalizing d with
  | nil => rfl
  | cons x xs ih =>
    rw [writeTo_wordsAt_cons, if_neg fun e => h 0 (Nat.zero_lt_succ _) e.symm]
    exact ih (d + 1) fun i hi => by
      have := h (i + 1) (Nat.succ_lt_succ hi)
      rwa [Nat.add_assoc, Nat.add_comm 1 i]

/-- Word d + i of values written from d on. -/
theorem writeTo_wordsAt_some (d i : Nat) (xs : List Int) (hlen : xs.length ≤ 16384) (hi : i < xs.length) :
    writeTo (wordsAt d xs) (d + i) = some xs[i] := by
  induction xs generalizing d i with
  | nil => cases hi
  | cons x xs ih =>
    rw [writeTo_wordsAt_cons]
    rw [List.length_cons] at hlen hi
    cases i with
    | zero => rw [Nat.add_zero, if_pos rfl]; rfl
    | succ i =>
      rw [if_neg (by omega), show d + (i + 1) = d + 1 + i by omega]
      exact ih (d + 1) i (by omega) (by omega)

/-- A list of data words is written and nothing else of the engine changes. -/
theorem EngSt.put_frame (e : EngSt) (a : Nat) (xs : List Int) : e.put a xs = { e with data := (e.put a xs).data } := by
  induction xs generalizing e a with
  | nil => rfl
  | cons x xs ih =>
    rw [EngSt.put]
    exact ih _ _

/-- A data word after a list of words was written (R100). -/
theorem EngSt.m_put (e : EngSt) (d a : Nat) (xs : List Int) (hlen : xs.length ≤ 16384) (hxs : ∀ x ∈ xs, InWord x) :
    (e.put d xs).m a = (writeTo (wordsAt d xs) a).getD (e.m a) := by
  induction xs generalizing e d with
  | nil => rfl
  | cons x xs ih =>
    rw [List.length_cons] at hlen
    rw [EngSt.put, ih _ _ (by omega) fun y hy => hxs y (List.mem_cons_of_mem _ hy), writeTo_wordsAt_cons]
    have hfirst : EngSt.m { e with data := SMap.set 0 e.data (d % 16384) (trunc 32 x) } a =
        if d % 16384 = a % 16384 then x else e.m a := by
      rw [EngSt.m, SMap.get_set, EngSt.m]
      split
      · exact sext_trunc (hxs x (List.mem_cons_self ..))
      · rfl
    rw [hfirst]
    by_cases h : d % 16384 = a % 16384
    · rw [if_pos h, if_pos h, writeTo_wordsAt_none (d + 1) a xs fun i hi => by omega]
      rfl
    · rw [if_neg h, if_neg h]

theorem wordsAt_map_range (d n : Nat) (f : Nat → Int) :
    wordsAt d ((List.range n).map f) = (List.range n).map fun i => (d + i, f i) := by
  apply List.ext_getElem
  · simp
  · intro i _ _; simp

end Sys2Proof.Machine
end

section
/-! What each engine instruction does to its engine: the words, the accumulators and the flags it leaves (O6, O7; R96 to R109, R115). -/
namespace Sys2Proof.Machine

/-! ### Effects -/

/-- Engine e' is e with the words, accumulators and flags of x, before the program counter and the cycles count (R97, R98, R100). -/
structure EngEffect.Performs (x : EngEffect) (e e' : EngSt) : Prop where
  words : ∀ a, e'.m a = (writeTo x.writes a).getD (e.m a)
  frame : e' = { e with data := e'.data, acc0 := x.accs 0, acc1 := x.accs 1, acc2 := x.accs 2, acc3 := x.accs 3,
                        sat := e.sat || x.sat, fcst := e.fcst || x.fcst, ended := e.ended || x.ended }

/-- The instruction of the word at the program counter retires with its effect (R100, R110). -/
theorem EngEffect.Performs.leaves {x : EngEffect} {f : EngSt → Nat → EngSt} {e : EngSt} (h : x.Performs e (f e e.word))
    (hrun : e.ended = false) (hcycles : engCycles e e.word = x.cycles) : x.leaves e (engRetire f e) := by
  refine ⟨fun a => ?_, ?_⟩
  · have hword := h.words a
    show (f e e.word).m a = _
    rw [hword, writeTo]
    cases x.writes.find? _ <;> rfl
  · have hframe := h.frame
    rw [hrun] at hframe
    rw [engRetire, hcycles, hframe]
    rfl

/-- Results of the lanes 0 to MD, saturated (R97, R99). -/
abbrev laneEffect (e : EngSt) (w : Nat) (r : Nat → Int) : EngEffect where
  writes := (List.range (ewMd w + 1)).map fun i => (ewD w + i, satWord (r i))
  accs := e.acc
  sat := (List.range (ewMd w + 1)).any fun i => overflows (r i)

/-- One result at D, saturated; SAT follows where the scaling is loud (R97). -/
abbrev wordEffect (e : EngSt) (w : Nat) (r : Int) (loud : Bool) : EngEffect where
  writes := [(ewD w, satWord r)]
  accs := e.acc
  sat := overflows r && loud

/-- Two results at D and D + 1, saturated (R104, R105). -/
abbrev pairEffect (e : EngSt) (w cycles : Nat) (r q : Int) : EngEffect where
  cycles := cycles
  writes := [(ewD w, satWord r), (ewD w + 1, satWord q)]
  accs := e.acc
  sat := overflows r || overflows q

/-- A term added to the accumulator of each lane, held in 80 bits (R98). -/
abbrev accEffect (e : EngSt) (w : Nat) (r : Nat → Int) : EngEffect where
  accs := fun i => if i ≤ ewMd w then heldAcc (e.acc i + r i) else e.acc i
  sat := (List.range (ewMd w + 1)).any fun i => decide (heldAcc (e.acc i + r i) ≠ e.acc i + r i)

theorem ewMd_lt (w : Nat) : ewMd w < 4 := Nat.mod_lt _ (by decide)

theorem EngSt.satIf_false (e : EngSt) : e.satIf false = e := by rw [EngSt.satIf, Bool.or_false]

/-! ### Results written at D -/

/-- Words written from D on, with SAT. -/
theorem put_performs (e : EngSt) (d : Nat) (xs : List Int) (b : Bool) (hlen : xs.length ≤ 16384) (hxs : ∀ x ∈ xs, InWord x) :
    ({ writes := wordsAt d xs, accs := e.acc, sat := b } : EngEffect).Performs e ((e.put d xs).satIf b) where
  words a := e.m_put d a xs hlen hxs
  frame := by rw [EngSt.satIf, EngSt.put_frame e d xs, Bool.or_false, Bool.or_false]; rfl

/-- Words written from D on after a word at B: where B lies among them the word from D on stands (R109). -/
theorem put_put_performs (e : EngSt) (b d : Nat) (y : Int) (xs : List Int) (q : Bool) (hlen : xs.length ≤ 16384)
    (hy : InWord y) (hxs : ∀ x ∈ xs, InWord x) :
    ({ writes := wordsAt d xs ++ [(b, y)], accs := e.acc, sat := q } : EngEffect).Performs e
      (((e.put b [y]).put d xs).satIf q) where
  words a := by
    show ((e.put b [y]).put d xs).m a = _
    rw [EngSt.m_put _ d a xs hlen hxs, EngSt.m_put e b a [y] (by simp) (by simpa using hy), writeTo_append]
    cases writeTo (wordsAt d xs) a <;> rfl
  frame := by
    rw [EngSt.satIf, EngSt.put_frame (e.put b [y]) d xs, EngSt.put_frame e b [y], Bool.or_false, Bool.or_false]; rfl

/-- One word in range, written at D with SAT. -/
theorem wr1_performs_inWord (e : EngSt) (w : Nat) (x : Int) (b quiet : Bool) (hx : InWord x) :
    ({ writes := [(ewD w, x)], accs := e.acc, sat := b && ! quiet } : EngEffect).Performs e (wr1 e w (x, b) quiet) :=
  put_performs e (ewD w) [x] _ (by simp) (by simpa using hx)

theorem wr1_performs (e : EngSt) (w : Nat) (r : Int) (quiet : Bool) :
    (wordEffect e w r (! quiet)).Performs e (wr1 e w (sat32 r) quiet) := by
  rw [sat32_eq]
  exact wr1_performs_inWord e w (satWord r) (overflows r) quiet (satWord_inWord r)

theorem wrN_performs (e : EngSt) (w : Nat) (r : Nat → Int) (quiet : Bool) :
    ({ laneEffect e w r with sat := (laneEffect e w r).sat && ! quiet } : EngEffect).Performs e
      (wrN e w ((lanes w).map fun i => sat32 (r i)) quiet) := by
  have hlen : ((List.range (ewMd w + 1)).map fun i => satWord (r i)).length ≤ 16384 := by
    have := ewMd_lt w
    rw [List.length_map, List.length_range]; omega
  have hput := put_performs e (ewD w) ((List.range (ewMd w + 1)).map fun i => satWord (r i))
    ((laneEffect e w r).sat && ! quiet) hlen (by simpa using fun i _ => satWord_inWord (r i))
  rw [wordsAt_map_range] at hput
  have hwr : wrN e w ((lanes w).map fun i => sat32 (r i)) quiet =
      (e.put (ewD w) ((List.range (ewMd w + 1)).map fun i => satWord (r i))).satIf ((laneEffect e w r).sat && ! quiet) := by
    rw [wrN, List.map_map, List.any_map]
    simp only [Function.comp_def, sat32_eq]
    rfl
  rw [hwr]
  exact hput

theorem wrN_pair_performs (e : EngSt) (w cycles : Nat) (r q : Int) :
    (pairEffect e w cycles r q).Performs e (wrN e w [sat32 r, sat32 q] false) := by
  have hput := put_performs e (ewD w) [satWord r, satWord q] (overflows r || overflows q) (by simp)
    (by simpa using ⟨satWord_inWord r, satWord_inWord q⟩)
  rw [sat32_eq, sat32_eq, wrN]
  simp only [List.map_cons, List.map_nil, List.any_cons, List.any_nil, Bool.or_false, Bool.not_false, Bool.and_true]
  exact ⟨hput.words, hput.frame⟩

/-- A word in range needs no saturation. -/
theorem put_word_eq_wr1 (e : EngSt) (w : Nat) {x : Int} (hx : InWord x) : e.put (ewD w) [x] = wr1 e w (sat32 x) false := by
  rw [sat32_of_inWord hx, wr1, Bool.false_and, EngSt.satIf_false]

theorem put_lanes_eq_wrN (e : EngSt) (w : Nat) (r : Nat → Int) (hr : ∀ i, InWord (r i)) :
    e.put (ewD w) ((lanes w).map r) = wrN e w ((lanes w).map fun i => sat32 (r i)) false := by
  have hsat : (fun i => sat32 (r i)) = fun i => (r i, false) := funext fun i => sat32_of_inWord (hr i)
  have hany : ((lanes w).any fun _ => false) = false := List.any_eq_false.mpr fun _ _ => Bool.false_ne_true
  rw [hsat, wrN, List.map_map, List.any_map]
  simp only [Function.comp_def, Bool.not_false, Bool.and_true, hany, EngSt.satIf_false]

theorem put_word_performs (e : EngSt) (w : Nat) {x : Int} (hx : InWord x) : (wordEffect e w x true).Performs e (e.put (ewD w) [x]) := by
  rw [put_word_eq_wr1 e w hx]
  exact wr1_performs e w x false

theorem wrN_loud_performs (e : EngSt) (w : Nat) (r : Nat → Int) :
    (laneEffect e w r).Performs e (wrN e w ((lanes w).map fun i => sat32 (r i)) false) := by
  have h := wrN_performs e w r false
  rw [Bool.not_false, Bool.and_true] at h
  exact h

theorem put_lanes_performs (e : EngSt) (w : Nat) (r : Nat → Int) (hr : ∀ i, InWord (r i)) :
    (laneEffect e w r).Performs e (e.put (ewD w) ((lanes w).map r)) := by
  rw [put_lanes_eq_wrN e w r hr]
  exact wrN_loud_performs e w r

/-! ### The accumulators (R98) -/

/-- The engine with its four accumulators replaced and SAT set by b. -/
def EngSt.withAccs (e : EngSt) (f : Nat → Int) (b : Bool) : EngSt :=
  { e with acc0 := f 0, acc1 := f 1, acc2 := f 2, acc3 := f 3, sat := e.sat || b }

theorem EngSt.withAccs_self (e : EngSt) : e.withAccs e.acc false = e := by rw [withAccs, Bool.or_false]; rfl

theorem EngSt.acc_withAccs (e : EngSt) (f : Nat → Int) (b : Bool) {i : Nat} (hi : i < 4) : (e.withAccs f b).acc i = f i := by
  match i, hi with
  | 0, _ => rfl
  | 1, _ => rfl
  | 2, _ => rfl
  | 3, _ => rfl

theorem EngSt.setAcc_withAccs (e : EngSt) (f : Nat → Int) (b : Bool) (x : Int) {i : Nat} (hi : i < 4) :
    (e.withAccs f b).setAcc i x = e.withAccs (Function.update f i x) b := by
  match i, hi with
  | 0, _ => rfl
  | 1, _ => rfl
  | 2, _ => rfl
  | 3, _ => rfl

theorem EngSt.addAcc_withAccs (e : EngSt) (f : Nat → Int) (b : Bool) (x : Int) {i : Nat} (hi : i < 4) :
    (e.withAccs f b).addAcc i x =
      e.withAccs (Function.update f i (heldAcc (f i + x))) (b || decide (heldAcc (f i + x) ≠ f i + x)) := by
  rw [EngSt.addAcc, e.acc_withAccs f b hi, acc80_eq, e.setAcc_withAccs f b _ hi]
  simp only [EngSt.satIf, EngSt.withAccs, Bool.or_assoc]

/-- Accumulator i of each lane so far has its new value. -/
theorem update_below (f g : Nat → Int) (n : Nat) :
    Function.update (fun i => if i < n then f i else g i) n (f n) = fun i => if i < n + 1 then f i else g i := by
  funext i
  by_cases h : i = n
  · subst h; simp
  · rw [Function.update_of_ne h]
    simp only [Nat.lt_succ_iff_lt_or_eq, h, or_false]

/-- Terms that do not depend on the accumulators, added in ascending lanes. -/
theorem addAccs (e : EngSt) (p : EngSt → Nat → Int) (hp : ∀ f b, p (e.withAccs f b) = p e) (n : Nat) (hn : n ≤ 4) :
    (List.range n).foldl (fun e i => e.addAcc i (p e i)) e =
      e.withAccs (fun i => if i < n then heldAcc (e.acc i + p e i) else e.acc i)
        ((List.range n).any fun i => decide (heldAcc (e.acc i + p e i) ≠ e.acc i + p e i)) := by
  induction n with
  | zero => exact e.withAccs_self.symm
  | succ n ih =>
    rw [List.range_succ, List.foldl_append, ih (by omega), List.foldl_cons, List.foldl_nil, hp, e.addAcc_withAccs _ _ _ (by omega),
      if_neg (Nat.lt_irrefl n), update_below (fun i => heldAcc (e.acc i + p e i)) e.acc n, List.any_append, List.any_cons,
      List.any_nil, Bool.or_false]

theorem clearAccs (e : EngSt) (n : Nat) (hn : n ≤ 4) :
    (List.range n).foldl (fun e i => e.setAcc i 0) e = e.withAccs (fun i => if i < n then 0 else e.acc i) false := by
  induction n with
  | zero => exact e.withAccs_self.symm
  | succ n ih =>
    rw [List.range_succ, List.foldl_append, ih (by omega), List.foldl_cons, List.foldl_nil, e.setAcc_withAccs _ _ _ (by omega),
      update_below (fun _ => 0) e.acc n]

theorem withAccs_performs (e : EngSt) (f : Nat → Int) (b : Bool) :
    ({ accs := f, sat := b } : EngEffect).Performs e (e.withAccs f b) where
  words _ := rfl
  frame := by rw [EngSt.withAccs, Bool.or_false, Bool.or_false]

/-- A sum into the accumulators of the lanes. -/
theorem accLanes_eq (e : EngSt) (w : Nat) (p : EngSt → Nat → Int) (hp : ∀ f b, p (e.withAccs f b) = p e) :
    (lanes w).foldl (fun e i => e.addAcc i (p e i)) e = e.withAccs (accEffect e w (p e)).accs (accEffect e w (p e)).sat := by
  have := ewMd_lt w
  rw [lanes, ewLanes, addAccs e p hp _ (by omega)]
  simp only [Nat.lt_succ_iff]

theorem engACLR_eq (e : EngSt) (w : Nat) : engACLR e w = e.withAccs (fun i => if i ≤ ewMd w then 0 else e.acc i) false := by
  have := ewMd_lt w
  rw [engACLR, lanes, ewLanes, clearAccs e _ (by omega)]
  simp only [Nat.lt_succ_iff]

section
variable (e : EngSt) (w : Nat)

theorem engMACC_eq : let x := accEffect e w fun i => e.m (ewA w + i) * e.v (ewK w + i)
    engMACC e w = e.withAccs x.accs x.sat :=
  accLanes_eq e w (fun e i => e.m (ewA w + i) * e.v (ewK w + i)) fun _ _ => rfl

theorem engMACD_eq : let x := accEffect e w fun i => e.m (ewA w + i) * e.m (ewB w + i)
    engMACD e w = e.withAccs x.accs x.sat :=
  accLanes_eq e w (fun e i => e.m (ewA w + i) * e.m (ewB w + i)) fun _ _ => rfl

theorem engMSUD_eq : let x := accEffect e w fun i => -(e.m (ewA w + i) * e.m (ewB w + i))
    engMSUD e w = e.withAccs x.accs x.sat :=
  accLanes_eq e w (fun e i => -(e.m (ewA w + i) * e.m (ewB w + i))) fun _ _ => rfl

end

end Sys2Proof.Machine
end

section
/-! The effect of each engine instruction (O6, O7; R102 to R109, R115). -/
namespace Sys2Proof.Machine

theorem EngEffect.Performs.withCycles {x : EngEffect} {e e' : EngSt} (h : x.Performs e e') (n : Nat) :
    ({ x with cycles := n } : EngEffect).Performs e e' := ⟨h.words, h.frame⟩

section
variable (e : EngSt) (w : Nat)

/-! ### Moves, sums and scaled products (R102) -/

theorem engNOP_performs : ({ accs := e.acc } : EngEffect).Performs e e := by
  have h := withAccs_performs e e.acc false
  rwa [EngSt.withAccs_self] at h

theorem engEND_performs : ({ cycles := 2, accs := e.acc, ended := true } : EngEffect).Performs e { e with ended := true } where
  words _ := rfl
  frame := by simp only [Bool.or_false, Bool.or_true]; rfl

theorem engMOV_performs : (laneEffect e w fun i => e.m (ewA w + i)).Performs e (engMOV e w) :=
  put_lanes_performs e w _ fun _ => e.m_inWord _

theorem engLDK_performs : (wordEffect e w (e.v (ewK w)) true).Performs e (engLDK e w) := put_word_performs e w (e.v_inWord _)

theorem engASH_performs : (wordEffect e w (scaled (e.m (ewA w)) (e.sh (ewK w))) (! e.quiet (ewK w))).Performs e (engASH e w) := by
  rw [engASH, scale_eq]
  exact wr1_performs e w _ _

theorem engADD_performs : (laneEffect e w fun i => e.m (ewA w + i) + e.m (ewB w + i)).Performs e (engADD e w) := wrN_loud_performs e w _

theorem engSUB_performs : (laneEffect e w fun i => e.m (ewA w + i) - e.m (ewB w + i)).Performs e (engSUB e w) := wrN_loud_performs e w _

theorem engNEG_performs : (wordEffect e w (- e.m (ewA w)) true).Performs e (engNEG e w) := wr1_performs e w _ false

theorem engABS_performs : (wordEffect e w (e.m (ewA w)).natAbs true).Performs e (engABS e w) := wr1_performs e w _ false

theorem engMULD_performs :
    (wordEffect e w (scaled (e.m (ewA w) * e.m (ewB w)) (e.sh (ewK w))) (! e.quiet (ewK w))).Performs e (engMULD e w) := by
  rw [engMULD, scale_eq]
  exact wr1_performs e w _ _

/-- The scaled product of a data word and its coefficient, before saturation (R102). -/
abbrev gainOf : Int := scaled (e.m (ewA w) * e.v (ewK w)) (e.sh (ewK w))

theorem engMULC_performs : (wordEffect e w (gainOf e w) (! e.quiet (ewK w))).Performs e (engMULC e w) := by
  rw [engMULC, scale_eq]
  exact wr1_performs e w _ _

theorem engAXPY_performs :
    ({ writes := [(ewD w, satWord (e.m (ewB w) + satWord (gainOf e w)))], accs := e.acc
       sat := (overflows (gainOf e w) || overflows (e.m (ewB w) + satWord (gainOf e w))) && ! e.quiet (ewK w) } : EngEffect).Performs e
      (engAXPY e w) := by
  rw [engAXPY, scale_eq, sat32_eq]
  dsimp only
  rw [sat32_eq]
  exact wr1_performs_inWord e w _ _ _ (satWord_inWord _)

/-! ### Accumulators (R98, R102) -/

theorem engACLR_performs : ({ accs := fun i => if i ≤ ewMd w then 0 else e.acc i } : EngEffect).Performs e (engACLR e w) := by
  rw [engACLR_eq]
  exact withAccs_performs e _ false

theorem engMACC_performs : (accEffect e w fun i => e.m (ewA w + i) * e.v (ewK w + i)).Performs e (engMACC e w) := by
  rw [engMACC_eq]
  exact withAccs_performs e _ _

theorem engMACD_performs : (accEffect e w fun i => e.m (ewA w + i) * e.m (ewB w + i)).Performs e (engMACD e w) := by
  rw [engMACD_eq]
  exact withAccs_performs e _ _

theorem engMSUD_performs : (accEffect e w fun i => -(e.m (ewA w + i) * e.m (ewB w + i))).Performs e (engMSUD e w) := by
  rw [engMSUD_eq]
  exact withAccs_performs e _ _

theorem engACST_performs : let x := laneEffect e w fun i => scaled (e.acc i) (e.sh (ewK w))
    ({ x with sat := x.sat && ! e.quiet (ewK w) } : EngEffect).Performs e (engACST e w) := by
  rw [engACST]
  simp only [scale_eq]
  exact wrN_performs e w _ _

theorem engACSM_performs :
    (wordEffect e w (scaled (e.acc 0 + e.acc 1 + e.acc 2 + e.acc 3) (e.sh (ewK w))) (! e.quiet (ewK w))).Performs e (engACSM e w) := by
  rw [engACSM, scale_eq]
  exact wr1_performs e w _ _

/-! ### Selection and logic (R102) -/

theorem engMIN_performs : (laneEffect e w fun i => min (e.m (ewA w + i)) (e.m (ewB w + i))).Performs e (engMIN e w) :=
  put_lanes_performs e w _ fun i => by
    have ha := e.m_inWord (ewA w + i)
    have hb := e.m_inWord (ewB w + i)
    unfold InWord at *; omega

theorem engMAX_performs : (laneEffect e w fun i => max (e.m (ewA w + i)) (e.m (ewB w + i))).Performs e (engMAX e w) :=
  put_lanes_performs e w _ fun i => by
    have ha := e.m_inWord (ewA w + i)
    have hb := e.m_inWord (ewB w + i)
    unfold InWord at *; omega

theorem clampI_inWord {x lo hi : Int} (hx : InWord x) (hlo : InWord lo) (hhi : InWord hi) : InWord (clampI x lo hi) := by
  unfold clampI InWord at *; omega

theorem engCLMP_performs : (wordEffect e w (clampI (e.m (ewA w)) (e.m (ewB w)) (e.m (ewB w + 1))) true).Performs e (engCLMP e w) :=
  put_word_performs e w (clampI_inWord (e.m_inWord _) (e.m_inWord _) (e.m_inWord _))

/-- The condition of SEL (R102). -/
abbrev selHolds (md : Nat) (x : Int) : Prop := if md = 0 then 0 ≤ x else if md = 1 then 0 < x else if md = 2 then x = 0 else x < 0

theorem selCond_iff (md : Nat) (x : Int) : selCond md x = true ↔ selHolds md x := by
  match md with
  | 0 => simp [selCond, selHolds]
  | 1 => simp [selCond, selHolds]
  | 2 => simp [selCond, selHolds]
  | n + 3 => simp [selCond, selHolds]

theorem engSEL_performs :
    (wordEffect e w (if selHolds (ewMd w) (e.m (ewD w)) then e.m (ewA w) else e.m (ewB w)) true).Performs e (engSEL e w) := by
  have hsel : engSEL e w = e.put (ewD w) [if selHolds (ewMd w) (e.m (ewD w)) then e.m (ewA w) else e.m (ewB w)] := by
    rw [engSEL, if_congr (selCond_iff _ _) rfl rfl]
  rw [hsel]
  refine put_word_performs e w ?_
  split
  · exact e.m_inWord _
  · exact e.m_inWord _

theorem engBits_performs (f : Nat → Nat → Nat) :
    (wordEffect e w (sext 32 (f (lowWord (e.m (ewA w))) (lowWord (e.m (ewB w))))) true).Performs e (engBits f e w) := by
  have hbits : engBits f e w = e.put (ewD w) [sext 32 (f (trunc 32 (e.m (ewA w))) (trunc 32 (e.m (ewB w))))] := by
    simp only [engBits, EngSt.put, trunc_sext, trunc_natCast]
  rw [hbits]
  exact put_word_performs e w (sext_inWord _)

/-! ### Transforms (R104 to R106) -/

theorem engCLARKE_performs_two (h : ewMd w = 0) :
    (pairEffect e w 3 (e.m (ewA w)) (((e.m (ewA w) + 2 * e.m (ewA w + 1)) * 619925131 + 536870912) / 1073741824)).Performs e
      (engCLARKE e w) := by
  rw [engCLARKE, if_pos h, rnd30_eq, ← sat32_of_inWord (e.m_inWord _)]
  exact wrN_pair_performs e w 3 _ _

theorem engCLARKE_performs_three (h : ewMd w ≠ 0) :
    (pairEffect e w 3
      (((2 * e.m (ewA w) - e.m (ewA w + 1) - e.m (ewA w + 2)) * 357913941 + 536870912) / 1073741824)
      (((e.m (ewA w + 1) - e.m (ewA w + 2)) * 619925131 + 536870912) / 1073741824)).Performs e (engCLARKE e w) := by
  rw [engCLARKE, if_neg h, rnd30_eq, rnd30_eq]
  exact wrN_pair_performs e w 3 _ _

theorem engPARK_performs :
    (pairEffect e w 2 ((e.m (ewA w) * e.m (ewB w + 1) + e.m (ewA w + 1) * e.m (ewB w) + 536870912) / 1073741824)
      ((e.m (ewA w + 1) * e.m (ewB w + 1) - e.m (ewA w) * e.m (ewB w) + 536870912) / 1073741824)).Performs e (engPARK e w) := by
  rw [engPARK, rnd30_eq, rnd30_eq]
  exact wrN_pair_performs e w 2 _ _

theorem engIPARK_performs :
    (pairEffect e w 2 ((e.m (ewA w) * e.m (ewB w + 1) - e.m (ewA w + 1) * e.m (ewB w) + 536870912) / 1073741824)
      ((e.m (ewA w) * e.m (ewB w) + e.m (ewA w + 1) * e.m (ewB w + 1) + 536870912) / 1073741824)).Performs e (engIPARK e w) := by
  rw [engIPARK, rnd30_eq, rnd30_eq]
  exact wrN_pair_performs e w 2 _ _

/-- One step of CORDIC with ATAN[i] = a (R106). -/
abbrev cordicStep (r : Int × Int × Int) (i : Nat) (a : Int) : Int × Int × Int :=
  let d : Int := if 0 ≤ r.2.2 then 1 else -1
  (r.1 - d * (r.2.1 / 2 ^ i), r.2.1 + d * (r.1 / 2 ^ i), r.2.2 - d * a)

theorem cordicSteps_eq_foldl (as : List Int) (i : Nat) (r : Int × Int × Int) :
    let t := (as.zipIdx i).foldl (fun r p => cordicStep r p.2 p.1) r
    cordicSteps as i r = (t.1, t.2.1) := by
  induction as generalizing i r with
  | nil => rfl
  | cons a as ih =>
    obtain ⟨x, y, z⟩ := r
    rw [cordicSteps, List.zipIdx_cons, List.foldl_cons]
    simp only [ashr_eq]
    exact ih (i + 1) _

theorem atanTable_zipIdx : atanTable.zipIdx 0 = (List.range 30).map fun i => (atanTable.getD i 0, i) := by decide +kernel

/-- The 30 steps of CORDIC from the angle z (R106). -/
def cordicFrom (z : Int) : Int × Int × Int :=
  (List.range 30).foldl (fun r i => cordicStep r i (atanTable.getD i 0)) (652032874, 0, z)

theorem cordicSteps_atanTable (z : Int) : cordicSteps atanTable 0 (cordicXC, 0, z) = ((cordicFrom z).1, (cordicFrom z).2.1) := by
  rw [cordicSteps_eq_foldl, atanTable_zipIdx, List.foldl_map]; rfl

/-- The quadrant of an angle, and the angle from its middle (R106). -/
abbrev quadrant (a : Nat) : Nat := (a + 2 ^ 29) / 2 ^ 30 % 4
abbrev angleInQuadrant (a : Nat) : Int := sext 32 ((((a : Int) - quadrant a * 2 ^ 30) % 2 ^ 32).toNat)

/-- A rotation turned into quadrant q: cosine and sine before they are held to ±1 (R106). -/
abbrev turned (q : Nat) (x y : Int) : Int × Int :=
  if q = 0 then (x, y) else if q = 1 then (-y, x) else if q = 2 then (-x, -y) else (y, -x)

theorem sincos_of_steps (a : Nat) (x y : Int)
    (h : cordicSteps atanTable 0 (cordicXC, 0, sext 32 (trunc 32 ((a : Int) - quadrant a * 2 ^ 30))) = (x, y)) :
    sincos a = (clampI (turned (quadrant a) x y).2 (-(2 ^ 30)) (2 ^ 30), clampI (turned (quadrant a) x y).1 (-(2 ^ 30)) (2 ^ 30)) := by
  unfold sincos turned
  simp only [h]
  split
  next h0 => rw [if_pos h0]
  next h1 => rw [if_neg (fun h0 => absurd (h1.symm.trans h0) (by decide)), if_pos h1]
  next h2 => rw [if_neg (fun h0 => absurd (h2.symm.trans h0) (by decide)), if_neg (fun h1 => absurd (h2.symm.trans h1) (by decide)),
      if_pos h2]
  next h0 h1 h2 => rw [if_neg h0, if_neg h1, if_neg h2]

/-- The cosine and the sine of an angle before they are held to ±1 (R106). -/
abbrev cosSin (a : Nat) : Int × Int :=
  turned (quadrant a) (cordicFrom (angleInQuadrant a)).1 (cordicFrom (angleInQuadrant a)).2.1

theorem sincos_eq (a : Nat) :
    sincos a = (clampI (cosSin a).2 (-(2 ^ 30)) (2 ^ 30), clampI (cosSin a).1 (-(2 ^ 30)) (2 ^ 30)) := by
  refine sincos_of_steps a _ _ ?_
  rw [cordicSteps_atanTable, ← lowWord_eq_trunc]

theorem engSINCOS_performs :
    (pairEffect e w 16 (clampI (cosSin (lowWord (e.m (ewA w)))).2 (-(2 ^ 30)) (2 ^ 30))
      (clampI (cosSin (lowWord (e.m (ewA w)))).1 (-(2 ^ 30)) (2 ^ 30))).Performs e (engSINCOS e w) := by
  have hunit : ∀ x : Int, InWord (clampI x (-(2 ^ 30)) (2 ^ 30)) := fun x => by unfold clampI InWord; omega
  have hpair : ∀ x y : Int, InWord x → InWord y → e.put (ewD w) [x, y] = wrN e w [sat32 x, sat32 y] false := fun x y hx hy => by
    rw [sat32_of_inWord hx, sat32_of_inWord hy]
    exact (EngSt.satIf_false _).symm
  rw [engSINCOS, sincos_eq]
  dsimp only
  rw [hpair _ _ (hunit _) (hunit _)]
  exact wrN_pair_performs e w 16 _ _

/-! ### Tables (R107) -/

/-- The index of a table, and the interpolation between two of its points (R107). -/
abbrev lutIndex (u : Int) (p : Nat) (pts : Int) : Int := min (max (u / 2 ^ p) 0) (pts - 2)
abbrev lutBetween (y0 y1 f : Int) (p : Nat) : Int := y0 + ((y1 - y0) * f + (if 0 < p then 2 ^ (p - 1) else 0)) / 2 ^ p
abbrev lutValue (u : Int) (p : Nat) (pts : Int) (y : Nat → Int) : Int :=
  lutBetween (y (lutIndex u p pts).toNat) (y ((lutIndex u p pts).toNat + 1)) (min (max (u - lutIndex u p pts * 2 ^ p) 0) (2 ^ p)) p

theorem lutMix_eq (y0 y1 f : Int) (p : Nat) : lutMix y0 y1 f p = lutBetween y0 y1 f p := by
  rw [lutMix, ashr_eq]
  push_cast
  rfl

theorem lutMix_lutAt (x x0 : Int) (p n : Nat) (y : Nat → Int) :
    lutMix (y (lutAt x x0 p n).1) (y ((lutAt x x0 p n).1 + 1)) (lutAt x x0 p n).2 p = lutValue (x - x0) p n y := by
  rw [lutMix_eq]
  simp only [lutAt, ashr_eq, clampI, Nat.cast_pow, Nat.cast_ofNat]

/-- The half that rounding adds is less than a step. -/
theorem roundHalf_bounds (p : Nat) : (0 : Int) ≤ (if 0 < p then 2 ^ (p - 1) else 0) ∧ (if 0 < p then 2 ^ (p - 1) else 0) < (2 : Int) ^ p := by
  by_cases hp : 0 < p
  · rw [if_pos hp]
    exact ⟨by positivity, pow_lt_pow_right₀ (by decide) (by omega)⟩
  · rw [if_neg hp]
    exact ⟨le_refl 0, by positivity⟩

/-- Interpolation stays between the two points. -/
theorem lutBetween_inWord {y0 y1 f : Int} {p : Nat} (h0 : InWord y0) (h1 : InWord y1) (hf : 0 ≤ f) (hf' : f ≤ 2 ^ p) :
    InWord (lutBetween y0 y1 f p) := by
  obtain ⟨hhalf, hhalf'⟩ := roundHalf_bounds p
  unfold lutBetween
  generalize (if 0 < p then 2 ^ (p - 1) else 0 : Int) = half at *
  have hstep : (0 : Int) < 2 ^ p := by positivity
  obtain ⟨h0l, h0u⟩ := h0
  obtain ⟨h1l, h1u⟩ := h1
  rcases le_total y0 y1 with hup | hdown
  · have hlow : 0 ≤ ((y1 - y0) * f + half) / 2 ^ p :=
      Int.ediv_nonneg (add_nonneg (mul_nonneg (by omega) hf) hhalf) hstep.le
    have hhigh : ((y1 - y0) * f + half) / 2 ^ p < y1 - y0 + 1 := Int.ediv_lt_of_lt_mul hstep (by nlinarith)
    constructor <;> omega
  · have hlow : y1 - y0 ≤ ((y1 - y0) * f + half) / 2 ^ p := Int.le_ediv_of_mul_le hstep (by nlinarith)
    have hhigh : ((y1 - y0) * f + half) / 2 ^ p < 1 := Int.ediv_lt_of_lt_mul hstep (by nlinarith)
    constructor <;> omega

theorem lutValue_inWord (u : Int) (p : Nat) (pts : Int) {y : Nat → Int} (hy : ∀ i, InWord (y i)) : InWord (lutValue u p pts y) := by
  have hstep : (0 : Int) < 2 ^ p := by positivity
  exact lutBetween_inWord (hy _) (hy _) (le_min (le_max_right _ _) hstep.le) (min_le_right _ _)

theorem engLUT1_performs :
    (wordEffect e w (lutValue (e.m (ewA w) - e.v (ewK w)) (e.sh (ewK w)).toNat (e.v (ewK w + 1)).toNat fun i => e.v (ewK w + 2 + i))
      true).Performs e (engLUT1 e w) := by
  have hvalue : engLUT1 e w = e.put (ewD w) [lutValue (e.m (ewA w) - e.v (ewK w)) (e.sh (ewK w)).toNat (e.v (ewK w + 1)).toNat
      fun i => e.v (ewK w + 2 + i)] := by
    have hnext : ∀ i, ewK w + 3 + i = ewK w + 2 + (i + 1) := fun i => by omega
    rw [engLUT1, ← lutMix_lutAt]
    simp only [hnext]
  rw [hvalue]
  exact put_word_performs e w (lutValue_inWord _ _ _ fun _ => e.v_inWord _)

end

end Sys2Proof.Machine
end

section
/-! The effect of each table, integrator and filter instruction (O6; R107 to R109, R115). -/
namespace Sys2Proof.Machine

section
variable (e : EngSt) (w : Nat)

/-- The numbers of columns and of rows in the header of a two-dimensional table (R107). -/
theorem header_lo (k : Nat) : bits (e.cw k) 0 16 = lowWord (e.v k) % 2 ^ 16 := by
  rw [lowWord_eq_trunc, EngSt.v, trunc_sext]
  unfold bits; omega

theorem header_hi (k : Nat) : bits (e.cw k) 16 16 = lowWord (e.v k) / 2 ^ 16 := by
  rw [lowWord_eq_trunc, EngSt.v, trunc_sext]
  unfold bits; omega

/-- Row j of a two-dimensional table at the first input (R107). -/
abbrev lutRow (j : Nat) : Int :=
  let nx : Nat := lowWord (e.v (ewK w + 2)) % 2 ^ 16
  lutValue (e.m (ewA w) - e.v (ewK w)) (e.sh (ewK w)).toNat nx fun i => e.v (ewK w + 3 + j * nx + i)

theorem engLUT2_performs :
    (wordEffect e w (lutValue (e.m (ewA w + 1) - e.v (ewK w + 1)) (e.sh (ewK w + 1)).toNat
      (lowWord (e.v (ewK w + 2)) / 2 ^ 16 : Nat) (lutRow e w)) true).Performs e (engLUT2 e w) := by
  have hvalue : engLUT2 e w = e.put (ewD w) [lutValue (e.m (ewA w + 1) - e.v (ewK w + 1)) (e.sh (ewK w + 1)).toNat
      (lowWord (e.v (ewK w + 2)) / 2 ^ 16 : Nat) (lutRow e w)] := by
    rw [engLUT2, ← lutMix_lutAt, header_lo, header_hi]
    simp only [lutRow, ← lutMix_lutAt, Nat.add_assoc]
  rw [hvalue]
  exact put_word_performs e w (lutValue_inWord _ _ _ fun _ => lutValue_inWord _ _ _ fun _ => e.v_inWord _)

/-! ### Integrator and rate limiter (R108) -/

theorem engINTG_performs :
    ({ writes := [(ewD w, clampI (satWord (e.m (ewD w) + satWord (gainOf e w))) (e.m (ewB w)) (e.m (ewB w + 1)))], accs := e.acc
       sat := (overflows (gainOf e w) || overflows (e.m (ewD w) + satWord (gainOf e w))) && ! e.quiet (ewK w) } : EngEffect).Performs e
      (engINTG e w) := by
  rw [engINTG, scale_eq, sat32_eq]
  dsimp only
  rw [sat32_eq]
  exact wr1_performs_inWord e w _ _ _ (clampI_inWord (satWord_inWord _) (e.m_inWord _) (e.m_inWord _))

theorem engRLIM_performs : let limit := min ((e.v (ewK w)).natAbs : Int) 2147483647
    (wordEffect e w (e.m (ewD w) + clampI (e.m (ewA w) - e.m (ewD w)) (-limit) limit) true).Performs e (engRLIM e w) :=
  wr1_performs e w _ false

/-! ### Filters (R109) -/

/-- The sum of a biquad before scaling (R109). -/
abbrev biqSum : Int :=
  e.v (ewK w) * e.m (ewA w) + e.v (ewK w + 1) * e.m (ewD w) + e.v (ewK w + 2) * e.m (ewD w + 1) -
    e.v (ewK w + 3) * e.m (ewD w + 2) - e.v (ewK w + 4) * e.m (ewD w + 3)

theorem engBIQ_performs : let y := scaled (biqSum e w) (e.sh (ewK w))
    ({ writes := [(ewD w, e.m (ewA w)), (ewD w + 1, e.m (ewD w)), (ewD w + 2, satWord y), (ewD w + 3, e.m (ewD w + 2)), (ewB w, satWord y)]
       accs := e.acc, sat := overflows y && ! e.quiet (ewK w) } : EngEffect).Performs e (engBIQ e w) := by
  intro y
  rw [engBIQ, scale_eq, sat32_eq]
  refine put_put_performs e (ewB w) (ewD w) (satWord y) [e.m (ewA w), e.m (ewD w), satWord y, e.m (ewD w + 2)] _ (by simp)
    (satWord_inWord y) fun x hx => ?_
  simp only [List.mem_cons, List.not_mem_nil, or_false] at hx
  rcases hx with rfl | rfl | rfl | rfl
  · exact e.m_inWord _
  · exact e.m_inWord _
  · exact satWord_inWord y
  · exact e.m_inWord _

/-- The input of tap j of a FIR: the new sample, then the delay line (R109). -/
abbrev firInput (j : Nat) : Int := if j = 0 then e.m (ewA w) else e.m (ewD w + j - 1)

/-- The sum of a FIR before scaling (R109). -/
abbrev firSum : Int := (List.range (e.v (ewK w)).toNat).foldl (fun z j => z + e.v (ewK w + 1 + j) * firInput e w j) 0

theorem firInput_inWord (j : Nat) : InWord (firInput e w j) := by
  unfold firInput; split <;> exact e.m_inWord _

/-- The new sample and the delay line are the inputs of the taps. -/
theorem firInputs_eq (h : 1 ≤ firN e w) : e.m (ewA w) :: firLine e w = (List.range (firN e w)).map (firInput e w) := by
  obtain ⟨n, hn⟩ : ∃ n, firN e w = n + 1 := ⟨firN e w - 1, by omega⟩
  rw [firLine, hn, List.range_succ_eq_map, List.map_cons, List.map_map]
  rfl

theorem zipWith_map_range (f g : Nat → Int) (n : Nat) :
    List.zipWith (· * ·) ((List.range n).map f) ((List.range n).map g) = (List.range n).map fun j => f j * g j := by
  apply List.ext_getElem
  · simp
  · intro i _ _; simp

theorem take_map_range (f : Nat → Int) (n : Nat) : ((List.range n).map f).take (n - 1) = (List.range (n - 1)).map f := by
  rw [← List.map_take, List.take_range, Nat.min_eq_left (Nat.sub_le n 1)]

theorem engFIR_eq (h : 1 ≤ firN e w) : engFIR e w =
    ((e.put (ewB w) [satWord (scaled (firSum e w) (e.sh (ewK w)))]).put (ewD w)
      ((List.range (firN e w - 1)).map (firInput e w))).satIf
        (overflows (scaled (firSum e w) (e.sh (ewK w))) && ! e.quiet (ewK w)) := by
  rw [engFIR]
  simp only [firInputs_eq e w h, zipWith_map_range, take_map_range, List.foldl_map, scale_eq, sat32_eq]
  rfl

theorem engFIR_performs (h : 1 ≤ e.v (ewK w) ∧ e.v (ewK w) ≤ 64) : let y := scaled (firSum e w) (e.sh (ewK w))
    ({ writes := (List.range ((e.v (ewK w)).toNat - 1)).map (fun j => (ewD w + j, firInput e w j)) ++ [(ewB w, satWord y)]
       accs := e.acc, sat := overflows y && ! e.quiet (ewK w) } : EngEffect).Performs e (engFIR e w) := by
  intro y
  have htaps : 1 ≤ firN e w ∧ firN e w ≤ 64 := by unfold firN; omega
  rw [engFIR_eq e w htaps.1, ← wordsAt_map_range]
  refine put_put_performs e (ewB w) (ewD w) (satWord y) _ _ ?_ (satWord_inWord y) fun x hx => ?_
  · rw [List.length_map, List.length_range]; omega
  · obtain ⟨j, -, rfl⟩ := List.mem_map.mp hx
    exact firInput_inWord e w j

/-! ### Forecast (R115) -/

/-- The counter of a forecast before it moves: one outside 0 to LIMIT counts as LIMIT (R115, R116). -/
abbrev fcstFrom : Int := if e.m (ewD w) < 0 ∨ e.v (ewK w + 3) < e.m (ewD w) then e.v (ewK w + 3) else e.m (ewD w)

/-- The counter of a forecast after its move (R115). -/
abbrev fcstCount : Int :=
  if e.v (ewK w) < ((e.m (ewA w) - e.m (ewB w)).natAbs : Int) then min (fcstFrom e w + e.v (ewK w + 1)) (e.v (ewK w + 3))
  else max (fcstFrom e w - e.v (ewK w + 2)) 0

/-- The limits of R115 on the coefficients of a forecast. -/
abbrev fcstLimits : Prop := ∀ i < 4, ([0, 1, 0, 1] : List Int).getD i 0 ≤ e.v (ewK w + i) ∧
  e.v (ewK w + i) ≤ ([2147483647, 65535, 65535, 1048576] : List Int).getD i 0

theorem fcstCount_inWord (h : fcstLimits e w) : InWord (fcstCount e w) := by
  have hup : 1 ≤ e.v (ewK w + 1) ∧ e.v (ewK w + 1) ≤ 65535 := h 1 (by decide)
  have hdown : 0 ≤ e.v (ewK w + 2) ∧ e.v (ewK w + 2) ≤ 65535 := h 2 (by decide)
  have hlimit : 1 ≤ e.v (ewK w + 3) ∧ e.v (ewK w + 3) ≤ 1048576 := h 3 (by decide)
  have hfrom : 0 ≤ fcstFrom e w ∧ fcstFrom e w ≤ e.v (ewK w + 3) := by
    unfold fcstFrom; split <;> omega
  unfold fcstCount InWord
  split <;> omega

theorem engFCST_performs (h : fcstLimits e w) :
    ({ writes := [(ewD w, fcstCount e w)], accs := e.acc, fcst := decide (fcstCount e w = e.v (ewK w + 3)) } : EngEffect).Performs e
      (engFCST e w) where
  words a := e.m_put (ewD w) a [fcstCount e w] (by simp) (by simpa using fcstCount_inWord e w h)
  frame := by
    have hput : engFCST e w = { e.put (ewD w) [fcstCount e w] with fcst := e.fcst || decide (fcstCount e w = e.v (ewK w + 3)) } := rfl
    rw [hput, EngSt.put_frame e, Bool.or_false, Bool.or_false]
    rfl

end

end Sys2Proof.Machine
end

section
/-! The results of the arithmetic, logic, scaled-product and accumulator instructions (O7; R96 to R100, R102). -/
namespace Sys2Proof.Machine

/-- What an effect without sums leaves of the coefficients and the accumulators. -/
theorem EngEffect.Performs.keeps {x : EngEffect} {e e' : EngSt} (h : x.Performs e e') (haccs : x.accs = e.acc) :
    e'.coef = e.coef ∧ ∀ j, e'.acc j = e.acc j := by
  have hframe := h.frame
  rw [haccs] at hframe
  rw [hframe]
  exact ⟨rfl, fun j => by match j with | 0 => rfl | 1 => rfl | 2 => rfl | _ + 3 => rfl⟩

theorem EngEffect.Performs.sat_eq {x : EngEffect} {e e' : EngSt} (h : x.Performs e e') : e'.sat = (e.sat || x.sat) := by
  rw [h.frame]

/-- The results of the lanes, whatever SAT does. -/
theorem EngEffect.Performs.lanes {x : EngEffect} {e e' : EngSt} {w : Nat} {r : Nat → Int} (h : x.Performs e e')
    (hx : x.writes = (laneEffect e w r).writes) :
    (∀ i < ewLanes w, e'.m (ewD w + i) = satWord (r i)) ∧
    ∀ a, (∀ i < ewLanes w, a % 16384 ≠ (ewD w + i) % 16384) → e'.m a = e.m a := by
  have hlanes : ewLanes w ≤ 4 := ewMd_lt w
  have hwrites : x.writes = wordsAt (ewD w) ((List.range (ewLanes w)).map fun i => satWord (r i)) := by
    rw [hx, wordsAt_map_range]; rfl
  refine ⟨fun i hi => ?_, fun a ha => ?_⟩
  · rw [h.words, hwrites, writeTo_wordsAt_some _ i _ (by rw [List.length_map, List.length_range]; omega) (by simpa using hi)]
    simp
  · rw [h.words, hwrites, writeTo_wordsAt_none _ a _ (by simpa using ha)]
    rfl

theorem laneResults {e e' : EngSt} {w : Nat} {r : Nat → Int} (h : (laneEffect e w r).Performs e e') :
    (∀ i < ewLanes w, e'.m (ewD w + i) = satWord (r i)) ∧
    (∀ a, (∀ i < ewLanes w, a % 16384 ≠ (ewD w + i) % 16384) → e'.m a = e.m a) ∧
    e'.coef = e.coef ∧ (∀ j, e'.acc j = e.acc j) ∧
    e'.sat = (e.sat || (List.range (ewLanes w)).any fun i => satWord (r i) ≠ r i) := by
  obtain ⟨hwords, hothers⟩ := h.lanes rfl
  obtain ⟨hcoef, haccs⟩ := h.keeps rfl
  exact ⟨hwords, hothers, hcoef, haccs, h.sat_eq⟩

theorem wordResults {e e' : EngSt} {w : Nat} {r : Int} {loud : Bool} (h : (wordEffect e w r loud).Performs e e') :
    e'.m (ewD w) = satWord r ∧ (∀ a, a % 16384 ≠ ewD w % 16384 → e'.m a = e.m a) ∧ e'.coef = e.coef ∧
    (∀ j, e'.acc j = e.acc j) ∧ e'.sat = (e.sat || (overflows r && loud)) := by
  obtain ⟨hcoef, haccs⟩ := h.keeps rfl
  refine ⟨?_, fun a ha => ?_, hcoef, haccs, h.sat_eq⟩
  · rw [h.words, writeTo, List.find?_cons_of_pos (by simp)]
    rfl
  · rw [h.words, writeTo, List.find?_cons_of_neg (by simpa using ha.symm)]
    rfl

theorem lowWord_sext (v : Nat) : lowWord (sext 32 v) = v % 2 ^ 32 := by
  rw [lowWord_eq_trunc, trunc_sext]

/-- A bitwise operation of two words: the low 32 bits of the result. -/
theorem engBits_low (f : Nat → Nat → Nat) (e : EngSt) (w : Nat) (hf : ∀ a b, a < 2 ^ 32 → b < 2 ^ 32 → f a b < 2 ^ 32) :
    lowWord ((engBits f e w).m (ewD w)) = f (lowWord (e.m (ewA w))) (lowWord (e.m (ewB w))) := by
  obtain ⟨hword, -⟩ := wordResults (engBits_performs e w f)
  rw [hword, satWord_of_inWord (sext_inWord _), lowWord_sext]
  refine Nat.mod_eq_of_lt (hf _ _ ?_ ?_) <;> (rw [lowWord_eq_trunc]; exact trunc_lt _)

theorem engBits_others (f : Nat → Nat → Nat) (e : EngSt) (w a : Nat) (ha : a % 16384 ≠ ewD w % 16384) :
    (engBits f e w).m a = e.m a := (wordResults (engBits_performs e w f)).2.1 a ha

/-- The sums into the accumulators of the lanes (R98). -/
theorem accResults {e e' : EngSt} {w : Nat} {p : Nat → Int}
    (h : e' = e.withAccs (accEffect e w p).accs (accEffect e w p).sat) :
    (∀ i < ewLanes w, e'.acc i = heldAcc (e.acc i + p i)) ∧ (∀ i < 4, ewLanes w ≤ i → e'.acc i = e.acc i) ∧ e'.data = e.data ∧
    e'.sat = (e.sat || (List.range (ewLanes w)).any fun i => heldAcc (e.acc i + p i) ≠ e.acc i + p i) := by
  subst h
  have hlanes : ewLanes w ≤ 4 := ewMd_lt w
  refine ⟨fun i hi => ?_, fun i hi hout => ?_, rfl, rfl⟩
  · rw [e.acc_withAccs _ _ (by omega)]
    exact if_pos (Nat.lt_succ_iff.mp hi)
  · rw [e.acc_withAccs _ _ hi]
    exact if_neg fun hle => absurd (Nat.lt_succ_of_le hle) (Nat.not_lt.mpr hout)

theorem natAbs_eq_if (x : Int) : (x.natAbs : Int) = if x < 0 then - x else x := by
  split <;> omega

/-- The condition of SEL as a truth value (R102). -/
theorem selBool_iff (md : Nat) (x : Int) :
    (if md = 0 then decide (0 ≤ x) else if md = 1 then decide (0 < x) else if md = 2 then decide (x = 0) else decide (x < 0)) = true ↔
      selHolds md x := by
  unfold selHolds
  (repeat' split) <;> exact decide_eq_true_iff

/-- Settles O7, instruction by instruction from what each performs. -/
theorem engineArithmeticResults : Obligations.EngineArithmeticResults := by
  unfold Obligations.EngineArithmeticResults
  refine ⟨⟨fun e w => laneResults (engADD_performs e w), fun e w => laneResults (engSUB_performs e w),
    fun e w => laneResults (engMIN_performs e w), fun e w => laneResults (engMAX_performs e w),
    fun e w => laneResults (engMOV_performs e w), fun e w => wordResults (engNEG_performs e w), fun e w => ?_,
    fun e w => wordResults (engLDK_performs e w), fun e w => wordResults (engCLMP_performs e w),
    fun e w => wordResults (engASH_performs e w), fun e w => wordResults (engMULD_performs e w),
    fun e w => wordResults (engMULC_performs e w), fun e w => ?_, fun e w a ha => ?_⟩, fun e w => ?_⟩
  · have h := wordResults (engABS_performs e w)
    rw [natAbs_eq_if] at h
    exact h
  · have h := wordResults (engSEL_performs e w)
    rw [← if_congr (selBool_iff _ _) rfl rfl] at h
    exact h
  · exact ⟨engBits_others _ e w a ha, engBits_others _ e w a ha, engBits_others _ e w a ha,
      engBits_low _ e w fun _ _ _ => Nat.and_lt_two_pow _, engBits_low _ e w fun _ _ => Nat.or_lt_two_pow,
      engBits_low _ e w fun _ _ => Nat.xor_lt_two_pow⟩
  · have hlanes : ewLanes w ≤ 4 := ewMd_lt w
    have hstore := engACST_performs e w
    have hsum := engACSM_performs e w
    obtain ⟨-, hstoreAccs⟩ := hstore.keeps rfl
    obtain ⟨-, hsumAccs⟩ := hsum.keeps rfl
    refine ⟨accResults (engMACC_eq e w), accResults (engMACD_eq e w), accResults (engMSUD_eq e w), fun i hi => ?_, fun i hi hout => ?_,
      ?_, ?_, fun i hi => ?_, ?_, fun i _ => ⟨hstoreAccs i, hsumAccs i⟩⟩
    · rw [engACLR_eq, e.acc_withAccs _ _ (by omega)]
      exact if_pos (Nat.lt_succ_iff.mp hi)
    · rw [engACLR_eq, e.acc_withAccs _ _ hi]
      exact if_neg fun hle => absurd (Nat.lt_succ_of_le hle) (Nat.not_lt.mpr hout)
    · rw [engACLR_eq]; rfl
    · rw [engACLR_eq]; exact Bool.or_false _
    · rw [scale_eq, sat32_eq]
      exact (hstore.lanes rfl).1 i hi
    · rw [scale_eq, sat32_eq]
      exact (wordResults hsum).1

end Sys2Proof.Machine
end

section
/-! Every engine instruction that stands at the program counter retires (O6; R99, R100, R110, R125). -/
namespace Sys2Proof.Machine

/-! ### What the command of an opcode does -/

/-- The command of each opcode executes one function on the engine, while the engine's domain is on. -/
theorem engineCmds_exec (n : Fin 8) (x : EngEcc) : ∀ p ∈ engineCmds n x, ∃ f, ∀ s : State,
    exec p.2 s = if ! s.live (engDomain n) then .next s else done (engExec p.1 f n x s) := by
  unfold engineCmds
  repeat' refine List.forall_mem_cons.mpr ⟨⟨_, fun _ => rfl⟩, ?_⟩
  exact List.forall_mem_nil _

section
variable {n op : Nat} {s : State} (f : EngSt → Nat → EngSt)

theorem engExec_standing (h : s.atWord n op) (x : EngEcc) : engExec op f n x s = match x with
    | .ok => s.setE n (engRetire f (s.e n))
    | .corrected _ _ => eccCorr n (s.setE n (engRetire f (s.e n)))
    | .uncorrectable mem i => engHalt n mem i (Fc.ENG_ECC_UNCORR n) s := by
  obtain ⟨-, hrun, hvalid, hop⟩ := h
  unfold engExec
  exact (if_pos (by simp [hrun, hvalid, hop])).trans (by cases x <;> rfl)

theorem engExec_other (hlive : s.live (engDomain n) = true) (h : ¬ s.atWord n op) (x : EngEcc) : engExec op f n x s = s := by
  unfold engExec
  refine if_neg fun hstands => h ?_
  simp only [Bool.and_eq_true, decide_eq_true_eq] at hstands
  obtain ⟨⟨hrun, hvalid⟩, hop⟩ := hstands
  exact ⟨hlive, hrun, hvalid, hop⟩

end

/-- Where another word stands, or no run is in progress, the command changes nothing. -/
theorem completes_other {c : Instr} {n : Fin 8} {op : Nat} {f : EngSt → Nat → EngSt} {x : EngEcc} {s : State}
    (hexec : exec c s = if ! s.live (engDomain n) then .next s else done (engExec op f n x s)) (hcalm : s.calm)
    (h : ¬ s.atWord n op) : Completes c s fun t => t = s := by
  cases hlive : s.live (engDomain n) with
  | false =>
    rw [hlive] at hexec
    exact completes_of_next hexec rfl
  | true =>
    rw [hlive, engExec_other f hlive h x] at hexec
    exact completes_of_done_calm hexec hcalm rfl

theorem eccCorr_onlyFaults (n : Nat) (s : State) : OnlyFaults (s.inc Reg.CEC_ECC_CORR_CNT) (eccCorr n s) := .raise _ _

/-- The command of the opcode that stands at the program counter retires with the effect of its instruction, under what bounds its
coefficients; a corrected error is counted and raised beside it. -/
theorem retires {n : Fin 8} {x : EngEcc} {s : State} (hx : x = .ok ∨ ∃ i j, x = .corrected i j) (hcalm : s.calm) {c : Instr}
    {op : Nat} {f : EngSt → Nat → EngSt} {eff : EngEffect} {P Q : Prop} (hat : s.atWord n op)
    (hperforms : P → Q → eff.Performs (s.e n) (f (s.e n) (s.e n).word))
    (hexec : exec c s = if ! s.live (engDomain n) then .next s else done (engExec op f n x s) := by rfl)
    (hcycles : ewOp (s.e n).word = op → engCycles (s.e n) (s.e n).word = eff.cycles := by intro h; simp only [engCycles, h]) :
    Completes c s fun t => ∃ e' : EngSt, e'.pc = (s.e n).pc + 1 ∧ (P → Q → eff.leaves (s.e n) e') ∧ (x = .ok → t = s.setE n e') ∧
      (x ≠ .ok → OnlyFaults ((s.setE n e').inc Reg.CEC_ECC_CORR_CNT) t) := by
  have hended : (s.e n).ended = false := by
    have hrun := hat.2.1
    simp only [State.engLive, Bool.and_eq_true, Bool.not_eq_true'] at hrun
    exact hrun.2
  have hleaves : P → Q → eff.leaves (s.e n) (engRetire f (s.e n)) := fun hp hq =>
    (hperforms hp hq).leaves hended (hcycles hat.2.2.2)
  rw [hat.1, engExec_standing f hat x] at hexec
  rcases hx with rfl | ⟨i, j, rfl⟩
  · exact completes_of_done_calm hexec hcalm ⟨_, rfl, hleaves, fun _ => rfl, fun h => absurd rfl h⟩
  · refine completes_of_settleAll hexec ⟨_, rfl, hleaves, fun h => (by cases h), fun _ => ?_⟩
    exact (eccCorr_onlyFaults n _).trans (.settleAll _)

/-- CLARKE by its mode (R104). -/
theorem engCLARKE_performs (e : EngSt) (w : Nat) :
    (if ewMd w = 0 then pairEffect e w 3 (e.m (ewA w)) (((e.m (ewA w) + 2 * e.m (ewA w + 1)) * 619925131 + 536870912) / 1073741824)
      else pairEffect e w 3 (((2 * e.m (ewA w) - e.m (ewA w + 1) - e.m (ewA w + 2)) * 357913941 + 536870912) / 1073741824)
        (((e.m (ewA w + 1) - e.m (ewA w + 2)) * 619925131 + 536870912) / 1073741824)).Performs e (engCLARKE e w) := by
  split
  next h => exact engCLARKE_performs_two e w h
  next h => exact engCLARKE_performs_three e w h

/-- Settles O6, opcode by opcode from what each instruction performs. -/
theorem engineInstructionsRetire : Obligations.EngineInstructionsRetire := by
  unfold Obligations.EngineInstructionsRetire
  refine ⟨fun n x s hx hcalm => ?_, fun n x s hcalm p hp hnot => ?_⟩
  · refine List.forall_mem_cons.mpr ⟨fun hat => retires hx hcalm (f := fun e _ => e) hat fun _ _ => engNOP_performs _, ?_⟩
    refine List.forall_mem_cons.mpr ⟨fun hat => retires hx hcalm (f := fun e _ => { e with ended := true }) hat fun _ _ => engEND_performs _, ?_⟩
    refine List.forall_mem_cons.mpr ⟨fun hat => retires hx hcalm hat fun _ _ => engMOV_performs _ _, ?_⟩
    refine List.forall_mem_cons.mpr ⟨fun hat => retires hx hcalm hat fun _ _ => engLDK_performs _ _, ?_⟩
    refine List.forall_mem_cons.mpr ⟨fun hat => retires hx hcalm hat fun _ _ => engASH_performs _ _, ?_⟩
    refine List.forall_mem_cons.mpr ⟨fun hat => retires hx hcalm hat fun _ _ => engADD_performs _ _, ?_⟩
    refine List.forall_mem_cons.mpr ⟨fun hat => retires hx hcalm hat fun _ _ => engSUB_performs _ _, ?_⟩
    refine List.forall_mem_cons.mpr ⟨fun hat => retires hx hcalm hat fun _ _ => engNEG_performs _ _, ?_⟩
    refine List.forall_mem_cons.mpr ⟨fun hat => retires hx hcalm hat fun _ _ => engABS_performs _ _, ?_⟩
    refine List.forall_mem_cons.mpr ⟨fun hat => retires hx hcalm hat fun _ _ => engMULD_performs _ _, ?_⟩
    refine List.forall_mem_cons.mpr ⟨fun hat => retires hx hcalm hat fun _ _ => engMULC_performs _ _, ?_⟩
    refine List.forall_mem_cons.mpr ⟨fun hat => retires hx hcalm hat fun _ _ => engAXPY_performs _ _, ?_⟩
    refine List.forall_mem_cons.mpr ⟨fun hat => retires hx hcalm hat fun _ _ => engACLR_performs _ _, ?_⟩
    refine List.forall_mem_cons.mpr ⟨fun hat => retires hx hcalm hat fun _ _ => engMACC_performs _ _, ?_⟩
    refine List.forall_mem_cons.mpr ⟨fun hat => retires hx hcalm hat fun _ _ => engMACD_performs _ _, ?_⟩
    refine List.forall_mem_cons.mpr ⟨fun hat => retires hx hcalm hat fun _ _ => engMSUD_performs _ _, ?_⟩
    refine List.forall_mem_cons.mpr ⟨fun hat => retires hx hcalm hat fun _ _ => engACST_performs _ _, ?_⟩
    refine List.forall_mem_cons.mpr ⟨fun hat => retires hx hcalm hat fun _ _ => (engACSM_performs _ _).withCycles 2, ?_⟩
    refine List.forall_mem_cons.mpr ⟨fun hat => retires hx hcalm hat fun _ _ => engMIN_performs _ _, ?_⟩
    refine List.forall_mem_cons.mpr ⟨fun hat => retires hx hcalm hat fun _ _ => engMAX_performs _ _, ?_⟩
    refine List.forall_mem_cons.mpr ⟨fun hat => retires hx hcalm hat fun _ _ => engCLMP_performs _ _, ?_⟩
    refine List.forall_mem_cons.mpr ⟨fun hat => retires hx hcalm hat fun _ _ => engSEL_performs _ _, ?_⟩
    refine List.forall_mem_cons.mpr ⟨fun hat => retires hx hcalm hat fun _ _ => engBits_performs _ _ _, ?_⟩
    refine List.forall_mem_cons.mpr ⟨fun hat => retires hx hcalm hat fun _ _ => engBits_performs _ _ _, ?_⟩
    refine List.forall_mem_cons.mpr ⟨fun hat => retires hx hcalm hat fun _ _ => engBits_performs _ _ _, ?_⟩
    refine List.forall_mem_cons.mpr ⟨fun hat => retires hx hcalm hat (fun _ _ => engCLARKE_performs _ _)
      (hcycles := fun h => by simp only [engCycles, h]; split <;> rfl), ?_⟩
    refine List.forall_mem_cons.mpr ⟨fun hat => retires hx hcalm hat fun _ _ => engPARK_performs _ _, ?_⟩
    refine List.forall_mem_cons.mpr ⟨fun hat => retires hx hcalm hat fun _ _ => engIPARK_performs _ _, ?_⟩
    refine List.forall_mem_cons.mpr ⟨fun hat => retires hx hcalm hat fun _ _ => engSINCOS_performs _ _, ?_⟩
    refine List.forall_mem_cons.mpr ⟨fun hat => retires hx hcalm hat fun _ _ => (engLUT1_performs _ _).withCycles 6, ?_⟩
    refine List.forall_mem_cons.mpr ⟨fun hat => retires hx hcalm hat fun _ _ => (engLUT2_performs _ _).withCycles 10, ?_⟩
    refine List.forall_mem_cons.mpr ⟨fun hat => retires hx hcalm hat fun _ _ => (engINTG_performs _ _).withCycles 2, ?_⟩
    refine List.forall_mem_cons.mpr ⟨fun hat => retires hx hcalm hat fun _ _ => (engRLIM_performs _ _).withCycles 2, ?_⟩
    refine List.forall_mem_cons.mpr ⟨fun hat => retires hx hcalm hat fun _ _ => (engBIQ_performs _ _).withCycles 3, ?_⟩
    refine List.forall_mem_cons.mpr ⟨fun hat => retires hx hcalm hat (fun htaps _ => (engFIR_performs _ _ (htaps rfl)).withCycles _)
      (hcycles := fun h => by simp only [engCycles, h]; rfl), ?_⟩
    refine List.forall_mem_cons.mpr ⟨fun hat => retires hx hcalm hat fun _ hlimits => (engFCST_performs _ _ (hlimits rfl)).withCycles 3, ?_⟩
    exact List.forall_mem_nil _
  · obtain ⟨f, hexec⟩ := engineCmds_exec n x p hp
    exact completes_other (hexec s) hcalm hnot

end Sys2Proof.Machine
end

section
/-! What halts an engine, and what the completion of its run leaves (O8; R110, R112 to R114, R117, R123 to R125, R127). -/
namespace Sys2Proof.Machine

/-! ### The fields of the engine block -/

/-- Raising writes no field of the engine block. -/
theorem cec_not_ofFaults {f : Fld} (h : f.key / 0x80000 = 0x4004) : Fld.ofFaults f = false := by
  have hrole : f.key ≠ Reg.SEAM_STAT_ROLE.key := by rintro e; rw [e] at h; revert h; decide
  have hclaim : f.key ≠ Reg.SEAM_CLAIM_CLAIM.key := by rintro e; rw [e] at h; revert h; decide
  simp [Fld.ofFaults, h, hrole, hclaim]

/-- `t` is `s` but for registers beyond the engine block, the named fields of it, the trace memory and what raising does: time, the
engines, what is held and what is pending stand. -/
structure KeepsEngines (written : List Fld) (s t : State) : Prop where
  rd : ∀ f, f.key / 0x80000 = 0x4004 → (∀ g ∈ written, g.key ≠ f.key) → t.rd f = s.rd f
  time : t.time = s.time
  eng : t.eng = s.eng
  held : ∀ c, s.isHeld c = true → t.isHeld c = true
  pends : ∀ src < 256, s.pends src = true → t.pends src = true

section
variable {l : List Fld} {s t u : State}

theorem KeepsEngines.refl (l : List Fld) (s : State) : KeepsEngines l s s := ⟨fun _ _ _ => rfl, rfl, rfl, fun _ h => h, fun _ _ h => h⟩

theorem KeepsEngines.trans (h : KeepsEngines l s t) (g : KeepsEngines l t u) : KeepsEngines l s u where
  rd f hf hl := (g.rd f hf hl).trans (h.rd f hf hl)
  time := g.time.trans h.time
  eng := g.eng.trans h.eng
  held c hc := g.held c (h.held c hc)
  pends src hsrc hp := g.pends src hsrc (h.pends src hsrc hp)

theorem KeepsEngines.mono {m : List Fld} (h : KeepsEngines l s t) (hsub : l ⊆ m) : KeepsEngines m s t :=
  { h with rd := fun f hf hm => h.rd f hf fun g hg => hm g (hsub hg) }

/-- A change of neither the registers, time, the engines nor the fault unit. -/
theorem KeepsEngines.aside (l : List Fld) (hregs : t.regs = s.regs) (htime : t.time = s.time) (heng : t.eng = s.eng)
    (hheld : t.fcu.held = s.fcu.held) : KeepsEngines l s t where
  rd f _ _ := State.rd_congr hregs f
  time := htime
  eng := heng
  held c hc := by rw [State.isHeld, State.heldReact, hheld]; exact hc
  pends src _ hp := by rw [State.pends, State.bit, State.rd_congr hregs]; exact hp

/-- A write of a named field of the engine block. -/
theorem KeepsEngines.wr (s : State) (f : Fld) (v : Nat) (hf : f ∈ l) (hblock : f.key / 0x80000 = 0x4004) : KeepsEngines l s (s.wr f v) where
  rd g _ hl := s.rd_wr_ne f g v (hl f hf)
  time := rfl
  eng := rfl
  held _ hc := hc
  pends src hsrc hp := by
    have hintc : ∀ k : Fin 8, (Reg.INTC_PENDk k).key / 0x80000 = 0x400E := by decide
    rw [State.pends, s.bit_wr_ne _ _ _ _ fun e => ?_]
    · exact hp
    · have := hintc ⟨src / 32, by omega⟩
      rw [← e, hblock] at this
      cases this

theorem OnlyFaults.keepsEngines (l : List Fld) (h : OnlyFaults s t) : KeepsEngines l s t where
  rd f hf _ := h.rd f (cec_not_ofFaults hf)
  time := h.time
  eng := h.eng
  held := h.held
  pends := h.pends

theorem WritesRing.keepsEngines {r : Nat} (l : List Fld) (h : WritesRing r s t) : KeepsEngines l s t where
  rd f hf _ := h.rd f (cec_not_ofFaults hf)
  time := by rw [h.frame]
  eng := by rw [h.frame]
  held c hc := by rw [h.frame]; exact hc
  pends src hsrc hp := h.pend _ (by omega) _ (Nat.mod_lt _ (by decide)) hp

theorem KeepsEngines.on (h : KeepsEngines l s t) (f : Fld) (hf : f.key / 0x80000 = 0x4004) (hl : ∀ g ∈ l, g.key ≠ f.key) : t.on f = s.on f := by
  rw [State.on, h.rd f hf hl]; rfl

theorem KeepsEngines.bit (h : KeepsEngines l s t) (f : Fld) (n : Nat) (hf : f.key / 0x80000 = 0x4004) (hl : ∀ g ∈ l, g.key ≠ f.key) :
    t.bit f n = s.bit f n := by
  rw [State.bit, h.rd f hf hl]; rfl

theorem KeepsEngines.e (h : KeepsEngines l s t) (n : Nat) : t.e n = s.e n := by
  rw [State.e, h.eng]; rfl

end

/-- A fault of class S or M tied to an axis is held after its raise, if it is not limited to once a frame. -/
theorem raiseAx_isHeld (code n : Nat) (s : State) (hc : faultClass code ≠ .i) (ho : oncePerFrame code = false) :
    (raiseAx code n s).isHeld code = true := by
  refine (OnlyFaults.settleAll _).held code ?_
  rw [State.isHeld, ((raise1_holds (f := { code := code, axes := 2 ^ n, addr := n }) (s := s) (by simp [ho])).1 hc).1]; rfl

theorem OnlyFaults.raiseAx (code n : Nat) (s : State) : OnlyFaults s (raiseAx code n s) := .raise _ s

/-! ### The halt of an engine (R125) -/

/-- The first error since UNC was cleared is recorded; a later one leaves the record. -/
theorem eccRecord_effect (n mem index : Nat) (s : State) : let t := eccRecord n mem index s
    t.on Reg.CEC_ECC_UNC = true ∧ (s.on Reg.CEC_ECC_UNC = false →
      t.rd Reg.CEC_ECC_ENG = n % 8 ∧ t.rd Reg.CEC_ECC_MEM = mem % 4 ∧ t.rd Reg.CEC_ECC_ADDR = index % 2 ^ 14) := by
  cases hunc : s.on Reg.CEC_ECC_UNC with
  | true =>
    rw [eccRecord, if_pos hunc]
    exact ⟨hunc, nofun⟩
  | false =>
    rw [eccRecord, if_neg (by simp [hunc])]
    dsimp only
    refine ⟨?_, fun _ => ⟨?_, ?_, State.rd_wr_self _ _ _⟩⟩
    · rw [State.on_wr_ne _ _ _ _ (by decide), State.on_put_self _ _ _ rfl]
    · rw [State.rd_wr_ne _ _ _ _ (by decide), State.rd_put_ne _ _ _ _ (by decide), State.rd_wr_ne _ _ _ _ (by decide), State.rd_wr_self]
      rfl
    · rw [State.rd_wr_ne _ _ _ _ (by decide), State.rd_put_ne _ _ _ _ (by decide), State.rd_wr_self]
      rfl

/-- The fields of the record of an error. -/
def eccFlds : List Fld := [Reg.CEC_ECC_ENG, Reg.CEC_ECC_MEM, Reg.CEC_ECC_UNC, Reg.CEC_ECC_ADDR]

theorem KeepsEngines.eccRecord (n mem index : Nat) (s : State) : KeepsEngines eccFlds s (eccRecord n mem index s) := by
  unfold Machine.eccRecord; split
  · exact .refl _ s
  · exact (((KeepsEngines.wr s _ _ (by simp [eccFlds]) rfl).trans (.wr _ _ _ (by simp [eccFlds]) rfl)).trans
      (.wr _ _ _ (by simp [eccFlds]) rfl)).trans (.wr _ _ _ (by simp [eccFlds]) rfl)

/-- The fields of the end of a run. -/
def lastFlds (n : Nat) : List Fld := [Reg.CEC_En_LAST_ELAPSED n, Reg.CEC_En_LAST_FN n]

/-- The fields of one engine stand in the engine block, above those the engines share. -/
theorem cecEngine_block (n : Nat) (hn : n < 8) : ∀ f ∈ [Reg.CEC_En_LAST_ELAPSED n, Reg.CEC_En_LAST_FN n, Reg.CEC_En_FRAME_SAT n,
    Reg.CEC_En_FRAME_FCST n, Reg.CEC_En_FRAME_OVR n], f.key / 0x80000 = 0x4004 ∧ Reg.CEC_TR_DROP.key < f.key := by
  simp only [List.forall_mem_cons, List.not_mem_nil, false_implies, implies_true, and_true, Reg.CEC_En_LAST_ELAPSED, Reg.CEC_En_LAST_FN,
    Reg.CEC_En_FRAME_SAT, Reg.CEC_En_FRAME_FCST, Reg.CEC_En_FRAME_OVR, Reg.CEC_TR_DROP]
  omega

theorem KeepsEngines.engLast (n cycles : Nat) (s : State) (hn : n < 8) : KeepsEngines (lastFlds n) s (engLast n cycles s) :=
  (KeepsEngines.wr s _ _ (by simp [lastFlds]) (cecEngine_block n hn _ (by simp)).1).trans
    (.wr _ _ _ (by simp [lastFlds]) (cecEngine_block n hn _ (by simp)).1)

theorem engLast_elapsed (n cycles : Nat) (s : State) : (engLast n cycles s).rd (Reg.CEC_En_LAST_ELAPSED n) = min cycles 0xFFFF := by
  rw [engLast, State.rd_wr_ne _ _ _ _ (by simp only [Reg.CEC_En_LAST_ELAPSED, Reg.CEC_En_LAST_FN]; omega), State.rd_wr_self]
  exact Nat.mod_eq_of_lt (Nat.lt_of_le_of_lt (Nat.min_le_right _ _) (by decide : 0xFFFF < 2 ^ 16))

theorem engLast_fn (n cycles : Nat) (s : State) : (engLast n cycles s).rd (Reg.CEC_En_LAST_FN n) = s.fn % 2 ^ 16 := State.rd_wr_self _ _ _

/-- Engine `n` stands halted. -/
def engHalted (n : Nat) (s : State) : State := s.setE n { s.e n with halted := true }

/-- What a halt notes before its fault is raised. -/
def haltNoted (n mem index : Nat) (s : State) : State :=
  eccRecord n mem index (engLast n ((engHalted n s).e n).cycles (engHalted n s))

/-- What a halt leaves: the engine halted, its fault held, its interrupt pending and the record of the error. -/
theorem settled_engHalt {n mem index code : Nat} {s : State} (hn : n < 8) (hc : faultClass code ≠ .i) (ho : oncePerFrame code = false)
    (hbusy : s.bit Reg.CEC_STAT_BUSY n = true) : let t := settleAll (engHalt n mem index code s)
    t.e n = { s.e n with halted := true } ∧ (∀ m, m ≠ n → t.e m = s.e m) ∧ t.bit Reg.CEC_STAT_BUSY n = true ∧
    t.isHeld code = true ∧ t.pends (35 + 4 * n) = true ∧ t.on Reg.CEC_ECC_UNC = true ∧
    t.rd (Reg.CEC_En_LAST_ELAPSED n) = min (s.e n).cycles 0xFFFF ∧ t.rd (Reg.CEC_En_LAST_FN n) = s.fn % 2 ^ 16 ∧
    (s.on Reg.CEC_ECC_UNC = false →
      t.rd Reg.CEC_ECC_ENG = n ∧ t.rd Reg.CEC_ECC_MEM = mem % 4 ∧ t.rd Reg.CEC_ECC_ADDR = index % 2 ^ 14) := by
  intro t
  have hcycles : ((engHalted n s).e n).cycles = (s.e n).cycles := by rw [engHalted, State.e_setE, if_pos rfl]
  have hafter : OnlyFaults (haltNoted n mem index s) t :=
    ((OnlyFaults.raiseAx code n _).trans (.irq _ _ (by omega))).trans (.settleAll _)
  have hlast := KeepsEngines.engLast n ((engHalted n s).e n).cycles (engHalted n s) hn
  have hecc := KeepsEngines.eccRecord n mem index (engLast n ((engHalted n s).e n).cycles (engHalted n s))
  have heng : ∀ m, t.e m = (engHalted n s).e m := fun m => by
    rw [State.e, hafter.eng]
    exact (hecc.e m).trans (hlast.e m)
  have hshared : ∀ f : Fld, f.key / 0x80000 = 0x4004 → f.key < Reg.CEC_TR_DROP.key →
      (engLast n ((engHalted n s).e n).cycles (engHalted n s)).rd f = s.rd f := by
    intro f hf hlt
    refine hlast.rd f hf fun g hg => ?_
    have := (cecEngine_block n hn g (by simp only [lastFlds, List.mem_cons, List.not_mem_nil, or_false] at hg ⊢; tauto)).2
    omega
  have hown : ∀ f ∈ lastFlds n, t.rd f = (engLast n ((engHalted n s).e n).cycles (engHalted n s)).rd f := by
    intro f hf
    have hblock := cecEngine_block n hn f (by simp only [lastFlds, List.mem_cons, List.not_mem_nil, or_false] at hf ⊢; tauto)
    refine (hafter.rd f (cec_not_ofFaults hblock.1)).trans (hecc.rd f hblock.1 fun g hg => ?_)
    have hlow : ∀ g ∈ eccFlds, g.key < Reg.CEC_TR_DROP.key := by decide
    have := hlow g hg
    omega
  obtain ⟨hunc, hrec⟩ := eccRecord_effect n mem index (engLast n ((engHalted n s).e n).cycles (engHalted n s))
  refine ⟨by rw [heng, engHalted, State.e_setE, if_pos rfl], fun m hm => by rw [heng, engHalted, State.e_setE, if_neg hm.symm],
    ?_, ?_, ?_, ?_, ?_, ?_, ?_⟩
  · rw [hafter.bit _ _ (by decide), haltNoted, hecc.bit _ _ (by decide) (by decide), State.bit, hshared _ (by decide) (by decide)]
    exact hbusy
  · exact (OnlyFaults.settleAll _).held code ((OnlyFaults.irq _ _ (by omega)).held code (raiseAx_isHeld code n _ hc ho))
  · exact (OnlyFaults.settleAll _).pends _ (by omega) (irq_pends _ _ (by omega))
  · rw [hafter.on _ (by decide)]
    exact hunc
  · rw [hown _ (by simp [lastFlds]), engLast_elapsed, hcycles]
  · rw [hown _ (by simp [lastFlds]), engLast_fn]; rfl
  · intro hoff
    rw [hafter.rd _ (by decide), hafter.rd _ (by decide), hafter.rd _ (by decide)]
    obtain ⟨heng, hmem, haddr⟩ := hrec (by rw [State.on, hshared _ (by decide) (by decide)]; exact hoff)
    exact ⟨heng.trans (Nat.mod_eq_of_lt hn), hmem, haddr⟩

theorem engineFault_class (n : Fin 8) : (faultClass (Fc.ENG_ECC_UNCORR n) ≠ .i ∧ oncePerFrame (Fc.ENG_ECC_UNCORR n) = false) ∧
    (faultClass (Fc.ENG_ILLEGAL n) ≠ .i ∧ oncePerFrame (Fc.ENG_ILLEGAL n) = false) ∧
    faultClass (Fc.FORECAST n) ≠ .i ∧ oncePerFrame (Fc.FORECAST n) = false := by
  revert n; decide +kernel

theorem busy_of_engLive {s : State} {n : Nat} (h : s.engLive n = true) : s.bit Reg.CEC_STAT_BUSY n = true := by
  simp only [State.engLive, Bool.and_eq_true] at h
  exact h.1.1

/-! ### The trace record of a completed run (R121 to R123, R369) -/

/-- The fields that trace capture writes. -/
def traceFlds : List Fld := [Reg.CEC_TR_WP, Reg.CEC_TR_RP, Reg.CEC_TR_DROP]

theorem KeepsEngines.traceWords (ws : List Nat) (s : State) : KeepsEngines traceFlds s (traceWords ws s) := by
  induction ws generalizing s with
  | nil => exact .refl _ s
  | cons w ws ih =>
    refine KeepsEngines.trans ?_ (ih _)
    refine KeepsEngines.trans ?_ (.wr _ Reg.CEC_TR_WP _ (by simp [traceFlds]) rfl)
    exact .aside _ rfl rfl rfl rfl

theorem KeepsEngines.tracePut (rec : List Nat) (s : State) : KeepsEngines traceFlds s (tracePut rec s) := by
  unfold Machine.tracePut; split
  · exact .traceWords rec s
  · exact .wr s _ _ (by simp [traceFlds]) rfl

theorem WritesRing.ringPutsRaw {r : Nat} (hr : r < 16) (us : List (List Nat)) (s : State) :
    WritesRing r s (us.foldl (fun s u => Machine.ringPutRaw r u s) s) := by
  induction us generalizing s with
  | nil => exact .refl r s
  | cons u us ih => exact (WritesRing.ringPutRaw hr u s).trans (ih _)

/-- A stream record writes its ring, or is counted as dropped. -/
theorem KeepsEngines.streamRecord (l : List Fld) {r : Nat} (hr : r < 16) (kind fn : Nat) (data : List Nat) (s : State) :
    KeepsEngines l s (streamRecord r kind fn data s) := by
  unfold Machine.streamRecord; dsimp only; split
  · exact WritesRing.keepsEngines l (((WritesRing.ringPutRaw hr _ s).trans (.ringPutsRaw hr _ _)).trans (.ringNotify hr _ _))
  · exact {
      rd := fun f hf _ => s.rd_wr_ne _ f _ fun e => by rw [← e] at hf; revert hf; decide
      time := rfl
      eng := rfl
      held := fun _ hc => hc
      pends := fun src hsrc hp => by
        have hne : ∀ k : Fin 8, Reg.HIF_DROP_STREAM.key ≠ (Reg.INTC_PENDk k).key := by decide
        exact (s.bit_wr_ne _ _ _ _ (hne ⟨src / 32, by omega⟩)).trans hp }

theorem KeepsEngines.traceDrain (k : Nat) {r : Nat} (hr : r < 16) (s : State) : KeepsEngines traceFlds s (traceDrain k r s) := by
  induction k generalizing s with
  | zero => exact .refl _ s
  | succ k ih =>
    unfold Machine.traceDrain; split
    · exact .refl _ s
    · refine KeepsEngines.trans ?_ (ih _)
      exact (KeepsEngines.wr s Reg.CEC_TR_RP _ (by simp [traceFlds]) rfl).trans (.streamRecord _ hr _ _ _ _)

theorem ringOfKind_lt {s : State} {kind r : Nat} (h : s.ringOfKind kind = some r) : r < 16 :=
  List.mem_range.mp (List.mem_of_find?_eq_some h)

theorem KeepsEngines.engTrace (n : Nat) (s : State) : KeepsEngines traceFlds s (engTrace n s) := by
  unfold Machine.engTrace; split
  · dsimp only; split
    · exact .tracePut _ s
    · next r hring => exact (KeepsEngines.tracePut _ s).trans (.traceDrain _ (ringOfKind_lt hring) _)
  · exact .refl _ s

/-! ### The completion of a run (R110, R112, R117, R124) -/

/-- The flag of a completion stands, its interrupt is pending and its fault, if it is new, held; a flag that is not set changes
nothing. -/
theorem engForecast_effect (n : Nat) (flag prev : Bool) (s : State) (hn : n < 8) : let t := engForecast n flag prev s
    KeepsEngines [Reg.CEC_FLAG_FCST] s t ∧ (flag = true → t.bit Reg.CEC_FLAG_FCST n = true ∧ t.pends (33 + 4 * n) = true) ∧
    (flag = true → prev = false → t.isHeld (Fc.FORECAST n) = true) := by
  cases flag with
  | false => exact ⟨.refl _ s, nofun, nofun⟩
  | true =>
    intro t
    let x := s.wrBit Reg.CEC_FLAG_FCST n true
    have hraise : OnlyFaults (irq (33 + 4 * n) x) t := .when _ _ (.refl _) (.raiseAx _ _ _)
    have hof : OnlyFaults x t := (OnlyFaults.irq x _ (by omega)).trans hraise
    refine ⟨KeepsEngines.trans (.wr s _ _ (by simp) rfl) (hof.keepsEngines _),
      fun _ => ⟨?_, hraise.pends _ (by omega) (irq_pends _ _ (by omega))⟩, fun _ hprev => ?_⟩
    · rw [hof.bit _ _ (by decide), State.bit_wrBit _ _ _ _ _ _ rfl hn, if_pos rfl]
    · subst hprev
      exact raiseAx_isHeld _ n _ (engineFault_class ⟨n, hn⟩).2.2.1 (engineFault_class ⟨n, hn⟩).2.2.2

theorem engSatAt_effect (n : Nat) (sat : Bool) (s : State) (hn : n < 8) : let t := engSatAt n sat s
    KeepsEngines [Reg.CEC_FLAG_SAT] s t ∧ (sat = true → t.bit Reg.CEC_FLAG_SAT n = true ∧ t.pends (34 + 4 * n) = true) := by
  cases sat with
  | false => exact ⟨.refl _ s, nofun⟩
  | true =>
    intro t
    let x := s.wrBit Reg.CEC_FLAG_SAT n true
    have hraise : OnlyFaults (irq (34 + 4 * n) x) t := .when _ _ (.refl _) (.raiseAx _ _ _)
    have hof : OnlyFaults x t := (OnlyFaults.irq x _ (by omega)).trans hraise
    refine ⟨KeepsEngines.trans (.wr s _ _ (by simp) rfl) (hof.keepsEngines _),
      fun _ => ⟨?_, hraise.pends _ (by omega) (irq_pends _ _ (by omega))⟩⟩
    rw [hof.bit _ _ (by decide), State.bit_wrBit _ _ _ _ _ _ rfl hn, if_pos rfl]

/-- A clock that passes leaves the engine block. -/
theorem advance_rd_cec (n : Nat) (s : State) (f : Fld) (hf : f.key / 0x80000 = 0x4004) : (advance n s).rd f = s.rd f := by
  unfold advance State.when; dsimp only; split
  · refine ((OnlyFaults.irq _ 218 (by decide)).rd f (cec_not_ofFaults hf)).trans ?_
    exact State.rd_put_ne _ _ _ _ fun e => by rw [← e] at hf; revert hf; decide
  · rfl

/-- What a completion notes of its run at its clock `u`, before the flags raise anything. -/
def runNoted (n : Nat) (e : EngSt) (u : State) : State :=
  let s := u.setE n { e with ended := false, fcstPrev := e.fcst, doneFc := some u.fcNat }
  let s := (s.wrBit Reg.CEC_STAT_BUSY n false).wrBit Reg.CEC_STAT_DONE n true
  engFlags n e.sat e.fcst (s.stoppedNow n) (engLast n e.cycles s)

theorem engComplete_eq (n : Nat) (s : State) : engComplete n s =
    irq (32 + 4 * n) (engTrace n (engSatAt n (s.e n).sat (engForecast n (s.e n).fcst (s.e n).fcstPrev
      (runNoted n (s.e n) (advanceTo ((s.e n).startClk + ceilDiv (2 * (s.e n).cycles) 3) s))))) := rfl

/-- The flags of the frame. -/
theorem engFlags_effect (n : Nat) (sat fcst ovr : Bool) (s : State) : let t := engFlags n sat fcst ovr s
    t.on (Reg.CEC_En_FRAME_SAT n) = sat ∧ t.on (Reg.CEC_En_FRAME_FCST n) = fcst ∧ t.on (Reg.CEC_En_FRAME_OVR n) = ovr := by
  have hne : (Reg.CEC_En_FRAME_FCST n).key ≠ (Reg.CEC_En_FRAME_SAT n).key ∧ (Reg.CEC_En_FRAME_OVR n).key ≠ (Reg.CEC_En_FRAME_SAT n).key ∧
      (Reg.CEC_En_FRAME_OVR n).key ≠ (Reg.CEC_En_FRAME_FCST n).key := by
    simp only [Reg.CEC_En_FRAME_SAT, Reg.CEC_En_FRAME_FCST, Reg.CEC_En_FRAME_OVR]; omega
  obtain ⟨hfs, hos, hof⟩ := hne
  refine ⟨?_, ?_, State.on_put_self _ _ _ rfl⟩
  · rw [engFlags, State.on_put_ne _ _ _ _ hos, State.on_put_ne _ _ _ _ hfs, State.on_put_self _ _ _ rfl]
  · rw [engFlags, State.on_put_ne _ _ _ _ hof, State.on_put_self _ _ _ rfl]

/-- The fields of the flags of the frame. -/
def frameFlds (n : Nat) : List Fld := [Reg.CEC_En_FRAME_SAT n, Reg.CEC_En_FRAME_FCST n, Reg.CEC_En_FRAME_OVR n]

theorem KeepsEngines.engFlags (n : Nat) (sat fcst ovr : Bool) (s : State) (hn : n < 8) :
    KeepsEngines (frameFlds n) s (engFlags n sat fcst ovr s) :=
  ((KeepsEngines.wr s _ _ (by simp [frameFlds]) (cecEngine_block n hn _ (by simp)).1).trans
    (.wr _ _ _ (by simp [frameFlds]) (cecEngine_block n hn _ (by simp)).1)).trans
    (.wr _ _ _ (by simp [frameFlds]) (cecEngine_block n hn _ (by simp)).1)

theorem runNoted_effect (n : Nat) (e : EngSt) (u : State) (hn : n < 8) : let t := runNoted n e u
    t.time = u.time ∧ t.rd Reg.CEC_ECC_CORR_CNT = u.rd Reg.CEC_ECC_CORR_CNT ∧
    t.bit Reg.CEC_STAT_BUSY n = false ∧ t.bit Reg.CEC_STAT_DONE n = true ∧
    t.e n = { e with ended := false, fcstPrev := e.fcst, doneFc := some u.time.fc.toNat } ∧
    t.rd (Reg.CEC_En_LAST_ELAPSED n) = min e.cycles 0xFFFF ∧ t.rd (Reg.CEC_En_LAST_FN n) = u.fn % 2 ^ 16 ∧
    t.on (Reg.CEC_En_FRAME_SAT n) = e.sat ∧ t.on (Reg.CEC_En_FRAME_FCST n) = e.fcst ∧
    t.on (Reg.CEC_En_FRAME_OVR n) = decide (e.stopFc = some u.time.fc.toNat) ∧ ∀ m, m ≠ n → t.e m = u.e m := by
  intro t
  let x := u.setE n { e with ended := false, fcstPrev := e.fcst, doneFc := some u.fcNat }
  let y := (x.wrBit Reg.CEC_STAT_BUSY n false).wrBit Reg.CEC_STAT_DONE n true
  have hlast := KeepsEngines.engLast n e.cycles y hn
  have hflags := KeepsEngines.engFlags n e.sat e.fcst (y.stoppedNow n) (engLast n e.cycles y) hn
  have hshared : ∀ f : Fld, f.key / 0x80000 = 0x4004 → f.key < Reg.CEC_TR_DROP.key → t.rd f = y.rd f := by
    intro f hf hlt
    have hne : ∀ g ∈ lastFlds n ++ frameFlds n, g.key ≠ f.key := fun g hg => by
      have := (cecEngine_block n hn g hg).2
      omega
    rw [List.forall_mem_append] at hne
    exact (hflags.rd f hf hne.2).trans (hlast.rd f hf hne.1)
  have hown : ∀ f ∈ lastFlds n, t.rd f = (engLast n e.cycles y).rd f := by
    refine fun f hf => hflags.rd f (cecEngine_block n hn f ?_).1 ?_
    · simp only [lastFlds, List.mem_cons, List.not_mem_nil, or_false] at hf ⊢; tauto
    · revert f
      simp only [lastFlds, frameFlds, List.forall_mem_cons, List.not_mem_nil, false_implies, implies_true, and_true,
        Reg.CEC_En_FRAME_SAT, Reg.CEC_En_FRAME_FCST, Reg.CEC_En_FRAME_OVR, Reg.CEC_En_LAST_ELAPSED, Reg.CEC_En_LAST_FN]
      omega
  have heng : ∀ m, t.e m = x.e m := fun m => (hflags.e m).trans (hlast.e m)
  obtain ⟨hsat, hfcst, hovr⟩ := engFlags_effect n e.sat e.fcst (y.stoppedNow n) (engLast n e.cycles y)
  refine ⟨hflags.time.trans hlast.time, ?_, ?_, ?_, ?_, ?_, ?_, hsat, hfcst, ?_, fun m hm => ?_⟩
  · rw [hshared _ (by decide) (by decide)]
    exact (State.rd_wr_ne _ _ _ _ (by decide)).trans (State.rd_wr_ne _ _ _ _ (by decide))
  · rw [State.bit, hshared _ (by decide) (by decide)]
    exact (State.bit_wr_ne _ _ _ _ _ (by decide)).trans ((State.bit_wrBit _ _ _ _ _ _ rfl hn).trans (if_pos rfl))
  · rw [State.bit, hshared _ (by decide) (by decide)]
    exact (State.bit_wrBit _ _ _ _ _ _ rfl hn).trans (if_pos rfl)
  · rw [heng, State.e_setE, if_pos rfl]; rfl
  · rw [hown _ (by simp [lastFlds]), engLast_elapsed]
  · rw [hown _ (by simp [lastFlds]), engLast_fn]; rfl
  · refine hovr.trans ?_
    have : (y.e n).stopFc = e.stopFc := by
      show ((u.setE n _).e n).stopFc = _
      rw [State.e_setE, if_pos rfl]
    rw [State.stoppedNow, this]; rfl
  · rw [heng, State.e_setE, if_neg hm.symm]

/-- The clock at which a run completes (R110). -/
def State.atCompletion (s : State) (n : Nat) : State := advanceTo ((s.e n).startClk + (2 * (s.e n).cycles + 2) / 3) s

theorem atCompletion_e (s : State) (n m : Nat) : (s.atCompletion n).e m = s.e m := by
  rw [State.e, State.atCompletion, advanceTo, advance_frame]; rfl

/-- The fields that a completion writes once its run is noted. -/
def completeFlds : List Fld := [Reg.CEC_FLAG_FCST, Reg.CEC_FLAG_SAT] ++ traceFlds

/-- What follows the noting of a run: the flags and their faults, the trace record and the interrupt of the completion. -/
theorem engComplete_effect (n : Nat) (s : State) (hn : n < 8) : let e := s.e n; let t := engComplete n s
    KeepsEngines completeFlds (runNoted n e (s.atCompletion n)) t ∧ t.pends (32 + 4 * n) = true ∧
    (e.fcst = true → t.bit Reg.CEC_FLAG_FCST n = true ∧ t.pends (33 + 4 * n) = true) ∧
    (e.fcst = true → e.fcstPrev = false → t.isHeld (Fc.FORECAST n) = true) ∧
    (e.sat = true → t.bit Reg.CEC_FLAG_SAT n = true ∧ t.pends (34 + 4 * n) = true) := by
  intro e t
  let u := engForecast n e.fcst e.fcstPrev (runNoted n e (s.atCompletion n))
  let v := engSatAt n e.sat u
  have ht : t = irq (32 + 4 * n) (engTrace n v) := by
    rw [show t = _ from engComplete_eq n s, ceilDiv]; rfl
  obtain ⟨hu, hfcst, hheld⟩ := engForecast_effect n e.fcst e.fcstPrev (runNoted n e (s.atCompletion n)) hn
  obtain ⟨hv, hsat⟩ := engSatAt_effect n e.sat u hn
  have htrace : KeepsEngines traceFlds v t := by
    rw [ht]
    exact (KeepsEngines.engTrace n v).trans ((OnlyFaults.irq _ _ (by omega)).keepsEngines _)
  have hafter : KeepsEngines (Reg.CEC_FLAG_SAT :: traceFlds) u t :=
    (hv.mono (by simp)).trans (htrace.mono (by simp))
  refine ⟨(hu.mono (by simp [completeFlds])).trans (hafter.mono (by simp [completeFlds])), ?_, fun h => ⟨?_, ?_⟩, fun h hprev => ?_,
    fun h => ⟨?_, ?_⟩⟩
  · rw [ht]; exact irq_pends _ _ (by omega)
  · exact (hafter.bit _ _ (by decide) (by decide)).trans (hfcst h).1
  · exact hafter.pends _ (by omega) (hfcst h).2
  · exact hafter.held _ (hheld h hprev)
  · exact (htrace.bit _ _ (by decide) (by decide)).trans (hsat h).1
  · exact htrace.pends _ (by omega) (hsat h).2

/-- A corrected error of a traced word is counted, and nothing else of the engine block is written. -/
theorem countCorr_effect (c : Bool) (n : Nat) (s : State) : let t := settleAll (s.when c (eccCorr n))
    KeepsEngines [Reg.CEC_ECC_CORR_CNT] s t ∧
    t.rd Reg.CEC_ECC_CORR_CNT = min (s.rd Reg.CEC_ECC_CORR_CNT + b2n c) (2 ^ 16 - 1) := by
  cases c with
  | false =>
    intro t
    have hof : OnlyFaults s t := .settleAll s
    refine ⟨hof.keepsEngines _, (hof.rd _ (by decide)).trans ?_⟩
    exact (Nat.min_eq_left (Nat.le_sub_one_of_lt (s.rd_lt Reg.CEC_ECC_CORR_CNT))).symm
  | true =>
    intro t
    have hof : OnlyFaults (s.inc Reg.CEC_ECC_CORR_CNT) t := (eccCorr_onlyFaults n s).trans (.settleAll _)
    refine ⟨KeepsEngines.trans (.wr s _ _ (by simp) rfl) (hof.keepsEngines _), (hof.rd _ (by decide)).trans ?_⟩
    refine (State.rd_wr_self _ _ _).trans (Nat.mod_eq_of_lt ?_)
    exact Nat.lt_of_le_of_lt (Nat.min_le_right _ _) (by decide)

/-- The fields of the engine block that a completion leaves as the noting of its run left them. -/
theorem completed_effect (n : Nat) (c : Bool) (s : State) (hn : n < 8) : let e := s.e n; let u := s.atCompletion n
    let t := settleAll ((engComplete n s).when c (eccCorr n))
    t.time = u.time ∧ t.rd Reg.CEC_ECC_CORR_CNT = min (s.rd Reg.CEC_ECC_CORR_CNT + b2n c) (2 ^ 16 - 1) ∧
    t.bit Reg.CEC_STAT_BUSY n = false ∧ t.bit Reg.CEC_STAT_DONE n = true ∧ t.pends (32 + 4 * n) = true ∧
    t.e n = { e with ended := false, fcstPrev := e.fcst, doneFc := some u.time.fc.toNat } ∧
    t.rd (Reg.CEC_En_LAST_ELAPSED n) = min e.cycles 0xFFFF ∧ t.rd (Reg.CEC_En_LAST_FN n) = u.fn % 2 ^ 16 ∧
    t.on (Reg.CEC_En_FRAME_SAT n) = e.sat ∧ t.on (Reg.CEC_En_FRAME_FCST n) = e.fcst ∧
    t.on (Reg.CEC_En_FRAME_OVR n) = decide (e.stopFc = some u.time.fc.toNat) ∧
    (e.fcst = true → t.bit Reg.CEC_FLAG_FCST n = true ∧ t.pends (33 + 4 * n) = true) ∧
    (e.fcst = true → e.fcstPrev = false → t.isHeld (Fc.FORECAST n) = true) ∧
    (e.sat = true → t.bit Reg.CEC_FLAG_SAT n = true ∧ t.pends (34 + 4 * n) = true) ∧ ∀ m, m ≠ n → t.e m = s.e m := by
  intro e u t
  obtain ⟨hcount, hcorr⟩ := countCorr_effect c n (engComplete n s)
  obtain ⟨hflags, hpend, hfcst, hheld, hsat⟩ := engComplete_effect n s hn
  obtain ⟨htime, hcnt, hclear, hdone, he, helapsed, hfn, hfsat, hffcst, hovr, hothers⟩ := runNoted_effect n e u hn
  have hlater : KeepsEngines (Reg.CEC_ECC_CORR_CNT :: completeFlds) (runNoted n e u) t :=
    (hflags.mono (by simp)).trans (hcount.mono (by simp))
  have hblock := cecEngine_block n hn
  simp only [List.forall_mem_cons, List.not_mem_nil, false_implies, implies_true, and_true] at hblock
  obtain ⟨⟨hb1, hk1⟩, ⟨hb2, hk2⟩, ⟨hb3, hk3⟩, ⟨hb4, hk4⟩, hb5, hk5⟩ := hblock
  have hhigh : ∀ f : Fld, Reg.CEC_TR_DROP.key < f.key → ∀ g ∈ Reg.CEC_ECC_CORR_CNT :: completeFlds, g.key ≠ f.key := fun f hf g hg => by
    have hlow : ∀ g ∈ Reg.CEC_ECC_CORR_CNT :: completeFlds, g.key ≤ Reg.CEC_TR_DROP.key := by decide
    have := hlow g hg
    omega
  refine ⟨hlater.time.trans htime, ?_, (hlater.bit _ _ (by decide) (by decide)).trans hclear,
    (hlater.bit _ _ (by decide) (by decide)).trans hdone, hcount.pends _ (by omega) hpend, (hlater.e n).trans he,
    (hlater.rd _ hb1 (hhigh _ hk1)).trans helapsed, (hlater.rd _ hb2 (hhigh _ hk2)).trans hfn,
    (hlater.on _ hb3 (hhigh _ hk3)).trans hfsat, (hlater.on _ hb4 (hhigh _ hk4)).trans hffcst,
    (hlater.on _ hb5 (hhigh _ hk5)).trans hovr,
    fun h => ⟨(hcount.bit _ _ (by decide) (by decide)).trans (hfcst h).1, hcount.pends _ (by omega) (hfcst h).2⟩,
    fun h hprev => hcount.held _ (hheld h hprev),
    fun h => ⟨(hcount.bit _ _ (by decide) (by decide)).trans (hsat h).1, hcount.pends _ (by omega) (hsat h).2⟩,
    fun m hm => (hlater.e m).trans ((hothers m hm).trans (atCompletion_e s n m))⟩
  rw [show t.rd Reg.CEC_ECC_CORR_CNT = _ from hcorr, hflags.rd _ (by decide) (by decide), hcnt,
    show u.rd Reg.CEC_ECC_CORR_CNT = _ from advance_rd_cec _ s _ (by decide)]

theorem engineCompletion_exec (n : Fin 8) (corr : Bool) (s : State) (hlive : s.live (engDomain n) = true)
    (hbusy : s.bit Reg.CEC_STAT_BUSY n = true) (hended : (s.e n).ended = true) :
    exec (.engineCompletion n corr) s = done ((engComplete n s).when (corr && s.bit Reg.CEC_CTRL_TREN n) (eccCorr n)) := by
  show execEngineCompletion n corr s = _
  unfold execEngineCompletion
  rw [if_neg (by simp [hlive]), if_pos (by simp [hbusy, hended])]

/-- Settles O8: the halts by what a halt leaves, the completion by what follows the noting of its run. -/
theorem engineErrorsAndCompletion : Obligations.EngineErrorsAndCompletion := by
  unfold Obligations.EngineErrorsAndCompletion
  refine ⟨fun n k i s p hp hat => ?_, fun n s hlive hrun hvalid => ?_, fun n corr s hlive hbusy hended =>
    completes_of_settleAll (engineCompletion_exec n corr s hlive hbusy hended) (completed_effect n _ s n.isLt), fun v s hruns hcalm => ?_⟩
  · obtain ⟨f, hexec⟩ := engineCmds_exec n (.uncorrectable k i) p hp
    have hdone := hexec s
    rw [hat.1, engExec_standing f hat] at hdone
    exact completes_of_settleAll hdone
      (settled_engHalt n.isLt (engineFault_class n).1.1 (engineFault_class n).1.2 (busy_of_engLive hat.2.1))
  · have hexec : exec (.engIllegal n) s = done (engHalt n 3 ((s.e n).pc % 2048) (Fc.ENG_ILLEGAL n) s) := by
      show execEngIllegal n s = _
      unfold execEngIllegal
      rw [if_neg (by simp [hlive]), if_pos (by simp [hrun, hvalid])]
    refine completes_of_settleAll hexec ?_
    obtain ⟨he, hothers, hbusy, hheld, hpend, hunc, helapsed, hfn, hrec⟩ :=
      settled_engHalt (mem := 3) (index := (s.e n).pc % 2048) n.isLt (engineFault_class n).2.1.1 (engineFault_class n).2.1.2
        (busy_of_engLive hrun)
    refine ⟨he, hothers, hbusy, hheld, hpend, hunc, helapsed, hfn, fun hoff => ?_⟩
    obtain ⟨heng, hmem, haddr⟩ := hrec hoff
    exact ⟨heng, hmem, haddr.trans (Nat.mod_eq_of_lt (Nat.lt_trans (Nat.mod_lt _ (by decide)) (by decide)))⟩
  · have hexec : exec (.traceRpWrite v) s = done (s.wr Reg.CEC_TR_RP (v.toNat % 2 ^ 20)) := by
      show execTraceRpWrite v s = _
      unfold execTraceRpWrite
      rw [if_neg (by simp [hruns])]
    exact completes_of_done_calm hexec hcalm rfl

end Sys2Proof.Machine
end

section
/-! ENGINE and SEALED containers: what forbids a load, its acceptance, and what the engine will take up (O43; R92 to R94, R449, R458,
R476, R478, R479). -/
namespace Sys2Proof.Machine

/-! ### A load that joins what the engine takes up (R93) -/

/-- Of the engines a load changes what engine `n` takes up, and it changes no field but those of a verdict. -/
def LoadLeaves (n : Nat) (s t : State) : Prop :=
  (∀ m, m ≠ n → t.e m = s.e m) ∧ t.e n = { s.e n with load := (t.e n).load } ∧ t.time = s.time ∧ t.axs = s.axs ∧
    ∀ f, Fld.ofFaults f = false → f.key / 0x80000 ≠ 0x400C → f.key / 0x80000 ≠ 0x4012 → f.key / 0x80000 ≠ 0x4013 → t.rd f = s.rd f

/-- A load has joined what engine `n` takes up, and Crucible has given its verdict. -/
def LoadJoins (n : Nat) (src : CrucSrc) (c : Container) (code check : Nat) (prog : Option (List Nat × List Nat × List Nat × Nat))
    (coefs : List (Nat × Nat)) (s t : State) : Prop :=
  LoadLeaves n s t ∧ (∃ u : State, u.sec.queue = s.sec.queue ∧ u.sec.sealBar = s.sec.sealBar ∧ (s.calm → u.calm) ∧ u.fcu = s.fcu ∧
    Verdict src c code check u t) ∧
  match (s.e n).load with
  | none => (t.e n).load = some { program := prog, coefs := coefs }
  | some l => (t.e n).load = some { l with program := if prog.isSome = true then prog else l.program, coefs := l.coefs ++ coefs }

/-- The load that engine `n` takes up once another joins it. -/
theorem engLoad_e (n : Nat) (prog : Option (List Nat × List Nat × List Nat × Nat)) (coefs : List (Nat × Nat)) (s : State) :
    (∀ m, m ≠ n → (engLoad n prog coefs s).e m = s.e m) ∧
    (engLoad n prog coefs s).e n = { s.e n with load := ((engLoad n prog coefs s).e n).load } ∧
    match (s.e n).load with
    | none => ((engLoad n prog coefs s).e n).load = some { program := prog, coefs := coefs }
    | some l => ((engLoad n prog coefs s).e n).load =
        some { l with program := if prog.isSome = true then prog else l.program, coefs := l.coefs ++ coefs } := by
  refine ⟨fun m hm => (State.e_setE _ _ _ _).trans (if_neg hm.symm), ?_, ?_⟩
  · unfold engLoad
    rw [State.e_setE, if_pos rfl]
  · cases hload : (s.e n).load with
    | none =>
      unfold engLoad
      rw [State.e_setE, if_pos rfl, hload]
    | some l =>
      unfold engLoad
      rw [State.e_setE, if_pos rfl, hload]

section
variable {i : Instr} {eff : Container → State → Option (Nat × Nat) × State} {src : CrucSrc} {b : Container} {s : State}
  (hexec : exec i s = done (passed eff src b s))
include hexec

/-- A container whose content is refused where it stands. -/
theorem completes_refused {code check : Nat} (heff : eff b s = (some (code, check), s)) (hcode : code < 2 ^ 8) (hcheck : check < 2 ^ 8) :
    Completes i s (Verdict src b code check s) := by
  refine completes_of_settleAll hexec ?_
  rw [passed_verdict heff]
  exact verdict_settled src b code check s hcode hcheck

/-- A container accepted for its target stays in process. -/
theorem completes_accepted (heff : eff b s = (none, acceptLoad b s)) :
    Completes i s (Settled { s with sec := { s.sec with accepted := some b.target } }) := by
  refine completes_of_done hexec fun t ht => ?_
  rw [passed_none heff] at ht
  exact ht

/-- A load that the engine will take up, with its verdict. -/
theorem completes_joins {n code check : Nat} {prog : Option (List Nat × List Nat × List Nat × Nat)} {coefs : List (Nat × Nat)} {x : SecSt}
    (heff : eff b s = (some (code, check), setSec x (engLoad n prog coefs s))) (hqueue : x.queue = s.sec.queue)
    (hbar : x.sealBar = s.sec.sealBar) (hcode : code < 2 ^ 8) (hcheck : check < 2 ^ 8) (hbars : check ≠ 0x26) :
    Completes i s fun t => LoadJoins n src b code check prog coefs s t ∧ t.sec.engD = x.engD ∧ t.sec.seaD = x.seaD := by
  refine completes_of_settleAll hexec ?_
  rw [passed_verdict heff]
  have hverdict := verdict_settled src b code check (setSec x (engLoad n prog coefs s)) hcode hcheck
  generalize settleAll (verdict src b code check (setSec x (engLoad n prog coefs s))) = t at hverdict
  obtain ⟨-, hsec, -, -, -, hbeside, -, -, -, -, -, hrd⟩ := id hverdict
  simp only [State.besideReport, Prod.mk.injEq] at hbeside
  obtain ⟨htime, heng, -, -, -, -, -, -, haxs, -⟩ := hbeside
  have he : ∀ m, t.e m = (engLoad n prog coefs s).e m := fun m => by rw [State.e, heng]; rfl
  obtain ⟨hothers, hown, hload⟩ := engLoad_e n prog coefs s
  rw [← he n] at hown hload
  refine ⟨⟨⟨fun m hm => (he m).trans (hothers m hm), hown, htime, haxs, fun f hf hhif hdbg hsecf => ?_⟩,
    ⟨setSec x (engLoad n prog coefs s), hqueue, hbar, fun hcalm => hcalm, rfl, hverdict⟩, hload⟩, congrArg (·.engD) hsec,
    congrArg (·.seaD) hsec⟩
  exact hrd f hf hhif hdbg hsecf fun h => absurd h.2.2.2 hbars

end

/-! ### ENGINE (R92 to R94, R449) -/

theorem loadCheck_le (e : EngSt) (prog pages nodes : List Nat) : loadCheck e prog pages nodes ≤ 7 := by
  unfold loadCheck
  (repeat' split) <;> decide

theorem loadBlocked_eq (s : State) (n : Nat) : s.loadBlocked n = true ↔ s.ax n ≠ axDISABLED := by simp [State.loadBlocked]

/-- The first failing check of R94 over an ENGINE payload and the contents after its load. -/
def engineCheck (n : Nat) (p : EnginePayload) (s : State) : Nat :=
  loadCheck { (s.future n).1 with coef := p.coefs.foldl (fun m x => SMap.set 0 m x.1 x.2) (s.future n).1.coef } p.prog p.pages p.nodes

section
variable {b : Container} {s : State}

theorem engineEff_blocked (report : Bool) (h : s.ax b.target ≠ axDISABLED) : engineEff report b s = (some (0x0D, 0), s) := by
  unfold engineEff
  exact if_pos ((loadBlocked_eq s _).mpr h)

theorem engineEff_open (report : Bool) (h : ¬ s.ax b.target ≠ axDISABLED) : engineEff report b s = if (! report) = true then (none, acceptLoad b s)
    else match readEngine b.body with
      | none => (some (0x0C, 0x30), s)
      | some p =>
        if engineCheck b.target p s ≠ 0 then (some (0x0C, engineCheck b.target p s), s)
        else (some (0, 0), setSec { s.sec with engD := SMap.set [] s.sec.engD b.target b.digest }
          (engLoad b.target (some (fullProgram p.prog, p.pages, p.nodes, p.id)) p.coefs s)) := by
  unfold engineEff
  exact (if_neg fun hblocked => h ((loadBlocked_eq s _).mp hblocked)).trans rfl

end

theorem engineLoad_exec {c : Container} {report : Bool} {src : CrucSrc} {s : State} (h : s.passes 2 src (s.contents src c)) :
    exec (.engineLoad c report) s = done (passed (engineEff report) src (s.contents src c) s) := by
  have hup : s.crucUp = true := h.1
  show execEngineLoad c report s = _
  unfold execEngineLoad
  rw [if_neg (by simp [hup])]
  exact crucible_passes h (engineEff report)

/-- What an ENGINE container that breaks no layout answers on its report. -/
theorem engineLoad_judged (c : Container) (src : CrucSrc) (s : State) (hpass : s.passes 2 src (s.contents src c))
    (hopen : ¬ s.ax (s.contents src c).target ≠ axDISABLED) (p : EnginePayload) (hread : readEngine (s.contents src c).body = some p) :
    let b := s.contents src c
    Completes (.engineLoad c true) s fun t =>
      if engineCheck b.target p s ≠ 0 then Verdict src b 0x0C (engineCheck b.target p s) s t
      else LoadJoins b.target src b 0 0 (some (fullProgram p.prog, p.pages, p.nodes, p.id)) p.coefs s t ∧
        SMap.get [] t.sec.engD b.target = b.digest ∧ t.sec.seaD = s.sec.seaD := by
  intro b
  have heff := engineEff_open true hopen
  rw [if_neg (by decide), hread] at heff
  have hcheck : engineCheck b.target p s ≤ 7 := loadCheck_le _ _ _ _
  by_cases hbad : engineCheck b.target p s ≠ 0
  · simp only [if_pos hbad]
    exact completes_refused (engineLoad_exec hpass) (heff.trans (if_pos hbad)) (by decide) (by omega)
  · simp only [if_neg hbad]
    obtain ⟨t, ht, hjoins, hengD, hseaD⟩ := completes_joins (engineLoad_exec hpass) (heff.trans (if_neg hbad)) rfl rfl (by decide) (by decide)
      (by decide)
    exact ⟨t, ht, hjoins, by rw [hengD, SMap.get_set, if_pos rfl], hseaD⟩

/-! ### SEALED (R458, R476, R478, R479) -/

/-- The refusals of a SEALED container before its acceptance, in their order. -/
theorem sealRefused_eq (b : Container) (s : State) : s.sealRefused b =
    if s.rd Reg.SEC_STAT_DBG = 2 ∨ (s.lc = lcMAKER ∧ s.rd Reg.SEC_STAT_DBG ≠ 0) ∨ s.lc = lcRETURN ∨ s.sec.drsBad = true then some (0x0E, 0)
    else if s.split = true then some (0x0C, 0x26)
    else if s.ax b.target ≠ axDISABLED then some (0x0D, 0)
    else if b.len ≠ (416 + 8 * b.sealCount + 15) / 16 * 16 then some (0x0C, 0x20)
    else if b.sealCount = 0 ∨ 4096 < b.sealFirst + b.sealCount then some (0x0C, 0x23)
    else none := by
  unfold State.sealRefused
  simp only [loadBlocked_eq, ceilDiv]
  rfl

/-- The first failing check of R94 over the contents after a SEALED load, where the engine holds a program. -/
def sealCheck (n : Nat) (words : List (Nat × Nat)) (s : State) : Nat :=
  let e := (s.future n).1
  if (s.future n).2.2 = true then
    loadCheck { e with coef := words.foldl (fun m x => SMap.set 0 m x.1 x.2) e.coef } (SMap.getMany 0 e.prog 0 2048) (s.future n).2.1
      (SMap.getMany 0 e.nodes 0 64)
  else 0

theorem sealCheck_le (n : Nat) (words : List (Nat × Nat)) (s : State) : sealCheck n words s ≤ 7 := by
  unfold sealCheck; dsimp only; split
  · exact loadCheck_le _ _ _ _
  · decide

/-- The entries of a SEALED payload. -/
def sealEntries (b : Container) (plain : List Word) : Option (List (Nat × Nat)) :=
  coefEntries b.sealCount b.sealFirst (padTo (2 * b.sealCount) (plain.map BitVec.toNat))

section
variable {b : Container} {s : State} (unwrapOk tagOk report : Bool) (plain : List Word)

theorem sealEff_refused {r : Nat × Nat} (h : s.sealRefused b = some r) : sealEff unwrapOk tagOk report plain b s = (some r, s) := by
  unfold sealEff
  rw [h]

theorem sealEff_open (h : s.sealRefused b = none) : sealEff unwrapOk tagOk report plain b s =
    if (! report) = true then (none, acceptLoad b s)
    else if (! unwrapOk) = true then (some (0x0C, 0x24), engLoad b.target none [] s)
    else if (! tagOk) = true then (some (0x0C, 0x25), engLoad b.target none [] s)
    else match sealEntries b plain with
      | none => (some (0x0C, 0x23), engLoad b.target none [] s)
      | some es =>
        if sealCheck b.target (es.map sealWord) s ≠ 0 then (some (0x0C, sealCheck b.target (es.map sealWord) s), engLoad b.target none [] s)
        else (some (0, 0), setSec { s.sec with seaD := SMap.set [] s.sec.seaD b.target b.digest }
          (engLoad b.target none (es.map sealWord) s)) := by
  unfold sealEff
  rw [h]
  rfl

end

theorem sealedLoad_exec {c : Container} {unwrapOk tagOk report : Bool} {plain : List Word} {src : CrucSrc} {s : State}
    (h : s.passes 3 src (s.contents src c)) : exec (.sealedLoad c unwrapOk tagOk report plain) s =
      done (passed (sealEff unwrapOk tagOk report plain) src (s.contents src c) s) := by
  have hup : s.crucUp = true := h.1
  show execSealedLoad c unwrapOk tagOk report plain s = _
  unfold execSealedLoad
  rw [if_neg (by simp [hup])]
  exact crucible_passes h (sealEff unwrapOk tagOk report plain)

section
variable (c : Container) (src : CrucSrc) (s : State) (hpass : s.passes 3 src (s.contents src c)) (unwrapOk tagOk report : Bool)
  (plain : List Word)
include hpass

theorem sealedLoad_refused {code check : Nat} (h : s.sealRefused (s.contents src c) = some (code, check)) (hcode : code < 2 ^ 8)
    (hcheck : check < 2 ^ 8) :
    Completes (.sealedLoad c unwrapOk tagOk report plain) s (Verdict src (s.contents src c) code check s) :=
  completes_refused (sealedLoad_exec hpass) (sealEff_refused unwrapOk tagOk report plain h) hcode hcheck

/-- A SEALED load that fails after its acceptance has the engine take up its former contents. -/
theorem sealedLoad_fails {check : Nat} (hcheck : check < 0x26)
    (heff : sealEff unwrapOk tagOk true plain (s.contents src c) s = (some (0x0C, check), engLoad (s.contents src c).target none [] s)) :
    Completes (.sealedLoad c unwrapOk tagOk true plain) s
      (LoadJoins (s.contents src c).target src (s.contents src c) 0x0C check none [] s) := by
  obtain ⟨t, ht, hjoins, -⟩ := completes_joins (x := s.sec) (sealedLoad_exec hpass) heff rfl rfl (by decide) (by omega) (by omega)
  exact ⟨t, ht, hjoins⟩

theorem sealedLoad_accepted (hopen : s.sealRefused (s.contents src c) = none) :
    Completes (.sealedLoad c unwrapOk tagOk false plain) s
      (Settled { s with sec := { s.sec with accepted := some (s.contents src c).target } }) :=
  completes_accepted (sealedLoad_exec hpass) ((sealEff_open unwrapOk tagOk false plain hopen).trans (if_pos rfl))

/-- What a SEALED container whose entries are good answers on its report. -/
theorem sealedLoad_judged (hopen : s.sealRefused (s.contents src c) = none) {es : List (Nat × Nat)}
    (hes : sealEntries (s.contents src c) plain = some es) :
    let b := s.contents src c
    Completes (.sealedLoad c true true true plain) s fun t =>
      if sealCheck b.target (es.map sealWord) s ≠ 0 then
        LoadJoins b.target src b 0x0C (sealCheck b.target (es.map sealWord) s) none [] s t
      else LoadJoins b.target src b 0 0 none (es.map sealWord) s t ∧ SMap.get [] t.sec.seaD b.target = b.digest ∧ t.sec.engD = s.sec.engD := by
  intro b
  have heff := sealEff_open true true true plain hopen
  rw [hes] at heff
  have hcheck := sealCheck_le b.target (es.map sealWord) s
  by_cases hbad : sealCheck b.target (es.map sealWord) s ≠ 0
  · simp only [if_pos hbad]
    exact sealedLoad_fails c src s hpass true true plain (by omega) (heff.trans (if_pos hbad))
  · simp only [if_neg hbad]
    obtain ⟨t, ht, hjoins, hengD, hseaD⟩ := completes_joins (sealedLoad_exec hpass) (heff.trans (if_neg hbad)) rfl rfl (by decide) (by decide)
      (by decide)
    exact ⟨t, ht, hjoins, by rw [hseaD, SMap.get_set, if_pos rfl], hengD⟩

end

/-- Settles O43: the container that passes meets the branch of its content, and the verdict and the load are as the branch says. -/
theorem engineAndSealedLoads : Obligations.EngineAndSealedLoads := by
  unfold Obligations.EngineAndSealedLoads
  refine ⟨fun c report src s => ?_, fun c unwrapOk tagOk report plain src s => ?_⟩
  · intro b hpass
    by_cases hblocked : s.ax b.target ≠ axDISABLED
    · simpa only [if_pos hblocked] using completes_refused (engineLoad_exec hpass) (engineEff_blocked report hblocked) (by decide) (by decide)
    cases report with
    | false =>
      simpa only [if_neg hblocked, if_true] using
        completes_accepted (engineLoad_exec hpass) ((engineEff_open false hblocked).trans (if_pos rfl))
    | true =>
      cases hread : readEngine b.body with
      | none =>
        have heff := engineEff_open true hblocked
        rw [hread] at heff
        simpa only [if_neg hblocked, Bool.true_eq_false, if_false] using
          completes_refused (engineLoad_exec hpass) heff (by decide) (by decide)
      | some p =>
        simp only [if_neg hblocked, Bool.true_eq_false, if_false]
        exact engineLoad_judged c src s hpass hblocked p hread
  · intro b hpass
    have hrefused := sealRefused_eq b s
    by_cases hforbidden : s.rd Reg.SEC_STAT_DBG = 2 ∨ (s.lc = lcMAKER ∧ s.rd Reg.SEC_STAT_DBG ≠ 0) ∨ s.lc = lcRETURN ∨ s.sec.drsBad = true
    · simp only [if_pos hforbidden] at hrefused ⊢
      exact sealedLoad_refused c src s hpass unwrapOk tagOk report plain hrefused (by decide) (by decide)
    by_cases hsplit : s.split = true
    · simp only [if_neg hforbidden, if_pos hsplit] at hrefused ⊢
      exact sealedLoad_refused c src s hpass unwrapOk tagOk report plain hrefused (by decide) (by decide)
    by_cases hblocked : s.ax b.target ≠ axDISABLED
    · simp only [if_neg hforbidden, if_neg hsplit, if_pos hblocked] at hrefused ⊢
      exact sealedLoad_refused c src s hpass unwrapOk tagOk report plain hrefused (by decide) (by decide)
    by_cases hlen : b.len ≠ (416 + 8 * b.sealCount + 15) / 16 * 16
    · simp only [if_neg hforbidden, if_neg hsplit, if_neg hblocked, if_pos hlen] at hrefused ⊢
      exact sealedLoad_refused c src s hpass unwrapOk tagOk report plain hrefused (by decide) (by decide)
    by_cases hspan : b.sealCount = 0 ∨ 4096 < b.sealFirst + b.sealCount
    · simp only [if_neg hforbidden, if_neg hsplit, if_neg hblocked, if_neg hlen, if_pos hspan] at hrefused ⊢
      exact sealedLoad_refused c src s hpass unwrapOk tagOk report plain hrefused (by decide) (by decide)
    simp only [if_neg hforbidden, if_neg hsplit, if_neg hblocked, if_neg hlen, if_neg hspan] at hrefused ⊢
    have heff := sealEff_open unwrapOk tagOk report plain hrefused
    cases report with
    | false => exact sealedLoad_accepted c src s hpass unwrapOk tagOk plain hrefused
    | true =>
      cases unwrapOk with
      | false => exact sealedLoad_fails c src s hpass false tagOk plain (by decide) heff
      | true =>
        cases tagOk with
        | false => exact sealedLoad_fails c src s hpass true false plain (by decide) heff
        | true =>
          cases hes : sealEntries b plain with
          | none =>
            rw [hes] at heff
            have hfails := sealedLoad_fails c src s hpass true true plain (by decide) heff
            unfold sealEntries at hes
            simp only [hes]
            exact hfails
          | some es =>
            have hjudged := sealedLoad_judged c src s hpass plain hrefused hes
            unfold sealEntries at hes
            simp only [hes]
            exact hjudged

end Sys2Proof.Machine
end

section
/-! What the passing of the clock and raised faults leave of the commutation and output blocks (O9, O10, O14). -/
namespace Sys2Proof.Machine

/-! ### Fields of the axes, the power domains, COM, the ADCs and the outputs -/

/-- A field of SYS, PWR, COM, ADC or OUT, which neither the clock nor a raised fault writes. -/
def Fld.ofPlant (f : Fld) : Bool := [0x4000, 0x4001, 0x4005, 0x4007, 0x4008].contains (f.key / 0x80000)

theorem Fld.ofPlant_not_ofFaults {f : Fld} (h : Fld.ofPlant f = true) : Fld.ofFaults f = false := by
  simp only [Fld.ofPlant, List.contains_eq_mem, List.mem_cons, List.not_mem_nil, or_false, decide_eq_true_eq] at h
  have hblock : f.key / 0x80000 ≠ 0x400C ∧ f.key / 0x80000 ≠ 0x400E ∧ f.key / 0x80000 ≠ 0x4010 ∧ f.key / 0x80000 ≠ 0x4011 := by omega
  have hrole : f.key ≠ Reg.SEAM_STAT_ROLE.key := by simp only [Reg.SEAM_STAT_ROLE]; omega
  have hclaim : f.key ≠ Reg.SEAM_CLAIM_CLAIM.key := by simp only [Reg.SEAM_CLAIM_CLAIM]; omega
  simp [Fld.ofFaults, hblock, hrole, hclaim]

theorem Fld.ofPlant_ne_slewing {f : Fld} (h : Fld.ofPlant f = true) : Reg.TIME_STAT_SLEWING.key ≠ f.key := by
  simp only [Fld.ofPlant, List.contains_eq_mem, List.mem_cons, List.not_mem_nil, or_false, decide_eq_true_eq] at h
  simp only [Reg.TIME_STAT_SLEWING]
  omega

/-- The fields of COM of axis n that its commands read or write. -/
def comFlds (n : Nat) : List Fld :=
  [Reg.COM_An_CFG_MEAS n, Reg.COM_An_CFG_NPRED n, Reg.COM_An_SS_CH n, Reg.COM_An_SS_SETTLE n, Reg.COM_An_SS_TMIN n,
    Reg.COM_An_SKIPS n, Reg.COM_An_STAT_PRED_RUN n, Reg.COM_An_STAT_STARVED n, Reg.COM_An_VDCG_FILT n, Reg.COM_An_VDCG_SRC n,
    Reg.COM_An_VDCG_SRCK n, Reg.COM_An_VDCG_TOUT n, Reg.COM_An_VDC1_HI1 n, Reg.COM_An_VDC1_HYST n, Reg.COM_An_VDC2_HI2 n,
    Reg.COM_An_VDC2_TRIP n, Reg.COM_An_VDC_LAST n, Reg.COM_An_VDC_ICH n, Reg.COM_An_STAT_HI1 n, Reg.COM_An_STAT_REGEN_CLAMP n,
    Reg.COM_An_STAT_CHOP_ON n, Reg.COM_An_STAT_CHOP_FAULT n, Reg.COM_An_STAT_CHOP_STUCK n, Reg.COM_An_STAT_TRIP n,
    Reg.COM_An_STAT_VDC_LOST n, Reg.COM_An_CHOP_CH_EN n, Reg.COM_An_CHOP_IMIN n, Reg.COM_An_CHT_IDLY n, Reg.COM_An_CHT_TCHK n]

theorem comFlds_block (n : Fin 8) : ∀ f ∈ comFlds n, f.key / 0x80000 = 0x4005 := by
  have hall : ∀ n : Fin 8, ∀ f ∈ comFlds n, f.key / 0x80000 = 0x4005 := by decide
  exact hall n

theorem comFlds_plant (n : Fin 8) : ∀ f ∈ comFlds n, Fld.ofPlant f = true := by
  intro f hf
  simp [Fld.ofPlant, comFlds_block n f hf]

/-- The fields of OUT and SYS that the commands of a leg, a block or a TRIP input read. -/
def outFlds (n : Nat) : List Fld :=
  [Reg.OUT_An_DT n, Reg.OUT_An_CFG_PINEN n, Reg.OUT_An_CFG_GLEN n, Reg.OUT_TRIPt_EN n, Reg.OUT_TRIPt_AXMASK n, Reg.OUT_TRIP_STAT_LEVEL,
    Reg.OUT_TRIP_STAT_LATCH, Reg.SYS_AXn_STAT_STATE n]

theorem outFlds_plant (n : Fin 8) : ∀ f ∈ outFlds n, Fld.ofPlant f = true := by
  have hall : ∀ n : Fin 8, ∀ f ∈ outFlds n, Fld.ofPlant f = true := by decide
  exact hall n

/-! ### The clock -/

/-- `t` is `s` once the clock has passed: the fields of the plant, COM, the legs, the ADCs and the requests for the safe state
stand. -/
structure AfterClock (s t : State) : Prop where
  rd : ∀ f, Fld.ofPlant f = true → t.rd f = s.rd f
  com : t.com = s.com
  out : t.out = s.out
  adc : t.adc = s.adc
  supReq : t.fcu.supReq = s.fcu.supReq

theorem advance_afterClock (k : Nat) (s : State) : AfterClock s (advance k s) where
  rd f hf := by
    unfold advance State.when
    dsimp only
    split
    · exact ((OnlyFaults.irq _ 218 (by decide)).rd f (Fld.ofPlant_not_ofFaults hf)).trans (State.rd_put_ne _ _ _ _ (Fld.ofPlant_ne_slewing hf))
    · rfl
  com := by rw [advance_frame]
  out := by rw [advance_frame]
  adc := by rw [advance_frame]
  supReq := by
    unfold advance State.when
    dsimp only
    split
    · exact (Reports.irq 218 (by decide) _).request.1
    · rfl

theorem reach_afterClock (tick : Nat) (s : State) : AfterClock s (reach tick s) := advance_afterClock _ s

theorem reach8_afterClock (eighth : Nat) (s : State) : AfterClock s (reach8 eighth s) := advance_afterClock _ s

theorem AfterClock.on {s t : State} (h : AfterClock s t) (f : Fld) (hf : Fld.ofPlant f = true) : t.on f = s.on f := by
  rw [State.on, h.rd f hf]; rfl

theorem AfterClock.c {s t : State} (h : AfterClock s t) (n : Nat) : t.c n = s.c n := by rw [State.c, h.com]; rfl

theorem AfterClock.o {s t : State} (h : AfterClock s t) (n : Nat) : t.o n = s.o n := by rw [State.o, h.out]; rfl

theorem AfterClock.ax {s t : State} (h : AfterClock s t) (n : Fin 8) : t.ax n = s.ax n := h.rd _ (outFlds_plant n _ (by simp [outFlds]))

theorem AfterClock.safeNow {s t : State} (h : AfterClock s t) (n : Fin 8) : t.safeNow n = s.safeNow n := by
  rw [State.safeNow, h.ax, h.supReq]; rfl

/-! ### Faults and what they leave -/

theorem OnlyFaults.c {s t : State} (h : OnlyFaults s t) (n : Nat) : t.c n = s.c n := by rw [State.c, h.com]; rfl

theorem OnlyFaults.raiseAxes (code axes : Nat) (s : State) : OnlyFaults s (raiseAxes code axes s) := .raise _ s

/-- The interrupt source of the block of a fault is pending once the fault is raised (R159, R221). -/
theorem raise_blockPends {f : Raise} {src : Nat} (s : State) (honce : oncePerFrame f.code = false)
    (hsrc : blockFaultIrq f.code = some src) : (raise f s).pends src = true := by
  have hlt := blockFaultIrq_lt _ _ hsrc
  have hnotified : (notified f (s.reactOf f.code) (s.isHeld f.code) (recorded f s)).pends src = true := by
    unfold notified
    rw [hsrc]
    exact irq_pends src _ hlt
  refine (OnlyFaults.settleAll _).pends src hlt ?_
  rw [raise1_stages f s (by simp [honce])]
  exact ((OnlyFaults.signalled f _).trans (.takeReaction f _ _)).pends src hlt hnotified

/-- A fault of class S or M is held after its raise, if it is not limited to once a frame. -/
theorem raiseAxes_isHeld (code axes : Nat) (s : State) (hc : faultClass code ≠ .i) (ho : oncePerFrame code = false) :
    (raiseAxes code axes s).isHeld code = true := by
  refine (OnlyFaults.settleAll _).held code ?_
  rw [State.isHeld, ((raise1_holds (f := { code := code, axes := axes, addr := lowBit 8 axes }) (s := s) (by simp [ho])).1 hc).1]; rfl

/-- The faults of an axis in COM that are held, and the source that REGEN_CLAMP makes pending (R158, R159). -/
theorem comFault_class (n : Fin 8) : ∀ code ∈ [Fc.SHUNT_STARVED n, Fc.VDC_TRIP n, Fc.VDC_LOST n, Fc.CHOPPER_STUCK n, Fc.CHOPPER_FAULT n],
    faultClass code ≠ .i ∧ oncePerFrame code = false := by
  have hall : ∀ n : Fin 8, ∀ code ∈ [Fc.SHUNT_STARVED n, Fc.VDC_TRIP n, Fc.VDC_LOST n, Fc.CHOPPER_STUCK n, Fc.CHOPPER_FAULT n],
    faultClass code ≠ .i ∧ oncePerFrame code = false := by decide
  exact hall n

/-- A fault of an axis in COM that is raised is held, whatever follows in its command. -/
theorem comFault_isHeld {n : Fin 8} {code : Nat} (s : State)
    (hcode : code ∈ [Fc.SHUNT_STARVED n, Fc.VDC_TRIP n, Fc.VDC_LOST n, Fc.CHOPPER_STUCK n, Fc.CHOPPER_FAULT n]) :
    (settleAll (raiseAx code n s)).isHeld code = true :=
  let ⟨hclass, honce⟩ := comFault_class n code hcode
  (OnlyFaults.settleAll _).held code (raiseAx_isHeld code n s hclass honce)

end Sys2Proof.Machine
end

section
/-! The sampling plan of a single-shunt axis (O9; R134, R135). -/
namespace Sys2Proof.Machine

/-! ### The plan -/

/-- Phase x turns off before phase y, or at the same instant and x comes first (R134). -/
abbrev TurnsOffFirst (off : Nat → Nat) (x y : Nat) : Prop := off x < off y ∨ (off x = off y ∧ x < y)

/-- The phases in the order of their off instants, each order with what its instants say. -/
theorem sortPhases_sorted (off : Nat → Nat) : let r := sortPhases (off 0) (off 1) (off 2)
    List.Perm [r.1, r.2.1, r.2.2] [0, 1, 2] ∧ TurnsOffFirst off r.1 r.2.1 ∧ TurnsOffFirst off r.2.1 r.2.2 := by
  intro r
  obtain ⟨hr, hf, hm⟩ : r ∈ [(0, 1, 2), (0, 2, 1), (2, 0, 1), (1, 0, 2), (1, 2, 0), (2, 1, 0)] ∧
      TurnsOffFirst off r.1 r.2.1 ∧ TurnsOffFirst off r.2.1 r.2.2 := by
    simp only [r, sortPhases]
    (repeat' split) <;> exact ⟨by simp, by dsimp only; omega, by dsimp only; omega⟩
  have hperm : ∀ r ∈ [(0, 1, 2), (0, 2, 1), (2, 0, 1), (1, 0, 2), (1, 2, 0), (2, 1, 0)], List.Perm [r.1, r.2.1, r.2.2] [0, 1, 2] := by
    decide
  exact ⟨hperm r hr, hf, hm⟩

/-- The plan of a falling half: its phases in order, their windows and the instants of the conversions (R134). -/
theorem planAt_spec (n at' : Nat) (u : State) : let p := u.planAt n at'
    let off := u.upperOff n at'
    let dt := u.rd (Reg.OUT_An_DT n)
    let settle := u.rd (Reg.COM_An_SS_SETTLE n)
    p.peak = at' ∧ p.valley = at' + u.half n ∧ List.Perm [p.f, p.m, p.l] [0, 1, 2] ∧
    (off p.f < off p.m ∨ (off p.f = off p.m ∧ p.f < p.m)) ∧ (off p.m < off p.l ∨ (off p.m = off p.l ∧ p.m < p.l)) ∧
    p.wa = (off p.m : Int) - off p.f - dt ∧ p.wb = (off p.l : Int) - off p.m - dt ∧
    p.atA = off p.f + dt + settle ∧ p.atB = off p.m + dt + settle ∧
    (p.dueA = true ↔ (u.rd (Reg.COM_An_SS_TMIN n) : Int) ≤ p.wa) ∧
    (p.dueB = true ↔ (u.rd (Reg.COM_An_SS_TMIN n) : Int) ≤ p.wb) ∧
    p.closeA = off p.m ∧ p.closeB = off p.l ∧ p.sa = none ∧ p.sb = none := by
  obtain ⟨hperm, hfirst, hsecond⟩ := sortPhases_sorted (u.upperOff n at')
  exact ⟨rfl, rfl, hperm, hfirst, hsecond, rfl, rfl, rfl, rfl, decide_eq_true_iff, decide_eq_true_iff, rfl, rfl, rfl, rfl⟩

theorem samplingPlan_completes (n : Fin 8) (s : State) (hlive : s.live pdOUT = true) (hmeas : s.rd (Reg.COM_An_CFG_MEAS n) = 1) :
    Completes (.samplingPlan n) s fun t =>
      let u := reach (s.nextPeak n s.ctCeil) s
      let p := u.planAt n (s.nextPeak n s.ctCeil)
      OnlyFaults ((skips n (b2n (! p.dueA) + b2n (! p.dueB)) u).setC n { u.c n with plan := some p }) t := by
  refine completes_of_done ?_ fun t ht => ht.1
  show execSamplingPlan n s = _
  rw [execSamplingPlan, hlive, if_neg (by simp), if_neg (by simp [hmeas])]
  rfl

end Sys2Proof.Machine
end

section
/-! What a conversion of an ADC and the SAMPLEs of its clock write (O9; R136, R180, R184). -/
namespace Sys2Proof.Machine

/-- `t` is `s` but for the results that COM has yet to compare, the words of the frame input buffer and the running numbers of the
results: the registers, time, what is raised and the use of the ADCs stand. -/
structure AfterResults (s t : State) : Prop where
  regs : t.regs = s.regs
  time : t.time = s.time
  free : t.adc.free = s.adc.free

theorem AfterResults.refl (s : State) : AfterResults s s := ⟨rfl, rfl, rfl⟩

theorem AfterResults.trans {s t u : State} (h : AfterResults s t) (g : AfterResults t u) : AfterResults s u :=
  ⟨g.regs.trans h.regs, g.time.trans h.time, g.free.trans h.free⟩

theorem AfterResults.foldl {α : Type} (l : List α) (f : State → α → State) (h : ∀ s a, AfterResults s (f s a)) (s : State) :
    AfterResults s (l.foldl f s) := by
  induction l generalizing s with
  | nil => exact .refl s
  | cons a l ih => exact (h s a).trans (ih _)

theorem AfterResults.each (l : List Nat) (f : Nat → State → State) (h : ∀ n s, AfterResults s (f n s)) (s : State) :
    AfterResults s (s.each l f) := .foldl l _ (fun s n => h n s) s

theorem AfterResults.when {s t : State} (c : Bool) (f : State → State) (h : AfterResults s t) (g : AfterResults t (f t)) :
    AfterResults s (t.when c f) := by
  unfold State.when; split
  · exact h.trans g
  · exact h

theorem AfterResults.setC (s : State) (n : Nat) (c : ComSt) : AfterResults s (s.setC n c) := ⟨rfl, rfl, rfl⟩

theorem AfterResults.setFib (i v : Nat) (s : State) : AfterResults s (setFib i v s) := ⟨rfl, rfl, rfl⟩

theorem AfterResults.setFibs (i : Nat) (vs : List Nat) (s : State) : AfterResults s (setFibs i vs s) := ⟨rfl, rfl, rfl⟩

theorem AfterResults.feedCom (key : Nat) (code : Int) (s : State) : AfterResults s (feedCom key code s) := by
  unfold Machine.feedCom
  split
  · exact .refl s
  · exact .each _ _ (fun n s => .when _ _ (.when _ _ (.refl s) (.setC s n _)) (.setC _ n _)) s

theorem AfterResults.latchSlot (g k : Nat) (s : State) : AfterResults s (latchSlot g k s) :=
  .when _ _ (.setFib _ _ s) (.setFib _ _ _)

theorem AfterResults.comSampleFixed (s : State) : AfterResults s (comSampleFixed s) := by
  refine .each _ _ (fun n s => ?_) s
  split
  · exact .refl s
  · exact .setFibs _ _ s
  · exact .setFibs _ _ s

theorem AfterResults.comLatchShunt (n : Nat) (s : State) : AfterResults s (comLatchShunt n s) := ⟨rfl, rfl, rfl⟩

theorem AfterResults.setSeq (s : State) (q : SMap Nat) : AfterResults s { s with adc := { s.adc with seq := q } } := ⟨rfl, rfl, rfl⟩

theorem AfterResults.latchGroup (g kind last : Nat) (b : Bool) (shunts : List Nat) (s : State) :
    AfterResults s (latchGroup g kind last b shunts s) := by
  have hwords : AfterResults s ((s.each (s.latched g kind) (Machine.latchSlot g)).each shunts Machine.comLatchShunt) :=
    (AfterResults.each _ _ (fun k s => .latchSlot g k s) s).trans (.each _ _ .comLatchShunt _)
  unfold Machine.latchGroup
  exact ((hwords.trans (.comSampleFixed _)).trans (.setFib 387 _ _)).trans (.setSeq _ _)

theorem AfterResults.reSample (s : State) : AfterResults s (reSample s) := .foldl _ _ (fun s _ => .latchGroup _ _ _ _ _ s) s

theorem AfterResults.rd {s t : State} (h : AfterResults s t) (f : Fld) : t.rd f = s.rd f := State.rd_congr h.regs f

end Sys2Proof.Machine
end

section
/-! The conversions of the windows of a single-shunt axis (O9; R134, R135, R180). -/
namespace Sys2Proof.Machine

/-! ### A conversion of an ADC -/

/-- The result of a conversion as its registers and CLIP keep it (R180). -/
def resultNoted (c raw start : Nat) (bipolar : Bool) (s : State) : State :=
  ((s.wr (Reg.ADC_RESc_CODE c) (trunc 16 (adcCode bipolar raw))).wr (Reg.ADC_RESc_STAMP c) start).when (adcClipped raw) fun s =>
    if c < 32 then s.wrBit Reg.ADC_CLIP_L c true else s.wrBit Reg.ADC_CLIP_H (c - 32) true

theorem resultNoted_frame (c raw start : Nat) (b : Bool) (s : State) : ∃ r, resultNoted c raw start b s = { s with regs := r } := by
  unfold resultNoted State.when
  (repeat' split) <;> exact ⟨_, rfl⟩

/-- CLIP is written in a word of its own: every other field stands. -/
theorem rd_whenClip (c : Nat) (b : Bool) (s : State) (f : Fld) (hlo : Reg.ADC_CLIP_L.key ≠ f.key) (hhi : Reg.ADC_CLIP_H.key ≠ f.key) :
    (s.when b fun s => if c < 32 then s.wrBit Reg.ADC_CLIP_L c true else s.wrBit Reg.ADC_CLIP_H (c - 32) true).rd f = s.rd f := by
  unfold State.when
  (repeat' split)
  · exact State.rd_wr_ne _ _ _ _ hlo
  · exact State.rd_wr_ne _ _ _ _ hhi
  · rfl

/-- The fields that a result of channel c is kept in (R180). -/
def resultFlds (c : Nat) : List Fld := [Reg.ADC_CLIP_L, Reg.ADC_CLIP_H, Reg.ADC_RESc_STAMP c, Reg.ADC_RESc_CODE c]

theorem resultNoted_rd_ne (c raw start : Nat) (b : Bool) (s : State) (f : Fld) (hf : ∀ g ∈ resultFlds c, g.key ≠ f.key) :
    (resultNoted c raw start b s).rd f = s.rd f := by
  rw [resultNoted, rd_whenClip _ _ _ _ (hf _ (by simp [resultFlds])) (hf _ (by simp [resultFlds])),
    State.rd_wr_ne _ _ _ _ (hf _ (by simp [resultFlds])), State.rd_wr_ne _ _ _ _ (hf _ (by simp [resultFlds]))]

theorem resultFlds_block (c : Nat) (hc : c < 48) : ∀ f ∈ resultFlds c, f.key / 0x80000 = 0x4007 := by
  simp only [resultFlds, Reg.ADC_CLIP_L, Reg.ADC_CLIP_H, Reg.ADC_RESc_STAMP, Reg.ADC_RESc_CODE, List.forall_mem_cons, List.not_mem_nil,
    false_implies, implies_true, and_true, true_and]
  omega

theorem resultFlds_ne_com (c : Nat) (hc : c < 48) {f : Fld} (hf : f.key / 0x80000 = 0x4005) : ∀ g ∈ resultFlds c, g.key ≠ f.key := by
  intro g hg
  have hblock := resultFlds_block c hc g hg
  omega

theorem resultNoted_stamp (c raw start : Nat) (b : Bool) (s : State) :
    (resultNoted c raw start b s).rd (Reg.ADC_RESc_STAMP c) = start % 65536 := by
  rw [resultNoted, rd_whenClip _ _ _ _ (by simp only [Reg.ADC_CLIP_L, Reg.ADC_RESc_STAMP]; omega)
    (by simp only [Reg.ADC_CLIP_H, Reg.ADC_RESc_STAMP]; omega)]
  exact State.rd_wr_self _ _ _

theorem resultNoted_code (c raw start : Nat) (b : Bool) (s : State) :
    (resultNoted c raw start b s).rd (Reg.ADC_RESc_CODE c) = trunc 16 (adcCode b raw) := by
  have hlt : trunc 16 (adcCode b raw) < 2 ^ 16 := by
    unfold trunc
    omega
  rw [resultNoted, rd_whenClip _ _ _ _ (by simp only [Reg.ADC_CLIP_L, Reg.ADC_RESc_CODE]; omega)
    (by simp only [Reg.ADC_CLIP_H, Reg.ADC_RESc_CODE]; omega),
    State.rd_wr_ne _ _ _ _ (by simp only [Reg.ADC_RESc_CODE, Reg.ADC_RESc_STAMP]; omega), State.rd_wr_self]
  exact Nat.mod_eq_of_lt hlt

theorem adcComplete_afterResults (c raw start : Nat) (b : Bool) (s : State) :
    AfterResults (resultNoted c raw start b s) (adcComplete c raw start b s) :=
  AfterResults.trans (t := stampSeq c (resultNoted c raw start b s)) ⟨rfl, rfl, rfl⟩ (.feedCom _ _ _)

/-- The fields that make a channel bipolar (R180, R181). -/
def bipFlds : List Fld :=
  [Reg.ADC_BIP_L, Reg.ADC_BIP_H, Reg.ADC_CSA_EN 0, Reg.ADC_CSA_EN 1, Reg.ADC_CSA_EN 2, Reg.ADC_CSA_EN 3]

theorem bipFlds_plant : ∀ f ∈ bipFlds, Fld.ofPlant f = true := by decide

theorem resultFlds_ne_bip (c : Nat) : ∀ f ∈ bipFlds, ∀ g ∈ resultFlds c, g.key ≠ f.key := by
  simp only [bipFlds, resultFlds, Reg.ADC_BIP_L, Reg.ADC_BIP_H, Reg.ADC_CSA_EN, Reg.ADC_CLIP_L, Reg.ADC_CLIP_H, Reg.ADC_RESc_STAMP,
    Reg.ADC_RESc_CODE, List.forall_mem_cons, List.not_mem_nil, false_implies, implies_true, and_true]
  omega

theorem adcBipolar_congr {s t : State} (c : Nat) (h : ∀ f ∈ bipFlds, t.rd f = s.rd f) : t.adcBipolar c = s.adcBipolar c := by
  have hread : t.bip c = s.bip c := by
    simp only [State.bip, State.bit, h _ (List.mem_cons_self ..), h Reg.ADC_BIP_H (by simp [bipFlds])]
  by_cases hc : c < 32
  · have hcsa : t.rd (Reg.ADC_CSA_EN (c / 8)) = s.rd (Reg.ADC_CSA_EN (c / 8)) := by
      obtain h8 | h8 | h8 | h8 : c / 8 = 0 ∨ c / 8 = 1 ∨ c / 8 = 2 ∨ c / 8 = 3 := by omega
      all_goals exact h _ (by simp [bipFlds, h8])
    rw [State.adcBipolar, hread, State.csaOn, State.on, hcsa]; rfl
  · simp [State.adcBipolar, hread, hc]

/-! ### The conversion of a window -/

/-- The plan once the conversion of a window is no longer to come. -/
def ShuntPlan.taken (p : ShuntPlan) (winB : Bool) : ShuntPlan := if winB then { p with dueB := false } else { p with dueA := false }

/-- The plan with the sample of a window. -/
def ShuntPlan.sampled (p : ShuntPlan) (winB : Bool) (v : Int) : ShuntPlan :=
  if winB then { p with sb := some v } else { p with sa := some v }

/-- The tick on which the conversion of a window of axis n starts (R135). -/
def State.shuntStart (s : State) (n : Nat) (winB : Bool) (p : ShuntPlan) : Nat :=
  max (if winB then p.atB else p.atA) (s.adcFree (s.rd (Reg.COM_An_SS_CH n) / 8))

/-- The shunt channel of axis n is converted from tick `start` on, and its result is latched by a SAMPLE of its clock. -/
def shuntConverted (n raw start : Nat) (s : State) : State :=
  let ch := s.rd (Reg.COM_An_SS_CH n)
  let u := adcTake (ch / 8) start (reach (start + 39) s)
  reSample (adcComplete ch raw start (u.adcBipolar ch) u)

/-- What a conversion of the shunt channel leaves. -/
theorem shuntConverted_effect (n : Fin 8) (raw start : Nat) (s : State) (hch : s.rd (Reg.COM_An_SS_CH n) ≤ 47) :
    let ch := s.rd (Reg.COM_An_SS_CH n)
    let t := shuntConverted n raw start s
    t.time = (reach (start + 39) s).time ∧ t.rd (Reg.ADC_RESc_CODE ch) = trunc 16 (adcCode (s.adcBipolar ch) raw) ∧
    t.rd (Reg.ADC_RESc_STAMP ch) = start % 65536 ∧ t.adcFree (ch / 8) = start + 40 ∧
    t.rd (Reg.COM_An_SKIPS n) = s.rd (Reg.COM_An_SKIPS n) ∧ t.adcBipolar ch = s.adcBipolar ch := by
  intro ch t
  obtain ⟨u, hu⟩ : ∃ u, u = adcTake (ch / 8) start (reach (start + 39) s) := ⟨_, rfl⟩
  have hclock := reach_afterClock (start + 39) s
  have hrd : ∀ f, Fld.ofPlant f = true → u.rd f = s.rd f := fun f hf => by rw [← hclock.rd f hf, hu]; rfl
  have hbip : u.adcBipolar ch = s.adcBipolar ch := adcBipolar_congr ch fun f hf => hrd f (bipFlds_plant f hf)
  have hafter : AfterResults (resultNoted ch raw start (s.adcBipolar ch) u) t := by
    have hconverted := (adcComplete_afterResults ch raw start (u.adcBipolar ch) u).trans (.reSample _)
    rw [hbip] at hconverted
    have ht : t = reSample (adcComplete ch raw start (s.adcBipolar ch) u) := by rw [← hbip, hu]; rfl
    rw [ht]; exact hconverted
  obtain ⟨r, hframe⟩ := resultNoted_frame ch raw start (s.adcBipolar ch) u
  have hother : ∀ f, Fld.ofPlant f = true → (∀ g ∈ resultFlds ch, g.key ≠ f.key) → t.rd f = s.rd f := fun f hf hne => by
    rw [hafter.rd, resultNoted_rd_ne _ _ _ _ _ _ hne, hrd f hf]
  have hskips : Reg.COM_An_SKIPS n ∈ comFlds n := by simp [comFlds]
  refine ⟨?_, ?_, ?_, ?_, ?_, ?_⟩
  · rw [hafter.time, hframe, hu]; rfl
  · rw [hafter.rd, resultNoted_code]
  · rw [hafter.rd, resultNoted_stamp]
  · rw [State.adcFree, hafter.free, hframe, hu]
    simp [adcTake]
  · exact hother _ (comFlds_plant n _ hskips) (resultFlds_ne_com ch (by omega) (comFlds_block n _ hskips))
  · exact adcBipolar_congr ch fun f hf => hother f (bipFlds_plant f hf) (resultFlds_ne_bip ch f hf)

theorem execShuntConversion_waits {n : Fin 8} {winB : Bool} {raw : BitVec 14} {s : State} {p : ShuntPlan} (hplan : (s.c n).plan = some p)
    (hturn : s.shuntTurn n winB = false) : exec (.shuntConversion n winB raw) s = .next s := by
  show execShuntConversion n winB raw s = _
  simp [execShuntConversion, hplan, hturn]

/-- A conversion whose turn it is: too late for its window, of a full-scale code, or with its sample kept (R135). -/
theorem execShuntConversion_turn {n : Fin 8} {winB : Bool} {raw : BitVec 14} {s : State} {p : ShuntPlan} (hlive : s.live pdOUT = true)
    (hplan : (s.c n).plan = some p) (hdue : (if winB then p.dueB else p.dueA) = true) (hturn : s.shuntTurn n winB = true) :
    let start := s.shuntStart n winB p
    let u := shuntConverted n raw.toNat start s
    let code := adcCode (u.adcBipolar (s.rd (Reg.COM_An_SS_CH n))) raw.toNat
    exec (.shuntConversion n winB raw) s = done (
      if (if winB then p.closeB else p.closeA) < start + 40 ∨ 47 < s.rd (Reg.COM_An_SS_CH n) then
        skips n 1 (s.setC n { s.c n with plan := some (p.taken winB) })
      else if adcClipped raw.toNat then skips n 1 (u.setC n { u.c n with plan := some (p.taken winB) })
      else u.setC n { u.c n with plan := some ((p.taken winB).sampled winB code) }) := by
  intro start u code
  show execShuntConversion n winB raw s = _
  rw [execShuntConversion, hlive, if_neg (by simp), hplan]
  dsimp only
  rw [hdue, hturn, if_neg (by simp)]
  by_cases hlate : (if winB then p.closeB else p.closeA) < start + 40 ∨ 47 < s.rd (Reg.COM_An_SS_CH n)
  · exact (if_pos hlate).trans (congrArg done (if_pos hlate).symm)
  · rw [if_neg hlate]
    refine (if_neg hlate).trans ?_
    by_cases hfull : adcClipped raw.toNat = true
    · exact (if_pos hfull).trans (congrArg done (if_pos hfull).symm)
    · exact (if_neg hfull).trans (congrArg done (if_neg hfull).symm)

end Sys2Proof.Machine
end

section
/-! The single-shunt sampling of an axis (O9; R134 to R140, R180). -/
namespace Sys2Proof.Machine

/-! ### SHUNT_CONVERSION -/

/-- What a conversion of the shunt channel leaves once only SKIPS, COM's state and faults have followed it. -/
theorem shuntConverted_settled (n : Fin 8) (raw start : Nat) {s x t : State} (h : OnlyFaults x t)
    (hch : s.rd (Reg.COM_An_SS_CH n) ≤ 47) (htime : x.time = (shuntConverted n raw start s).time) (hadc : x.adc = (shuntConverted n raw start s).adc)
    (hrd : ∀ f, (Reg.COM_An_SKIPS n).key ≠ f.key → x.rd f = (shuntConverted n raw start s).rd f) :
    let ch := s.rd (Reg.COM_An_SS_CH n)
    t.time = (reach (start + 39) s).time ∧ t.rd (Reg.ADC_RESc_CODE ch) = trunc 16 (adcCode (s.adcBipolar ch) raw) ∧
    t.rd (Reg.ADC_RESc_STAMP ch) = start % 65536 ∧ t.adcFree (ch / 8) = start + 40 := by
  intro ch
  obtain ⟨huTime, huCode, huStamp, huFree, -, -⟩ := shuntConverted_effect n raw start s hch
  have hres : ∀ f ∈ resultFlds ch, t.rd f = (shuntConverted n raw start s).rd f := fun f hf => by
    have hskips : (Reg.COM_An_SKIPS n).key / 0x80000 = 0x4005 := comFlds_block n _ (by simp [comFlds])
    have hfaults : Fld.ofFaults f = false :=
      Fld.ofPlant_not_ofFaults (by simp [Fld.ofPlant, resultFlds_block ch (by omega) f hf])
    rw [h.rd f hfaults, hrd f fun he => resultFlds_ne_com ch (by omega) hskips f hf he.symm]
  refine ⟨h.time.trans (htime.trans huTime), ?_, ?_, ?_⟩
  · rw [hres _ (by simp [resultFlds]), huCode]
  · rw [hres _ (by simp [resultFlds]), huStamp]
  · rw [State.adcFree, h.adc, hadc]; exact huFree

theorem skips_rd_ne (n k : Nat) (s : State) (f : Fld) (h : (Reg.COM_An_SKIPS n).key ≠ f.key) : (skips n k s).rd f = s.rd f :=
  s.rd_wr_ne _ _ _ h

theorem skips_rd_self (n : Nat) (s : State) : (skips n 1 s).rd (Reg.COM_An_SKIPS n) = min (s.rd (Reg.COM_An_SKIPS n) + 1) (2 ^ 32 - 1) := by
  rw [skips, State.add, State.rd_wr_self]
  exact Nat.mod_eq_of_lt (lt_of_le_of_lt (Nat.min_le_right _ _) (Nat.sub_lt (by simp) (by simp)))

theorem skips_c (n k m : Nat) (s : State) : (skips n k s).c m = s.c m := rfl

/-- SHUNT_CONVERSION of a requested window whose turn it is (R135, R180). -/
theorem shuntConversion_completes {n : Fin 8} {winB : Bool} (raw : BitVec 14) {s : State} {p : ShuntPlan} (hlive : s.live pdOUT = true)
    (hplan : (s.c n).plan = some p) (hdue : (if winB then p.dueB else p.dueA) = true) (hturn : s.shuntTurn n winB = true) :
    let ch := s.rd (Reg.COM_An_SS_CH n)
    let start := s.shuntStart n winB p
    let code := adcCode (s.adcBipolar ch) raw.toNat
    let full := raw.toNat = 0 ∨ raw.toNat = 16383
    Completes (.shuntConversion n winB raw) s fun t =>
      if (if winB then p.closeB else p.closeA) < start + 40 ∨ 47 < ch then
        OnlyFaults ((s.setC n { s.c n with plan := some (p.taken winB) }).add (Reg.COM_An_SKIPS n) 1) t
      else t.time = (reach (start + 39) s).time ∧ t.rd (Reg.ADC_RESc_CODE ch) = trunc 16 code ∧
        t.rd (Reg.ADC_RESc_STAMP ch) = start % 65536 ∧ t.adcFree (ch / 8) = start + 40 ∧
        t.rd (Reg.COM_An_SKIPS n) = (if full then min (s.rd (Reg.COM_An_SKIPS n) + 1) (2 ^ 32 - 1)
          else s.rd (Reg.COM_An_SKIPS n)) ∧
        (t.c n).plan = some (if full then p.taken winB else (p.taken winB).sampled winB code) := by
  intro ch start code full
  refine completes_of_done (execShuntConversion_turn hlive hplan hdue hturn) fun t ht => ?_
  replace ht := ht.1
  by_cases hlate : (if winB then p.closeB else p.closeA) < start + 40 ∨ 47 < ch
  · rw [if_pos hlate] at ht ⊢
    exact ht
  rw [if_neg hlate] at ht ⊢
  have hch : ch ≤ 47 := by omega
  obtain ⟨-, -, -, -, hskips, hbip⟩ := shuntConverted_effect n raw.toNat start s hch
  have hplant : Fld.ofFaults (Reg.COM_An_SKIPS n) = false := Fld.ofPlant_not_ofFaults (comFlds_plant n _ (by simp [comFlds]))
  by_cases hfull : adcClipped raw.toNat = true
  · rw [if_pos hfull] at ht
    have hfull' : full := by simpa [full, adcClipped] using hfull
    obtain ⟨htime, hcode, hstamp, hfree⟩ := shuntConverted_settled n raw.toNat start ht hch (by rfl) (by rfl) (skips_rd_ne n 1 _)
    refine ⟨htime, hcode, hstamp, hfree, ?_, ?_⟩
    · rw [if_pos hfull', ht.rd _ hplant, skips_rd_self, ← hskips]; rfl
    · rw [if_pos hfull', ht.c, skips_c, State.c_setC, if_pos rfl]
  · rw [if_neg hfull] at ht
    have hfull' : ¬ full := by simpa [full, adcClipped] using hfull
    obtain ⟨htime, hcode, hstamp, hfree⟩ := shuntConverted_settled n raw.toNat start ht hch (by rfl) (by rfl) (fun _ _ => rfl)
    refine ⟨htime, hcode, hstamp, hfree, ?_, ?_⟩
    · rw [if_neg hfull', ht.rd _ hplant, ← hskips]; rfl
    · rw [if_neg hfull', ht.c, State.c_setC, if_pos rfl, hbip]

/-! ### SHUNT_SET_COMPLETE -/

/-- The halves in a row that were predicted, with the one that the valley ends (R139). -/
def State.predRun (s : State) (n : Nat) (p : ShuntPlan) : Nat :=
  if ¬ (s.ax n = axRUNNING ∨ s.ax n = axSTOPPING) ∨ (p.sa.isSome && p.sb.isSome) = true then 0
  else min (s.rd (Reg.COM_An_STAT_PRED_RUN n) + 1) 31

/-- The set of a valley in COM, before a SAMPLE of its clock latches it (R136, R139). -/
def shuntSet (n : Nat) (p : ShuntPlan) (pred limit : Nat) (c : ComSt) (u : State) : State :=
  ((u.wr (Reg.COM_An_STAT_PRED_RUN n) pred).put (Reg.COM_An_STAT_STARVED n) (limit < pred)).setC n
    { c with plan := none, fresh := true, set := shuntWords p pred (limit < pred) }

theorem skips_afterClock {n : Fin 8} {s u : State} (k : Nat) (h : AfterClock s u) :
    (skips n k u).ax n = s.ax n ∧ (skips n k u).c n = s.c n ∧
    ∀ f ∈ comFlds n, (Reg.COM_An_SKIPS n).key ≠ f.key → (skips n k u).rd f = s.rd f := by
  refine ⟨?_, ?_, ?_⟩
  · rw [← h.ax n]
    exact skips_rd_ne _ _ _ _ (by simp only [Reg.COM_An_SKIPS, Reg.SYS_AXn_STAT_STATE]; omega)
  · rw [← h.c n]; rfl
  · intro f hf hne
    rw [skips_rd_ne _ _ _ _ hne, h.rd f (comFlds_plant n f hf)]

theorem execShuntSetComplete_eq {n : Fin 8} {s : State} {p : ShuntPlan} (hlive : s.live pdOUT = true) (hplan : (s.c n).plan = some p) :
    let limit := s.rd (Reg.COM_An_CFG_NPRED n) + 1
    let u := skips n (b2n p.dueA + b2n p.dueB) (reach p.valley s)
    exec (.shuntSetComplete n) s = done ((reSample (shuntSet n p (s.predRun n p) limit (s.c n) u)).when
      (s.predRun n p = limit + 1) (raiseAx (Fc.SHUNT_STARVED n) n)) := by
  intro limit u
  obtain ⟨hax, hc, hrd⟩ := skips_afterClock (n := n) (b2n p.dueA + b2n p.dueB) (reach_afterClock p.valley s)
  have hlimit : u.rd (Reg.COM_An_CFG_NPRED n) = s.rd (Reg.COM_An_CFG_NPRED n) :=
    hrd _ (by simp [comFlds]) (by simp only [Reg.COM_An_SKIPS, Reg.COM_An_CFG_NPRED]; omega)
  have hold : u.rd (Reg.COM_An_STAT_PRED_RUN n) = s.rd (Reg.COM_An_STAT_PRED_RUN n) :=
    hrd _ (by simp [comFlds]) (by simp only [Reg.COM_An_SKIPS, Reg.COM_An_STAT_PRED_RUN]; omega)
  have hpred : (if ! (u.ax n = axRUNNING || u.ax n = axSTOPPING) || (p.sa.isSome && p.sb.isSome) then 0
      else min (u.rd (Reg.COM_An_STAT_PRED_RUN n) + 1) 31) = s.predRun n p := by
    rw [hax, hold]
    simp [State.predRun]
  have hdone : exec (.shuntSetComplete n) s = done ((reSample (shuntSet n p
      (if ! (u.ax n = axRUNNING || u.ax n = axSTOPPING) || (p.sa.isSome && p.sb.isSome) then 0
        else min (u.rd (Reg.COM_An_STAT_PRED_RUN n) + 1) 31) (u.rd (Reg.COM_An_CFG_NPRED n) + 1) (u.c n) u)).when
      ((if ! (u.ax n = axRUNNING || u.ax n = axSTOPPING) || (p.sa.isSome && p.sb.isSome) then 0
        else min (u.rd (Reg.COM_An_STAT_PRED_RUN n) + 1) 31) = u.rd (Reg.COM_An_CFG_NPRED n) + 1 + 1)
      (raiseAx (Fc.SHUNT_STARVED n) n)) := by
    show execShuntSetComplete n s = _
    rw [execShuntSetComplete, hlive, if_neg (by simp), hplan]
    rfl
  rw [hdone, hpred, hlimit, hc]

/-- SHUNT_SET_COMPLETE: the set of the valley, SHUNT_STARVED and the latch of a SAMPLE (R136, R137, R139, R140). -/
theorem shuntSetComplete_completes {n : Fin 8} {s : State} {p : ShuntPlan} (hlive : s.live pdOUT = true) (hplan : (s.c n).plan = some p) :
    let limit := s.rd (Reg.COM_An_CFG_NPRED n) + 1
    let u := skips n (b2n p.dueA + b2n p.dueB) (reach p.valley s)
    Completes (.shuntSetComplete n) s fun t =>
      OnlyFaults (reSample (shuntSet n p (s.predRun n p) limit (s.c n) u)) t ∧
      (s.predRun n p = limit + 1 → t.isHeld (Fc.SHUNT_STARVED n) = true) := by
  intro limit u
  obtain ⟨v, hv⟩ : ∃ v, v = reSample (shuntSet n p (s.predRun n p) limit (s.c n) u) := ⟨_, rfl⟩
  have hexec : exec (.shuntSetComplete n) s = done (v.when (s.predRun n p = limit + 1) (raiseAx (Fc.SHUNT_STARVED n) n)) :=
    hv ▸ execShuntSetComplete_eq hlive hplan
  rw [← hv]
  refine ⟨_, hexec, (OnlyFaults.when _ _ (.refl v) (.raiseAx _ _ v)).trans (.settleAll _), fun hstarved => ?_⟩
  rw [State.when, if_pos (by simpa using hstarved)]
  exact comFault_isHeld v (by simp)

/-- The words of a set as R137 gives them. -/
theorem shuntWords_eq (p : ShuntPlan) (pred : Nat) (starved : Bool) :
    let sa := p.sa.getD 0
    let sb := p.sb.getD 0
    let cur := fun (x : Nat) => if (p.sa.isSome && p.sb.isSome) = false then (0 : Int)
      else if x = p.f then -sa else if x = p.l then sb else sa - sb
    let w0 := b2n p.sa.isSome + 2 * b2n p.sb.isSome + 16 * orderCode p.f p.m + 2 ^ 8 * pred + 2 ^ 15 * b2n starved +
      2 ^ 16 * (p.valley % 2 ^ 16)
    shuntWords p pred starved = w0 :: ([cur 0, cur 1, cur 2, sa, sb, max p.wa 0, max p.wb 0].map (trunc 32)) := by
  intro sa sb cur w0
  have hw0 : b2n p.sa.isSome + b2n p.sb.isSome * 2 + orderCode p.f p.m * 16 + pred * 2 ^ 8 + b2n starved * 2 ^ 15 +
      p.valley % 2 ^ 16 * 2 ^ 16 = w0 := by
    simp only [w0]
    omega
  have hcur : ∀ x, (if ! (p.sa.isSome && p.sb.isSome) then (0 : Int) else if x = p.f then -sa else if x = p.l then sb else sa - sb) = cur x :=
    fun x => by cases h : p.sa.isSome && p.sb.isSome <;> simp [cur, h]
  rw [← hw0, List.map_cons, List.map_cons, List.map_cons, ← hcur 0, ← hcur 1, ← hcur 2]
  rfl

/-- Settles O9, part by part: the plan, the conversion of a window and the completed set. -/
theorem shuntSampling : Obligations.ShuntSampling := by
  unfold Obligations.ShuntSampling
  refine ⟨fun n s hlive hmeas => ?_, fun n winB raw s p hlive hplan hdue => ⟨fun hturn => ?_, fun hturn => ?_⟩, fun n s p hlive hplan => ?_⟩
  · obtain ⟨t, hexec, ht⟩ := samplingPlan_completes n s hlive hmeas
    exact ⟨t, hexec, _, ht, planAt_spec n _ _⟩
  · exact completes_of_next (execShuntConversion_waits hplan hturn) rfl
  · have hcompletes := shuntConversion_completes raw hlive hplan hdue hturn
    cases winB
    · exact hcompletes
    · exact hcompletes
  · have hcompletes := shuntSetComplete_completes hlive hplan
    simp only [shuntSet, shuntWords_eq] at hcompletes
    exact hcompletes

end Sys2Proof.Machine
end

section
/-! The results of the DC link and the chopper command that follows them (O10; R147, R148, R150, R151). -/
namespace Sys2Proof.Machine

/-! ### A comparison -/

/-- A comparison after a result `v` of a source with the full-scale code `top`: its state and its run (R147). -/
def crossing (v top : Int) (filt : Nat) (above : Bool) (run : Nat) (on off : Int) : Bool × Nat :=
  if (if above then ¬ v = top ∧ v < off else v = top ∨ on ≤ v) then
    if filt ≤ run then (! above, 0) else (above, run + 1)
  else (above, 0)

theorem crossed_eq_crossing (v top : Int) (filt : Nat) (above : Bool) (run : Nat) (on off : Int) :
    crossed above run (filt + 1) (decide (v = top) || decide (on ≤ v)) (! decide (v = top) && decide (v < off)) =
      crossing v top filt above run on off := by
  cases above <;> simp [crossed, crossing]

/-- The comparisons of axis n with VDC_HI1, VDC_HI2 and VDC_TRIP after a result (R147, R148, R150, R151). -/
def State.hi1Crossing (s : State) (n : Nat) (v : Int) : Bool × Nat :=
  let hi1 := sext 16 (s.rd (Reg.COM_An_VDC1_HI1 n))
  crossing v (s.vdcFull n) (s.rd (Reg.COM_An_VDCG_FILT n)) (s.on (Reg.COM_An_STAT_HI1 n)) (s.c n).run1 hi1
    (hi1 - (s.rd (Reg.COM_An_VDC1_HYST n) : Int))

def State.hi2Crossing (s : State) (n : Nat) (v : Int) : Bool × Nat :=
  let hi2 := sext 16 (s.rd (Reg.COM_An_VDC2_HI2 n))
  crossing v (s.vdcFull n) (s.rd (Reg.COM_An_VDCG_FILT n)) (s.on (Reg.COM_An_STAT_REGEN_CLAMP n)) (s.c n).run2 hi2
    (hi2 - (s.rd (Reg.COM_An_VDC1_HYST n) : Int))

def State.tripCrossing (s : State) (n : Nat) (v : Int) : Bool × Nat :=
  let trip := sext 16 (s.rd (Reg.COM_An_VDC2_TRIP n))
  crossing v (s.vdcFull n) (s.rd (Reg.COM_An_VDCG_FILT n)) (s.c n).above (s.c n).run3 trip trip

/-! ### The state of COM with the result -/

/-- COM's state of axis n once its first waiting result is compared. -/
def State.vdcSt (s : State) (n at' : Nat) (v : Int) (rest : List (Nat × Int)) : ComSt :=
  { s.c n with vdcIn := rest, run1 := (s.hi1Crossing n v).2, run2 := (s.hi2Crossing n v).2, run3 := (s.tripCrossing n v).2
               above := (s.tripCrossing n v).1, vdcAt := at' }

/-- A result stored and compared, before what its crossings cause. -/
def vdcNoted (n at' : Nat) (v : Int) (rest : List (Nat × Int)) (s : State) : State :=
  let u := (s.setC n { s.c n with vdcIn := rest }).wr (Reg.COM_An_VDC_LAST n) (trunc 16 v)
  ((u.setC n (s.vdcSt n at' v rest)).put (Reg.COM_An_STAT_HI1 n) (s.hi1Crossing n v).1).put (Reg.COM_An_STAT_REGEN_CLAMP n)
    (s.hi2Crossing n v).1

/-- What the crossings of a result cause: the chopper command, REGEN_CLAMP and the trip. -/
def vdcCauses (n : Nat) (v : Int) (a b d : Bool) (was1 was2 was3 : Bool) (s : State) : State :=
  ((s.when (a != was1 && s.chopRuns n) (chopper n a v)).when (b && ! was2) (raiseAx (Fc.REGEN_CLAMP n) n)).when (d && ! was3) (vdcTrip n)

theorem execDcLinkResult_eq {n : Fin 8} {s : State} {at' : Nat} {v : Int} {rest : List (Nat × Int)} (hlive : s.live pdOUT = true)
    (hin : (s.c n).vdcIn = (at', v) :: rest) : exec (.dcLinkResult n) s = done (vdcCauses n v (s.hi1Crossing n v).1
      (s.hi2Crossing n v).1 (s.tripCrossing n v).1 (s.on (Reg.COM_An_STAT_HI1 n)) (s.on (Reg.COM_An_STAT_REGEN_CLAMP n)) (s.c n).above
      (vdcNoted n at' v rest s)) := by
  show execDcLinkResult n s = _
  rw [execDcLinkResult, hlive, if_neg (by simp), hin]
  dsimp only
  have hc : (s.setC n { s.c n with vdcIn := rest }).c n = { s.c n with vdcIn := rest } := by rw [State.c_setC, if_pos rfl]
  unfold vdcCompare
  dsimp only
  rw [hc]
  simp only [crossed_eq_crossing]
  rfl

/-! ### What the result writes -/

theorem comFlds_ofFaults (n : Fin 8) {f : Fld} (hf : f ∈ comFlds n) : Fld.ofFaults f = false :=
  Fld.ofPlant_not_ofFaults (comFlds_plant n f hf)

theorem vdcNoted_c (n at' : Nat) (v : Int) (rest : List (Nat × Int)) (s : State) (m : Nat) :
    (vdcNoted n at' v rest s).c m = if n = m then s.vdcSt n at' v rest else s.c m := by
  obtain ⟨u, hu⟩ : ∃ u, u = (s.setC n { s.c n with vdcIn := rest }).wr (Reg.COM_An_VDC_LAST n) (trunc 16 v) := ⟨_, rfl⟩
  have hother : n ≠ m → u.c m = s.c m := fun hne => by
    rw [hu]; exact (State.c_setC _ _ _ _).trans (if_neg hne)
  have hset : (vdcNoted n at' v rest s).c m = (u.setC n (s.vdcSt n at' v rest)).c m := by rw [hu]; rfl
  rw [hset, State.c_setC]
  split
  · rfl
  · next hne => exact hother hne

/-- The fields that a result writes. -/
theorem vdcNoted_reads (n at' : Nat) (v : Int) (rest : List (Nat × Int)) (s : State) : let u := vdcNoted n at' v rest s
    u.rd (Reg.COM_An_VDC_LAST n) = trunc 16 v ∧ u.on (Reg.COM_An_STAT_HI1 n) = (s.hi1Crossing n v).1 ∧
    u.on (Reg.COM_An_STAT_REGEN_CLAMP n) = (s.hi2Crossing n v).1 := by
  intro u
  refine ⟨?_, ?_, State.on_put_self _ _ _ rfl⟩
  · have hlt : trunc 16 v < 2 ^ 16 := by unfold trunc; omega
    refine (State.rd_put_ne _ _ _ _ (by simp only [Reg.COM_An_STAT_REGEN_CLAMP, Reg.COM_An_VDC_LAST]; omega)).trans ?_
    refine (State.rd_put_ne _ _ _ _ (by simp only [Reg.COM_An_STAT_HI1, Reg.COM_An_VDC_LAST]; omega)).trans ?_
    exact (State.rd_wr_self _ _ _).trans (Nat.mod_eq_of_lt hlt)
  · exact (State.on_put_ne _ _ _ _ (by simp only [Reg.COM_An_STAT_REGEN_CLAMP, Reg.COM_An_STAT_HI1]; omega)).trans
      (State.on_put_self _ _ _ rfl)

/-- Every other field stands. -/
theorem vdcNoted_rd_ne (n at' : Nat) (v : Int) (rest : List (Nat × Int)) (s : State) (f : Fld)
    (hf : ∀ g ∈ [Reg.COM_An_VDC_LAST n, Reg.COM_An_STAT_HI1 n, Reg.COM_An_STAT_REGEN_CLAMP n], g.key ≠ f.key) :
    (vdcNoted n at' v rest s).rd f = s.rd f :=
  (State.rd_put_ne _ _ _ _ (hf _ (by simp))).trans ((State.rd_put_ne _ _ _ _ (hf _ (by simp))).trans (State.rd_wr_ne _ _ _ _ (hf _ (by simp))))

theorem vdcNoted_on_ne (n at' : Nat) (v : Int) (rest : List (Nat × Int)) (s : State) (f : Fld)
    (hf : ∀ g ∈ [Reg.COM_An_VDC_LAST n, Reg.COM_An_STAT_HI1 n, Reg.COM_An_STAT_REGEN_CLAMP n], g.key ≠ f.key) :
    (vdcNoted n at' v rest s).on f = s.on f := by
  rw [State.on, vdcNoted_rd_ne n at' v rest s f hf]; rfl

theorem vdcNoted_chopRuns (n : Fin 8) (at' : Nat) (v : Int) (rest : List (Nat × Int)) (s : State) :
    (vdcNoted n at' v rest s).chopRuns n = s.chopRuns n := by
  simp only [State.chopRuns, State.gatePath]
  rw [vdcNoted_on_ne, vdcNoted_on_ne, vdcNoted_on_ne]
  all_goals
    simp only [List.forall_mem_cons, List.not_mem_nil, false_implies, implies_true, and_true, Reg.COM_An_VDC_LAST, Reg.COM_An_STAT_HI1,
      Reg.COM_An_STAT_REGEN_CLAMP, Reg.COM_An_CHOP_CH_EN, Reg.OUT_An_CFG_PINEN, Reg.OUT_An_CFG_GLEN]
    omega

/-! ### The chopper command -/

theorem wordChop_frame (n : Nat) (on : Bool) (s : State) : ∃ o, wordChop n on s = { s with out := o } := by
  unfold wordChop
  dsimp only
  split <;> exact ⟨_, rfl⟩

/-- The chopper command changes on this clock: its field, its instant and its result (R148, R204). -/
theorem chopper_effect (n : Nat) (on : Bool) (code : Int) (s : State) : let t := chopper n on code s
    t.time = s.time ∧ t.dev = s.dev ∧ t.on (Reg.COM_An_STAT_CHOP_ON n) = on ∧
    (∀ f, (Reg.COM_An_STAT_CHOP_ON n).key ≠ f.key → t.rd f = s.rd f) ∧
    ∀ m, t.c m = if n = m ∧ on ≠ s.on (Reg.COM_An_STAT_CHOP_ON n) then
      { s.c m with chopAt := s.ctTicks, chopVal := code, chopChecked := false } else s.c m := by
  intro t
  by_cases hsame : s.on (Reg.COM_An_STAT_CHOP_ON n) = on
  · have ht : t = s := if_pos hsame
    rw [ht]
    exact ⟨rfl, rfl, hsame, fun _ _ => rfl, fun m => by simp [hsame]⟩
  · obtain ⟨o, ho⟩ := wordChop_frame n on (s.put (Reg.COM_An_STAT_CHOP_ON n) on)
    have ht : t = ({ s.put (Reg.COM_An_STAT_CHOP_ON n) on with out := o } : State).setC n
        { s.c n with chopAt := s.ctTicks, chopVal := code, chopChecked := false } := by
      refine (if_neg hsame).trans ?_
      rw [ho]; rfl
    rw [ht]
    refine ⟨rfl, rfl, State.on_put_self _ _ _ rfl, fun f hf => State.rd_put_ne _ _ _ _ hf, fun m => ?_⟩
    rw [State.c_setC]
    by_cases hm : n = m
    · rw [if_pos hm, if_pos ⟨hm, Ne.symm hsame⟩, hm]
    · rw [if_neg hm, if_neg fun h => hm h.1]; rfl

/-! ### REGEN_CLAMP and the trip -/

theorem regenClamp_source (n : Fin 8) : oncePerFrame (Fc.REGEN_CLAMP n) = false ∧ blockFaultIrq (Fc.REGEN_CLAMP n) = some (96 + n.val) := by
  have hall : ∀ n : Fin 8, oncePerFrame (Fc.REGEN_CLAMP n) = false ∧ blockFaultIrq (Fc.REGEN_CLAMP n) = some (96 + n.val) := by decide
  exact hall n

/-- The upward crossing of VDC_TRIP: the status bit, and what the request and the raise of VDC_TRIP change (R151). -/
theorem vdcTrip_effect (n : Fin 8) (s : State) : OnlyFaults (s.put (Reg.COM_An_STAT_TRIP n) true) (vdcTrip n s) ∧
    (s.dev.state ≠ .replay → tb (vdcTrip n s).fcu.supReq n = true) ∧ (vdcTrip n s).isHeld (Fc.VDC_TRIP n) = true := by
  obtain ⟨u, hu⟩ : ∃ u, u = s.put (Reg.COM_An_STAT_TRIP n) true := ⟨_, rfl⟩
  obtain ⟨w, hw⟩ : ∃ w, w = u.when (u.dev.state ≠ .replay) (requestSafe (2 ^ n.val)) := ⟨_, rfl⟩
  have htrip : vdcTrip n s = raiseAx (Fc.VDC_TRIP n) n w := by rw [hw, hu]; rfl
  have hraise : OnlyFaults w (vdcTrip n s) := by rw [htrip]; exact .raiseAx _ _ w
  have hwait : OnlyFaults u w := by rw [hw]; exact .when _ _ (.refl u) (.requestSafe _ u)
  obtain ⟨hclass, honce⟩ := comFault_class n (Fc.VDC_TRIP n) (by simp)
  refine ⟨?_, fun hlive => ?_, ?_⟩
  · rw [← hu]
    exact hwait.trans hraise
  · refine hraise.request n n.isLt ?_
    have hstate : u.dev.state = s.dev.state := by rw [hu]; rfl
    rw [hw, State.when, if_pos (by simpa [hstate] using hlive)]
    exact requestSafe_request _ _ _ n.isLt (by rw [tb_eq_testBit]; exact Nat.testBit_two_pow_self)
  · rw [htrip]
    exact raiseAx_isHeld _ _ _ hclass honce

/-- REGEN_CLAMP on the rise of its comparison (R150). -/
theorem regenClamp_effect (n : Fin 8) (b : Bool) (s : State) : let u := s.when b (raiseAx (Fc.REGEN_CLAMP n) n)
    OnlyFaults s u ∧ (b = true → u.pends (96 + n) = true) := by
  intro u
  obtain ⟨honce, hsrc⟩ := regenClamp_source n
  refine ⟨.when _ _ (.refl s) (.raiseAx _ _ s), fun hb => ?_⟩
  simp only [u, State.when, if_pos hb]
  exact raise_blockPends s honce hsrc

/-- `t` is `s` once COM has acted on its crossings: the trip latched on `d`, and what raising changes. -/
structure AfterTrip (n : Fin 8) (d : Bool) (s t : State) : Prop where
  time : t.time = s.time
  com : t.com = s.com
  rd : ∀ f ∈ comFlds n, (Reg.COM_An_STAT_TRIP n).key ≠ f.key → t.rd f = s.rd f
  pends : ∀ src < 256, s.pends src = true → t.pends src = true
  trip : if d = true then t.on (Reg.COM_An_STAT_TRIP n) = true ∧ t.isHeld (Fc.VDC_TRIP n) = true ∧
      (s.dev.state ≠ .replay → tb t.fcu.supReq n = true)
    else t.on (Reg.COM_An_STAT_TRIP n) = s.on (Reg.COM_An_STAT_TRIP n)

theorem vdcTrip_afterTrip (n : Fin 8) (d : Bool) (s : State) : AfterTrip n d s (settleAll (s.when d (vdcTrip n))) := by
  have htrip : Fld.ofFaults (Reg.COM_An_STAT_TRIP n) = false := comFlds_ofFaults n (by simp [comFlds])
  cases d with
  | false =>
    have ht : OnlyFaults s (settleAll (s.when false (vdcTrip n))) := .settleAll s
    exact ⟨ht.time, ht.com, fun f hf _ => ht.rd f (comFlds_ofFaults n hf), ht.pends, ht.on _ htrip⟩
  | true =>
    obtain ⟨hput, hreq, hheld⟩ := vdcTrip_effect n s
    have hsettle : OnlyFaults (vdcTrip n s) (settleAll (s.when true (vdcTrip n))) := .settleAll _
    have ht := hput.trans hsettle
    refine ⟨ht.time, ht.com, fun f hf hne => ?_, fun src hsrc hp => ht.pends _ hsrc ?_, ?_⟩
    · rw [ht.rd f (comFlds_ofFaults n hf), State.rd_put_ne _ _ _ _ hne]
    · refine (State.bit_wr_ne _ _ _ _ _ ?_).trans hp
      simp only [Reg.COM_An_STAT_TRIP, Reg.INTC_PENDk]
      omega
    · rw [if_pos rfl]
      refine ⟨?_, hsettle.held _ hheld, fun hlive => hsettle.request n n.isLt (hreq hlive)⟩
      rw [ht.on _ htrip, State.on_put_self _ _ _ rfl]

end Sys2Proof.Machine
end

section
/-! DC_LINK_RESULT and the checks of the DC link and the chopper (O10; R147 to R152). -/
namespace Sys2Proof.Machine

/-! ### DC_LINK_RESULT -/

/-- A result whose crossing of VDC_HI1 turns the chopper (R148). -/
abbrev State.chopTurns (s : State) (n : Nat) (v : Int) : Prop :=
  (s.hi1Crossing n v).1 ≠ s.on (Reg.COM_An_STAT_HI1 n) ∧ (s.hi1Crossing n v).1 ≠ s.on (Reg.COM_An_STAT_CHOP_ON n) ∧
  s.on (Reg.COM_An_CHOP_CH_EN n) = true ∧ (s.on (Reg.OUT_An_CFG_PINEN n) = true ∨ s.on (Reg.OUT_An_CFG_GLEN n) = true)

/-- A result noted, with the chopper command that follows its crossing of VDC_HI1. -/
def vdcChopped (n at' : Nat) (v : Int) (rest : List (Nat × Int)) (s : State) : State :=
  let u := vdcNoted n at' v rest s
  u.when ((s.hi1Crossing n v).1 != s.on (Reg.COM_An_STAT_HI1 n) && u.chopRuns n) (chopper n (s.hi1Crossing n v).1 v)

theorem chopTurns_iff (n : Fin 8) (at' : Nat) (v : Int) (rest : List (Nat × Int)) (s : State) :
    s.chopTurns n v ↔ ((s.hi1Crossing n v).1 != s.on (Reg.COM_An_STAT_HI1 n) && (vdcNoted n at' v rest s).chopRuns n) = true ∧
      (s.hi1Crossing n v).1 ≠ s.on (Reg.COM_An_STAT_CHOP_ON n) := by
  rw [vdcNoted_chopRuns]
  simp only [State.chopTurns, State.chopRuns, State.gatePath, Bool.and_eq_true, Bool.or_eq_true, bne_iff_ne]
  tauto

/-- The fields and COM's state once a result is noted and the chopper commanded. -/
theorem vdcChopped_effect (n : Fin 8) (at' : Nat) (v : Int) (rest : List (Nat × Int)) (s : State) :
    let t := vdcChopped n at' v rest s
    t.time = s.time ∧ t.dev = s.dev ∧
    t.on (Reg.COM_An_STAT_CHOP_ON n) = (if s.chopTurns n v then (s.hi1Crossing n v).1 else s.on (Reg.COM_An_STAT_CHOP_ON n)) ∧
    (∀ f, (Reg.COM_An_STAT_CHOP_ON n).key ≠ f.key → t.rd f = (vdcNoted n at' v rest s).rd f) ∧
    ∀ m, t.c m = if n = m then
      { s.vdcSt n at' v rest with
        chopAt := if s.chopTurns n v then s.ctTicks else (s.c n).chopAt
        chopVal := if s.chopTurns n v then v else (s.c n).chopVal
        chopChecked := if s.chopTurns n v then false else (s.c n).chopChecked } else s.c m := by
  intro t
  obtain ⟨u, hu⟩ : ∃ u, u = vdcNoted n at' v rest s := ⟨_, rfl⟩
  have hon : u.on (Reg.COM_An_STAT_CHOP_ON n) = s.on (Reg.COM_An_STAT_CHOP_ON n) := by
    rw [hu]
    refine vdcNoted_on_ne _ _ _ _ _ _ ?_
    simp only [List.forall_mem_cons, List.not_mem_nil, false_implies, implies_true, and_true, Reg.COM_An_VDC_LAST, Reg.COM_An_STAT_HI1,
      Reg.COM_An_STAT_REGEN_CLAMP, Reg.COM_An_STAT_CHOP_ON]
    omega
  have hc : ∀ m, u.c m = if n = m then s.vdcSt n at' v rest else s.c m := fun m => by rw [hu]; exact vdcNoted_c n at' v rest s m
  have htime : u.time = s.time := by rw [hu]; rfl
  have hdev : u.dev = s.dev := by rw [hu]; rfl
  have hturns := chopTurns_iff n at' v rest s
  have ht : t = u.when ((s.hi1Crossing n v).1 != s.on (Reg.COM_An_STAT_HI1 n) && u.chopRuns n) (chopper n (s.hi1Crossing n v).1 v) := by
    rw [hu]; rfl
  rw [← hu] at hturns ⊢
  cases hacts : (s.hi1Crossing n v).1 != s.on (Reg.COM_An_STAT_HI1 n) && u.chopRuns n with
  | false =>
    have hno : ¬ s.chopTurns n v := fun h => by simpa [hacts] using hturns.1 h
    rw [hacts] at ht
    rw [ht]
    refine ⟨htime, hdev, ?_, fun _ _ => rfl, fun m => ?_⟩
    · rw [if_neg hno]; exact hon
    · simp only [if_neg hno]
      exact hc m
  | true =>
    obtain ⟨htime', hdev', hon', hrd', hc'⟩ := chopper_effect n (s.hi1Crossing n v).1 v u
    have hiff : s.chopTurns n v ↔ (s.hi1Crossing n v).1 ≠ s.on (Reg.COM_An_STAT_CHOP_ON n) := by simpa [hacts] using hturns
    rw [hacts] at ht
    rw [ht]
    refine ⟨htime'.trans htime, hdev'.trans hdev, ?_, hrd', fun m => ?_⟩
    · refine hon'.trans ?_
      split
      · rfl
      · next hno => exact not_not.1 fun h => hno (hiff.2 h)
    · refine (hc' m).trans ?_
      have hticks : u.ctTicks = s.ctTicks := by rw [hu]; rfl
      rw [hon, hc m, hticks]
      by_cases hm : n.val = m
      · by_cases hyes : s.chopTurns n v
        · rw [if_pos ⟨hm, hiff.1 hyes⟩, if_pos hm, if_pos hm]
          simp only [if_pos hyes]
        · rw [if_neg fun h => hyes (hiff.2 h.2), if_pos hm, if_pos hm]
          simp only [if_neg hyes]
          rfl
      · rw [if_neg fun h => hm h.1, if_neg hm, if_neg hm]

/-- DC_LINK_RESULT: the result, the crossings and what they cause (R147 to R151). -/
theorem dcLinkResult_completes {n : Fin 8} {s : State} {at' : Nat} {v : Int} {rest : List (Nat × Int)} (hlive : s.live pdOUT = true)
    (hin : (s.c n).vdcIn = (at', v) :: rest) : Completes (.dcLinkResult n) s fun t =>
      t.time = s.time ∧ t.rd (Reg.COM_An_VDC_LAST n) = trunc 16 v ∧ t.on (Reg.COM_An_STAT_HI1 n) = (s.hi1Crossing n v).1 ∧
      t.on (Reg.COM_An_STAT_REGEN_CLAMP n) = (s.hi2Crossing n v).1 ∧
      t.c n = { s.vdcSt n at' v rest with
        chopAt := if s.chopTurns n v then s.ctTicks else (s.c n).chopAt
        chopVal := if s.chopTurns n v then v else (s.c n).chopVal
        chopChecked := if s.chopTurns n v then false else (s.c n).chopChecked } ∧
      t.on (Reg.COM_An_STAT_CHOP_ON n) = (if s.chopTurns n v then (s.hi1Crossing n v).1 else s.on (Reg.COM_An_STAT_CHOP_ON n)) ∧
      ((s.hi2Crossing n v).1 = true → s.on (Reg.COM_An_STAT_REGEN_CLAMP n) = false → t.pends (96 + n) = true) ∧
      (if (s.tripCrossing n v).1 = true ∧ (s.c n).above = false then
          t.on (Reg.COM_An_STAT_TRIP n) = true ∧ t.isHeld (Fc.VDC_TRIP n) = true ∧ (s.dev.state ≠ .replay → tb t.fcu.supReq n = true)
        else t.on (Reg.COM_An_STAT_TRIP n) = s.on (Reg.COM_An_STAT_TRIP n)) ∧
      (∀ m, m ≠ n.val → t.c m = s.c m) := by
  obtain ⟨u, hu⟩ : ∃ u, u = vdcChopped n at' v rest s := ⟨_, rfl⟩
  obtain ⟨w, hw⟩ : ∃ w, w = u.when ((s.hi2Crossing n v).1 && ! s.on (Reg.COM_An_STAT_REGEN_CLAMP n)) (raiseAx (Fc.REGEN_CLAMP n) n) :=
    ⟨_, rfl⟩
  have hexec : exec (.dcLinkResult n) s = done (w.when ((s.tripCrossing n v).1 && ! (s.c n).above) (vdcTrip n)) := by
    rw [execDcLinkResult_eq hlive hin, hw, hu]; rfl
  obtain ⟨htime, hdev, hchop, hrd, hc⟩ := vdcChopped_effect n at' v rest s
  obtain ⟨hlast, hhi1, hregen⟩ := vdcNoted_reads n at' v rest s
  rw [← hu] at htime hdev hchop hrd hc
  obtain ⟨hraised, hpends⟩ := regenClamp_effect n ((s.hi2Crossing n v).1 && ! s.on (Reg.COM_An_STAT_REGEN_CLAMP n)) u
  rw [← hw] at hraised hpends
  have hacted := vdcTrip_afterTrip n ((s.tripCrossing n v).1 && ! (s.c n).above) w
  obtain ⟨t, ht⟩ : ∃ t, t = settleAll (w.when ((s.tripCrossing n v).1 && ! (s.c n).above) (vdcTrip n)) := ⟨_, rfl⟩
  refine ⟨t, hexec.trans (ht ▸ rfl), ?_⟩
  rw [← ht] at hacted
  have hfield : ∀ f ∈ comFlds n, (Reg.COM_An_STAT_TRIP n).key ≠ f.key → t.rd f = u.rd f := fun f hf hne =>
    (hacted.rd f hf hne).trans (hraised.rd f (comFlds_ofFaults n hf))
  have hbit : ∀ f ∈ comFlds n, (Reg.COM_An_STAT_TRIP n).key ≠ f.key → t.on f = u.on f := fun f hf hne => by
    rw [State.on, hfield f hf hne]; rfl
  have hstate : ∀ m, t.c m = u.c m := fun m => by rw [State.c, hacted.com, hraised.com]; rfl
  refine ⟨?_, ?_, ?_, ?_, ?_, ?_, ?_, ?_, ?_⟩
  · rw [hacted.time, hraised.time, htime]
  · rw [hfield _ (by simp [comFlds]) (by simp only [Reg.COM_An_STAT_TRIP, Reg.COM_An_VDC_LAST]; omega),
      hrd _ (by simp only [Reg.COM_An_STAT_CHOP_ON, Reg.COM_An_VDC_LAST]; omega), hlast]
  · rw [State.on, hfield _ (by simp [comFlds]) (by simp only [Reg.COM_An_STAT_TRIP, Reg.COM_An_STAT_HI1]; omega),
      hrd _ (by simp only [Reg.COM_An_STAT_CHOP_ON, Reg.COM_An_STAT_HI1]; omega), ← hhi1]; rfl
  · rw [State.on, hfield _ (by simp [comFlds]) (by simp only [Reg.COM_An_STAT_TRIP, Reg.COM_An_STAT_REGEN_CLAMP]; omega),
      hrd _ (by simp only [Reg.COM_An_STAT_CHOP_ON, Reg.COM_An_STAT_REGEN_CLAMP]; omega), ← hregen]; rfl
  · rw [hstate, hc, if_pos rfl]
  · rw [hbit _ (by simp [comFlds]) (by simp only [Reg.COM_An_STAT_TRIP, Reg.COM_An_STAT_CHOP_ON]; omega), hchop]
  · exact fun hrise hwas => hacted.pends _ (by omega) (hpends (by simp [hrise, hwas]))
  · have htrip := hacted.trip
    have hlive' : s.dev.state ≠ .replay → w.dev.state ≠ .replay := fun h hr => h (hdev ▸ hraised.replay.1 hr)
    have hwas : w.on (Reg.COM_An_STAT_TRIP n) = s.on (Reg.COM_An_STAT_TRIP n) := by
      rw [hraised.on _ (comFlds_ofFaults n (by simp [comFlds])), State.on,
        hrd _ (by simp only [Reg.COM_An_STAT_CHOP_ON, Reg.COM_An_STAT_TRIP]; omega), vdcNoted_rd_ne]
      · rfl
      · simp only [List.forall_mem_cons, List.not_mem_nil, false_implies, implies_true, and_true, Reg.COM_An_VDC_LAST,
          Reg.COM_An_STAT_HI1, Reg.COM_An_STAT_REGEN_CLAMP, Reg.COM_An_STAT_TRIP]
        omega
    by_cases hcross : (s.tripCrossing n v).1 = true ∧ (s.c n).above = false
    · rw [if_pos hcross]
      rw [if_pos (by simp [hcross])] at htrip
      obtain ⟨hlatched, hheld, hreq⟩ := htrip
      exact ⟨hlatched, hheld, fun h => hreq (hlive' h)⟩
    · rw [if_neg hcross]
      rw [if_neg (by simpa using hcross), hwas] at htrip
      exact htrip
  · exact fun m hm => by rw [hstate, hc, if_neg (Ne.symm hm)]

/-! ### VDC_LOST -/

theorem vdcLost_completes {n : Fin 8} {s : State} (hlive : s.live pdOUT = true) : Completes (.vdcLost n) s fun t =>
    if s.on (Reg.COM_An_STAT_VDC_LOST n) = true then t = s
    else
      let last := match (s.c n).vdcIn.getLast? with
        | some r => r.1
        | none => (s.c n).vdcAt
      OnlyFaults ((reach (last + 400 * s.rd (Reg.COM_An_VDCG_TOUT n)) s).put (Reg.COM_An_STAT_VDC_LOST n) true) t ∧
      t.isHeld (Fc.VDC_LOST n) = true := by
  by_cases hlost : s.on (Reg.COM_An_STAT_VDC_LOST n) = true
  · refine completes_of_next (u := s) ?_ (by rw [if_pos hlost])
    show execVdcLost n s = _
    simp [execVdcLost, hlost]
  · obtain ⟨u, hu⟩ : ∃ u, u = (reach ((match (s.c n).vdcIn.getLast? with
        | some r => r.1
        | none => (s.c n).vdcAt) + 400 * s.rd (Reg.COM_An_VDCG_TOUT n)) s).put (Reg.COM_An_STAT_VDC_LOST n) true := ⟨_, rfl⟩
    have hexec : exec (.vdcLost n) s = done (raiseAx (Fc.VDC_LOST n) n u) := by
      show execVdcLost n s = _
      rw [execVdcLost, hlive, if_neg (by simp), if_neg hlost, hu]
      cases (s.c n).vdcIn.getLast? <;> rfl
    simp only [if_neg hlost, ← hu]
    exact ⟨_, hexec, (OnlyFaults.raiseAx _ _ u).trans (.settleAll _), comFault_isHeld u (by simp)⟩

/-! ### The checks of the chopper -/

/-- CHOPPER_FAULT, once while its status bit stands: what it writes and raises (R149). -/
theorem chopFault_settled (n : Fin 8) (s : State) : let t := settleAll (chopFault n s)
    if s.on (Reg.COM_An_STAT_CHOP_FAULT n) = false then
      OnlyFaults ((s.put (Reg.COM_An_STAT_CHOP_FAULT n) true).setC n { s.c n with chopSince := true }) t ∧
      t.isHeld (Fc.CHOPPER_FAULT n) = true
    else OnlyFaults s t := by
  intro t
  cases hwas : s.on (Reg.COM_An_STAT_CHOP_FAULT n) with
  | false =>
    have hraise : chopFault n s = raiseAx (Fc.CHOPPER_FAULT n) n
        ((s.put (Reg.COM_An_STAT_CHOP_FAULT n) true).setC n { s.c n with chopSince := true }) := if_neg (by simp [hwas])
    simp only [t, hraise, if_pos]
    exact ⟨(OnlyFaults.raiseAx _ _ _).trans (.settleAll _), comFault_isHeld _ (by simp)⟩
  | true =>
    have hsame : chopFault n s = s := if_pos hwas
    simp only [t, hsame]
    exact .settleAll s

/-- CHOPPER_STUCK, once while its status bit stands (R149). -/
theorem chopStuck_settled (n : Fin 8) (s : State) : let t := settleAll (chopStuck n s)
    if s.on (Reg.COM_An_STAT_CHOP_STUCK n) = false then
      OnlyFaults (s.put (Reg.COM_An_STAT_CHOP_STUCK n) true) t ∧ t.isHeld (Fc.CHOPPER_STUCK n) = true
    else OnlyFaults s t := by
  intro t
  cases hwas : s.on (Reg.COM_An_STAT_CHOP_STUCK n) with
  | false =>
    have hraise : chopStuck n s = raiseAx (Fc.CHOPPER_STUCK n) n (s.put (Reg.COM_An_STAT_CHOP_STUCK n) true) := if_neg (by simp [hwas])
    simp only [t, hraise, if_pos]
    exact ⟨(OnlyFaults.raiseAx _ _ _).trans (.settleAll _), comFault_isHeld _ (by simp)⟩
  | true =>
    have hsame : chopStuck n s = s := if_pos hwas
    simp only [t, hsame]
    exact .settleAll s

/-- The chopper-current result noted. -/
def ichNoted (n : Nat) (v : Int) (rest : List (Nat × Int)) (s : State) : State :=
  (s.setC n { s.c n with ichIn := rest }).wr (Reg.COM_An_VDC_ICH n) (trunc 16 v)

theorem ichNoted_rd_ne (n : Nat) (v : Int) (rest : List (Nat × Int)) (s : State) (f : Fld) (hf : (Reg.COM_An_VDC_ICH n).key ≠ f.key) :
    (ichNoted n v rest s).rd f = s.rd f := State.rd_wr_ne _ _ _ _ hf

theorem ichNoted_on_ne (n : Nat) (v : Int) (rest : List (Nat × Int)) (s : State) (f : Fld) (hf : (Reg.COM_An_VDC_ICH n).key ≠ f.key) :
    (ichNoted n v rest s).on f = s.on f := State.on_wr_ne _ _ _ _ hf

theorem ichNoted_c (n : Nat) (v : Int) (rest : List (Nat × Int)) (s : State) :
    (ichNoted n v rest s).c n = { s.c n with ichIn := rest } := (State.c_setC _ _ _ _).trans (if_pos rfl)

theorem execChopperCurrentResult_eq {n : Fin 8} {s : State} {at' : Nat} {v : Int} {rest : List (Nat × Int)} (hlive : s.live pdOUT = true)
    (hin : (s.c n).ichIn = (at', v) :: rest) :
    let u := ichNoted n v rest s
    let idly := 400 * s.rd (Reg.COM_An_CHT_IDLY n)
    let imin := sext 16 (s.rd (Reg.COM_An_CHOP_IMIN n))
    let span := at' - (s.c n).chopAt
    let en := s.on (Reg.COM_An_CHOP_CH_EN n)
    let on := s.on (Reg.COM_An_STAT_CHOP_ON n)
    exec (.chopperCurrentResult n) s = done (if en = true ∧ on = true ∧ idly ≤ span ∧ v < imin then chopFault n u
      else if en = true ∧ on = false ∧ idly < span ∧ imin ≤ v then chopStuck n u else u) := by
  intro u idly imin span en on
  have hen : u.on (Reg.COM_An_CHOP_CH_EN n) = en :=
    ichNoted_on_ne _ _ _ _ _ (by simp only [Reg.COM_An_VDC_ICH, Reg.COM_An_CHOP_CH_EN]; omega)
  have hon : u.on (Reg.COM_An_STAT_CHOP_ON n) = on :=
    ichNoted_on_ne _ _ _ _ _ (by simp only [Reg.COM_An_VDC_ICH, Reg.COM_An_STAT_CHOP_ON]; omega)
  have hidly : usTicks (u.rd (Reg.COM_An_CHT_IDLY n)) = idly :=
    congrArg usTicks (ichNoted_rd_ne _ _ _ _ _ (by simp only [Reg.COM_An_VDC_ICH, Reg.COM_An_CHT_IDLY]; omega))
  have himin : sext 16 (u.rd (Reg.COM_An_CHOP_IMIN n)) = imin :=
    congrArg (sext 16) (ichNoted_rd_ne _ _ _ _ _ (by simp only [Reg.COM_An_VDC_ICH, Reg.COM_An_CHOP_IMIN]; omega))
  have hspan : at' - (u.c n).chopAt = span := by simp only [u, ichNoted_c, span]
  have hexec : exec (.chopperCurrentResult n) s =
      if ! u.on (Reg.COM_An_CHOP_CH_EN n) then done u
      else if u.on (Reg.COM_An_STAT_CHOP_ON n) then
        done (u.when (decide (usTicks (u.rd (Reg.COM_An_CHT_IDLY n)) ≤ at' - (u.c n).chopAt) &&
          decide (v < sext 16 (u.rd (Reg.COM_An_CHOP_IMIN n)))) (chopFault n))
      else done (u.when (decide (usTicks (u.rd (Reg.COM_An_CHT_IDLY n)) < at' - (u.c n).chopAt) &&
          decide (sext 16 (u.rd (Reg.COM_An_CHOP_IMIN n)) ≤ v)) (chopStuck n)) := by
    show execChopperCurrentResult n s = _
    rw [execChopperCurrentResult, hlive, if_neg (by simp), hin]
    rfl
  rw [hexec, hen, hon, hidly, himin, hspan]
  cases en <;> cases on <;> simp [State.when, apply_ite done]

/-- CHOPPER_CURRENT_RESULT of a waiting result (R149). -/
theorem chopperCurrentResult_completes {n : Fin 8} {s : State} {at' : Nat} {v : Int} {rest : List (Nat × Int)}
    (hlive : s.live pdOUT = true) (hin : (s.c n).ichIn = (at', v) :: rest) :
    let u := ichNoted n v rest s
    let en := s.on (Reg.COM_An_CHOP_CH_EN n)
    let on := s.on (Reg.COM_An_STAT_CHOP_ON n)
    let idly := 400 * s.rd (Reg.COM_An_CHT_IDLY n)
    let imin := sext 16 (s.rd (Reg.COM_An_CHOP_IMIN n))
    let span := at' - (s.c n).chopAt
    Completes (.chopperCurrentResult n) s fun t =>
      if s.on (Reg.COM_An_STAT_CHOP_FAULT n) = false ∧ en = true ∧ on = true ∧ idly ≤ span ∧ v < imin then
        OnlyFaults ((u.put (Reg.COM_An_STAT_CHOP_FAULT n) true).setC n { u.c n with chopSince := true }) t ∧
        t.isHeld (Fc.CHOPPER_FAULT n) = true
      else if s.on (Reg.COM_An_STAT_CHOP_STUCK n) = false ∧ en = true ∧ on = false ∧ idly < span ∧ imin ≤ v then
        OnlyFaults (u.put (Reg.COM_An_STAT_CHOP_STUCK n) true) t ∧ t.isHeld (Fc.CHOPPER_STUCK n) = true
      else OnlyFaults u t := by
  intro u en on idly imin span
  have hexec : exec (.chopperCurrentResult n) s = done (if en = true ∧ on = true ∧ idly ≤ span ∧ v < imin then chopFault n u
      else if en = true ∧ on = false ∧ idly < span ∧ imin ≤ v then chopStuck n u else u) := execChopperCurrentResult_eq hlive hin
  have hfault : u.on (Reg.COM_An_STAT_CHOP_FAULT n) = s.on (Reg.COM_An_STAT_CHOP_FAULT n) :=
    ichNoted_on_ne _ _ _ _ _ (by simp only [Reg.COM_An_VDC_ICH, Reg.COM_An_STAT_CHOP_FAULT]; omega)
  have hstuck : u.on (Reg.COM_An_STAT_CHOP_STUCK n) = s.on (Reg.COM_An_STAT_CHOP_STUCK n) :=
    ichNoted_on_ne _ _ _ _ _ (by simp only [Reg.COM_An_VDC_ICH, Reg.COM_An_STAT_CHOP_STUCK]; omega)
  by_cases hlow : en = true ∧ on = true ∧ idly ≤ span ∧ v < imin
  · rw [if_pos hlow] at hexec
    refine ⟨_, hexec, ?_⟩
    have hraised := chopFault_settled n u
    have hnot : ¬ (s.on (Reg.COM_An_STAT_CHOP_STUCK n) = false ∧ en = true ∧ on = false ∧ idly < span ∧ imin ≤ v) := by
      rintro ⟨-, -, hoff, -⟩
      simp [hlow.2.1] at hoff
    rw [hfault] at hraised
    simp only [if_neg hnot]
    simpa only [hlow, and_true, and_self] using hraised
  rw [if_neg hlow] at hexec
  simp only [hlow, and_false, if_false]
  by_cases hhigh : en = true ∧ on = false ∧ idly < span ∧ imin ≤ v
  · rw [if_pos hhigh] at hexec
    refine ⟨_, hexec, ?_⟩
    have hraised := chopStuck_settled n u
    rw [hstuck] at hraised
    simpa only [hhigh, and_true, and_self] using hraised
  · rw [if_neg hhigh] at hexec
    refine ⟨_, hexec, ?_⟩
    simp only [hhigh, and_false, if_false]
    exact .settleAll u

/-- CHOPPER_NO_FALL_CHECK: the check of a turn-on (R149). -/
theorem chopperNoFallCheck_completes {n : Fin 8} {s : State} (hlive : s.live pdOUT = true) : Completes (.chopperNoFallCheck n) s fun t =>
    if s.on (Reg.COM_An_CHOP_CH_EN n) = true ∧ s.on (Reg.COM_An_STAT_CHOP_ON n) = true ∧ (s.c n).chopChecked = false then
      let u := reach ((s.c n).chopAt + 400 * s.rd (Reg.COM_An_CHT_TCHK n)) s
      let v := u.setC n { s.c n with chopChecked := true }
      if s.on (Reg.COM_An_STAT_CHOP_FAULT n) = false ∧ (s.c n).chopVal ≤ sext 16 (s.rd (Reg.COM_An_VDC_LAST n)) then
        OnlyFaults ((v.put (Reg.COM_An_STAT_CHOP_FAULT n) true).setC n
          { s.c n with chopChecked := true, chopSince := true }) t ∧ t.isHeld (Fc.CHOPPER_FAULT n) = true
      else OnlyFaults v t
    else t = s := by
  by_cases hdue : s.on (Reg.COM_An_CHOP_CH_EN n) = true ∧ s.on (Reg.COM_An_STAT_CHOP_ON n) = true ∧ (s.c n).chopChecked = false
  · obtain ⟨hen, hon, hunchecked⟩ := hdue
    obtain ⟨u, hu⟩ : ∃ u, u = reach ((s.c n).chopAt + 400 * s.rd (Reg.COM_An_CHT_TCHK n)) s := ⟨_, rfl⟩
    have hclock : AfterClock s u := hu ▸ reach_afterClock _ s
    obtain ⟨v, hv⟩ : ∃ v, v = u.setC n { s.c n with chopChecked := true } := ⟨_, rfl⟩
    have hc : v.c n = { s.c n with chopChecked := true } := by rw [hv, State.c_setC, if_pos rfl]
    have hlast : v.rd (Reg.COM_An_VDC_LAST n) = s.rd (Reg.COM_An_VDC_LAST n) := by
      rw [← hclock.rd _ (comFlds_plant n _ (by simp [comFlds])), hv]; rfl
    have hfault : v.on (Reg.COM_An_STAT_CHOP_FAULT n) = s.on (Reg.COM_An_STAT_CHOP_FAULT n) := by
      rw [← hclock.on _ (comFlds_plant n _ (by simp [comFlds])), hv]; rfl
    have hexec : exec (.chopperNoFallCheck n) s =
        done (v.when (decide ((s.c n).chopVal ≤ sext 16 (s.rd (Reg.COM_An_VDC_LAST n)))) (chopFault n)) := by
      have hstep : exec (.chopperNoFallCheck n) s = done ((u.setC n { u.c n with chopChecked := true }).when
          (decide (((u.setC n { u.c n with chopChecked := true }).c n).chopVal ≤
            sext 16 ((u.setC n { u.c n with chopChecked := true }).rd (Reg.COM_An_VDC_LAST n)))) (chopFault n)) := by
        show execChopperNoFallCheck n s = _
        rw [execChopperNoFallCheck, hlive, if_neg (by simp), if_pos (by simp [hen, hon, hunchecked]), hu]
        rfl
      rw [hstep, hclock.c, ← hv, hc, hlast]
    simp only [hen, hon, hunchecked, and_self, if_true, ← hu, ← hv]
    refine ⟨_, hexec, ?_⟩
    by_cases hhigh : (s.c n).chopVal ≤ sext 16 (s.rd (Reg.COM_An_VDC_LAST n))
    · have hraised := chopFault_settled n v
      rw [hfault, hc] at hraised
      simpa only [State.when, hhigh, decide_true, if_true, and_true] using hraised
    · simp only [State.when, hhigh, decide_false, and_false, if_false]
      exact .settleAll v
  · refine completes_of_next (u := s) ?_ (by rw [if_neg hdue])
    show execChopperNoFallCheck n s = _
    rw [execChopperNoFallCheck, hlive, if_neg (by simp), if_neg (by simpa [and_assoc] using hdue)]

/-- Settles O10, command by command. -/
theorem dcLinkAndChopper : Obligations.DcLinkAndChopper := by
  unfold Obligations.DcLinkAndChopper
  refine ⟨fun n s hlive hnone => completes_of_next ?_ rfl, fun n s at' v rest hlive hin => dcLinkResult_completes hlive hin,
    fun n s hlive _ => vdcLost_completes hlive, fun n s hlive hnone => completes_of_next ?_ rfl,
    fun n s at' v rest hlive hin => chopperCurrentResult_completes hlive hin, fun n s hlive _ => chopperNoFallCheck_completes hlive⟩
  · show execDcLinkResult n s = _
    rw [execDcLinkResult, hlive, if_neg (by simp), hnone]
  · show execChopperCurrentResult n s = _
    rw [execChopperCurrentResult, hlive, if_neg (by simp), hnone]

end Sys2Proof.Machine
end

section
/-! Edge-command blocks, leg transitions and incoming turn-ons (O14; R154, R196 to R199). -/
namespace Sys2Proof.Machine

/-! ### Blocks -/

theorem blockInForce_completes {n : Fin 8} {s : State} {at' : Nat} {b : List Nat} {rest : List (Nat × List Nat)}
    (hlive : s.live pdOUT = true) (hpend : (s.o n).pend = (at', b) :: rest) :
    let o := { s.o n with block := b, pend := rest }
    Completes (.blockInForce n) s (Settled ((reach at' s).setO n (if (b = [] ∨ tb (b.headD 0) 0 = true) ∧ s.safeNow n = false then
      { o with legA := {}, legB := {}, legC := {} } else o))) := by
  intro o
  have hclock := reach_afterClock at' s
  have hexec : exec (.blockInForce n) s = done ((reach at' s).setO n (if o.blockOff && ! s.safeNow n then
      { o with legA := {}, legB := {}, legC := {} } else o)) := by
    show execBlockInForce n s = _
    rw [execBlockInForce, hlive, if_neg (by simp), hpend]
    dsimp only
    rw [hclock.o, hclock.safeNow]
  have hoff : (o.blockOff && ! s.safeNow n) = true ↔ (b = [] ∨ tb (b.headD 0) 0 = true) ∧ s.safeNow n = false := by
    simp [OutSt.blockOff, o]
  rw [if_congr hoff rfl rfl] at hexec
  exact completes_of_done hexec fun t ht => ht

theorem execBlockInForce_none {n : Fin 8} {s : State} (hpend : (s.o n).pend = []) : exec (.blockInForce n) s = .next s := by
  show execBlockInForce n s = _
  simp [execBlockInForce, hpend]

/-! ### The half-periods in which a leg moves -/

/-- In a rising list, the least number at which `f` answers gives the answer of the list. -/
theorem findSome?_of_first {β : Type} {l : List Nat} (hl : l.Pairwise (· ≤ ·)) {f : Nat → Option β} {h : Nat} {r : β} (hmem : h ∈ l)
    (hbefore : ∀ k ∈ l, k < h → f k = none) (hat : f h = some r) : l.findSome? f = some r := by
  induction l with
  | nil => cases hmem
  | cons a l ih =>
    obtain ⟨hfirst, htail⟩ := List.pairwise_cons.1 hl
    by_cases hlt : a < h
    · have hin : h ∈ l := (List.mem_cons.1 hmem).resolve_left (by omega)
      rw [List.findSome?_cons, hbefore a (List.mem_cons_self ..) hlt]
      exact ih htail hin fun k hk => hbefore k (List.mem_cons_of_mem _ hk)
    · have hsame : a = h := by
        rcases List.mem_cons.1 hmem with heq | hin
        · exact heq.symm
        · have := hfirst h hin
          omega
      rw [List.findSome?_cons, hsame, hat]

/-- The half-period of the present and the two after it (R198). -/
def State.halves (s : State) (n : Nat) : List Nat :=
  [s.edgeBefore n s.ctTicks, s.edgeBefore n s.ctTicks + s.half n, s.edgeBefore n s.ctTicks + 2 * s.half n]

theorem State.halves_rising (s : State) (n : Nat) : (s.halves n).Pairwise (· ≤ ·) := by
  simp only [State.halves, List.pairwise_cons, List.mem_cons, List.not_mem_nil, or_false, forall_eq_or_imp, forall_eq, false_implies,
    implies_true, List.Pairwise.nil, and_true]
  omega

/-- The half-period that starts at `h` is a falling one. -/
abbrev State.falling (s : State) (n h : Nat) : Bool := decide (s.nextPeak n h = h)

/-- The instant in eighths, and the state, to which the block moves leg x in the half-period that starts at `h` (R196, R197). -/
def State.legInstant (s : State) (n x h : Nat) : Nat :=
  8 * h + clampEdge (8 * s.half n) (((s.o n).block).getD (if s.falling n h then 1 + x else 4 + x) 0)

def State.legTarget (s : State) (n h : Nat) : Leg := if s.falling n h then Leg.lower else Leg.upper

/-- The block moves leg x in the half-period that starts at `h`, at an instant not yet past (R197, R198). -/
def State.legMoves (s : State) (n x h : Nat) : Prop := h ∈ s.halves n ∧ (s.o n).block ≠ [] ∧ tb ((s.o n).block.headD 0) 0 = false ∧
  (s.o n).since < h ∧ s.legInstant n x h < 8 * h + 8 * s.half n ∧ ((s.o n).leg x).st ≠ s.legTarget n h ∧
  ceilDiv s.ct (2 ^ 29) ≤ s.legInstant n x h

theorem clampEdge_le (h8 v : Nat) : clampEdge h8 v ≤ h8 := by
  unfold clampEdge clampI
  omega

/-- The transition of a leg in a half-period, where the block has one there. -/
theorem legIn_eq (s : State) (n x h : Nat) : s.legIn n x h = if (s.o n).block ≠ [] ∧ tb ((s.o n).block.headD 0) 0 = false ∧
    (s.o n).since < h ∧ s.legInstant n x h < 8 * h + 8 * s.half n ∧ ((s.o n).leg x).st ≠ s.legTarget n h
    then some (s.legInstant n x h, s.legTarget n h) else none := by
  have hle := clampEdge_le (8 * s.half n) (((s.o n).block).getD (if s.falling n h then 1 + x else 4 + x) 0)
  have hbefore : s.legInstant n x h < 8 * h + 8 * s.half n ↔
      ¬ clampEdge (8 * s.half n) (blockWord (s.o n).block (s.falling n h) x) = 8 * s.half n := by
    unfold State.legInstant blockWord
    omega
  have htarget : (if s.nextPeak n h = h then Leg.lower else Leg.upper) = s.legTarget n h := by
    simp [State.legTarget]
  have hcond : ((s.o n).block ≠ [] ∧ tb ((s.o n).block.headD 0) 0 = false ∧ (s.o n).since < h ∧
      s.legInstant n x h < 8 * h + 8 * s.half n ∧ ((s.o n).leg x).st ≠ s.legTarget n h) ↔
      ¬ ((s.o n).blockOff || ! (s.o n).governs h || clampEdge (8 * s.half n) (blockWord (s.o n).block (s.falling n h) x) = 8 * s.half n ||
        ((s.o n).leg x).st = s.legTarget n h) = true := by
    rw [hbefore]
    simp only [OutSt.blockOff, OutSt.governs, Bool.or_eq_true, decide_eq_true_eq, Bool.not_eq_true', decide_eq_false_iff_not, not_or,
      not_not, Bool.not_eq_true, ne_eq, and_assoc]
  rw [if_congr hcond rfl rfl, ite_not]
  unfold State.legIn
  dsimp only
  rw [htarget]
  rfl

/-- The transition of leg x in a half-period, unless it is past. -/
def State.legDue (s : State) (n x h : Nat) : Option (Nat × Leg) := (s.legIn n x h).filter fun r => decide (ceilDiv s.ct (2 ^ 29) ≤ r.1)

theorem nextLeg_eq (s : State) (n x : Nat) : s.nextLeg n x = (s.halves n).findSome? (s.legDue n x) := by
  unfold State.nextLeg
  dsimp only
  refine congrArg (List.findSome? · (s.halves n)) (funext fun h => ?_)
  rw [State.legDue]
  cases s.legIn n x h with
  | none => rfl
  | some r => simp only [Option.filter_some, decide_eq_true_eq]

theorem legDue_of_moves {s : State} {n x h : Nat} (hmoves : s.legMoves n x h) :
    s.legDue n x h = some (s.legInstant n x h, s.legTarget n h) := by
  obtain ⟨-, hblock, hoff, hsince, hbefore, htarget, hdue⟩ := hmoves
  rw [State.legDue, legIn_eq, if_pos ⟨hblock, hoff, hsince, hbefore, htarget⟩]
  simp only [Option.filter_some, decide_eq_true_eq, if_pos hdue]

theorem legDue_none {s : State} {n x h : Nat} (hmem : h ∈ s.halves n) (hstays : ¬ s.legMoves n x h) : s.legDue n x h = none := by
  rw [State.legDue, legIn_eq]
  split
  · next hin =>
    obtain ⟨hblock, hoff, hsince, hbefore, htarget⟩ := hin
    have hpast : ¬ ceilDiv s.ct (2 ^ 29) ≤ s.legInstant n x h := fun hdue =>
      hstays ⟨hmem, hblock, hoff, hsince, hbefore, htarget, hdue⟩
    simp only [Option.filter_some, decide_eq_true_eq, if_neg hpast]
  · rfl

/-! ### Leg transitions and incoming turn-ons -/

theorem legTransition_completes {n : Fin 8} {x : Fin 3} {h : Nat} {s : State} (hlive : s.live pdOUT = true) (hexecutes : s.executes n = true)
    (hmoves : s.legMoves n x h) (hfirst : ∀ k, k < h → ¬ s.legMoves n x k) : Completes (.legTransition n x) s
      (Settled ((reach8 (s.legInstant n x h) s).setO n ((s.o n).setLeg x
        { st := s.legTarget n h, up := false, lo := false, onAt := some (s.legInstant n x h + 8 * s.rd (Reg.OUT_An_DT n)) }))) := by
  have hclock := reach8_afterClock (s.legInstant n x h) s
  have hnext : s.nextLeg n x = some (s.legInstant n x h, s.legTarget n h) := by
    rw [nextLeg_eq]
    exact findSome?_of_first (s.halves_rising n) hmoves.1 (fun k hk hlt => legDue_none hk (hfirst k hlt)) (legDue_of_moves hmoves)
  refine completes_of_done ?_ fun t ht => ht
  show execLegTransition n x s = _
  rw [execLegTransition, hlive, if_neg (by simp), hexecutes, if_neg (by simp), hnext]
  dsimp only
  rw [hclock.o, hclock.rd _ (outFlds_plant n _ (by simp [outFlds]))]

theorem execLegTransition_none {n : Fin 8} {x : Fin 3} {s : State} (hnone : s.executes n = false ∨ ∀ h, ¬ s.legMoves n x h) :
    exec (.legTransition n x) s = .next s := by
  show execLegTransition n x s = _
  rcases hnone with hstopped | hstays
  · simp [execLegTransition, hstopped]
  · have hnext : s.nextLeg n x = none := by
      rw [nextLeg_eq]
      exact List.findSome?_eq_none_iff.2 fun h hh => legDue_none hh (hstays h)
    simp [execLegTransition, hnext]

theorem incomingTurnOn_completes {n : Fin 8} {x : Fin 3} {at8 : Nat} {s : State} (hlive : s.live pdOUT = true)
    (hswitches : s.executes n = true ∨ s.safeNow n = true) (hon : ((s.o n).leg x).onAt = some at8) :
    let l := (s.o n).leg x
    Completes (.incomingTurnOn n x) s (Settled ((reach8 at8 s).setO n ((s.o n).setLeg x
      { st := l.st, up := decide (l.st = .upper), lo := decide (l.st = .lower), onAt := none }))) := by
  intro l
  have hclock := reach8_afterClock at8 s
  refine completes_of_done ?_ fun t ht => ht
  show execIncomingTurnOn n x s = _
  rw [execIncomingTurnOn, hlive, if_neg (by simp), hon]
  dsimp only
  rw [if_neg (by rcases hswitches with h | h <;> simp [h]), hclock.o]

theorem execIncomingTurnOn_none {n : Fin 8} {x : Fin 3} {s : State}
    (hnone : (s.executes n = false ∧ s.safeNow n = false) ∨ ((s.o n).leg x).onAt = none) : exec (.incomingTurnOn n x) s = .next s := by
  show execIncomingTurnOn n x s = _
  cases hon : ((s.o n).leg x).onAt with
  | none => simp [execIncomingTurnOn, hon]
  | some at8 =>
    obtain ⟨hstopped, hfree⟩ := hnone.resolve_right (by simp [hon])
    simp [execIncomingTurnOn, hon, hstopped, hfree]

end Sys2Proof.Machine
end

section
/-! The TRIP inputs and their latches (O14; R202, R221). -/
namespace Sys2Proof.Machine

/-! ### TRIP_INPUT -/

/-- The phase switches of axis n are held off by a TRIP input. -/
def holdTrip (n : Nat) (s : State) : State := s.setO n { s.o n with tripHeld := true }

theorem each_holdTrip_frame (l : List Nat) (s : State) : ∃ o, s.each l holdTrip = { s with out := o } := by
  induction l generalizing s with
  | nil => exact ⟨_, rfl⟩
  | cons a l ih =>
    obtain ⟨o, ho⟩ := ih (holdTrip a s)
    exact ⟨o, ho⟩

theorem each_holdTrip_o (l : List Nat) (s : State) (n : Nat) :
    (s.each l holdTrip).o n = { s.o n with tripHeld := (s.o n).tripHeld || decide (n ∈ l) } := by
  induction l generalizing s with
  | nil => simp [State.each]
  | cons a l ih =>
    refine (ih (holdTrip a s)).trans ?_
    rw [holdTrip, State.o_setO]
    by_cases ha : a = n
    · simp [ha]
    · simp [ha, Ne.symm ha]

theorem mem_bitsOf {k v n : Nat} : n ∈ bitsOf k v ↔ n < k ∧ tb v n = true := by
  simp [bitsOf]

/-- The latch of input i with the axes that it holds off (R202). -/
def tripLatched (i : Nat) (s : State) : State :=
  ((s.wrBit Reg.OUT_TRIP_STAT_LEVEL i true).wrBit Reg.OUT_TRIP_STAT_LATCH i true).each (bitsOf 8 (s.rd (Reg.OUT_TRIPt_AXMASK i))) holdTrip

theorem tripLatched_rd (i : Nat) (s : State) (f : Fld) : (tripLatched i s).rd f =
    ((s.wrBit Reg.OUT_TRIP_STAT_LEVEL i true).wrBit Reg.OUT_TRIP_STAT_LATCH i true).rd f := by
  obtain ⟨o, ho⟩ := each_holdTrip_frame (bitsOf 8 (s.rd (Reg.OUT_TRIPt_AXMASK i)))
    ((s.wrBit Reg.OUT_TRIP_STAT_LEVEL i true).wrBit Reg.OUT_TRIP_STAT_LATCH i true)
  rw [tripLatched, ho]; rfl

theorem tripLatched_frame (i : Nat) (s : State) : (tripLatched i s).time = s.time ∧ (tripLatched i s).com = s.com := by
  obtain ⟨o, ho⟩ := each_holdTrip_frame (bitsOf 8 (s.rd (Reg.OUT_TRIPt_AXMASK i)))
    ((s.wrBit Reg.OUT_TRIP_STAT_LEVEL i true).wrBit Reg.OUT_TRIP_STAT_LATCH i true)
  rw [tripLatched, ho]
  exact ⟨rfl, rfl⟩

theorem tripFld_ne (i : Nat) : Reg.OUT_TRIP_STAT_LEVEL.key ≠ (Reg.OUT_TRIPt_EN i).key ∧
    Reg.OUT_TRIP_STAT_LEVEL.key ≠ (Reg.OUT_TRIPt_AXMASK i).key ∧ Reg.OUT_TRIP_STAT_LATCH.key ≠ (Reg.OUT_TRIPt_AXMASK i).key := by
  simp only [Reg.OUT_TRIP_STAT_LEVEL, Reg.OUT_TRIP_STAT_LATCH, Reg.OUT_TRIPt_EN, Reg.OUT_TRIPt_AXMASK]
  omega

theorem execTripInput_disabled {i : Fin 8} {s : State} (hlive : s.live pdOUT = true) (hoff : s.on (Reg.OUT_TRIPt_EN i) = false) :
    exec (.tripInput i) s = done (s.wrBit Reg.OUT_TRIP_STAT_LEVEL i true) := by
  have hen : (s.wrBit Reg.OUT_TRIP_STAT_LEVEL i true).on (Reg.OUT_TRIPt_EN i) = false := (State.on_wr_ne _ _ _ _ (tripFld_ne i).1).trans hoff
  show execTripInput i s = _
  simp [execTripInput, hlive, hen]

theorem execTripInput_enabled {i : Fin 8} {s : State} (hlive : s.live pdOUT = true) (hon : s.on (Reg.OUT_TRIPt_EN i) = true) :
    exec (.tripInput i) s = done (almEvent 6 0 (raiseAxes (Fc.TRIP_IN i) (s.rd (Reg.OUT_TRIPt_AXMASK i)) (tripLatched i s))) := by
  obtain ⟨hneEn, hneMask, -⟩ := tripFld_ne i
  have hen : (s.wrBit Reg.OUT_TRIP_STAT_LEVEL i true).on (Reg.OUT_TRIPt_EN i) = true := (State.on_wr_ne _ _ _ _ hneEn).trans hon
  have hmask : (s.wrBit Reg.OUT_TRIP_STAT_LEVEL i true).rd (Reg.OUT_TRIPt_AXMASK i) = s.rd (Reg.OUT_TRIPt_AXMASK i) :=
    State.rd_wr_ne _ _ _ _ hneMask
  show execTripInput i s = _
  rw [execTripInput, hlive, if_neg (by simp)]
  dsimp only
  rw [hen, hmask]
  rfl

theorem tripIn_class (i : Fin 8) : faultClass (Fc.TRIP_IN i) ≠ .i ∧ oncePerFrame (Fc.TRIP_IN i) = false ∧
    blockFaultIrq (Fc.TRIP_IN i) = some 104 := by
  have hall : ∀ i : Fin 8, faultClass (Fc.TRIP_IN i) ≠ .i ∧ oncePerFrame (Fc.TRIP_IN i) = false ∧
    blockFaultIrq (Fc.TRIP_IN i) = some 104 := by decide
  exact hall i

theorem tripStat_ofFaults : Fld.ofFaults Reg.OUT_TRIP_STAT_LEVEL = false ∧ Fld.ofFaults Reg.OUT_TRIP_STAT_LATCH = false := by decide

/-- TRIP_INPUT of an enabled input (R202, R221). -/
theorem tripInput_completes {i : Fin 8} {s : State} (hlive : s.live pdOUT = true) (hon : s.on (Reg.OUT_TRIPt_EN i) = true) :
    let mask := s.rd (Reg.OUT_TRIPt_AXMASK i)
    Completes (.tripInput i) s fun t =>
    t.rd Reg.OUT_TRIP_STAT_LEVEL = (s.wrBit Reg.OUT_TRIP_STAT_LEVEL i true).rd Reg.OUT_TRIP_STAT_LEVEL ∧
    t.bit Reg.OUT_TRIP_STAT_LATCH i = true ∧
    (∀ j < 8, j ≠ i.val → t.bit Reg.OUT_TRIP_STAT_LATCH j = s.bit Reg.OUT_TRIP_STAT_LATCH j) ∧
    (∀ n < 8, (t.o n).tripHeld = ((s.o n).tripHeld || tb mask n) ∧ (t.o n).block = (s.o n).block ∧
      (t.o n).pend = (s.o n).pend) ∧
    (∀ n < 8, tb mask n = true → t.tripped n = true ∧ ∀ x, t.switches n x = (false, false)) ∧
    t.isHeld (Fc.TRIP_IN i) = true ∧ t.pends 104 = true ∧ t.time = s.time ∧ t.com = s.com := by
  intro mask
  obtain ⟨u, hu⟩ : ∃ u, u = tripLatched i s := ⟨_, rfl⟩
  obtain ⟨hclass, honce, hsrc⟩ := tripIn_class i
  obtain ⟨t, ht⟩ : ∃ t, t = settleAll (almEvent 6 0 (raiseAxes (Fc.TRIP_IN i) mask u)) := ⟨_, rfl⟩
  have hlater : OnlyFaults (raiseAxes (Fc.TRIP_IN i) mask u) t := ht ▸ (OnlyFaults.almEvent 6 0 _).trans (.settleAll _)
  have hall : OnlyFaults u t := (OnlyFaults.raiseAxes _ _ u).trans hlater
  have hlatch : ∀ j < 8, t.bit Reg.OUT_TRIP_STAT_LATCH j = if i.val = j then true else s.bit Reg.OUT_TRIP_STAT_LATCH j := by
    intro j hj
    rw [hall.bit _ _ tripStat_ofFaults.2, State.bit, hu, tripLatched_rd]
    refine (State.bit_wrBit _ _ _ _ _ _ rfl hj).trans ?_
    split
    · rfl
    · exact State.bit_wr_ne _ _ _ _ _ (by decide)
  have hout : ∀ n < 8, (t.o n).tripHeld = ((s.o n).tripHeld || tb mask n) ∧ (t.o n).block = (s.o n).block ∧ (t.o n).pend = (s.o n).pend := by
    intro n hn
    have ho : u.o n = { s.o n with tripHeld := (s.o n).tripHeld || tb mask n } := by
      have hmem : decide (n ∈ bitsOf 8 mask) = tb mask n := by
        rw [Bool.eq_iff_iff, decide_eq_true_iff, mem_bitsOf]
        exact ⟨fun h => h.2, fun h => ⟨hn, h⟩⟩
      rw [hu, tripLatched, each_holdTrip_o, hmem]
      rfl
    rw [hall.out n, ho]
    exact ⟨rfl, rfl, rfl⟩
  refine ⟨t, (execTripInput_enabled hlive hon).trans (by rw [ht, hu]; rfl), ?_, ?_, fun j hj hne => ?_, hout, fun n hn hmask => ?_, ?_, ?_, ?_, ?_⟩
  · rw [hall.rd _ tripStat_ofFaults.1, hu, tripLatched_rd]
    exact State.rd_wr_ne _ _ _ _ (by decide)
  · rw [hlatch i i.isLt, if_pos rfl]
  · rw [hlatch j hj, if_neg (Ne.symm hne)]
  · have htripped : t.tripped n = true := by simp [State.tripped, hout n hn, hmask]
    exact ⟨htripped, fun x => by simp [State.switches, htripped]⟩
  · exact hlater.held _ (raiseAxes_isHeld _ _ u hclass honce)
  · exact hlater.pends 104 (by decide) (raise_blockPends u honce hsrc)
  · rw [hall.time, hu, (tripLatched_frame i s).1]
  · rw [hall.com, hu, (tripLatched_frame i s).2]

/-! ### TRIP_RELEASE -/

theorem execTripRelease_follows {i : Fin 8} {b : Bool} {s : State} (hlive : s.live pdOUT = true)
    (hfree : s.on (Reg.OUT_TRIPt_EN i) = false ∨ b = false) :
    exec (.tripRelease i b) s = done (s.wrBit Reg.OUT_TRIP_STAT_LEVEL i b) := by
  show execTripRelease i b s = _
  rw [execTripRelease, hlive, if_neg (by simp), if_neg (by rcases hfree with h | h <;> simp [h])]

theorem execTripRelease_none {i : Fin 8} {s : State} (hon : s.on (Reg.OUT_TRIPt_EN i) = true) :
    exec (.tripRelease i true) s = .next s := by
  show execTripRelease i true s = _
  simp [execTripRelease, hon]

/-! ### TRIP_LATCH_CLEAR -/

/-- Taking bits away halves with the word. -/
theorem andNotW_div_two (a b : Nat) : andNotW a b / 2 = andNotW (a / 2) (b / 2) := by
  have hhalf : (a &&& b) / 2 = a / 2 &&& b / 2 := Nat.and_div_two
  have hle : (a &&& b) ≤ a := Nat.and_le_left
  have hodd := @Nat.and_mod_two_eq_one a b
  unfold andNotW
  rw [← hhalf]
  omega

theorem testBit_andNotW (a b n : Nat) : (andNotW a b).testBit n = (a.testBit n && ! b.testBit n) := by
  induction n generalizing a b with
  | zero =>
    have hle : (a &&& b) ≤ a := Nat.and_le_left
    have hodd := @Nat.and_mod_two_eq_one a b
    rw [Bool.eq_iff_iff]
    simp only [Nat.testBit_zero, andNotW, Bool.and_eq_true, Bool.not_eq_true', decide_eq_true_eq, decide_eq_false_iff_not]
    omega
  | succ n ih => rw [Nat.testBit_succ, andNotW_div_two, ih, ← Nat.testBit_succ, ← Nat.testBit_succ]

theorem tb_andNotW (a b n : Nat) : tb (andNotW a b) n = (tb a n && ! tb b n) := by
  rw [tb_eq_testBit, testBit_andNotW, ← tb_eq_testBit, ← tb_eq_testBit]

theorem tripMask_congr {s t : State} (hlatch : t.rd Reg.OUT_TRIP_STAT_LATCH = s.rd Reg.OUT_TRIP_STAT_LATCH)
    (hmask : ∀ i < 8, t.rd (Reg.OUT_TRIPt_AXMASK i) = s.rd (Reg.OUT_TRIPt_AXMASK i)) : t.tripMask = s.tripMask := by
  unfold State.tripMask
  refine List.foldl_ext _ _ _ fun m i hi => ?_
  rw [State.bit, hlatch, hmask i (List.mem_range.1 hi)]
  rfl

/-- Axis n is released where it is DISABLED and no latch covers it (R202). -/
def tripFree (n : Nat) (s : State) : State :=
  s.when (s.ax n = axDISABLED && ! tb s.tripMask n) fun s => s.setO n { s.o n with tripHeld := false }

theorem tripFree_frame (n : Nat) (s : State) : ∃ o, tripFree n s = { s with out := o } := by
  unfold tripFree State.when
  split <;> exact ⟨_, rfl⟩

theorem each_tripFree_frame (l : List Nat) (s : State) : ∃ o, s.each l tripFree = { s with out := o } := by
  induction l generalizing s with
  | nil => exact ⟨_, rfl⟩
  | cons a l ih =>
    obtain ⟨o, ho⟩ := tripFree_frame a s
    obtain ⟨o', ho'⟩ := ih (tripFree a s)
    exact ⟨o', ho'.trans (by rw [ho])⟩

theorem tripFree_o (a n : Nat) (s : State) : ((tripFree a s).o n).tripHeld =
    if a = n ∧ s.ax n = axDISABLED ∧ tb s.tripMask n = false then false else (s.o n).tripHeld := by
  by_cases hfree : s.ax a = axDISABLED ∧ tb s.tripMask a = false
  · rw [tripFree, State.when, if_pos (by simp [hfree]), State.o_setO]
    by_cases ha : a = n
    · subst ha
      rw [if_pos rfl, if_pos ⟨rfl, hfree⟩]
    · rw [if_neg ha, if_neg fun h => ha h.1]
  · rw [tripFree, State.when, if_neg (by simpa using hfree), if_neg]
    rintro ⟨rfl, h⟩
    exact hfree h

theorem each_tripFree_o (l : List Nat) (s : State) (n : Nat) : ((s.each l tripFree).o n).tripHeld =
    if n ∈ l ∧ s.ax n = axDISABLED ∧ tb s.tripMask n = false then false else (s.o n).tripHeld := by
  induction l generalizing s with
  | nil => simp [State.each]
  | cons a l ih =>
    obtain ⟨o, ho⟩ := tripFree_frame a s
    have hax : (tripFree a s).ax n = s.ax n := by rw [ho]; rfl
    have hmask : (tripFree a s).tripMask = s.tripMask := by rw [ho]; rfl
    refine (ih (tripFree a s)).trans ?_
    rw [hax, hmask, tripFree_o]
    by_cases hfree : s.ax n = axDISABLED ∧ tb s.tripMask n = false
    · by_cases hn : n = a
      · subst hn
        simp [hfree]
      · simp [hfree, hn, Ne.symm hn]
    · simp [hfree]

/-- The latches once the written ones whose input is inactive are clear (R202). -/
def tripCleared (mask : Nat) (s : State) : State :=
  s.wr Reg.OUT_TRIP_STAT_LATCH (andNotW (s.rd Reg.OUT_TRIP_STAT_LATCH) (andNotW mask (s.rd Reg.OUT_TRIP_STAT_LEVEL)))

theorem tripCleared_bit (mask : Nat) (s : State) (i : Nat) (hi : i < 8) : (tripCleared mask s).bit Reg.OUT_TRIP_STAT_LATCH i =
    (s.bit Reg.OUT_TRIP_STAT_LATCH i && ! (tb mask i && ! s.bit Reg.OUT_TRIP_STAT_LEVEL i)) := by
  rw [State.bit, tripCleared, State.rd_wr_self, tb_eq_testBit, Nat.testBit_mod_two_pow, ← tb_eq_testBit, tb_andNotW, tb_andNotW]
  simp [Reg.OUT_TRIP_STAT_LATCH, hi, State.bit]

theorem execTripLatchClear_eq (mask : BitVec 8) {s : State} (hlive : s.live pdOUT = true) :
    exec (.tripLatchClear mask) s = done ((tripCleared mask.toNat s).each (List.range 8) tripFree) := by
  show execTripLatchClear mask s = _
  rw [execTripLatchClear, hlive, if_neg (by simp)]
  rfl

theorem tripLatchClear_completes (mask : BitVec 8) {s : State} (hlive : s.live pdOUT = true) : Completes (.tripLatchClear mask) s fun t =>
    (∀ i < 8, t.bit Reg.OUT_TRIP_STAT_LATCH i = (s.bit Reg.OUT_TRIP_STAT_LATCH i &&
      ! (mask.getLsbD i && ! s.bit Reg.OUT_TRIP_STAT_LEVEL i))) ∧
    (∀ n < 8, (t.o n).tripHeld = if s.ax n = axDISABLED ∧ tb t.tripMask n = false then false else (s.o n).tripHeld) ∧
    (∀ f, Fld.ofFaults f = false → f.key ≠ Reg.OUT_TRIP_STAT_LATCH.key → t.rd f = s.rd f) ∧ t.com = s.com ∧ t.time = s.time := by
  refine completes_of_done (execTripLatchClear_eq mask hlive) fun t ht => ?_
  replace ht := ht.1
  obtain ⟨u, hu⟩ : ∃ u, u = tripCleared mask.toNat s := ⟨_, rfl⟩
  rw [← hu] at ht
  obtain ⟨o, hframe⟩ := each_tripFree_frame (List.range 8) u
  obtain ⟨w, hw⟩ : ∃ w, w = u.each (List.range 8) tripFree := ⟨_, rfl⟩
  have hheld : ∀ n, (w.o n).tripHeld = if n ∈ List.range 8 ∧ u.ax n = axDISABLED ∧ tb u.tripMask n = false then false
      else (u.o n).tripHeld := fun n => hw ▸ each_tripFree_o _ u n
  rw [← hw] at ht hframe
  have hrd : ∀ f, Fld.ofFaults f = false → t.rd f = u.rd f := fun f hf => by rw [ht.rd f hf, hframe]; rfl
  have hother : ∀ f, f.key ≠ Reg.OUT_TRIP_STAT_LATCH.key → u.rd f = s.rd f := fun f hf => by
    rw [hu]; exact State.rd_wr_ne _ _ _ _ (Ne.symm hf)
  have hlatch := hrd _ tripStat_ofFaults.2
  refine ⟨fun i hi => ?_, fun n hn => ?_, fun f hf hne => (hrd f hf).trans (hother f hne), ?_, ?_⟩
  · rw [State.bit, hlatch, hu]
    refine (tripCleared_bit _ s i hi).trans ?_
    rw [tb_eq_testBit]; rfl
  · have hax : u.ax n = s.ax n := hother _ (by simp only [Reg.SYS_AXn_STAT_STATE, Reg.OUT_TRIP_STAT_LATCH]; omega)
    have hmask : t.tripMask = u.tripMask :=
      tripMask_congr hlatch fun i hi => hrd _ (Fld.ofPlant_not_ofFaults (outFlds_plant ⟨i, hi⟩ _ (by simp [outFlds])))
    have ho : u.o n = s.o n := by rw [hu]; rfl
    have hsame : (t.o n).tripHeld = (w.o n).tripHeld := by rw [ht.out n]
    rw [hsame, hheld, hmask]
    simp only [List.mem_range, hn, true_and, hax, ho]
  · rw [ht.com, hframe, hu]; rfl
  · rw [ht.time, hframe, hu]; rfl

/-! ### PD_OUT off -/

/-- A command of a domain that is off does nothing: the model's choice (notes/assumptions/21.md). -/
theorem execOut_off {s : State} (hoff : s.live pdOUT = false) (n : Fin 8) (x : Fin 3) (i : Fin 8) (b : Bool) (m : BitVec 8) :
    ∀ c ∈ [Instr.blockInForce n, .legTransition n x, .incomingTurnOn n x, .tripInput i, .tripRelease i b, .tripLatchClear m],
      exec c s = .next s := by
  simp only [List.forall_mem_cons, List.not_mem_nil, false_implies, implies_true, and_true]
  exact ⟨if_pos (by simp [hoff]), if_pos (by simp [hoff]), if_pos (by simp [hoff]), if_pos (by simp [hoff]), if_pos (by simp [hoff]),
    if_pos (by simp [hoff])⟩

/-- Settles O14, command by command. -/
theorem blocksLegsAndTrips : Obligations.BlocksLegsAndTrips := by
  unfold Obligations.BlocksLegsAndTrips
  exact ⟨fun n x i b m s hoff c hc => completes_of_next (execOut_off hoff n x i b m c hc) rfl,
    fun n s at' b rest hlive hpend => blockInForce_completes hlive hpend,
    fun n s hpend => completes_of_next (execBlockInForce_none hpend) rfl,
    fun n x h s hlive hexecutes hmoves hfirst => legTransition_completes hlive hexecutes hmoves hfirst,
    fun n x s hnone => completes_of_next (execLegTransition_none hnone) rfl,
    fun n x at8 s hlive hswitches hon => incomingTurnOn_completes hlive hswitches hon,
    fun n x s hnone => completes_of_next (execIncomingTurnOn_none hnone) rfl,
    fun i s hlive hoff => completes_of_done (execTripInput_disabled hlive hoff) fun t ht => ht,
    fun i s hlive hon => tripInput_completes hlive hon,
    fun i b s hlive hfree => completes_of_done (execTripRelease_follows hlive hfree) fun t ht => ht,
    fun i s hon => completes_of_next (execTripRelease_none hon) rfl,
    fun mask s hlive => tripLatchClear_completes mask hlive⟩

end Sys2Proof.Machine
end
